-- ==== Sys2Proof/Word.lean ====
section
/-! DEFINITION. The word types of the LF7 model and the shape of its sparse tables.
Registers are 64 bits wide (R7), multi-byte fields are little-endian (R8). -/

namespace Sys2Proof

/-- A 64-bit register or program word (R7, R88). -/
abbrev W64 := BitVec 64
/-- A 32-bit count or key. -/
abbrev W32 := BitVec 32
/-- One byte of a structure in memory (R8). -/
abbrev Byte := BitVec 8
/-- A byte string, lowest address first. -/
abbrev Bytes := List Byte

/-- A sparse table: key and entry pairs, keys strictly rising, no entry equal to the table's
default. Two tables that read the same everywhere are then equal as data. -/
abbrev Tab (α : Type) := List (Nat × α)

/-- A byte memory: cells at strictly rising addresses, none equal to what an unlisted address reads. -/
abbrev Mem := List Host.Cell

end Sys2Proof
end

