-- ==== Sys2Proof/Machine/Bits.lean ====
section
/-! DEFINITION. Bit-field, byte-order and sign helpers (R8), and the operations of sparse tables
and byte memories in their canonical form. -/

namespace Sys2Proof.Machine

/-- Field of `len` bits starting at bit `lo` of a number. -/
def fldN (w lo len : Nat) : Nat := w / 2 ^ lo % 2 ^ len

/-- Field of `len` bits starting at bit `lo`. -/
def fld {n : Nat} (w : BitVec n) (lo len : Nat) : Nat := fldN w.toNat lo len

/-- One bit as a Bool. -/
def bit {n : Nat} (w : BitVec n) (i : Nat) : Bool := w.getLsbD i

/-- A Bool as a bit. -/
def b2n (b : Bool) : Nat := if b then 1 else 0

/-- A 64-bit word from a number, modulo 2^64. -/
def w64 (n : Nat) : W64 := BitVec.ofNat 64 n

/-- A 32-bit word from a number, modulo 2^32. -/
def w32 (n : Nat) : W32 := BitVec.ofNat 32 n

/-- `v` placed in a field of `len` bits at bit `lo`, as a number to be added. -/
def place (lo len v : Nat) : Nat := v % 2 ^ len * 2 ^ lo

/-- The number whose field of `len` bits at `lo` is replaced by `v`. -/
def putFld (w lo len v : Nat) : Nat := w - fldN w lo len * 2 ^ lo + place lo len v

/-- Two's complement reading of the low `len` bits. -/
def signed (len v : Nat) : Int :=
  let x := v % 2 ^ len
  if x < 2 ^ (len - 1) then (x : Int) else (x : Int) - (2 ^ len : Nat)

/-- An integer as `len` bits, two's complement. -/
def wrapInt (len : Nat) (v : Int) : Nat := (v % (2 ^ len : Nat)).toNat

/-- `n` little-endian bytes of a number (R8). -/
def bytesLE : Nat → Nat → Bytes
  | 0, _ => []
  | n + 1, v => BitVec.ofNat 8 v :: bytesLE n (v / 256)

/-- The number little-endian bytes spell (R8). -/
def ofLE : Bytes → Nat
  | [] => 0
  | b :: t => b.toNat + 256 * ofLE t

/-- Little-endian number at `len` bytes from offset `off` of a byte string; bytes past its end read 0. -/
def leAt (bs : Bytes) (off len : Nat) : Nat := ofLE ((bs.drop off).take len)

/-- 64-bit words as bytes. -/
def wordsBytes (ws : List W64) : Bytes := ws.flatMap fun w => bytesLE 8 w.toNat

/-- The 64-bit words of `n` × 8 bytes. -/
def bytesWords : Nat → Bytes → List W64
  | 0, _ => []
  | n + 1, bs => w64 (leAt bs 0 8) :: bytesWords n (bs.drop 8)

/-- A byte string cut or zero-filled to `n` bytes. -/
def fitTo (n : Nat) (bs : Bytes) : Bytes := bs.take n ++ List.replicate (n - bs.length) 0

/-- Word `i` of a list of words, 0 beyond its end. -/
def wd (ws : List W64) (i : Nat) : W64 := ws.getD i 0

/-- Element `i` replaced, if there is one. -/
def setAt {α : Type} : List α → Nat → α → List α
  | [], _, _ => []
  | _ :: t, 0, v => v :: t
  | h :: t, i + 1, v => h :: setAt t i v

/-- Division rounded up. -/
def ceilDiv (a b : Nat) : Nat := (a + b - 1) / b

/-- A counter that saturates at 2^64 − 1 (R501, R37). -/
def satInc (c : W64) (n : Nat) : W64 := if c.toNat + n < 2 ^ 64 then w64 (c.toNat + n) else w64 (2 ^ 64 - 1)

/-- The entry at a key, the table's default where none is listed. -/
def tget {α : Type} (d : α) : Tab α → Nat → α
  | [], _ => d
  | (k, v) :: t, i => if i = k then v else tget d t i

/-- A table with an entry inserted at its key's place, over what stood there. -/
def tins {α : Type} : Tab α → Nat → α → Tab α
  | [], i, v => [(i, v)]
  | (k, w) :: t, i, v => if i < k then (i, v) :: (k, w) :: t else if i = k then (i, v) :: t else (k, w) :: tins t i v

/-- A table with one entry written, in canonical form: writing the default removes the entry. -/
def tput {α : Type} [DecidableEq α] (d : α) (t : Tab α) (i : Nat) (v : α) : Tab α :=
  if v = d then t.filter (fun e => e.1 ≠ i) else tins t i v

/-- One entry changed by a function. -/
def tmod {α : Type} [DecidableEq α] (d : α) (t : Tab α) (i : Nat) (f : α → α) : Tab α :=
  tput d t i (f (tget d t i))

/-- The keys listed, in rising order. -/
def tkeys {α : Type} (t : Tab α) : List Nat := t.map (·.1)

/-- All entries changed by a function (entries at the default are not listed and stay). -/
def tmap {α : Type} [DecidableEq α] (d : α) (t : Tab α) (f : Nat → α → α) : Tab α :=
  t.foldr (fun kv acc => tput d acc kv.1 (f kv.1 kv.2)) []

/-- Keys strictly rising above `lo` and no entry equal to the default. -/
def tabWfFrom {α : Type} [DecidableEq α] (d : α) : Nat → Tab α → Bool
  | _, [] => true
  | lo, (k, v) :: t => decide (lo ≤ k) && decide (v ≠ d) && tabWfFrom d (k + 1) t

/-- The canonical form of a table. -/
def tabWf {α : Type} [DecidableEq α] (d : α) (t : Tab α) : Bool := tabWfFrom d 0 t

/-- The byte at an address; an unlisted address reads 0. -/
def memGet (m : Mem) (a : Nat) : Byte := tget 0 m a

/-- One byte written, in canonical form. -/
def memPut (m : Mem) (a : Nat) (b : Byte) : Mem := tput 0 m a b

/-- `n` bytes from an address upward. -/
def memRead (m : Mem) (a : Nat) : Nat → Bytes
  | 0 => []
  | n + 1 => memGet m a :: memRead m (a + 1) n

/-- A byte string written from an address upward. -/
def memWrite (m : Mem) (a : Nat) : Bytes → Mem
  | [] => m
  | b :: t => memWrite (memPut m a b) (a + 1) t

/-- A byte string written under byte enables: absent bytes are left as they are (R46). -/
def memWriteBE (m : Mem) (a : Nat) : List (Option Byte) → Mem
  | [] => m
  | some b :: t => memWriteBE (memPut m a b) (a + 1) t
  | none :: t => memWriteBE m (a + 1) t

/-- All cells of a range of addresses removed: they read 0. -/
def memClear (m : Mem) (a n : Nat) : Mem := m.filter fun c => !(decide (a ≤ c.1) && decide (c.1 < a + n))

/-- The canonical form of a byte memory. -/
def Memory.wf (m : Mem) : Bool := tabWf 0 m

end Sys2Proof.Machine
end

