-- ==== Sys2Proof/Machine/StCc.lean ====
section
/-! DEFINITION. State of the control complex (chapter *Control Complex*), of control programs
(*The Vywa Programming Model*) and of the Last vault (*The Last Journal Vault*). -/

namespace Sys2Proof.Machine

/-- One LFP transaction: the fields of the transaction header (R257, R342) and its payload. -/
structure Frame where
  op     : Nat := 0
  tc     : Nat := 0
  src    : Nat := 0
  dst    : Nat := 0
  comp   : Nat := 0
  mapE   : Nat := 0
  routeE : Nat := 0
  region : Nat := 0
  rkey   : Nat := 0
  stream : Nat := 0
  tag    : Nat := 0
  issueT : Nat := 0
  len    : Nat := 0
  subop  : Nat := 0
  opw    : Nat := 0
  etype  : Nat := 0
  group  : Nat := 0
  status : Nat := 0
  rsw    : Nat := 0
  mediaErr : Bool := false
  dropped : Bool := false
  colour : Nat := 0
  /-- Byte enables of a WRITE or PWRITE; empty when every byte is enabled. -/
  be     : List Bool := []
  data   : Bytes := []
deriving DecidableEq, Repr

/-- Access path of a register access: the CXL.io port or the sideband (R82). -/
inductive Path where
  | cxl | sideband
deriving DecidableEq, Repr

/-- Part number of the module (R1). -/
inductive Variant where
  | a1 | g1 | t1
deriving DecidableEq, Repr

/-- Object status word (R76): ENABLED, CHECKING, DRAINING, REASON and the owner-defined bits. -/
structure ObjStatus where
  enabled  : Bool := false
  checking : Bool := false
  draining : Bool := false
  reason   : Nat := 0
  owner    : W64 := 0
deriving DecidableEq, Repr

/-- Change stamp of an object (R96): the sequence number and ordinal of the last instruction that
changed it; `set` is false while none has. -/
structure Stamp where
  set : Bool := false
  seq : Nat := 0
  ord : Nat := 0
deriving DecidableEq, Repr

/-- Host-facing mailboxes 0–63 and internal mailboxes 0–15 (numbers 64–79 here), R48–R54. -/
structure Mailbox where
  inQ      : Tab W64 := []
  inFull   : Bool := false
  inLen    : Nat := 0
  outQ     : List W64 := []
  outFull  : Bool := false
  outLen   : Nat := 0
  /-- Messages waiting for OUT FULL to clear, oldest first. -/
  outWait  : List (List W64) := []
  ctl      : Nat := 0
  malformed : Bool := false
  overrun  : Bool := false
  priv     : Nat := 0
  part     : Nat := 0
  comp     : Nat := 0
  /-- Status word of its binding; DESIGN CHOICE (log 127): mailbox 0 reads ENABLED 0 from reset. -/
  bind     : ObjStatus := {}
  /-- Programs taken from the mailbox that have not ended (R52). -/
  running  : Nat := 0
deriving DecidableEq, Repr

/-- A doorbell waiting for, or in, acceptance (R62–R64). -/
structure Bell where
  f        : Frame := {}
  /-- It passed the checks of R62 and is the one being accepted. -/
  open_    : Bool := false
  accepted : Nat := 0
  /-- The read of the next slot is under way. -/
  reading  : Bool := false
  /-- A descriptor read from the slot and being staged. -/
  staged   : Option Bytes := none
  /-- Its queue was disabled during its acceptance, which stops before the next slot (R61). -/
  cut      : Bool := false
deriving DecidableEq, Repr

/-- One entry of the job-queue table (R60, R61). -/
structure JobQueue where
  base     : Nat := 0
  endpoint : Nat := 0
  comp     : Nat := 0
  log2     : Nat := 0
  status   : ObjStatus := {}
  accept   : W32 := 0
  /-- Sequence number of the last entry accepted since the queue was enabled, else 0 (R24). -/
  lastSeq  : Nat := 0
  /-- Doorbells in arrival order; the head is the one being accepted (R64). -/
  bells    : List Bell := []
deriving DecidableEq, Repr

/-- One of the 19 rings (R66). -/
structure Ring where
  base : Nat := 0
  size : Nat := 16
  prod : W32 := 0
  cons : W32 := 0
  /-- Fault ring: records held for want of space; meter ring: the backlog; oldest first (R67, R68). -/
  held : List (List W64) := []
  /-- Source whose held record was written last, by its block code (R56, R67). -/
  turn : Nat := 0
  /-- Copies kept in the Last until CONS passes the record (R67, R68). -/
  copies : List (List W64) := []
  /-- `CC_FQ_OVF` of a fault ring, `CC_RING_DROP` of the others. -/
  lost : W64 := 0
deriving DecidableEq, Repr

/-- What a control sequencer waits for inside an instruction (R253's completion points). -/
inductive CpWait where
  | none
  /-- MAP.EPOCH waits for PREVIOUS of a composition to drain (R408). -/
  | epochDrain (comp : Nat)
  /-- FENCE waits for its collection (R283). -/
  | fence
  /-- EXT.SCRUB waits for the scrub's end (R445). -/
  | scrub (ext : Nat)
  /-- ASID.INVAL waits for translated requests (R376). -/
  | inval (asid action fid status reason since : Nat)
  /-- WEIGHTS.REG waits for the tree digest (R413). -/
  | weights (set : Nat)
  /-- SPARE.SWAP of a unit, or with type 0 of a seam sequencer, waits for its job to retire (R513, R515). -/
  | spareUnit (ty p : Nat)
  /-- TABLE.LOAD INSTALL waits for OLD's references, by resident entry (R203). -/
  | install (r : Nat)
  /-- TABLE.LOAD INSTALL waits for residency on all dies (R203). -/
  | resident (r : Nat)
  /-- POWER.REQ waits for leave (R510). -/
  | leave
  /-- SPARE.SWAP of a lane waits for the spare to be in service (R515). -/
  | spare (port : Nat)
  /-- WAITCNT (R251): object, threshold, equality test, destination, deadline (0 for none), and whether the test has held after some
  update (R252). -/
  | count (obj : Nat) (thr : Nat) (eq : Bool) (rd : Nat) (deadline : Nat) (met : Bool)
  /-- A remote ARRIVE or SIGNAL waits for its reply (R250). -/
  | update
  /-- LEASE ACCEPT waits for the lender's answer (R400). -/
  | lease (n : Nat)
  /-- HANDOFF or RECLAIM waits for its outcome (R411). -/
  | handoff
  /-- The program is stopped by a partition reset and will run again (R534). -/
  | stopped
deriving DecidableEq, Repr

/-- An active loop of a unit (R223): first word of the body, the matching ENDL, iterations left
(0 when unbounded), and the induction step. -/
structure LoopFrame where
  body    : Nat := 0
  endl    : Nat := 0
  bounded : Bool := true
  left    : Nat := 0
  ind     : Nat := 0
  stride  : Nat := 0
deriving DecidableEq, Repr

/-- A control sequencer (R71) and the program it runs. -/
structure CtlSeq where
  /-- `CC_SEQ_STATUS.STATE`: 0 idle, 1 running, 2 spare, 3 retired. -/
  state   : Nat := 0
  seqNo   : Nat := 0
  part    : Nat := 0
  priv    : Nat := 0
  comp    : Nat := 0
  mailbox : Nat := 0
  tag     : Nat := 0
  image   : Bytes := []
  pc      : Nat := 0
  loops   : List LoopFrame := []
  s       : Tab W64 := []
  p       : Nat := 1
  ordinal : Nat := 0
  /-- Count of tagged updates issued (R274). -/
  updates : Nat := 0
  started : Nat := 0
  wait    : CpWait := .none
  /-- Leave held by POWER.REQ, with its class (R510). -/
  leave   : Bool := false
  leaveW  : Nat := 0
deriving DecidableEq, Repr

/-- A program whose message passed R575 and whose staging runs (R22). -/
structure StagedProg where
  mailbox : Nat := 0
  tag     : Nat := 0
  priv    : Nat := 0
  part    : Nat := 0
  comp    : Nat := 0
  image   : Bytes := []
  /-- CP_BULK: the window offset of the program; its pages flip back on acceptance (R55). -/
  bulkOff : Option Nat := none
deriving DecidableEq, Repr

/-- Outcome of the last host access: completed, or completed with Unsupported Request (R7). -/
inductive Resp where
  | none
  | ok
  | unsupported
  | data (v : W64)
  | bytes (b : Bytes)
deriving DecidableEq, Repr

/-- An IDE stream of the management port (R34): the keys delivered and the ones in use, each by key set in bit 0 and direction in
bit 1. -/
structure IdeStream where
  keys : List Nat := []
  go   : List Nat := []
deriving DecidableEq, Repr

/-- State of the control complex. -/
structure CcState where
  bootDone : Bool := false
  ideRequired : Bool := false
  /-- The IDE streams of the management port: CXL.io and CXL.cachemem (R34). -/
  ideIo    : IdeStream := {}
  ideMem   : IdeStream := {}
  stage    : Nat := 0
  bootReason : Nat := 0
  intStatus : W64 := 0
  intMask  : W64 := 0x0000FFFF00FFFFFF
  mbxPend  : W32 := 0
  mbxMask  : W32 := 0xFFFFFFFF
  /-- Vectors whose message has been sent since their pending bit was last cleared (R42). -/
  sent     : W64 := 0
  msixTable : Tab W64 := []
  pba      : W64 := 0
  genBase  : Nat := 0x2C00000
  genSize  : Nat := 0x3AD400000
  hoBase   : Nat := 0x3B0000000
  hoSize   : Nat := 0x50000000
  bulkViol : W64 := 0
  ueValid  : Bool := false
  ueOffset : Nat := 0
  /-- Bulk-window contents outside the ownership flags. -/
  bulk     : Mem := []
  /-- Ownership flags of general-area pages, by page index (R45). -/
  flags    : Mem := []
  mbx      : Tab Mailbox := [(0, { priv := 1 })]
  locks    : Tab Nat := []
  jq       : Tab JobQueue := []
  rings    : Tab Ring := []
  wdog     : Nat := 10000
  /-- `CC_AON_STATUS`: the last operation, and its state; the operation that runs, 0 for none (R80). -/
  aonOp    : Nat := 0
  aonState : Nat := 0
  aonRun   : Nat := 0
  snap     : Tab W64 := []
  warmCount : Nat := 0
  crashIdx : Nat := 0
  devAreaLost : Bool := false
  resetCause : Nat := 8
  recLayer : Nat := 0
  recCause : Nat := 0
  recovery : Bool := false
  part     : Tab ObjStatus := []
  partResets : Tab Nat := []
  partState : Tab Nat := []
  seqs     : Tab CtlSeq := []
  /-- Next partition in the round-robin order of R71. -/
  rrPart   : Nat := 0
  /-- COMMITs granted in the last cycle that had one: object, device time and control sequencer (R77). -/
  commits  : List (Nat × Nat × Nat) := []
  staged   : List StagedProg := []
  mgmtFailed : Nat := 0
  /-- Address of the sideband and whether it runs SMBus (R81). -/
  sbAddr   : Nat := 0x4C
  sbSmbus  : Bool := false
  /-- FENCE_ALL stands (R541). -/
  fenceAll : Bool := false
  /-- The boot under way, or the last one, followed a cold reset; RECOVERY was asked of it (R541). -/
  coldBoot : Bool := true
  recReq   : Bool := false
  /-- Active unit counts of `CC_CAP_UNITS` in the order M V S F G D E SEQ (R41). -/
  caps     : List Nat := [0x70, 0x40, 0x20, 0x20, 0x40, 0x30, 0x10, 0x40]
deriving DecidableEq, Repr

/-- Kind of a journal record (R476). -/
inductive JKind where
  | job | program | completion
deriving DecidableEq, Repr

/-- A journal record: its header entry's fields and its body (R476). -/
structure JRec where
  seq      : Nat := 0
  /-- Segment of the journal area that holds the record and its reserved entry (R480). -/
  seg      : Nat := 0
  kind     : JKind := .job
  started  : Bool := false
  exported : Bool := false
  written  : Bool := false
  entries  : Nat := 1
  part     : Nat := 0
  comp     : Nat := 0
  queue    : Nat := 0
  slot     : Nat := 0
  mailbox  : Nat := 0
  priv     : Nat := 0
  tag      : Nat := 0
  length   : Nat := 0
  /-- COMPLETION: SEQ of the completed record. -/
  ofSeq    : Nat := 0
  accepted : Nat := 0
  firstRun : Nat := 0
  /-- COMPLETION: word 1 of the completion record, or status and reason of a program. -/
  word1    : W64 := 0
  doneAt   : Nat := 0
  userTag  : Nat := 0
  /-- PROGRAM: outcomes of owner-word instructions, as ordinal, status and reason (R412). -/
  outcomes : List (Nat × Nat × Nat) := []
  body     : Bytes := []
deriving DecidableEq, Repr

/-- One attestation-log record (R495): its kind, two numbers and a digest. -/
structure LogRec where
  kind   : Nat := 0
  time   : Nat := 0
  object : Nat := 0
  value  : Nat := 0
  digest : Bytes := []
deriving DecidableEq, Repr

/-- A firmware image slot of a layer (R497). -/
structure FwSlot where
  bytes : Bytes := []
  valid : Bool := false
  svn   : Nat := 0
deriving DecidableEq, Repr

/-- A NAND package (`LV_NAND`): 0 in service, 1 failed, 2 absent; spare and retired blocks, and the extremes of its
erase counts. -/
structure NandPkg where
  state   : Nat := 0
  spare   : Nat := 0
  retired : Nat := 0
  eMin    : Nat := 0
  eMax    : Nat := 0
deriving DecidableEq, Repr

/-- State of the Last vault (chapter *The Last Journal Vault*). -/
structure LvState where
  /-- Live records in sequence-number order; completions stand with the record they complete. -/
  recs     : List JRec := []
  nextSeq  : Nat := 0
  /-- The open segment, its entries in use, and the segments that are full and not yet freed (R480). -/
  openSeg  : Nat := 0
  openUsed : Nat := 0
  fullSegs : List Nat := []
  dirty    : Nat := 0
  dirtyHigh : Nat := 256
  dirtyMax : Nat := 512
  wlSpread : Nat := 256
  usable   : Nat := 0
  need     : Nat := 0
  dirtyEff : Nat := 0
  charging : Bool := true
  holdupLow : Bool := false
  /-- `LV_STATUS.STATE`: 0 NORMAL, 1 FULL_DRAIN, 2 FLUSHING, 3 RESTORING, 4 REPLAYING, 5 EXPORTING, 6 EXPORTED. -/
  state    : Nat := 0
  lastCause : Nat := 0
  nandDegraded : Nat := 0
  lpddrFail : Nat := 0
  nand     : Tab NandPkg := []
  rtable   : Tab W64 := []
  /-- Stamps of logical pages: device time of the write and NAND junction temperature at it (R493). -/
  pages    : Tab (Nat × Nat) := []
  /-- The table from logical to physical pages, and the table pages that the mapping cache holds (R492). -/
  mapTab   : Tab Nat := []
  mapCache : List Nat := []
  status   : Tab ObjStatus := []
  /-- Counters of *LV counters*, by index in the table. -/
  ctr      : Tab W64 := []
  /-- Why the flush in progress began; 0 when none is (codes of LAST_CAUSE). -/
  flushCause : Nat := 0
  /-- What follows the flush in progress: 0 service, 1 warm reset, 2 cold reset, 3 power off, 4 exported, 5 the input is lost. -/
  flushThen : Nat := 0
  flushRecovery : Bool := false
  /-- `CC_RESET_CAUSE.CAUSE` of what follows the flush. -/
  flushReset : Nat := 0
  flushStart : Nat := 0
  inputBack : Bool := false
  everStaged : Bool := false
  /-- Sequence number of the last job or program accepted (R54). -/
  lastSeq  : Nat := 0
  /-- Firmware slots by layer × 2 + slot, and the boot record (R497). -/
  fw       : Tab FwSlot := []
  bootSlot : Tab Nat := []
  /-- The IMAGE write under way: layer, source offset and length (R497). -/
  imgWriting : Option (Nat × Nat × Nat) := none
  /-- The EXPORT write under way: area, destination, first record and count (R499). -/
  exporting : Option (Nat × Nat × Nat × Nat) := none
  attLog   : List LogRec := []
  crash    : List (Nat × Nat) := []
  handover : Bytes := []
  /-- Device time at which a planned removal began, and the last sequence number before it, while it runs before its flush
  (R70, R498). -/
  removeStart : Option (Nat × Nat) := none
  /-- Removal step 2 has stopped what still ran (R498). -/
  removeStopped : Bool := false
deriving DecidableEq, Repr

end Sys2Proof.Machine
end

