-- ==== Sys2Proof/Machine/StSeam.lean ====
section
/-! DEFINITION. State of the seam array (chapters *Seam Array and Arithmetic*, *Seam Operations*,
*Vywa Instruction Reference*) and of the Graver codec (*Graver Codec*). -/

namespace Sys2Proof.Machine

/-- One tile: 1,024 data bytes and the 64-byte scale field of a t register (R115). -/
structure Tile where
  data  : BitVec 8192 := 0
  scale : BitVec 512 := 0
deriving DecidableEq, Repr

/-- A lace: beats in flight as a byte FIFO, and whether its producer has closed it (R119, R122).
The DEPTH and BEAT of the lace map set its rate only. -/
structure Lace where
  src    : Nat := 0
  dst    : Nat := 0
  beat   : Nat := 0
  depth  : Nat := 0
  q      : Bytes := []
  closed : Bool := false
deriving DecidableEq, Repr

/-- One read of a stream, or a part of its data: kept in record order until its data enter the lace (R118). -/
structure Piece where
  id    : Nat := 0
  va    : Nat := 0
  len   : Nat := 0
  /-- 0 to be issued, 2 issued, 3 complete. -/
  st    : Nat := 0
  /-- The lace the data enter; 32 for none. -/
  lace  : Nat := 0
  /-- The record it belongs to, by the identity of its first request. -/
  rec_  : Nat := 0
  graver : Bool := false
  /-- A spilled block's stub header, delivered ahead of its data (R199). -/
  stub  : Bytes := []
  data  : Bytes := []
deriving DecidableEq, Repr

/-- What a multi-step instruction has done so far: records or blocks done, whether data were taken (R217),
the record under way with the bytes of it already moved, and what a sweep has counted. -/
structure Progress where
  active : Bool := false
  count  : Nat := 0
  took   : Bool := false
  passed : Nat := 0
  have_  : Bool := false
  addr   : Nat := 0
  rec_   : Nat := 0
  phase  : Nat := 0
  counts : List Nat := []
  sizes  : List Nat := []
  /-- Bytes of the coded slot that a stage sending to a coded receiver has not sent yet (R209). -/
  coded  : Nat := 0
deriving DecidableEq, Repr

/-- A sampled tile whose result is held for its verdict (R517–R519): its destination registers and what they
hold, and an S unit's row, or a block's decoded bytes with their lace; its checker, and the checker's result when it differs. -/
structure ProofHold where
  rds    : List Nat := []
  tiles  : List Tile := []
  /-- Row state that the tile after those of `rds` stands for. -/
  row    : Option Nat := none
  bytes  : Bytes := []
  lace   : Option Nat := none
  checker : Option Nat := none
  chkTiles : List Tile := []
  chkBytes : Bytes := []
  differs : Bool := false
  time   : Nat := 0
deriving DecidableEq, Repr

/-- A block held in a D unit's buffer with the generation it references (R204). -/
structure BlockBuf where
  held   : Bool := false
  bytes  : Bytes := []
  /-- It references generation `gen` of the table. -/
  ref    : Bool := false
  table  : Nat := 0
  gen    : Nat := 0
deriving DecidableEq, Repr

/-- A running stage: its unit's registers and its place in its code (R85). -/
structure Stage where
  ty      : Nat := 0
  phys    : Nat := 0
  spc     : Nat := 0
  pc      : Nat := 0
  loops   : List LoopFrame := []
  code    : Bytes := []
  inL     : Nat := 0
  outL    : Nat := 0
  halted  : Bool := false
  t       : Tab Tile := []
  a       : Tab W64 := []
  p       : Nat := 1
  iv      : Bool := false
  of      : Bool := false
  uf      : Bool := false
  /-- Row states of an S unit: m and l as FP32 bits; absent rows are (−∞, 0). -/
  rows    : Tab (Nat × Nat) := []
  pieces  : List Piece := []
  prog    : Progress := {}
  /-- A D unit's block buffers: the one it decodes from and the one that fills (R192). -/
  buf     : BlockBuf := {}
  fill    : BlockBuf := {}
  /-- Tables an encoding stage references, with the generation (R197). -/
  encRefs : List (Nat × Nat) := []
  /-- Count of tagged updates issued (R274). -/
  updates : Nat := 0
  /-- A sampled tile held for Proof (R517). -/
  hold    : Option ProofHold := none
  /-- The stage waits at a welt RED that has not opened or has not closed. -/
  weltWait : Bool := false
deriving DecidableEq, Repr

/-- What the journal's descriptor and the checks of R106 fixed for a running job. -/
structure JobRun where
  seq     : Nat := 0
  queue   : Nat := 0
  slot    : Nat := 0
  comp    : Nat := 0
  ctx     : Nat := 0
  tenant  : Nat := 0
  asid    : Nat := 0
  pat     : Nat := 0
  /-- The pattern was found enabled, and the job uses it until it retires (R104). -/
  usesPat : Bool := false
  flags   : Nat := 0
  argAddr : Nat := 0
  args    : List W64 := []
  complAddr : Nat := 0
  userTag : Nat := 0
  nosync  : Bool := false
  sync    : Nat := 0
  endpoint : Nat := 0
  pclass  : Nat := 0
  /-- Its stages have started once (R28). -/
  began   : Bool := false
  startT  : Nat := 0
  /-- Device time at which placement began to wait. -/
  waitT   : Nat := 0
  /-- Status of an early end (R21); `none` while the job would end OK. -/
  endStatus : Option Nat := none
  proofRerun : Bool := false
  /-- The job has issued a write, tagged request, multicast store or message (R520). -/
  sent    : Bool := false
  /-- Spilled blocks its ENCODEs have placed (R197). -/
  spills  : Nat := 0
  /-- Units counted as absent for the job, by unit key (R520). -/
  barred  : List Nat := []
  leaveHeld : Bool := false
  /-- The weight set that its argument block names (R179), and the stages that send to a coded receiver, with the address of its
wire tables (R209); the generations each address has been sent. -/
  wset    : Option Nat := none
  wire    : List (Nat × Nat) := []
  wired   : List (Nat × Nat × Nat) := []
  /-- Charge of the pattern in 25 mW units (R506); 0 when its class needs no leave. -/
  charge : Nat := 0
deriving DecidableEq, Repr

/-- A seam sequencer by physical number, with the seam its job holds (R112, R126). -/
structure Seam where
  /-- `SA_SEQ_STATUS.STATE`: 0 idle … 8 draining writes. -/
  state   : Nat := 0
  wait    : Nat := 0
  tenant  : Nat := 0
  ctx     : Nat := 0
  part    : Nat := 0
  logical : Nat := 0
  seqNo   : Nat := 0
  restarts : Nat := 0
  iv      : Bool := false
  of      : Bool := false
  uf      : Bool := false
  first   : Nat := 0
  banks   : Nat := 0
  job     : Option JobRun := none
  s       : Tab W64 := []
  p       : Nat := 1
  pc      : Nat := 0
  loops   : List LoopFrame := []
  code    : Bytes := []
  halted  : Bool := true
  cwait   : CpWait := .none
  updates : Nat := 0
  stages  : Tab Stage := []
  laces   : Tab Lace := []
  mem     : Mem := []
  /-- Cross-die channels held: source die × 4 + destination die, with the count. -/
  chans   : Tab Nat := []
  /-- A job has started since the slice was last scrubbed (R133). -/
  ran     : Bool := false
  /-- The slice must be scrubbed before the next job (R133, R145). -/
  scrubDue : Bool := false
  /-- Device time at which the seam was told to stop (R534). -/
  stopT   : Option Nat := none
  gated   : Bool := true
  awakeAt : Nat := 0
  idleT   : Nat := 0
deriving DecidableEq, Repr

/-- A stage unit by type and physical number (`SA_UNIT`). -/
structure SUnit where
  lastTenant : Nat := 0
  seam    : Nat := 0
  part    : Nat := 0
  logical : Nat := 0
  ce      : Nat := 0
  state   : Nat := 0
  /-- Pattern handle whose code the unit still holds (R107 step 3). -/
  holds   : Option Nat := none
  /-- Clock state (R505): gated, and the device time at which the unit went idle. -/
  gated   : Bool := true
  awakeAt : Nat := 0
  idleT   : Nat := 0
deriving DecidableEq, Repr

/-- A pattern-store slot (R101–R104). -/
structure PatSlot where
  status  : ObjStatus := {}
  gen     : Nat := 0
  ever    : Bool := false
  comp    : Nat := 0
  pwide   : Bool := false
  part    : Nat := 0
  image   : Bytes := []
  digest  : Bytes := []
deriving DecidableEq, Repr

/-- A welt (R152–R158). -/
structure Welt where
  seam    : Nat := 0
  seq     : Nat := 0
  comp    : Nat := 0
  descOff : Nat := 0
  base    : Nat := 0
  lines   : Nat := 0
  expect  : Nat := 0
  op      : Nat := 0
  inType  : Nat := 0
  inPair  : Bool := false
  servers : Nat := 1
  outType : Nat := 0
  rc      : Nat := 0
  stateOff : Nat := 0
  opened  : Bool := false
  deadline : Nat := 0
  timeout : Nat := 0
  /-- Stages that have executed the welt RED on the descriptor, in stage order. -/
  joined  : List Nat := []
  finished : Nat := 0
  excess  : Nat := 0
  closedAt : Option Nat := none
deriving DecidableEq, Repr

/-- State of the seam array. -/
structure SaState where
  ready   : Bool := false
  units   : Tab SUnit := []
  seqs    : Tab Seam := []
  runLim  : Tab Nat := []
  sliceSt : Tab ObjStatus := []
  mapSt   : Tab ObjStatus := []
  cfgSt   : Tab ObjStatus := []
  bankFail : Tab Nat := []
  rowsUsed : Tab Nat := []
  ctr     : Tab W64 := []
  pats    : Tab PatSlot := []
  welts   : List Welt := []
  /-- Round-robin pointers of placement retries by partition (R56, R127). -/
  rrSeq   : Tab Nat := []
  /-- Restarts of jobs that wait for another sequencer, by sequence number (R130). -/
  reruns  : Tab Nat := []
deriving DecidableEq, Repr

/-- An entry of the table store (R202). -/
structure GvStore where
  present : Bool := false
  record  : Bytes := []
  comp    : Nat := 0
  owned   : Bool := false
  lastGen : Nat := 0
  enabled : Bool := false
  reason  : Nat := 0
  res     : Option Nat := none
deriving DecidableEq, Repr

/-- A resident-table entry: NEW and OLD generations with their references (R203–R205). -/
structure GvRes where
  valid   : Bool := false
  table   : Nat := 0
  comp    : Nat := 0
  newGen  : Nat := 0
  newRec  : Bytes := []
  newRefs : Nat := 0
  oldLive : Bool := false
  oldGen  : Nat := 0
  oldRec  : Bytes := []
  oldRefs : Nat := 0
  closing : Bool := false
  draining : Bool := false
  deleting : Bool := false
  /-- An INSTALL waiting for OLD's references, with its sequencer (R203). -/
  pend    : Option Nat := none
  /-- Device time at which that wait began. -/
  waitT   : Nat := 0
  loading : Bool := false
  /-- The generation that INSTALL has retired, until the new one is resident (R203). -/
  retired : Option (Nat × Bytes) := none
deriving DecidableEq, Repr

/-- State of the Graver codec. -/
structure GvState where
  store : Tab GvStore := []
  res   : Tab GvRes := []
  ctr   : Tab W64 := []
deriving DecidableEq, Repr

end Sys2Proof.Machine
end

