-- ==== Sys2Proof/Machine/StFabric.lean ====
section
/-! DEFINITION. State of the transaction engine (*Fabric Transactions and Synchronisation*), of the
switch core (*Switch Core and Traffic Manager*) and of the port complex (*Ports, Lanes and the LFP Link Layer*). -/

namespace Sys2Proof.Machine

/-- What an outstanding request of an LF7 engine is for. -/
inductive ReqFor where
  | piece (seam stage n : Nat)
  | stageUpdate (seam stage : Nat)
  | seqUpdate (seam : Nat)
  | ctlUpdate (cs : Nat)
  | copyRead (eng slot chunk : Nat)
  | copyWrite (eng slot chunk : Nat)
  | copyArrive (eng slot : Nat)
  | copyDesc (eng slot : Nat)
  | copyStatus (eng slot : Nat)
  | mcwCopy (n member : Nat)
  | drain (switch epoch : Nat)
  | mapDrain (comp epoch : Nat)
  | probe (scope switch : Nat)
  | notice
  | lease (n : Nat)
  | mem (n : Nat)
deriving DecidableEq, Repr

/-- A frame of the LF7 at an internal port, with the fabric port of a tray it is addressed to. -/
structure OutFrame where
  f   : Frame := {}
  via : Option Nat := none
deriving DecidableEq, Repr

/-- A request an LF7 engine has issued and that awaits its completion (R264, R265). -/
structure OutReq where
  frame : Frame := {}
  via   : Option Nat := none
  what  : ReqFor := .notice
  issued : Nat := 0
  lastSend : Nat := 0
  held  : Bool := false
deriving DecidableEq, Repr

/-- A reply-cache entry: applied tags with their reply values, and the time until which it is held (R271). -/
structure RcEntry where
  used    : Bool := false
  src     : Nat := 0
  stream  : Nat := 0
  tagHi   : Nat := 0
  applied : Tab (Option W64) := []
  expiry  : Nat := 0
deriving DecidableEq, Repr

/-- A synchronisation object (R285, R286). -/
structure SyncObj where
  status : ObjStatus := {}
  kind   : Nat := 0
  comp   : Nat := 0
  thr    : Nat := 0
  n      : Nat := 0
  notify : Bool := false
  ep     : Nat := 0
  value  : W64 := 0
deriving DecidableEq, Repr

/-- A chunk of a transfer (R279): its place and length, its stage (0 to read, 1 reading, 2 to write,
3 writing, 4 written), the reads outstanding, the bytes read, and the status of its end. -/
structure Chunk where
  off   : Nat := 0
  len   : Nat := 0
  st    : Nat := 0
  /-- Its READs issued, those of them that have not returned, and the data of the others. -/
  sent  : Nat := 0
  left  : List Nat := []
  parts : Tab Bytes := []
  status : Nat := 0
deriving DecidableEq, Repr

/-- A transfer of a copy engine (R278, R279), by its ring index. -/
structure Transfer where
  index  : Nat := 0
  /-- 0 to read its descriptor, 1 reading it, 2 moving, 3 stopped and its status to be written, 4 complete. -/
  st     : Nat := 0
  src    : Nat := 0
  dst    : Nat := 0
  length : Nat := 0
  obj    : Nat := 0
  switch : Nat := 0
  remote : Bool := false
  /-- The engine's transfer count when it was taken (R274). -/
  seq    : Nat := 0
  updates : Nat := 0
  next   : Nat := 0
  chunks : List Chunk := []
  /-- Word 0 of a stopped transfer's slot (R280). -/
  word0  : Nat := 0
deriving DecidableEq, Repr

/-- A copy engine (R278–R280). -/
structure CopyEng where
  status : ObjStatus := {}
  ep     : Nat := 0
  comp   : Nat := 0
  ctx    : Nat := 0
  log2   : Nat := 0
  base   : Nat := 0
  prod   : W32 := 0
  cons   : W32 := 0
  xfers  : List Transfer := []
  count  : Nat := 0
deriving DecidableEq, Repr

/-- The collection of a fence scope (R282–R284): the switches whose probe acknowledgement is missing,
and the switches and old route epochs whose drain marker is not acknowledged; and the sequencers that
wait for it with their deadlines. -/
structure FenceColl where
  active  : Bool := false
  comp    : Nat := 0
  kind    : Nat := 0
  peer    : Nat := 0
  missing : List Nat := []
  acked   : List Nat := []
  markers : List (Nat × Nat) := []
  waiters : List (Nat × Nat) := []
deriving DecidableEq, Repr

/-- State of a composition's fences on this switch. -/
structure FenceSt where
  comp   : Bool := false
  peers  : List Nat := []
  missing : Nat := 0
  reason  : Nat := 0
deriving DecidableEq, Repr

/-- A probe acknowledged only when the requests admitted before it have completed (R282). -/
structure PendProbe where
  src    : Nat := 0
  dst    : Nat := 0
  stream : Nat := 0
  tag    : Nat := 0
  comp   : Nat := 0
  kind   : Nat := 0
  peer   : Nat := 0
deriving DecidableEq, Repr

/-- A replicated multicast store awaiting its copies' completions (R276, R277). -/
structure McwPend where
  active : Bool := false
  frame  : Frame := {}
  /-- Status by member, 0xFF while the copy is outstanding. -/
  left   : List Nat := []
deriving DecidableEq, Repr

/-- Liveness of a peer (R530): consecutive timeouts, suspicion, last OK completion. -/
structure Peer where
  timeouts : Nat := 0
  suspect  : Bool := false
  lastOk   : Nat := 0
  port     : Nat := 0
deriving DecidableEq, Repr

/-- State of the transaction engine. -/
structure TeState where
  rc      : List RcEntry := []
  sync    : Tab SyncObj := []
  copy    : Tab CopyEng := []
  fences  : Tab FenceSt := []
  colls   : Tab FenceColl := []
  probes  : List PendProbe := []
  outst   : List OutReq := []
  /-- Non-posted requests that entered through a port and await completion, oldest first: SRC, STREAM, TAG and TC (R266, R281). -/
  portOut : Tab (List (Nat × Nat × Nat × Nat)) := []
  /-- Frames of the LF7 waiting at its internal ports (R297). -/
  out     : List OutFrame := []
  /-- Requests held for a route change, with the time the hold began (R261). -/
  holds   : List OutReq := []
  mcw     : Tab McwPend := []
  peers   : Tab Peer := []
  ctr     : Tab W64 := []
  nextId  : Nat := 0
  tLost   : Option Nat := none
  /-- Device time of the flush before the last reset, and the highest sequence number restored: while a record up to it
  is live the replay runs (R275). -/
  restored : Option (Nat × Nat) := none
  /-- Issue marks by sequence number × 32 + issuer (R274). -/
  marks   : Tab Nat := []
  /-- Requests at their target that wait behind others, in order of arrival (R259, R268). -/
  waitq   : List Frame := []
  /-- Messages that restore has sent again, until their endpoint's port is in service: composition, endpoint and data (R489). -/
  notices : List (Nat × Nat × Bytes) := []
deriving DecidableEq, Repr

/-- A frame in the cell buffer. -/
structure QFrame where
  f     : Frame := {}
  inPort : Nat := 0
  cells : Nat := 0
  /-- Device time at which it entered the buffer. -/
  since : Nat := 0
  /-- Its place in the order in which frames have joined queues. -/
  ord   : Nat := 0
  /-- It has been counted as waiting for its gate (R317). -/
  gated : Bool := false
deriving DecidableEq, Repr

/-- One egress queue (R311–R314). -/
structure EQueue where
  disabled : Bool := false
  weight : Nat := 256
  alpha  : Nat := 5
  /-- Every queue is enabled at reset (R311). -/
  status : ObjStatus := { enabled := true }
  sTag   : W64 := 0
  fTag   : W64 := 0
  awake  : Bool := false
  frames : List QFrame := []
deriving DecidableEq, Repr

/-- A gate-list entry (R315). -/
structure GateEnt where
  dur  : Nat := 0
  open_ : W64 := 0
deriving DecidableEq, Repr

/-- A gate list of a port (R315, R316). -/
structure GateList where
  ents  : Tab GateEnt := []
  cycle : Nat := 0
  count : Nat := 0
  base  : Nat := 0
  status : ObjStatus := {}
deriving DecidableEq, Repr

/-- A list accepted for its next cycle start (R316): 1 A, 2 B, with the parameters it starts with and the time of the start. -/
structure GateNext where
  list  : Nat := 0
  start : Nat := 0
  cycle : Nat := 0
  count : Nat := 0
  base  : Nat := 0
deriving DecidableEq, Repr

/-- The switch-core side of a port. -/
structure SwPort where
  ageLimit : Nat := 2000
  admWait  : Nat := 8
  reserve  : Nat := 384
  status   : ObjStatus := {}
  /-- Frames waiting in the reserve, oldest first, over all lossless classes (R300, R301). -/
  waiting  : List QFrame := []
  v        : W64 := 0
  /-- Active gate list: 0 none, 1 A, 2 B. -/
  active   : Nat := 0
  next     : Option GateNext := none
  /-- When a deactivation of the active list takes effect (R316). -/
  stop     : Option Nat := none
  listA    : GateList := {}
  listB    : GateList := {}
  /-- Sampler of the port (R323). -/
  smpOn    : Bool := false
  smpPeriod : Nat := 0
  smpRecord : Bool := false
  smpMask  : W64 := 0
  smpSt    : ObjStatus := {}
  /-- Counters of *SW counters* for the port, 0–7. -/
  ctr      : Tab W64 := []
deriving DecidableEq, Repr

/-- A multicast group (R306). -/
structure McGroup where
  status  : ObjStatus := {}
  /-- Owner by its last enable, if it has been enabled. -/
  owned   : Bool := false
  comp    : Nat := 0
  count   : Nat := 0
  senders : Nat := 0
  sender  : Nat := 0
  /-- BASE of each enabled member entry. -/
  members : Tab (Option Nat) := []
deriving DecidableEq, Repr

/-- A two-rate three-colour meter (R308, R309). Bucket levels are in 1/8000 byte, so that one
Mbit/s fills one unit a nanosecond. -/
structure Meter where
  status : ObjStatus := {}
  aware  : Bool := false
  port   : Nat := 0
  comp   : Nat := 0
  anyComp : Bool := false
  tcMask : Nat := 0
  red    : Nat := 0
  cir    : Nat := 0
  pir    : Nat := 0
  cbs    : Nat := 0
  pbs    : Nat := 0
  tc     : Nat := 0
  tp     : Nat := 0
  last   : Nat := 0
  green  : W64 := 0
  yellow : W64 := 0
  redC   : W64 := 0
deriving DecidableEq, Repr

/-- A mirror session (R321). -/
structure Mirror where
  status : ObjStatus := {}
  dir    : Nat := 0
  payload : Bool := false
  anyComp : Bool := false
  port   : Nat := 0
  comp   : Nat := 0
  tcMask : Nat := 0
  n      : Nat := 1
  seen   : Nat := 0
deriving DecidableEq, Repr

/-- A route entry (R299, R407): the ports, and the route epoch in use. -/
structure Route where
  present : Bool := false
  ports  : List Nat := []
  epoch  : Nat := 0
  /-- Epochs older than the current one whose drain markers are not all acknowledged. -/
  draining : List Nat := []
deriving DecidableEq, Repr

/-- State of the switch core. -/
structure SwState where
  /-- Frames that have joined a queue so far, by which a drain marker finds what is ahead of it (R261). -/
  nextOrd : Nat := 0
  ports  : Tab SwPort := []
  queues : Tab EQueue := []
  share  : Tab Nat := []
  shareSt : Tab ObjStatus := []
  groups : Tab McGroup := []
  meters : Tab Meter := []
  mirrors : Tab Mirror := []
  routes : Tab Route := []
  hist   : Tab W64 := []
  mirCopies : W64 := 0
  mirDrop : W64 := 0
deriving DecidableEq, Repr

/-- A link frame (R341): OP and content from byte 2 on. -/
structure LinkFrame where
  op   : Nat := 0
  body : Bytes := []
deriving DecidableEq, Repr

/-- A window of a window-mode port (R355). -/
structure Window where
  status : ObjStatus := {}
  base   : Nat := 0
  log2   : Nat := 0
  fa     : Nat := 0
  rights : Nat := 0
  comp   : Nat := 0
  region : Nat := 0
  srcId  : Nat := 0
  rkey   : Nat := 0
deriving DecidableEq, Repr

/-- A PAYLOAD flit kept until it is acknowledged (R340): the replays of it so far, and when it was first sent. -/
structure TxFlit where
  seq    : Nat := 0
  gpos   : Nat := 0
  keySel : Nat := 0
  sealed : Bool := false
  area   : Bytes := []
  count  : Nat := 0
  sentT  : Nat := 0
deriving DecidableEq, Repr

/-- A PAYLOAD flit of a sealing group whose tag has not verified (R349). -/
structure RxFlit where
  seq    : Nat := 0
  hdr    : Nat := 0
  area   : Bytes := []
deriving DecidableEq, Repr

/-- A fabric port of the port complex (R331–R349). -/
structure Port where
  epBase : Nat := 0
  epCount : Nat := 0
  asym   : Nat := 0
  doze   : Nat := 20
  timeRole : Nat := 0
  test   : Nat := 0
  prot   : Bool := false
  mode   : Nat := 0
  status : ObjStatus := {}
  /-- State of *Link states*. -/
  state  : Nat := 0
  width  : Nat := 0
  peerId : Nat := 0
  peerCount : Nat := 0
  profile : Nat := 0xF
  peerGraver : Nat := 0
  linkVer : Nat := 0
  peerCap : Nat := 0
  memCap : Nat := 0
  authFail : Bool := false
  protActive : Bool := false
  epMismatch : Bool := false
  keySel : Nat := 0
  rxKeySel : Nat := 0
  dozeTx : Bool := false
  dozeRx : Bool := false
  wakeAt : Option Nat := none
  rtt    : Nat := 0
  /-- Transmit: SEQ of the next PAYLOAD flit, and the replay buffer with replay counts (R340). -/
  txSeq  : Nat := 0
  replay : List TxFlit := []
  /-- Receive: expected SEQ, NAK outstanding, and the bytes of the frame being received. -/
  rxSeq  : Nat := 0
  nak    : Bool := false
  rxPart : Bytes := []
  rxFrames : List Frame := []
  rxLinks : List LinkFrame := []
  /-- Link frames waiting for room in the replay buffer, or for the port's link. -/
  txLinks : List LinkFrame := []
  /-- Answers of the link layer itself that wait for the link (R541). -/
  answers : List Frame := []
  /-- Pieces of an SPDM message that has not ended (*Link frames*, KEYMSG). -/
  keyPart : Bytes := []
  /-- Flits sent on the link, newest first. -/
  wire   : List Bytes := []
  /-- By class: credits of the partner still unused, and its last count of returned cells; credits granted to
  the partner and not used, and cells returned to it since ACTIVE. -/
  credit : Tab Nat := []
  seenRet : Tab Nat := []
  granted : Tab Nat := []
  returned : Tab Nat := []
  /-- Link keys: transmit key and IV by slot, receive key and IV by slot (R347). -/
  txKey  : Tab (Nat × Nat) := []
  rxKey  : Tab (Nat × Nat) := []
  txGroup : Nat := 0
  rxGroup : Nat := 0
  rxSealed : List RxFlit := []
  macFails : Nat := 0
  /-- The partner has switched to a key of its own (R347). -/
  rxReady : Bool := false
  /-- Receive slot named in the last LINK_KEY sent, until its KEY_SWITCH leaves. -/
  keyOut : Option Nat := none
  lastRekey : Nat := 0
  lastTx : Nat := 0
  /-- Device time at which the present state was entered. -/
  stateT : Nat := 0
  /-- Physical lane whose lost lock brought the port into RETRAIN (R333). -/
  lost   : Option Nat := none
  /-- The time exchange under way: its number and t1 (R351). -/
  timeX  : Option (Nat × Nat) := none
  part   : Nat := 0
  capsSeen : Bool := false
  /-- Counters of *PC counters*, 0–7. -/
  ctr    : Tab W64 := []
deriving DecidableEq, Repr

/-- A port pair and its spare lane's swap (R335): `swap` 0 none, 1 training, 2 duplicate data, 3 announced; `lane` the
physical lane replaced, 816 where the partner started the swap and its SPARE frame does not say. -/
structure Pair where
  split  : Bool := false
  status : ObjStatus := {}
  swap   : Nat := 0
  lane   : Nat := 0
  port   : Nat := 0
  /-- The spare is in service. -/
  used   : Bool := false
  /-- SEQ of this side's and of the partner's switching flit. -/
  mySeq  : Nat := 0
  peerSeq : Option Nat := none
  /-- Control sequencer whose SPARE.SWAP waits for the swap. -/
  reqCs  : Option Nat := none
deriving DecidableEq, Repr

/-- A physical lane (`PC_LANE`). -/
structure Lane where
  corr   : Nat := 0
  eye    : Nat := 0
  port   : Nat := 0xFF
  logical : Nat := 0xF
  state  : Nat := 6
deriving DecidableEq, Repr

/-- State of the port complex and of fabric time. -/
structure PcState where
  ports  : Tab Port := []
  pairs  : Tab Pair := []
  lanes  : Tab Lane := []
  wins   : Tab Window := []
  upstream : Nat := 0xFF
  /-- `PC_TIME_STATUS.STATE`: 0 FREE, 1 SOURCE, 2 LOCKED, 3 HOLDOVER, 4 UNSYNC. -/
  tState : Nat := 0
  /-- Number of the next exchange, and the time the last ones were sent (R351). -/
  exch   : Nat := 0
  lastSync : Nat := 0
  lastAcc : Nat := 0
  holdT  : Nat := 0
  /-- Filtered offset in units of 0.05 ns. -/
  estimate : Int := 0
  haveEst : Bool := false
  timeSet : Bool := false
  /-- Ns still to slew, and ticks since the last slewed ns (R352). -/
  slew   : Int := 0
  slewGap : Nat := 0
deriving DecidableEq, Repr

end Sys2Proof.Machine
end

