-- ==== Sys2Proof/Machine/StPool.lean ====
section
/-! DEFINITION. State of the translation unit (*Address Translation*), of the tier manager
(*Tiers, Extents and Compositions*) and of the isolation engine (*Tenants, Contexts and Encryption*). -/

namespace Sys2Proof.Machine

/-- An ASID object (R379). -/
structure Asid where
  status : ObjStatus := {}
  root   : Nat := 0
  comp   : Nat := 0
deriving DecidableEq, Repr

/-- A leaf translation held in a TLB, or a table pointer held in a walk cache (R369, R370). -/
structure TlbEnt where
  asid   : Nat := 0
  /-- The VA bits the entry is keyed by, shifted down: VA[55:16], VA[55:29] or VA[55:42]. -/
  key    : Nat := 0
  /-- 1: level-1 pointer result, 2: level-2 pointer result, 3: 64 KiB leaf, 4: 512 MiB leaf. -/
  kind   : Nat := 3
  fa     : Nat := 0
  rights : Nat := 0
  region : Nat := 0
  rkey   : Nat := 0
  /-- Fabric address of the table entry it came from. -/
  entry  : Nat := 0
  way    : Nat := 0
  used   : Nat := 0
deriving DecidableEq, Repr

/-- Which engine asks for a translation: a stage unit's piece, or a copy engine's transfer. -/
inductive TrEng where
  | stage (seam stage : Nat)
  | copy (eng : Nat)
deriving DecidableEq, Repr

/-- A walk in progress (R369): shared by lookups of one page in one slice. -/
structure Walk where
  active : Bool := false
  slice  : Nat := 0
  asid   : Nat := 0
  vpn    : Nat := 0
  level  : Nat := 1
  table  : Nat := 0
  tenant : Nat := 0
  comp   : Nat := 0
  ctx    : Nat := 0
  /-- An ASID.INVAL made the walk's result one not to install; it restarts (R376). -/
  poisoned : Bool := false
  /-- Engines that share the walk, each with the right its access needs. -/
  waiters : List (TrEng × Nat) := []
deriving DecidableEq, Repr

/-- A fault-table entry (R372, R373). -/
structure FaultEnt where
  /-- 0 free, 1 open. Whether its record is written shows in the ring. -/
  state  : Nat := 0
  gen    : Nat := 0
  asid   : Nat := 0
  vpn    : Nat := 0
  cause  : Nat := 0
  need   : Nat := 0
  have_  : Nat := 0
  level  : Nat := 0
  comp   : Nat := 0
  ctx    : Nat := 0
  tenant : Nat := 0
  entryFa : Nat := 0
  count  : Nat := 0
  waiters : List TrEng := []
deriving DecidableEq, Repr

/-- A faulting access kept in its engine (`TU_ENG_FAULT`, R374). -/
structure EngFault where
  state : Nat := 0
  vpn   : Nat := 0
  asid  : Nat := 0
  need  : Nat := 0
  cause : Nat := 0
  have_ : Nat := 0
  level : Nat := 0
  entryFa : Nat := 0
  ctx   : Nat := 0
  comp  : Nat := 0
  tenant : Nat := 0
  eng   : TrEng := .copy 0
deriving DecidableEq, Repr

/-- State of the translation unit. -/
structure TuState where
  asids  : Tab Asid := []
  /-- Micro-TLBs by engine number; slice caches by slice number. -/
  micro  : Tab (List TlbEnt) := []
  slices : Tab (List TlbEnt) := []
  walks  : Tab Walk := []
  faults : Tab FaultEnt := []
  eng    : Tab EngFault := []
  /-- Next engine in the round-robin order of held faults (R374). -/
  rrEng  : Nat := 0
  ctr    : Tab W64 := []
  clock  : Nat := 0
deriving DecidableEq, Repr

/-- A tier-map entry (R385). -/
structure TierEnt where
  dirty : W32 := 0
  loc   : Nat := 0
  state : Nat := 0
  frame : Nat := 0
deriving DecidableEq, Repr

/-- An extent (R388, R389). -/
structure Extent where
  status : ObjStatus := {}
  state  : Nat := 0
  comp   : Nat := 0
  grantee : Nat := 0
  kslot  : Nat := 0
  kgen   : Nat := 0
  base   : Nat := 0
  grains : Nat := 0
  bport  : Nat := 0
  mport  : Nat := 0
  boff   : Nat := 0
  moff   : Nat := 0
  mirror : Bool := false
  cls    : Nat := 1
  pin    : Nat := 0
  degraded : Bool := false
  /-- Resync bitmap: sub-grain numbers to copy, each with whether the mirror backing lacks it. -/
  resync : List (Nat × Bool) := []
  /-- Stamp of the EXT.SCRUB under way (R445). -/
  scrubBy : Stamp := {}
deriving DecidableEq, Repr

/-- A region (R391). -/
structure Region where
  status : ObjStatus := {}
  comp   : Nat := 0
  welt   : Bool := false
  rights : Nat := 0
  base   : Nat := 0
  pages  : Nat := 0
  rkey   : Nat := 0
  extent : Nat := 0
deriving DecidableEq, Repr

/-- A lease (R399, R400). -/
structure Lease where
  /-- 0 FREE, 1 OFFERED, 2 ACTIVE, 3 RECALLING, 4 RETURNING. -/
  state  : Nat := 0
  peer   : Nat := 0
  borrower : Bool := false
  medium : Nat := 0
  grains : Nat := 0
  base   : Nat := 0
  deadline : Nat := 0
  rkey   : Nat := 0
  notice : Nat := 0
  tenant : Nat := 0
  please : Nat := 0
  reason : Nat := 0
  /-- REASON of its status word (R75, R418). -/
  check  : Nat := 0
  /-- HBM frames or tray grains the lender reserves. -/
  frames : List Nat := []
  waitCs : Option Nat := none
deriving DecidableEq, Repr

/-- A composition's map: members and span (R407). -/
structure CMap where
  members : List Nat := []
  span    : List Nat := []
deriving DecidableEq, Repr

/-- Meter counts of a composition's current period (R415, R416). -/
structure MeterAcc where
  recNo  : Nat := 0
  start  : Nat := 0
  seqNs  : Nat := 0
  hbm    : Nat := 0
  lease  : Nat := 0
  tray   : Nat := 0
  compNs : Nat := 0
deriving DecidableEq, Repr

/-- A composition (R406, R408). -/
structure Comp where
  /-- 0 FREE, 1 CREATED, 2 ACTIVE, 3 FAILED, 4 DESTROYING. -/
  state  : Nat := 0
  status : ObjStatus := {}
  tenant : Nat := 0
  resv   : Nat := 0
  part   : Nat := 0
  fatal  : Bool := false
  cto    : Nat := 0
  mperiod : Nat := 0
  current : Nat := 0
  previous : Nat := 0
  curLive : Bool := false
  prevLive : Bool := false
  closing : Bool := false
  cur    : CMap := {}
  prev   : CMap := {}
  prep   : Option CMap := none
  meter  : MeterAcc := {}
  /-- COMP.DESTROY: when the collection limit of its fence passes. -/
  fenceEnd : Nat := 0
deriving DecidableEq, Repr

/-- A weight-set slot (R413). -/
structure WSet where
  status : ObjStatus := {}
  gen    : Nat := 0
  comp   : Nat := 0
  base   : Nat := 0
  length : Nat := 0
  hashing : Bool := false
  digest : Bytes := []
deriving DecidableEq, Repr

/-- A failure-domain tag object (R396). -/
structure FdTag where
  tag    : Nat := 0
  status : ObjStatus := {}
deriving DecidableEq, Repr

/-- A request admitted at this switch whose reads or writes of trays or of a lender are under way.
A location is 1 the backing, 2 the mirror backing, 3 the lease copy. -/
structure PendReq where
  active : Bool := false
  frame  : Frame := {}
  ext    : Nat := 0
  /-- First pool offset and length of the bytes read or written, whole granules. -/
  off    : Nat := 0
  len    : Nat := 0
  slot   : Nat := 0
  gen    : Nat := 0
  /-- The request reads (true) or its writes are under way (false). -/
  reading : Bool := true
  src    : Nat := 1
  got    : Option Bytes := none
  mac    : Option Bytes := none
  /-- Outstanding frames: location × 2,048 + part. -/
  waits  : List Nat := []
  /-- Locations whose write failed, with the status. -/
  failed : List (Nat × Nat) := []
  plain  : Bytes := []
  reply  : Bytes := []
  /-- The grain's first write (R431). -/
  first  : Bool := false
deriving DecidableEq, Repr

/-- A grain on the move (R395). -/
structure Move where
  active : Bool := false
  /-- Leave is held, or none is needed. -/
  running : Bool := false
  grain  : Nat := 0
  toLoc  : Nat := 0
  toFrame : Nat := 0
  next   : Nat := 0
  slot   : Nat := 0
  gen    : Nat := 0
deriving DecidableEq, Repr

/-- The device-area tables whose objects reload from the state image (R384, R538). -/
inductive AreaObj where
  | comp
  | region
  | extent
  | lease
  | pattern
  | storedTable
deriving DecidableEq, Repr

/-- Device-area objects that reload after an uncorrectable line (R538). -/
structure Reload where
  kind  : AreaObj
  first : Nat
  count : Nat
  /-- Device time at which they are back. -/
  till  : Nat
deriving DecidableEq, Repr

/-- State of the tier manager. -/
structure TrState where
  tmap   : Tab TierEnt := []
  /-- Contents of pool HBM by frame × 2 MiB + offset, as deciphered under the grain's slot (R430). -/
  hbm    : Mem := []
  /-- HBM frames in use: frame → grain + 1, or 2^40 + lease for a lender's frame. -/
  frames : Tab Nat := []
  /-- Frames reserved by pinned-tier commits: frame → extent + 1 (R394). -/
  reserved : Tab Nat := []
  exts   : Tab Extent := []
  regions : Tab Region := []
  leases : Tab Lease := []
  /-- Frames of a borrowed lease that hold copies: lease × 2^18 + frame → grain + 1. -/
  lframes : Tab Nat := []
  comps  : Tab Comp := []
  wsets  : Tab WSet := []
  fdtags : Tab FdTag := []
  routeSt : Tab ObjStatus := []
  pend   : Tab PendReq := []
  moves  : Tab Move := []
  ctr    : Tab W64 := []
  /-- Accesses served by grain, from which the tier manager takes its heat. -/
  heat   : Tab Nat := []
  /-- RETURN messages of leases lost here that wait until their lender is reachable (R403). -/
  owed   : List Frame := []
  /-- Device-area objects that reload from the state image (R538). -/
  reload : List Reload := []
deriving DecidableEq, Repr

/-- A tenant entry (R420). -/
structure Tenant where
  status : ObjStatus := {}
  id     : Nat := 0
  capture : Bool := false
  tmc    : Nat := 0
  tlb    : Nat := 0
deriving DecidableEq, Repr

/-- A context (R423). -/
structure Ctx where
  status : ObjStatus := {}
  tenant : Nat := 0
  comp   : Nat := 0
  asid   : Nat := 0
  slots  : List Nat := []
  slotV  : Nat := 0
  resident : Bool := false
  seq    : Nat := 0
deriving DecidableEq, Repr

/-- A key slot (R436). -/
structure KeySlot where
  status : ObjStatus := {}
  /-- 0 FREE, 1 ACTIVE, 2 DRAINING. -/
  state  : Nat := 0
  owner  : Nat := 0
  group  : Nat := 0
  comp   : Nat := 0
  gen    : Nat := 0
  sealed : Bool := false
  uses   : Nat := 0
  late   : Nat := 0
  /-- Keys, as 128-bit numbers in byte order: data, tweak, MAC. -/
  dataKey : BitVec 128 := 0
  tweakKey : BitVec 128 := 0
  macKey : BitVec 128 := 0
  deadline : Nat := 0
deriving DecidableEq, Repr

/-- A pseudo-channel (`IE_PCH`). -/
structure Pch where
  /-- 0 DEVICE, 1 UNASSIGNED, 2 ASSIGNED, 3 VACATING, 4 SCRUBBING, 5 absent. -/
  state  : Nat := 1
  tenant : Nat := 0
  reason : Nat := 0
  part   : Nat := 0
deriving DecidableEq, Repr

/-- A memory port's tenant (`IE_PORT`). -/
structure IePort where
  tenant : Nat := 0
  assigned : Bool := false
deriving DecidableEq, Repr

/-- A scrub engine of a memory-side die (R443): what it scrubs, and what waits. -/
structure ScrubEng where
  state  : Nat := 0
  target : Nat := 0
  ends   : Nat := 0
  queue  : List (Nat × Nat) := []
deriving DecidableEq, Repr

/-- State of the isolation engine. -/
structure IeState where
  tenants : Tab Tenant := []
  ctxs   : Tab Ctx := []
  slots  : Tab KeySlot := []
  pch    : Tab Pch := []
  ports  : Tab IePort := []
  scrub  : Tab ScrubEng := []
  /-- Tier-map caches (R421): die × 16 + way → grain + 1. -/
  tmc    : Tab Nat := []
  ctr    : Tab W64 := []
deriving DecidableEq, Repr

end Sys2Proof.Machine
end

