-- ==== Sys2Proof/Machine/StTrust.lean ====
section
/-! DEFINITION. State of the root of trust (*Identity, Attestation and Limited-Change Settings*), of
the power and health controller (*Power, Clocks, Health and Proof*) and of the module's pins
(*Module Hardware*). -/

namespace Sys2Proof.Machine

/-- A limited-change record (R456): the settings and their remaining counts. -/
structure LcRec where
  floor     : Nat := 0
  sealLeft  : Nat := 255
  floorLeft : Nat := 32
  epochLeft : Nat := 8
  debugLeft : Nat := 4
  idepoch   : Nat := 0
  sealed    : Bool := false
  layout    : Bytes := []
  /-- A debug unlock granted and waiting for the next cold reset (R459). -/
  debugNext : Bool := false
deriving DecidableEq, Repr

/-- One copy of the record in MRAM (R460): whether its check value holds, and its sequence number. -/
structure LcCopy where
  valid : Bool := false
  seq   : Nat := 0
  val   : LcRec := {}
deriving DecidableEq, Repr

/-- A delivered entry (R465). -/
structure Delivered where
  used    : Bool := false
  tenant  : Nat := 0
  sealedMode : Bool := false
  owner   : Nat := 0
  material : Bytes := []
  serial  : Nat := 0
  session : Nat := 0
  time    : Nat := 0
deriving DecidableEq, Repr

/-- An SPDM connection (R461). Connection 0 is DOE outside a session, 1–4 the secured DOE sessions,
16 + p the link of port p. -/
structure Session where
  opened  : Bool := false
  secured : Bool := false
  /-- SPDM phase of the connection: 0 none, 1 version, 2 capabilities, 3 algorithms agreed. -/
  phase   : Nat := 0
  /-- SM3 digest of the root of the requester's mutually authenticated chain, [] when there is none. -/
  root    : Bytes := []
  missed  : Nat := 0
  lastBeat : Nat := 0
deriving DecidableEq, Repr

/-- State of the root of trust. -/
structure TaState where
  lcA     : LcCopy := { valid := true, seq := 1 }
  lcB     : LcCopy := {}
  anchor  : Bytes := []
  debug   : Bool := false
  imageB  : Nat := 0
  devId   : Bytes := []
  meas    : Tab Bytes := []
  svn     : Tab Nat := []
  deliv   : Tab Delivered := []
  serial  : Nat := 0
  sess    : Tab Session := []
  chain1  : Bytes := []
  changes : Nat := 0
  ctr     : Tab W64 := []
  /-- The helper data in MRAM fail their check (R450). -/
  pufBad  : Bool := false
  /-- IDEPOCH and DEBUG of the seal key under which saved key slots are sealed (R452). -/
  sealedUnder : Nat × Bool := (0, false)
  /-- The limited-change setting changed last, and the device time of the change (R460). -/
  lcLast  : Option (Nat × Nat) := none
deriving DecidableEq, Repr

/-- Who asks the arbiter for leave (R507). -/
inductive LeaveWho where
  | job (seam : Nat)
  | prog (cs : Nat)
  | move (n : Nat)
  | scrub (eng : Nat)
deriving DecidableEq, Repr

/-- A request waiting for leave. -/
structure LeaveReq where
  who    : LeaveWho := .job 0
  charge : Nat := 0
  since  : Nat := 0
deriving DecidableEq, Repr

/-- A leave flow (R509). -/
structure Flow where
  weight : Nat := 256
  held   : Nat := 0
  s      : W64 := 0
  f      : W64 := 0
  queue  : List LeaveReq := []
deriving DecidableEq, Repr

/-- A die as the controller sees it (R505, R511). -/
structure Die where
  tj       : Nat := 0
  /-- 0 off, 1 locking, 2 running. -/
  pll      : Nat := 0
  throttle : Nat := 0
  idleT    : Nat := 0
  lockT    : Nat := 0
deriving DecidableEq, Repr

/-- Health and Proof state of a unit or sequencer (R512–R522). -/
structure UHealth where
  age      : Nat := 0
  ceHour   : Nat := 0
  escal    : Bool := false
  retired  : Bool := false
  swapDue  : Bool := false
  lastMis  : Nat := 0
  /-- Device times of charged mismatches, by bin 4t + c. -/
  bins     : Tab (List Nat) := []
  /-- Tiles of the current group so far, groups so far, and whether the next tile is sampled in place of one
  that found no checker (R516, R517). -/
  tiles    : Nat := 0
  groups   : Nat := 0
  owed     : Bool := false
  /-- The unit has run unsampled tiles since placement or its last matching sample (R520). -/
  unseen   : Bool := false
  /-- Tenant of the tile the unit last checked. -/
  chkTenant : Nat := 0
deriving DecidableEq, Repr

/-- Objects of the power and health controller as the state image holds them while boot has not restored them (R487, R505, R512,
R522). -/
structure PhImage where
  budget   : Nat := 1500
  unitIdle : Nat := 10
  pllIdle  : Nat := 1000
  log2n    : Tab Nat := [(1, 6), (2, 6), (3, 6), (6, 6)]
  log2esc  : Tab Nat := [(1, 2), (2, 2), (3, 2), (6, 2)]
  policy   : Nat := 0
  ageLimit : Nat := 300
  ceLimit  : Nat := 64
  eyeMin   : Nat := 12
  wstart   : Nat := 0
  wlen     : Nat := 0
  wperiod  : Nat := 0
  weights  : Tab Nat := []
  status   : Tab ObjStatus := []
deriving DecidableEq, Repr

/-- State of the power and health controller. -/
structure PhState where
  /-- What a cold reset has taken from the registers and restore puts back. -/
  img      : Option PhImage := none
  volts    : Nat := 0
  watts    : Nat := 0
  base     : Nat := 0
  undervolt : Bool := false
  overvolt : Bool := false
  budgetThr : Bool := false
  hbmFail  : Nat := 0
  spareOut : Nat := 0
  budget   : Nat := 1500
  sbCap    : Nat := 1500
  unitIdle : Nat := 10
  pllIdle  : Nat := 1000
  dies     : Tab Die := []
  flows    : Tab Flow := []
  v        : W64 := 0
  units    : Tab UHealth := []
  log2n    : Tab Nat := [(1, 6), (2, 6), (3, 6), (6, 6)]
  log2esc  : Tab Nat := [(1, 2), (2, 2), (3, 2), (6, 2)]
  policy   : Nat := 0
  ageLimit : Nat := 300
  ceLimit  : Nat := 64
  eyeMin   : Nat := 12
  wstart   : Nat := 0
  wlen     : Nat := 0
  wperiod  : Nat := 0
  /-- Lanes whose swap is due. -/
  laneDue  : List Nat := []
  /-- Lanes, and other parts by key (kind × 256 + number), whose swap waits for a maintenance window; parts whose swap waits
  for their program to end (R513). -/
  laneWait : List Nat := []
  partWait : List Nat := []
  partDue  : List Nat := []
  thrSince : Nat := 0
  status   : Tab ObjStatus := []
  ctr      : Tab W64 := []
deriving DecidableEq, Repr

/-- The module's contacts and indicator (R550–R569). -/
structure HwState where
  en       : Bool := true
  /-- The main input switch is closed (R551). -/
  inputOn  : Bool := true
  perstLow : Bool := false
  resetLow : Bool := false
  /-- The input stands below 47 V or above 63 V, or EN is broken (R483, R502, R553). -/
  inputLost : Bool := false
  pwrgd    : Bool := true
  /-- 0 off, 1 amber, 2 green. -/
  safe     : Nat := 0
  /-- Main converters run. -/
  mainOn   : Bool := true
  /-- Off by POWER_OFF, until COLD_RESET or loss of input (R541). -/
  off      : Bool := false
deriving DecidableEq, Repr

/-- A volatile image (R483): what a flush saves of the volatile memory. `marked` says its flush marker is written. -/
structure VolImage where
  present : Bool := false
  time    : Nat := 0
  highSeq : Nat := 0
  cause   : Nat := 0
  marked  : Bool := false
  /-- Values of the synchronisation objects, reply-cache entries in use, issue marks and meter counts. -/
  sync    : Tab W64 := []
  rc      : List RcEntry := []
  marks   : Tab Nat := []
  meters  : Tab MeterAcc := []
deriving DecidableEq, Repr

/-- The two volatile images, written alternately by flushes (R495). -/
structure Images where
  cur  : VolImage := {}
  prev : VolImage := {}
deriving DecidableEq, Repr

end Sys2Proof.Machine
end

