-- ==== Sys2Proof/Syntax.lean ====
section
/-! DEFINITION. The commands of the LF7: one constructor per row of the table of operations and
events. A row of a Vywa instruction names only the unit that executes it, since the instruction
itself stands in that unit's code; a row of a message names the mailbox that holds it. -/

namespace Sys2Proof

open Sys2Proof.Machine

/-- Who executes a flow, count or control instruction: a control sequencer, a seam sequencer by
physical number, or stage `n` of the job on seam sequencer `q` (R85). -/
inductive Issuer where
  | ctl (cs : Nat)
  | seq (q : Nat)
  | stage (q n : Nat)
deriving DecidableEq, Repr

/-- Where an uncorrectable error of a running job was found (R130). -/
inductive ErrPart where
  | unit (ty p : Nat)
  | lace (l : Nat)
  | chan (src dst : Nat)
  | row (die b : Nat)
deriving DecidableEq, Repr

/-- What a read of pool memory met (R398): nothing, an uncorrectable error of the HBM copy, or a
tray backing's media error. -/
structure UeSet where
  copy : Bool := false
deriving DecidableEq, Repr

/-- Which table of the device area holds an uncorrectable line (R538): the reply cache, entries of the
tier map, or `count` objects of another table from number `first`. -/
inductive AreaTable where
  | replyCache
  | tierMap (first count : Nat)
  | objects (kind : AreaObj) (first count : Nat)
deriving DecidableEq, Repr

/-- A part whose ageing or corrected errors are read (R512): stage unit, seam sequencer, management
core, control sequencer, stage-memory bank, HBM stack, LPDDR5X package, NAND package. -/
inductive HealthPart where
  | unit (ty p : Nat)
  | seq (q : Nat)
  | core (c : Nat)
  | ctl (cs : Nat)
  | bank (die b : Nat)
  | hbm (n : Nat)
  | lpddr (n : Nat)
  | nand (n : Nat)
deriving DecidableEq, Repr

/-- What a checker or a repeat computed for a sampled tile: the destination tiles, or the decoded
bytes of a block (R517). -/
structure ProofRes where
  tiles : List Tile := []
  bytes : Bytes := []
deriving DecidableEq, Repr

/-- Conditions of a charged tile read from monitors (R521): droop in the 1 µs before it, and busy in
at least half of the preceding 1,000 cycles; and a second free spare, which ran the repeat. -/
structure ProofCond where
  droop : Bool := false
  busy  : Bool := false
deriving DecidableEq, Repr

/-- The commands, one per row of the table. -/
inductive Instr where
  /-- REGISTER_WRITE (R39): A CXL.io or sideband write to a register that has no row of its own, subject to size, alignment, domain and bootstrap-lock rules. -/
  | registerWrite (path : Path) (off : Nat) (size : Nat) (v : W64)
  /-- COUNTER_READ_CLEAR (R11): A read of an RC counter returns its value and clears it; an increment in the same cycle is kept. -/
  | counterReadClear (path : Path) (off : Nat) (size : Nat)
  /-- BOOTSTRAP_DONE (R40): Setting CC_BOOT_CTL.DONE runs the consistency check on the bootstrap set and either locks it or records the refusal reason. -/
  | bootstrapDone (path : Path) (v : W64)
  /-- INT_PEND_CLEAR (R42): A W1C write to CC_INT_STATUS or CC_MBX_PEND clears pending bits, re-arming each vector for one further message. -/
  | intPendClear (path : Path) (off : Nat) (size : Nat) (v : W64)
  /-- INT_MASK_WRITE (R42): A write to CC_INT_MASK or CC_MBX_MASK; unmasking a vector whose source is pending signals it. -/
  | intMaskWrite (path : Path) (off : Nat) (size : Nat) (v : W64)
  /-- LOCK_ACQUIRE (R58): A read of a lock alias takes a free lock for the requester and returns 0, or returns the current owner. -/
  | lockAcquire (path : Path) (n : Nat) (k : Nat)
  /-- LOCK_RELEASE (R58): The owner writes its own number to its alias and frees the lock; any other write is ignored. -/
  | lockRelease (path : Path) (n : Nat) (k : Nat) (v : W64)
  /-- LOCK_FORCE (R59): A write of k to CC_LOCK_FORCE frees lock k whatever its owner. -/
  | lockForce (path : Path) (v : W64)
  /-- IN_HEAD_WRITE (R48): A sender writes IN_HEAD with LEN, setting inbound FULL, or sets OVERRUN or MALFORMED. -/
  | inHeadWrite (path : Path) (m : Nat) (v : W64)
  /-- OUT_HEAD_READ (R48): A read of OUT_HEAD returns FULL and LEN and clears outbound FULL. -/
  | outHeadRead (path : Path) (m : Nat)
  /-- RING_CONS_WRITE (R66): Software advances a ring's CONS, ignored if it would pass PROD or fall behind PROD minus the ring size. -/
  | ringConsWrite (n : Nat) (v : W64)
  /-- FLAG_BYTE_WRITE (R45): A host CXL.mem write covering ownership flag bytes; each byte is accepted if it flips or keeps a host-owned flag, else ignored and counted. -/
  | flagByteWrite (off : Nat) (data : List (Option Byte))
  /-- BULK_DATA_WRITE (R45): A host CXL.mem write to bulk-window data, ignored and counted when the page is device-owned. -/
  | bulkDataWrite (off : Nat) (data : List (Option Byte))
  /-- BULK_READ (R37): A host CXL.mem read of the bulk window. -/
  | bulkRead (off : Nat) (len : Nat) (ue : Option Nat)
  /-- SB_CAP_WRITE (R503): The baseboard writes PH_SB_CAP over the sideband, clamped to 300-1,500 W, changing the effective budget next cycle. -/
  | sbCapWrite (path : Path) (v : W64)
  /-- SNAPSHOT (R542): The wedge-proof SNAPSHOT fills the 32 snapshot words. -/
  | snapshot (path : Path) (v : W64)
  /-- FENCE_ALL (R541): Every fabric port stops passing transaction frames into the core and answers requests with FENCED until a warm or cold reset. -/
  | fenceAll (path : Path) (v : W64)
  /-- KEY_ZEROISE (R442): Every key slot is zeroised at once, without drain. -/
  | keyZeroise (path : Path) (v : W64)
  /-- JOURNAL_FLUSH (R483): A flush runs and service resumes without reset. -/
  | journalFlush (path : Path) (v : W64)
  /-- WARM_RESET (R535): A flush followed by a warm reset, optionally into recovery mode. -/
  | warmReset (path : Path) (v : W64)
  /-- COLD_RESET (R535): A flush followed by a cold reset, optionally into recovery mode. -/
  | coldReset (path : Path) (v : W64)
  /-- POWER_OFF (R541): A flush, then every converter except the always-on supply turns off. -/
  | powerOff (path : Path) (v : W64)
  /-- REMOVE (R498): Planned removal: acceptance stops, records are stopped or run out, the handover record is written and a flush follows. -/
  | remove (path : Path) (v : W64)
  /-- CP_INLINE (R575): The LF7 takes an inline control-program message, tests it in order, and stages it or answers CP_REFUSED. -/
  | cpInline (m : Nat)
  /-- CP_BULK (R55): The LF7 takes a bulk control-program message, tests length, range and ownership, and stages it or answers CP_REFUSED. -/
  | cpBulk (m : Nat)
  /-- QUERY_SEQ (R54): The LF7 answers with QUERY_REPLY carrying the sequence number of the last accepted entry. -/
  | querySeq (m : Nat)
  /-- HEALTH_QUERY (R54): The LF7 answers with QUERY_REPLY carrying the health summary. -/
  | healthQuery (m : Nat)
  /-- MALFORMED_MESSAGE (R575): A taken message with an unknown KIND, nonzero reserved bits or wrong LEN is answered CP_REFUSED MBX_MALFORMED. -/
  | malformedMessage (m : Nat)
  /-- RECOVERY_IMAGE (R543): In recovery mode, mailbox 0 writes a firmware image into the layer's inactive slot and answers CP_DONE. -/
  | recoveryImage
  /-- PROGRAM_ACCEPT (R22): A program's staging completes in both packages; it is accepted, bulk pages flip to the host and CP_ACCEPT is written. -/
  | programAccept (m : Nat)
  /-- MGMT_CORE_FAILOVER (R74): The spare management core takes over a failed core's work and retakes unacknowledged messages. -/
  | mgmtCoreFailover (core : Nat)
  /-- DOORBELL (R62): A doorbell message is checked and starts acceptance from the queue's accept pointer, or is answered with a refusal. -/
  | doorbell (f : Frame)
  /-- DESCRIPTOR_READ_DONE (R23): The read of a queue slot's descriptor completes, and it is staged or acceptance stops. -/
  | descriptorReadDone (q : Nat) (status : Nat) (data : Bytes)
  /-- DESCRIPTOR_ACCEPT (R22): A descriptor's staging completes; it is accepted and the accept pointer advances. -/
  | descriptorAccept (q : Nat)
  /-- JOB_TAKE (R106): A seam sequencer takes the next job of its partition and checks its descriptor. -/
  | jobTake (q : Nat)
  /-- LEAVE_GRANT (R509): The leave arbiter grants the waiting head request with the lowest finish tag once it fits the budget. -/
  | leaveGrant (base : Nat)
  /-- PLACEMENT (R126): The sequencer places the job's stages on free units and claims them and cross-die channels in one cycle, or waits. -/
  | placement (q : Nat)
  /-- PLACEMENT_RETRY (R127): Waiting sequencers retry placement round-robin when a unit or channel of the partition is freed. -/
  | placementRetry (part : Nat)
  /-- PLL_LOCK (R505): A woken unit becomes awake once its die's PLL has locked. -/
  | pllLock (die : Nat)
  /-- JOB_START (R107): Once code and constants are loaded, the start state is set and all stages and the sequencer start in one cycle. -/
  | jobStart (q : Nat) (set : Option Nat := none) (wire : List (Nat × Nat) := [])
  /-- JOB_RETIRE (R109): When the sequencer and every stage have halted and all writes completed, the completion record is staged and written. -/
  | jobRetire (q : Nat)
  /-- COMPLETION_WRITE_DONE (R30): The completion record's memory write completes; the record is marked written, the sync object bumped and the entry retired in one step. -/
  | completionWriteDone (q : Nat) (status : Nat)
  /-- JOB_RUN_LIMIT (R129): A job reaches its partition's run limit; stages stop and it ends with TIMEOUT after its writes settle. -/
  | jobRunLimit (q : Nat)
  /-- JOB_RESTART (R130): An uncorrectable error in a unit, lace, channel or stage memory stops the job, retires or remaps the part, and re-runs it. -/
  | jobRestart (q : Nat) (err : ErrPart)
  /-- SEQUENCER_SCRUB_END (R133): A sequencer's cross-tenant scrub and read-back finish and it goes idle. -/
  | sequencerScrubEnd (q : Nat) (bad : List Nat := [])
  /-- UNIT_IDLE_GATE (R505): A unit idle for UNIT_IDLE is power-gated. -/
  | unitIdleGate (ty : Nat) (p : Nat)
  /-- PLL_IDLE_STOP (R505): A die's PLL stops when every unit on it has been gated for PLL_IDLE. -/
  | pllIdleStop (die : Nat)
  /-- PROGRAM_TAKE (R71): A free control sequencer takes the oldest accepted program of the next partition with none running. -/
  | programTake (cs : Nat)
  /-- WATCHDOG_EXPIRY (R73): A control program exceeding CC_CP_WDOG ends with TIMEOUT. -/
  | watchdogExpiry (cs : Nat)
  /-- HALT (R222): Ends a control program, closes a stage's output laces, or ends the sequencer's part of a job. -/
  | halt (iss : Issuer)
  /-- LOOP (R223): Starts a counted or unbounded loop body. -/
  | loop (iss : Issuer)
  /-- ENDL (R224): Advances the induction register and returns to the body while iterations remain. -/
  | endl (iss : Issuer)
  /-- BR (R225): Branches by a signed word offset, discarding left loop iterations. -/
  | br (iss : Issuer)
  /-- STREAM (R226): Issues a stream of records between an address and a lace. -/
  | stream (q : Nat) (n : Nat)
  /-- GATHER (R227): Reads records at indices taken from the input lace into a lace. -/
  | gather (q : Nat) (n : Nat)
  /-- SCATTER (R227): Writes records from a lace at indices taken from another lace. -/
  | scatter (q : Nat) (n : Nat)
  /-- WALK_READ_DONE (R369): A page-table walk read returns and the walk proceeds a level, installs the leaf, or faults. -/
  | walkReadDone (w : Nat) (status : Nat) (data : W64)
  /-- FAULT_TABLE_RETRY (R374): A fault held for a full fault table retries when an entry frees. -/
  | faultTableRetry
  /-- FAULT_RECORD_RETRY (R67): A fault record held for a full fault ring is written when space frees. -/
  | faultRecordRetry (part : Nat)
  /-- METER_BACKLOG_WRITE (R68): Meter records held in the backlog are written to the meter ring as space frees. -/
  | meterBacklogWrite
  /-- EMIT_PUT (R229): Emits a run of tiles onto a lace, converting under RC. -/
  | emitPut (q : Nat) (n : Nat)
  /-- EMIT_TAKE (R229): Takes tiles from a lace into a run of t registers. -/
  | emitTake (q : Nat) (n : Nat)
  /-- EMIT_SETA (R229): Sets an a register from a source plus an immediate. -/
  | emitSeta (q : Nat) (n : Nat)
  /-- EMIT_LDA (R229): Loads an a register from 8 bytes at an address. -/
  | emitLda (q : Nat) (n : Nat)
  /-- EMIT_LDT (R229): Loads tiles from the stage-memory slice. -/
  | emitLdt (q : Nat) (n : Nat)
  /-- EMIT_STT (R229): Stores tiles to the stage-memory slice. -/
  | emitStt (q : Nat) (n : Nat)
  /-- EMIT_SETP (R229): Sets a predicate from an unsigned comparison. -/
  | emitSetp (q : Nat) (n : Nat)
  /-- DECODE (R231): Decodes Graver blocks from a lace until end-of-stream. -/
  | decode (q : Nat) (n : Nat)
  /-- DECODE_BLOCK (R193): A D unit checks and decodes one block or stub that has entered its buffer. -/
  | decodeBlock (q : Nat) (n : Nat)
  /-- ENCODE (R232): Codes raw blocks from a lace with a table until end-of-stream. -/
  | encode (q : Nat) (n : Nat)
  /-- ENCODE_BLOCK (R197): An E unit codes one raw block to a slot record, or emits a stub and spilled raw block. -/
  | encodeBlock (q : Nat) (n : Nat)
  /-- BUILDTAB (R233): Runs the count and sizing sweeps and emits a table record. -/
  | buildtab (q : Nat) (n : Nat)
  /-- MMA (R234): Adds a tile product into an accumulator run. -/
  | mma (q : Nat) (n : Nat)
  /-- DOT (R235): Forms row or column dot products of two tiles. -/
  | dot (q : Nat) (n : Nat)
  /-- SCALE (R236): Scales a tile by a value, optionally adding a run. -/
  | scale (q : Nat) (n : Nat)
  /-- QUANT (R237): Converts FP32 or INT32 tiles to a narrower type, choosing MX scales. -/
  | quant (q : Nat) (n : Nat)
  /-- DEQUANT (R238): Converts a tile to FP32 tiles with scales applied. -/
  | dequant (q : Nat) (n : Nat)
  /-- SMAX_RESET (R239): Resets a softmax row state to (-inf, 0). -/
  | smaxReset (q : Nat) (n : Nat)
  /-- SMAX_BLOCK (R239): Updates a row's online softmax state with a block of scores and emits p and c. -/
  | smaxBlock (q : Nat) (n : Nat)
  /-- SMAX_END (R239): Writes a row's (m, l) to a tile. -/
  | smaxEnd (q : Nat) (n : Nat)
  /-- EXP (R241): Computes exponentials of a tile less an offset. -/
  | exp (q : Nat) (n : Nat)
  /-- LSEMERGE (R242): Merges a log-sum-exp triple into the merge state. -/
  | lsemerge (q : Nat) (n : Nat)
  /-- CMP_SET (R243): Writes a compare mask. -/
  | cmpSet (q : Nat) (n : Nat)
  /-- CMP_AND (R243): ANDs a compare result into the mask. -/
  | cmpAnd (q : Nat) (n : Nat)
  /-- CMP_OR (R243): ORs a compare result into the mask. -/
  | cmpOr (q : Nat) (n : Nat)
  /-- CMP_BOUND (R243): Accumulates the upper-bound sum of query-weighted minima and maxima. -/
  | cmpBound (q : Nat) (n : Nat)
  /-- TOPK (R244): Keeps the k largest keys of its input and emits indices or pairs after end-of-stream. -/
  | topk (q : Nat) (n : Nat)
  /-- SELECT (R245): Selects tile elements by a mask, filling the rest. -/
  | select (q : Nat) (n : Nat)
  /-- COMPACT (R246): Emits records whose mask is set, then the count. -/
  | compact (q : Nat) (n : Nat)
  /-- RED_TILE (R247): Combines a tile into an accumulator by SUM, PAIRED, MAX or MIN. -/
  | redTile (q : Nat) (n : Nat)
  /-- RED_WELT (R247): Opens or serves a welt described in the slice, completing when it closes. -/
  | redWelt (q : Nat) (n : Nat)
  /-- WELT_LACE_CONTRIBUTION (R157): A serving stage takes a line record from its input lace and applies it as one contribution. -/
  | weltLaceContribution (q : Nat) (n : Nat)
  /-- WELT_TIMEOUT (R158): A welt's TIMEOUT expires with lines unfinished; it closes and the job ends with TIMEOUT. -/
  | weltTimeout (q : Nat)
  /-- REDW (R248): Sends each lace record as a reduce-write on TC3. -/
  | redw (q : Nat) (n : Nat)
  /-- MCAST (R249): Sends each lace record as a multicast store on TC5. -/
  | mcast (q : Nat) (n : Nat)
  /-- ARRIVE (R250): Adds a count to a synchronisation object as a tagged update. -/
  | arrive (iss : Issuer)
  /-- SIGNAL (R250): Sets a synchronisation object as a tagged update. -/
  | signal (iss : Issuer)
  /-- WAITCNT (R251): Waits until an object's value meets a threshold. -/
  | waitcnt (iss : Issuer)
  /-- WAITCNT_SATISFIED (R251): The tested object meets the threshold and WAITCNT completes with its predicate 1. -/
  | waitcntSatisfied (iss : Issuer)
  /-- WAITCNT_TIMEOUT (R251): WAITCNT's timeout expires first and it completes with its predicate 0. -/
  | waitcntTimeout (iss : Issuer)
  /-- MAP_SET_ROUTE (R407): Writes a switch-wide route entry under a new route epoch. -/
  | mapSetRoute (cs : Nat)
  /-- MAP_SET_MEMBER (R407): Writes or removes a member entry of a composition's prepared map. -/
  | mapSetMember (cs : Nat)
  /-- MAP_SET_SPAN (R407): Writes or removes a span entry of a composition's prepared map. -/
  | mapSetSpan (cs : Nat)
  /-- MAP_EPOCH (R408): Makes the prepared map current, waiting for PREVIOUS to drain. -/
  | mapEpoch (cs : Nat)
  /-- MAP_EPOCH_DRAINED (R408): PREVIOUS has drained; MAP.EPOCH rotates the epochs, sends DRAIN markers and completes. -/
  | mapEpochDrained (cs : Nat)
  /-- COMP_CREATE (R406): Creates a composition in a partition. -/
  | compCreate (cs : Nat)
  /-- COMP_DESTROY (R406): Fences the composition, disables queues, unbinds mailboxes, revokes extents and deletes tables. -/
  | compDestroy (cs : Nat)
  /-- COMP_DESTROY_END (R406): All destroy conditions hold and the composition becomes FREE. -/
  | compDestroyEnd (comp : Nat)
  /-- EXT_GRANT (R388): Grants or regrants an extent to a composition. -/
  | extGrant (cs : Nat)
  /-- EXT_REVOKE (R389): Puts a granted extent in REVOKING. -/
  | extRevoke (cs : Nat)
  /-- EXTENT_DRAIN_END (R390): A REVOKING extent's admitted requests and moves end and it becomes REVOKED. -/
  | extentDrainEnd (ext : Nat)
  /-- EXT_SCRUB (R445): Starts a scrub of a REVOKED extent whose key is zeroised. -/
  | extScrub (cs : Nat)
  /-- EXT_SCRUB_END (R445): The extent's scrub time passes and it becomes FREE. -/
  | extScrubEnd (ext : Nat)
  /-- KEY_LOAD (R437): Loads a key slot from delivered material by reference. -/
  | keyLoad (cs : Nat)
  /-- KEY_RETIRE (R439): Puts a key slot at a generation in DRAINING. -/
  | keyRetire (cs : Nat)
  /-- KEY_DRAIN_ZEROISE (R440): A draining slot's drain count reaches zero and its keys are zeroised. -/
  | keyDrainZeroise (slot : Nat)
  /-- KEY_RETIRE_TIMEOUT (R440): KEY.RETIRE's TIMEOUT expires; the slot is zeroised and a KEY_LATE record written. -/
  | keyRetireTimeout (slot : Nat)
  /-- CTX_BIND (R423): Binds a context to an ASID, tenant, key slots and composition. -/
  | ctxBind (cs : Nat)
  /-- CTX_UNBIND (R423): Disables a context for new jobs. -/
  | ctxUnbind (cs : Nat)
  /-- ASID_INVAL_NONE (R376): Invalidates an ASID's translations and releases no fault. -/
  | asidInvalNone (cs : Nat)
  /-- ASID_INVAL_RETRY_ALL (R377): Invalidates an ASID and releases all its open fault entries for retry. -/
  | asidInvalRetryAll (cs : Nat)
  /-- ASID_INVAL_ABORT (R377): Invalidates an ASID and ends one fault entry's waiters with a status. -/
  | asidInvalAbort (cs : Nat)
  /-- ASID_INVAL_DRAINED (R376): Requests translated through dropped entries complete; the action is applied and ASID.INVAL completes. -/
  | asidInvalDrained (cs : Nat)
  /-- FENCE_COMP (R282): Fences every request of a composition and probes every switch of its map. -/
  | fenceComp (cs : Nat)
  /-- FENCE_PEER (R282): Fences one peer's requests in a composition and probes the span. -/
  | fencePeer (cs : Nat)
  /-- FENCE_RELEASE_PEER (R284): Removes a peer fence on every switch of the span. -/
  | fenceReleasePeer (cs : Nat)
  /-- FENCE_RELEASE_COMP (R284): Removes a composition fence on every switch of the span. -/
  | fenceReleaseComp (cs : Nat)
  /-- FENCE_COLLECTED (R283): Acknowledgements of probes and drain markers are held for every switch and FENCE completes. -/
  | fenceCollected (cs : Nat)
  /-- FENCE_TIMEOUT (R284): FENCE's TIMEOUT passes first and it completes with FENCE_INCOMPLETE. -/
  | fenceTimeout (cs : Nat)
  /-- HANDOFF_SEND (R411): Moves an owned owner word to IN_TRANSIT with a deadline. -/
  | handoffSend (cs : Nat)
  /-- HANDOFF_ACCEPT (R411): The receiver takes an IN_TRANSIT owner word before its deadline. -/
  | handoffAccept (cs : Nat)
  /-- RECLAIM (R411): The sender reclaims an IN_TRANSIT owner word at or after its deadline. -/
  | reclaim (cs : Nat)
  /-- LEASE_OFFER (R400): The lender offers and reserves grains to a borrower. -/
  | leaseOffer (cs : Nat)
  /-- LEASE_ACCEPT (R400): The borrower accepts an offered lease, making it ACTIVE on both switches. -/
  | leaseAccept (cs : Nat)
  /-- LEASE_RECALL (R402): The lender recalls a lease with a deadline. -/
  | leaseRecall (cs : Nat)
  /-- LEASE_RETURN (R402): The borrower returns a lease and moves its copies out. -/
  | leaseReturn (cs : Nat)
  /-- LEASE_RECALL_RECEIPT (R402): The borrower receives a recall, writes LEASE_RECALL records and starts moving copies home. -/
  | leaseRecallReceipt (lease : Nat) (reason : Nat) (notice : Nat)
  /-- LEASE_EMPTIED (R402): The lease holds no copy and the borrower ends it on both switches. -/
  | leaseEmptied (lease : Nat)
  /-- LEASE_DEADLINE (R402): A recall deadline passes with copies in the lease; the lender ends and zeroes it and the borrower fails the grains. -/
  | leaseDeadline (lease : Nat)
  /-- LEASE_LOST (R403): Lease traffic fails with PATH_LOST or TIMEOUT; the borrower drops copies, fails scratch grains and ends the lease. -/
  | leaseLost (lease : Nat) (status : Nat)
  /-- WEIGHTS_REGISTER (R413): Freezes a weight set's grains and begins hashing its tree digest. -/
  | weightsRegister (cs : Nat)
  /-- WEIGHTS_HASH_DONE (R471): The tree digest is complete, reaches the root of trust, and the registration completes. -/
  | weightsHashDone (w : Nat) (status : Nat) (digest : Bytes)
  /-- WEIGHTS_WITHDRAW (R414): Makes a weight-set handle stale for new jobs and drains. -/
  | weightsWithdraw (cs : Nat)
  /-- WEIGHTS_DRAIN_END (R414): Jobs reading the set have retired; grains unfreeze and the digest is withdrawn. -/
  | weightsDrainEnd (w : Nat)
  /-- TABLE_STORE (R202): Checks a table record and writes it into the ID's store entry. -/
  | tableStore (cs : Nat) (status : Nat) (data : Bytes)
  /-- TABLE_INSTALL (R203): Makes the stored record resident as a new generation, waiting while OLD holds references. -/
  | tableInstall (cs : Nat)
  /-- INSTALL_WAIT_END (R203): OLD's references reach zero; OLD retires and the new generation loads. -/
  | installWaitEnd (id : Nat)
  /-- INSTALL_RESIDENT (R203): The new generation is resident on all dies; its digest goes to the root of trust and INSTALL completes. -/
  | installResident (id : Nat)
  /-- TABLE_RELEASE (R205): Marks a resident table DRAINING. -/
  | tableRelease (cs : Nat)
  /-- TABLE_DELETE (R202): Releases a table and clears its store entry once drained. -/
  | tableDelete (cs : Nat)
  /-- TABLE_DRAIN_END (R205): No references remain; the resident entry frees and digests are withdrawn. -/
  | tableDrainEnd (id : Nat)
  /-- POWER_REQ (R510): A control program asks leave for a heavy operation. -/
  | powerReq (cs : Nat)
  /-- POWER_REQ_RELEASE (R510): A control program releases the POWER.REQ leave it holds. -/
  | powerReqRelease (cs : Nat)
  /-- SPARE_SWAP (R515): Swaps a named unit, sequencer, lane, core or package for its spare. -/
  | spareSwap (cs : Nat)
  /-- METER_READ (R415): Closes the composition's meter period and writes a signed record. -/
  | meterRead (cs : Nat)
  /-- COMMIT_PATTERN (R101): Copies a pattern image into a slot, checks it and enables it with a new handle. -/
  | commitPattern (cs : Nat) (status : Nat) (data : Bytes)
  /-- COMMIT_PATTERN_DISABLE (R104): Disables a pattern slot, which drains. -/
  | commitPatternDisable (cs : Nat)
  /-- PATTERN_DRAIN_END (R104): The last job on a disabled pattern retires and DRAINING clears. -/
  | patternDrainEnd (slot : Nat)
  /-- COMMIT_SA_SLICE (R145): Resizes the stage-memory slices of a die. -/
  | commitSaSlice (cs : Nat)
  /-- COMMIT_SA_UNITMAP (R145): Moves logical units or sequencers to a partition. -/
  | commitSaUnitmap (cs : Nat)
  /-- COMMIT_SA_PARTCFG (R145): Sets a partition's run limit. -/
  | commitSaPartcfg (cs : Nat)
  /-- COMMIT_JOBQ_ENABLE (R61): Enables a job queue and sets its accept pointer to 0. -/
  | commitJobqEnable (cs : Nat)
  /-- COMMIT_JOBQ_DISABLE (R61): Disables a job queue, which drains its accepted entries. -/
  | commitJobqDisable (cs : Nat)
  /-- JOBQ_DRAIN_END (R61): The last accepted entry of a disabled queue retires and DRAINING clears. -/
  | jobqDrainEnd (q : Nat)
  /-- COMMIT_MBXBIND (R52): Binds or unbinds a host-facing mailbox. -/
  | commitMbxbind (cs : Nat)
  /-- COMMIT_SYNCOBJ (R286): Enables or disables a synchronisation object. -/
  | commitSyncobj (cs : Nat)
  /-- COMMIT_COPYENG (R278): Binds or disables a copy engine and its descriptor ring. -/
  | commitCopyeng (cs : Nat)
  /-- COMMIT_MCGROUP_GROUP (R306): Enables or disables a multicast group. -/
  | commitMcgroupGroup (cs : Nat)
  /-- COMMIT_MCGROUP_MEMBER (R306): Writes a member entry of a multicast group. -/
  | commitMcgroupMember (cs : Nat)
  /-- COMMIT_METER (R308): Enables a two-rate three-colour meter, filling its buckets, or disables it. -/
  | commitMeter (cs : Nat)
  /-- COMMIT_SCHED_QUEUE (R311): Sets a queue's weight and threshold factor. -/
  | commitSchedQueue (cs : Nat)
  /-- COMMIT_SCHED_PORT (R311): Sets a port's AGE_LIMIT, ADM_WAIT and RESERVE. -/
  | commitSchedPort (cs : Nat)
  /-- COMMIT_SCHED_SHARE (R311): Sets a composition's share group. -/
  | commitSchedShare (cs : Nat)
  /-- COMMIT_GATE_ENTRY (R315): Writes an entry of an inactive gate list. -/
  | commitGateEntry (cs : Nat)
  /-- COMMIT_GATE_LIST (R316): Activates or deactivates a gate list. -/
  | commitGateList (cs : Nat)
  /-- COMMIT_MIRROR_SESSION (R321): Enables or disables a mirror session. -/
  | commitMirrorSession (cs : Nat)
  /-- COMMIT_MIRROR_SAMPLER (R321): Enables or disables a port's queue sampler. -/
  | commitMirrorSampler (cs : Nat)
  /-- COMMIT_PORT (R357): Sets a port's mode and parameters and enables or disables it. -/
  | commitPort (cs : Nat)
  /-- COMMIT_PORT_PAIR (R357): Splits or unsplits a port pair. -/
  | commitPortPair (cs : Nat)
  /-- COMMIT_WINDOW (R357): Enables or disables a window-table entry of a window-mode port. -/
  | commitWindow (cs : Nat)
  /-- COMMIT_ASID (R379): Enables an ASID with a page-table root, or disables it. -/
  | commitAsid (cs : Nat)
  /-- COMMIT_REGION (R391): Enables or disables a region. -/
  | commitRegion (cs : Nat)
  /-- COMMIT_PLACEMENT (R393): Sets an extent's placement class. -/
  | commitPlacement (cs : Nat)
  /-- COMMIT_FDTAG (R396): Sets a failure-domain tag of a port, tray or lease. -/
  | commitFdtag (cs : Nat)
  /-- COMMIT_PARTITION_PORT (R532): Moves a disabled port to a partition. -/
  | commitPartitionPort (cs : Nat)
  /-- COMMIT_PARTITION_PCH (R532): Moves an unassigned pseudo-channel to a partition. -/
  | commitPartitionPch (cs : Nat)
  /-- COMMIT_PARTITION_RESET (R534): Starts a partition reset. -/
  | commitPartitionReset (cs : Nat)
  /-- PARTITION_RESET_END (R534): The partition's issued writes settle; it is zeroed and its stopped work re-run. -/
  | partitionResetEnd (part : Nat)
  /-- SEQUENCER_STOP_TIMEOUT (R534): A sequencer not stopped within 1 ms of a stop or watchdog starts a partition reset. -/
  | sequencerStopTimeout (iss : Issuer)
  /-- COMMIT_TENANT (R420): Enables, changes or disables a tenant. -/
  | commitTenant (cs : Nat)
  /-- COMMIT_TENANT_PCH_ASSIGN (R444): Assigns an unassigned pseudo-channel to a tenant. -/
  | commitTenantPchAssign (cs : Nat)
  /-- COMMIT_TENANT_PCH_RELEASE (R444): Releases a tenant's pseudo-channel to VACATING. -/
  | commitTenantPchRelease (cs : Nat)
  /-- PCH_VACATED (R444): A vacating channel holds no copies and its scrub starts. -/
  | pchVacated (ch : Nat)
  /-- PCH_SCRUB_END (R444): A channel's scrub ends and it becomes UNASSIGNED. -/
  | pchScrubEnd (ch : Nat)
  /-- COMMIT_TENANT_TRAYPORT (R426): Assigns or releases a memory port for a tenant. -/
  | commitTenantTrayport (cs : Nat)
  /-- COMMIT_PH_BUDGET (R503): Sets PH_BUDGET and idle times. -/
  | commitPhBudget (cs : Nat)
  /-- COMMIT_PH_SWAP (R513): Sets the swap policy, thresholds and maintenance window. -/
  | commitPhSwap (cs : Nat)
  /-- COMMIT_PH_PROOF (R516): Sets a unit type's Proof sampling intervals. -/
  | commitPhProof (cs : Nat)
  /-- COMMIT_PH_WEIGHT (R509): Sets a leave flow's weight. -/
  | commitPhWeight (cs : Nat)
  /-- COMMIT_LV_LIMITS (R499): Sets DIRTY_HIGH, DIRTY_MAX and WL_SPREAD. -/
  | commitLvLimits (cs : Nat)
  /-- COMMIT_LV_IMAGE (R497): Starts writing a firmware image into a layer's inactive slot. -/
  | commitLvImage (cs : Nat)
  /-- LV_IMAGE_WRITE_END (R497): The image write ends, naming the new slot on success, and pages flip back. -/
  | lvImageWriteEnd
  /-- COMMIT_LV_RTABLE (R499): Loads the NAND read-threshold table. -/
  | commitLvRtable (cs : Nat)
  /-- COMMIT_LV_EXPORT (R499): Starts exporting an attestation-log, crash or handover area to the general area. -/
  | commitLvExport (cs : Nat)
  /-- LV_EXPORT_WRITE_END (R499): An export write finishes or fails and the status word shows it. -/
  | lvExportWriteEnd (fail : Option Nat)
  /-- READ_REQUEST (R262): A READ reaches its target, is admitted and served from copy or backing. -/
  | readRequest (f : Frame) (ue : UeSet)
  /-- WRITE_REQUEST (R387): A WRITE reaches its target and writes copy, backing and mirror as the class requires. -/
  | writeRequest (f : Frame)
  /-- PWRITE_REQUEST (R263): A posted write is applied, or refused with a CPL to its source. -/
  | pwriteRequest (f : Frame)
  /-- ATOMIC_REQUEST (R267): An atomic is applied indivisibly on its line after the reply-cache step. -/
  | atomicRequest (f : Frame)
  /-- REDW_REQUEST (R269): A reduce-write is applied to memory or served by a welt. -/
  | redwRequest (f : Frame)
  /-- MCW_REQUEST (R276): A multicast store is checked and replicated to the group's members. -/
  | mcwRequest (f : Frame)
  /-- MSG_REQUEST (R256): A message is delivered to an endpoint. -/
  | msgRequest (f : Frame)
  /-- COPY_RING (R278): An endpoint's ring message advances a copy engine's producer index. -/
  | copyRing (f : Frame)
  /-- COPY_CHUNK_DONE (R279): A copy chunk's write completes; an ARRIVE is sent or the transfer fails. -/
  | copyChunkDone (eng : Nat) (index : Nat) (off : Nat)
  /-- FENCE_REQUEST (R281): An LFP FENCE completes once all earlier requests of its source and class have completed. -/
  | fenceRequest (f : Frame)
  /-- ARRIVE_REQUEST (R290): A remote ARRIVE adds to an object after checks and the cache step. -/
  | arriveRequest (f : Frame)
  /-- SIGNAL_REQUEST (R290): A remote SIGNAL sets an object after checks and the cache step. -/
  | signalRequest (f : Frame)
  /-- DRAIN_MARKER (R261): A destination switch acknowledges a drain marker once everything ahead of it is delivered. -/
  | drainMarker (f : Frame)
  /-- PROBE (R282): A fence probe installs the refusal and is acknowledged once prior admitted requests complete. -/
  | probe (f : Frame)
  /-- CPL_RECEIVE (R342): A completion arrives at its requester and ends the outstanding request. -/
  | cplReceive (f : Frame)
  /-- TAGGED_RESEND (R273): A tagged request without completion for 20 µs, or answered RETRY_LATER, is resent with its key. -/
  | taggedResend (stream : Nat) (tag : Nat)
  /-- COMPLETION_TIMEOUT (R264): A non-posted request without completion within its composition's timeout completes with TIMEOUT. -/
  | completionTimeout (stream : Nat) (tag : Nat)
  /-- REPLY_CACHE_EXPIRY (R271): A reply-cache entry is freed 500 µs after its latest reply. -/
  | replyCacheExpiry (i : Nat)
  /-- FRAME_INGRESS (R300): A frame arrives at an ingress port, is metered and mirrored, and lands in reserve or is dropped. -/
  | frameIngress (f : Frame) (port : Nat)
  /-- FRAME_ADMIT (R300): A waiting frame is admitted to the shared pool and its credits return. -/
  | frameAdmit (port : Nat) (i : Nat)
  /-- ADMISSION_TIMEOUT (R302): A request frame waiting ADM_WAIT is refused with RETRY_LATER. -/
  | admissionTimeout (port : Nat) (i : Nat)
  /-- EGRESS_SELECT (R313): A port's scheduler selects the eligible head frame with the lowest finish tag and sends it. -/
  | egressSelect (port : Nat)
  /-- GATE_ENTRY_BOUNDARY (R317): A gate entry boundary changes which queues are open. -/
  | gateEntryBoundary (port : Nat)
  /-- GATE_CYCLE_START (R316): At a cycle start an accepted list becomes active or a deactivation takes effect. -/
  | gateCycleStart (port : Nat)
  /-- FRAME_AGE_OUT (R320): In aging mode a frame older than AGE_LIMIT is discarded. -/
  | frameAgeOut (port : Nat) (q : Nat)
  /-- QUEUE_SAMPLE (R323): A sampler reads a queue's depth and head delay each PERIOD. -/
  | queueSample (port : Nat)
  /-- ROUTE_DRAIN_ACK (R261): All drain markers of an old route are acknowledged and held requests go on the new route. -/
  | routeDrainAck (switch : Nat)
  /-- ROUTE_HOLD_TIMEOUT (R261): A request held for a route change reaches its timeout and completes with PATH_LOST. -/
  | routeHoldTimeout (i : Nat)
  /-- PORT_DOWN (R319): A port leaves an up state; queues flush, route epochs open and the peer becomes suspect. -/
  | portDown (port : Nat)
  /-- AGING_TO_SERVICE (R320): A down port passing from aging to service mode flushes its queues. -/
  | agingToService (port : Nat)
  /-- FLIT_RECEIVE (R340): A flit is FEC-corrected and CRC-checked, acknowledged or NAKed, and its frames taken. -/
  | flitReceive (port : Nat) (flit : Bytes)
  /-- CREDIT_FRAME (R300): A CREDIT link frame returns cells for a class. -/
  | creditFrame (port : Nat) (f : LinkFrame)
  /-- TIME_SYNC_PERIOD (R351): Every 125 µs the follower sends TIME_SYNC on its upstream port. -/
  | timeSyncPeriod
  /-- TIME_SYNC_FRAME (R351): A partner receives TIME_SYNC and answers TIME_REPLY. -/
  | timeSyncFrame (port : Nat) (f : LinkFrame)
  /-- TIME_REPLY_FRAME (R351): A follower computes the offset and sets or slews device time, or rejects the exchange. -/
  | timeReplyFrame (port : Nat) (f : LinkFrame)
  /-- TIME_UPSTREAM_TIMEOUT (R353): No accepted exchange for 20 ms; the switch follows its backup or enters HOLDOVER. -/
  | timeUpstreamTimeout
  /-- HOLDOVER_TIMEOUT (R353): After 40 ms in HOLDOVER the switch enters UNSYNC. -/
  | holdoverTimeout
  /-- DOZE_IDLE_TIMEOUT (R334): A transmit direction idle for DOZE_IDLE dozes all lanes but lane 0 and sends DOZE. -/
  | dozeIdleTimeout (port : Nat)
  /-- DOZE_FRAME (R334): The receive direction follows the partner into doze. -/
  | dozeFrame (port : Nat) (f : LinkFrame)
  /-- WAKE_FRAME (R334): The receive direction follows the partner out of doze. -/
  | wakeFrame (port : Nat) (f : LinkFrame)
  /-- WAKE_DELAY_END (R334): 1.2 µs after WAKE the waiting frame leaves at full width. -/
  | wakeDelayEnd (port : Nat)
  /-- KEY_SWITCH_FRAME (R347): The receiver switches to the new receive key slot. -/
  | keySwitchFrame (port : Nat) (f : LinkFrame)
  /-- MAC_FRAME (R349): A sealing group's tag is verified, forwarding or discarding and NAKing the group. -/
  | macFrame (port : Nat) (f : LinkFrame)
  /-- CAPS_FRAME (R343): The partner's capability record classes the port. -/
  | capsFrame (port : Nat) (f : LinkFrame)
  /-- SPARE_FRAME (R335): A SPARE link frame starts, announces or abandons a lane swap. -/
  | spareFrame (port : Nat) (f : LinkFrame)
  /-- KEYMSG_FRAME (R346): A KEYMSG frame carries SPDM messages for link key agreement. -/
  | keymsgFrame (port : Nat) (f : LinkFrame)
  /-- LINK_KEY (R347): A LINK_KEY vendor message installs a transmit key in the unused receive slot. -/
  | linkKey (port : Nat) (payload : Bytes)
  /-- REKEY_TIMER (R347): Every 600 s, or near 2^32 groups, a side forces a new link key. -/
  | rekeyTimer (port : Nat)
  /-- PARTNER_DETECT (R332): DETECT finds light and the training pattern and the port enters TRAIN. -/
  | partnerDetect (port : Nat)
  /-- TRAINING_COMPLETE (R332): Lanes lock and a width is chosen; the port enters CONFIG and then ACTIVE. -/
  | trainingComplete (port : Nat) (lanes : List Nat)
  /-- TRAIN_RETRY (R332): A port that cannot train at either width tries again after 1 ms. -/
  | trainRetry (port : Nat)
  /-- LANE_LOCK_LOSS (R333): A lane loses lock or a flit is replayed 8 times; the port enters RETRAIN or swaps in the spare. -/
  | laneLockLoss (port : Nat) (lane : Option Nat)
  /-- RETRAIN_TIMEOUT (R333): A port not back in ACTIVE within 2 ms goes to DETECT. -/
  | retrainTimeout (port : Nat)
  /-- LANE_SWAP_START (R335): A lane swap begins by training the spare. -/
  | laneSwapStart (lane : Nat)
  /-- SPARE_LOCK (R335): Both receivers lock on the spare and start sending duplicate data. -/
  | spareLock (pair : Nat)
  /-- SPARE_SWITCH (R335): At the announced flits both sides use the spare and mark the old lane failed. -/
  | spareSwitch (pair : Nat)
  /-- SPDM_HEARTBEAT_MISS (R461): A session missing three heartbeats is ended. -/
  | spdmHeartbeatMiss (sess : Nat)
  /-- SPDM_REQUEST (R461): An SPDM 1.2 request is answered with the supported algorithms and capabilities. -/
  | spdmRequest (sess : Nat) (req : Bytes)
  /-- SET_CERTIFICATE (R462): Writes the owner chain to certificate slot 1. -/
  | setCertificate (sess : Nat) (slot : Nat) (chain : Bytes)
  /-- GET_CSR (R462): Returns a certificate request for the OwnerID key. -/
  | getCsr (sess : Nat)
  /-- GET_MEASUREMENTS (R463): Returns the measurement blocks, optionally signed. -/
  | getMeasurements (sess : Nat) (index : Nat) (sign : Bool) (nonce : Bytes)
  /-- GET_REPORT (R467): Produces a signed attestation report for a scope. -/
  | getReport (sess : Nat) (nonce : Bytes) (comp : Nat) (start : Nat)
  /-- DELIVER_KEY (R465): Places key material in a delivered entry and returns KEYREF. -/
  | deliverKey (sess : Nat) (tenant : Nat) (mode : Nat) (material : Bytes)
  /-- DISCARD_KEY (R466): Discards delivered material. -/
  | discardKey (sess : Nat) (keyref : Nat)
  /-- DELIVERED_KEY_EXPIRY (R466): Delivered material unconsumed for 60 s is zeroised. -/
  | deliveredKeyExpiry (e : Nat)
  /-- SET_OWNER (R464): Sets the owner anchor. -/
  | setOwner (sess : Nat) (digest : Bytes)
  /-- RAISE_FLOOR (R457): Raises the security version floor. -/
  | raiseFloor (sess : Nat) (floor : Nat)
  /-- RAISE_EPOCH (R456): Raises the identity epoch, zeroising keys and clearing the anchor. -/
  | raiseEpoch (sess : Nat)
  /-- SEAL (R458): Seals or unseals the partition layout. -/
  | seal (sess : Nat) (on : Bool)
  /-- DEBUG_UNLOCK (R459): Requests debug unlock for the next cold reset. -/
  | debugUnlock (sess : Nat) (token : Bytes) (nonce : Bytes)
  /-- GET_LC (R456): Returns the limited-change record. -/
  | getLc (sess : Nat)
  /-- DIRTY_DRAIN (R482): Dirty staging drains to NAND and acceptance stops or resumes at the thresholds. -/
  | dirtyDrain (bytes : Nat)
  /-- SEGMENT_RELOCATE (R480): A sparse segment's live records are copied to the open segment and it is freed. -/
  | segmentRelocate (records : List Nat)
  /-- WEAR_LEVEL_MOVE (R494): The youngest block's data moves to the oldest free block. -/
  | wearLevelMove (pkg : Nat) (newMin : Nat) (newMax : Nat)
  /-- PAGE_REWRITE (R493): An old or weak NAND page is rewritten in the background. -/
  | pageRewrite (page : Nat) (temp : Nat) (weak : Bool) (retries : Nat) (mirror : Bool) (miss : Bool)
  /-- HOLDUP_MEASURE (R486): The bank's usable energy is measured and DIRTY_EFF set. -/
  | holdupMeasure (usable : Nat)
  /-- HOLDUP_CHARGED (R555): The bank's usable energy covers E(64 MiB) and HOLDUP_LOW clears. -/
  | holdupCharged
  /-- LPDDR_PACKAGE_FAIL (R479): An LPDDR5X package fails and staging continues on the survivor. -/
  | lpddrPackageFail (n : Nat)
  /-- NAND_PACKAGE_FAIL (R491): A NAND package fails and its pair continues on the survivor. -/
  | nandPackageFail (k : Nat)
  /-- METER_PERIOD_END (R415): A composition's meter period ends and a signed record is written. -/
  | meterPeriodEnd (comp : Nat)
  /-- MIGRATION_START (R395): The tier manager starts moving a grain between locations. -/
  | migrationStart (grain : Nat) (toLoc : Nat) (toFrame : Nat)
  /-- SUBGRAIN_COPY_DONE (R395): One sub-grain copy ends; the next starts or the entry switches. -/
  | subgrainCopyDone (move : Nat) (data : Bytes)
  /-- HBM_PRESSURE_DROP (R394): Low free HBM frames make the tier manager drop copies, coldest first. -/
  | hbmPressureDrop (grain : Nat)
  /-- MIRROR_RESYNC (R397): A returned backing port gets the recorded sub-grains copied before DEGRADED clears. -/
  | mirrorResync (ext : Nat)
  /-- POWER_LOSS (R483): Input below 47 V for 10 µs starts a flush. -/
  | powerLoss
  /-- OVERVOLTAGE (R502): Input above 63 V opens the input stage and is treated as power loss. -/
  | overvoltage
  /-- FLUSH_COMPLETE (R484): NAND writes end and the flush marker is written. -/
  | flushComplete
  /-- POWER_GOOD (R562): The main converters reach regulation, PWRGD is released and boot stage RESET begins. -/
  | powerGood
  /-- BOOT_IDENTITY (R450): Layer 0 reconstructs the UDS and derives the DeviceID key, or stops at PUF_FAIL. -/
  | bootIdentity
  /-- FIRMWARE_LOAD (R454): Each layer's image is validated and run, or boot stops at IMAGE_FAIL. -/
  | firmwareLoad
  /-- RESTORE (R487): At stage RESTORE the vault rebuilds objects and volatile state and re-enters live records. -/
  | restore
  /-- BOOT_READY (R455): Boot reaches READY; the bootstrap set and main domain become available. -/
  | bootReady
  /-- FIRMWARE_SILENT (R527): Management firmware silent for 100 ms causes a warm reset with a crash record. -/
  | firmwareSilent
  /-- HBM_STACK_FAIL (R539): An HBM stack fails; copies drop, scratch data fails, and stack 0 forces a warm reset. -/
  | hbmStackFail (stack : Nat)
  /-- DEVICE_AREA_UE (R538): An uncorrectable device-area line triggers reply-cache loss handling, tier-map rebuild or object reload. -/
  | deviceAreaUe (what : AreaTable)
  /-- DIE_TEMPERATURE (R511): A die's temperature report applies or lifts thermal throttles, or trips POWER_OFF. -/
  | dieTemperature (die : Nat) (tj : Nat)
  /-- BUDGET_THROTTLE_SET (R504): Input averaged over 1 ms exceeds the budget by 2 % and units run one class lower. -/
  | budgetThrottleSet (watts : Nat)
  /-- BUDGET_THROTTLE_LIFT (R504): The 10 ms average stays below 0.95 B for 10 ms and the throttle lifts. -/
  | budgetThrottleLift (watts : Nat)
  /-- AGE_MONITOR_SAMPLE (R512): Every 10 s ageing monitors are read against AGE_LIMIT. -/
  | ageMonitorSample (part : HealthPart) (age : Nat)
  /-- CE_SAMPLE (R512): Every second corrected-error counts are read against CE_LIMIT. -/
  | ceSample (part : HealthPart) (count : Nat) (fresh : Nat := 0)
  /-- EYE_SAMPLE (R512): Every millisecond lane eye margins are read against EYE_MIN. -/
  | eyeSample (lane : Nat) (eye : Nat) (corr : Nat)
  /-- SWAP_WINDOW_OPEN (R513): A maintenance window opens and pending swaps are made. -/
  | swapWindowOpen
  /-- PROOF_CHECKER_WAIT (R517): No checker is free within 256 cycles and the sample is skipped. -/
  | proofCheckerWait (q : Nat) (n : Nat)
  /-- PROOF_VERDICT (R519): A checker's result matches and releases the tile, or a mismatch starts a repeat. -/
  | proofVerdict (q : Nat) (n : Nat) (res : ProofRes)
  /-- PROOF_REPEAT_VERDICT (R519): The repeat's result decides which result is used and who is charged. -/
  | proofRepeatVerdict (q : Nat) (n : Nat) (res : ProofRes) (cond : ProofCond)
  /-- ESCALATION_END (R522): 24 h without a charged mismatch ends a unit's escalation. -/
  | escalationEnd (ty : Nat) (p : Nat)
  /-- PROOF_BIN_LAPSE (R522): Mismatch counts older than 24 h lapse from a bin. -/
  | proofBinLapse (ty : Nat) (p : Nat) (bin : Nat)
  /-- INPUT_SWITCH_CLOSE (R551): EN connected and bulk within 3 V of VIN for 20 ms closes the input switch. -/
  | inputSwitchClose
  /-- EN_BREAK (R553): EN breaks; the input switch opens and a flush runs from hold-up. -/
  | enBreak
  /-- RESET_N_ASSERT (R559): RESET_N low for 1 ms starts COLD_RESET and holds at stage RESET. -/
  | resetNAssert
  /-- RESET_N_RELEASE (R559): The rising edge of RESET_N lets boot proceed. -/
  | resetNRelease
  /-- ATTN_N_ASSERT (R560): ATTN_N low for 10 ms starts REMOVE. -/
  | attnNAssert
  /-- PERST_N_CHANGE (R557): PERST_N holds or releases the management port's PHY and controller in reset. -/
  | perstNChange (low : Bool)
  /-- RETRAIN_COMPLETE (R333): A port in RETRAIN relocks its lanes, or brings in the spare, and returns to ACTIVE with sequence numbers, replay buffer, credits and queues kept. -/
  | retrainComplete (port : Nat)
  /-- CONTROL_SEQUENCER_FAIL (R71): A failed control sequencer is detected by its spare's monitor and the spare takes its place and number. -/
  | controlSequencerFail (cs : Nat)
  /-- REMOVE_STOP_DEADLINE (R498): 10 ms after a planned removal began, jobs and control programs still running are stopped without completion records. -/
  | removeStopDeadline
  /-- INPUT_POWER_RESTORED (R483): Input power returns during or after a power-loss flush, so the flush completes and a cold reset follows. -/
  | inputPowerRestored
  /-- UNDERVOLT_OVERVOLT (R502): Input voltage enters 47-50 V or 60-63 V and the LF7 sets UNDERVOLT or OVERVOLT in PH_HEALTH while continuing to operate. -/
  | undervoltOvervolt (volts : Nat)
  /-- IDE_KM_MESSAGE (R36): IDE_KM messages over a secured SPDM session deliver CXL IDE keys and make IDE active on the management port, lifting the IDE_REQUIRED refusals. -/
  | ideKmMessage (sess : Nat) (msg : Bytes)
  /-- SMBUS_FALLBACK (R81): When the baseboard controller does not drive I3C, the sideband falls back to SMBus at 400 kHz with PEC and SMBALERT#. -/
  | smbusFallback
  /-- DYNAMIC_ADDRESS_ASSIGNMENT (R81): A SETDASA or ENTDAA command on the I3C sideband sets or replaces the module's static address 0x4C. -/
  | dynamicAddressAssignment (addr : Nat)
  /-- SPARE_DESKEW_DONE (R335): Both receivers finish deskewing the spare lane against the port's lanes and each announces the SEQ of its switching flit. -/
  | spareDeskewDone (pair : Nat)
  /-- POWER_ON_TEST_END (R146): The seam array's power-on test finishes, SA_CAP reads its value, spare unit entries read STATE 3 and the default slice layout loads. -/
  | powerOnTestEnd
  /-- CONVERTER_REGULATION_LOSS (R562): A main converter leaves regulation and PWRGD is pulled low within 10 µs. -/
  | converterRegulationLoss
deriving DecidableEq, Repr

end Sys2Proof
end

