-- ==== Sys2Proof/Decode.lean ====
section
/-! DEFINITION. The command a word spells by the bits of the table of operations. No row of the
table has bits: commands reach the LF7 as accesses, messages and events, so no word spells one. -/

namespace Sys2Proof

/-- The command of a word of `nbits` bits; the table gives no row bits. -/
def decodeTableWord (_nbits _w : Nat) : Option Instr := none

end Sys2Proof
end

