-- ==== Sys2Proof/Machine/Crypto.lean ====
section
/-! DEFINITION. The published algorithms the spec names: SM3 (GB/T 32905), HMAC-SM3, SM4 (GB/T
32907) with its XTS, CMAC and GCM modes, CRC-32C and CRC-64/ECMA. PRESUMED where a step of a
published algorithm is not in the spec. -/

namespace Sys2Proof.Machine

/-! ### SM3 -/

/-- Big-endian 32-bit word at a byte offset. -/
def be32 (bs : Bytes) (off : Nat) : W32 :=
  (bs.getD off 0 ++ bs.getD (off + 1) 0 ++ bs.getD (off + 2) 0 ++ bs.getD (off + 3) 0 : BitVec 32)

/-- Big-endian bytes of a number, `n` of them. -/
def bytesBE (n v : Nat) : Bytes := (bytesLE n v).reverse

/-- The number big-endian bytes spell. -/
def ofBE (bs : Bytes) : Nat := ofLE bs.reverse

/-- SM3 permutation P0. -/
def sm3P0 (x : W32) : W32 := x ^^^ x.rotateLeft 9 ^^^ x.rotateLeft 17
/-- SM3 permutation P1. -/
def sm3P1 (x : W32) : W32 := x ^^^ x.rotateLeft 15 ^^^ x.rotateLeft 23

/-- The 68 expanded words, newest first, from the first 16 newest first. -/
def sm3Expand : Nat → List W32 → List W32
  | 0, w => w
  | n + 1, w =>
    let g := fun k => w.getD (k - 1) 0
    sm3Expand n ((sm3P1 (g 16 ^^^ g 9 ^^^ (g 3).rotateLeft 15) ^^^ (g 13).rotateLeft 7 ^^^ g 6) :: w)

/-- The eight chaining words. -/
structure Sm3Regs where
  a : W32
  b : W32
  c : W32
  d : W32
  e : W32
  f : W32
  g : W32
  h : W32
deriving DecidableEq, Repr

/-- One round of the compression. -/
def sm3Round (v : Sm3Regs) (j : Nat) (w w' : W32) : Sm3Regs :=
  let t : W32 := if j < 16 then 0x79cc4519 else 0x7a879d8a
  let ss1 := (v.a.rotateLeft 12 + v.e + t.rotateLeft (j % 32)).rotateLeft 7
  let ss2 := ss1 ^^^ v.a.rotateLeft 12
  let ff := if j < 16 then v.a ^^^ v.b ^^^ v.c else (v.a &&& v.b) ||| (v.a &&& v.c) ||| (v.b &&& v.c)
  let gg := if j < 16 then v.e ^^^ v.f ^^^ v.g else (v.e &&& v.f) ||| (~~~v.e &&& v.g)
  let t1 := ff + v.d + ss2 + (w ^^^ w')
  let t2 := gg + v.h + ss1 + w
  { a := t1, b := v.a, c := v.b.rotateLeft 9, d := v.c, e := sm3P0 t2, f := v.e, g := v.f.rotateLeft 19, h := v.g }

/-- The rounds over the expanded words. -/
def sm3Rounds : Nat → Nat → List W32 → Sm3Regs → Sm3Regs
  | 0, _, _, v => v
  | n + 1, j, ws, v => sm3Rounds n (j + 1) (ws.drop 1) (sm3Round v j (ws.getD 0 0) (ws.getD 4 0))

/-- One 64-byte block. -/
def sm3Block (v : Sm3Regs) (blk : Bytes) : Sm3Regs :=
  let w0 := ((List.range 16).map fun i => be32 blk (4 * i)).reverse
  let r := sm3Rounds 64 0 (sm3Expand 52 w0).reverse v
  { a := r.a ^^^ v.a, b := r.b ^^^ v.b, c := r.c ^^^ v.c, d := r.d ^^^ v.d,
    e := r.e ^^^ v.e, f := r.f ^^^ v.f, g := r.g ^^^ v.g, h := r.h ^^^ v.h }

/-- `n` blocks in order. -/
def sm3Blocks : Nat → Bytes → Sm3Regs → Sm3Regs
  | 0, _, v => v
  | n + 1, bs, v => sm3Blocks n (bs.drop 64) (sm3Block v (bs.take 64))

/-- SM3 digest, 32 bytes. -/
def sm3 (m : Bytes) : Bytes :=
  let z := (119 - m.length % 64) % 64
  let p := m ++ [0x80] ++ List.replicate z 0 ++ bytesBE 8 (8 * m.length)
  let v := sm3Blocks (p.length / 64) p
    { a := 0x7380166f, b := 0x4914b2b9, c := 0x172442d7, d := 0xda8a0600,
      e := 0xa96f30bc, f := 0x163138aa, g := 0xe38dee4d, h := 0xb0fb0e4e }
  [v.a, v.b, v.c, v.d, v.e, v.f, v.g, v.h].flatMap fun x => bytesBE 4 x.toNat

/-- HMAC-SM3. -/
def hmacSm3 (key m : Bytes) : Bytes :=
  let k := fitTo 64 (if 64 < key.length then sm3 key else key)
  sm3 (k.map (· ^^^ 0x5c) ++ sm3 (k.map (· ^^^ 0x36) ++ m))

/-! ### SM4 -/

/-- The SM4 S-box, sixteen rows. -/
def sm4Sbox : List Nat :=
  [0xd6, 0x90, 0xe9, 0xfe, 0xcc, 0xe1, 0x3d, 0xb7, 0x16, 0xb6, 0x14, 0xc2, 0x28, 0xfb, 0x2c, 0x05] ++
  [0x2b, 0x67, 0x9a, 0x76, 0x2a, 0xbe, 0x04, 0xc3, 0xaa, 0x44, 0x13, 0x26, 0x49, 0x86, 0x06, 0x99] ++
  [0x9c, 0x42, 0x50, 0xf4, 0x91, 0xef, 0x98, 0x7a, 0x33, 0x54, 0x0b, 0x43, 0xed, 0xcf, 0xac, 0x62] ++
  [0xe4, 0xb3, 0x1c, 0xa9, 0xc9, 0x08, 0xe8, 0x95, 0x80, 0xdf, 0x94, 0xfa, 0x75, 0x8f, 0x3f, 0xa6] ++
  [0x47, 0x07, 0xa7, 0xfc, 0xf3, 0x73, 0x17, 0xba, 0x83, 0x59, 0x3c, 0x19, 0xe6, 0x85, 0x4f, 0xa8] ++
  [0x68, 0x6b, 0x81, 0xb2, 0x71, 0x64, 0xda, 0x8b, 0xf8, 0xeb, 0x0f, 0x4b, 0x70, 0x56, 0x9d, 0x35] ++
  [0x1e, 0x24, 0x0e, 0x5e, 0x63, 0x58, 0xd1, 0xa2, 0x25, 0x22, 0x7c, 0x3b, 0x01, 0x21, 0x78, 0x87] ++
  [0xd4, 0x00, 0x46, 0x57, 0x9f, 0xd3, 0x27, 0x52, 0x4c, 0x36, 0x02, 0xe7, 0xa0, 0xc4, 0xc8, 0x9e] ++
  [0xea, 0xbf, 0x8a, 0xd2, 0x40, 0xc7, 0x38, 0xb5, 0xa3, 0xf7, 0xf2, 0xce, 0xf9, 0x61, 0x15, 0xa1] ++
  [0xe0, 0xae, 0x5d, 0xa4, 0x9b, 0x34, 0x1a, 0x55, 0xad, 0x93, 0x32, 0x30, 0xf5, 0x8c, 0xb1, 0xe3] ++
  [0x1d, 0xf6, 0xe2, 0x2e, 0x82, 0x66, 0xca, 0x60, 0xc0, 0x29, 0x23, 0xab, 0x0d, 0x53, 0x4e, 0x6f] ++
  [0xd5, 0xdb, 0x37, 0x45, 0xde, 0xfd, 0x8e, 0x2f, 0x03, 0xff, 0x6a, 0x72, 0x6d, 0x6c, 0x5b, 0x51] ++
  [0x8d, 0x1b, 0xaf, 0x92, 0xbb, 0xdd, 0xbc, 0x7f, 0x11, 0xd9, 0x5c, 0x41, 0x1f, 0x10, 0x5a, 0xd8] ++
  [0x0a, 0xc1, 0x31, 0x88, 0xa5, 0xcd, 0x7b, 0xbd, 0x2d, 0x74, 0xd0, 0x12, 0xb8, 0xe5, 0xb4, 0xb0] ++
  [0x89, 0x69, 0x97, 0x4a, 0x0c, 0x96, 0x77, 0x7e, 0x65, 0xb9, 0xf1, 0x09, 0xc5, 0x6e, 0xc6, 0x84] ++
  [0x18, 0xf0, 0x7d, 0xec, 0x3a, 0xdc, 0x4d, 0x20, 0x79, 0xee, 0x5f, 0x3e, 0xd7, 0xcb, 0x39, 0x48]

/-- The S-box on each byte of a word. -/
def sm4Tau (x : W32) : W32 :=
  (List.range 4).foldl (fun a i => a ||| (w32 (sm4Sbox.getD (fld x (8 * i) 8) 0) <<< (8 * i))) 0

/-- Round transformation of data. -/
def sm4T (x : W32) : W32 :=
  let b := sm4Tau x
  b ^^^ b.rotateLeft 2 ^^^ b.rotateLeft 10 ^^^ b.rotateLeft 18 ^^^ b.rotateLeft 24

/-- Round transformation of the key schedule. -/
def sm4T' (x : W32) : W32 :=
  let b := sm4Tau x
  b ^^^ b.rotateLeft 13 ^^^ b.rotateLeft 23

/-- Constant of key round `i`: bytes (4i + j) × 7 mod 256. -/
def sm4CK (i : Nat) : W32 :=
  w32 ((List.range 4).foldl (fun a j => a * 256 + (4 * i + j) * 7 % 256) 0)

/-- Round keys from the four running words. -/
def sm4Keys : Nat → Nat → W32 → W32 → W32 → W32 → List W32
  | 0, _, _, _, _, _ => []
  | n + 1, i, a, b, c, d =>
    let k := a ^^^ sm4T' (b ^^^ c ^^^ d ^^^ sm4CK i)
    k :: sm4Keys n (i + 1) b c d k

/-- The 32 round keys of a 128-bit key. -/
def sm4RoundKeys (key : BitVec 128) : List W32 :=
  let w := fun i => w32 (fld key (96 - 32 * i) 32)
  sm4Keys 32 0 (w 0 ^^^ 0xa3b1bac6) (w 1 ^^^ 0x56aa3350) (w 2 ^^^ 0x677d9197) (w 3 ^^^ 0xb27022dc)

/-- The rounds under a list of round keys; the output is the last four words reversed. -/
def sm4Run : List W32 → W32 → W32 → W32 → W32 → BitVec 128
  | [], a, b, c, d => (d ++ c ++ b ++ a : BitVec 128)
  | k :: t, a, b, c, d => sm4Run t b c d (a ^^^ sm4T (b ^^^ c ^^^ d ^^^ k))

/-- SM4 under round keys. -/
def sm4With (ks : List W32) (x : BitVec 128) : BitVec 128 :=
  let w := fun i => w32 (fld x (96 - 32 * i) 32)
  sm4Run ks (w 0) (w 1) (w 2) (w 3)

/-- SM4 encryption of one block. -/
def sm4Enc (key x : BitVec 128) : BitVec 128 := sm4With (sm4RoundKeys key) x

/-- SM4 decryption of one block. -/
def sm4Dec (key x : BitVec 128) : BitVec 128 := sm4With (sm4RoundKeys key).reverse x

/-- A 16-byte block, first byte highest, as SM4 reads it. -/
def blockOf (bs : Bytes) : BitVec 128 := BitVec.ofNat 128 (ofBE (fitTo 16 bs))

/-- The bytes of a block. -/
def bytesOf (x : BitVec 128) : Bytes := bytesBE 16 x.toNat

/-- Multiplication of an XTS tweak by α, on little-endian bytes. -/
def xtsMul (x : BitVec 128) : BitVec 128 :=
  let v := ofLE (bytesOf x)
  let d := 2 * v % 2 ^ 128
  blockOf (bytesLE 16 (if v < 2 ^ 127 then d else d ^^^ 0x87))

/-- XTS over blocks with a running tweak. -/
def xtsBlocks (f : BitVec 128 → BitVec 128) : Nat → BitVec 128 → Bytes → Bytes
  | 0, _, _ => []
  | n + 1, t, bs => bytesOf (f (blockOf (bs.take 16) ^^^ t) ^^^ t) ++ xtsBlocks f n (xtsMul t) (bs.drop 16)

/-- SM4-XTS of a data unit of whole blocks, its number the 128-bit little-endian tweak input. -/
def xtsEnc (dataKey tweakKey : BitVec 128) (unit : Nat) (bs : Bytes) : Bytes :=
  xtsBlocks (sm4With (sm4RoundKeys dataKey)) (bs.length / 16) (sm4Enc tweakKey (blockOf (bytesLE 16 unit))) bs

/-- SM4-XTS decryption. -/
def xtsDec (dataKey tweakKey : BitVec 128) (unit : Nat) (bs : Bytes) : Bytes :=
  xtsBlocks (sm4With (sm4RoundKeys dataKey).reverse) (bs.length / 16) (sm4Enc tweakKey (blockOf (bytesLE 16 unit))) bs

/-- Doubling in GF(2^128), big-endian, for CMAC subkeys. -/
def cmacDbl (x : BitVec 128) : BitVec 128 := if x.toNat < 2 ^ 127 then x <<< 1 else (x <<< 1) ^^^ 0x87

/-- CMAC over whole blocks but the last. -/
def cmacRun (f : BitVec 128 → BitVec 128) : Nat → BitVec 128 → Bytes → BitVec 128
  | 0, c, _ => c
  | n + 1, c, bs => cmacRun f n (f (c ^^^ blockOf (bs.take 16))) (bs.drop 16)

/-- SM4-CMAC. -/
def cmac (key : BitVec 128) (m : Bytes) : BitVec 128 :=
  let f := sm4With (sm4RoundKeys key)
  let k1 := cmacDbl (f 0)
  let n := if m.length = 0 then 0 else (m.length - 1) / 16
  let c := cmacRun f n 0 m
  let last := m.drop (16 * n)
  if last.length = 16 then f (c ^^^ blockOf last ^^^ k1)
  else f (c ^^^ blockOf (last ++ [0x80]) ^^^ cmacDbl k1)

/-- Product in the GCM field, bit 0 the highest. -/
def gcmMul : Nat → BitVec 128 → BitVec 128 → BitVec 128 → BitVec 128
  | 0, _, _, z => z
  | n + 1, x, v, z =>
    let z' := if x.getLsbD 127 then z ^^^ v else z
    let v' := if v.getLsbD 0 then (v >>> 1) ^^^ (0xe1000000000000000000000000000000 : BitVec 128) else v >>> 1
    gcmMul n (x <<< 1) v' z'

/-- GHASH over `n` blocks. -/
def ghash (h : BitVec 128) : Nat → BitVec 128 → Bytes → BitVec 128
  | 0, y, _ => y
  | n + 1, y, bs => ghash h n (gcmMul 128 (y ^^^ blockOf (bs.take 16)) h 0) (bs.drop 16)

/-- A byte string zero-filled to whole blocks. -/
def pad16 (bs : Bytes) : Bytes := fitTo (ceilDiv bs.length 16 * 16) bs

/-- CTR keystream XORed on. -/
def ctrMode (f : BitVec 128 → BitVec 128) : Nat → BitVec 128 → Bytes → Bytes
  | 0, _, _ => []
  | n + 1, c, bs =>
    (List.zipWith (· ^^^ ·) (bs.take 16) (bytesOf (f c))) ++
      ctrMode f n (BitVec.ofNat 128 (c.toNat / 2 ^ 32 * 2 ^ 32 + (c.toNat % 2 ^ 32 + 1) % 2 ^ 32)) (bs.drop 16)

/-- SM4-GCM with a 96-bit IV: the text under the keystream, and the tag over `cipher`. -/
def gcmText (key : BitVec 128) (iv : Bytes) (bs : Bytes) : Bytes :=
  ctrMode (sm4With (sm4RoundKeys key)) (ceilDiv bs.length 16) (blockOf (fitTo 12 iv ++ [0, 0, 0, 2])) bs

/-- The tag of associated data and ciphertext. -/
def gcmTag (key : BitVec 128) (iv aad cipher : Bytes) : BitVec 128 :=
  let f := sm4With (sm4RoundKeys key)
  let x := pad16 aad ++ pad16 cipher ++ bytesBE 8 (8 * aad.length) ++ bytesBE 8 (8 * cipher.length)
  ghash (f 0) (x.length / 16) 0 x ^^^ f (blockOf (fitTo 12 iv ++ [0, 0, 0, 1]))

/-! ### Cyclic redundancy checks -/

/-- One bit of a reflected CRC. -/
def crcBits (poly : Nat) : Nat → Nat → Nat
  | 0, c => c
  | n + 1, c => crcBits poly n (if c % 2 = 1 then (c / 2) ^^^ poly else c / 2)

/-- CRC-32C (Castagnoli), reflected, initial and final value all ones. -/
def crc32c (bs : Bytes) : W32 :=
  w32 ((bs.foldl (fun c b => crcBits 0x82F63B78 8 (c ^^^ b.toNat)) 0xFFFFFFFF) ^^^ 0xFFFFFFFF)

/-- Bits of a most-significant-first 64-bit CRC. -/
def crcBits64 (poly : Nat) : Nat → Nat → Nat
  | 0, c => c
  | n + 1, c => crcBits64 poly n (if c < 2 ^ 63 then 2 * c else (2 * c - 2 ^ 64) ^^^ poly)

/-- The CRC over bytes; the case on zero keeps the value a numeral as it is evaluated. -/
def crcOver : Bytes → Nat → Nat
  | [], c => c
  | b :: t, c => match crcBits64 0x42F0E1EBA9EA3693 8 (c ^^^ (b.toNat * 2 ^ 56)) with
    | 0 => crcOver t 0
    | n + 1 => crcOver t (n + 1)

/-- The CRC of an LFP flit (R339): ECMA-182 polynomial, initial value all ones, no reflection, the
result inverted. -/
def crc64 (bs : Bytes) : W64 := w64 (2 ^ 64 - 1 - crcOver bs (2 ^ 64 - 1))

end Sys2Proof.Machine
end

