-- ==== Sys2Proof/Config.lean ====
section
/-! DEFINITION. What the spec leaves open: free values, as constants without a body. Nothing in Lean
can evaluate one, so a statement about them holds whatever they are. -/

namespace Sys2Proof.Config

/-- The free value drawn n-th (the state counts the draws). -/
opaque freeWord : Nat → W64

/-- Verification of an SM2 signature over a digest under a public key's digest: signer, message,
signature. The arithmetic of SM2 is outside the spec. -/
opaque sm2Verify : Bytes → Bytes → Bytes → Bool

/-- SM2 signature (64 bytes where the spec asks for one) by a key of the device over a message. -/
opaque sm2Sign : Bytes → Bytes → Bytes

/-- SM3 digest of the public key derived from a key-derivation input (R450–R452). -/
opaque keyDigest : Bytes → Bytes

/-- SM3 digests of the two Kilhar firmware-signing public keys that layer 0 holds (R453), by KEYIDX. -/
opaque kilharKeyDigest : Nat → Bytes

/-- SM3 digests of the code with which the module leaves manufacture: 0 the boot ROM, 1 to 4 the bodies of the layers'
images A (R463). -/
opaque factoryDigest : Nat → Bytes

/-- An attestation-log record from its kind, time, object, value and digest (R495). -/
opaque attestBytes : Nat → Nat → Nat → Nat → Bytes → Bytes

/-- A crash record from its time and cause (R495). -/
opaque crashBytes : Nat → Nat → Bytes

/-- The module's unique device secret, which its PUF yields (R450). -/
opaque uds : Bytes

/-- e^x as a unit type computes it, an FP32 pattern, before it is held to the bound of R143; type 0
stands for the memory-side dies. -/
opaque expFree : Nat → BitVec 32 → BitVec 32

/-- The port a route hash chooses among equal ports: number of ports, and the fields hashed (R299). -/
opaque routeHash : Nat → Nat → Nat

/-- The sampled position in a Proof group (R517): type, unit, group, tiles of the group. -/
opaque proofPosition : Nat → Nat → Nat → Nat → Nat

/-- Spare rows of a compute die's stage memory: 8% of its rows, whose size the spec does not give (R124). -/
opaque spareRows : Nat

/-- The filter of time offsets (R351): the estimate so far and an accepted offset, in 0.05 ns. -/
opaque timeFilter : Int → Int → Int

/-- The root certificate's SM3 digest of the chain by which an SPDM requester or responder has authenticated itself in
a connection with the message that ends the exchange; none where authentication fails (R346, R461). -/
opaque spdmRoot : Nat → Bytes → Option Bytes

/-- The ciphertext key material a link or IDE session agrees on, by session and count. -/
opaque sessionKey : Nat → Nat → BitVec 128

/-- A certificate that one key issues for another, by the issuer's and the subject's seeds (R452). -/
opaque certificate : Bytes → Bytes → Bytes

/-- SM3 digest of the public key in the last certificate of a chain (R462). -/
opaque chainLeaf : Bytes → Bytes

/-- A certificate request for a key, by its seed (R462). -/
opaque certRequest : Bytes → Bytes

end Sys2Proof.Config
end

