-- ==== Sys2Proof/Machine/Num.lean ====
section
/-! DEFINITION. Number formats, rounding and exceptions (R131, R134–R138), exact sums (R139), FP32
operations (R140), paired sums (R141), exponentials and LSE merges (R143, R144), and welt
comparison (R155). A value is held exactly until it is rounded. -/

namespace Sys2Proof.Machine

/-- A real value held exactly: `fin` is (−1)^neg × m × 2^e. -/
inductive FVal where
  | nan
  | inf (neg : Bool)
  | fin (neg : Bool) (m : Nat) (e : Int)
deriving DecidableEq, Repr

/-- +0. -/
def FVal.zero : FVal := .fin false 0 0

/-- An integer as a value. -/
def FVal.ofInt (v : Int) : FVal := .fin (decide (v < 0)) v.natAbs 0

/-- A result with its exception flags: bit 0 IV, bit 1 OF, bit 2 UF (R131). -/
structure Res (α : Type) where
  v : α
  f : Nat := 0
deriving DecidableEq, Repr

/-- IV. -/
def fIV : Nat := 1
/-- OF. -/
def fOF : Nat := 2
/-- UF. -/
def fUF : Nat := 4

/-! ### Formats -/

/-- A floating-point format (*Format layouts*). -/
structure Fmt where
  bits : Nat
  eb   : Nat
  mb   : Nat
  bias : Nat
  inf  : Bool
  /-- NaN output, `none` where the format has none. -/
  nan  : Option Nat
  /-- Largest finite magnitude as a pattern. -/
  maxC : Nat
deriving DecidableEq, Repr

/-- FP32. -/
def fp32 : Fmt := { bits := 32, eb := 8, mb := 23, bias := 127, inf := true, nan := some 0x7FC00000, maxC := 0x7F7FFFFF }
/-- BF16. -/
def bf16 : Fmt := { bits := 16, eb := 8, mb := 7, bias := 127, inf := true, nan := some 0x7FC0, maxC := 0x7F7F }
/-- FP16. -/
def fp16 : Fmt := { bits := 16, eb := 5, mb := 10, bias := 15, inf := true, nan := some 0x7E00, maxC := 0x7BFF }
/-- FP8 E4M3. -/
def e4m3 : Fmt := { bits := 8, eb := 4, mb := 3, bias := 7, inf := false, nan := some 0x7F, maxC := 0x7E }
/-- FP8 E5M2. -/
def e5m2 : Fmt := { bits := 8, eb := 5, mb := 2, bias := 15, inf := true, nan := some 0x7E, maxC := 0x7B }
/-- MXFP6 E3M2 element. -/
def e3m2 : Fmt := { bits := 6, eb := 3, mb := 2, bias := 3, inf := false, nan := none, maxC := 0x1F }
/-- MXFP6 E2M3 element. -/
def e2m3 : Fmt := { bits := 6, eb := 2, mb := 3, bias := 1, inf := false, nan := none, maxC := 0x1F }
/-- MXFP4 element, E2M1. -/
def e2m1 : Fmt := { bits := 4, eb := 2, mb := 1, bias := 1, inf := false, nan := none, maxC := 0x7 }

/-- The value of a pattern of a format. -/
def Fmt.dec (f : Fmt) (x : Nat) : FVal :=
  let neg := x.testBit (f.bits - 1)
  let c := x % 2 ^ (f.bits - 1)
  let ex := c / 2 ^ f.mb
  let m := c % 2 ^ f.mb
  if f.inf && decide (ex = 2 ^ f.eb - 1) then (if m = 0 then .inf neg else .nan)
  else if f.nan.isSome && !f.inf && decide (c = f.maxC + 1) then .nan
  else if ex = 0 then .fin neg m (1 - (f.bias : Int) - f.mb)
  else .fin neg (2 ^ f.mb + m) ((ex : Int) - f.bias - f.mb)

/-- The largest finite value of a sign. -/
def Fmt.top (f : Fmt) (neg : Bool) : Nat := f.maxC + b2n neg * 2 ^ (f.bits - 1)

/-- Infinity of a sign, NaN where the format has none. -/
def Fmt.over (f : Fmt) (neg : Bool) : Nat :=
  if f.inf then f.maxC + 1 + b2n neg * 2 ^ (f.bits - 1) else f.nan.getD (f.top neg)

/-- m × 2^k rounded to an integer: to nearest, ties to even, or toward zero (R135). -/
def roundInt (rtz : Bool) (m : Nat) (k : Int) : Nat :=
  if 0 ≤ k then m * 2 ^ k.toNat
  else
    let sh := (-k).toNat
    let n := m / 2 ^ sh
    let r := m % 2 ^ sh
    if rtz then n
    else if 2 ^ sh < 2 * r ∨ (2 * r = 2 ^ sh ∧ n % 2 = 1) then n + 1 else n

/-- Rounding controls that round toward zero. -/
def rcZero (rc : Nat) : Bool := decide (rc % 2 = 1)
/-- Rounding controls that saturate. -/
def rcSat (rc : Nat) : Bool := decide (2 ≤ rc)

/-- The magnitude pattern of m × 2^e (m > 0) after rounding, before the range test. -/
def Fmt.code (f : Fmt) (rtz : Bool) (m : Nat) (e : Int) : Nat :=
  let emin : Int := 1 - (f.bias : Int)
  let q : Int := max ((m.log2 : Int) + e) emin - f.mb
  ((q + f.mb + f.bias) * 2 ^ f.mb + roundInt rtz m (e - q) - 2 ^ f.mb).toNat

/-- Conversion to a format under a rounding control (R135, R136). `mx` marks the MX element types,
which always saturate; a NaN goes to the format's NaN output, 0 where it has none. A finite value that
overflows to NaN sets OF (R136) and IV (R131). DEDUCED (log 108): OF goes with the overflow of the rounded
value, so a value beyond the largest finite one that rounds back to it sets none. -/
def Fmt.round (f : Fmt) (mx : Bool) (rc : Nat) (v : FVal) : Res Nat :=
  match v with
  | .nan => ⟨f.nan.getD 0, 0⟩
  | .inf neg => if f.inf && !mx && !rcSat rc then ⟨f.over neg, 0⟩ else ⟨f.top neg, fOF⟩
  | .fin neg m e =>
    let sg := b2n neg * 2 ^ (f.bits - 1)
    if m = 0 then ⟨sg, 0⟩
    else
      let c := f.code (rcZero rc) m e
      if f.maxC < c then (if mx || rcZero rc || rcSat rc then ⟨f.top neg, fOF⟩ else ⟨f.over neg, if f.inf then fOF else fOF ||| fIV⟩)
      else ⟨c + sg, if c < 2 ^ f.mb then fUF else 0⟩

/-- Conversion to a two's complement integer of `len` bits with `fr` fraction bits (R136). -/
def roundFix (len fr : Nat) (rc : Nat) (v : FVal) : Res Nat :=
  let top := 2 ^ (len - 1) - 1
  let bot := 2 ^ (len - 1)
  match v with
  | .nan => ⟨0, fIV⟩
  | .inf neg => ⟨if neg then bot else top, fOF⟩
  | .fin neg m e =>
    let n := roundInt (rcZero rc) m (e + fr)
    if neg then (if bot < n then ⟨bot, fOF⟩ else ⟨(2 ^ len - n) % 2 ^ len, 0⟩)
    else if top < n then ⟨top, fOF⟩ else ⟨n, 0⟩

/-- The floating-point format of an element type, if it is one. -/
def fmtOf (ty : Nat) : Option Fmt :=
  match ty with
  | 0 => some fp32
  | 1 => some bf16
  | 2 => some fp16
  | 3 => some e4m3
  | 4 => some e5m2
  | 5 => some e4m3
  | 6 => some e5m2
  | 7 => some e3m2
  | 8 => some e2m3
  | 9 => some e2m1
  | _ => none

/-- Bits of an element as a tile holds it: MXFP6 in 8 bits (R115). -/
def tileBits (ty : Nat) : Nat :=
  if ty = 0 ∨ ty = 0xD then 32 else if ty = 1 ∨ ty = 2 then 16 else if ty = 9 ∨ ty = 0xC then 4 else 8

/-- The value of an element of a type, without its block's scale. -/
def elemVal (ty x : Nat) : FVal :=
  match fmtOf ty with
  | some f => f.dec (x % 2 ^ f.bits)
  | none =>
    if ty = 0xA then (match FVal.ofInt (signed 8 x) with | .fin n m e => .fin n m (e - 6) | v => v)
    else if ty = 0xB then .ofInt (signed 8 x)
    else if ty = 0xC then .ofInt (signed 4 x)
    else .ofInt (signed 32 x)

/-- A value converted to an element of a type under a rounding control. -/
def elemRound (ty rc : Nat) (v : FVal) : Res Nat :=
  match fmtOf ty with
  | some f => f.round (isMxTy ty) rc v
  | none =>
    if ty = 0xA then (match v with | .nan => ⟨0, 0⟩ | _ => roundFix 8 6 rc v)
    else if ty = 0xB then roundFix 8 0 rc v
    else if ty = 0xC then roundFix 4 0 rc v
    else roundFix 32 0 rc v
where
  /-- MX element types. -/
  isMxTy (ty : Nat) : Bool := decide (5 ≤ ty ∧ ty ≤ 0xA)

/-! ### Exact operations -/

/-- Negation. -/
def FVal.neg : FVal → FVal
  | .nan => .nan
  | .inf n => .inf !n
  | .fin n m e => .fin (!n) m e

/-- Exact product. -/
def FVal.mul : FVal → FVal → FVal
  | .nan, _ => .nan
  | _, .nan => .nan
  | .inf a, .inf b => .inf (a != b)
  | .inf a, .fin b m _ => if m = 0 then .nan else .inf (a != b)
  | .fin a m _, .inf b => if m = 0 then .nan else .inf (a != b)
  | .fin a m e, .fin b n f => .fin (a != b) (m * n) (e + f)

/-- A finite value as an integer multiple of 2^k, for k at or below its exponent. -/
def scaledInt (neg : Bool) (m : Nat) (e k : Int) : Int :=
  let v : Int := (m * 2 ^ (e - k).toNat : Nat)
  if neg then -v else v

/-- Exact sum; an exact zero is +0 unless both terms are negative. -/
def FVal.add : FVal → FVal → FVal
  | .nan, _ => .nan
  | _, .nan => .nan
  | .inf a, .inf b => if a = b then .inf a else .nan
  | .inf a, .fin _ _ _ => .inf a
  | .fin _ _ _, .inf b => .inf b
  | .fin a m e, .fin b n f =>
    let k := min e f
    let s := scaledInt a m e k + scaledInt b n f k
    if s = 0 then .fin (a && b) 0 0 else .fin (decide (s < 0)) s.natAbs k

/-- Exact sum of a list, from +0 (a single −0 gives +0). -/
def FVal.sum (l : List FVal) : FVal := l.foldl FVal.add .zero

/-- Quotient to 96 significant bits and a sticky bit, enough for one rounding to any format. -/
def FVal.div : FVal → FVal → FVal
  | .nan, _ => .nan
  | _, .nan => .nan
  | .inf _, .inf _ => .nan
  | .inf a, .fin b _ _ => .inf (a != b)
  | .fin a _ _, .inf b => .fin (a != b) 0 0
  | .fin a m e, .fin b n f =>
    if n = 0 then (if m = 0 then .nan else .inf (a != b))
    else
      let k := 96 + n.log2 - m.log2
      let num := m * 2 ^ k
      .fin (a != b) (2 * (num / n) + b2n (decide (num % n ≠ 0))) (e - f - k - 1)

/-- Comparison of numbers: −1, 0 or 1; `none` when either is NaN. -/
def FVal.cmp : FVal → FVal → Option Int
  | .nan, _ => none
  | _, .nan => none
  | .inf a, .inf b => some (if a = b then 0 else if a then -1 else 1)
  | .inf a, .fin _ _ _ => some (if a then -1 else 1)
  | .fin _ _ _, .inf b => some (if b then 1 else -1)
  | .fin a m e, .fin b n f =>
    let k := min e f
    let s := scaledInt a m e k - scaledInt b n f k
    some (if s < 0 then -1 else if s = 0 then 0 else 1)

/-- NaN. -/
def FVal.isNan : FVal → Bool
  | .nan => true
  | _ => false

/-! ### FP32 operations, each rounded once under RNE -/

/-- An FP32 pattern as a value. -/
def f32 (x : Nat) : FVal := fp32.dec (x % 2 ^ 32)

/-- A value rounded to FP32 under RNE. -/
def toF32 (v : FVal) : Res Nat := fp32.round false 0 v

/-- One FP32 operation; IV is set when a NaN comes from inputs that are none. -/
def fop (g : FVal → FVal → FVal) (x y : Nat) : Res Nat :=
  let a := f32 x
  let b := f32 y
  let v := g a b
  let r := toF32 v
  ⟨r.v, r.f ||| (if v.isNan && !a.isNan && !b.isNan then fIV else 0)⟩

/-- Two results joined: `g` on the values, the flags united. -/
def Res.bind {α β : Type} (x : Res α) (g : α → Res β) : Res β :=
  let y := g x.v
  ⟨y.v, x.f ||| y.f⟩

/-- A function mapped over a list, the flags united. -/
def resMap {α β : Type} (g : α → Res β) (l : List α) : Res (List β) :=
  let rs := l.map g
  ⟨rs.map (·.v), rs.foldl (fun f r => f ||| r.f) 0⟩

/-- FP32 sum. -/
def fadd (x y : Nat) : Res Nat := fop FVal.add x y
/-- FP32 difference. -/
def fsub (x y : Nat) : Res Nat := fop (fun a b => a.add b.neg) x y
/-- FP32 product. -/
def fmul (x y : Nat) : Res Nat := fop FVal.mul x y
/-- FP32 quotient. -/
def fdiv (x y : Nat) : Res Nat := fop FVal.div x y

/-- INT32 sum with saturation (R136). -/
def iadd (x y : Nat) : Res Nat := roundFix 32 0 0 (.ofInt (signed 32 x + signed 32 y))

/-- Larger of two FP32 patterns; NaN when either is NaN (canonical, R155). -/
def fmax (x y : Nat) : Nat :=
  match (f32 x).cmp (f32 y) with
  | none => 0x7FC00000
  | some c => if c < 0 then y else x

/-- Smaller of two FP32 patterns. -/
def fmin (x y : Nat) : Nat :=
  match (f32 x).cmp (f32 y) with
  | none => 0x7FC00000
  | some c => if c > 0 then y else x

/-- Larger of two INT32 patterns. -/
def imax (x y : Nat) : Nat := if signed 32 x < signed 32 y then y else x
/-- Smaller of two INT32 patterns. -/
def imin (x y : Nat) : Nat := if signed 32 x < signed 32 y then x else y

/-! ### Paired sums (R141) -/

/-- `two_sum`. -/
def twoSum (a b : Nat) : Res (Nat × Nat) :=
  (fadd a b).bind fun s => (fsub s a).bind fun bp => (fsub s bp).bind fun d =>
    (fsub a d).bind fun x => (fsub b bp).bind fun y => (fadd x y).bind fun e => ⟨(s, e), 0⟩

/-- `add_pair`. -/
def addPair (x y : Nat × Nat) : Res (Nat × Nat) :=
  (twoSum x.1 y.1).bind fun se => (fadd x.2 y.2).bind fun r0 => (fadd r0 se.2).bind fun r => twoSum se.1 r

/-- `finish`: the FP32 sum, then the element type under a rounding control. -/
def finishPair (x : Nat × Nat) (ty rc : Nat) : Res Nat := (fadd x.1 x.2).bind fun v => elemRound ty rc (f32 v)

/-! ### Exponentials (R143) -/

/-- log2 e in units of 2^−160. -/
def log2e : Nat := 2108501164428393954197770173035669514763056903505

/-- ln 2 in units of 2^−128. -/
def ln2 : Nat := 235865763225513294137944142764154484399

/-- 2^f for f in units of 2^−128 below 1, in units of 2^−96, by its series in f × ln 2. -/
def exp2Series : Nat → Nat → Nat → Nat → Nat → Nat
  | 0, _, _, _, acc => acc
  | n + 1, i, x, t, acc =>
    let t' := t * x / 2 ^ 128 / i
    exp2Series n (i + 1) x t' (acc + t')

/-- 2^f, 2^96 standing for 1. -/
def exp2Frac (f : Nat) : Nat := exp2Series 40 1 (f * ln2 / 2 ^ 128) (2 ^ 96) (2 ^ 96)

/-- e^x for finite x as mantissa × 2^exponent, with relative error below 2^−60. -/
def expApprox (neg : Bool) (m : Nat) (e : Int) : Nat × Int :=
  let y : Int := (if neg then -1 else 1) * ((roundInt true (m * log2e) (e - 32) : Nat) : Int)
  let n := y / (2 ^ 128 : Nat)
  (exp2Frac (y % (2 ^ 128 : Nat)).toNat, n - 96)

/-- e^x of an FP32 pattern on a unit type: the unit's own result, held to a relative error of 2^−22
(R143). A result below 2^−126 is flushed to +0 by an S unit, 3 (R137); another unit gives a subnormal, to which
the spec sets no accuracy: a free one (DESIGN CHOICE, log 109), or +0 when e^x lies below 2^−150. -/
def fexp (ty x : Nat) : Res Nat :=
  match f32 x with
  | .nan => ⟨0x7FC00000, 0⟩
  | .inf neg => ⟨if neg then 0 else 0x7F800000, 0⟩
  | .fin neg m e =>
    if (decide (0 ≤ (m.log2 : Int) + e - 8) && decide (m ≠ 0)) then (if neg then ⟨0, fUF⟩ else ⟨0x7F800000, fOF⟩)
    else
      let (c, k) := expApprox neg m e
      if (c.log2 : Int) + k < -126 then
        ⟨if ty = 3 ∨ (c.log2 : Int) + k < -150 then 0 else (Config.expFree ty (BitVec.ofNat 32 x)).toNat % 2 ^ 23, fUF⟩
      else
        let lo := fp32.code true (c * (2 ^ 22 - 1) - 1) (k - 22) + 1
        let hi := fp32.code true (c * (2 ^ 22 + 1)) (k - 22)
        if 0x7F7FFFFF < hi then ⟨0x7F800000, fOF⟩
        else
          let v := (Config.expFree ty (BitVec.ofNat 32 x)).toNat
          ⟨if lo ≤ v ∧ v ≤ hi then v else lo, 0⟩

/-! ### LSE merge (R144) -/

/-- A log-sum-exp triple: m, l and o as FP32 patterns. -/
structure Lse where
  m : Nat := 0xFF800000
  l : Nat := 0
  o : List Nat := []
deriving DecidableEq, Repr

/-- The empty triple test. -/
def Lse.empty (t : Lse) : Bool := decide (t.m % 2 ^ 32 = 0xFF800000) || decide (t.l % 2 ^ 31 = 0)

/-- LSEMERGE of a state with a triple on a unit type. -/
def lseMerge (ty : Nat) (s t : Lse) : Res Lse :=
  if t.empty then ⟨if s.empty then { m := 0xFF800000, l := 0, o := s.o.map fun _ => 0 } else s, 0⟩
  else if s.empty then ⟨t, 0⟩
  else
    let m := fmax s.m t.m
    (fsub s.m m).bind fun d1 => (fsub t.m m).bind fun d2 =>
    (fexp ty d1).bind fun e1 => (fexp ty d2).bind fun e2 =>
    (fmul s.l e1).bind fun w1 => (fmul t.l e2).bind fun w2 => (fadd w1 w2).bind fun l =>
      let os := List.zip s.o t.o
      (resMap (fun ab => (fmul w1 ab.1).bind fun x => (fmul w2 ab.2).bind fun y =>
        (fadd x y).bind fun z => fdiv z l) os).bind fun o => ⟨{ m := m, l := l, o := o }, 0⟩

/-! ### Elements in byte strings -/

/-- Bytes of one element of a type in memory, for types of whole bytes. -/
def elemBytes (ty : Nat) : Nat := if ty = 0 ∨ ty = 0xD then 4 else if ty = 1 ∨ ty = 2 then 2 else 1

/-- The `n` little-endian elements of `k` bytes in a byte string. -/
def elemsLE (k : Nat) : Nat → Bytes → List Nat
  | 0, _ => []
  | n + 1, bs => leAt bs 0 k :: elemsLE k n (bs.drop k)

/-- Elements as bytes. -/
def bytesElems (k : Nat) (l : List Nat) : Bytes := l.flatMap fun v => bytesLE k v

/-- An element converted to FP32, as a paired sum takes it. -/
def pairIn (ty x : Nat) : Nat := (toF32 (elemVal ty x)).v

/-- An element of a floating type or INT32 converted to FP32, as a reduction takes it; INT32 stays. -/
def redIn (ty x : Nat) : Nat := if ty = 0xD then x else (toF32 (elemVal ty x)).v

/-! ### Fields of wide bit vectors -/

/-- `n` bits of a tile's data from bit `lo`. -/
def tileFld (t : Tile) (lo n : Nat) : Nat := (t.data >>> lo).toNat % 2 ^ n

/-- The elements of a tile, row-major, each of `k` bits. -/
def tileElems (t : Tile) (k : Nat) : List Nat := (List.range (8192 / k)).map fun i => tileFld t (i * k) k

/-- Numbers of `k` bits packed from bit 0 up. -/
def packBits (k : Nat) : List Nat → Nat
  | [] => 0
  | x :: t => x % 2 ^ k + 2 ^ k * packBits k t

/-- A tile of elements of `k` bits. -/
def tileOf (k : Nat) (l : List Nat) : Tile := { data := BitVec.ofNat 8192 (packBits k l) }

/-- A tile's 1,024 data bytes. -/
def tileBytes (t : Tile) : Bytes := bytesLE 1024 t.data.toNat

/-- A tile of data bytes. -/
def tileOfBytes (bs : Bytes) : Tile := { data := BitVec.ofNat 8192 (ofLE (bs.take 1024)) }

end Sys2Proof.Machine
end

