-- ==== Sys2Proof/Machine/State.lean ====
section
/-! DEFINITION. The state of the LF7, the ways a step can stop, and the state after reset. -/

namespace Sys2Proof.Machine

/-- Why the machine stops with a fault. The spec gives every command an effect on the module's
state, so no step raises it; it stands for an access to memory the spec says does not exist, and
stopping there is safe. -/
inductive Fault where
  /-- An access outside every address space of the spec. Raised by no meaning. Safe. -/
  | noSuchAddress
deriving DecidableEq, Repr

/-- Why a step is refused. -/
inductive Refusal where
  /-- Raised by an arm of `exec` whose command has no meaning yet, with the mnemonic. Safe. -/
  | notModelled (mnemonic : String)
deriving DecidableEq, Repr

/-- Everything the spec gives the LF7, and the queue of commands waiting, first in first out. -/
structure State where
  variant : Variant := .a1
  /-- The switch number the fabric manager's map gives this module (FA[59:48], R257). -/
  swNum   : Nat := 0
  /-- Device time in ns (R351). -/
  now     : Nat := 0
  cc      : CcState := {}
  lv      : LvState := {}
  sa      : SaState := {}
  gv      : GvState := {}
  te      : TeState := {}
  sw      : SwState := {}
  pc      : PcState := {}
  tu      : TuState := {}
  tr      : TrState := {}
  ie      : IeState := {}
  ta      : TaState := {}
  ph      : PhState := {}
  hw      : HwState := {}
  vimg    : Images := {}
  /-- Change stamps by object kind and number (R96). -/
  stamps  : Tab Stamp := []
  /-- Outcome of the last host access or message of the root of trust. -/
  resp    : Resp := .none
  /-- Vectors signalled on the management port, oldest first (R42). -/
  msix    : List Nat := []
  /-- The model's own counter of free values drawn; no statement rests on its value. -/
  freeCtr : Nat := 0
  pending : List Instr := []
deriving DecidableEq, Repr

/-- Active counts of `CC_CAP_UNITS` at reset, in the order M V S F G D E SEQ (R41). -/
def Variant.caps : Variant → List Nat
  | .a1 => [0x70, 0x40, 0x20, 0x20, 0x40, 0x30, 0x10, 0x40]
  | .g1 => [0, 0x40, 0, 0x20, 0x40, 0x30, 0x10, 0x40]
  | .t1 => [0, 0x40, 0, 0, 0x40, 0x30, 0x10, 0x40]

/-- The 19 rings at reset (R44). -/
def resetRings : Tab Ring :=
  (List.range 16).map (fun n => (n, { base := 0x400000 + n * 0x40000, size := 12 })) ++
  [(16, { base := 0x800000 }), (17, { base := 0x1800000 }), (18, { base := 0x1C00000 })]

/-- The pseudo-channels at reset: 0–13 DEVICE, the others UNASSIGNED, 64–127 absent on LF7-G1. -/
def resetPch (v : Variant) : Tab Pch :=
  (List.range 14).map (fun n => (n, { state := 0 })) ++
  (if v = .g1 then (List.range 64).map (fun n => (64 + n, { state := 5 })) else [])

/-- The firmware a module leaves manufacture with: a valid image A of each of layers 1–4 (R454). -/
def factoryImages : Tab FwSlot := [(2, { valid := true }), (4, { valid := true }), (6, { valid := true }), (8, { valid := true })]

/-- The machine of a variant right after a power-on reset: stage RESET, the main domain unavailable. -/
def State.resetOf (v : Variant) : State :=
  { variant := v
    cc := { rings := resetRings, caps := v.caps }
    lv := { fw := factoryImages }
    ie := { pch := resetPch v } }

/-- The machine right after reset: an LF7-A1. -/
def State.reset : State := State.resetOf .a1

end Sys2Proof.Machine
end

