-- ==== Sys2Proof/Machine/Ops.lean ====
section
/-! DEFINITION. Operations shared by the commands: interrupts (R42), mailbox replies (R48), rings and
fault records (R66–R69), staging in the journal and the state log (R476–R482), object status words
(R76), change stamps (R96), and the domains of R5 and R572. -/

namespace Sys2Proof.Machine

/-! ### Domains and time -/

/-- Whether a BAR0 offset lies in the always-on domain (R5). -/
def inAon (off : Nat) : Bool :=
  decide (off < 0x100000) || (decide (0x400000 ≤ off) && decide (off < 0x440000))

/-- A flush that powers the module down has passed its step 3 (R484, R572): every cause but
JOURNAL_FLUSH and the planned removal, unless a reset or a power-off follows them. -/
def flushDown (s : State) : Bool :=
  decide (s.lv.flushCause ≠ 0) && (decide (s.lv.flushCause ≠ 4 ∧ s.lv.flushCause ≠ 6) || decide (s.lv.flushThen ≠ 0 ∧ s.lv.flushThen ≠ 4))

/-- No input power reaches the module, and no flush runs from the hold-up bank (R558). -/
def unpowered (s : State) : Bool := (!s.hw.inputOn || s.hw.inputLost) && decide (s.lv.flushCause = 0)

/-- Module HBM is off, so the bulk window is not served: after step 4 of a flush that powers it off, or with the main
converters off (R484, R541). -/
def windowOff (s : State) : Bool := unpowered s || !s.hw.mainOn || flushDown s

/-- The main domain is available (R572). -/
def mainUp (s : State) : Bool :=
  decide (s.cc.stage = 6) && s.hw.mainOn && !flushDown s

/-- Work runs: the main domain is available, no flush of any kind is under way (R484 step 2), and the LF7 is not in
recovery mode (R543). -/
def working (s : State) : Bool := mainUp s && decide (s.lv.flushCause = 0) && !s.cc.recovery

/-- No job or program starts while a planned removal runs, nor after it (R498). -/
def startsBarred (s : State) : Bool := decide (5 ≤ s.lv.state)

/-- A 64-bit free value for each value drawn so far, and the state with the draw counted. -/
def draw (s : State) : State := { s with freeCtr := s.freeCtr + 1 }

/-- The limited-change record in force: the valid copy with the higher sequence number (R460). -/
def lcNow (s : State) : LcRec :=
  if s.ta.lcB.valid && (!s.ta.lcA.valid || decide (s.ta.lcA.seq < s.ta.lcB.seq)) then s.ta.lcB.val else s.ta.lcA.val

/-! ### Interrupts -/

/-- Mask bit of an event bit of `CC_INT_STATUS`, and the event's vector: bit n < 23 is vector n, bit
23 (BULK_UE) is vector 0, bits 32–47 (FQ_FULL) are vectors 1–16 (R42). -/
def eventVector (b : Nat) : Nat := if b < 23 then b else if b = 23 then 0 else b - 31

/-- A message for a vector, unless one has been sent since its pending bit was last cleared (R42). -/
def sendVector (s : State) (v : Nat) : State :=
  if bit s.cc.sent v then s
  else { s with cc := { s.cc with sent := s.cc.sent ||| w64 (2 ^ v) }, msix := s.msix ++ [v] }

/-- An event is masked by its own mask bit, and by that of its vector (R42). -/
def eventMasked (mask : W64) (b : Nat) : Bool := bit mask b || bit mask (eventVector b)

/-- An event bit of `CC_INT_STATUS` becomes pending (R42). -/
def raiseEvent (s : State) (b : Nat) : State :=
  if bit s.cc.intStatus b then s
  else
    let s := { s with cc := { s.cc with intStatus := s.cc.intStatus ||| w64 (2 ^ b) } }
    if eventMasked s.cc.intMask b then s else sendVector s (eventVector b)

/-- A mailbox event becomes pending on vector 32 + ⌊m / 2⌋ (R42). -/
def raiseMbx (s : State) (m : Nat) : State :=
  let k := m / 2
  if bit s.cc.mbxPend k then s
  else
    let s := { s with cc := { s.cc with mbxPend := s.cc.mbxPend ||| w32 (2 ^ k) } }
    if bit s.cc.mbxMask k then s else sendVector s (32 + k)

/-! ### Mailboxes -/

/-- The mailbox numbered `m`. -/
def mbx (s : State) (m : Nat) : Mailbox := tget {} s.cc.mbx m

/-- A mailbox replaced. -/
def setMbx (s : State) (m : Nat) (x : Mailbox) : State :=
  { s with cc := { s.cc with mbx := tput {} s.cc.mbx m x } }

/-- A message written into an empty outbound half: FULL sets, and IE_OUT raises the event. -/
def putOut (s : State) (m : Nat) (ws : List W64) : State :=
  let x := mbx s m
  let s := setMbx s m { x with outQ := ws, outLen := ws.length, outFull := true }
  if m < 64 ∧ x.ctl % 2 = 1 then raiseMbx s m else s

/-- A message sent in the outbound half; while FULL is set it waits (R49 gives the LF7 no other way). -/
def postOut (s : State) (m : Nat) (ws : List W64) : State :=
  let x := mbx s m
  if x.outFull then setMbx s m { x with outWait := x.outWait ++ [ws] } else putOut s m ws

/-- Word 0 of a reply: KIND in [7:0] and the sender tag in [31:16] (R54). -/
def replyHead (kind tag : Nat) : W64 := w64 (kind + place 16 16 tag)

/-- Word 2 of CP_DONE and CP_REFUSED: status in [7:0], reason in [31:16]. -/
def statusReason (status reason : Nat) : W64 := w64 (status % 256 + place 16 16 reason)

/-- CP_REFUSED (R54, R575). -/
def cpRefused (s : State) (m tag status reason : Nat) : State :=
  postOut s m [replyHead 0x83 tag, 0, statusReason status reason]

/-- CP_DONE (R54): sequence number, status and reason, device time of completion. -/
def cpDone (s : State) (m tag seq status reason : Nat) : State :=
  postOut s m [replyHead 0x82 tag, w64 seq, statusReason status reason, w64 s.now]

/-- QUERY_REPLY (R54). -/
def queryReply (s : State) (m tag : Nat) (v : W64) : State :=
  postOut s m [replyHead 0x84 tag, v, w64 s.now]

/-! ### Object status words and stamps -/

/-- An object status word (R76), the owner-defined bits ORed in. -/
def statusWord (o : ObjStatus) : W64 :=
  w64 (b2n o.enabled + 2 * b2n o.checking + 4 * b2n o.draining + place 32 16 o.reason) ||| o.owner

/-- Kinds of object, for change stamps. -/
def okPattern : Nat := 1
def okSlice : Nat := 2
def okUnitMap : Nat := 3
def okPartCfg : Nat := 4
def okJobq : Nat := 5
def okMbxBind : Nat := 6
def okSync : Nat := 7
def okCopyEng : Nat := 8
def okMcGroup : Nat := 9
def okMeter : Nat := 10
def okSched : Nat := 11
def okGate : Nat := 12
def okMirror : Nat := 13
def okPort : Nat := 14
def okWindow : Nat := 15
def okAsid : Nat := 16
def okRegion : Nat := 17
def okPlacement : Nat := 18
def okFdTag : Nat := 19
def okPartition : Nat := 20
def okTenant : Nat := 21
def okPhPolicy : Nat := 22
def okLvPolicy : Nat := 23
def okRoute : Nat := 24
def okComp : Nat := 25
def okExtent : Nat := 26
def okSlot : Nat := 27
def okCtx : Nat := 28
def okFence : Nat := 29
def okHandoff : Nat := 30
def okLease : Nat := 31
def okWset : Nat := 32
def okTable : Nat := 33
def okMap : Nat := 34
def okPower : Nat := 35
def okSwap : Nat := 36
def okMeterRec : Nat := 37

/-- Key of an object's change stamp. -/
def stampKey (kind n : Nat) : Nat := kind * 2 ^ 40 + n

/-! ### Rings -/

/-- Bytes of a record of ring `n` (R66). -/
def ringRec (n : Nat) : Nat := if n < 16 then 64 else if n = 17 then 64 else 256

/-- Records in a ring: PROD − CONS (R66). -/
def ringCount (r : Ring) : Nat := (r.prod - r.cons).toNat

/-- The ring is full (R66). -/
def ringFull (r : Ring) : Bool := decide (2 ^ r.size ≤ ringCount r)

/-- Ring `n`. -/
def ring (s : State) (n : Nat) : Ring := tget {} s.cc.rings n

/-- A ring replaced. -/
def setRing (s : State) (n : Nat) (r : Ring) : State :=
  { s with cc := { s.cc with rings := tput {} s.cc.rings n r } }

/-- The vector of a ring: 1 + n for fault ring n, 17 mirror, 18 telemetry, 19 meter. -/
def ringVector (n : Nat) : Nat := n + 1

/-- One record written at PROD, PROD advanced after it (R47), the copy kept for fault and meter
records (R67, R68), the vector signalled, and FQ_FULL set by the record that fills a fault ring. -/
def ringPut (s : State) (n : Nat) (ws : List W64) : State :=
  let r := ring s n
  let a := r.base + r.prod.toNat % 2 ^ r.size * ringRec n
  let r' := { r with prod := r.prod + 1, copies := if n < 16 ∨ n = 18 then r.copies ++ [ws] else r.copies }
  let s := { s with cc := { s.cc with bulk := memWrite s.cc.bulk a (fitTo (ringRec n) (wordsBytes ws)) } }
  let s := raiseEvent (setRing s n r') (ringVector n)
  if n < 16 ∧ ringFull r' = true then raiseEvent s (32 + n) else s

/-- Source of a held fault record: the block its word 0 names (R69; DESIGN CHOICE: log entry 105). -/
def heldSrc (ws : List W64) : Nat := fld (wd ws 0) 16 16

/-- The source that a round-robin arbiter grants of those waiting (R56): the next above the one granted last, else the lowest. -/
def nextTurn (last : Nat) (l : List Nat) : Nat :=
  let up := l.filter fun k => decide (last < k)
  (if up.isEmpty then l else up).foldl min (2 ^ 16)

/-- The held record whose turn it is: of a fault ring the oldest of the next source in round-robin order (R56, R67), of the
meter ring the oldest (R68). -/
def nextHeld (n : Nat) (r : Ring) : Option (List W64) :=
  if n < 16 then
    let k := nextTurn r.turn (r.held.map heldSrc)
    r.held.find? fun ws => decide (heldSrc ws = k)
  else r.held.head?

/-- A ring's next held record is written, if the ring has space and DONE is set (R67, R68). -/
def writeHeld (s : State) (n : Nat) : State :=
  let r := ring s n
  match nextHeld n r with
  | none => s
  | some ws =>
    if s.cc.bootDone && !ringFull r then
      ringPut (setRing s n { r with held := r.held.erase ws, turn := if n < 16 then heldSrc ws else r.turn }) n ws
    else s

/-- Held records take the space a ring has, each in its turn. -/
def writeAllHeld (s : State) (n : Nat) : State := (ring s n).held.foldl (fun s _ => writeHeld s n) s

/-- The meter backlog holds all the records it can: no meter period ends (R496). -/
def backlogFull (s : State) : Bool := decide (16777216 ≤ (ring s 18).held.length)

/-- A record produced for a ring (R67, R68): earlier ones that wait take what space there is; then it is written when DONE
is set and the ring has space; else held for a fault ring (counted and FQ_FULL set once DONE is set), put in the backlog for
the meter ring, or dropped and counted for the mirror and telemetry rings. -/
def ringWrite (s : State) (n : Nat) (ws : List W64) : State :=
  let s := writeAllHeld s n
  let r := ring s n
  if s.cc.bootDone && !ringFull r then ringPut s n ws
  else if n < 16 then
    let r' := { r with held := r.held ++ [ws], lost := if s.cc.bootDone then satInc r.lost 1 else r.lost }
    let s' := setRing s n r'
    if s.cc.bootDone then raiseEvent s' (32 + n) else s'
  else if n = 18 then setRing s n { r with held := r.held ++ [ws] }
  else setRing s n { r with lost := satInc r.lost 1 }

/-- Block code of a fault-record kind (*Fault record kinds*). -/
def faultBlock (kind : Nat) : Nat :=
  match kind with
  | 1 => 0x08
  | 2 => 0x01
  | 3 => 0x05
  | 4 => 0x09
  | 5 => 0x0D
  | 6 => 0x09
  | _ => 0x0A

/-- A 64-byte fault record for a partition's ring (R69), with its words 2–7. -/
def faultRecord (s : State) (part kind : Nat) (ws : List W64) : State :=
  let w0 := w64 (kind % 256 + place 8 4 part + place 16 16 (faultBlock kind))
  ringWrite s (part % 16) ([w0, w64 s.now] ++ ws ++ List.replicate (6 - ws.length) 0)

/-! ### Journal and state log -/

/-- Live entries, reservations included (R25, R478). -/
def liveEntries (s : State) : Nat :=
  (s.lv.recs.filter fun r => r.kind ≠ .completion).foldl (fun n r => n + r.entries + 1) 0

/-- The journal can take a record of `n` entries and its reserved entry (R25). -/
def journalRoom (s : State) (n : Nat) : Bool := decide (liveEntries s + n + 1 ≤ 67108864)

/-- DIRTY_MAX in force, in bytes (R486). -/
def dirtyMaxB (s : State) : Nat := s.lv.dirtyEff * 2 ^ 20

/-- DIRTY_HIGH in force, in bytes (R486). -/
def dirtyHighB (s : State) : Nat := min s.lv.dirtyHigh s.lv.dirtyEff * 2 ^ 20

/-- Acceptance is stopped by dirty staging, by the hold-up bank, or by a flush, restore or removal
(R482, R486, R498). -/
def acceptStopped (s : State) : Bool :=
  s.lv.holdupLow || s.lv.charging || decide (dirtyHighB s ≤ s.lv.dirty) || decide (2 ≤ s.lv.state)
    || decide (s.lv.flushCause ≠ 0)

/-- State records, completions and FIRST_RUN writes wait (R482). -/
def stagingWaits (s : State) : Bool := decide (dirtyMaxB s ≤ s.lv.dirty)

/-- `n` bytes of staging become dirty. -/
def addDirty (s : State) (n : Nat) : State := { s with lv := { s.lv with dirty := s.lv.dirty + n } }

/-- The state record of an object of `n` bytes (R481). -/
def stateRecord (s : State) (n : Nat) : State := addDirty s (64 + 64 * ceilDiv n 64)

/-- An LV counter (R501) raised. -/
def lvCount (s : State) (i n : Nat) : State :=
  { s with lv := { s.lv with ctr := tmod 0 s.lv.ctr i fun c => satInc c n } }

/-- The next segment after one that is not among the full ones (R479, R480). -/
def segAfter (full : List Nat) : Nat → Nat → Nat
  | 0, k => (k + 1) % 98304
  | n + 1, k => if full.contains ((k + 1) % 98304) then segAfter full n ((k + 1) % 98304) else (k + 1) % 98304

/-- `n` entries staged together, in the open segment or, since no record crosses a segment, in the next (R480). -/
def placeEntries (s : State) (n : Nat) : State :=
  if s.lv.openUsed + n ≤ 1024 ∨ s.lv.openUsed = 0 then { s with lv := { s.lv with openUsed := s.lv.openUsed + n } }
  else
    let full := s.lv.fullSegs ++ [s.lv.openSeg]
    { s with lv := { s.lv with fullSegs := full, openSeg := segAfter full full.length s.lv.openSeg, openUsed := n } }

/-- Full segments whose records have all retired are freed, once NAND holds those retirements (R480). -/
def freeSegs (s : State) : State :=
  if s.lv.dirty = 0 then { s with lv := { s.lv with fullSegs := s.lv.fullSegs.filter fun k => s.lv.recs.any fun r => decide (r.seg = k) } } else s

/-- A record staged and accepted (R22, R476–R478): it takes the next sequence number. -/
def stageRecord (s : State) (r : JRec) : State :=
  let s := placeEntries s (r.entries + 1)
  let r := { r with seq := s.lv.nextSeq, accepted := s.now, seg := s.lv.openSeg }
  let s := lvCount (addDirty s (64 * r.entries)) 0 1
  { s with lv := { s.lv with recs := s.lv.recs ++ [r], nextSeq := s.lv.nextSeq + 1, everStaged := true, lastSeq := r.seq } }

/-- The record with a sequence number. -/
def findRec (s : State) (seq : Nat) : Option JRec :=
  s.lv.recs.find? fun r => decide (r.seq = seq) && decide (r.kind ≠ .completion)

/-- The completion record staged for a sequence number. -/
def findCompl (s : State) (seq : Nat) : Option JRec :=
  s.lv.recs.find? fun r => decide (r.ofSeq = seq) && decide (r.kind = .completion)

/-- Records changed by a function. -/
def mapRecs (s : State) (f : JRec → JRec) : State :=
  { s with lv := { s.lv with recs := s.lv.recs.map f } }

/-- FIRST_RUN and STARTED written into a record's header when it first starts (R477). -/
def markStarted (s : State) (seq : Nat) : State :=
  addDirty (mapRecs s fun r =>
    if r.seq = seq ∧ r.kind ≠ .completion ∧ r.started = false
    then { r with started := true, firstRun := s.now } else r) 64

/-- The completion record of a record staged in its reserved entry, WRITTEN clear (R478). It takes
the next sequence number of the series (R477). -/
def stageCompletion (s : State) (r : JRec) (word1 : W64) (userTag : Nat) : State :=
  let c : JRec := { seq := s.lv.nextSeq, seg := r.seg, kind := .completion, entries := 1, part := r.part, comp := r.comp,
                    ofSeq := r.seq, accepted := s.now, word1 := word1, doneAt := s.now, userTag := userTag }
  let s := addDirty s 64
  { s with lv := { s.lv with recs := s.lv.recs ++ [c], nextSeq := s.lv.nextSeq + 1, everStaged := true } }

/-- A record retires (R478): WRITTEN is set, and the record and its completion leave the journal. -/
def retireRec (s : State) (seq : Nat) : State :=
  let s := lvCount (addDirty s 64) 1 1
  { s with lv := { s.lv with recs := s.lv.recs.filter fun r =>
      !((decide (r.seq = seq) && decide (r.kind ≠ .completion)) || (decide (r.ofSeq = seq) && decide (r.kind = .completion))) } }

/-- While a record restored at the last reset has not retired, the device time of the flush before it (R275). -/
def replayFrom (s : State) : Option Nat := match s.te.restored with
  | some (t, h) => if s.lv.recs.any (fun r => decide (r.kind ≠ .completion) && !r.exported && decide (r.seq ≤ h)) then some t else none
  | none => none

/-- An attestation-log record (R495). -/
def attest (s : State) (kind object value : Nat) (digest : Bytes) : State :=
  { s with lv := { s.lv with attLog := s.lv.attLog ++ [{ kind := kind, time := s.now, object := object, value := value, digest := digest }] } }

/-- A digest given to the root of trust or withdrawn (R467, R469): it is counted, and the attestation log records it (R495). The
object is the entry's KIND × 65,536 + its handle or table ID. -/
def digestNote (s : State) (object : Nat) (added : Bool) (digest : Bytes) : State :=
  attest { s with ta := { s.ta with changes := s.ta.changes + 1 } } 3 object (b2n added) digest

/-- A crash record (R495), with its index in `CC_RESET_CAUSE.CRASH`. -/
def crashRecord (s : State) (cause : Nat) : State :=
  { s with lv := { s.lv with crash := s.lv.crash ++ [(s.now, cause)] }
           cc := { s.cc with crashIdx := s.lv.crash.length % 1024 } }

/-! ### Ownership flags and the bulk window -/

/-- The page of a window offset lies in the general area (R45). -/
def pageInGen (s : State) (page : Nat) : Bool :=
  decide (s.cc.genBase ≤ page * 4096) && decide (page * 4096 + 4096 ≤ s.cc.genBase + s.cc.genSize)

/-- The flag byte of a page; pages outside the general area read zero (R45). -/
def flagByte (s : State) (page : Nat) : Byte := if pageInGen s page then memGet s.cc.flags page else 0

/-- A general-area page is device-owned. -/
def devOwned (s : State) (page : Nat) : Bool := bit (flagByte s page) 0

/-- The value that flips a flag: the other owner, and the generation plus 1 modulo 128 (R45). -/
def flipByte (b : Byte) : Byte :=
  BitVec.ofNat 8 ((fld b 1 7 + 1) % 128 * 2 + (1 - fld b 0 1))

/-- One page's flag flipped back to the host if it is device-owned. -/
def flipToHost (s : State) (page : Nat) : State :=
  if devOwned s page then
    { s with cc := { s.cc with flags := memPut s.cc.flags page (flipByte (memGet s.cc.flags page)) } }
  else s

/-- The pages of a byte range flipped back to the host (R55, R497). -/
def flipPages (s : State) (off len : Nat) : State :=
  (List.range (ceilDiv len 4096)).foldl (fun s i => flipToHost s (off / 4096 + i)) s

/-- Every page of a byte range lies in the general area. -/
def pagesInGen (s : State) (off len : Nat) : Bool :=
  (List.range (ceilDiv len 4096)).all fun i => pageInGen s (off / 4096 + i)

/-- Every page of a byte range is device-owned. -/
def pagesOwned (s : State) (off len : Nat) : Bool :=
  (List.range (ceilDiv len 4096)).all fun i => devOwned s (off / 4096 + i)

/-- Bytes of the bulk window: the flag area reads the flags, the rest its data. -/
def bulkByte (s : State) (off : Nat) : Byte :=
  if off < 0x400000 then flagByte s off else memGet s.cc.bulk off

/-- `n` bytes of the bulk window. -/
def bulkRead (s : State) (off n : Nat) : Bytes := (List.range n).map fun i => bulkByte s (off + i)

/-- The pages a range of window offsets touches. -/
def pagesOf (off len : Nat) : List Nat :=
  (List.range ((off + len - 1) / 4096 + 1 - off / 4096)).map fun i => off / 4096 + i

end Sys2Proof.Machine
end

