-- ==== Sys2Proof/Machine/Units.lean ====
section
/-! DEFINITION. Stage units and seam sequencers by physical and logical number (R112, R113), their
spares, and the health summary `PH_HEALTH` (chapter *Power, Clocks, Health and Proof*). -/

namespace Sys2Proof.Machine

/-- Active units of a type on a compute die (*Units per compute die*); type 0 is the seam sequencer. -/
def actOnDie (ty : Nat) : Nat :=
  match ty with
  | 1 => 28
  | 2 => 16
  | 3 => 8
  | 4 => 8
  | 5 => 16
  | 6 => 12
  | 7 => 4
  | _ => 16

/-- Physical units of a type on a compute die. -/
def physOnDie (ty d : Nat) : Nat :=
  match ty with
  | 1 => 30
  | 2 => 17
  | 3 => if d % 2 = 0 then 9 else 8
  | 4 => if d % 2 = 0 then 9 else 8
  | 5 => 17
  | 6 => 13
  | 7 => if d % 2 = 0 then 5 else 4
  | _ => 17

/-- First physical number of a type on a die, counted die-major (R112). -/
def physBase (ty d : Nat) : Nat := ((List.range d).map (physOnDie ty)).foldl (· + ·) 0

/-- Physical units of a type. -/
def physCount (ty : Nat) : Nat := physBase ty 4

/-- The compute die of a physical number. -/
def unitDie (ty p : Nat) : Nat :=
  if p < physBase ty 1 then 0 else if p < physBase ty 2 then 1 else if p < physBase ty 3 then 2 else 3

/-- The variant carries a unit type (R112). -/
def typePresent (v : Variant) (ty : Nat) : Bool :=
  match v with
  | .a1 => true
  | .g1 => ty != 1 && ty != 3
  | .t1 => ty != 1 && ty != 3 && ty != 4

/-- Key of a unit in the unit tables. -/
def unitKey (ty p : Nat) : Nat := ty * 256 + p

/-- The unit of a type at a physical number. -/
def unitAt (s : State) (ty p : Nat) : SUnit := tget {} s.sa.units (unitKey ty p)

/-- A unit replaced. -/
def setUnit (s : State) (ty p : Nat) (u : SUnit) : State :=
  { s with sa := { s.sa with units := tput {} s.sa.units (unitKey ty p) u } }

/-- The seam sequencer at a physical number. -/
def seam (s : State) (q : Nat) : Seam := tget {} s.sa.seqs q

/-- A seam sequencer replaced. -/
def setSeam (s : State) (q : Nat) (x : Seam) : State :=
  { s with sa := { s.sa with seqs := tput {} s.sa.seqs q x } }

/-- An SA counter (R148) raised. -/
def saCount (s : State) (i n : Nat) : State := { s with sa := { s.sa with ctr := tmod 0 s.sa.ctr i fun c => satInc c n } }

/-- The cycles a sequencer has waited for units or channels so far are counted in `SA_PLACE_WAIT` (R148). -/
def tallyWait (s : State) (q : Nat) : State :=
  let x := seam s q
  match x.job with
  | some j => if x.wait = 2 ∨ x.wait = 3 then
      setSeam (saCount s 6 (s.now * 7 / 4 - j.waitT * 7 / 4)) q { x with job := some { j with waitT := s.now } } else s
  | none => s

/-- A unit's health entry. -/
def health (s : State) (ty p : Nat) : UHealth := tget {} s.ph.units (unitKey ty p)

/-- A unit's health entry replaced. -/
def setHealth (s : State) (ty p : Nat) (h : UHealth) : State :=
  { s with ph := { s.ph with units := tput {} s.ph.units (unitKey ty p) h } }

/-- The physical number that holds a logical number of a type: an active one, and so no spare lent to Proof. -/
def physOf (s : State) (ty l : Nat) : Option Nat :=
  if typePresent s.variant ty then
    (List.range (physCount ty)).find? fun p =>
      if ty = 0 then
        let x := seam s p
        decide (x.logical = l) && decide (x.state ≠ 6) && decide (x.state ≠ 7)
      else
        let u := unitAt s ty p
        decide (u.logical = l) && decide (u.state ≤ 2)
  else none

/-- The spares of a type that stand free, by physical number. -/
def sparesOf (s : State) (ty : Nat) : List Nat :=
  if typePresent s.variant ty then
    (List.range (physCount ty)).filter fun p =>
      if ty = 0 then decide ((seam s p).state = 6) else decide ((unitAt s ty p).state = 3)
  else []

/-- The spare that takes a retired unit's place: on its die if one is there, else on the
lowest-numbered die that has one (R113). -/
def spareFor (s : State) (ty p : Nat) : Option Nat :=
  let l := sparesOf s ty
  match l.find? fun x => decide (unitDie ty x = unitDie ty p) with
  | some x => some x
  | none => l.head?

/-- Index of a type in the caps list M V S F G D E SEQ. -/
def capIx (ty : Nat) : Nat := if ty = 0 then 7 else ty - 1

/-- Active count of a type in `CC_CAP_UNITS` (R41). -/
def activeCount (s : State) (ty : Nat) : Nat := s.cc.caps.getD (capIx ty) 0

/-- PH counters (R526) raised. -/
def phCount (s : State) (i n : Nat) : State :=
  { s with ph := { s.ph with ctr := tmod 0 s.ph.ctr i fun c => satInc c n } }

/-- A part, by its key, waits for no swap any more (R513). -/
def unpend (s : State) (k : Nat) : State := { s with ph := { s.ph with partWait := s.ph.partWait.filter (· ≠ k) } }

/-- A stage unit or seam sequencer retires (R113, R514): a spare takes its logical number and
partition; with no spare the logical number becomes absent, the active count falls and the type's bit
of SPARE_OUT sets. -/
def retireUnit (s : State) (ty p : Nat) : State :=
  let sp := spareFor s ty p
  let s := phCount (setHealth (unpend s (unitKey ty p)) ty p { health s ty p with retired := true, swapDue := false, escal := false }) 7 1
  let lost : State :=
    { s with cc := { s.cc with caps := setAt s.cc.caps (capIx ty) (activeCount s ty - 1) }
             ph := { s.ph with spareOut := s.ph.spareOut ||| 2 ^ capIx ty } }
  if ty = 0 then
    let x := seam s p
    match sp with
    | some q =>
      setSeam (setSeam s q { seam s q with state := 0, logical := x.logical, part := x.part, banks := 0, first := 0 }) p
        { x with state := 7, wait := 0 }
    | none => setSeam lost p { x with state := 7, wait := 0 }
  else
    let u := unitAt s ty p
    match sp with
    | some q =>
      setUnit (setUnit s ty q { unitAt s ty q with state := 0, logical := u.logical, part := u.part }) ty p
        { u with state := 4, holds := none }
    | none => setUnit lost ty p { u with state := 4, holds := none }

/-- A due swap is made (R513, R514): with no spare the part stays in service and the type's bit of SPARE_OUT sets. -/
def swapNow (s : State) (ty p : Nat) : State :=
  if (spareFor s ty p).isSome then retireUnit s ty p
  else
    let s := setHealth s ty p { health s ty p with swapDue := false }
    { s with ph := { s.ph with spareOut := s.ph.spareOut ||| 2 ^ capIx ty } }

/-! ### Health summary -/

/-- Types that Proof samples (R516). -/
def proofType (ty : Nat) : Bool := decide (ty = 1 ∨ ty = 2 ∨ ty = 3 ∨ ty = 6)

/-- A type has no spare left, so its units are not sampled (R517). -/
def proofOff (s : State) (ty : Nat) : Bool :=
  s.sa.ready && typePresent s.variant ty && (sparesOf s ty).isEmpty &&
    !(List.range (physCount ty)).any fun p => decide ((unitAt s ty p).state = 5)

/-- Some throttle of R504 or R511 is in force. -/
def throttled (s : State) : Bool := s.ph.budgetThr || s.ph.dies.any fun d => decide (d.2.throttle ≠ 0)

/-- Spare lanes not in service. -/
def lanesLeft (s : State) : Nat :=
  if s.cc.stage = 6 then 48 - (s.pc.pairs.filter fun x => x.2.used).length else 0

/-- Hottest junction. -/
def tjMax (s : State) : Nat := s.ph.dies.foldl (fun m d => max m d.2.tj) 0

/-- Units under escalation. -/
def escalated (s : State) : Nat := (s.ph.units.filter fun u => u.2.escal).length

/-- `PH_HEALTH`, the health summary (R525). -/
def healthWord (s : State) : W64 :=
  let degraded := decide (s.ph.hbmFail ≠ 0) || decide (s.lv.lpddrFail ≠ 0) || decide (s.lv.nandDegraded ≠ 0)
    || decide (s.ph.spareOut ≠ 0)
  w64 (place 63 1 (b2n s.ph.undervolt) + place 62 1 (b2n s.ph.overvolt)
    + place 61 1 (b2n (s.ph.dies.any fun d => decide (d.2.throttle ≠ 0)))
    + place 60 1 (b2n s.ph.budgetThr) + place 59 1 (b2n (decide (s.ph.hbmFail ≠ 0)))
    + place 58 1 (b2n (decide (s.lv.lpddrFail ≠ 0))) + place 57 1 (b2n (decide (s.lv.nandDegraded ≠ 0)))
    + place 56 1 (b2n ((s.ph.units.any fun u => u.2.swapDue) || !s.ph.laneDue.isEmpty || !s.ph.laneWait.isEmpty
        || !s.ph.partWait.isEmpty || !s.ph.partDue.isEmpty))
    + place 48 8 s.ph.spareOut + place 40 8 (lanesLeft s) + place 32 8 (tjMax s)
    + place 28 4 (b2n (proofOff s 1) + 2 * b2n (proofOff s 2) + 4 * b2n (proofOff s 3) + 8 * b2n (proofOff s 6))
    + place 16 12 (escalated s)
    + (if throttled s then 2 else if degraded then 1 else 0))

/-! ### Leave (R506–R510) -/

/-- Charge of a unit type at its full-rate class, and that class (*Unit charges*, R116). -/
def unitCharge (ty : Nat) : Nat × Nat :=
  match ty with
  | 1 => (80, 3)
  | 2 => (12, 2)
  | 3 => (10, 2)
  | 4 => (6, 1)
  | 5 => (6, 1)
  | 6 => (8, 2)
  | _ => (8, 2)

/-- A stage's charge at a class, rounded up (R506). -/
def stageCharge (ty spc : Nat) : Nat :=
  let (c, f) := unitCharge ty
  if f ≤ spc then c else ceilDiv c (2 ^ (f - spc))

/-- The leave flow `p`: partitions 0–15, and 16 for the device's own migrations and scrubs. -/
def flow (s : State) (p : Nat) : Flow := tget {} s.ph.flows p

/-- A flow replaced. -/
def setFlow (s : State) (p : Nat) (f : Flow) : State :=
  { s with ph := { s.ph with flows := tput {} s.ph.flows p f } }

/-- Finish tag of a request that starts at S (R509). -/
def leaveTag (f : Flow) (c : Nat) : W64 := f.s + w64 (c * (2 ^ 24 / f.weight))

/-- A request joins its flow; a flow that wakes takes S = V (R509). -/
def askLeave (s : State) (p : Nat) (who : LeaveWho) (c : Nat) : State :=
  let f := flow s p
  let f := if f.queue.isEmpty then { f with s := s.ph.v, f := leaveTag { f with s := s.ph.v } c } else f
  setFlow s p { f with queue := f.queue ++ [{ who := who, charge := c, since := s.now }] }

/-- Charges held in all flows, G of R508. -/
def leaveHeld (s : State) : Nat := s.ph.flows.foldl (fun n f => n + f.2.held) 0

/-- Leave released: the flow's held charge falls (R510). -/
def dropLeave (s : State) (p c : Nat) : State :=
  let f := flow s p
  setFlow s p { f with held := f.held - c }

/-- Waiting requests of a party withdrawn. -/
def cancelLeave (s : State) (p : Nat) (who : LeaveWho) : State :=
  let f := flow s p
  let q := f.queue.filter fun r => decide (r.who ≠ who)
  setFlow s p { f with queue := q, f := if q.isEmpty ∨ q.head? = f.queue.head? then f.f else leaveTag f (q.headD {}).charge }

end Sys2Proof.Machine
end

