-- ==== Sys2Proof/Machine/Vywa.lean ====
section
/-! DEFINITION. Vywa instruction words (R88–R91, R213), the checks on code of R93, R100 and R216,
and the executing units' places in their code (R222–R225). -/

namespace Sys2Proof.Machine

/-- An instruction: its word and, for format X, its extension word (R88). -/
structure Ins where
  w   : W64 := 0
  ext : W64 := 0
deriving DecidableEq, Repr

/-- Opcode. -/
def Ins.opc (i : Ins) : Nat := fld i.w 56 8
/-- Format: 0 A, 1 B, 2 C, 3 D, 4 X. -/
def Ins.fmt (i : Ins) : Nat := fld i.w 52 4
/-- Guard predicate. -/
def Ins.pg (i : Ins) : Nat := fld i.w 49 3
/-- Guard inversion. -/
def Ins.pn (i : Ins) : Bool := bit i.w 48
/-- Field of the word. -/
def Ins.f (i : Ins) (lo len : Nat) : Nat := fld i.w lo len
/-- Field of the extension word. -/
def Ins.x (i : Ins) (lo len : Nat) : Nat := fld i.ext lo len
/-- Words the instruction takes (R88). -/
def Ins.len (i : Ins) : Nat := if i.fmt = 4 then 2 else 1

/-- Word `n` of a code section; words beyond its end read 0, which is HALT (R88). -/
def codeWord (code : Bytes) (n : Nat) : W64 := w64 (leAt code (8 * n) 8)

/-- The instruction at word `n` of a code section. -/
def insAt (code : Bytes) (n : Nat) : Ins :=
  let w := codeWord code n
  { w := w, ext := if fld w 52 4 = 4 then codeWord code (n + 1) else 0 }

/-! ### Register specifiers -/

/-- s register specifier (R90). -/
def isS (sp : Nat) : Bool := decide (sp / 32 = 0)
/-- t register specifier. -/
def isT (sp : Nat) : Bool := decide (sp / 32 = 1) && decide (sp % 32 < 16)
/-- a register specifier. -/
def isA (sp : Nat) : Bool := decide (sp / 32 = 2) && decide (sp % 32 < 16)
/-- p register specifier. -/
def isP (sp : Nat) : Bool := decide (sp / 32 = 3) && decide (sp % 32 < 8)
/-- The first register of a run of n t registers: a multiple of n, ending at t15 or before (R215). -/
def isRun (sp n : Nat) : Bool := isT sp && decide (sp % 32 % n = 0) && decide (sp % 32 + n ≤ 16)

/-- FP32-sized tiles that the elements of one tile of a type fill (R115, R236, R237). -/
def runOf (ty : Nat) : Nat :=
  if ty = 0 ∨ ty = 0xD then 1
  else if ty = 1 ∨ ty = 2 then 2
  else if ty = 9 ∨ ty = 0xC then 8
  else 4

/-- MX types (R91). -/
def isMX (ty : Nat) : Bool := decide (5 ≤ ty ∧ ty ≤ 0xA)
/-- Types Graver codes (R183). -/
def codable (ty : Nat) : Bool := decide (ty ≤ 6) || decide (9 ≤ ty ∧ ty ≤ 0xC)
/-- FP32, BF16, FP16 or INT32. -/
def isKeyType (ty : Nat) : Bool := decide (ty ≤ 2) || decide (ty = 0xD)
/-- Types a PUT may convert to (R229). -/
def isConvType (ty : Nat) : Bool := decide (ty ≤ 4) || decide (ty = 0xB) || decide (ty = 0xD)

/-- What executes a code section: 0 a control sequencer, 1–7 a stage unit by TYPE, 8 a seam sequencer. -/
abbrev UnitKind := Nat

/-- Opcodes a unit may hold beside HALT, LOOP, ENDL and BR (R84, R100). -/
def unitOpcodes : UnitKind → List Nat
  | 0 => [0x70, 0x71, 0x72] ++ (List.range 0x14).map (0x80 + ·) ++ (List.range 0x17).map (0xE0 + ·)
  | 1 => [0x10, 0x13, 0x30, 0x31, 0x32]
  | 2 => [0x10, 0x13, 0x60, 0x31, 0x32, 0x42, 0x33, 0x34, 0x61, 0x62]
  | 3 => [0x10, 0x13, 0x40, 0x41]
  | 4 => [0x10, 0x13, 0x50, 0x51, 0x52, 0x53]
  | 5 => [0x10, 0x13, 0x11, 0x12, 0x61, 0x62]
  | 6 => [0x10, 0x13, 0x20, 0x34]
  | 7 => [0x10, 0x13, 0x21, 0x22, 0x33]
  | _ => [0x70, 0x71, 0x72]

/-- The format of an opcode (*Opcode map*). -/
def opcFormat (o : Nat) : Nat :=
  if o = 0x01 ∨ o = 0x03 ∨ o = 0x22 ∨ o = 0x51 then 1
  else if o = 0x10 ∨ o = 0x11 ∨ o = 0x12 then 2
  else if 0x80 ≤ o then 3
  else if o = 0x13 ∨ o = 0x21 ∨ o = 0x32 ∨ o = 0x50 ∨ o = 0x53 ∨ o = 0x61 ∨ o = 0x62 ∨ o = 0x70 ∨ o = 0x72 then 4
  else 0

/-- Laces a stage takes from and emits onto, as bit sets; a sequencer has none. -/
structure LaceSets where
  inp : Nat := 0
  out : Nat := 0
deriving DecidableEq, Repr

/-- The lace is one of the stage's input laces. -/
def LaceSets.takes (l : LaceSets) (k : Nat) : Bool := l.inp.testBit k
/-- The lace is one of the stage's output laces. -/
def LaceSets.emits (l : LaceSets) (k : Nat) : Bool := l.out.testBit k

/-- The input laces of a set, lowest first. -/
def laceList (m : Nat) : List Nat := (List.range 32).filter fun k => m.testBit k

/-- EMIT's operand checks by mode (R229). -/
def emitOk (i : Ins) (l : LaceSets) : Bool :=
  let rd := i.f 41 7
  let rs1 := i.f 34 7
  let rs2 := i.f 27 7
  let ty := i.f 23 4
  let n := i.f 8 4 + 1
  let et := i.x 0 4
  decide (i.f 20 3 = 0) &&
  match i.f 0 3 with
  | 0 => isRun rs1 n && l.emits (i.f 3 5) && decide (ty ≠ 0xF) &&
         (decide (ty = et) || (!isMX ty && isConvType ty && decide (et < 0xE)))
  | 1 => isRun rd n && l.takes (i.f 3 5)
  | 2 => isA rd && (isS rs1 || isA rs1) && decide (i.x 56 8 = 0)
  | 3 => isA rd && isA rs1
  | 4 => isRun rd n && isA rs1
  | 5 => isRun rs1 n && isA rs2
  | 6 => isP rd && decide (rd % 32 ≠ 0) && (isS rs1 || isA rs1) && decide (i.f 15 3 ≤ 5)
  | _ => false

/-- A specifier names a register of a file the unit holds (R85, R90); stage units read the s registers of
their sequencer. -/
def specOk (u : UnitKind) (sp : Nat) : Bool := isS sp || isP sp || (decide (1 ≤ u ∧ u ≤ 7) && (isT sp || isA sp))

/-- Opcodes whose words carry three specifiers that their operand checks do not all reach: EMIT, QUANT, DEQUANT, SMAX,
EXP, LSEMERGE, CMP and RED. -/
def specOpcodes : List Nat := [0x13, 0x33, 0x34, 0x40, 0x41, 0x42, 0x50, 0x60]

/-- Every specifier of the word is valid, used or not (R90). -/
def specsOk (u : UnitKind) (i : Ins) : Bool :=
  !specOpcodes.contains i.opc || (specOk u (i.f 41 7) && specOk u (i.f 34 7) && specOk u (i.f 27 7))

/-- The fields an instruction word fixes (R216), for the unit that holds it. -/
def operandsOk (u : UnitKind) (l : LaceSets) (i : Ins) : Bool :=
  let rd := i.f 41 7
  let rs1 := i.f 34 7
  let rs2 := i.f 27 7
  let ty := i.f 23 4
  let mmaTy := decide (1 ≤ ty ∧ ty ≤ 0xC)
  match i.opc with
  | 0x00 => decide (i.f 0 48 = 0)
  | 0x02 => decide (i.f 0 48 = 0)
  | 0x01 => (if u = 0 ∨ u = 8 then isS rd else isA rd || decide (rd = 0)) && decide (i.f 37 4 = 0)
  | 0x03 => decide (i.f 32 16 = 0)
  | 0x10 => decide (1 ≤ i.f 22 12) && (if i.f 38 1 = 0 then l.emits (i.f 39 5) else l.takes (i.f 39 5))
            && (decide (i.f 34 4 ≠ 0xF) || decide (u = 5))
  | 0x11 => decide (1 ≤ i.f 22 12) && decide (i.f 38 1 = 0) && l.emits (i.f 39 5) && decide (l.inp ≠ 0)
  | 0x12 => decide (1 ≤ i.f 22 12) && decide (i.f 38 1 = 1) && l.takes (i.f 39 5) && decide (2 ≤ (laceList l.inp).length)
  | 0x13 => emitOk i l
  | 0x20 => decide (i.f 27 21 = 0) && decide (i.f 16 7 = 0) && codable (i.f 10 4) && l.emits (i.f 5 5) && l.takes (i.f 0 5)
            && (if isMX (i.f 10 4) then decide (ty = i.f 10 4) else decide (ty ≤ 4) || decide (ty = 0xB) || decide (ty = 0xC))
  | 0x21 => decide (rd = 0) && isA rs1 && isA rs2 && codable ty && decide (i.f 15 8 = 0)
            && l.emits (i.f 10 5) && l.emits (i.f 5 5) && l.takes (i.f 0 5)
  | 0x22 => decide (rd = 0) && codable (i.f 37 4) && l.takes (i.f 32 5) && decide (i.f 20 12 = 0)
            && (decide (i.f 10 10 = 0) || decide (500 ≤ i.f 10 10 ∧ i.f 10 10 ≤ 1000)) && l.emits (i.f 5 5) && l.takes (i.f 0 5)
  | 0x30 => isRun rd 4 && isT rs1 && isT rs2 && mmaTy && decide (i.f 1 22 = 0)
            && decide (rs1 % 32 / 4 ≠ rd % 32 / 4) && decide (rs2 % 32 / 4 ≠ rd % 32 / 4)
  | 0x31 => isT rd && isT rs1 && isT rs2 && decide (i.f 3 20 = 0)
            && (if u = 1 then mmaTy else decide (ty ≤ 0xD))
  | 0x32 => isRun rd (runOf ty) && isT rs1 && (if bit i.w 2 then isRun rs2 (runOf ty) else decide (rs2 = 0))
            && decide (ty ≤ 4) && decide (i.f 4 19 = 0) && decide (i.f 0 2 ≠ 3)
  | 0x33 => isT rd && isRun rs1 (runOf ty) && decide (1 ≤ ty ∧ ty ≤ 0xC) && decide (i.f 3 20 = 0)
  | 0x34 => isRun rd (runOf ty) && isT rs1 && decide (ty ≤ 0xD) && decide (i.f 0 23 = 0)
  | 0x40 => decide (rs2 = 0) && decide (ty ≤ 1) && decide (i.f 18 5 = 0) &&
            (match i.f 8 2 with
             | 0 => true
             | 1 => isT rd && isT rs1 && decide (rd % 32 ≠ 15)
             | 2 => isT rd
             | _ => false)
  | 0x41 => isT rd && isT rs1 && (!bit i.w 0 || isT rs2) && decide (ty ≤ 1) && decide (i.f 1 22 = 0)
  | 0x42 => isT rd && isT rs1 && decide (ty = 0) && decide (i.f 2 21 = 0) && (!bit i.w 1 || decide (rd % 32 ≠ 15))
  | 0x50 => isKeyType ty && decide (i.f 7 16 = 0) && decide (i.f 0 3 ≤ 5) &&
            (if i.f 3 2 = 3 then isT rd && isT rs1 && isT rs2
             else isRun rd (runOf ty) && isT rs1 && (!bit i.w 5 || isT rs2))
  | 0x51 => decide (rd = 0) && isKeyType (i.f 37 4) && l.takes (i.f 32 5) && decide (i.f 30 2 = 0) && l.emits (i.f 12 5)
            && (!bit i.w 17 || decide (i.f 25 5 = 0))
  | 0x52 => isT rd && isT rs1 && isKeyType ty && isRun rs2 (runOf ty) && decide (i.f 2 21 = 0)
  | 0x53 => decide (i.f 20 28 = 0) && l.emits (i.f 15 5) && l.emits (i.f 10 5) && l.takes (i.f 5 5) && l.takes (i.f 0 5)
            && decide (i.x 12 20 = 0) && decide (1 ≤ i.x 0 12)
  | 0x60 => decide (rs2 = 0) && decide (i.f 5 18 = 0) &&
            (if bit i.w 0 then isA rs1 && decide (ty = 0)
             else isT rd && isT rs1 && decide (ty ≤ 0xD)
                  && decide (i.f 1 3 ≤ 4) && decide (i.f 1 3 ≠ 2))
  | 0x61 => decide (rd = 0) && isA rs1 && decide (i.f 6 28 = 0) && l.takes (i.f 0 5) && decide (i.x 16 48 = 0)
            && decide (1 ≤ i.x 0 9 ∧ i.x 0 9 ≤ 256) &&
            (match i.x 13 3 with
             | 1 => decide (i.x 9 4 = 0) && decide (i.x 0 9 % 8 = 0)
             | 2 => decide (i.x 0 9 = 136)
             | 0 | 3 | 4 => decide (i.x 9 4 ≤ 4) || decide (i.x 9 4 = 0xD)
             | _ => false)
  | 0x62 => decide (rd = 0) && isA rs1 && decide (i.f 6 28 = 0) && l.takes (i.f 0 5) && decide (i.x 29 35 = 0)
            && decide (32 ≤ i.x 16 13 ∧ i.x 16 13 ≤ 4096) && decide (i.x 16 13 % 32 = 0) && decide (i.x 14 2 = 0)
  | 0x70 => decide (rd = 0) && isS rs1 && decide (i.f 16 18 = 0) && decide (i.x 29 35 = 0) && decide (i.x 14 2 = 0)
  | 0x71 => isP rd && isS rs1 && isS rs2 && decide (ty = 0) && !bit i.w 1 && !bit i.w 22
  | 0x72 => decide (rd = 0) && isS rs1 && decide (i.f 0 34 = 0) && decide (i.x 29 35 = 0) && decide (i.x 14 2 = 0)
  | _ => isS rd && decide (i.f 32 8 = 0) && decide (i.f 0 3 = 0)

/-- One instruction is defined, of its format, allowed in its unit, with a live guard and good
operands (R88–R90, R100, R213, R216). -/
def insOk (u : UnitKind) (l : LaceSets) (i : Ins) : Bool :=
  (decide (i.opc ≤ 3) || (unitOpcodes u).contains i.opc) && decide (i.fmt = opcFormat i.opc)
    && !(decide (i.pg = 0) && i.pn) && specsOk u i && operandsOk u l i

/-! ### Structure of a code section -/

/-- Positions of the instructions of a section of `n` words, with the fuel of its length. -/
def insStartsFrom (code : Bytes) (n : Nat) : Nat → Nat → List Nat
  | 0, _ => []
  | fuel + 1, p => if p < n then p :: insStartsFrom code n fuel (p + (insAt code p).len) else []

/-- Positions of the instructions of a section of `n` words. -/
def insStarts (code : Bytes) (n : Nat) : List Nat := insStartsFrom code n n 0

/-- Loops of a section as pairs of LOOP and ENDL positions, or none when they do not match by
nesting within four levels (R223). -/
def loopPairsFrom (code : Bytes) : List Nat → List Nat → Option (List (Nat × Nat))
  | [], [] => some []
  | [], _ :: _ => none
  | p :: t, st =>
    let o := (insAt code p).opc
    if o = 1 then (if st.length < 4 then loopPairsFrom code t (p :: st) else none)
    else if o = 2 then
      match st with
      | [] => none
      | q :: st' => (loopPairsFrom code t st').map fun l => (q, p) :: l
    else loopPairsFrom code t st

/-- Loops of a section of `n` words. -/
def loopPairs (code : Bytes) (n : Nat) : Option (List (Nat × Nat)) := loopPairsFrom code (insStarts code n) []

/-- Target word of a BR (R225). -/
def brTarget (p : Nat) (i : Ins) : Int := (p : Int) + signed 32 (i.f 0 32)

/-- The structure of LOOP, ENDL and BR holds in a section of `n` words, and no extension word
lies beyond it (R93, R223, R225). -/
def flowOk (code : Bytes) (n : Nat) : Bool :=
  match loopPairs code n with
  | none => false
  | some loops =>
    let st := insStarts code n
    st.all fun p =>
      let i := insAt code p
      decide (p + i.len ≤ n) &&
      (decide (i.opc ≠ 3) ||
        (let t := brTarget p i
         decide (0 ≤ t) && st.contains t.toNat &&
         loops.all fun le => !(decide ((le.1 : Int) < t) && decide (t < (le.2 : Int))) || (decide (le.1 < p) && decide (p < le.2))))

/-- Every instruction of a section of `n` words passes `insOk`. -/
def sectionOk (u : UnitKind) (l : LaceSets) (code : Bytes) (n : Nat) : Bool :=
  (insStarts code n).all fun p => insOk u l (insAt code p)

/-! ### Control programs -/

/-- Words of the instruction area: up to the first HALT word that is no extension word (R93); none
when there is none. -/
def areaWordsFrom (code : Bytes) (n : Nat) : Nat → Nat → Option Nat
  | 0, _ => none
  | fuel + 1, p =>
    if n ≤ p then none
    else if (insAt code p).opc = 0 then some (p + 1)
    else areaWordsFrom code n fuel (p + (insAt code p).len)

/-- Words of the instruction area of an image. -/
def areaWords (img : Bytes) : Option Nat := areaWordsFrom img (img.length / 8) (img.length / 8 + 1) 0

/-- Bytes of the descriptor of a control-plane opcode (R253). -/
def descBytes (o : Nat) : Nat := if o = 0x80 ∨ o = 0x87 then 64 else 32

/-- Control-plane opcodes only FM privilege reaches (R83, R254). -/
def fmOnly (o : Nat) : Bool :=
  [0x80, 0x82, 0x83, 0x84, 0x85, 0x86, 0x8E, 0x92].contains o ||
  (decide (0xE0 ≤ o) && !([0xE0, 0xE4, 0xE6, 0xE7, 0xE8, 0xF1] : List Nat).contains o)

/-- The image checks of R93, as their reason code, 0 when all pass. `priv` is 1 FM or 2 RUNTIME. -/
def imageReason (priv : Nat) (img : Bytes) : Nat :=
  match areaWords img with
  | none => 0x020B
  | some n =>
    if flowOk img n = false then 0x020B
    else if sectionOk 0 {} img n = false then 0x020A
    else if priv ≠ 1 ∧ (insStarts img n).any (fun p => fmOnly (insAt img p).opc) = true then 0x0003
    else if (insStarts img n).any (fun p =>
        let i := insAt img p
        decide (0x80 ≤ i.opc) && decide (i.f 41 7 = 0) && decide (i.f 40 1 = 0) &&
        !(decide (8 * n ≤ i.f 0 32) && decide (i.f 0 32 + descBytes i.opc ≤ img.length))) then 0x020C
    else 0

/-! ### Registers of sequencers -/

/-- s register `i`; s0 reads 0 (R85). -/
def sGet (t : Tab W64) (i : Nat) : W64 := if i = 0 then 0 else tget 0 t i

/-- s register `i` written; writes to s0 are ignored (R85). -/
def sPut (t : Tab W64) (i : Nat) (v : W64) : Tab W64 := if i = 0 then t else tput 0 t i v

/-- Predicate `i`; p0 reads 1 (R85). -/
def pGet (p i : Nat) : Bool := decide (i = 0) || p.testBit i

/-- Predicate `i` written; writes to p0 are ignored (R85). -/
def pPut (p i : Nat) (v : Bool) : Nat :=
  if i = 0 then p else if v then p ||| 2 ^ i else p - (if p.testBit i then 2 ^ i else 0)

/-- The guard of an instruction reads true (R89). -/
def guardOn (p : Nat) (i : Ins) : Bool := pGet p i.pg != i.pn

/-! ### Flow (R222–R225), on a unit's pc and loops -/

/-- The loops that still hold a position: leaving a body discards its iterations (R225). -/
def keepLoops (ls : List LoopFrame) (p : Nat) : List LoopFrame :=
  ls.filter fun f => decide (f.body ≤ p) && decide (p ≤ f.endl)

/-- Position of the ENDL that matches the LOOP whose body starts at `p`. -/
def findEndl (code : Bytes) : Nat → Nat → Nat → Nat
  | 0, p, _ => p
  | fuel + 1, p, d =>
    let i := insAt code p
    if i.opc = 2 then (if d = 0 then p else findEndl code fuel (p + 1) (d - 1))
    else findEndl code fuel (p + i.len) (if i.opc = 1 then d + 1 else d)

/-- A unit's place in its code. -/
structure Place where
  pc    : Nat := 0
  loops : List LoopFrame := []
deriving DecidableEq, Repr

/-- LOOP (R223): `cnt` is the s register named by CREG. -/
def loopPlace (code : Bytes) (pl : Place) (i : Ins) (cnt : W64) : Place :=
  let e := findEndl code (code.length / 8) (pl.pc + 1) 0
  let reg := decide (i.f 32 5 ≠ 0)
  let n := if reg then fld cnt 0 32 else i.f 0 16
  let ls := keepLoops pl.loops pl.pc
  if reg && decide (n = 0) then { pc := e + 1, loops := ls }
  else { pc := pl.pc + 1
         loops := { body := pl.pc + 1, endl := e, bounded := reg || decide (n ≠ 0), left := n,
                    ind := i.f 41 7, stride := i.f 16 16 } :: ls }

/-- The loop an ENDL at the pc closes, if its LOOP executed. -/
def endlFrame (pl : Place) : Option LoopFrame := pl.loops.find? fun f => decide (f.endl = pl.pc)

/-- ENDL (R224): back to the body while iterations remain; an ENDL whose LOOP did not execute only
advances. -/
def endlPlace (pl : Place) : Place :=
  match endlFrame pl with
  | none => { pl with pc := pl.pc + 1 }
  | some f =>
    let outer := pl.loops.filter fun g => decide (g.endl ≠ f.endl) && decide (g.body ≤ f.body)
    if f.bounded && decide (f.left ≤ 1) then { pc := pl.pc + 1, loops := outer }
    else { pc := f.body, loops := { f with left := f.left - 1 } :: outer }

/-- BR (R225). -/
def brPlace (pl : Place) (i : Ins) : Place :=
  let t := (brTarget pl.pc i).toNat
  { pc := t, loops := keepLoops pl.loops t }

/-- The step of an induction register, STRIDE × 8 (R223). -/
def indStep (f : LoopFrame) : Int := signed 16 f.stride * 8

/-- An s register advanced by a loop's step. -/
def indS (t : Tab W64) (f : LoopFrame) : Tab W64 :=
  sPut t (f.ind % 32) (w64 (wrapInt 64 ((sGet t (f.ind % 32)).toNat + indStep f)))

/-- An a register advanced by a loop's step in [55:0], its SPACE kept. -/
def indA (t : Tab W64) (f : LoopFrame) : Tab W64 :=
  if isA f.ind then
    let v := tget 0 t (f.ind % 32)
    tput 0 t (f.ind % 32) (w64 (fld v 56 8 * 2 ^ 56 + wrapInt 56 ((fld v 0 56 : Nat) + indStep f)))
  else t

end Sys2Proof.Machine
end

