-- ==== Sys2Proof/Machine/Control.lean ====
section
/-! DEFINITION. Messages of the mailboxes (R54, R55, R575), control programs from acceptance to end
(R22, R51, R71, R95), and the one way a control-plane instruction executes (R87, R94, R96, R253). -/

namespace Sys2Proof.Machine

/-! ### Messages -/

/-- Word `i` of the message in an inbound half. -/
def inMsg (s : State) (m i : Nat) : W64 := tget 0 (mbx s m).inQ i

/-- KIND of the message in an inbound half. -/
def msgKind (s : State) (m : Nat) : Nat := fld (inMsg s m 0) 0 8

/-- Sender tag of the message in an inbound half. -/
def msgTag (s : State) (m : Nat) : Nat := fld (inMsg s m 0) 16 16

/-- LEN matches a kind (*Message kinds*). -/
def lenOk (kind len : Nat) : Bool :=
  match kind with
  | 1 => decide (2 ≤ len ∧ len ≤ 16)
  | 2 => decide (len = 3)
  | 3 => decide (len = 1)
  | 4 => decide (len = 1)
  | _ => false

/-- Step 1 of R575 passes. In recovery mode mailbox 0 takes RECOVERY_IMAGE and the queries only (R543). -/
def msgWellFormed (s : State) (m : Nat) : Bool :=
  let w := inMsg s m 0
  decide (fld w 32 32 = 0) && decide (fld w 8 8 = 0) &&
  if s.cc.recovery then
    (decide (3 ≤ msgKind s m) && lenOk (msgKind s m) (mbx s m).inLen) || (decide (msgKind s m = 5) && decide ((mbx s m).inLen = 3))
  else lenOk (msgKind s m) (mbx s m).inLen

/-- The LF7 takes messages of a mailbox: host-facing ones and internal mailbox 15 while the main
domain works, mailbox 0 in recovery mode (R48, R543, R575). -/
def mbxServed (s : State) (m : Nat) : Bool :=
  (mbx s m).inFull && if s.cc.recovery then decide (m = 0) && decide (s.lv.flushCause = 0)
    else working s && (decide (m < 64) || decide (m = 79))

/-- A message of a kind stands in a served mailbox and passes step 1. -/
def msgReady (s : State) (m kind : Nat) : Bool :=
  mbxServed s m && msgWellFormed s m && decide (msgKind s m = kind)

/-- The message taken: inbound FULL clears, and IE_TAKEN raises the event (R48). -/
def takeMsg (s : State) (m : Nat) : State :=
  let x := mbx s m
  let s := setMbx s m { x with inFull := false }
  if m < 64 ∧ x.ctl / 2 % 2 = 1 then raiseMbx s m else s

/-- Step 2 of R575 refuses with PRIVILEGE: an unbound host-facing mailbox, or a kind mailbox 15 does
not take. -/
def msgBarred (s : State) (m kind : Nat) : Bool :=
  if m = 79 then decide (kind ≠ 3 ∧ kind ≠ 4)
  else if s.cc.recovery then false else decide ((mbx s m).priv = 0)

/-- Entries of a program's record (R72, R476). -/
def progEntries (len : Nat) : Nat := 1 + ceilDiv len 64

/-- Entries of records whose staging runs. -/
def stagedEntries (s : State) : Nat :=
  (s.cc.staged.map fun g => progEntries g.image.length + 1).foldl (· + ·) 0
  + (s.cc.jq.map fun j => (j.2.bells.filter fun b => b.staged.isSome).length * 3).foldl (· + ·) 0

/-- Step 5 of R575: the message is answered with RETRY_LATER. -/
def progRetry (s : State) (m len : Nat) : Bool :=
  (!s.cc.bootDone && decide (m ≠ 0)) || !journalRoom s (stagedEntries s + progEntries len) || acceptStopped s

/-- A program message that passed every test is staged. -/
def stageProg (s : State) (m tag : Nat) (img : Bytes) (off : Option Nat) : State :=
  let x := mbx s m
  let g : StagedProg := { mailbox := m, tag := tag, priv := x.priv, part := x.part, comp := x.comp, image := img, bulkOff := off }
  let s := setMbx s m { x with running := x.running + 1 }
  { s with cc := { s.cc with staged := s.cc.staged ++ [g] } }

/-- Tests 4 and 5 of R575 and the staging; `flip` undoes the ownership of bulk pages on a refusal. -/
def judgeProg (s : State) (m tag : Nat) (img : Bytes) (off : Option Nat) : State :=
  let r := imageReason (mbx s m).priv img
  let back := fun s => match off with
    | none => s
    | some o => flipPages s o img.length
  if r ≠ 0 then cpRefused (back s) m tag 3 r
  else if progRetry s m img.length then cpRefused (back s) m tag 1 0
  else stageProg s m tag img off

/-- CP_INLINE (R54, R575). -/
def execCpInline (m : Nat) (s : State) : Host.Outcome State Fault Refusal :=
  .next (if msgReady s m 1 then
    let tag := msgTag s m
    let img := wordsBytes ((List.range ((mbx s m).inLen - 1)).map fun i => inMsg s m (i + 1))
    let b := msgBarred s m 1
    let s := takeMsg s m
    if b then cpRefused s m tag 3 0x0003 else judgeProg s m tag img none
  else s)

/-- CP_BULK (R55, R575). -/
def execCpBulk (m : Nat) (s : State) : Host.Outcome State Fault Refusal :=
  .next (if msgReady s m 2 then
    let tag := msgTag s m
    let off := (inMsg s m 1).toNat
    let len := (inMsg s m 2).toNat
    let b := msgBarred s m 2
    let s := takeMsg s m
    if b then cpRefused s m tag 3 0x0003
    else if len = 0 ∨ len % 8 ≠ 0 ∨ 65536 < len then cpRefused s m tag 3 0x0106
    else if off % 4096 ≠ 0 ∨ pagesInGen s off len = false then cpRefused s m tag 3 0x0102
    else if pagesOwned s off len = false then cpRefused (flipPages s off len) m tag 3 0x0101
    else judgeProg s m tag (bulkRead s off len) (some off)
  else s)

/-- QUERY_SEQ (R54). -/
def execQuerySeq (m : Nat) (s : State) : Host.Outcome State Fault Refusal :=
  .next (if msgReady s m 3 then
    let tag := msgTag s m
    let b := msgBarred s m 3
    let s := takeMsg s m
    if b then cpRefused s m tag 3 0x0003 else queryReply s m tag (w64 s.lv.lastSeq)
  else s)

/-- HEALTH_QUERY (R54). -/
def execHealthQuery (m : Nat) (s : State) : Host.Outcome State Fault Refusal :=
  .next (if msgReady s m 4 then
    let tag := msgTag s m
    let b := msgBarred s m 4
    let s := takeMsg s m
    if b then cpRefused s m tag 3 0x0003 else queryReply s m tag (healthWord s)
  else s)

/-- MALFORMED_MESSAGE (R575 step 1). -/
def execMalformedMessage (m : Nat) (s : State) : Host.Outcome State Fault Refusal :=
  .next (if mbxServed s m && !msgWellFormed s m then
    let tag := msgTag s m
    cpRefused (takeMsg s m) m tag 3 0x0107
  else s)

/-- PROGRAM_ACCEPT (R22, R55): the oldest staged program of a mailbox is accepted; bulk pages flip to
the host before CP_ACCEPT. -/
def execProgramAccept (m : Nat) (s : State) : Host.Outcome State Fault Refusal :=
  .next (if working s then
    match s.cc.staged.find? fun g => decide (g.mailbox = m) with
    | none => s
    | some g =>
      let seq := s.lv.nextSeq
      let s := { s with cc := { s.cc with staged := s.cc.staged.erase g } }
      let s := stageRecord s { kind := .program, entries := progEntries g.image.length, part := g.part, comp := g.comp,
                               mailbox := m, priv := g.priv, tag := g.tag, length := g.image.length, body := g.image }
      let s := match g.bulkOff with
        | none => s
        | some o => flipPages s o g.image.length
      postOut s m [replyHead 0x81 g.tag, w64 seq, 0]
  else s)

/-- MGMT_CORE_FAILOVER (R74): the spare takes over the failed core's work; no message is lost or
taken twice, since taking one is a single step. -/
def execMgmtCoreFailover (core : Nat) (s : State) : Host.Outcome State Fault Refusal :=
  .next (if core < 5 then unpend { s with cc := { s.cc with mgmtFailed := s.cc.mgmtFailed ||| 2 ^ core } } (8 * 256 + core) else s)

/-! ### Programs on control sequencers -/

/-- A control sequencer. -/
def ctl (s : State) (cs : Nat) : CtlSeq := tget {} s.cc.seqs cs

/-- A control sequencer replaced. -/
def setCtl (s : State) (cs : Nat) (x : CtlSeq) : State :=
  { s with cc := { s.cc with seqs := tput {} s.cc.seqs cs x } }

/-- A program's leave released (R510). -/
def dropProgLeave (s : State) (cs : Nat) : State :=
  let q := ctl s cs
  if q.leave then setCtl (dropLeave s q.part q.leaveW) cs { q with leave := false, leaveW := 0 } else s

/-- Results written (R87): s31 and p7, s30 for a COMMIT; the ordinal counts and the pc advances. A program that
its own instruction stopped stays so (R534). -/
def ctlFinish (s : State) (cs reason : Nat) (status : Option W64) : State :=
  let q := ctl s cs
  let r := sPut q.s 31 (w64 reason)
  let r := match status with
    | none => r
    | some w => sPut r 30 w
  setCtl s cs { q with s := r, p := pPut q.p 7 (decide (reason ≠ 0)), ordinal := q.ordinal + 1, pc := q.pc + 1,
                       wait := if q.wait = .stopped then .stopped else .none }

/-- The stamp of the instruction a program executes (R96). -/
def ctlStamp (q : CtlSeq) : Stamp := { set := true, seq := q.seqNo, ord := q.ordinal }

/-- An instruction completes: its object's stamp and state record are written with an accepted change
(R96, R481), then its results. -/
def ctlComplete (s : State) (cs reason : Nat) (status : Option W64) (obj : Option Nat) (size : Nat) : State :=
  let s := match obj with
    | some k => if reason = 0 then stateRecord { s with stamps := tput {} s.stamps k (ctlStamp (ctl s cs)) } size else s
    | none => s
  ctlFinish s cs reason status

/-- The spare control sequencer takes the place and number of one, which is retired (R71); its entry is 8 here. A SPARE.SWAP that
waits for it completes. -/
def swapCtl (s : State) (cs : Nat) : State :=
  let s := { s with ph := { s.ph with partDue := s.ph.partDue.filter (· ≠ 9 * 256 + cs) } }
  let ok := decide ((ctl s 8).state = 2)
  let s := if ok then phCount (setCtl s 8 { state := 3 }) 7 1 else s
  match (List.range 8).find? fun c => decide ((ctl s c).wait = .spareUnit 9 cs) with
  | none => s
  | some c => if ok then ctlComplete s c 0 none (some (stampKey okSwap (4 * 2 ^ 16 + cs))) 32 else ctlComplete s c 0x0D01 none none 32

/-- A program ends (R95, R30): its completion is staged, CP_DONE is sent, and its record retires. -/
def progEnd (s : State) (cs status reason : Nat) : State :=
  let s := dropProgLeave s cs
  let q := ctl s cs
  let s := match findRec s q.seqNo with
    | some r => stageCompletion s r (statusReason status reason) 0
    | none => s
  let s := cpDone s q.mailbox q.tag q.seqNo status reason
  let x := mbx s q.mailbox
  let s := setMbx s q.mailbox { x with running := x.running - 1 }
  let s := setCtl (retireRec s q.seqNo) cs { state := 0 }
  if s.ph.partDue.contains (9 * 256 + cs) then swapCtl s cs else s

/-- A program is on some control sequencer. -/
def progRunning (s : State) (seq : Nat) : Bool :=
  s.cc.seqs.any fun q => decide (q.2.state = 1) && decide (q.2.seqNo = seq)

/-- A partition has a program running. -/
def partRunning (s : State) (part : Nat) : Bool :=
  s.cc.seqs.any fun q => decide (q.2.state = 1) && decide (q.2.part = part)

/-- Programs that wait to start: accepted, not running, not exported, and of mailbox 0 until
bootstrap is done (R40), oldest first. -/
def waitingProgs (s : State) (part : Nat) : List JRec :=
  s.lv.recs.filter fun r => decide (r.kind = .program) && decide (r.part = part) && !r.exported
    && !progRunning s r.seq && (findCompl s r.seq).isNone && (s.cc.bootDone || decide (r.mailbox = 0))

/-- The oldest record of a list by sequence number. -/
def oldest : List JRec → Option JRec
  | [] => none
  | r :: t => match oldest t with
    | none => some r
    | some x => if x.seq < r.seq then some x else some r

/-- The next partition, round-robin from the pointer, that has a program waiting and none running (R71). -/
def nextPart (s : State) : Option Nat :=
  ((List.range 16).map fun k => (s.cc.rrPart + k) % 16).find? fun p => !partRunning s p && !(waitingProgs s p).isEmpty

/-- Fence state of a composition on this switch. -/
def fenceOf (s : State) (c : Nat) : FenceSt := tget {} s.te.fences c

/-- The composition is fenced (R282). -/
def fenced (s : State) (c : Nat) : Bool := (fenceOf s c).comp

/-- A composition of this switch. -/
def comp (s : State) (c : Nat) : Comp := tget {} s.tr.comps c

/-- PROGRAM_TAKE (R71, R220, R477). A RUNTIME program whose composition stands fenced or destroyed
ends at once with FENCED (R95). -/
def execProgramTake (cs : Nat) (s : State) : Host.Outcome State Fault Refusal :=
  .next (if working s && decide (cs < 9) && decide ((ctl s cs).state = 0) && !stagingWaits s && !startsBarred s then
    match nextPart s with
    | none => s
    | some p =>
      match oldest (waitingProgs s p) with
      | none => s
      | some r =>
        let s := markStarted s r.seq
        let s := { s with cc := { s.cc with rrPart := (p + 1) % 16 } }
        let s := setCtl s cs { state := 1, seqNo := r.seq, part := r.part, priv := r.priv, comp := r.comp, mailbox := r.mailbox,
                               tag := r.tag, image := r.body, s := sPut [] 6 (w64 r.seq), started := s.now }
        if r.priv = 2 ∧ (fenced s r.comp = true ∨ (comp s r.comp).state = 0 ∨ (comp s r.comp).state = 4)
        then progEnd s cs 9 0 else s
  else s)

/-! ### The one way a control-plane instruction executes -/

/-- What an instruction's checks and effect give: the state with the object's change, the reason
code, the status word for s30, the object's stamp key when it changed, the bytes of its state record,
and what the instruction waits for before it completes. -/
structure CtlRes where
  s      : State
  reason : Nat := 0
  status : Option W64 := none
  obj    : Option Nat := none
  size   : Nat := 32
  wait   : CpWait := .none
  /-- The body has completed the instruction, or ended the program, itself. -/
  done   : Bool := false

/-- A refusal: the state, its reason and the object's status word. -/
def refuse (s : State) (reason : Nat) (status : Option W64 := none) : CtlRes := { s := s, reason := reason, status := status }

/-- The first failing test of a list of tests with their codes (R78), 0 when none fails. -/
def firstFail : List (Bool × Nat) → Nat
  | [] => 0
  | (true, c) :: _ => c
  | (false, _) :: t => firstFail t

/-- The program reaches an object of a composition (R83). -/
def reaches (q : CtlSeq) (c : Nat) : Bool := decide (q.priv = 1) || decide (q.comp = c)

/-- A control sequencer that executes: running, waiting for nothing, no flush under way (R484). -/
def ctlActive (s : State) (cs : Nat) : Bool :=
  working s && decide (cs < 9) && decide ((ctl s cs).state = 1) && decide ((ctl s cs).wait = .none)

/-- The instruction at a control sequencer's pc. -/
def ctlIns (s : State) (cs : Nat) : Ins := insAt (ctl s cs).image (ctl s cs).pc

/-- The descriptor of a format D instruction (R94), none where it fails its conditions. DEDUCED (log 111): an address that
is no multiple of 8 fails, and so does one of SPACE 0 that reaches into the instruction area. -/
def ctlDesc (s : State) (cs : Nat) (i : Ins) : Option (List W64) :=
  let q := ctl s cs
  let n := descBytes i.opc
  let a := (sGet q.s (i.f 41 7 % 32) + w64 (i.f 0 32)).toNat
  if a % 8 ≠ 0 then none
  else if i.f 40 1 = 0 then
    if 8 * (areaWords q.image).getD 0 ≤ a ∧ a + n ≤ q.image.length then some (bytesWords (n / 8) (q.image.drop a)) else none
  else if (pagesOf a n).all (fun p => pageInGen s p && devOwned s p) = true then some (bytesWords (n / 8) (bulkRead s a n))
  else none

/-- An object records a stamp equal to or greater than a program's own (R96). -/
def stampPast (s : State) (key : Nat) (q : CtlSeq) : Bool :=
  let t := tget {} s.stamps key
  t.set && (decide (q.seqNo < t.seq) || (decide (t.seq = q.seqNo) && decide (q.ordinal ≤ t.ord)))

/-- An untaken instruction only advances (R89). -/
def ctlSkip (s : State) (cs : Nat) : State := setCtl s cs { ctl s cs with pc := (ctl s cs).pc + 1 }

/-- Two of these instructions on one object in one cycle are settled by R77: a COMMIT, and TABLE.LOAD (R207). -/
def arbitrated (opc : Nat) : Bool := decide (0xE0 ≤ opc) || decide (opc = 0x90)

/-- The object of a COMMIT has been granted to another control sequencer in this cycle (R77; DESIGN CHOICE: log entry 107). -/
def commitLost (s : State) (cs opc key : Nat) : Bool :=
  arbitrated opc && s.cc.commits.any fun x => decide (x.1 = key) && decide (x.2.1 = s.now) && decide (x.2.2 ≠ cs)

/-- A COMMIT is granted its object for this cycle; grants of earlier cycles are forgotten. -/
def grantCommit (s : State) (cs opc key : Nat) : State :=
  if arbitrated opc then { s with cc := { s.cc with commits := (key, s.now, cs) :: s.cc.commits.filter fun x => decide (x.2.1 = s.now) } } else s

/-- A control-plane instruction of an opcode executes on a sequencer, if the one at its pc is of
that opcode and its descriptor one that `sel` takes. `key` names the object for its stamp, `stat` its
status word when the stamp shows the change already made, and `body` does the checks and the effect. -/
def runCtl (s : State) (cs opc : Nat) (sel : List W64 → Bool) (key : List W64 → Nat) (stat : State → List W64 → Option W64)
    (body : State → CtlSeq → List W64 → CtlRes) : State :=
  if ctlActive s cs && decide ((ctlIns s cs).opc = opc) then
    if !guardOn (ctl s cs).p (ctlIns s cs) then ctlSkip s cs
    else if stagingWaits s then s
    else match ctlDesc s cs (ctlIns s cs) with
      | none => progEnd s cs 3 0x020C
      | some d =>
        if !sel d then s
        else if stampPast s (key d) (ctl s cs) then ctlFinish s cs 0 (stat s d)
        else if commitLost s cs opc (key d) then ctlFinish s cs 1 (stat s d)
        else
          let r := body (grantCommit s cs opc (key d)) (ctl s cs) d
          if r.done then r.s
          else if r.wait = .none then ctlComplete r.s cs r.reason r.status r.obj r.size
          else setCtl r.s cs { ctl r.s cs with wait := r.wait }
  else s

/-- Field of word `i` of a descriptor. -/
def df (d : List W64) (i lo len : Nat) : Nat := fld (wd d i) lo len

/-- ENABLE of a descriptor, word 3 bit 0. -/
def enableOf (d : List W64) : Bool := bit (wd d 3) 0

/-- Some bit of a descriptor outside the masks of its named fields is set (R576). -/
def reservedSet (d : List W64) (masks : List Nat) : Bool :=
  (List.range d.length).any fun i => decide (wd d i &&& ~~~(w64 (masks.getD i 0)) ≠ 0)

/-- The mask of a field of `len` bits at `lo`. -/
def fmask (lo len : Nat) : Nat := (2 ^ len - 1) * 2 ^ lo

/-- A COMMIT of an apply-only kind with ENABLE 0 changes nothing (R574). -/
def applyOnly (s : State) (d : List W64) (status : W64) (go : Unit → CtlRes) : CtlRes :=
  if enableOf d then go () else { s := s, status := some status }

/-- A status word after a check: accepted and enabled, or refused with its reason (R75). -/
def accepted (o : ObjStatus) : ObjStatus := { o with enabled := true, reason := 0 }
/-- A refused check leaves the object, with the reason (R75). -/
def refused (o : ObjStatus) (r : Nat) : ObjStatus := { o with reason := r }

end Sys2Proof.Machine
end

