-- ==== Sys2Proof/Machine/Route.lean ====
section
/-! DEFINITION. Ports and endpoints as the core sees them (R329, R331, R344), routes (R299, R363),
frames the LF7 sends (R297, R342), completions (R342, R291), and the requests its engines hold
outstanding (R264, R265). -/

namespace Sys2Proof.Machine

/-- A fabric port. -/
def port (s : State) (p : Nat) : Port := tget {} s.pc.ports p

/-- A fabric port replaced. -/
def setPort (s : State) (p : Nat) (x : Port) : State := { s with pc := { s.pc with ports := tput {} s.pc.ports p x } }

/-- A port pair. -/
def pair (s : State) (k : Nat) : Pair := tget {} s.pc.pairs k

/-- A port pair replaced. -/
def setPair (s : State) (k : Nat) (x : Pair) : State := { s with pc := { s.pc with pairs := tput {} s.pc.pairs k x } }

/-- The number names a port under its pair's split (R329). -/
def portNamed (s : State) (p : Nat) : Bool := decide (p < 192) && ((pair s (p / 4)).split || decide (p % 2 = 0))

/-- The port is up (R331). -/
def portUp (s : State) (p : Nat) : Bool := portNamed s p && (decide ((port s p).state = 4) || decide ((port s p).state = 5))

/-- The source ID of this switch's own engines (R257). -/
def ownId (s : State) : Nat := 0xF000 + s.swNum

/-- The switch a fabric address names (R363). -/
def faSwitch (fa : Nat) : Nat := fldN fa 48 12

/-- The local offset of a fabric address. -/
def faOff (fa : Nat) : Nat := fa % 2 ^ 48

/-- Port numbers of fabric ports. -/
def fabricPorts : List Nat := List.range 192

/-- The port an endpoint stands behind: one of the endpoint profile that reports it, or a window-mode
port with an enabled window of that source ID. -/
def endpointPort (s : State) (ep : Nat) : Option Nat :=
  fabricPorts.find? fun p =>
    portNamed s p &&
    ((decide ((port s p).profile = 1) && decide ((port s p).peerId ≤ ep) && decide (ep < (port s p).peerId + (port s p).peerCount))
    || (decide ((port s p).mode = 1) &&
        s.pc.wins.any fun w => decide (w.1 / 256 = p) && w.2.status.enabled && decide (w.2.srcId = ep)))

/-- The endpoint is a member of the composition's current or previous live map (R407, R408). -/
def memberOf (s : State) (c ep : Nat) : Bool :=
  let x := comp s c
  (x.curLive && x.cur.members.contains ep) || (x.prevLive && x.prev.members.contains ep)

/-- The route entry of a switch. -/
def route (s : State) (sw : Nat) : Route := tget {} s.sw.routes sw

/-- Ports of a route entry that are up. -/
def routePorts (s : State) (sw : Nat) : List Nat :=
  if (route s sw).present then (route s sw).ports.filter (portUp s) else []

/-- The port chosen for a flow toward a switch by a fixed hash of SRC, switch, TC and REGION (R299). -/
def routePort (s : State) (sw : Nat) (f : Frame) : Option Nat :=
  let l := routePorts s sw
  l[Config.routeHash l.length (f.src * 2 ^ 32 + sw * 2 ^ 20 + f.tc * 2 ^ 16 + f.region) % l.length]?

/-- Where a frame leaves the core: a fabric port, an internal port (the LF7 consumes it), or nowhere. -/
inductive Egress where
  | fabric (p : Nat)
  | internal
  | lost
deriving DecidableEq, Repr

/-- The switch a frame heads for: a completion for the switch that first admitted its request (R342). -/
def headsFor (f : Frame) : Nat := if f.op = 0x0F then f.rsw else faSwitch f.dst

/-- A completion ends a request of this switch's own: one of its engines, or a multicast copy (R277). -/
def endsOwn (s : State) (f : Frame) : Bool :=
  s.te.outst.any fun o => decide (o.frame.stream = f.stream) && decide (o.frame.tag = f.tag) && decide (o.frame.src = f.src) && decide (o.frame.dst = f.dst)

/-- The egress of a frame (R299, R342). -/
def egressOf (s : State) (o : OutFrame) : Egress :=
  match o.via with
  | some p => if portUp s p then .fabric p else .lost
  | none =>
    let sw := headsFor o.f
    if sw ≠ s.swNum then (match routePort s sw o.f with | some p => .fabric p | none => .lost)
    else if o.f.op = 0x0F ∧ o.f.src ≠ ownId s ∧ endsOwn s o.f = false then
      (match endpointPort s o.f.src with | some p => if portUp s p then .fabric p else .lost | none => .lost)
    else .internal

/-- A frame joins those of the LF7 that wait at its internal ports. -/
def sendOut (s : State) (f : Frame) (via : Option Nat := none) : State :=
  { s with te := { s.te with out := s.te.out ++ [{ f := f, via := via }] } }

/-- Class of a request's completion (*Request types*). -/
def cplTc (op : Nat) : Nat := if op = 0x07 ∨ op = 0x08 ∨ op = 0x0B ∨ op = 0x0C then 0 else 2

/-- The completion of a request (R342). -/
def mkCpl (f : Frame) (status : Nat) (data : Bytes) : Frame :=
  { op := 0x0F, tc := cplTc f.op, src := f.src, dst := f.dst, stream := f.stream, tag := f.tag, rsw := f.rsw,
    status := status, len := data.length, data := data, comp := f.comp }

/-- A TE counter (R295) raised. -/
def teCount (s : State) (i n : Nat) : State := { s with te := { s.te with ctr := tmod 0 s.te.ctr i fun c => satInc c n } }

/-- A posted write that fails is reported with TAG 0xFFFF and its DST, and counted (R263). -/
def postedFail (s : State) (f : Frame) (status : Nat) : State :=
  sendOut (teCount s 5 1) { mkCpl f status [] with tag := 0xFFFF }

/-- A request answered: its completion, or for a posted write the notice of R263 unless it is OK. -/
def answer (s : State) (f : Frame) (status : Nat) (data : Bytes := []) : State :=
  if f.op = 0x03 then (if status = 0 then s else postedFail s f status)
  else sendOut s (mkCpl f status data)

/-- A tagged request type (R256). -/
def taggedOp (op : Nat) : Bool := decide (op = 0x04 ∨ op = 0x05 ∨ op = 0x09 ∨ op = 0x0A)

/-- A request type other than the posted PWRITE and CPL. -/
def nonPosted (op : Nat) : Bool := decide (op ≠ 0x03) && decide (op ≠ 0x0F)

/-- The request ID of an engine's untagged request: STREAM with the otherwise unused issuer number 24. -/
def reqId (n : Nat) : Nat := (n * 2 ^ 13 + 24 * 256) % 2 ^ 40

/-- A request of an engine of the LF7 joins the outstanding ones (R265). -/
def keepOut (s : State) (f : Frame) (what : ReqFor) (via : Option Nat := none) : State :=
  { s with te := { s.te with outst := s.te.outst ++ [{ frame := f, via := via, what := what, issued := s.now, lastSend := s.now }] } }

/-- A request issued by an engine of the LF7: it joins the outstanding ones and waits at an internal
port (R265, R297). -/
def issue (s : State) (f : Frame) (what : ReqFor) (via : Option Nat := none) : State := sendOut (keepOut s f what via) f via

/-- An untagged request issued under a fresh request ID. -/
def issueNew (s : State) (f : Frame) (what : ReqFor) (via : Option Nat := none) : State :=
  let id := s.te.nextId
  issue { s with te := { s.te with nextId := id + 1 } } { f with stream := reqId id } what via

/-- RETURN messages that waited go to each lender that a port leads to again (R403). -/
def sendOwed (s : State) : State :=
  let go := s.tr.owed.filter fun f => !(routePorts s (faSwitch f.dst)).isEmpty
  go.foldl (fun s f => issueNew s f (.lease 256)) { s with tr := { s.tr with owed := s.tr.owed.filter fun f => !go.contains f } }

/-- A RETURN that did not reach its lender is kept, and goes again when the lender is reachable (R403). -/
def owe (s : State) (f : Frame) : State := sendOwed { s with tr := { s.tr with owed := s.tr.owed ++ [f] } }

/-- Outstanding requests of an engine. -/
def outCount (s : State) (p : ReqFor → Bool) : Nat := (s.te.outst.filter fun o => p o.what).length

/-- The map epoch the LF7's engines stamp (R367). -/
def curEpoch (s : State) (c : Nat) : Nat := (comp s c).current

/-- The completion timeout of a composition in ns (R264, R406). -/
def ctoNs (s : State) (c : Nat) : Nat := (if (comp s c).cto = 0 then 50 else (comp s c).cto) * 1000

end Sys2Proof.Machine
end

