-- ==== Sys2Proof/Machine/Pool.lean ====
section
/-! DEFINITION. Pool memory: the tier map and HBM frames (R384–R387), encryption at rest and sealed
extents (R428–R435), key-slot uses (R438, R441), reads and writes of copies, backings and leases
(R387, R397, R398, R431), and the operations of reads, writes, atomics and reduce-writes (R267–R269). -/

namespace Sys2Proof.Machine

/-- Bytes of a grain. -/
def grainB : Nat := 2 ^ 21

/-- A tier-map entry. -/
def tier (s : State) (g : Nat) : TierEnt := tget {} s.tr.tmap g

/-- A tier-map entry replaced. -/
def setTier (s : State) (g : Nat) (e : TierEnt) : State := { s with tr := { s.tr with tmap := tput {} s.tr.tmap g e } }

/-- An extent. -/
def ext (s : State) (x : Nat) : Extent := tget {} s.tr.exts x

/-- An extent replaced. -/
def setExt (s : State) (x : Nat) (e : Extent) : State := { s with tr := { s.tr with exts := tput {} s.tr.exts x e } }

/-- A lease. -/
def lease (s : State) (l : Nat) : Lease := tget {} s.tr.leases l

/-- A lease replaced. -/
def setLease (s : State) (l : Nat) (x : Lease) : State := { s with tr := { s.tr with leases := tput {} s.tr.leases l x } }

/-- A key slot. -/
def slot (s : State) (k : Nat) : KeySlot := tget {} s.ie.slots k

/-- A key slot replaced. -/
def setSlot (s : State) (k : Nat) (x : KeySlot) : State := { s with ie := { s.ie with slots := tput {} s.ie.slots k x } }

/-- A TR counter (R419) raised. -/
def trCount (s : State) (i n : Nat) : State := { s with tr := { s.tr with ctr := tmod 0 s.tr.ctr i fun c => satInc c n } }

/-- An IE counter (R449) raised. -/
def ieCount (s : State) (i n : Nat) : State := { s with ie := { s.ie with ctr := tmod 0 s.ie.ctr i fun c => satInc c n } }

/-- The extent that covers a pool grain and is not FREE. -/
def extOf (s : State) (g : Nat) : Option Nat :=
  (s.tr.exts.find? fun x => decide (x.2.state ≠ 0) && decide (x.2.base / grainB ≤ g) && decide (g < x.2.base / grainB + x.2.grains)).map (·.1)

/-- The grains of an extent. -/
def extGrains (e : Extent) : List Nat := (List.range e.grains).map fun i => e.base / grainB + i

/-- The extent's slot has MODE SEALED (R433). -/
def sealedExt (s : State) (e : Extent) : Bool := (slot s e.kslot).sealed

/-! ### Key-slot uses -/

/-- The slot is ACTIVE at a generation (R438). -/
def slotActive (s : State) (k gen : Nat) : Bool := decide ((slot s k).state = 1) && decide ((slot s k).gen = gen)

/-- The slot still holds the keys of a generation. -/
def slotLive (s : State) (k gen : Nat) : Bool := decide ((slot s k).state ≠ 0) && decide ((slot s k).gen = gen)

/-- A use taken. -/
def useTake (s : State) (k : Nat) : State := setSlot s k { slot s k with uses := (slot s k).uses + 1 }

/-- A use of a generation ends. -/
def useEnd (s : State) (k gen : Nat) : State :=
  if slotLive s k gen then setSlot s k { slot s k with uses := (slot s k).uses - 1 } else s

/-- An arrival that meets a zeroised generation (R441). -/
def keyLate (s : State) (k : Nat) : State :=
  let x := slot s k
  setSlot (ieCount s 1 1) k { x with late := min (x.late + 1) (2 ^ 32 - 1) }

/-! ### HBM frames -/

/-- Last pseudo-channel of pool HBM, plus 1. -/
def pchEnd (s : State) : Nat := if s.variant = .g1 then 64 else 128

/-- HBM frames of pool HBM (R384). -/
def frameCount (s : State) : Nat := (pchEnd s - 14) * 768

/-- The pseudo-channel of a frame. -/
def framePch (f : Nat) : Nat := 14 + f / 768

/-- A pseudo-channel. -/
def pch (s : State) (p : Nat) : Pch := tget {} s.ie.pch p

/-- Pseudo-channels assigned to a tenant. -/
def tenantPchs (s : State) (t : Nat) : List Nat :=
  (s.ie.pch.filter fun x => decide (x.2.state = 2) && decide (x.2.tenant = t) && decide (14 ≤ x.1) && decide (x.1 < pchEnd s)).map (·.1)

/-- Frames of a tenant. -/
def tenantFrames (s : State) (t : Nat) : Nat := 768 * (tenantPchs s t).length

/-- A frame holds no copy and is not reserved. -/
def frameFree (s : State) (f : Nat) : Bool := decide (tget 0 s.tr.frames f = 0) && decide (tget 0 s.tr.reserved f = 0)

/-- Frames of a tenant in use or reserved. -/
def tenantUsed (s : State) (t : Nat) : Nat :=
  let own := fun (x : Nat × Nat) => (tenantPchs s t).contains (framePch x.1)
  (s.tr.frames.filter own).length + (s.tr.reserved.filter own).length

/-- Free unreserved frames of a tenant. -/
def tenantFree (s : State) (t : Nat) : Nat := tenantFrames s t - tenantUsed s t

/-- The lowest free frame of a tenant's channels, barring some channels. -/
def findFrame (s : State) (t : Nat) (bar : List Nat) : Option Nat :=
  ((tenantPchs s t).filter fun p => !bar.contains p).findSome? fun p =>
    (List.range 768).findSome? fun i => let f := (p - 14) * 768 + i; if frameFree s f then some f else none

/-- The frame a grain of a pinned-tier extent takes: the lowest reserved for its extent. -/
def findReserved (s : State) (x : Nat) : Option Nat := (s.tr.reserved.find? fun r => decide (r.2 = x + 1)).map (·.1)

/-- A frame marked as holding the copy of a grain. -/
def takeFrame (s : State) (f g : Nat) : State :=
  { s with tr := { s.tr with frames := tput 0 s.tr.frames f (g + 1), reserved := tput 0 s.tr.reserved f 0 } }

/-- A frame freed; its bytes are gone. -/
def freeFrame (s : State) (f : Nat) : State :=
  { s with tr := { s.tr with frames := tput 0 s.tr.frames f 0, hbm := memClear s.tr.hbm (f * grainB) grainB } }

/-- A grain's move is given up: LOC stays (R395, R441). -/
def dropMove (s : State) (g : Nat) : State :=
  match s.tr.moves.find? fun m => m.2.active && decide (m.2.grain = g) with
  | none => s
  | some (n, m) =>
    let s := { s with tr := { s.tr with moves := tput {} s.tr.moves n {} } }
    let s := if m.running then dropLeave s 16 160 else cancelLeave s 16 (.move n)
    let s := if m.toLoc = 2 then { s with tr := { s.tr with frames := tput 0 s.tr.frames m.toFrame 0 } }
      else if m.toLoc = 3 then { s with tr := { s.tr with lframes := tput 0 s.tr.lframes m.toFrame 0 } } else s
    useEnd (setTier s g { tier s g with state := 0 }) m.slot m.gen

/-- A grain's copy dropped, and its move given up: LOC returns to the backing (R398, R535); the frame of a grain of a
pinned-tier extent stays reserved for it (R394). -/
def dropCopy (s : State) (g : Nat) : State :=
  let s := dropMove s g
  let e := tier s g
  let s := trCount s 1 1
  let s := if e.loc = 2 then
      let s := freeFrame s e.frame
      match extOf s g with
      | some x => if (ext s x).cls = 0 ∧ (ext s x).pin = 0 then { s with tr := { s.tr with reserved := tput 0 s.tr.reserved e.frame (x + 1) } } else s
      | none => s
    else if e.loc = 3 then { s with tr := { s.tr with lframes := tput 0 s.tr.lframes e.frame 0 } } else s
  setTier s g { e with loc := 1, frame := 0, dirty := 0, state := 0 }

/-! ### Failed grains and compositions -/

/-- Compositions with a region over a grain of this switch. -/
def compsOver (s : State) (g : Nat) : List Nat :=
  let lo := s.swNum * 2 ^ 48 + g * grainB
  ((s.tr.regions.filter fun r => r.2.status.enabled && decide (r.2.base < lo + grainB) && decide (lo < r.2.base + r.2.pages * 65536)).map
    (·.2.comp)).eraseDups

/-- A job stopped (R528, R129): it ends with a status once its issued writes have settled. Its stages, which run in state 3 alone,
send no more, a shard job no further triples (R167). -/
def stopJob (s : State) (q status : Nat) : State :=
  let s := tallyWait s q
  let x := seam s q
  match x.job with
  | none => s
  | some j =>
    if j.endStatus.isSome then s
    else
      let s := { s with sa := { s.sa with welts := s.sa.welts.map fun w =>
        if w.seam = q ∧ w.opened = true then { w with opened := false, closedAt := some s.now } else w } }
      setSeam s q { x with job := some { j with endStatus := some status }, state := 8, wait := 0 }

/-- A message to an endpoint of this switch; one that stands behind no port here is not sent (log entry 30), but before boot stage
READY it waits for its port (R489). -/
def notify (s : State) (c ep : Nat) (data : Bytes) : State :=
  match endpointPort s ep with
  | none => if s.cc.stage = 6 then s else { s with te := { s.te with notices := s.te.notices ++ [(c, ep, data)] } }
  | some _ =>
    issueNew s { op := 0x07, src := ownId s, dst := s.swNum * 2 ^ 48 + ep, comp := c, mapE := curEpoch s c, rsw := s.swNum,
                 len := data.length, data := data } .notice

/-- A CREATED or ACTIVE composition fails (R528): its state, one record, a message to each member, and
its running jobs stop. -/
def failComp (s : State) (c cause fa ep : Nat) : State :=
  let x := comp s c
  if x.state = 1 ∨ x.state = 2 then
    let s := { s with tr := { s.tr with comps := tput {} s.tr.comps c { x with state := 3 } } }
    let s := faultRecord s x.part 4 [w64 (place 0 12 c + place 32 16 x.tenant + place 56 4 cause), w64 (place 0 60 fa), w64 (place 0 16 ep)]
    let s := (if x.curLive then x.cur.members else []).foldl
      (fun s m => notify s c m ([0x46, 0] ++ bytesLE 2 c ++ bytesLE 4 cause)) s
    (tkeys s.sa.seqs).foldl (fun s q => if (seam s q).job.any (fun j => decide (j.comp = c)) then stopJob s q 8 else s) s
  else s

/-- A grain becomes FAILED, its move given up, and every composition with a region over it fails (R398). -/
def failGrain (s : State) (g cause : Nat) : State :=
  let s := dropMove s g
  let e := tier s g
  let s := trCount s 4 1
  let s := if e.loc = 2 then freeFrame s e.frame
    else if e.loc = 3 then { s with tr := { s.tr with lframes := tput 0 s.tr.lframes e.frame 0 } } else s
  let s := setTier s g { loc := 4 }
  (compsOver s g).foldl (fun s c => failComp s c cause (s.swNum * 2 ^ 48 + g * grainB) 0) s

/-! ### Encryption at rest -/

/-- A tweak multiplied `n` times by α. -/
def xtsSkip : Nat → BitVec 128 → BitVec 128
  | 0, t => t
  | n + 1, t => xtsSkip n (xtsMul t)

/-- Blocks of one data unit from a 16-byte-aligned pool offset enciphered or deciphered (R429). -/
def xtsUnit (k : KeySlot) (dec : Bool) (off : Nat) (bs : Bytes) : Bytes :=
  let ks := sm4RoundKeys k.dataKey
  xtsBlocks (sm4With (if dec then ks.reverse else ks)) (bs.length / 16)
    (xtsSkip (off % 4096 / 16) (sm4Enc k.tweakKey (blockOf (bytesLE 16 (off / 4096))))) bs

/-- `n` data units from an aligned offset. -/
def xtsUnits (k : KeySlot) (dec : Bool) : Nat → Nat → Bytes → Bytes
  | 0, _, _ => []
  | n + 1, off, bs => xtsUnit k dec off (bs.take 4096) ++ xtsUnits k dec n (off + 4096) (bs.drop 4096)

/-- Ciphertext of whole blocks at a pool offset: within one data unit, or whole units. -/
def encipher (k : KeySlot) (off : Nat) (bs : Bytes) : Bytes :=
  if bs.length ≤ 4096 then xtsUnit k false off bs else xtsUnits k false (bs.length / 4096) off bs

/-- Plaintext of whole blocks at a pool offset. -/
def decipher (k : KeySlot) (off : Nat) (bs : Bytes) : Bytes :=
  if bs.length ≤ 4096 then xtsUnit k true off bs else xtsUnits k true (bs.length / 4096) off bs

/-- The MAC of a 256-byte line of a sealed extent (R434). -/
def lineMac (k : KeySlot) (x off : Nat) (cipher : Bytes) : Bytes :=
  (bytesOf (cmac k.macKey (cipher ++ bytesLE 8 x ++ bytesLE 8 off))).take 8

/-- The MACs of consecutive lines. -/
def lineMacs (k : KeySlot) (x : Nat) : Nat → Nat → Bytes → Bytes
  | 0, _, _ => []
  | n + 1, off, c => lineMac k x off (c.take 256) ++ lineMacs k x n (off + 256) (c.drop 256)

/-! ### Operations of requests (R267–R269) -/

/-- ATOMIC operation code `op` on operands of `w` bytes (*Atomic operations*). -/
def atomicOp (op w old a b : Nat) : Nat :=
  let m := 2 ^ (8 * w)
  match op with
  | 0 => (old + a) % m
  | 1 => a
  | 2 => if old = a then b else old
  | 3 => min old a
  | 4 => max old a
  | 5 => if signed (8 * w) a < signed (8 * w) old then a else old
  | 6 => if signed (8 * w) old < signed (8 * w) a then a else old
  | 7 => old &&& a
  | 8 => old ||| a
  | 9 => old ^^^ a
  | _ => old

/-- Bytes of an ATOMIC operand from its OPW code. -/
def opWidth (opw : Nat) : Nat := 2 ^ opw

/-- One element of a plain reduce-write to memory: combined in FP32 and rounded once (R269). -/
def redElem (op ty old x : Nat) : Nat :=
  if op = 0 then
    if ty = 0xD then (iadd old x).v
    else (elemRound ty 0 ((elemVal ty old).add (elemVal ty x))).v
  else
    let a := elemVal ty old
    let b := elemVal ty x
    match a.cmp b with
    | none => (elemRound ty 0 .nan).v
    | some c => if op = 3 then (if c < 0 then x else old) else (if c > 0 then x else old)

/-- An LSE contribution or line of 136 bytes as a triple (R160). -/
def lseOfBytes (bs : Bytes) : Lse :=
  { m := leAt bs 0 4, l := leAt bs 4 4, o := (elemsLE 2 64 (bs.drop 8)).map fun x => redIn 1 x }

/-- A triple as 136 bytes, o rounded to BF16 under RNE. -/
def bytesOfLse (t : Lse) : Res Bytes :=
  (resMap (fun x => elemRound 1 0 (f32 x)) t.o).bind fun o => ⟨bytesLE 4 t.m ++ bytesLE 4 t.l ++ bytesElems 2 o, 0⟩

/-- A REDW's effect on the bytes it covers (R269). -/
def redwBytes (op ty : Nat) (old x : Bytes) : Bytes :=
  if op = 2 then (bytesOfLse (lseMerge 0 (lseOfBytes old) (lseOfBytes x)).v).v
  else if op = 1 then
    let n := x.length / 8
    (List.range n).flatMap fun i =>
      let p := (addPair (leAt old (8 * i) 4, leAt old (8 * i + 4) 4) (leAt x (8 * i) 4, leAt x (8 * i + 4) 4)).v
      bytesLE 4 p.1 ++ bytesLE 4 p.2
  else
    let k := elemBytes ty
    bytesElems k (List.zipWith (redElem op ty) (elemsLE k (x.length / k) old) (elemsLE k (x.length / k) x))

/-- The element types and operations a REDW to memory may carry (R269). -/
def redwTypeOk (op ty : Nat) : Bool :=
  if op = 2 then true
  else if op = 1 then decide (ty = 0)
  else decide (op ≤ 4) && (decide (ty ≤ 4) || decide (ty = 0xD))

/-- A REDW's payload is whole elements, aligned, within one 256-byte line; LSE takes the first 136
bytes of a line. -/
def redwShapeOk (op ty dst len : Nat) : Bool :=
  if op = 2 then decide (dst % 256 = 0) && decide (len = 136)
  else
    let k := if op = 1 then 8 else elemBytes ty
    decide (len % k = 0) && decide (dst % k = 0) && decide (dst % 256 + len ≤ 256)

/-- Internal operation codes of owner-word instructions, which share the read, modify and write path
of an ATOMIC (R410): HANDOFF SEND, HANDOFF ACCEPT and RECLAIM. -/
def opHandoffSend : Nat := 0x80
/-- HANDOFF ACCEPT. -/
def opHandoffAccept : Nat := 0x81
/-- RECLAIM. -/
def opReclaim : Nat := 0x82

/-- Owner word from its fields (*Owner word*). -/
def ownerWord (owner dest gen st dl : Nat) : Nat := place 48 16 owner + place 32 16 dest + place 24 8 gen + place 22 2 st + place 0 22 dl

/-- Signed difference of two 22-bit times in µs (R410). -/
def time22 (a b : Nat) : Int := signed 22 (a % 2 ^ 22 + 2 ^ 22 - b % 2 ^ 22)

/-- An owner-word operation (R411): the new word and the reason code. SELF in [15:0] of the operand,
DEST in [31:16], GEN in [39:32], DURATION in [95:64] of the 16-byte operand. -/
def ownerOp (op now w a : Nat) : Nat × Nat :=
  let self := fldN a 0 16
  let dest := fldN a 16 16
  let gen := fldN a 32 8
  let own := fldN w 48 16
  let st := fldN w 22 2
  let us := now / 1000
  if op = opHandoffSend then
    if st = 0 ∧ own = self ∧ fldN w 24 8 = gen then (ownerWord self dest (gen + 1) 1 (us + fldN a 64 32), 0) else (w, 0x0906)
  else if op = opHandoffAccept then
    if st = 1 ∧ fldN w 32 16 = self ∧ fldN w 24 8 = gen then
      (if time22 us (fldN w 0 22) < 0 then (ownerWord self 0 (gen + 1) 0 0, 0) else (w, 0x0907))
    else (w, 0x0906)
  else
    if st = 1 ∧ own = self ∧ fldN w 24 8 = gen then
      (if 0 ≤ time22 us (fldN w 0 22) then (ownerWord self 0 (gen + 1) 0 0, 0) else (w, 0x0908))
    else (w, 0x0906)

/-- Bytes of memory a request covers: a READ's LEN, an ATOMIC's width, else its payload. -/
def coverLen (f : Frame) : Nat :=
  if f.op = 0x01 then f.len else if f.op = 0x04 then opWidth f.opw else if 0x80 ≤ f.op then 8 else f.data.length

/-- Payload bytes over old ones under byte enables (R256). -/
def mergeBE (be : List Bool) (old new : Bytes) : Bytes :=
  if be.isEmpty then new
  else (List.range new.length).map fun i => if be.getD i false then new.getD i 0 else old.getD i 0

/-- A request's effect on the bytes it covers: their new contents, and the reply. -/
def applyOp (now : Nat) (f : Frame) (old : Bytes) : Bytes × Bytes :=
  if f.op = 0x01 then (old, old)
  else if f.op = 0x04 then
    let w := opWidth f.opw
    let o := leAt old 0 w
    (bytesLE w (atomicOp f.subop w o (leAt f.data 0 w) (leAt f.data w w)), bytesLE w o)
  else if f.op = 0x05 then (redwBytes f.subop f.etype old f.data, [])
  else if 0x80 ≤ f.op then
    let r := ownerOp f.op now (leAt old 0 8) (leAt f.data 0 16)
    (bytesLE 8 r.1, bytesLE 8 r.2)
  else (mergeBE f.be old f.data, [])

/-! ### Where a grain's data stand -/

/-- Plaintext bytes of a grain's HBM copy, zeros of an UNTOUCHED grain; none when they stand elsewhere. -/
def hereBytes (s : State) (off n : Nat) : Option Bytes :=
  let e := tier s (off / grainB)
  if e.loc = 0 then some (List.replicate n 0)
  else if e.loc = 2 then some (memRead s.tr.hbm (e.frame * grainB + off % grainB) n)
  else none

/-- A backing lacks a sub-grain that waits for resync (R397). -/
def backingLacks (e : Extent) (mirrorSide : Bool) (off : Nat) : Bool :=
  e.resync.contains ((off - e.base) / 65536, mirrorSide)

/-- The location a read without a local copy is served from: the lease copy, the primary backing, or
the mirror when the primary is down or lacks the data; none when no backing is reachable. -/
def readSrc (s : State) (e : Extent) (off : Nat) : Option Nat :=
  let t := tier s (off / grainB)
  if t.loc = 3 then some 3
  else if e.bport ≠ 0xFF ∧ portUp s e.bport = true ∧ backingLacks e false off = false then some 1
  else if e.mirror ∧ portUp s e.mport = true ∧ backingLacks e true off = false then some 2
  else none

/-- Scratch class (R393). -/
def scratch (e : Extent) : Bool := decide (e.cls = 3)

/-- Where the first write places a grain (R386): HBM for pinned-tier with PIN 0, for scratch with a free
frame, and where there is no backing; else the backing. DESIGN CHOICE: log entry 21. -/
def placeFrame (s : State) (x : Nat) (e : Extent) : Option Nat :=
  let t := (comp s e.comp).tenant
  if e.cls = 0 ∧ e.pin = 0 then findReserved s x
  else if scratch e = true ∨ e.bport = 0xFF then findFrame s t []
  else none

/-- The move under way of a grain whose sub-grain at an offset has been copied already (R395 step 3). -/
def movedPast (s : State) (off : Nat) : Option Move :=
  (s.tr.moves.find? fun m => m.2.active && decide (m.2.grain = off / grainB) && decide (off % grainB / 65536 < m.2.next)).map (·.2)

/-- A write to a sub-grain already copied goes to a destination off the module too: 4 a lease frame, 1
the backing. -/
def moveLocs (s : State) (off : Nat) : List Nat :=
  match movedPast s off with
  | some m => if m.toLoc = 3 then [4] else if m.toLoc = 1 then [1] else []
  | none => []

/-- Locations off the module a write goes to (R387, R397): the lease copy, and the backings of a durable
grain or of one without a copy, those that are up. -/
def writeLocs (s : State) (e : Extent) (off : Nat) (toFrame : Bool) : List Nat :=
  let t := tier s (off / grainB)
  let back := if scratch e && (toFrame || decide (t.loc = 2) || decide (t.loc = 3)) then []
    else (if e.bport ≠ 0xFF ∧ portUp s e.bport = true then [1] else []) ++ (if e.mirror ∧ portUp s e.mport = true then [2] else [])
  (if t.loc = 3 then [3] else []) ++ back ++ (moveLocs s off).filter fun l => !back.contains l

/-- A write that must reach a backing finds none up (R397). -/
def noBacking (s : State) (e : Extent) (off : Nat) (toFrame : Bool) : Bool :=
  let t := tier s (off / grainB)
  !(scratch e && (toFrame || decide (t.loc = 2) || decide (t.loc = 3)))
    && !(e.bport = 0xFF && (toFrame || decide (2 ≤ t.loc)))
    && !((e.bport ≠ 0xFF && portUp s e.bport) || (e.mirror && portUp s e.mport))

/-- A frame toward a location for an access to a pool offset: to the tray's own address, or to the
lender under the lease (R356, R401). -/
def locFrame (s : State) (e : Extent) (loc op off len tag id : Nat) (data : Bytes) : Frame × Option Nat :=
  let f : Frame := { op := op, tc := 1, src := ownId s, stream := reqId id, tag := tag, len := len, data := data }
  if loc = 3 ∨ loc = 4 then
    let fr := if loc = 3 then (tier s (off / grainB)).frame else ((movedPast s off).map (·.toFrame)).getD 0
    let l := lease s (fr / 2 ^ 18)
    ({ f with dst := l.peer * 2 ^ 48 + l.base + fr % 2 ^ 18 * grainB + off % grainB, region := 0xFF00 + l.please, rkey := l.rkey }, none)
  else if loc = 2 then ({ f with dst := e.moff * grainB + (off - e.base), comp := e.comp }, some e.mport)
  else ({ f with dst := e.boff * grainB + (off - e.base), comp := e.comp }, some e.bport)

/-- Tray address of the MACs of a pool offset's line, relative to the backing (R433). -/
def macOff (e : Extent) (off : Nat) : Nat :=
  let g := (off - e.base) / grainB
  e.grains * grainB + g * 65536 + off % grainB / 256 * 8

/-- A frame toward the MAC area of a backing. -/
def macFrame (s : State) (e : Extent) (loc op mo len tag id : Nat) (data : Bytes) : Frame × Option Nat :=
  let base := if loc = 2 then e.moff else e.boff
  ({ op := op, tc := 1, src := ownId s, stream := reqId id, tag := tag, len := len, data := data, comp := e.comp,
     dst := base * grainB + mo }, some (if loc = 2 then e.mport else e.bport))

/-- Frames of the LF7 issued for pending request `n`. -/
def issueAll (s : State) (n : Nat) (fs : List (Frame × Option Nat)) : State :=
  fs.foldl (fun s f => issue s f.1 (.mem n) f.2) s

/-! ### The course of an admitted request -/

/-- A pending request. -/
def pend (s : State) (n : Nat) : PendReq := tget {} s.tr.pend n

/-- A pending request replaced; an inactive one leaves the table. -/
def setPend (s : State) (n : Nat) (p : PendReq) : State := { s with tr := { s.tr with pend := tput {} s.tr.pend n p } }

/-- Granule of tray accesses: the 256-byte line in sealed extents and for operations applied on the line (R268), else the 32-byte
units of a READ. -/
def granule (s : State) (e : Extent) (f : Frame) : Nat := if sealedExt s e || taggedOp f.op || decide (0x80 ≤ f.op) then 256 else 32

/-- Reply-cache entry of a key. -/
def rcMatch (f : Frame) (e : RcEntry) : Bool :=
  e.used && decide (e.src = f.src) && decide (e.stream = f.stream) && decide (e.tagHi = f.tag / 256)

/-- An applied request recorded in the reply cache (R271, R272). -/
def rcRecord (s : State) (f : Frame) (v : W64) : State :=
  let put := fun (e : RcEntry) => { e with applied := tput none e.applied (f.tag % 256) (some v), expiry := s.now + 500000 }
  if s.te.rc.any (rcMatch f) then
    { s with te := { s.te with rc := s.te.rc.map fun e => if rcMatch f e then put e else e } }
  else
    { s with te := { s.te with rc := s.te.rc ++ [put { used := true, src := f.src, stream := f.stream, tagHi := f.tag / 256 }] } }

/-- The outcome of an owner-word operation reaches its program (R411, R412): status other than OK ends
the program; else its reason code completes the instruction. -/
def ownerDone (s : State) (cs status reason : Nat) : State :=
  let q := ctl s cs
  if q.wait ≠ .handoff then s
  else
    let s := addDirty (mapRecs s fun r =>
      if r.seq = q.seqNo ∧ r.kind = .program then { r with outcomes := r.outcomes ++ [(q.ordinal, status, reason)] } else r) 64
    if status ≠ 0 then progEnd s cs status 0 else ctlComplete s cs reason none none 0

/-- A lease frame that a grain has left, or was to take, still counts as its own while a request that was under way then runs
(R395 step 5): none of the grain's location and move names it. -/
def staleFrame (s : State) (fr g : Nat) : Bool :=
  !(decide ((tier s g).loc = 3) && decide ((tier s g).frame = fr))
    && !s.tr.moves.any fun m => m.2.active && decide (m.2.grain = g) && decide (m.2.toLoc = 3) && decide (m.2.toFrame = fr)

/-- Lease frames that a grain has left are freed once no request of the grain is under way (R395 step 5). -/
def sweepFrames (s : State) (g : Nat) : State :=
  if s.tr.pend.any fun p => p.2.active && decide (p.2.off / grainB = g) then s
  else { s with tr := { s.tr with lframes := s.tr.lframes.filter fun x => !(decide (x.2 = g + 1) && staleFrame s x.1 g) } }

/-- A request ends with a status: its reply, its reply-cache record if it was applied, and its use. -/
def reqEnd (s : State) (f : Frame) (k gen status : Nat) (reply : Bytes) : State :=
  let s := sweepFrames (useEnd s k gen) (faOff f.dst / grainB)
  if 0x80 ≤ f.op then ownerDone s f.stream status (leAt reply 0 8)
  else
    let s := if taggedOp f.op && decide (status = 0) then rcRecord s f (w64 (ofLE reply)) else s
    answer s f status (if status = 0 then reply else [])

/-- The slot generation was zeroised while the request held a use: its outcome is KEY_RETIRED (R441). -/
def keyGone (s : State) (p : PendReq) : Bool := !slotLive s p.slot p.gen

/-- Heat of a grain (R394). -/
def heatUp (s : State) (g : Nat) : State := { s with tr := { s.tr with heat := tmod 0 s.tr.heat g (· + 1) } }

/-- The changed bytes take their place in the HBM copy and the tier map, as the grain's class requires
(R385, R387, R431). -/
def landWrite (s : State) (e : Extent) (off : Nat) (plain : Bytes) (first : Bool) (fr : Option Nat) : State :=
  let g := off / grainB
  let s := heatUp s g
  let s := match fr with
    | some f => setTier (takeFrame s f g) g { loc := 2, frame := f, dirty := if scratch e then w32 (2 ^ 32 - 1) else 0 }
    | none => if first then setTier s g { tier s g with loc := 1 } else s
  let s := if first then stateRecord (ieCount s 3 1) 8 else s
  let t := tier s g
  let s := if t.loc = 2 then { s with tr := { s.tr with hbm := memWrite s.tr.hbm (t.frame * grainB + off % grainB) plain } } else s
  let s := match movedPast s off with
    | some m => if m.toLoc = 2 then { s with tr := { s.tr with hbm := memWrite s.tr.hbm (m.toFrame * grainB + off % grainB) plain } } else s
    | none => s
  let t := tier s g
  if scratch e && !first && (decide (t.loc = 2) || decide (t.loc = 3)) then
    setTier s g { t with dirty := t.dirty ||| w32 (2 ^ (off % grainB / 65536)) }
  else s

/-- A sub-grain recorded for resync of one backing (R397). -/
def needResync (s : State) (x : Nat) (off n : Nat) (mirrorSide : Bool) : State :=
  let e := ext s x
  let k0 := (off - e.base) / 65536
  let new := ((List.range (ceilDiv n 65536)).map fun i => (k0 + i, mirrorSide)).filter fun r => !e.resync.contains r
  setExt s x { e with resync := e.resync ++ new, degraded := true }

/-- The writes of a request have ended (R387, R397): its outcome and its effect here. -/
def writesDone (s : State) (n : Nat) : State :=
  let p := pend s n
  let e := ext s p.ext
  let s := setPend s n {}
  if keyGone s p then reqEnd (keyLate s p.slot) p.frame p.slot p.gen 0x0A []
  else
    let bad := fun l => p.failed.find? fun x => decide (x.1 = l)
    let b1 := (bad 1).isSome
    let b2 := (bad 2).isSome
    if p.failed.any (fun x => decide (x.1 < 3)) && !(e.mirror && !(b1 && b2)) then
      reqEnd s p.frame p.slot p.gen ((p.failed.find? fun x => decide (x.1 < 3)).map (·.2) |>.getD 6) []
    else
      let s := if (bad 4).isSome then dropMove s (p.off / grainB) else s
      let s := if b1 then needResync s p.ext p.off p.len false else s
      let s := if b2 then needResync s p.ext p.off p.len true else s
      if (bad 3).isSome && (scratch e || decide (e.bport = 0xFF)) then reqEnd (failGrain s (p.off / grainB) 3) p.frame p.slot p.gen 8 []
      else
        let s := if (bad 3).isSome then dropCopy s (p.off / grainB) else s
        let fr := if p.first then placeFrame s p.ext e else none
        reqEnd (landWrite s e p.off p.plain p.first fr) p.frame p.slot p.gen 0 p.reply

/-- Data frames of a write to one location, in pieces of at most 4 KiB. -/
def writeFrames (s : State) (e : Extent) (loc off id : Nat) (cipher : Bytes) : List (Frame × Option Nat) :=
  (List.range (ceilDiv cipher.length 4096)).map fun i =>
    let part := (cipher.drop (4096 * i)).take 4096
    locFrame s e loc 0x02 (off + 4096 * i) part.length (loc * 2048 + i) id part

/-- MAC frames of a write to one backing of a sealed extent. -/
def macFrames (s : State) (x : Nat) (e : Extent) (loc off id : Nat) (cipher : Bytes) : List (Frame × Option Nat) :=
  if sealedExt s e && decide (loc < 3) then
    let macs := lineMacs (slot s e.kslot) x (cipher.length / 256) off cipher
    (List.range (ceilDiv macs.length 4096)).map fun i =>
      let part := (macs.drop (4096 * i)).take 4096
      macFrame s e loc 0x02 (macOff e off + 4096 * i) part.length (loc * 2048 + 1024 + i) id part
  else []

/-- The writes of a request start: its plaintext is enciphered and sent to every location; with none to
wait for, it ends at once. A backing of a mirrored extent that is down is recorded for resync. -/
def startWrites (s : State) (n : Nat) (p : PendReq) : State :=
  let e := ext s p.ext
  let fr := if p.first then placeFrame s p.ext e else none
  if noBacking s e p.off fr.isSome then reqEnd (setPend s n {}) p.frame p.slot p.gen 6 []
  else
    let locs := writeLocs s e p.off fr.isSome
    let needB := !(scratch e && (fr.isSome || decide (2 ≤ (tier s (p.off / grainB)).loc)))
    let s := if needB && e.mirror && !locs.contains 1 then needResync s p.ext p.off p.len false else s
    let s := if needB && e.mirror && !locs.contains 2 then needResync s p.ext p.off p.len true else s
    if locs.isEmpty then writesDone (setPend s n { p with active := true, reading := false, waits := [] }) n
    else
      let cipher := encipher (slot s p.slot) p.off p.plain
      let id := s.te.nextId
      let fs := locs.flatMap fun l => writeFrames s e l p.off id cipher ++ macFrames s p.ext e l p.off id cipher
      let s := { s with te := { s.te with nextId := id + 1 } }
      issueAll (setPend s n { p with active := true, reading := false, waits := fs.map fun f => f.1.tag }) n fs

/-- The reads of a request start from a location. -/
def startReads (s : State) (n : Nat) (p : PendReq) (loc : Nat) : State :=
  let e := ext s p.ext
  let id := s.te.nextId
  let d := locFrame s e loc 0x01 p.off p.len (loc * 2048) id []
  let m := if sealedExt s e && decide (loc < 3) then
      [macFrame s e loc 0x01 (macOff e p.off / 32 * 32) (ceilDiv (macOff e p.off % 32 + p.len / 256 * 8) 32 * 32) (loc * 2048 + 1024) id []]
    else []
  let fs := d :: m
  let s := { s with te := { s.te with nextId := id + 1 } }
  issueAll (setPend s n { p with active := true, reading := true, src := loc, got := none, mac := none, waits := fs.map fun f => f.1.tag }) n fs

/-- A request whose plaintext of its range is at hand: a READ ends with it; any other request computes
its change and writes. -/
def withPlain (s : State) (n : Nat) (p : PendReq) (old : Bytes) : State :=
  let i := faOff p.frame.dst - p.off
  let k := coverLen p.frame
  let r := applyOp s.now p.frame ((old.drop i).take k)
  if p.frame.op = 0x01 then reqEnd (heatUp (setPend s n {}) (p.off / grainB)) p.frame p.slot p.gen 0 r.2
  else if 0x80 ≤ p.frame.op ∧ leAt r.2 0 8 ≠ 0 then reqEnd (setPend s n {}) p.frame p.slot p.gen 0 r.2
  else startWrites s n { p with plain := old.take i ++ r.1 ++ old.drop (i + k), reply := r.2 }

/-- A grain's data cannot be read from the copy or the backing that failed (R398): the next place that
holds them, or FAILED. `loc` is the location that failed, 0 an HBM copy. -/
def recover (s : State) (n : Nat) (p : PendReq) (loc : Nat) : State :=
  let e := ext s p.ext
  let g := p.off / grainB
  let t := tier s g
  let dead := fun (s : State) => reqEnd (failGrain (setPend s n {}) g 0) p.frame p.slot p.gen 8 []
  if loc = 0 ∨ loc = 3 then
    if t.dirty ≠ 0 ∨ e.bport = 0xFF then dead s
    else
      let s := trCount (dropCopy s g) 3 1
      match readSrc s e p.off with
      | some l => startReads s n p l
      | none => reqEnd (setPend s n {}) p.frame p.slot p.gen 6 []
  else if e.mirror && decide (loc = 1) && portUp s e.mport && !backingLacks e true p.off then
    startReads (trCount (needResync s p.ext p.off p.len false) 3 1) n p 2
  else dead s

/-- A read's data have all arrived: they are checked, deciphered and used. -/
def readsDone (s : State) (n : Nat) : State :=
  let p := pend s n
  let e := ext s p.ext
  let k := slot s p.slot
  if keyGone s p then reqEnd (keyLate (setPend s n {}) p.slot) p.frame p.slot p.gen 0x0A []
  else
    let c := p.got.getD []
    let macs := match p.mac with
      | none => true
      | some m => decide ((m.drop (macOff e p.off % 32)).take (p.len / 256 * 8) = lineMacs k p.ext (p.len / 256) p.off c)
    if macs then withPlain s n p (decipher k p.off c)
    else recover (ieCount s 2 1) n p p.src

/-- A frame issued for a pending request has its completion, or its timeout. -/
def memCpl (s : State) (n tag status : Nat) (media : Bool) (data : Bytes) : State :=
  let p := pend s n
  if !p.active || !p.waits.contains tag then s
  else
    let p := { p with waits := p.waits.erase tag }
    let loc := tag / 2048
    if p.reading then
      if media || (decide (status ≠ 0) && decide (loc = 3)) then recover (setPend s n p) n p loc
      else if status ≠ 0 then
        let e := ext s p.ext
        if e.mirror && decide (loc = 1) && portUp s e.mport && !backingLacks e true p.off then startReads s n p 2
        else reqEnd (setPend s n {}) p.frame p.slot p.gen status []
      else
        let p := if tag % 2048 = 0 then { p with got := some data } else { p with mac := some data }
        if p.waits.isEmpty then readsDone (setPend s n p) n else setPend s n p
    else
      let p := if status ≠ 0 ∨ media = true then { p with failed := p.failed ++ [(loc, if status = 0 then 6 else status)] } else p
      if p.waits.isEmpty then writesDone (setPend s n p) n else setPend s n p

/-- Two ranges of pool offsets meet. -/
def rangesMeet (a n b m : Nat) : Bool := decide (a < b + m) && decide (b < a + n)

/-- An earlier admitted request is under way on lines an access touches, or a migration copies the
sub-grain; the access waits (R259, R268, R395). -/
def lineBusy (s : State) (off n : Nat) : Bool :=
  let lo := off / 256 * 256
  let k := ceilDiv (off + n - lo) 256 * 256
  s.tr.pend.any fun p => p.2.active && (rangesMeet lo k p.2.off p.2.len)

/-- The first inactive index of the pending table. -/
def freePend (s : State) : Nat :=
  ((List.range (s.tr.pend.length + 1)).find? fun i => !(pend s i).active).getD 0

/-- Memory-side dies that carry a stack (R384, R445). -/
def memDies (s : State) : Nat := if s.variant = .g1 then 2 else 4

/-- Ways of a tenant in the tier-map caches (R421). -/
def tmcWays (s : State) (tn : Nat) : List Nat :=
  match s.ie.tenants.find? fun t => t.2.status.enabled && decide (t.2.id = tn) with
  | some t => (List.range 16).filter fun w => t.2.tmc.testBit w
  | none => []

/-- A lookup of a grain's tier-map entry hits and allocates in its tenant's ways alone (R421). The die, and the way that is
replaced, are the model's (log 135). -/
def tmcLook (s : State) (g tn : Nat) : State :=
  let d := g % memDies s * 16
  let l := tmcWays s tn
  if l.any fun w => decide (tget 0 s.ie.tmc (d + w) = g + 1) then s
  else match (l.find? fun w => decide (tget 0 s.ie.tmc (d + w) = 0)).or l.head? with
    | none => s
    | some w => { s with ie := { s.ie with tmc := tput 0 s.ie.tmc (d + w) (g + 1) } }

/-- An admitted request is served (R387): from the HBM copy or zeros at once, or through trays and
lenders. `ue`: the HBM copy meets an uncorrectable error. -/
def serve (s : State) (f : Frame) (x : Nat) (ue : Bool) : State :=
  let e := ext s x
  let off := faOff f.dst
  let g := off / grainB
  let t := tier s g
  let n := freePend s
  let s := useTake (tmcLook s g (comp s e.comp).tenant) e.kslot
  let gr := granule s e f
  let lo := off / gr * gr
  let p : PendReq := { active := true, frame := f, ext := x, off := lo, len := ceilDiv (off + coverLen f - lo) gr * gr,
                       slot := e.kslot, gen := e.kgen }
  if t.loc = 0 ∧ f.op ≠ 0x01 then
    let p := { p with off := g * grainB, len := grainB, first := true }
    withPlain s n p (List.replicate grainB 0)
  else if ue ∧ t.loc = 2 then recover s n p 0
  else match hereBytes s p.off p.len with
    | some old => withPlain s n p old
    | none =>
      if (f.op = 0x02 ∨ f.op = 0x03 ∨ f.op = 0x06) ∧ f.be = [] ∧ p.off = off ∧ p.len = f.data.length then withPlain s n p f.data
      else match readSrc s e off with
        | some l => startReads s n p l
        | none => reqEnd s f e.kslot e.kgen 6 []

/-! ### The LF7's own accesses by fabric address (R383) -/

/-- What an access of this switch to its own pool space meets: a status, or the extent. -/
def ownAccess (s : State) (fa n : Nat) : Nat × Option Nat :=
  let off := faOff fa
  if grainB * 134217727 < off + n then (3, none)
  else match extOf s (off / grainB) with
    | none => (3, none)
    | some x =>
      let e := ext s x
      if e.state ≠ 1 then (4, none)
      else if slotActive s e.kslot e.kgen = false then (0x0A, none)
      else if (tier s (off / grainB)).loc = 4 then (8, none)
      else (0, some x)

/-- A read of this switch's own pool memory when it completes: its status and bytes. Where the grain's
data stand in a tray or at a lender, or on another switch, they are those that came back. -/
def ownRead (s : State) (fa n status : Nat) (data : Bytes) : Nat × Bytes :=
  if faSwitch fa ≠ s.swNum then (status, data)
  else match ownAccess s fa n with
    | (0, _) => (match hereBytes s (faOff fa) n with | some b => (0, b) | none => (status, data))
    | (st, _) => (st, [])

/-- A write to this switch's own pool memory when it completes, `status` being that of the writes to
trays and lenders: the status, and the state with the bytes in place. -/
def ownWrite (s : State) (fa : Nat) (bs : Bytes) (status : Nat) : Nat × State :=
  if faSwitch fa ≠ s.swNum then (status, s)
  else match ownAccess s fa bs.length with
    | (0, some x) =>
      let e := ext s x
      let off := faOff fa
      let first := decide ((tier s (off / grainB)).loc = 0)
      let fr := if first then placeFrame s x e else none
      if noBacking s e off fr.isSome then (6, s)
      else if (writeLocs s e off fr.isSome ≠ []) ∧ status ≠ 0 then (status, s)
      else if first then
        let g := off / grainB
        (0, landWrite s e (g * grainB) ((List.replicate (off % grainB) 0) ++ bs ++ List.replicate (grainB - off % grainB - bs.length) 0) true fr)
      else (0, landWrite s e off bs false none)
    | (st, _) => (st, s)

end Sys2Proof.Machine
end

