-- ==== Sys2Proof/Machine/CpEnd.lean ====
section
/-! DEFINITION. The end of a control program other than by HALT: the watchdog (R73, R95), and a fence or
the destruction of a RUNTIME program's composition (R95); what the program waited for is given up. -/

namespace Sys2Proof.Machine

/-- A waiting sequencer's hold on what it waits for is dropped (R73, R408, R472). -/
def abandonWait (s : State) (cs : Nat) : State :=
  match (ctl s cs).wait with
  | .epochDrain c => { s with tr := { s.tr with comps := tmod {} s.tr.comps c fun x => { x with closing := false } } }
  | .fence => { s with te := { s.te with colls := tmap {} s.te.colls fun _ x => { x with waiters := x.waiters.filter fun w => decide (w.1 ≠ cs) } } }
  | .weights w => { s with tr := { s.tr with wsets := tmod {} s.tr.wsets w fun x => { x with hashing := false } } }
  | .install i =>
    let t := (tget {} s.gv.res i : GvRes).waitT
    { s with gv := { s.gv with res := tmod {} s.gv.res i fun r => { r with pend := none, closing := false }
                               ctr := tmod 0 s.gv.ctr 6 fun c => satInc c ((s.now - t) * 7 / 4) } }
  | .leave => cancelLeave s (ctl s cs).part (.prog cs)
  | .update => { s with te := { s.te with outst := s.te.outst.filter fun o => decide (o.what ≠ .ctlUpdate cs) } }
  | .handoff => { s with tr := { s.tr with pend := tmap {} s.tr.pend fun _ p =>
      if 0x80 ≤ p.frame.op ∧ p.frame.stream = cs then { p with frame := { p.frame with stream := 99 } } else p } }
  | .spare _ => { s with pc := { s.pc with pairs := tmap {} s.pc.pairs fun _ p => if p.reqCs = some cs then { p with reqCs := none } else p } }
  | _ => s

/-- A program ends before its HALT with a status and reason. -/
def endProg (s : State) (cs status reason : Nat) : State := progEnd (abandonWait s cs) cs status reason

/-- A program waits in a fence other than the fence of a whole composition. -/
def inOtherFence (s : State) (cs c : Nat) : Bool :=
  s.te.colls.any fun x => (decide (x.2.kind ≠ 0) || decide (x.2.comp ≠ c)) && x.2.waiters.any fun w => decide (w.1 = cs)

/-- RUNTIME programs of a composition end when it is fenced or destroyed, the one that waits for that
very fence when it completes (R95). -/
def fencePrograms (s : State) (c : Nat) : State :=
  (List.range 9).foldl (fun s cs =>
    let q := ctl s cs
    if q.state = 1 ∧ q.priv = 2 ∧ q.comp = c ∧ (q.wait ≠ .fence ∨ inOtherFence s cs c = true) then endProg s cs 9 0 else s) s

/-- WATCHDOG_EXPIRY (R73, R95): a program older than `CC_CP_WDOG` ends with TIMEOUT and s31. -/
def execWatchdogExpiry (cs : Nat) (s : State) : Host.Outcome State Fault Refusal :=
  .next (if working s && decide (cs < 9) && decide ((ctl s cs).state = 1) && decide ((ctl s cs).started + s.cc.wdog * 1000 ≤ s.now)
    then endProg s cs 0x0E (fld (sGet (ctl s cs).s 31) 0 16) else s)

end Sys2Proof.Machine
end

