-- ==== Sys2Proof/Machine/Welt.lean ====
section
/-! DEFINITION. Welts (R152–R160): their state in stage memory, contributions, finished lines and
the close. -/

namespace Sys2Proof.Machine

/-- Elements of a line of a welt (*Welt state per line*). -/
def weltElems (w : Welt) : Nat := if w.op = 2 then 64 else if w.inPair then 32 else 256 / elemBytes w.inType

/-- State bytes of a line. -/
def weltLineB (w : Welt) : Nat :=
  if w.op = 2 then 276 else if w.op = 1 then 8 * weltElems w + 4 else 4 * weltElems w + 4

/-- Bytes of a contribution. -/
def weltInB (w : Welt) : Nat := if w.op = 2 then 136 else 256

/-- Slice offset of a line's state. -/
def weltAt (w : Welt) (n : Nat) : Nat := w.stateOff + n * weltLineB w

/-- A line's count: the last four bytes of its state. -/
def weltCount (m : Mem) (w : Welt) (n : Nat) : Nat := ofLE (memRead m (weltAt w n + weltLineB w - 4) 4)

/-- An element's starting value: zero, −∞ for MAX, +∞ for MIN; an INT32 line takes the ends of INT32. -/
def weltZero (w : Welt) : Nat :=
  let int := decide (w.inType = 0xD)
  if w.op = 3 then (if int then 0x80000000 else 0xFF800000)
  else if w.op = 4 then (if int then 0x7FFFFFFF else 0x7F800000)
  else 0

/-- The state a line starts with (R153). -/
def weltLine0 (w : Welt) : Bytes :=
  if w.op = 2 then bytesLE 4 0xFF800000 ++ List.replicate 272 0
  else if w.op = 1 then List.replicate (weltLineB w) 0
  else (List.replicate (weltElems w) (bytesLE 4 (weltZero w))).flatten ++ List.replicate 4 0

/-- The open zeroes the state of every line. -/
def weltZeroAll (w : Welt) (m : Mem) : Mem :=
  (List.range w.lines).foldl (fun m n => memWrite m (weltAt w n) (weltLine0 w)) m

/-- One element of a SUM, MAX or MIN line combined with a contribution's (R140, R155). -/
def weltElem (w : Welt) (old x : Nat) : Res Nat :=
  let v := redIn w.inType x
  if w.inType = 0xD then (if w.op = 0 then iadd old v else ⟨if w.op = 3 then imax old v else imin old v, 0⟩)
  else if w.op = 0 then fadd old v
  else ⟨if w.op = 3 then fmax old v else fmin old v, 0⟩

/-- A line's data after one contribution (R155). -/
def weltCombine (w : Welt) (old x : Bytes) : Res Bytes :=
  let n := weltElems w
  if w.op = 2 then
    let st : Lse := { m := leAt old 0 4, l := leAt old 4 4, o := elemsLE 4 64 (old.drop 8) }
    (lseMerge 2 st (lseOfBytes x)).bind fun r => ⟨bytesLE 4 r.m ++ bytesLE 4 r.l ++ bytesElems 4 r.o ++ List.replicate 8 0, 0⟩
  else if w.op = 1 then
    let k := elemBytes w.inType
    (resMap (fun i =>
      let a := (leAt old (8 * i) 4, leAt old (8 * i + 4) 4)
      let b := if w.inPair then (leAt x (8 * i) 4, leAt x (8 * i + 4) 4) else (pairIn w.inType (leAt x (k * i) k), 0)
      addPair a b) (List.range n)).bind fun ps => ⟨ps.flatMap fun p => bytesLE 4 p.1 ++ bytesLE 4 p.2, 0⟩
  else
    let k := elemBytes w.inType
    (resMap (fun i => weltElem w (leAt old (4 * i) 4) (leAt x (k * i) k)) (List.range n)).bind fun es => ⟨bytesElems 4 es, 0⟩

/-- A value of a line's state as it is held. -/
def weltHeld (w : Welt) (x : Nat) : FVal := if w.inType = 0xD then elemVal 0xD x else f32 x

/-- A finished line's data (R156). Elements of OUT_TYPE in order; an LSE line has the layout of an LSE
contribution. -/
def weltFinish (w : Welt) (st : Bytes) : Res Bytes :=
  let n := weltElems w
  if w.op = 2 then bytesOfLse { m := leAt st 0 4, l := leAt st 4 4, o := elemsLE 4 64 (st.drop 8) }
  else
    let one := fun i =>
      if w.op = 1 then finishPair (leAt st (8 * i) 4, leAt st (8 * i + 4) 4) w.outType w.rc
      else elemRound w.outType w.rc (weltHeld w (leAt st (4 * i) 4))
    (resMap one (List.range n)).bind fun es =>
      let b := tileBits w.outType
      ⟨bytesLE (n * b / 8) (packBits b es), 0⟩

/-- A lace of a seam. -/
def laceOf (x : Seam) (l : Nat) : Lace := tget {} x.laces l

/-- Bytes put on a lace. -/
def lacePut (x : Seam) (l : Nat) (bs : Bytes) : Seam :=
  { x with laces := tmod {} x.laces l fun c => { c with q := c.q ++ bs } }

/-- The first `n` bytes taken from a lace. -/
def laceDrop (x : Seam) (l n : Nat) : Seam :=
  { x with laces := tmod {} x.laces l fun c => { c with q := c.q.drop n } }

/-- The lowest lace of a set. -/
def firstLace (m : Nat) : Nat := (laceList m).headD 0

/-- A stage of a seam. -/
def stageOf (x : Seam) (n : Nat) : Stage := tget {} x.stages n

/-- A stage replaced. -/
def putStage (x : Seam) (n : Nat) (g : Stage) : Seam := { x with stages := tput {} x.stages n g }

/-- Exception flags joined to a stage's sticky ones (R131). -/
def stageFlags (g : Stage) (f : Nat) : Stage :=
  { g with iv := g.iv || f.testBit 0, of := g.of || f.testBit 1, uf := g.uf || f.testBit 2 }

/-- A D unit is done with the block it decoded: the other buffer's is next (R192). -/
def nextBlock (g : Stage) : Stage := { g with buf := g.fill, fill := {} }

/-- The stage that serves a line (R154). -/
def weltServer (w : Welt) (n : Nat) : Nat := w.joined.getD (n % w.servers) 0

/-- A lace record of a line: its number as an INT32 padded to 32 bytes, then data (R156, R157). -/
def weltRecord (n : Nat) (data : Bytes) : Bytes := bytesLE 4 n ++ List.replicate 28 0 ++ data

/-- A welt replaced by its new form. -/
def setWelt (s : State) (w w' : Welt) : State :=
  { s with sa := { s.sa with welts := s.sa.welts.map fun x => if x.seam = w.seam ∧ x.seq = w.seq then w' else x } }

/-- One contribution applied to a line with its count (R154 step 7, R155, R156): a line that reaches
EXPECT is finished and emitted, and the last one closes the welt (R158). -/
def weltApply (s : State) (w : Welt) (n : Nat) (data : Bytes) : State :=
  let x := seam s w.seam
  let old := memRead x.mem (weltAt w n) (weltLineB w - 4)
  let r := weltCombine w old data
  let c := weltCount x.mem w n + 1
  let g := weltServer w n
  let x := { x with mem := memWrite x.mem (weltAt w n) (r.v ++ bytesLE 4 c) }
  let x := putStage x g (stageFlags (stageOf x g) r.f)
  if c = w.expect then
    let o := weltFinish w r.v
    let x := putStage x g (stageFlags (stageOf x g) o.f)
    let x := if (stageOf x g).outL = 0 then x else lacePut x (firstLace (stageOf x g).outL) (weltRecord n o.v)
    let w' := { w with finished := w.finished + 1 }
    let w' := if w'.finished = w.lines then { w' with opened := false, closedAt := some s.now } else w'
    setWelt (setSeam s w.seam x) w w'
  else setSeam s w.seam x

/-- A fabric address lies in a welt's range. -/
def weltCovers (w : Welt) (fa : Nat) : Bool := decide (w.base ≤ fa) && decide (fa < w.base + 256 * w.lines)

/-- The reply cache holds entries of a closed welt for its hold of 500 µs (R158, R271). -/
def weltRecent (s : State) (w : Welt) : Bool := match w.closedAt with
  | some t => decide (s.now < t + 500000)
  | none => false

/-- Outcome of a REDW to a welt-capable region: steps 3 to 7 of R154, as a status. -/
def weltJudge (s : State) (f : Frame) : Nat × Option Welt :=
  match s.sa.welts.find? fun w => w.opened && weltCovers w f.dst with
  | none => (if s.sa.welts.any (fun w => !w.opened && weltCovers w f.dst && weltRecent s w) then 5 else 1, none)
  | some w =>
    if f.dst % 256 ≠ 0 ∨ f.data.length ≠ weltInB w then (3, none)
    else if weltCount (seam s w.seam).mem w ((f.dst - w.base) / 256) = w.expect then (5, some w)
    else (0, some w)

end Sys2Proof.Machine
end

