-- ==== Sys2Proof/Machine/Target.lean ====
section
/-! DEFINITION. Requests at their target (R256–R263, R267–R277, R281, R282, R285–R290, R401, R424,
R432): the fields a request may carry, the admission checks in order, the reply cache, and what each
request does. -/

namespace Sys2Proof.Machine

/-! ### Fields (R256, R257, R342) -/

/-- Fields no request uses are zero, and fields its type does not use. -/
def fieldsOk (f : Frame) : Bool :=
  !f.mediaErr && !f.dropped && decide (f.status = 0)
  && (decide (f.op = 0x04) || decide (f.opw = 0)) && (decide (f.op = 0x05) || decide (f.etype = 0))
  && (decide (f.op = 0x04 ∨ f.op = 0x05) || decide (f.subop = 0))
  && (decide (f.op = 0x06) || decide (f.group = 0))
  && (decide (1 ≤ f.op ∧ f.op ≤ 6) || (decide (f.region = 0) && decide (f.rkey = 0)))
  && (taggedOp f.op || decide (f.issueT = 0))
  && (decide (f.op ≠ 0x03) || (decide (f.stream = 0) && decide (f.tag = 0)))
  && (decide (f.op = 0x02 ∨ f.op = 0x03) || f.be.isEmpty)
  && (f.be.isEmpty || decide (f.be.length = f.data.length))
  && (decide (f.op = 0x01) || decide (f.len = f.data.length))

/-- An access of n bytes does not cross a 4 KiB boundary. -/
def inPage (a n : Nat) : Bool := decide (a % 4096 + n ≤ 4096)

/-- The object window of R288. -/
def objBase : Nat := 0xFFFFFFF00000

/-- Class, length and alignment of a request (*Request types*, R267, R288). -/
def shapeOk (f : Frame) : Bool :=
  let n := f.data.length
  match f.op with
  | 0x01 => (decide (f.tc = 1) || decide (f.tc = 4)) && decide (n = 0) &&
      ((decide (f.len % 32 = 0) && decide (32 ≤ f.len ∧ f.len ≤ 4096) && decide (f.dst % 32 = 0) && inPage f.dst f.len)
        || (decide (objBase ≤ faOff f.dst) && decide (f.len = 8) && decide (f.dst % 8 = 0)))
  | 0x02 => (decide (f.tc = 1) || decide (f.tc = 4)) && decide (1 ≤ n ∧ n ≤ 4096) && inPage f.dst n
  | 0x03 => decide (f.tc = 1) && decide (1 ≤ n ∧ n ≤ 4096) && inPage f.dst n
  | 0x04 => decide (f.tc = 3) && decide (f.opw ≤ 3) && decide (f.subop ≤ 9)
      && decide (n = opWidth f.opw * (if f.subop = 2 then 2 else 1)) && decide (f.dst % opWidth f.opw = 0)
  | 0x05 => decide (f.tc = 3) && decide (1 ≤ n ∧ n ≤ 256)
  | 0x06 => decide (f.tc = 5) && decide (n % 32 = 0) && decide (32 ≤ n ∧ n ≤ 4096)
  | 0x07 => decide (f.tc = 0) && decide (8 ≤ n ∧ n ≤ 64)
  | 0x08 => decide (n = 0)
  | 0x09 => decide (f.tc = 3) && decide (n = 8)
  | 0x0A => decide (f.tc = 3) && decide (n = 8)
  | 0x0B => decide (f.tc = 0) && decide (n = 0)
  | 0x0C => decide (f.tc = 0)
  | _ => false

/-- A request's fields lie in their ranges. -/
def formOk (f : Frame) : Bool := fieldsOk f && shapeOk f

/-! ### Admission checks (R262, R409) -/

/-- Step 1: the map epoch (R409). -/
def epochCheck (s : State) (c e : Nat) : Nat :=
  let x := comp s c
  let d := (x.current + 256 - e % 256) % 256
  if !x.curLive then 5
  else if d = 0 then 0
  else if x.prevLive ∧ e = x.previous then 0
  else if 128 ≤ d then 1
  else 5

/-- The request's composition is fenced, or its source in it (R282). -/
def fencedReq (s : State) (f : Frame) : Bool := (fenceOf s f.comp).comp || (fenceOf s f.comp).peers.contains f.src

/-- A device-area object is being reloaded from the state image (R538). -/
def reloading (s : State) (kind : AreaObj) (n : Nat) : Bool :=
  s.tr.reload.any fun r => decide (r.kind = kind ∧ r.first ≤ n ∧ n < r.first + r.count ∧ s.now < r.till)

/-- Steps 1 and 2, with their counters; RETRY_LATER while the composition reloads (R538). -/
def epochFence (s : State) (f : Frame) : Nat × State :=
  if reloading s .comp f.comp then (1, s) else match epochCheck s f.comp f.mapE with
  | 0 => if fencedReq s f then (9, teCount s 7 1) else (0, s)
  | 1 => (1, trCount s 5 1)
  | st => (st, trCount s 6 1)

/-- Bytes from DST that a request's region must hold. -/
def spanLen (f : Frame) : Nat := if f.op = 0x01 then f.len else if f.op = 0x04 then opWidth f.opw else max 1 f.data.length

/-- The right a request needs: [2] Atomic, [1] Write, [0] Read. -/
def rightNeeded (op : Nat) : Nat := if op = 0x01 then 0 else if op = 0x04 ∨ op = 0x05 then 2 else 1

/-- A region. -/
def region (s : State) (r : Nat) : Region := tget {} s.tr.regions r

/-- Step 3: the region, its key and its rights. -/
def regionCheck (s : State) (f : Frame) : Nat × State :=
  let r := region s f.region
  if reloading s .region f.region then (1, s)
  else if !r.status.enabled || decide (r.comp ≠ f.comp) || decide (f.dst < r.base) || decide (r.base + r.pages * 65536 < f.dst + spanLen f) then (3, s)
  else if r.rkey ≠ f.rkey then (2, teCount s 8 1)
  else if r.rights.testBit (rightNeeded f.op) = false then (3, s)
  else (0, s)

/-- Context of the job an own request belongs to, from the outstanding request it is (R424). -/
def ctxOfOwn (s : State) (f : Frame) : Option Nat :=
  if f.src ≠ ownId s then none
  else match s.te.outst.find? fun o => decide (o.frame.stream = f.stream) && decide (o.frame.tag = f.tag) && decide (o.frame.dst = f.dst) with
    | none => none
    | some o => match o.what with
      | .piece q _ _ => ((seam s q).job).map (·.ctx)
      | .stageUpdate q _ => ((seam s q).job).map (·.ctx)
      | .copyRead e _ _ => some (tget {} s.te.copy e).ctx
      | .copyWrite e _ _ => some (tget {} s.te.copy e).ctx
      | _ => none

/-- A key slot is one of a context's valid slots. -/
def ctxReaches (s : State) (c k : Nat) : Bool :=
  let x : Ctx := tget {} s.ie.ctxs c
  (List.range 4).any fun i => x.slotV.testBit i && decide (x.slots.getD i 0 = k)

/-- A grain of a weight set that is being registered, registered or withdrawing is frozen (R413, R414). -/
def frozenGrain (s : State) (g : Nat) : Bool :=
  s.tr.wsets.any fun w => (w.2.status.enabled || w.2.hashing || w.2.status.draining) &&
    decide (faOff w.2.base / grainB ≤ g) && decide (g * grainB < faOff w.2.base + w.2.length)

/-- Step 5 for a region that is not welt-capable, with the tests of R424 and R432 before it where the extent is not FREE
(R389, R392), and the frozen grains of R413. -/
def extentCheck (s : State) (f : Frame) : Nat × State :=
  let r := region s f.region
  let e := ext s r.extent
  if reloading s .extent r.extent then (1, s)
  else if e.state = 0 then (4, s)
  else if e.grantee ≠ 0xFFFF ∧ f.src ≠ e.grantee ∧ f.src < 0xF000 then (3, s)
  else if (ctxOfOwn s f).any (fun c => !ctxReaches s c e.kslot) then (3, s)
  else if e.state ≠ 1 ∨ e.comp ≠ r.comp then (4, s)
  else if slotActive s e.kslot e.kgen = false then (0x0A, ieCount s 0 1)
  else if (tier s (faOff f.dst / grainB)).loc = 4 then (8, s)
  else if frozenGrain s (faOff f.dst / grainB) = true ∧ f.op ≠ 0x01 then (3, s)
  else (0, s)

/-- Step 5 and the tests before application of step 6. -/
def lastChecks (s : State) (f : Frame) : Nat × State :=
  let r := region s f.region
  if r.welt then (if f.op = 0x05 then (0, s) else (3, s))
  else
    let c := extentCheck s f
    if c.1 ≠ 0 then c
    else if f.op = 0x05 ∧ !(redwTypeOk f.subop f.etype && redwShapeOk f.subop f.etype f.dst f.data.length) then (3, c.2)
    else c

/-! ### Reply cache (R271–R275, R538) -/

/-- What a tagged request meets in the reply cache. -/
inductive Cache where
  | hit (v : W64)
  | refuse (status : Nat)
  | fresh
deriving DecidableEq, Repr

/-- The applied value of a key. -/
def rcFind (s : State) (f : Frame) : Option W64 := (s.te.rc.find? (rcMatch f)).bind fun e => tget none e.applied (f.tag % 256)

/-- own_restored of R275, as far as the cache and the address do not decide it. -/
def ownRestored (s : State) (f : Frame) : Bool :=
  decide (f.src = ownId s) && match replayFrom s with
    | some t => decide (f.issueT < t)
    | none => false

/-- The loss rule of R538 stands for a request. -/
def rcLost (s : State) (f : Frame) : Bool := match s.te.tLost with
  | some t => decide (s.now < t + 500000) && decide (f.issueT ≤ t)
  | none => false

/-- The steps of R272 before and after step 5. -/
def cacheStep (s : State) (f : Frame) : Cache :=
  match rcFind s f with
  | some v => .hit v
  | none =>
    if s.now + 1000 < f.issueT then .refuse 3
    else if rcLost s f then .refuse 7
    else if f.issueT + 499000 ≤ s.now ∧ ownRestored s f = false then .refuse 7
    else .fresh

/-- The reply-cache entry a key needs. -/
def rcKey (f : Frame) : Nat × Nat × Nat := (f.src, f.stream, f.tag / 256)

/-- Entries that tagged requests under way will open. -/
def rcDue (s : State) : List (Nat × Nat × Nat) :=
  ((s.tr.pend.filter fun p => p.2.active && taggedOp p.2.frame.op && !s.te.rc.any (rcMatch p.2.frame)).map fun p => rcKey p.2.frame).eraseDups

/-- No entry of the reply cache is this key's, and none is left for it (R271). -/
def rcFull (s : State) (f : Frame) : Bool :=
  !s.te.rc.any (rcMatch f) && !(rcDue s).contains (rcKey f) && decide (65536 ≤ s.te.rc.length + (rcDue s).length)

/-- Reply data of a duplicate: the old value of an ATOMIC. -/
def hitData (f : Frame) (v : W64) : Bytes := if f.op = 0x04 then bytesLE (opWidth f.opw) v.toNat else []

/-- A tagged request after the admission checks (R272): `last` gives step 5 and the block's own tests,
`go` applies it. -/
def tagged (s : State) (f : Frame) (last : State → Nat × State) (go : State → State) : State :=
  match cacheStep s f with
  | .hit v => answer (teCount s 0 1) f 0 (hitData f v)
  | .refuse st => answer (if st = 7 then teCount s 1 1 else s) f st
  | .fresh =>
    let c := last s
    if c.1 ≠ 0 then answer c.2 f c.1
    else if rcFull s f then answer (teCount s 2 1) f 1
    else go s

/-! ### Requests to memory -/

/-- A request addressed to this switch. -/
def atTarget (s : State) (f : Frame) : Bool := working s && decide (faSwitch f.dst = s.swNum)

/-- The object an address of the object window names (R288). -/
def objAt (s : State) (n : Nat) : SyncObj := tget {} s.te.sync n

/-- A READ of the object window (R288). -/
def readObject (s : State) (f : Frame) : State :=
  let n0 := (faOff f.dst - objBase) / 8
  let ns := (List.range (f.len / 8)).map (n0 + ·)
  if ns.all (fun n => decide (n < 16384) && (objAt s n).status.enabled && decide ((objAt s n).comp = f.comp)) = true
  then answer s f 0 (ns.flatMap fun n => bytesLE 8 (objAt s n).value.toNat)
  else answer s f 3

/-- Lease traffic at the lender (R401): its one check, and the lender's bytes, which are the borrower's
ciphertext. Frames of an HBM lease hold them; those of a tray lease are kept beyond the HBM frames. -/
def leaseTraffic (s : State) (f : Frame) : State :=
  let n := f.region - 0xFF00
  let l := lease s n
  let off := faOff f.dst
  if reloading s .lease n then answer s f 1
  else if (l.state = 2 ∨ l.state = 3) ∧ l.borrower = false ∧ f.src = 0xF000 + l.peer ∧ (f.op = 0x01 ∨ f.op = 0x02)
      ∧ l.base ≤ off ∧ off + spanLen f ≤ l.base + l.grains * grainB ∧ l.rkey = f.rkey then
    let i := (off - l.base) / grainB
    let a := (if l.medium = 0 then l.frames.getD i 0 else 2 ^ 20 + n * 2 ^ 18 + i) * grainB + off % grainB
    if f.op = 0x01 then answer s f 0 (memRead s.tr.hbm a f.len)
    else
      let new := mergeBE f.be (memRead s.tr.hbm a f.data.length) f.data
      answer { s with tr := { s.tr with hbm := memWrite s.tr.hbm a new } } f 0
  else answer s f 3

/-- A request is lease traffic: a switch's own, to a lease's region (R401). -/
def isLease (f : Frame) : Bool := decide (0xFF00 ≤ f.region) && decide (0xF000 ≤ f.src)

/-- Two requests of one target belong to one ordered flow (R259). -/
def sameFlow (f g : Frame) : Bool := decide (f.src = g.src) && decide (f.tc = g.tc) && decide (f.region = g.region)

/-- Two requests touch one 256-byte line (R268). -/
def sameLine (f g : Frame) : Bool :=
  rangesMeet (faOff f.dst / 256 * 256) (faOff f.dst % 256 + max 1 (spanLen f)) (faOff g.dst / 256 * 256) (ceilDiv (faOff g.dst % 256 + max 1 (spanLen g)) 256 * 256)

/-- Requests that wait at the target and came before one. -/
def ahead (s : State) (f : Frame) : List Frame := s.te.waitq.takeWhile (· ≠ f)

/-- An earlier request of the flow has not been applied (R259). -/
def flowBusy (s : State) (f : Frame) : Bool :=
  s.tr.pend.any (fun p => p.2.active && sameFlow p.2.frame f) || (ahead s f).any (sameFlow f)

/-- A memory request that passes the checks waits while an earlier one of its flow, or on its lines, is under way or waits
(R259, R268). -/
def memWaits (s : State) (f : Frame) : Bool :=
  lineBusy s (faOff f.dst) (max 1 (spanLen f)) || flowBusy s f || (ahead s f).any (sameLine f)

/-- A request that waits keeps its place among those that do. -/
def holdBack (s : State) (f : Frame) : State :=
  if s.te.waitq.contains f then s else { s with te := { s.te with waitq := s.te.waitq ++ [f] } }

/-- A request taken up no longer waits. -/
def takeUp (s : State) (f : Frame) : State :=
  if s.te.waitq.contains f then { s with te := { s.te with waitq := s.te.waitq.erase f } } else s

/-- A request that has passed the checks is served; one that waits leaves the state `s0` in which it was taken up, but for its place. -/
def serveInTurn (s0 s : State) (f : Frame) (x : Nat) (ue : Bool) : State := if memWaits s0 f then holdBack s0 f else serve s f x ue

/-- A READ, WRITE or PWRITE, or a copy of an MCW, at its target (R262, R263). -/
def memRequest (s0 : State) (f : Frame) (ue : Bool) : State :=
  let s := takeUp s0 f
  if formOk f = false then answer s f 3
  else if isLease f then leaseTraffic s f
  else
    let a := epochFence s f
    if a.1 ≠ 0 then answer a.2 f a.1
    else if objBase ≤ faOff f.dst then (if f.op = 0x01 then readObject a.2 f else answer a.2 f 3)
    else
      let b := regionCheck a.2 f
      if b.1 ≠ 0 then answer b.2 f b.1
      else
        let c := lastChecks b.2 f
        if c.1 ≠ 0 then answer c.2 f c.1
        else serveInTurn s0 c.2 f (region s f.region).extent ue

/-- An ATOMIC or REDW at its target. -/
def tagRequest (s0 : State) (f : Frame) : State :=
  let s := takeUp s0 f
  if formOk f = false then answer s f 3
  else
    let a := epochFence s f
    if a.1 ≠ 0 then answer a.2 f a.1
    else if objBase ≤ faOff f.dst then answer a.2 f 3
    else
      let b := regionCheck a.2 f
      if b.1 ≠ 0 then answer b.2 f b.1
      else
        let r := region s f.region
        tagged b.2 f (fun s => lastChecks s f) fun s' =>
          if r.welt then
            match weltJudge s' f with
            | (0, some w) => answer (rcRecord (weltApply s' w ((f.dst - w.base) / 256) f.data) f 0) f 0
            | (st, some w) => answer (setWelt s' w { w with excess := w.excess + 1 }) f st
            | (st, none) => answer s' f st
          else serveInTurn s0 s' f r.extent false

/-- READ_REQUEST (R262, R387): a READ reaches this switch. -/
def execReadRequest (f : Frame) (ue : UeSet) (s : State) : Host.Outcome State Fault Refusal :=
  .next (if atTarget s f && decide (f.op = 0x01) then memRequest s f ue.copy else s)

/-- WRITE_REQUEST (R262, R387): a WRITE, or a multicast copy at its member's target (R276). -/
def execWriteRequest (f : Frame) (s : State) : Host.Outcome State Fault Refusal :=
  .next (if atTarget s f && (decide (f.op = 0x02) || decide (f.op = 0x06))
    then memRequest s { f with group := 0 } false else s)

/-- PWRITE_REQUEST (R263). -/
def execPwriteRequest (f : Frame) (s : State) : Host.Outcome State Fault Refusal :=
  .next (if atTarget s f && decide (f.op = 0x03) then memRequest s f false else s)

/-- ATOMIC_REQUEST (R267, R268). -/
def execAtomicRequest (f : Frame) (s : State) : Host.Outcome State Fault Refusal :=
  .next (if atTarget s f && decide (f.op = 0x04) then tagRequest s f else s)

/-- REDW_REQUEST (R154, R269). -/
def execRedwRequest (f : Frame) (s : State) : Host.Outcome State Fault Refusal :=
  .next (if atTarget s f && decide (f.op = 0x05) then tagRequest s f else s)

/-! ### Synchronisation objects (R285–R290) -/

/-- The value an ARRIVE of c gives, none where the kind does not allow it. -/
def arriveValue (o : SyncObj) (c : Nat) : Option Nat :=
  if o.kind = 0 then some ((o.value.toNat + c) % 2 ^ 64)
  else if o.kind = 1 ∧ o.n ≠ 0 then
    let n := fld o.value 0 32 + c
    some (place 32 32 (fld o.value 32 32 + n / o.n) + n % o.n)
  else none

/-- The value a SIGNAL of v gives. -/
def signalValue (o : SyncObj) (v : Nat) : Option Nat := if o.kind = 0 ∨ o.kind = 2 then some (v % 2 ^ 64) else none

/-- The test of a WAITCNT on a value (R251). -/
def countTest (v thr : Nat) (eq : Bool) : Bool := if eq then decide (v = thr) else decide (thr ≤ v)

/-- A wait for a count tests the value that an update has left in its object (R252). -/
def CpWait.tests (n v : Nat) : CpWait → CpWait
  | .count obj thr eq rd dl met => .count obj thr eq rd dl (met || (decide (obj = n) && countTest v thr eq))
  | w => w

/-- Every WAITCNT tests the value after an update (R252). -/
def testWaits (s : State) (n v : Nat) : State :=
  { s with cc := { s.cc with seqs := tmap {} s.cc.seqs fun _ q => { q with wait := q.wait.tests n v } }
           sa := { s.sa with seqs := tmap {} s.sa.seqs fun _ q => { q with cwait := q.cwait.tests n v } } }

/-- An object's new value, tested by those that wait for it (R252), with the message of a crossing (R287). -/
def setObject (s : State) (n v : Nat) : State :=
  let o := objAt s n
  let s := testWaits { s with te := { s.te with sync := tput {} s.te.sync n { o with value := w64 v } } } n v
  if o.notify && decide (o.value.toNat < o.thr) && decide (o.thr ≤ v) then
    notify s o.comp o.ep ([0x53, 0] ++ bytesLE 2 n ++ List.replicate 4 0 ++ bytesLE 8 v)
  else s

/-- The value an update of an object gives for a composition, none where it is refused (R285, R290). -/
def updateValue (s : State) (n c : Nat) (signal : Bool) (v : Nat) : Option Nat :=
  let o := objAt s n
  if o.status.enabled = false ∨ o.comp ≠ c then none
  else if signal then signalValue o v else arriveValue o v

/-- The remote update of a control program under composition 0, which is how an FM program's is told: it reaches objects of any
composition (R250; DESIGN CHOICE, log 26). -/
def fmUpdate (f : Frame) : Bool := decide (0xF000 ≤ f.src) && decide (f.stream / 256 % 32 = 30) && decide (f.comp = 0)

/-- The composition whose objects an update reaches. -/
def updReach (s : State) (f : Frame) : Nat := if fmUpdate f then (objAt s (f.dst % 16384)).comp else f.comp

/-- An ARRIVE or SIGNAL at its target (R290). -/
def syncRequest (s0 : State) (f : Frame) : State :=
  let s := takeUp s0 f
  let n := f.dst % 16384
  if formOk f = false ∨ faOff f.dst < objBase then answer s f 3
  else
    let a := if fmUpdate f then (0, s) else epochFence s f
    if a.1 ≠ 0 then answer a.2 f a.1
    else match updateValue a.2 n (updReach s f) (decide (f.op = 0x0A)) (leAt f.data 0 8) with
      | none => answer a.2 f 3
      | some _ => if flowBusy s0 f then holdBack s0 f else tagged a.2 f (fun s => (0, s)) fun s =>
          match updateValue s n (updReach s f) (decide (f.op = 0x0A)) (leAt f.data 0 8) with
          | none => s
          | some v => answer (rcRecord (setObject s n v) f 0) f 0

/-- ARRIVE_REQUEST (R290). -/
def execArriveRequest (f : Frame) (s : State) : Host.Outcome State Fault Refusal :=
  .next (if atTarget s f && decide (f.op = 0x09) then syncRequest s f else s)

/-- SIGNAL_REQUEST (R290). -/
def execSignalRequest (f : Frame) (s : State) : Host.Outcome State Fault Refusal :=
  .next (if atTarget s f && decide (f.op = 0x0A) then syncRequest s f else s)

/-! ### Multicast stores (R276, R277) -/

/-- A multicast group. -/
def group (s : State) (g : Nat) : McGroup := tget {} s.sw.groups g

/-- The group admits a source (R276, R306). -/
def senderOk (s : State) (x : McGroup) (src : Nat) : Bool :=
  match x.senders with
  | 0 => decide (0xF000 ≤ src) || memberOf s x.comp src
  | 1 => decide (src = ownId s)
  | _ => decide (src = x.sender)

/-- Bases of a group's members in member order. -/
def groupBases (x : McGroup) : List Nat := (List.range (x.count + 1)).map fun i => (tget none x.members i).getD 0

/-- The copy of a store for a member, under this switch's own request ID so that its completion
returns here (R277). -/
def mcwCopy (s : State) (f : Frame) (base id i : Nat) : Frame :=
  { f with dst := (base + faOff f.dst) % 2 ^ 60, group := 0, stream := reqId id, tag := i, rsw := s.swNum }

/-- What an MCW meets at the first switch it enters (R276, R282): RIGHTS, FENCED, or 0. -/
def mcwStatus (s : State) (f : Frame) : Nat :=
  let x := group s f.group
  if formOk f = false then 3
  else if fencedReq s f then 9
  else if x.status.enabled = false ∨ x.comp ≠ f.comp ∨ senderOk s x f.src = false then 3
  else 0

/-- The first free index of the multicast stores under way. -/
def freeMcw (s : State) : Nat := ((List.range (s.te.mcw.length + 1)).find? fun i => !(tget {} s.te.mcw i).active).getD s.te.mcw.length

/-- The copies of a store, one for each member, under one request ID (R276, R277). -/
def mcwCopies (s : State) (f : Frame) : List Frame :=
  (groupBases (group s f.group)).zipIdx.map fun b => mcwCopy s f b.1 s.te.nextId b.2

/-- A store under way: its completion is gathered from its copies, which are outstanding (R277). -/
def mcwKeep (s : State) (f : Frame) : State :=
  let k := freeMcw s
  let l := mcwCopies s f
  let s := { s with te := { s.te with nextId := s.te.nextId + 1
                                      mcw := tput {} s.te.mcw k { active := true, frame := f, left := l.map fun _ => 0xFF } } }
  l.foldl (fun s c => keepOut s c (.mcwCopy k c.tag)) s

/-- A copy's status is known; the last one completes the store (R277). -/
def mcwDone (s : State) (k i status : Nat) : State :=
  let p := tget {} s.te.mcw k
  if p.active = false then s
  else
    let left := setAt p.left i status
    if left.contains 0xFF then { s with te := { s.te with mcw := tput {} s.te.mcw k { p with left := left } } }
    else answer { s with te := { s.te with mcw := tput {} s.te.mcw k {} } } p.frame ((left.find? fun x => decide (x ≠ 0)).getD 0)

/-! ### Messages, fences, markers and probes -/

/-- Frames that stand in this switch, wherever they wait. -/
def framesHere (s : State) : List Frame :=
  s.sw.queues.flatMap (fun q => q.2.frames.map (·.f)) ++ s.sw.ports.flatMap (fun p => p.2.waiting.map (·.f)) ++ s.pc.ports.flatMap (·.2.rxFrames)
    ++ s.te.holds.map (·.frame) ++ s.te.out.map (·.f) ++ s.te.waitq

/-- An earlier request of the source and class of a FENCE is not complete (R281): one applied here, a multicast store, a non-posted
one that entered before it by its port, wherever it went, or a posted write that has not left this switch (log 133). -/
def srcBusy (s : State) (f : Frame) : Bool :=
  let hit := fun (g : Frame) => decide (g.src = f.src) && decide (g.tc = f.tc)
  s.tr.pend.any (fun p => p.2.active && hit p.2.frame) || s.te.mcw.any (fun p => p.2.active && hit p.2.frame)
  || s.te.outst.any (fun o => hit o.frame && decide (o.frame.op ≠ 0x08))
  || s.te.portOut.any (fun p => (p.2.takeWhile (· ≠ (f.src, f.stream, f.tag, f.tc))).any fun x => decide (x.1 = f.src) && decide (x.2.2.2 = f.tc))
  || (framesHere s).any (fun g => hit g && decide (g.op = 0x03))

/-- FENCE_REQUEST (R262, R281): an LFP FENCE meets steps 1 and 2, and completes once the earlier requests of its source and class
have. -/
def execFenceRequest (f : Frame) (s : State) : Host.Outcome State Fault Refusal :=
  .next (if atTarget s f && decide (f.op = 0x08) then
    if formOk f = false then answer s f 3
    else
      let a := epochFence s f
      if a.1 ≠ 0 then answer a.2 f a.1
      else if srcBusy s f then s else answer s f 0
  else s)

/-- DRAIN_MARKER (R261): acknowledged once everything queued ahead of it has been delivered. -/
def execDrainMarker (f : Frame) (s : State) : Host.Outcome State Fault Refusal :=
  .next (if atTarget s f && decide (f.op = 0x0B) then answer s f (if formOk f then 0 else 3) else s)

/-- Scope of a PROBE from its payload: composition in bytes 0–1, KIND in byte 2, PEER in bytes 4–5
(the layout is the model's: log entry 31). -/
def probeScope (f : Frame) : Nat × Nat × Nat := (leAt f.data 0 2, leAt f.data 2 1, leAt f.data 4 2)

/-- Fence state replaced. -/
def setFence (s : State) (c : Nat) (x : FenceSt) : State := { s with te := { s.te with fences := tput {} s.te.fences c x } }

/-- The refusal of a fence kind installed or removed on this switch (R282, R284, R405). -/
def applyFence (s : State) (c kind peer : Nat) : State :=
  let x := fenceOf s c
  match kind with
  | 0 => fencePrograms (setFence s c { x with comp := true }) c
  | 1 =>
    let s := setFence s c { x with peers := if x.peers.contains peer then x.peers else x.peers ++ [peer] }
    if (comp s c).fatal then failComp s c 1 0 peer else s
  | 2 => setFence s c { x with peers := x.peers.filter (· ≠ peer) }
  | _ => setFence s c { x with comp := false }

/-- A request of a fence's scope is under way on this switch (R282). -/
def scopeBusy (s : State) (c kind peer : Nat) : Bool :=
  let hit := fun (f : Frame) => decide (f.comp = c) && (decide (kind ≠ 1) || decide (f.src = peer))
  kind != 2 && kind != 3 &&
  (decide (kind = 0) && s.cc.jq.any (fun j => decide (j.2.comp = c) && !j.2.bells.isEmpty) ||
    s.tr.pend.any (fun p => p.2.active && hit p.2.frame) || s.te.mcw.any (fun p => p.2.active && hit p.2.frame))

/-- Peer fences on this switch. -/
def peerFences (s : State) : Nat := s.te.fences.foldl (fun n x => n + x.2.peers.length) 0

/-- A further peer fence is beyond the 256 a switch holds (R282). -/
def fenceFull (s : State) (c kind peer : Nat) : Bool := decide (kind = 1) && !(fenceOf s c).peers.contains peer && decide (256 ≤ peerFences s)

/-- A probe waits for its scope's requests. -/
def keepProbe (s : State) (p : PendProbe) : State :=
  { s with te := { s.te with probes := if s.te.probes.contains p then s.te.probes else s.te.probes ++ [p] } }

/-- A probe waits no longer. -/
def dropProbe (s : State) (f : Frame) : State :=
  { s with te := { s.te with probes := s.te.probes.filter fun p => !(decide (p.src = f.src) && decide (p.stream = f.stream) && decide (p.tag = f.tag)) } }

/-- PROBE (R282): the refusal is installed at once; the acknowledgement follows when the scope's earlier
requests have completed. The event is presented again while they run. DESIGN CHOICE (log 132): a peer fence beyond the 256 that this
switch holds is not installed, and its probe is answered RETRY_LATER. -/
def execProbe (f : Frame) (s : State) : Host.Outcome State Fault Refusal :=
  .next (if atTarget s f && decide (f.op = 0x0C) then
    if formOk f = false ∨ f.data.length < 6 then answer s f 3
    else
      let (c, kind, peer) := probeScope f
      let full := fenceFull s c kind peer
      let s := if full then s else applyFence s c kind peer
      if full then answer s f 1
      else if scopeBusy s c kind peer then
        keepProbe s { src := f.src, dst := f.dst, stream := f.stream, tag := f.tag, comp := c, kind := kind, peer := peer }
      else answer (dropProbe s f) f 0
  else s)

/-- REPLY_CACHE_EXPIRY (R271): entry i is freed 500 µs after its latest reply, but no restored entry of
this switch while the replay of its records runs (R275). -/
def execReplyCacheExpiry (i : Nat) (s : State) : Host.Outcome State Fault Refusal :=
  .next (match s.te.rc[i]? with
    | none => s
    | some e => if working s && decide (e.expiry ≤ s.now) && (replayFrom s).isNone
        then { s with te := { s.te with rc := s.te.rc.eraseIdx i } } else s)

end Sys2Proof.Machine
end

