-- ==== Sys2Proof/Machine/Fence.lean ====
section
/-! DEFINITION. Fences of compositions and members (R281–R284, R292, R294), and route changes with their
drain markers (R261, R407). -/

namespace Sys2Proof.Machine

/-- Key of a fence scope. -/
def scopeKey (c kind peer : Nat) : Nat := (c * 4 + kind) * 65536 + peer

/-- The object of a fence, for its stamp (R96): FENCE and RELEASE of one scope change the same one. -/
def fenceKey (c kind peer : Nat) : Nat := stampKey okFence (scopeKey c (if kind = 0 ∨ kind = 3 then 0 else 1) peer)

/-- Other switches that a composition's live maps name. -/
def spanOf (s : State) (c : Nat) : List Nat :=
  let x := comp s c
  (((if x.curLive then x.cur.span else []) ++ (if x.prevLive then x.prev.span else [])).eraseDups).filter (· ≠ s.swNum)

/-- The collection of a scope. -/
def coll (s : State) (k : Nat) : FenceColl := tget {} s.te.colls k

/-- A collection replaced. -/
def setColl (s : State) (k : Nat) (x : FenceColl) : State := { s with te := { s.te with colls := tput {} s.te.colls k x } }

/-- A PROBE of a scope sent to a switch on the current route epoch (R282, R283); its payload has the
layout of log entry 31. -/
def sendProbe (s : State) (k : Nat) (x : FenceColl) (sw : Nat) : State :=
  let data := bytesLE 2 x.comp ++ bytesLE 1 x.kind ++ [0] ++ bytesLE 2 x.peer ++ [0, 0]
  issueNew s { op := 0x0C, tc := 0, src := ownId s, dst := sw * 2 ^ 48, comp := x.comp, mapE := curEpoch s x.comp,
               routeE := (route s sw).epoch, len := 8, data := data } (.probe k sw)

/-- Every switch of a collection is complete (R283). -/
def collDone (x : FenceColl) : Bool := x.missing.isEmpty && x.markers.isEmpty

/-- A collection is open until it is complete for every switch. -/
def collEnd (x : FenceColl) : FenceColl := { x with active := x.active && !collDone x }

/-- A fence's collection starts, or goes on where one of its scope stands (R284). -/
def startColl (s : State) (c kind peer : Nat) (waiter : Option (Nat × Nat)) : State :=
  let k := scopeKey c kind peer
  let o := scopeKey c (match kind with | 0 => 3 | 1 => 2 | 2 => 1 | _ => 0) peer
  let s := if (coll s o).waiters.isEmpty then setColl s o {} else s
  let x := coll s k
  let missing := (spanOf s c).filter fun sw => !x.acked.contains sw
  let x := { x with active := true, comp := c, kind := kind, peer := peer, missing := missing, waiters := x.waiters ++ waiter.toList }
  missing.foldl (fun s sw => sendProbe s k x sw) (setColl s k (collEnd x))

/-- A probe sent on a route epoch is acknowledged by its switch (R283). -/
def probeAck (s : State) (k sw epoch : Nat) : State :=
  let x := coll s k
  if x.missing.contains sw ∧ epoch = (route s sw).epoch then
    setColl s k (collEnd { x with missing := x.missing.erase sw, acked := x.acked ++ [sw] })
  else s

/-- A FENCE instruction completes (R283, R284); a RUNTIME program whose composition it fenced ends (R95). -/
def fenceFinish (s : State) (cs reason : Nat) (k : Nat) : State :=
  let q := ctl s cs
  if q.priv = 2 ∧ (fenced s q.comp = true ∨ k = scopeKey q.comp 0 0) then progEnd s cs 9 0
  else ctlComplete s cs reason none (some (fenceKey (coll s k).comp (coll s k).kind (coll s k).peer)) 32

/-- Checks of FENCE (R282, R292). -/
def fenceReason (s : State) (q : CtlSeq) (d : List W64) : Nat :=
  let c := df d 0 0 12
  let kind := df d 0 16 2
  let peer := df d 0 32 16
  let t := df d 1 0 32
  firstFail [
    (!reaches q c, 3),
    (decide ((comp s c).state = 0), 8),
    (reservedSet d [fmask 0 12 + fmask 16 2 + fmask 32 16, fmask 0 32, 0, 0], 9),
    (decide (t ≠ 0) && !decide (10 ≤ t ∧ t ≤ 100000), 4),
    (fenceFull s c kind peer, 5)]

/-- The refusal of a FENCE is installed or removed at once, and its collection starts with the deadline `t` names, in
microseconds, 10,000 where it is 0 (R282–R284). -/
def fenceStart (s : State) (cs c kind peer t : Nat) : State :=
  let deadline := s.now + (if t = 0 then 10000 else t) * 1000
  let s := applyFence (setCtl s cs { ctl s cs with wait := .fence }) c kind peer
  startColl (setFence s c { fenceOf s c with reason := 0 }) c kind peer (some (cs, deadline))

/-- The collection a sequencer waits for, with its deadline. -/
def waitedColl (s : State) (cs : Nat) : Option (Nat × FenceColl × Nat) :=
  s.te.colls.findSome? fun x => (x.2.waiters.find? fun w => decide (w.1 = cs)).map fun w => (x.1, x.2, w.2)

/-- A sequencer no longer waits for a collection. -/
def dropWaiter (s : State) (k cs : Nat) : State :=
  let x := coll s k
  setColl s k { x with waiters := x.waiters.filter fun w => decide (w.1 ≠ cs) }

/-- The effect of FENCE: it completes at once where every switch of the span is complete. -/
def fenceBody (cs : Nat) (s : State) (q : CtlSeq) (d : List W64) : CtlRes :=
  let c := df d 0 0 12
  let kind := df d 0 16 2
  let peer := if kind = 1 ∨ kind = 2 then df d 0 32 16 else 0
  let r := fenceReason s q d
  if r ≠ 0 then refuse (setFence s c { fenceOf s c with reason := r }) r
  else
    let s := fenceStart s cs c kind peer (df d 1 0 32)
    let k := scopeKey c kind peer
    if collDone (coll s k) then { s := fenceFinish (dropWaiter s k cs) cs 0 k, done := true }
    else { s := s, wait := .fence }

/-- A FENCE of one KIND on a control sequencer. -/
def fenceRow (s : State) (cs kind : Nat) : State :=
  runCtl s cs 0x8B (fun d => decide (df d 0 16 2 = kind))
    (fun d => fenceKey (df d 0 0 12) kind (if kind = 1 ∨ kind = 2 then df d 0 32 16 else 0))
    (fun _ _ => none) (fenceBody cs)

/-- FENCE of KIND COMP (R282). -/
def execFenceComp (cs : Nat) (s : State) : Host.Outcome State Fault Refusal := .next (fenceRow s cs 0)
/-- FENCE of KIND PEER (R282, R405). -/
def execFencePeer (cs : Nat) (s : State) : Host.Outcome State Fault Refusal := .next (fenceRow s cs 1)
/-- FENCE of KIND RELEASE_PEER (R284). -/
def execFenceReleasePeer (cs : Nat) (s : State) : Host.Outcome State Fault Refusal := .next (fenceRow s cs 2)
/-- FENCE of KIND RELEASE_COMP (R284). -/
def execFenceReleaseComp (cs : Nat) (s : State) : Host.Outcome State Fault Refusal := .next (fenceRow s cs 3)

/-- FENCE_COLLECTED (R283). -/
def execFenceCollected (cs : Nat) (s : State) : Host.Outcome State Fault Refusal :=
  .next (if working s && decide ((ctl s cs).wait = .fence) then
    match waitedColl s cs with
    | none => s
    | some (k, x, _) => if collDone x then fenceFinish (dropWaiter s k cs) cs 0 k else s
  else s)

/-- FENCE_TIMEOUT (R284): reason FENCE_INCOMPLETE, and MISSING counts the switches not complete. -/
def execFenceTimeout (cs : Nat) (s : State) : Host.Outcome State Fault Refusal :=
  .next (if working s && decide ((ctl s cs).wait = .fence) then
    match waitedColl s cs with
    | none => s
    | some (k, x, t) =>
      if decide (t ≤ s.now) && !collDone x then
        let n := ((x.missing ++ x.markers.map (·.1)).eraseDups).length
        fenceFinish (setFence (dropWaiter s k cs) x.comp { fenceOf s x.comp with missing := n, reason := 0x0501 }) cs 0x0501 k
      else s
  else s)

/-! ### Routes (R261, R299, R407) -/

/-- A DRAIN marker toward a switch by a port, behind what is queued there (R261). -/
def sendMarker (s : State) (sw c routeE : Nat) (what : ReqFor) (p : Nat) : State :=
  issueNew s { op := 0x0B, tc := 0, src := ownId s, dst := sw * 2 ^ 48, comp := c, mapE := curEpoch s c, routeE := routeE } what (some p)

/-- The route to a switch moves to a new epoch: markers go along each port of the old route, and open
fences toward it wait for them and probe again (R261, R283). -/
def changeRoute (s : State) (sw : Nat) (present : Bool) (ports : List Nat) : State :=
  let r := route s sw
  let old := routePorts s sw
  let r' : Route := { present := present, ports := ports, epoch := (r.epoch + 1) % 256,
                      draining := if old.isEmpty then r.draining else r.draining ++ [r.epoch] }
  let s := { s with sw := { s.sw with routes := tput {} s.sw.routes sw r' } }
  let s := sendOwed (old.foldl (fun s p => sendMarker s sw 0 r.epoch (.drain sw r.epoch) p) s)
  (tkeys s.te.colls).foldl (fun s k =>
    let x := coll s k
    if x.active ∧ x.missing.contains sw = true then
      let x := { x with markers := if old.isEmpty then x.markers else x.markers ++ [(sw, r.epoch)] }
      sendProbe (setColl s k x) k x sw
    else s) s

/-- A marker of an old route is acknowledged; the last of its epoch ends the epoch's drain. -/
def markerAck (s : State) (sw epoch : Nat) : State :=
  if s.te.outst.any (fun o => decide (o.what = .drain sw epoch)) then s
  else
    let r := route s sw
    let s := { s with sw := { s.sw with routes := tput {} s.sw.routes sw { r with draining := r.draining.filter (· ≠ epoch) } } }
    { s with te := { s.te with colls := tmap {} s.te.colls fun _ x => collEnd { x with markers := x.markers.filter (· ≠ (sw, epoch)) } } }

end Sys2Proof.Machine
end

