-- ==== Sys2Proof/Machine/Keys.lean ====
section
/-! DEFINITION. The identity keys (R450, R452): the seeds that the unique device secret yields, and the words `TA_STATE` and
`TA_LC` (R474). -/

namespace Sys2Proof.Machine

/-- "KL-DEVID". -/
def lblDevid : Bytes := [0x4B, 0x4C, 0x2D, 0x44, 0x45, 0x56, 0x49, 0x44]
/-- "KL-OWNER". -/
def lblOwner : Bytes := [0x4B, 0x4C, 0x2D, 0x4F, 0x57, 0x4E, 0x45, 0x52]
/-- "KL-SEAL". -/
def lblSeal : Bytes := [0x4B, 0x4C, 0x2D, 0x53, 0x45, 0x41, 0x4C]

/-- Measurement of a layer's image, 0 for the boot ROM. -/
def measOf (s : State) (layer : Nat) : Bytes := tget [] s.ta.meas layer
/-- Security version of a layer's image. -/
def svnOf (s : State) (layer : Nat) : Nat := tget 0 s.ta.svn layer

/-- DEBUG as one byte. -/
def debugByte (s : State) : Byte := BitVec.ofNat 8 (b2n s.ta.debug)
/-- IDEPOCH as one byte. -/
def epochByte (s : State) : Byte := BitVec.ofNat 8 (lcNow s).idepoch

/-- Seed of the DeviceID key. -/
def devidSeed : Bytes := hmacSm3 Config.uds lblDevid
/-- Seed of the OwnerID key. -/
def ownerSeed (s : State) : Bytes := hmacSm3 Config.uds (lblOwner ++ [epochByte s])
/-- CDI of layer 1, the seed of the Alias key. -/
def cdi1 (s : State) : Bytes := hmacSm3 Config.uds (measOf s 1 ++ [BitVec.ofNat 8 (svnOf s 1), debugByte s, epochByte s])
/-- CDI of layer 2. -/
def cdi2 (s : State) : Bytes :=
  hmacSm3 (cdi1 s) (measOf s 2 ++ measOf s 3 ++ measOf s 4 ++ [2, 3, 4].map fun l => BitVec.ofNat 8 (svnOf s l))
/-- Seed of the meter key. -/
def meterSeed (s : State) : Bytes := cdi2 s
/-- The seal key, of which 128 bits are used. -/
def sealKey (s : State) : Bytes := (hmacSm3 Config.uds (lblSeal ++ [epochByte s, debugByte s])).take 16

/-- Secured DOE sessions open. -/
def doeSessions (s : State) : Nat :=
  (s.ta.sess.filter fun x => decide (1 ≤ x.1 ∧ x.1 ≤ 4) && x.2.opened && x.2.secured).length

/-- `TA_STATE` (R474). -/
def taState (s : State) : W64 :=
  w64 (place 48 5 s.ta.imageB + place 40 8 s.cc.stage + place 31 1 (b2n s.ta.debug) + place 30 1 (b2n (decide (s.ta.anchor ≠ [])))
    + place 29 1 (b2n (lcNow s).sealed) + place 0 4 (doeSessions s))

/-- `TA_LC` (R474). -/
def taLc (s : State) : W64 :=
  let r := lcNow s
  w64 (place 40 8 r.floor + place 32 8 r.sealLeft + place 20 6 r.floorLeft + place 16 4 r.epochLeft + place 8 3 r.debugLeft + place 0 4 r.idepoch)

end Sys2Proof.Machine
end

