-- ==== Sys2Proof/Machine/Tiers.lean ====
section
/-! DEFINITION. Compositions and map epochs (R406–R409), extents and regions (R388–R392), placement and
failure-domain tags (R393, R394, R396), and metering (R415, R416). -/

namespace Sys2Proof.Machine

/-- A composition replaced. -/
def setComp (s : State) (c : Nat) (x : Comp) : State := { s with tr := { s.tr with comps := tput {} s.tr.comps c x } }

/-- A region replaced. -/
def setRegion (s : State) (r : Nat) (x : Region) : State := { s with tr := { s.tr with regions := tput {} s.tr.regions r x } }

/-- The enabled tenant entry of an ID. -/
def tenantOf (s : State) (id : Nat) : Option Nat :=
  (s.ie.tenants.find? fun t => t.2.status.enabled && decide (t.2.id = id)).map (·.1)

/-! ### Compositions -/

/-- Checks of COMP.CREATE (R406, R417). -/
def createReason (s : State) (d : List W64) : Nat :=
  let cto := df d 1 0 17
  let mp := df d 1 32 16
  firstFail [
    ((tenantOf s (df d 0 48 16)).isNone, 8),
    (reservedSet d [fmask 0 12 + fmask 16 4 + fmask 24 1 + fmask 48 16, fmask 0 17 + fmask 32 16, fmask 0 16, 0], 9),
    (decide (100000 < cto) || (decide (mp ≠ 0) && !decide (100 ≤ mp ∧ mp ≤ 60000)), 4),
    (decide ((comp s (df d 0 0 12)).state ≠ 0), 0x0901)]

/-- The effect of COMP.CREATE: CREATED, with the fence of an earlier composition of the number removed. -/
def createComp (s : State) (d : List W64) : State :=
  let c := df d 0 0 12
  let cto := df d 1 0 17
  let mp := df d 1 32 16
  let s := setFence s c { fenceOf s c with comp := false, reason := 0 }
  setComp s c { state := 1, status := { enabled := true }, tenant := df d 0 48 16, resv := df d 2 0 16, part := df d 0 16 4,
                fatal := decide (df d 0 24 1 = 1), cto := if cto = 0 then 50 else cto, mperiod := if mp = 0 then 1000 else mp,
                meter := { start := s.now } }

/-- COMP_CREATE (R406). -/
def execCompCreate (cs : Nat) (s : State) : Host.Outcome State Fault Refusal :=
  .next (runCtl s cs 0x82 (fun _ => true) (fun d => stampKey okComp (df d 0 0 12)) (fun _ _ => none) fun s _ d =>
    let c := df d 0 0 12
    let r := createReason s d
    if r ≠ 0 then refuse (setComp s c { comp s c with status := refused (comp s c).status r }) r
    else { s := createComp s d, obj := some (stampKey okComp c) })

/-! ### MAP.SET and MAP.EPOCH -/

/-- Ports of a ROUTE entry. -/
def mapPorts (d : List W64) : List Nat := (List.range (df d 3 0 4)).map fun n => df d 2 (8 * n) 8

/-- Masks of the MAP.SET descriptor. -/
def mapMasks : List Nat :=
  [fmask 0 3 + fmask 32 12 + fmask 48 12, fmask 0 16, fmask 0 64, fmask 0 4, 0, 0, 0, 0]

/-- A ROUTE entry names no port, more than 8, a number that names no port under R329, a window-mode port, or
ports of more than one partition (R324, *SW reason codes*). -/
def routeBad (s : State) (l : List Nat) : Bool :=
  l.isEmpty || decide (8 < l.length) || l.any (fun p => !portNamed s p) || l.any (fun p => decide ((port s p).mode = 1))
    || l.any (fun p => decide ((port s p).part ≠ (port s (l.headD 0)).part))

/-- An endpoint behind a port of this switch lies in another partition than `part` (R18). -/
def otherPart (s : State) (ep part : Nat) : Bool := (endpointPort s ep).any fun p => decide ((port s p).part ≠ part)

/-- Checks of MAP.SET (R324, R407, R408, R576). -/
def mapSetReason (s : State) (d : List W64) : Nat :=
  let kind := df d 0 0 2
  let c := df d 0 32 12
  let st := (comp s c).state
  let set := decide (kind = 0) && decide (df d 0 2 1 = 0)
  firstFail [
    (decide (kind = 1) && decide (df d 0 2 1 = 0) && decide (st ≠ 0) && otherPart s (df d 1 0 16) (comp s c).part, 7),
    (reservedSet d mapMasks, 9),
    (decide (kind = 3), 4),
    (set && routeBad s (mapPorts d), 0x0608),
    (decide (kind ≠ 0) && (decide (st = 0) || decide (st = 4)), 0x0901)]

/-- The prepared map of a composition. -/
def prepared (x : Comp) : CMap := match x.prep with
  | some m => m
  | none => if x.curLive then x.cur else {}

/-- An entry put into, or taken out of, a list of entries. -/
def mapEntry (l : List Nat) (remove : Bool) (e : Nat) : List Nat :=
  if remove then l.filter (· ≠ e) else if l.contains e then l else l ++ [e]

/-- The effect of MAP.SET. -/
def mapSet (s : State) (d : List W64) : State :=
  let rm := decide (df d 0 2 1 = 1)
  let sw := df d 0 48 12
  let c := df d 0 32 12
  let x := comp s c
  let m := prepared x
  match df d 0 0 2 with
  | 0 => changeRoute s sw (!rm) (if rm then [] else mapPorts d)
  | 1 => setComp s c { x with prep := some { m with members := mapEntry m.members rm (df d 1 0 16) } }
  | _ => setComp s c { x with prep := some { m with span := mapEntry m.span rm sw } }

/-- A MAP.SET of the kinds a row stands for. -/
def mapSetRow (s : State) (cs : Nat) (sel : Nat → Bool) : State :=
  let key := fun d => if df d 0 0 2 = 0 then stampKey okRoute (df d 0 48 12) else stampKey okMap (df d 0 32 12)
  runCtl s cs 0x80 (fun d => sel (df d 0 0 2)) key (fun _ _ => none) fun s _ d =>
    let r := mapSetReason s d
    if r ≠ 0 then refuse s r else { s := mapSet s d, obj := some (key d) }

/-- MAP_SET of KIND ROUTE, and of the reserved KIND 3, which is refused (R407, R576). -/
def execMapSetRoute (cs : Nat) (s : State) : Host.Outcome State Fault Refusal :=
  .next (mapSetRow s cs fun k => decide (k = 0) || decide (k = 3))
/-- MAP_SET of KIND MEMBER (R407). -/
def execMapSetMember (cs : Nat) (s : State) : Host.Outcome State Fault Refusal :=
  .next (mapSetRow s cs fun k => decide (k = 1))
/-- MAP_SET of KIND SPAN (R407). -/
def execMapSetSpan (cs : Nat) (s : State) : Host.Outcome State Fault Refusal :=
  .next (mapSetRow s cs fun k => decide (k = 2))

/-- Some request of a composition under a map epoch is not complete, or a marker of the epoch is not
acknowledged (R408). -/
def epochBusy (s : State) (c e : Nat) : Bool :=
  let hit := fun (f : Frame) => decide (f.comp = c) && decide (f.mapE = e)
  s.te.outst.any (fun o => decide (o.what = .mapDrain c e)
      || (hit o.frame && decide (o.frame.op ≠ 0x0B) && decide (o.frame.op ≠ 0x0C)))
    || s.te.holds.any (fun o => hit o.frame) || s.te.waitq.any hit
    || s.tr.pend.any (fun p => p.2.active && hit p.2.frame)
    || s.te.mcw.any (fun p => p.2.active && hit p.2.frame)

/-- Steps 2 and 3 of R408: the epochs rotate, and markers go toward the span. -/
def rotateEpoch (s : State) (c : Nat) : State :=
  let x := comp s c
  let y : Comp := { x with prevLive := x.curLive, previous := x.current, prev := x.cur, current := (x.current + 1) % 256,
                           curLive := true, cur := prepared x, prep := none, closing := false,
                           state := if x.state = 1 then 2 else x.state }
  let s := setComp s c y
  (spanOf s c).foldl (fun s sw =>
    (routePorts s sw).foldl (fun s p => sendMarker s sw c (route s sw).epoch (.mapDrain c x.current) p) s) s

/-- MAP_EPOCH (R408). -/
def execMapEpoch (cs : Nat) (s : State) : Host.Outcome State Fault Refusal :=
  .next (runCtl s cs 0x81 (fun _ => true) (fun d => stampKey okComp (df d 0 0 12)) (fun _ _ => none) fun s q d =>
    let c := df d 0 0 12
    let x := comp s c
    let r := firstFail [
      (!reaches q c, 3),
      (x.closing, 1),
      (reservedSet d [fmask 0 12, 0, 0, 0], 9),
      (decide (x.state = 0) || decide (x.state = 4), 0x0901)]
    if r ≠ 0 then refuse (setComp s c { x with status := refused x.status r }) r
    else if x.prevLive && epochBusy s c x.previous then { s := setComp s c { x with closing := true }, wait := .epochDrain c }
    else { s := rotateEpoch s c, obj := some (stampKey okComp c) })

/-- MAP_EPOCH_DRAINED (R408). -/
def execMapEpochDrained (cs : Nat) (s : State) : Host.Outcome State Fault Refusal :=
  .next (match (ctl s cs).wait with
    | .epochDrain c =>
      if working s && !epochBusy s c (comp s c).previous then ctlComplete (rotateEpoch s c) cs 0 none (some (stampKey okComp c)) 32 else s
    | _ => s)

/-! ### Extents -/

/-- Bytes of an extent's span in a tray: its data and, when sealed, its MAC area (R433). -/
def backSpan (s : State) (e : Extent) : Nat := e.grains * (grainB + if sealedExt s e then 65536 else 0)

/-- Two half-open ranges meet. -/
def meets (a n b m : Nat) : Bool := decide (a < b + m) && decide (b < a + n)

/-- A range of grains meets an extent other than `x` that is not FREE. -/
def extOverlap (s : State) (x g n : Nat) : Bool :=
  s.tr.exts.any fun y => decide (y.1 ≠ x) && decide (y.2.state ≠ 0) && meets g n (y.2.base / grainB) y.2.grains

/-- A byte range of the tray behind a port meets a backing of another extent. -/
def trayOverlap (s : State) (x p a n : Nat) : Bool :=
  s.tr.exts.any fun y => decide (y.1 ≠ x) && decide (y.2.state ≠ 0) &&
    ((decide (y.2.bport = p) && meets a n (y.2.boff * grainB) (backSpan s y.2))
     || (y.2.mirror && decide (y.2.mport = p) && meets a n (y.2.moff * grainB) (backSpan s y.2)))

/-- A backing fails the test of EXT_BACKING (R417, R426, R433). -/
def backBad (s : State) (x p off n part tenant : Nat) : Bool :=
  decide ((port s p).profile ≠ 2) || decide ((port s p).part ≠ part)
    || (let i : IePort := tget {} s.ie.ports p; !i.assigned || decide (i.tenant ≠ tenant))
    || decide ((port s p).memCap < off * grainB + n) || trayOverlap s x p (off * grainB) n

/-- Trays behind two ports carry equal failure-domain tags (R20, R396): what `TR_FDTAG` reads, 0 where none was written. -/
def sameDomain (s : State) (p q : Nat) : Bool :=
  let a : FdTag := tget {} s.tr.fdtags (256 + p)
  let b : FdTag := tget {} s.tr.fdtags (256 + q)
  decide (a.tag = b.tag)

/-- The extent an EXT.GRANT descriptor describes (R388). -/
def grantedExt (d : List W64) : Extent :=
  { status := { enabled := true }, state := 1, comp := df d 0 20 12, grantee := df d 0 32 16, kslot := df d 0 48 12,
    kgen := df d 3 40 8, base := df d 1 0 48, grains := df d 2 0 28, bport := df d 1 48 8, mport := df d 1 56 8,
    boff := df d 2 36 28, moff := df d 3 0 28, mirror := decide (df d 3 32 1 = 1) }

/-- Checks of EXT.GRANT (R388, R389, R396, R417, R426, R432, R433). -/
def grantReason (s : State) (d : List W64) : Nat :=
  let x := df d 0 0 18
  let e := grantedExt d
  let k := slot s e.kslot
  let c := comp s e.comp
  let old := ext s x
  let n := backSpan s e
  let again := decide (old.state = 3) && decide (old.comp = e.comp) && decide (old.grantee = e.grantee) && decide (old.kslot = e.kslot)
  firstFail [
    (decide (k.state ≠ 0) && (decide (k.owner ≠ e.grantee) || decide (k.comp ≠ e.comp)), 3),
    (decide (k.state ≠ 1), 8),
    (reservedSet d [fmask 0 18 + fmask 20 40, fmask 0 64, fmask 0 28 + fmask 36 28, fmask 0 28 + fmask 32 1 + fmask 40 8], 9),
    (!decide (1 ≤ e.grains ∧ e.grains ≤ 134217727), 4),
    (decide (k.gen ≠ e.kgen), 6),
    (decide (c.state = 0), 0x0901),
    (decide (e.base % grainB ≠ 0) || decide (134217727 < e.base / grainB + e.grains) || extOverlap s x (e.base / grainB) e.grains, 0x0902),
    ((decide (e.bport ≠ 0xFF) && backBad s x e.bport e.boff n c.part c.tenant)
      || (e.mirror && decide (e.mport ≠ 0xFF) && decide (e.mport ≠ e.bport) && backBad s x e.mport e.moff n c.part c.tenant), 0x0903),
    (e.mirror && (decide (e.mport = 0xFF) || decide (e.mport = e.bport) || sameDomain s e.bport e.mport), 0x0905),
    (decide (old.state ≠ 0) && !again, 0x090B)]

/-- The effect of EXT.GRANT (R386): grains of a FREE extent become UNTOUCHED, those of a REVOKED one stay. -/
def grantExt (s : State) (d : List W64) : State :=
  let x := df d 0 0 18
  let e := grantedExt d
  let old := ext s x
  if old.state = 3 then setExt s x { e with cls := old.cls, pin := old.pin, resync := old.resync, degraded := old.degraded }
  else
    let g := e.base / grainB
    setExt { s with tr := { s.tr with tmap := s.tr.tmap.filter fun t => !(decide (g ≤ t.1) && decide (t.1 < g + e.grains)) } } x e

/-- EXT_GRANT (R386, R388). -/
def execExtGrant (cs : Nat) (s : State) : Host.Outcome State Fault Refusal :=
  .next (runCtl s cs 0x84 (fun _ => true) (fun d => stampKey okExtent (df d 0 0 18)) (fun _ _ => none) fun s _ d =>
    let x := df d 0 0 18
    let r := grantReason s d
    if r ≠ 0 then refuse (setExt s x { ext s x with status := refused (ext s x).status r }) r
    else { s := grantExt s d, obj := some (stampKey okExtent x) })

/-- An extent in REVOKING (R389, R390). -/
def revokeExt (s : State) (x : Nat) : State :=
  let e := ext s x
  setExt s x { e with state := 2, status := { e.status with enabled := false, draining := true, reason := 0 } }

/-- EXT_REVOKE (R388–R390). -/
def execExtRevoke (cs : Nat) (s : State) : Host.Outcome State Fault Refusal :=
  .next (runCtl s cs 0x85 (fun _ => true) (fun d => stampKey okExtent (df d 0 0 18)) (fun _ _ => none) fun s _ d =>
    let x := df d 0 0 18
    let e := ext s x
    let r := firstFail [
      (decide (e.state ≠ 0) && decide (e.comp ≠ df d 0 20 12), 3),
      (reservedSet d [fmask 0 18 + fmask 20 12, 0, 0, 0], 9),
      (decide (e.state ≠ 0) && decide ((comp s (df d 0 20 12)).state = 0), 0x0901),
      (decide (e.state ≠ 1), 0x090B)]
    if r ≠ 0 then refuse (setExt s x { e with status := refused e.status r }) r
    else { s := revokeExt s x, obj := some (stampKey okExtent x) })

/-- The grains of an extent still have admitted requests or moves (R390). -/
def extBusy (s : State) (x : Nat) : Bool :=
  let e := ext s x
  s.tr.pend.any (fun p => p.2.active && decide (p.2.ext = x))
    || s.tr.moves.any (fun m => m.2.active && decide (e.base / grainB ≤ m.2.grain) && decide (m.2.grain < e.base / grainB + e.grains))

/-- EXTENT_DRAIN_END (R390). -/
def execExtentDrainEnd (x : Nat) (s : State) : Host.Outcome State Fault Refusal :=
  .next (if working s && decide ((ext s x).state = 2) && !extBusy s x then
    let e := ext s x
    stateRecord (setExt s x { e with state := 3, status := { e.status with draining := false } }) 32
  else s)

/-! ### Regions, placement and tags -/

/-- The region a REGION descriptor describes (R391). -/
def regionOf (s : State) (d : List W64) : Region :=
  let welt := decide (df d 0 32 1 = 1)
  { status := { enabled := true }, comp := df d 0 16 12, welt := welt, rights := df d 0 33 3, base := df d 1 0 60,
    pages := df d 2 0 32, rkey := df d 2 32 32, extent := if !welt && decide (faSwitch (df d 1 0 60) = s.swNum) then df d 3 18 18 else 0 }

/-- A local region that is not welt-capable lies outside its extent, or the extent is not GRANTED to its
composition (R392). -/
def regionOutside (s : State) (r : Region) : Bool :=
  let e := ext s r.extent
  let lo := s.swNum * 2 ^ 48 + e.base
  decide (e.state ≠ 1) || decide (e.comp ≠ r.comp) || decide (r.base < lo) || decide (lo + e.grains * grainB < r.base + r.pages * 65536)

/-- Checks of COMMIT REGION (R391, R392, R417). -/
def regionReason (s : State) (d : List W64) : Nat :=
  let n := df d 0 0 16
  let r := regionOf s d
  firstFail [
    ((region s n).status.enabled, 1),
    (reservedSet d [fmask 0 28 + fmask 32 4, fmask 0 60, fmask 0 64, fmask 0 1 + fmask 18 18]
      || (r.welt && decide (df d 3 18 18 ≠ 0)), 9),
    (decide (65279 < n) || decide (r.base % 65536 ≠ 0) || decide (r.pages = 0) || decide (2 ^ 60 < r.base + r.pages * 65536), 4),
    (decide ((comp s r.comp).state = 0), 0x0901),
    ((s.tr.regions.any fun y => y.2.status.enabled && decide (y.2.comp = r.comp) && meets r.base (r.pages * 65536) y.2.base (y.2.pages * 65536))
      || (!r.welt && decide (faSwitch r.base = s.swNum) && regionOutside s r), 0x090A)]

/-- Status word of a region. -/
def regionWord (r : Region) : W64 := statusWord r.status ||| w64 (place 20 12 r.comp + place 19 1 (b2n r.welt) + place 16 3 r.rights)

/-- COMMIT_REGION (R391, R392). -/
def execCommitRegion (cs : Nat) (s : State) : Host.Outcome State Fault Refusal :=
  .next (runCtl s cs 0xF0 (fun _ => true) (fun d => stampKey okRegion (df d 0 0 16)) (fun s d => some (regionWord (region s (df d 0 0 16)))) fun s _ d =>
    let n := df d 0 0 16
    let x := region s n
    if !enableOf d then
      if 65279 < n then refuse s 4 (some (regionWord x))
      else
        let y := { x with status := { x.status with enabled := false, reason := 0 } }
        { s := setRegion s n y, status := some (regionWord y), obj := some (stampKey okRegion n) }
    else
      let r := regionReason s d
      if r ≠ 0 then
        let y := { x with status := refused x.status r }
        refuse (if 65279 < n then s else setRegion s n y) r (some (regionWord y))
      else { s := setRegion s n (regionOf s d), status := some (regionWord (regionOf s d)), obj := some (stampKey okRegion n) })

/-- Status word of an extent (*TR status fields*). -/
def extWord (s : State) (x : Nat) : W64 :=
  let e := ext s x
  let gs := s.tr.tmap.any fun t => decide (t.2.loc = 4) && decide (e.base / grainB ≤ t.1) && decide (t.1 < e.base / grainB + e.grains)
  let fz := s.tr.wsets.any fun w => (w.2.status.enabled || w.2.hashing || w.2.status.draining) &&
    meets (faOff w.2.base) w.2.length e.base (e.grains * grainB)
  statusWord e.status ||| w64 (place 48 16 e.grantee + place 20 12 e.comp + place 17 3 e.state + place 15 2 e.cls + place 14 1 (b2n e.mirror)
    + place 13 1 (b2n e.degraded) + place 12 1 (b2n gs) + place 11 1 (b2n fz))

/-- HBM copies of an extent's grains. -/
def extCopies (s : State) (e : Extent) : Nat :=
  (s.tr.tmap.filter fun t => decide (t.2.loc = 2) && decide (e.base / grainB ≤ t.1) && decide (t.1 < e.base / grainB + e.grains)).length

/-- Frames reserved for an extent given back. -/
def unreserve (s : State) (x : Nat) : State := { s with tr := { s.tr with reserved := s.tr.reserved.filter fun r => decide (r.2 ≠ x + 1) } }

/-- `n` free frames of a tenant reserved for an extent, lowest first (R394). -/
def reserveFrames (s : State) (t x : Nat) : Nat → State
  | 0 => s
  | n + 1 => match findFrame s t [] with
    | none => s
    | some f => reserveFrames { s with tr := { s.tr with reserved := tput 0 s.tr.reserved f (x + 1) } } t x n

/-- Checks of COMMIT PLACEMENT (R393, R394). -/
def placeReason (s : State) (q : CtlSeq) (d : List W64) : Nat :=
  let x := df d 0 0 18
  let c := df d 0 32 12
  let e := ext s x
  let cls := df d 0 48 2
  firstFail [
    (!reaches q c || (decide (e.state ≠ 0) && decide (e.comp ≠ c)), 3),
    (decide (e.state ≠ 1), 8),
    (reservedSet d [fmask 0 18 + fmask 32 12 + fmask 48 3, 0, 0, 1], 9),
    (decide (cls = 0) && decide (df d 0 50 1 = 0) &&
      decide (tenantFree (unreserve s x) (comp s c).tenant < e.grains - extCopies s e), 5),
    (decide ((comp s c).state = 0), 0x0901),
    (decide (cls ≠ 3) && decide (e.bport = 0xFF), 0x0909)]

/-- COMMIT_PLACEMENT (R393, R394). ENABLE 0 takes the class back to that of a grant (log entry 40). -/
def execCommitPlacement (cs : Nat) (s : State) : Host.Outcome State Fault Refusal :=
  .next (runCtl s cs 0xF1 (fun _ => true) (fun d => stampKey okPlacement (df d 0 0 18)) (fun s d => some (extWord s (df d 0 0 18))) fun s q d =>
    let x := df d 0 0 18
    let e := ext s x
    let key := some (stampKey okPlacement x)
    if !enableOf d then
      if !reaches q (df d 0 32 12) || (decide (e.state ≠ 0) && decide (e.comp ≠ df d 0 32 12)) then
        let s := setExt s x { e with status := refused e.status 3 }
        refuse s 3 (some (extWord s x))
      else
        let s := setExt (unreserve s x) x { e with cls := 1, pin := 0, status := { e.status with reason := 0 } }
        { s := s, status := some (extWord s x), obj := key }
    else
      let r := placeReason s q d
      if r ≠ 0 then
        let s := setExt s x { e with status := refused e.status r }
        refuse s r (some (extWord s x))
      else
        let s := setExt (unreserve s x) x { e with cls := df d 0 48 2, pin := df d 0 50 1, status := { e.status with reason := 0 } }
        let s := if df d 0 48 2 = 0 ∧ df d 0 50 1 = 0 then reserveFrames s (comp s e.comp).tenant x (e.grains - extCopies s e) else s
        { s := s, status := some (extWord s x), obj := key })

/-- Key of a failure-domain tag: a port, 256 + port for the tray behind it, 512 + lease. -/
def fdKey (d : List W64) : Nat := df d 0 0 2 * 256 + df d 0 8 8

/-- COMMIT_FDTAG (R396). -/
def execCommitFdtag (cs : Nat) (s : State) : Host.Outcome State Fault Refusal :=
  .next (runCtl s cs 0xF2 (fun _ => true) (fun d => stampKey okFdTag (fdKey d)) (fun s d => some (statusWord (tget {} s.tr.fdtags (fdKey d)).status)) fun s _ d =>
    let k := fdKey d
    let x : FdTag := tget {} s.tr.fdtags k
    let put := fun (y : FdTag) => { s with tr := { s.tr with fdtags := tput {} s.tr.fdtags k y } }
    let far := decide (df d 0 0 2 = 3) || (decide (df d 0 0 2 < 2) && decide (191 < df d 0 8 8))
    let r := firstFail [
      (enableOf d && reservedSet d [fmask 0 2 + fmask 8 8, fmask 0 32, 0, 1], 9),
      (far, 4)]
    if r ≠ 0 then
      let y := { x with status := refused x.status r }
      refuse (if far then s else put y) r (some (statusWord y.status))
    else
      let y : FdTag := if enableOf d then { tag := df d 1 0 32, status := { enabled := true } } else {}
      { s := put y, status := some (statusWord y.status), obj := some (stampKey okFdTag k) })

/-! ### Metering -/

/-- The grains of a composition's GRANTED extents that a test on the tier-map entry takes. -/
def meterGrains (s : State) (c : Nat) (p : TierEnt → Bool) : Nat :=
  (s.tr.tmap.filter fun t => p t.2 && s.tr.exts.any fun x => decide (x.2.state = 1) && decide (x.2.comp = c) &&
    decide (x.2.base / grainB ≤ t.1) && decide (t.1 < x.2.base / grainB + x.2.grains)).length

/-- Grains of a composition's GRANTED extents that have a backing in a tray. -/
def trayGrains (s : State) (c : Nat) : Nat :=
  s.tr.exts.foldl (fun n x => if x.2.state = 1 ∧ x.2.comp = c ∧ x.2.bport ≠ 0xFF then n + x.2.grains else n) 0

/-- Jobs of a composition that have started and not retired. -/
def jobsOf (s : State) (c : Nat) : Nat :=
  (s.sa.seqs.filter fun q => match q.2.job with
    | some j => decide (j.comp = c) && decide (j.startT ≠ 0)
    | none => false).length

/-- One nanosecond of a composition's meter counts (R415), kept in ns and in MiB·ns. -/
def meterTick (s : State) (c : Nat) (m : MeterAcc) : MeterAcc :=
  { m with compNs := m.compNs + 1, seqNs := m.seqNs + jobsOf s c,
           hbm := m.hbm + 2 * meterGrains s c (fun t => decide (t.loc = 2)),
           lease := m.lease + 2 * meterGrains s c (fun t => decide (t.loc = 3)),
           tray := m.tray + 2 * trayGrains s c }

/-- Bytes 0–127 of a meter record (*Meter record*). -/
def meterBody (s : State) (c : Nat) : Bytes :=
  let x := comp s c
  let m := x.meter
  fitTo 128 (bytesLE 4 0x4D545252 ++ bytesLE 2 c ++ bytesLE 2 x.tenant ++ bytesLE 8 m.recNo ++ bytesLE 8 m.start ++ bytesLE 8 s.now
    ++ bytesLE 8 m.compNs ++ bytesLE 8 m.seqNs ++ bytesLE 8 (m.hbm / 1000000) ++ bytesLE 8 (m.lease / 1000000)
    ++ bytesLE 8 (m.tray / 1000000) ++ bytesLE 8 (x.resv * m.compNs / 1000))

/-- A meter period closes: a signed record goes to the meter ring, and a new period starts (R415). -/
def closePeriod (s : State) (c : Nat) : State :=
  let x := comp s c
  let b := meterBody s c
  let r := b ++ fitTo 64 (Config.sm2Sign (meterSeed s) (sm3 b))
  let s := ringWrite (trCount s 9 1) 18 (bytesWords 32 (fitTo 256 r))
  setComp s c { x with meter := { recNo := x.meter.recNo + 1, start := s.now } }

/-- METER_PERIOD_END (R415, R416); with the backlog full the period goes on (R496). -/
def execMeterPeriodEnd (c : Nat) (s : State) : Host.Outcome State Fault Refusal :=
  .next (if working s && !backlogFull s && decide ((comp s c).state ≠ 0) && decide ((comp s c).meter.start + (comp s c).mperiod * 1000000 ≤ s.now)
    then closePeriod s c else s)

/-- METER_READ (R415); it waits while the backlog is full, since no period ends then (R496). -/
def execMeterRead (cs : Nat) (s : State) : Host.Outcome State Fault Refusal :=
  .next (runCtl s cs 0x93 (fun _ => !backlogFull s) (fun d => stampKey okMeterRec (df d 0 0 12)) (fun _ _ => none) fun s q d =>
    let c := df d 0 0 12
    let r := firstFail [
      (!reaches q c, 3),
      (reservedSet d [fmask 0 12, 0, 0, 0], 9),
      (decide ((comp s c).state = 0), 0x0901)]
    if r ≠ 0 then refuse s r else { s := closePeriod s c, obj := some (stampKey okMeterRec c) })

/-- METER_BACKLOG_WRITE (R68): meter records that waited go to the ring while it has space. -/
def execMeterBacklogWrite (s : State) : Host.Outcome State Fault Refusal :=
  .next (if mainUp s then writeHeld s 18 else s)

end Sys2Proof.Machine
end

