-- ==== Sys2Proof/Machine/Leases.lean ====
section
/-! DEFINITION. Neighbour leases (R399–R403), owner words (R410–R412), weight sets (R413, R414, R471,
R472), and moves of grains (R394, R395, R397). -/

namespace Sys2Proof.Machine

/-! ### Leases -/

/-- OP of a LEASE descriptor. -/
def leaseOp (d : List W64) : Nat := df d 0 8 3

/-- Masks of the LEASE descriptor. -/
def leaseMasks : List Nat :=
  [fmask 0 11 + fmask 16 12 + fmask 32 1 + fmask 40 24, fmask 0 48, fmask 0 24 + fmask 32 32, fmask 0 32]

/-- Free HBM frames of UNASSIGNED channels, which a lender lends (log entry 41). -/
def lendable (s : State) : List Nat :=
  (List.range (pchEnd s - 14)).flatMap fun i =>
    if (pch s (14 + i)).state = 1 then ((List.range 768).map (i * 768 + ·)).filter (frameFree s) else []

/-- A message between the switches of a lease: 0x4C, the operation, the two lease numbers, GRAINS, RKEY,
NOTICE (the layout is the model's: log entry 42). -/
def leaseMsg (s : State) (n op : Nat) (l : Lease) : State :=
  let data := [0x4C] ++ bytesLE 1 op ++ bytesLE 1 n ++ bytesLE 1 l.please ++ bytesLE 4 l.grains ++ bytesLE 4 l.rkey ++ bytesLE 4 l.notice
  issueNew s { op := 0x07, src := ownId s, dst := l.peer * 2 ^ 48 + 0xF000 + l.peer, len := data.length, data := data }
    (.lease (if op = 3 then 256 else n))

/-- A LEASE of one OP: `tests` gives the operation's tests and `go` its effect; the lease's status word keeps the code (R75, R418). -/
def leaseRow (s : State) (cs : Nat) (sel : Nat → Bool) (tests : State → List W64 → List (Bool × Nat))
    (go : State → Nat → List W64 → CtlRes) : State :=
  runCtl s cs 0x8E (fun d => sel (leaseOp d)) (fun d => stampKey okLease (df d 0 0 8)) (fun _ _ => none) fun s _ d =>
    let n := df d 0 0 8
    let r := firstFail (tests s d)
    let s := setLease s n { lease s n with check := r }
    if r ≠ 0 then refuse s r else go s n d

/-- The tests of LEASE OFFER, and of the reserved OPs, which are refused (R399, R400, R576). -/
def offerTests (s : State) (d : List W64) : List (Bool × Nat) :=
  let g := df d 2 0 24
  let base := df d 1 0 48
  [(reservedSet d leaseMasks, 9),
   (decide (4 ≤ leaseOp d) || !decide (1 ≤ g ∧ g ≤ 262144) || !decide (1000 ≤ df d 3 0 32 ∧ df d 3 0 32 ≤ 10000000), 4),
   (decide (df d 0 32 1 = 0) && decide ((lendable s).length < g), 5),
   (decide (base % grainB ≠ 0) || decide (134217727 < base / grainB + g) || extOverlap s (2 ^ 20) (base / grainB) g
    || s.tr.leases.any (fun l => decide (l.2.state ≠ 0) && !l.2.borrower && meets base (g * grainB) l.2.base (l.2.grains * grainB)), 0x0902),
   (decide ((lease s (df d 0 0 8)).state ≠ 0), 0x090C)]

/-- The frames an offer reserves: HBM frames where its medium is HBM (R400). -/
def offerFrames (s : State) (d : List W64) : List Nat := if df d 0 32 1 = 0 then (lendable s).take (df d 2 0 24) else []

/-- The lease an offer records (R400). -/
def offeredLease (s : State) (d : List W64) : Lease :=
  { state := 1, peer := df d 0 16 12, medium := df d 0 32 1, grains := df d 2 0 24, base := df d 1 0 48, rkey := df d 2 32 32,
    notice := df d 3 0 32, frames := offerFrames s d }

/-- LEASE_OFFER (R399, R400): the lender's grains are reserved and the offer recorded. -/
def execLeaseOffer (cs : Nat) (s : State) : Host.Outcome State Fault Refusal :=
  .next (leaseRow s cs (fun o => decide (o = 0) || decide (4 ≤ o)) offerTests fun s n d =>
    let l := offeredLease s d
    let s := { s with tr := { s.tr with frames := l.frames.foldl (fun t f => tput 0 t f (2 ^ 40 + n)) s.tr.frames } }
    { s := setLease s n l, obj := some (stampKey okLease n) })

/-- The tests of LEASE ACCEPT (R400). -/
def acceptTests (s : State) (d : List W64) : List (Bool × Nat) :=
  [((tenantOf s (df d 0 48 16)).isNone, 8),
   (reservedSet d leaseMasks, 9),
   (!decide (1 ≤ df d 2 0 24 ∧ df d 2 0 24 ≤ 262144), 4),
   (decide ((lease s (df d 0 0 8)).state ≠ 0), 0x090C)]

/-- The borrower's lease that an ACCEPT of sequencer `cs` records (R400). -/
def acceptedLease (cs : Nat) (d : List W64) : Lease :=
  { peer := df d 0 16 12, borrower := true, grains := df d 2 0 24, rkey := df d 2 32 32, tenant := df d 0 48 16,
    please := df d 0 40 8, waitCs := some cs }

/-- LEASE_ACCEPT (R400): the borrower's values go to the lender, whose answer completes the instruction. -/
def execLeaseAccept (cs : Nat) (s : State) : Host.Outcome State Fault Refusal :=
  .next (leaseRow s cs (fun o => decide (o = 1)) acceptTests fun s n d =>
    { s := leaseMsg (setLease s n (acceptedLease cs d)) n 1 (acceptedLease cs d), wait := .lease n })

/-- The lender's answer to an ACCEPT (R400): its BASE and NOTICE, or a refusal. -/
def leaseAnswer (s : State) (n status : Nat) (data : Bytes) : State :=
  let l := lease s n
  if l.state = 0 ∧ l.borrower = true then
    let ok := decide (status = 0)
    let s := setLease s n (if ok then { l with state := 2, base := leAt data 0 8, notice := leAt data 8 4, waitCs := none } else { check := 0x090C })
    match l.waitCs with
    | none => s
    | some cs => if (ctl s cs).wait = .lease n then
        (if ok then ctlComplete s cs 0 none (some (stampKey okLease n)) 32 else ctlFinish s cs 0x090C none) else s
  else if l.state = 3 ∧ l.borrower = false ∧ status = 0 then setLease s n { l with deadline := s.now + l.notice * 1000 }
  else s

/-- The lender ends a lease: its frames are zeroed and free (R402). -/
def endLender (s : State) (n : Nat) : State :=
  let l := lease s n
  let s := { s with tr := { s.tr with frames := l.frames.foldl (fun t f => tput 0 t f 0) s.tr.frames
                                      hbm := l.frames.foldl (fun m f => memClear m (f * grainB) grainB)
                                        (if l.medium = 1 then memClear s.tr.hbm ((2 ^ 20 + n * 2 ^ 18) * grainB) (l.grains * grainB) else s.tr.hbm) } }
  stateRecord (setLease s n {}) 32

/-- LEASE_RECALL (R400, R402), at the lender. -/
def execLeaseRecall (cs : Nat) (s : State) : Host.Outcome State Fault Refusal :=
  .next (leaseRow s cs (fun o => decide (o = 2)) (fun s d =>
      let l := lease s (df d 0 0 8)
      [(reservedSet d leaseMasks, 9), (decide (l.state ≠ 2) || l.borrower, 0x090C)])
    fun s n _ =>
      let l := { lease s n with state := 3, deadline := s.now + (lease s n).notice * 1000 }
      { s := leaseMsg (setLease s n l) n 2 l, obj := some (stampKey okLease n) })

/-- Frames of a borrowed lease in use, as frame keys with their grains. -/
def leaseUsed (s : State) (n : Nat) : List (Nat × Nat) :=
  (s.tr.lframes.filter fun x => decide (x.1 / 2 ^ 18 = n)).map fun x => (x.1, x.2 - 1)

/-- Copies in a borrowed lease, as frame keys with their grains. -/
def leaseCopies (s : State) (n : Nat) : List (Nat × Nat) :=
  (leaseUsed s n).filter fun x => decide ((tier s x.2).loc = 3) && decide ((tier s x.2).frame = x.1)

/-- Moves into a lease given up, when it takes no new copies (R400). -/
def stopMovesTo (s : State) (n : Nat) : State :=
  (s.tr.moves.filter fun m => m.2.active && decide (m.2.toLoc = 3) && decide (m.2.toFrame / 2 ^ 18 = n)).foldl (fun s m => dropMove s m.2.grain) s

/-- A grain's copy is not backed by the class of its extent: scratch, or an extent with no backing. -/
def scratchGrain (s : State) (g : Nat) : Bool := match extOf s g with
  | some x => scratch (ext s x) || decide ((ext s x).bport = 0xFF)
  | none => false

/-- A copy that holds nothing its backing lacks (R402). -/
def cleanCopy (s : State) (g : Nat) : Bool := decide ((tier s g).dirty = 0) && match extOf s g with
  | some x => decide ((ext s x).bport ≠ 0xFF)
  | none => true

/-- A lease that takes no new copies: moves into it are given up, and its clean copies are dropped at once (R400, R402). -/
def dropClean (s : State) (n : Nat) : State :=
  let s := stopMovesTo s n
  (leaseCopies s n).foldl (fun s x => if cleanCopy s x.2 then dropCopy s x.2 else s) s

/-- LEASE_RETURN (R400, R402), at the borrower. -/
def execLeaseReturn (cs : Nat) (s : State) : Host.Outcome State Fault Refusal :=
  .next (leaseRow s cs (fun o => decide (o = 3)) (fun s d =>
      let l := lease s (df d 0 0 8)
      [(reservedSet d leaseMasks, 9), (decide (l.state ≠ 2) || !l.borrower, 0x090C)])
    fun s n _ => { s := dropClean (setLease s n { lease s n with state := 4 }) n, obj := some (stampKey okLease n) })

/-- LEASE_RECALL_RECEIPT (R402): the borrower records the recall in the fault ring of every partition with
a copy in the lease, and starts to move its copies home. -/
def execLeaseRecallReceipt (n : Nat) (reason notice : Nat) (s : State) : Host.Outcome State Fault Refusal :=
  .next (let l := lease s n
    if working s && decide (l.state = 2) && l.borrower then
      let t := s.now + notice * 1000
      let cp := leaseCopies s n
      let dirty := (cp.filter fun x => scratchGrain s x.2 && decide ((tier s x.2).dirty ≠ 0)).length
      let parts := (cp.filterMap fun x => (extOf s x.2).map fun e => (comp s (ext s e).comp).part).eraseDups
      let s := parts.foldl (fun s p => faultRecord s p 6 [w64 (place 0 8 n + place 16 12 l.peer + place 40 24 cp.length), w64 t, w64 (place 0 24 dirty)]) s
      stateRecord (dropClean (setLease s n { l with state := 3, deadline := t, reason := reason }) n) 32
    else s)

/-- LEASE_EMPTIED (R402): the borrower ends an empty lease on both switches. -/
def execLeaseEmptied (n : Nat) (s : State) : Host.Outcome State Fault Refusal :=
  .next (let l := lease s n
    if working s && l.borrower && (decide (l.state = 3) || decide (l.state = 4)) && (leaseUsed s n).isEmpty then
      stateRecord (setLease (leaseMsg s n 3 l) n {}) 32
    else s)

/-- LEASE_DEADLINE (R402): the lender ends the lease and zeroes its frames; at the borrower every grain
still in the lease becomes FAILED. -/
def execLeaseDeadline (n : Nat) (s : State) : Host.Outcome State Fault Refusal :=
  .next (let l := lease s n
    if working s && decide (l.state = 3) && decide (l.deadline ≤ s.now) then
      if l.borrower then
        let s := (leaseCopies s n).foldl (fun s x => failGrain (trCount s 7 1) x.2 2) (stopMovesTo s n)
        stateRecord (setLease s n {}) 32
      else endLender s n
    else s)

/-- LEASE_LOST (R403): lease traffic has ended with PATH_LOST or TIMEOUT: durable copies are dropped,
scratch grains of the lease become FAILED, and the lease ends here. -/
def execLeaseLost (n : Nat) (status : Nat) (s : State) : Host.Outcome State Fault Refusal :=
  .next (let l := lease s n
    if working s && l.borrower && decide (2 ≤ l.state) && (decide (status = 6) || decide (status = 0x0E)) then
      let s := (leaseCopies s n).foldl (fun s x => if scratchGrain s x.2 then failGrain s x.2 3 else dropCopy s x.2) (stopMovesTo s n)
      stateRecord (setLease (leaseMsg s n 3 l) n {}) 32
    else s)

/-- A message of a lease from the other switch (R400, R402): an ACCEPT is answered with BASE and NOTICE,
or refused; an end frees the lender's grains. A RECALL is LEASE_RECALL_RECEIPT. -/
def leaseReceive (s : State) (f : Frame) : State :=
  let n := leAt f.data 3 1
  let l := lease s n
  let mine := !l.borrower && decide (f.src = 0xF000 + l.peer)
  if leAt f.data 1 1 = 1 then
    if l.state = 1 ∧ mine = true ∧ l.grains = leAt f.data 4 4 ∧ l.rkey = leAt f.data 8 4 then
      answer (stateRecord (setLease s n { l with state := 2, please := leAt f.data 2 1 }) 32) f 0 (bytesLE 8 l.base ++ bytesLE 4 l.notice)
    else answer (setLease s n { l with check := 0x090C }) f 3
  else if leAt f.data 1 1 = 3 then
    if 2 ≤ l.state ∧ mine = true then answer (endLender s n) f 0 else answer s f 3
  else answer s f 0

/-! ### Owner words -/

/-- The region of a composition that holds an owner word with the Atomic right on this switch (R410). -/
def wordRegion (s : State) (c fa : Nat) : Option Nat :=
  (s.tr.regions.find? fun r => r.2.status.enabled && !r.2.welt && decide (r.2.comp = c) && r.2.rights.testBit 2 &&
    decide (r.2.base ≤ fa) && decide (fa + 8 ≤ r.2.base + r.2.pages * 65536)).map (·.1)

/-- Checks of HANDOFF and RECLAIM (R411, R417). -/
def wordReason (s : State) (q : CtlSeq) (op : Nat) (d : List W64) : Nat :=
  let fa := df d 0 0 60
  let c := df d 3 0 12
  firstFail [
    (!reaches q c, 3),
    (reservedSet d [fmask 0 60, fmask 0 1 + fmask 16 40, fmask 0 32, fmask 0 12], 9),
    (decide (op = opHandoffSend) && !decide (1 ≤ df d 2 0 32 ∧ df d 2 0 32 ≤ 2000000), 4),
    (decide ((comp s c).state = 0), 0x0901),
    (decide (faSwitch fa ≠ s.swNum) || decide (fa % 8 ≠ 0) || (wordRegion s c fa).isNone, 0x0904)]

/-- The recorded outcome of an owner-word instruction in a replay (R412). -/
def recorded (s : State) (q : CtlSeq) : Option (Nat × Nat) :=
  (findRec s q.seqNo).bind fun r => (r.outcomes.find? fun o => decide (o.1 = q.ordinal)).map (·.2)

/-- The effect of an owner-word instruction: the recorded outcome, or the operation on the word's line. -/
def wordBody (cs op : Nat) (s : State) (q : CtlSeq) (d : List W64) : CtlRes :=
  match recorded s q with
  | some (0, reason) => { s := s, reason := reason }
  | some (status, _) => { s := progEnd s cs status 0, done := true }
  | none =>
    let r := wordReason s q op d
    if r ≠ 0 then refuse s r
    else
      let fa := df d 0 0 60
      let s := setCtl s cs { ctl s cs with wait := .handoff }
      match ownAccess s fa 8 with
      | (0, some x) =>
        let a := place 0 16 (df d 1 16 16) + place 16 16 (df d 1 32 16) + place 32 8 (df d 1 48 8) + place 64 32 (df d 2 0 32)
        let f : Frame := { op := op, src := ownId s, dst := fa, comp := df d 3 0 12, mapE := curEpoch s (df d 3 0 12), stream := cs, data := bytesLE 16 a }
        { s := serve s f x false, done := true }
      | (st, _) => { s := ownerDone s cs (if st = 0 then 3 else st) 0, done := true }

/-- An owner-word instruction; it waits while an earlier request is under way on the word's line (R410). -/
def wordRow (s : State) (cs opc op : Nat) (sel : List W64 → Bool) : State :=
  runCtl s cs opc (fun d => sel d && !lineBusy s (faOff (df d 0 0 60)) 8) (fun _ => stampKey okHandoff (2 ^ 30)) (fun _ _ => none) (wordBody cs op)

/-- HANDOFF SEND (R411). -/
def execHandoffSend (cs : Nat) (s : State) : Host.Outcome State Fault Refusal :=
  .next (wordRow s cs 0x8C opHandoffSend fun d => decide (df d 1 0 1 = 0))
/-- HANDOFF ACCEPT (R411). -/
def execHandoffAccept (cs : Nat) (s : State) : Host.Outcome State Fault Refusal :=
  .next (wordRow s cs 0x8C opHandoffAccept fun d => decide (df d 1 0 1 = 1))
/-- RECLAIM (R411). -/
def execReclaim (cs : Nat) (s : State) : Host.Outcome State Fault Refusal :=
  .next (wordRow s cs 0x8D opReclaim fun _ => true)

/-! ### Weight sets -/

/-- A weight-set slot. -/
def wset (s : State) (w : Nat) : WSet := tget {} s.tr.wsets w
/-- A weight-set slot replaced. -/
def setWset (s : State) (w : Nat) (x : WSet) : State := { s with tr := { s.tr with wsets := tput {} s.tr.wsets w x } }

/-- Enabled regions that are not welt-capable cover a range of a composition, from `a` to `e`. -/
def coveredBy (s : State) (c e : Nat) : Nat → Nat → Bool
  | 0, a => decide (e ≤ a)
  | n + 1, a => decide (e ≤ a) ||
    match s.tr.regions.find? fun r => r.2.status.enabled && !r.2.welt && decide (r.2.comp = c) && decide (r.2.base ≤ a) && decide (a < r.2.base + r.2.pages * 65536) with
    | none => false
    | some r => coveredBy s c e n (r.2.base + r.2.pages * 65536)

/-- The LENGTH of a descriptor of WEIGHTS.REG and its tests (R413, R473). -/
def weightsReason (s : State) (q : CtlSeq) (d : List W64) : Nat :=
  let x := wset s (df d 0 0 12)
  let c := df d 0 32 12
  let base := df d 1 0 60
  let len := df d 2 0 40
  let reg := decide (df d 0 16 1 = 0)
  firstFail [
    (!reaches q c || ((x.status.enabled || x.hashing || x.status.draining) && decide (x.comp ≠ c)), 3),
    (x.hashing || (reg && (x.status.draining || x.status.enabled)), 1),
    (!reg && !x.status.enabled && !x.status.draining, 8),
    (reservedSet d [fmask 0 12 + fmask 16 1 + fmask 32 12, fmask 0 60, fmask 0 40, 0], 9),
    (decide ((comp s c).state = 0), 0x0901),
    (reg && (decide (faSwitch base ≠ s.swNum) || decide (base % grainB ≠ 0) || decide (len = 0)
      || !coveredBy s c (base + len) (s.tr.regions.length + 1) base), 0x090D)]

/-- WEIGHTS.REG of one OP. -/
def weightsRow (s : State) (cs op : Nat) (go : State → Nat → List W64 → CtlRes) : State :=
  runCtl s cs 0x8F (fun d => decide (df d 0 16 1 = op)) (fun d => stampKey okWset (df d 0 0 12)) (fun _ _ => none) fun s q d =>
    let w := df d 0 0 12
    let r := weightsReason s q d
    if r ≠ 0 then refuse (setWset s w { wset s w with status := refused (wset s w).status r }) r else go s w d

/-- WEIGHTS_REGISTER (R413 steps 1 to 4): the grains freeze, and hashing begins. -/
def execWeightsRegister (cs : Nat) (s : State) : Host.Outcome State Fault Refusal :=
  .next (weightsRow s cs 0 fun s w d =>
    { s := setWset s w { wset s w with comp := df d 0 32 12, base := df d 1 0 60, length := df d 2 0 40, hashing := true, digest := [] }
      wait := .weights w })

/-- Leaves of a tree digest over 1 MiB chunks (R471). -/
def treeLeaves : Nat → Bytes → List Bytes
  | 0, _ => []
  | n + 1, bs => sm3 (0x00 :: bs.take (2 ^ 20)) :: treeLeaves n (bs.drop (2 ^ 20))

/-- One level of a tree: nodes paired in order, a last node without a partner unchanged. -/
def treeLevel : List Bytes → List Bytes
  | a :: b :: t => sm3 (0x01 :: (a ++ b)) :: treeLevel t
  | l => l

/-- The root above a list of nodes, within a number of levels. -/
def treeRoot : Nat → List Bytes → Bytes
  | 0, l => l.headD []
  | n + 1, l => if l.length ≤ 1 then l.headD [] else treeRoot n (treeLevel l)

/-- The tree digest of a byte string (R471). -/
def treeDigest (bs : Bytes) : Bytes := treeRoot 64 (treeLeaves (ceilDiv bs.length (2 ^ 20)) bs)

/-- The bytes of a range of pool offsets when every grain stands on this module. -/
def bytesHere (s : State) (off n : Nat) : Option Bytes :=
  ((List.range (ceilDiv (off % grainB + n) grainB)).mapM fun i =>
    let lo := max off ((off / grainB + i) * grainB)
    let hi := min (off + n) ((off / grainB + i + 1) * grainB)
    hereBytes s lo (hi - lo)).map fun l => l.flatten

/-- Writes admitted earlier to a weight set are under way (R413 step 3). -/
def setBusy (s : State) (x : WSet) : Bool :=
  s.tr.pend.any fun p => p.2.active && decide (p.2.frame.op ≠ 0x01) && meets p.2.off p.2.len (faOff x.base) x.length

/-- The sequencer that waits for a weight set. -/
def weightsWaiter (s : State) (w : Nat) : Option Nat := (List.range 9).find? fun cs => decide ((ctl s cs).wait = .weights w)

/-- WEIGHTS_HASH_DONE (R413 step 5, R471, R472): the digest of data that all stand in HBM is computed
here; otherwise it is the one the hash engines formed from what the trays delivered. -/
def execWeightsHashDone (w : Nat) (status : Nat) (digest : Bytes) (s : State) : Host.Outcome State Fault Refusal :=
  .next (let x := wset s w
    if working s && x.hashing && !setBusy s x then
      let s' := if status = 0 then
          let dg := match bytesHere s (faOff x.base) x.length with
            | some bs => treeDigest bs
            | none => digest
          digestNote (setWset s w { x with hashing := false, gen := (x.gen + 1) % 16, digest := dg, status := { enabled := true } })
            (2 * 65536 + (x.gen + 1) % 16 * 4096 + w) true dg
        else setWset s w { x with hashing := false, status := refused x.status 0x0B0A }
      match weightsWaiter s w with
      | none => s'
      | some cs => if status = 0 then ctlComplete s' cs 0 none (some (stampKey okWset w)) 64 else ctlFinish s' cs 0x0B0A none
    else s)

/-- WEIGHTS_WITHDRAW (R414). -/
def execWeightsWithdraw (cs : Nat) (s : State) : Host.Outcome State Fault Refusal :=
  .next (weightsRow s cs 1 fun s w _ =>
    { s := setWset s w { wset s w with status := { enabled := false, draining := true } }, obj := some (stampKey okWset w) })

/-- Jobs that read a weight set: those whose argument block named it (R179, R414). -/
def setReaders (s : State) (w : Nat) : Bool := s.sa.seqs.any fun q => match q.2.job with
  | some j => decide (j.wset = some w)
  | none => false

/-- WEIGHTS_DRAIN_END (R414): the grains unfreeze and the digest is withdrawn. -/
def execWeightsDrainEnd (w : Nat) (s : State) : Host.Outcome State Fault Refusal :=
  .next (let x := wset s w
    if working s && x.status.draining && !setReaders s w then
      stateRecord (digestNote (setWset s w { x with status := {}, digest := [], length := 0 }) (2 * 65536 + x.gen * 4096 + w) false x.digest) 64
    else s)

/-! ### Moves of grains -/

/-- A move. -/
def moveAt (s : State) (n : Nat) : Move := tget {} s.tr.moves n
/-- A move replaced. -/
def setMove (s : State) (n : Nat) (m : Move) : State := { s with tr := { s.tr with moves := tput {} s.tr.moves n m } }

/-- A destination that an extent's class and the tenant's holdings allow for a grain (R393, R394, R402, R435). -/
def moveAllowed (s : State) (g x toLoc toFrame : Nat) : Bool :=
  let e := ext s x
  let t := tier s g
  let tn := (comp s e.comp).tenant
  (decide (e.state = 1) || decide (e.state = 3)) && decide (t.state = 0) && decide (1 ≤ t.loc ∧ t.loc ≤ 3) && slotActive s e.kslot e.kgen &&
  match toLoc with
  | 2 =>
    (frameFree s toFrame || decide (tget 0 s.tr.reserved toFrame = x + 1)) && (tenantPchs s tn).contains (framePch toFrame) &&
    !(decide (e.cls = 0) && decide (e.pin = 1)) && !(decide (e.cls = 2) && decide (tenantFree s tn * 4 ≤ tenantFrames s tn))
  | 3 =>
    let l := lease s (toFrame / 2 ^ 18)
    decide (l.state = 2) && l.borrower && decide (l.tenant = tn) && decide (toFrame % 2 ^ 18 < l.grains) &&
    decide (tget 0 s.tr.lframes toFrame = 0) && (decide (e.cls = 1) || decide (e.cls = 3)) && !sealedExt s e && decide (t.loc ≠ 3 ∨ t.frame ≠ toFrame)
  | 1 => decide (t.loc ≠ 1) && decide (e.bport ≠ 0xFF) && !(decide (e.cls = 0) && decide (e.pin = 0) && decide (t.loc = 2))
  | _ => false

/-- The first free index of the moves. -/
def freeMove (s : State) : Nat := ((List.range (s.tr.moves.length + 1)).find? fun i => !(moveAt s i).active).getD 0

/-- A move that needs leave: into an HBM frame, or out of one (R507). -/
def moveHeavy (s : State) (g toLoc : Nat) : Bool := decide (toLoc = 2) || decide ((tier s g).loc = 2)

/-- MIGRATION_START (R394, R395): a clean copy goes home by being dropped; any other move sets STATE to
MIGRATING, or RECALLING out of a lease that is to be emptied (R385; DEDUCED, log 134), takes its frame and a use of the key slot, and asks leave where R507 says so. -/
def execMigrationStart (g : Nat) (toLoc : Nat) (toFrame : Nat) (s : State) : Host.Outcome State Fault Refusal :=
  .next (match extOf s g with
    | none => s
    | some x =>
      if working s && moveAllowed s g x toLoc toFrame then
        let e := ext s x
        let t := tier s g
        if toLoc = 1 ∧ t.dirty = 0 then stateRecord (dropCopy s g) 8
        else
          let n := freeMove s
          let heavy := moveHeavy s g toLoc
          let s := if toLoc = 2 then { s with tr := { s.tr with frames := tput 0 s.tr.frames toFrame (g + 1) } }
            else if toLoc = 3 then { s with tr := { s.tr with lframes := tput 0 s.tr.lframes toFrame (g + 1) } } else s
          let home := decide (t.loc = 3) && decide ((lease s (t.frame / 2 ^ 18)).state ≠ 2)
          let s := setTier (useTake s e.kslot) g { t with state := if home then 2 else 1 }
          let s := setMove s n { active := true, running := !heavy, grain := g, toLoc := toLoc, toFrame := toFrame, slot := e.kslot, gen := e.kgen }
          if heavy then askLeave s 16 (.move n) 160 else s
      else s)

/-- The last sub-grain of a move is copied: LOC and FRAME change in one step, and the source is freed
(R395 steps 4 and 5). -/
def endMove (s : State) (n : Nat) (m : Move) : State :=
  let g := m.grain
  let t := tier s g
  let s := if moveHeavy s g m.toLoc then dropLeave s 16 160 else s
  let s := if t.loc = 2 then freeFrame s t.frame else s
  let s := if m.toLoc = 2 then { s with tr := { s.tr with reserved := tput 0 s.tr.reserved m.toFrame 0 } } else s
  let s := setTier s g { t with loc := m.toLoc, frame := if m.toLoc = 1 then 0 else m.toFrame, state := 0,
                                dirty := if m.toLoc = 1 then 0 else t.dirty }
  let s := trCount s (if m.toLoc = 1 then 1 else 0) 1
  stateRecord (sweepFrames (setMove (useEnd s m.slot m.gen) n {}) g) 8

/-- SUBGRAIN_COPY_DONE (R395): the next sub-grain has been copied. `data` is its ciphertext where the
source is a tray or a lender; the frames of the copy itself are left out (log entry 44). -/
def execSubgrainCopyDone (n : Nat) (data : Bytes) (s : State) : Host.Outcome State Fault Refusal :=
  .next (let m := moveAt s n
    let off := m.grain * grainB + m.next * 65536
    if working s && m.active && m.running && !lineBusy s off 65536 then
      let plain := match hereBytes s off 65536 with
        | some b => b
        | none => decipher (slot s m.slot) off (fitTo 65536 data)
      let s := if m.toLoc = 2 then { s with tr := { s.tr with hbm := memWrite s.tr.hbm (m.toFrame * grainB + m.next * 65536) plain } } else s
      let s := trCount s 2 65536
      let s := setMove s n { m with next := m.next + 1 }
      if m.next = 31 then endMove s n { m with next := 32 } else s
    else s)

/-- Rank of a class in the order in which copies are dropped: capacity, scratch, prefer-fast (R394). -/
def dropRank (e : Extent) : Nat := if e.cls = 2 then 0 else if e.cls = 3 then 1 else if e.cls = 1 then 2 else 3

/-- Another HBM copy of the tenant comes before a grain's in the order capacity, scratch, prefer-fast,
coldest first. -/
def dropsBefore (s : State) (tn : Nat) (e : Extent) (g : Nat) : Bool :=
  s.tr.tmap.any fun t => decide (t.2.loc = 2) && decide (t.2.state = 0) &&
    match extOf s t.1 with
    | none => false
    | some y =>
      let f := ext s y
      decide ((comp s f.comp).tenant = tn) && decide (f.state = 1) && decide (f.bport ≠ 0xFF) && decide (dropRank f < 3) &&
        (decide (dropRank f < dropRank e) || (decide (dropRank f = dropRank e) && decide (tget 0 s.tr.heat t.1 < tget 0 s.tr.heat g)))

/-- HBM_PRESSURE_DROP (R394): with the tenant's free frames below one sixteenth, the next copy in order is
dropped; a scratch copy with DIRTY bits is written back by a move first. -/
def execHbmPressureDrop (g : Nat) (s : State) : Host.Outcome State Fault Refusal :=
  .next (match extOf s g with
    | none => s
    | some x =>
      let e := ext s x
      let tn := (comp s e.comp).tenant
      let t := tier s g
      if working s && decide (t.loc = 2) && decide (t.state = 0) && decide (e.state = 1) && decide (e.bport ≠ 0xFF) && decide (dropRank e < 3)
          && decide (tenantFree s tn * 16 < tenantFrames s tn) && !dropsBefore s tn e g then
        if t.dirty = 0 then stateRecord (dropCopy s g) 8
        else
          let n := freeMove s
          let s := setTier (useTake s e.kslot) g { t with state := 1 }
          askLeave (setMove s n { active := true, grain := g, toLoc := 1, slot := e.kslot, gen := e.kgen }) 16 (.move n) 160
      else s)

/-- MIRROR_RESYNC (R397): one recorded sub-grain is copied to the returned backing; DEGRADED clears with
the last. -/
def execMirrorResync (x : Nat) (s : State) : Host.Outcome State Fault Refusal :=
  .next (let e := ext s x
    match e.resync with
    | [] => s
    | r :: t =>
      if working s && portUp s (if r.2 then e.mport else e.bport) && !lineBusy s (e.base + r.1 * 65536) 65536 then
        setExt (trCount s 8 65536) x { e with resync := t, degraded := !t.isEmpty }
      else s)

end Sys2Proof.Machine
end

