-- ==== Sys2Proof/Machine/Isolation.lean ====
section
/-! DEFINITION. Tenants, their channels and ports (R420–R426, R444), contexts (R423, R424), key slots
(R436–R442) and scrubs (R443, R445). -/

namespace Sys2Proof.Machine

/-! ### Tenants -/

/-- A tenant entry. -/
def tenant (s : State) (e : Nat) : Tenant := tget {} s.ie.tenants e
/-- A tenant entry replaced. -/
def setTenant (s : State) (e : Nat) (t : Tenant) : State := { s with ie := { s.ie with tenants := tput {} s.ie.tenants e t } }
/-- A pseudo-channel replaced. -/
def setPch (s : State) (p : Nat) (x : Pch) : State := { s with ie := { s.ie with pch := tput {} s.ie.pch p x } }
/-- The tenant a memory port is assigned to. -/
def iePort (s : State) (p : Nat) : IePort := tget {} s.ie.ports p

/-- The entry a TENANT commit acts on: the tenant's own, or the first free of the 16. -/
def tenantEntry (s : State) (id : Nat) : Nat :=
  (tenantOf s id).getD (((List.range 16).find? fun e => !(tenant s e).status.enabled).getD 16)

/-- A mask meets that of another enabled tenant. -/
def waysMeet (s : State) (id : Nat) (m : Nat) (f : Tenant → Nat) : Bool :=
  s.ie.tenants.any fun t => t.2.status.enabled && decide (t.2.id ≠ id) && decide (f t.2 &&& m ≠ 0)

/-- Something of a tenant still stands (R422). -/
def tenantInUse (s : State) (id : Nat) : Bool :=
  s.tr.comps.any (fun c => decide (c.2.state ≠ 0) && decide (c.2.tenant = id))
    || s.ie.pch.any (fun p => decide (2 ≤ p.2.state ∧ p.2.state ≤ 3) && decide (p.2.tenant = id))
    || s.ie.ports.any (fun p => p.2.assigned && decide (p.2.tenant = id))
    || s.tr.leases.any (fun l => decide (l.2.state ≠ 0) && l.2.borrower && decide (l.2.tenant = id))
    || s.ie.slots.any (fun k => decide (k.2.state ≠ 0) && decide ((comp s k.2.comp).tenant = id))

/-- TLB entries in ways that pass to another tenant go from every slice (R370). -/
def dropWays (s : State) (m : Nat) : State :=
  { s with tu := { s.tu with slices := tmap [] s.tu.slices fun _ l => l.filter fun e => !m.testBit e.way } }

/-- Tier-map cache ways that pass to another tenant are invalidated on every die (R421). -/
def dropTmc (s : State) (m : Nat) : State :=
  { s with ie := { s.ie with tmc := s.ie.tmc.filter fun e => !m.testBit (e.1 % 16) } }

/-- Masks of the TENANT descriptor, over all its forms (R576). -/
def tenantMasks : List Nat := [fmask 0 2 + fmask 16 16, fmask 0 33, 0, 1]

/-- A refused TENANT commit, the reason kept in the entry named. -/
def tenantRefuse (s : State) (e r : Nat) : CtlRes :=
  let t := tenant s e
  let s' := if e < 16 then setTenant s e { t with status := refused t.status r } else s
  refuse s' r (some (statusWord (refused t.status r)))

/-- A TENANT commit of the forms a row stands for. -/
def tenantRow (s : State) (cs : Nat) (sel : List W64 → Bool) (key : List W64 → Nat) (body : State → List W64 → CtlRes) : State :=
  runCtl s cs 0xF4 sel (fun d => stampKey okTenant (key d)) (fun s d => some (statusWord (tenant s (tenantEntry s (df d 0 16 16))).status)) fun s _ d => body s d

/-- COMMIT_TENANT of FORM TENANT, and of the reserved FORM 3, which is refused (R420–R422). -/
def execCommitTenant (cs : Nat) (s : State) : Host.Outcome State Fault Refusal :=
  .next (tenantRow s cs (fun d => decide (df d 0 0 2 = 0) || decide (df d 0 0 2 = 3)) (fun d => df d 0 16 16) fun s d =>
    let id := df d 0 16 16
    let e := tenantEntry s id
    let key := some (stampKey okTenant id)
    if df d 0 0 2 = 3 then tenantRefuse s e (if reservedSet d tenantMasks then 9 else 4)
    else if !enableOf d then
      if (tenantOf s id).isNone then { s := s, status := some (statusWord (tenant s e).status) }
      else if tenantInUse s id then tenantRefuse s e 0x0A04
      else { s := setTenant s e {}, status := some 0, obj := key }
    else
      let tlb := df d 1 0 16
      let tmc := df d 1 16 16
      let r := firstFail [
        (reservedSet d tenantMasks, 9),
        (decide (16 ≤ e), 5),
        (waysMeet s id tlb (·.tlb) || waysMeet s id tmc (·.tmc), 0x0A03)]
      if r ≠ 0 then tenantRefuse s e r
      else
        let old := tenant s e
        let s := dropWays s (tlb - (tlb &&& if old.status.enabled then old.tlb else 0))
        let s := dropTmc s (tmc - (tmc &&& if old.status.enabled then old.tmc else 0))
        { s := setTenant s e { status := { enabled := true }, id := id, capture := decide (df d 1 32 1 = 1), tmc := tmc, tlb := tlb },
          status := some (statusWord { enabled := true }), obj := key })

/-- A channel outside those a tenant may hold (R444). -/
def pchOut (s : State) (p : Nat) : Bool := decide (p < 14) || decide (pchEnd s ≤ p)

/-- COMMIT_TENANT_PCH_ASSIGN (R420, R444). -/
def execCommitTenantPchAssign (cs : Nat) (s : State) : Host.Outcome State Fault Refusal :=
  .next (tenantRow s cs (fun d => decide (df d 0 0 2 = 1) && enableOf d) (fun d => 2 ^ 20 + df d 1 0 7) fun s d =>
    let id := df d 0 16 16
    let p := df d 1 0 7
    let e := tenantEntry s id
    let r := firstFail [
      ((tenantOf s id).isNone, 8),
      (reservedSet d tenantMasks, 9),
      (pchOut s p, 0x0A06),
      (decide ((pch s p).state ≠ 1), 0x0A07)]
    if r ≠ 0 then tenantRefuse s e r
    else { s := setPch s p { pch s p with state := 2, tenant := id }, status := some (statusWord (tenant s e).status),
           obj := some (stampKey okTenant (2 ^ 20 + p)) })

/-- HBM copies in a channel, by frame and grain. -/
def pchCopies (s : State) (p : Nat) : List (Nat × Nat) :=
  (s.tr.frames.filter fun f => decide (framePch f.1 = p) && decide (f.2 ≤ 2 ^ 40)).map fun f => (f.1, f.2 - 1)

/-- A grain's extent is draining, so that its grains are neither promoted nor demoted (R390). -/
def drainingGrain (s : State) (g : Nat) : Bool := (extOf s g).any fun x => decide ((ext s x).state = 2)

/-- Durable copies in a channel dropped (R444), but those of an extent that drains (R390). -/
def vacate (s : State) (p : Nat) : State :=
  (pchCopies s p).foldl (fun s c =>
    if (tier s c.2).loc = 2 ∧ (tier s c.2).frame = c.1 ∧ (tier s c.2).dirty = 0 ∧ scratchGrain s c.2 = false ∧ drainingGrain s c.2 = false
    then dropCopy s c.2 else s) s

/-- COMMIT_TENANT_PCH_RELEASE (R444). -/
def execCommitTenantPchRelease (cs : Nat) (s : State) : Host.Outcome State Fault Refusal :=
  .next (tenantRow s cs (fun d => decide (df d 0 0 2 = 1) && !enableOf d) (fun d => 2 ^ 20 + df d 1 0 7) fun s d =>
    let id := df d 0 16 16
    let p := df d 1 0 7
    let e := tenantEntry s id
    let x := pch s p
    let r := firstFail [
      ((tenantOf s id).isNone, 8),
      (reservedSet d tenantMasks, 9),
      (pchOut s p || !(decide (2 ≤ x.state ∧ x.state ≤ 4) && decide (x.tenant = id)), 0x0A06),
      (decide (x.state ≠ 2) || s.tr.reserved.any (fun f => decide (framePch f.1 = p)), 0x0A07)]
    if r ≠ 0 then tenantRefuse s e r
    else { s := vacate (setPch s p { x with state := 3 }) p, status := some (statusWord (tenant s e).status),
           obj := some (stampKey okTenant (2 ^ 20 + p)) })

/-- An extent that is not FREE has its backing on a port. -/
def portBacks (s : State) (p : Nat) : Bool :=
  s.tr.exts.any fun x => decide (x.2.state ≠ 0) && (decide (x.2.bport = p) || (x.2.mirror && decide (x.2.mport = p)))

/-- COMMIT_TENANT_TRAYPORT (R420, R426). -/
def execCommitTenantTrayport (cs : Nat) (s : State) : Host.Outcome State Fault Refusal :=
  .next (tenantRow s cs (fun d => decide (df d 0 0 2 = 2)) (fun d => 2 ^ 21 + df d 1 0 8) fun s d =>
    let id := df d 0 16 16
    let p := df d 1 0 8
    let e := tenantEntry s id
    let x := iePort s p
    let en := enableOf d
    let r := firstFail [
      ((tenantOf s id).isNone, 8),
      (reservedSet d tenantMasks, 9),
      (decide (191 < p), 4),
      (if en then decide ((port s p).profile ≠ 2) || (x.assigned && decide (x.tenant ≠ id))
       else !x.assigned || decide (x.tenant ≠ id) || portBacks s p, 0x0A09)]
    if r ≠ 0 then tenantRefuse s e r
    else
      let y : IePort := if en then { tenant := id, assigned := true } else {}
      { s := { s with ie := { s.ie with ports := tput {} s.ie.ports p y } }, status := some (statusWord (tenant s e).status),
        obj := some (stampKey okTenant (2 ^ 21 + p)) })

/-! ### Contexts -/

/-- A context. -/
def ctx (s : State) (c : Nat) : Ctx := tget {} s.ie.ctxs c
/-- A context replaced. -/
def setCtx (s : State) (c : Nat) (x : Ctx) : State := { s with ie := { s.ie with ctxs := tput {} s.ie.ctxs c x } }
/-- An ASID object. -/
def asid (s : State) (a : Nat) : Asid := tget {} s.tu.asids a

/-- Checks of a CTX.BIND that enables (R423, R424, R370, R380). -/
def bindReason (s : State) (q : CtlSeq) (d : List W64) : Nat :=
  let x := ctx s (df d 0 0 10)
  let c := df d 0 32 12
  let a := asid s (df d 1 0 16)
  let v := df d 2 48 4
  firstFail [
    (!reaches q c || (x.status.enabled && !reaches q x.comp), 3),
    (x.status.enabled || x.resident, 1),
    (decide ((comp s c).state = 0) || !a.status.enabled, 8),
    (reservedSet d [fmask 0 10 + fmask 32 12, fmask 0 16, fmask 0 52, 1], 9),
    (decide (a.comp ≠ c), 0x0802),
    ((match tenantOf s (comp s c).tenant with | some e => decide ((tenant s e).tlb = 0) | none => true), 0x0804),
    ((List.range 4).any (fun i => v.testBit i && (let k := slot s (df d 2 (12 * i) 12); decide (k.state ≠ 1) || decide (k.comp ≠ c))), 0x0A05)]

/-- CTX_BIND (R423, R424). -/
def execCtxBind (cs : Nat) (s : State) : Host.Outcome State Fault Refusal :=
  .next (runCtl s cs 0x89 enableOf (fun d => stampKey okCtx (df d 0 0 10)) (fun _ _ => none) fun s q d =>
    let n := df d 0 0 10
    let r := bindReason s q d
    if r ≠ 0 then refuse (setCtx s n { ctx s n with status := refused (ctx s n).status r }) r
    else
      let c := df d 0 32 12
      let x : Ctx := { status := { enabled := true }, tenant := (comp s c).tenant, comp := c, asid := df d 1 0 16,
                       slots := (List.range 4).map fun i => df d 2 (12 * i) 12, slotV := df d 2 48 4 }
      { s := setCtx s n x, obj := some (stampKey okCtx n) })

/-- CTX_UNBIND (R423): CTX.BIND with ENABLE 0 never fails where the program reaches the context. -/
def execCtxUnbind (cs : Nat) (s : State) : Host.Outcome State Fault Refusal :=
  .next (runCtl s cs 0x89 (fun d => !enableOf d) (fun d => stampKey okCtx (df d 0 0 10)) (fun _ _ => none) fun s q d =>
    let n := df d 0 0 10
    let x := ctx s n
    if !reaches q (df d 0 32 12) || (x.status.enabled && !reaches q x.comp) then
      refuse (setCtx s n { x with status := refused x.status 3 }) 3
    else { s := setCtx s n { x with status := { x.status with enabled := false, draining := x.resident, reason := 0 } }, obj := some (stampKey okCtx n) })

/-! ### Key slots -/

/-- The key of 16 bytes at an offset of the delivered material. -/
def keyAt (m : Bytes) (i : Nat) : BitVec 128 := blockOf ((m.drop (16 * i)).take 16)

/-- The delivered entry a KEYREF names (R465). -/
def deliveredOf (s : State) (keyref : Nat) : Delivered := tget {} s.ta.deliv (keyref % 256)

/-- Checks of KEY.LOAD (R436, R437, R466). -/
def loadReason (s : State) (q : CtlSeq) (d : List W64) : Nat :=
  let k := slot s (df d 0 0 12)
  let c := df d 0 32 12
  let owner := df d 0 48 16
  let ref := df d 2 0 32
  let e := deliveredOf s ref
  firstFail [
    (!reaches q c || (decide (k.state ≠ 0) && !reaches q k.comp), 3),
    (decide ((comp s c).state = 0), 8),
    (reservedSet d [fmask 0 12 + fmask 16 1 + fmask 32 32, fmask 0 16, fmask 0 32, fmask 0 64, 0, 0, 0, 0]
      || (decide (owner ≠ 0xFFFF) && decide (df d 1 0 16 ≠ 0)), 9),
    (decide (k.state ≠ 0), 0x0A01),
    (!e.used || decide (e.serial ≠ ref / 256), 0x0B01),
    (decide (e.tenant ≠ (comp s c).tenant) || decide (e.owner ≠ owner) || decide (e.sealedMode ≠ decide (df d 0 16 1 = 1)), 0x0B02),
    (decide (leAt (sm3 e.material) 0 8 ≠ (wd d 3).toNat), 0x0A02)]

/-- KEY_LOAD (R436, R437): the material is consumed, and the slot takes its next generation. -/
def execKeyLoad (cs : Nat) (s : State) : Host.Outcome State Fault Refusal :=
  .next (runCtl s cs 0x87 (fun _ => true) (fun d => stampKey okSlot (df d 0 0 12)) (fun _ _ => none) fun s q d =>
    let n := df d 0 0 12
    let k := slot s n
    let r := loadReason s q d
    if r ≠ 0 then refuse (setSlot s n { k with status := refused k.status r }) r
    else
      let ref := df d 2 0 32
      let m := (deliveredOf s ref).material
      let sl := decide (df d 0 16 1 = 1)
      let s := { s with ta := { s.ta with deliv := tput {} s.ta.deliv (ref % 256) {} } }
      let y : KeySlot := { status := { enabled := true }, state := 1, owner := df d 0 48 16, group := df d 1 0 16, comp := df d 0 32 12,
                           gen := if k.gen = 255 then 1 else k.gen + 1, late := k.late, sealed := sl, dataKey := keyAt m 0, tweakKey := keyAt m 1,
                           macKey := if sl then keyAt m 2 else 0 }
      { s := setSlot s n y, obj := some (stampKey okSlot n), size := 128 })

/-- KEY_RETIRE (R439). -/
def execKeyRetire (cs : Nat) (s : State) : Host.Outcome State Fault Refusal :=
  .next (runCtl s cs 0x88 (fun _ => true) (fun d => stampKey okSlot (df d 0 0 12)) (fun _ _ => none) fun s q d =>
    let n := df d 0 0 12
    let k := slot s n
    let t := df d 1 0 32
    let r := firstFail [
      (!reaches q k.comp, 3),
      (reservedSet d [fmask 0 20, fmask 0 32, 0, 0], 9),
      (decide (t ≠ 0) && !decide (10 ≤ t ∧ t ≤ 10000), 4),
      (decide (k.state ≠ 1) || decide (k.gen ≠ df d 0 12 8), 0x0A01)]
    if r ≠ 0 then refuse (setSlot s n { k with status := refused k.status r }) r
    else { s := setSlot s n { k with state := 2, status := { enabled := false, draining := true }, deadline := s.now + (if t = 0 then 100 else t) * 1000 },
           obj := some (stampKey okSlot n) })

/-- A slot zeroised (R440, R441): its keys go, its moves are given up, and it is FREE at its generation. -/
def zeroise (s : State) (n : Nat) : State :=
  let k := slot s n
  let s := (s.tr.moves.filter fun m => m.2.active && decide (m.2.slot = n) && decide (m.2.gen = k.gen)).foldl (fun s m => dropMove s m.2.grain) s
  let k := slot s n
  stateRecord (setSlot (ieCount s 5 1) n { k with state := 0, status := {}, uses := 0, dataKey := 0, tweakKey := 0, macKey := 0, deadline := 0 }) 128

/-- KEY_DRAIN_ZEROISE (R440). -/
def execKeyDrainZeroise (n : Nat) (s : State) : Host.Outcome State Fault Refusal :=
  .next (if working s && decide ((slot s n).state = 2) && decide ((slot s n).uses = 0) then zeroise s n else s)

/-- KEY_RETIRE_TIMEOUT (R440): zeroising forced by TIMEOUT, with a KEY_LATE record. -/
def execKeyRetireTimeout (n : Nat) (s : State) : Host.Outcome State Fault Refusal :=
  .next (let k := slot s n
    if working s && decide (k.state = 2) && decide (k.deadline ≤ s.now) then
      let s := if k.uses = 0 then s
        else faultRecord s (comp s k.comp).part 7 [w64 (place 0 12 n + place 12 8 k.gen + place 32 12 k.comp), w64 k.uses]
      zeroise s n
    else s)

/-! ### Scrubs -/

/-- A scrub engine. -/
def scrubEng (s : State) (d : Nat) : ScrubEng := tget {} s.ie.scrub d
/-- A scrub engine replaced. -/
def setScrub (s : State) (d : Nat) (e : ScrubEng) : State := { s with ie := { s.ie with scrub := tput {} s.ie.scrub d e } }

/-- Time of a scrub on one engine in ns (R444, R445): a channel, or an extent's share. -/
def scrubTime (s : State) (j : Nat × Nat) : Nat :=
  if j.1 = 1 then 44739243 else ceilDiv (ext s j.2).grains (memDies s) * 58250

/-- The 64 KiB units of the scrub under way that are done (`IE_SCRUB.DONE`): the rate is fixed, 32 units in 58.25 µs of an extent's
scrub, so the time that has passed gives them (R443, R445). -/
def scrubDone (s : State) (e : ScrubEng) : Nat :=
  let t := scrubTime s (e.state, e.target)
  if e.state = 0 then 0
  else (t - (e.ends - s.now)) * (if e.state = 1 then 24576 else ceilDiv (ext s e.target).grains (memDies s) * 32) / t

/-- A scrub queued on an engine, which asks leave if it was idle (R443, R507). -/
def queueScrub (s : State) (d : Nat) (j : Nat × Nat) : State :=
  let e := scrubEng s d
  let s' := setScrub s d { e with queue := e.queue ++ [j] }
  if e.state = 0 ∧ e.queue.isEmpty then askLeave s' 16 (.scrub d) 240 else s'

/-- An engine starts the scrub at the head of its queue; it holds its leave. -/
def startScrub (s : State) (d : Nat) : State :=
  let e := scrubEng s d
  match e.queue with
  | [] => s
  | j :: t => setScrub s d { state := j.1, target := j.2, ends := s.now + scrubTime s j, queue := t }

/-- An engine whose scrub has run its time releases its leave, and asks again for the next in its queue. -/
def endScrub (s : State) (d : Nat) : State :=
  let e := scrubEng s d
  if e.state ≠ 0 ∧ e.ends ≤ s.now then
    let s := dropLeave (setScrub s d { queue := e.queue }) 16 240
    if e.queue.isEmpty then s else askLeave s 16 (.scrub d) 240
  else s

/-- A scrub is running or queued on some engine. -/
def scrubbing (s : State) (j : Nat × Nat) : Bool :=
  s.ie.scrub.any fun e => (decide (e.2.state = j.1) && decide (e.2.target = j.2)) || e.2.queue.contains j

/-- Every engine past its time ends its scrub. -/
def endScrubs (s : State) : State := (List.range 4).foldl endScrub s

/-- The scrub of an extent queued on every engine (R445). -/
def scrubExtent (s : State) (x : Nat) : State := (List.range (memDies s)).foldl (fun s d => queueScrub s d (2, x)) s

/-- Lease copies of an extent's grains dropped (R445). -/
def dropLeased (s : State) (x : Nat) : State :=
  let e := ext s x
  (s.tr.tmap.filter fun t => decide (t.2.loc = 3) && decide (e.base / grainB ≤ t.1) && decide (t.1 < e.base / grainB + e.grains)).foldl
    (fun s t => dropCopy s t.1) s

/-- EXT_SCRUB (R445). -/
def execExtScrub (cs : Nat) (s : State) : Host.Outcome State Fault Refusal :=
  .next (runCtl s cs 0x86 (fun _ => true) (fun d => stampKey okExtent (df d 0 0 18)) (fun _ _ => none) fun s q d =>
    let x := df d 0 0 18
    let e := ext s x
    if e.state = 4 ∧ e.scrubBy = ctlStamp q then { s := s, wait := .scrub x }
    else
      let r := firstFail [
        (decide (e.state ≠ 0) && decide (e.comp ≠ df d 0 32 12), 3),
        (reservedSet d [fmask 0 18 + fmask 32 12, 0, 0, 0], 9),
        (decide (e.state ≠ 3) || slotLive s e.kslot e.kgen, 0x0A08)]
      if r ≠ 0 then refuse (setExt s x { e with status := refused e.status r }) r
      else
        let s := dropLeased (setExt s x { e with state := 4, scrubBy := ctlStamp q, status := {} }) x
        { s := scrubExtent s x, wait := .scrub x })

/-- EXT_SCRUB_END (R445): the extent is FREE, its HBM copies are zero, and its grains are UNTOUCHED. -/
def execExtScrubEnd (x : Nat) (s : State) : Host.Outcome State Fault Refusal :=
  .next (if working s && decide ((ext s x).state = 4) then
    let s := endScrubs s
    if scrubbing s (2, x) then s
    else
      let e := ext s x
      let g := e.base / grainB
      let mine := s.tr.tmap.filter fun t => decide (g ≤ t.1) && decide (t.1 < g + e.grains)
      let copies := mine.filter fun t => decide (t.2.loc = 2)
      let s := copies.foldl (fun s t => freeFrame s t.2.frame) s
      let s := { s with tr := { s.tr with tmap := s.tr.tmap.filter fun t => !(decide (g ≤ t.1) && decide (t.1 < g + e.grains)) } }
      let s := setExt (unreserve (ieCount s 4 (copies.length * grainB)) x) x {}
      match (List.range 9).find? fun cs => decide ((ctl s cs).wait = .scrub x) with
      | some cs => ctlComplete s cs 0 none (some (stampKey okExtent x)) 32
      | none => stateRecord s 32
  else s)

/-- PCH_VACATED (R444): the channel holds no copy, and its scrub is queued on the engine of its die. -/
def execPchVacated (p : Nat) (s : State) : Host.Outcome State Fault Refusal :=
  .next (if working s && decide ((pch s p).state = 3) && (pchCopies s p).isEmpty then
    queueScrub (stateRecord (setPch s p { pch s p with state := 4 }) 8) (p / 32) (1, p)
  else s)

/-- PCH_SCRUB_END (R444). -/
def execPchScrubEnd (p : Nat) (s : State) : Host.Outcome State Fault Refusal :=
  .next (if working s && decide ((pch s p).state = 4) then
    let s := endScrubs s
    if scrubbing s (1, p) then s
    else stateRecord (setPch (ieCount s 4 1610612736) p { pch s p with state := 1, tenant := 0 }) 8
  else s)

end Sys2Proof.Machine
end

