-- ==== Sys2Proof/Machine/Translate.lean ====
section
/-! DEFINITION. Address translation (R362–R375): page-table entries, TLBs and walk caches by tenant, walks,
and the fault table. -/

namespace Sys2Proof.Machine

/-- A memory access by virtual address: its engine, address space, address, the right it needs (0 Read,
1 Write, 2 Atomic), and the context it runs under. -/
structure VAcc where
  eng    : TrEng := .copy 0
  asid   : Nat := 0
  va     : Nat := 0
  need   : Nat := 0
  comp   : Nat := 0
  ctx    : Nat := 0
  tenant : Nat := 0
deriving DecidableEq, Repr

/-- What a translation gives: an address with its region and key, an end with a status, or a wait. -/
inductive Tr where
  | ok (fa region rkey : Nat)
  | ends (status : Nat)
  | waits
deriving DecidableEq, Repr

/-- The engine number of R372. -/
def engNo (s : State) : TrEng → Nat
  | .stage q n => let g := stageOf (seam s q) n; (g.ty - 1) * 128 + g.phys
  | .copy e => 896 + e

/-- The slice an engine translates in (R369). -/
def engSlice (s : State) : TrEng → Nat
  | .stage q n => let g := stageOf (seam s q) n; unitDie g.ty g.phys
  | .copy e => e % 4

/-- Bit of an engine in a waiter bitmap (R372). -/
def engBit : TrEng → Nat
  | .stage q _ => q
  | .copy e => 96 + e

/-- A TU counter (R382) raised. -/
def tuCount (s : State) (i n : Nat) : State := { s with tu := { s.tu with ctr := tmod 0 s.tu.ctr i fun c => satInc c n } }

/-! ### Caches -/

/-- Shift of the address bits a cached entry is keyed by: level-1 result, level-2 result, 64 KiB, 512 MiB. -/
def keyShift (kind : Nat) : Nat := if kind = 1 then 42 else if kind = 2 then 29 else if kind = 3 then 16 else 29

/-- An entry covers an address of an address space. -/
def entHits (asid va : Nat) (e : TlbEnt) : Bool := decide (e.asid = asid) && decide (e.key = va / 2 ^ keyShift e.kind)

/-- Sets of the structure that holds a kind. -/
def kindSets (kind : Nat) : Nat := if kind = 3 then 512 else if kind = 4 then 16 else 64

/-- Two kinds share a structure of a slice: the walk cache holds both pointer kinds. -/
def sameCache (a b : Nat) : Bool := decide (a = b) || (decide (a ≤ 2) && decide (b ≤ 2))

/-- The way mask of a tenant (R370). -/
def tlbMask (s : State) (tenantId : Nat) : Nat := match tenantOf s tenantId with
  | some e => (tenant s e).tlb
  | none => 0

/-- Entries of a slice. -/
def sliceEnts (s : State) (i : Nat) : List TlbEnt := tget [] s.tu.slices i

/-- A hit of a kind in a tenant's ways of a slice. -/
def sliceFind (s : State) (i mask asid va kind : Nat) : Option TlbEnt :=
  (sliceEnts s i).find? fun e => decide (e.kind = kind) && mask.testBit e.way && entHits asid va e

/-- The tick of the caches' use order. -/
def useTick (s : State) : State := { s with tu := { s.tu with clock := s.tu.clock + 1 } }

/-- The way an entry takes in its set: the lowest free one of the tenant's, else its least recently used (R370). -/
def pickWay (l : List TlbEnt) (mask kind key : Nat) : Nat :=
  let here := l.filter fun e => sameCache e.kind kind && decide (e.key % kindSets kind = key % kindSets kind) && mask.testBit e.way
  match (List.range 16).find? fun w => mask.testBit w && !here.any (fun e => decide (e.way = w)) with
  | some w => w
  | none => (here.foldl (fun (b : Nat × Nat) e => if e.used < b.2 then (e.way, e.used) else b) (0, 2 ^ 64)).1

/-- An entry installed in a slice in a tenant's ways; none is with an empty mask. -/
def sliceInstall (s : State) (i mask : Nat) (e : TlbEnt) : State :=
  if mask = 0 then s
  else
    let l := sliceEnts s i
    let w := pickWay l mask e.kind e.key
    let l := l.filter fun x => !(sameCache x.kind e.kind && decide (x.key % kindSets e.kind = e.key % kindSets e.kind) && decide (x.way = w))
    let s := useTick s
    { s with tu := { s.tu with slices := tput [] s.tu.slices i (l ++ [{ e with way := w, used := s.tu.clock }]) } }

/-- A leaf installed in an engine's micro-TLB of 16 entries, in place of its least recently used. -/
def microInstall (s : State) (n : Nat) (e : TlbEnt) : State :=
  let l := tget [] s.tu.micro n
  { s with tu := { s.tu with micro := tput [] s.tu.micro n ((if l.length < 16 then l else l.drop 1) ++ [e]) } }

/-- A micro-TLB cleared (R370). -/
def microClear (s : State) (n : Nat) : State := { s with tu := { s.tu with micro := tput [] s.tu.micro n [] } }

/-- The address an entry gives. -/
def entFa (e : TlbEnt) (va : Nat) : Nat := e.fa + va % 2 ^ keyShift e.kind

/-! ### Regions of a translated address (R367) -/

/-- The region of a composition that contains an address. -/
def regionFor (s : State) (c fa : Nat) : Option (Nat × Region) :=
  s.tr.regions.find? fun r => r.2.status.enabled && decide (r.2.comp = c) && decide (r.2.base ≤ fa) && decide (fa < r.2.base + r.2.pages * 65536)

/-! ### Faults (R371–R375) -/

/-- A fault-table entry. -/
def faultEnt (s : State) (i : Nat) : FaultEnt := tget {} s.tu.faults i
/-- A fault-table entry replaced. -/
def setFault (s : State) (i : Nat) (e : FaultEnt) : State := { s with tu := { s.tu with faults := tput {} s.tu.faults i e } }

/-- The FID of an entry: generation and number. -/
def fidOf (i : Nat) (e : FaultEnt) : Nat := e.gen % 64 * 1024 + i

/-- Words 2–7 of a translation fault record (R373). -/
def faultWords (i : Nat) (e : FaultEnt) : List W64 :=
  let bits := (e.waiters.map engBit).eraseDups
  let map := bits.foldl (fun m b => m + 2 ^ b) 0
  [w64 (place 16 40 e.vpn + place 0 16 e.asid),
   w64 (place 48 16 (fidOf i e) + place 32 12 e.comp + place 16 10 e.ctx + place 8 2 e.level + place 6 2 e.cause + place 3 3 e.have_ + place 0 3 e.need),
   w64 map, w64 (map / 2 ^ 64), w64 (place 48 16 e.tenant + place 0 16 e.count), w64 (place 0 60 e.entryFa)]

/-- The held record of a fault entry in its partition's ring. -/
def isFaultRec (i : Nat) (e : FaultEnt) (ws : List W64) : Bool :=
  decide (fld (wd ws 0) 0 8 = 1) && decide (fld (wd ws 3) 48 16 = fidOf i e) && decide (fld (wd ws 2) 0 16 = e.asid)

/-- The record of an entry is held and not yet written: `TU_FAULT.STATE` is then 1, else 2. -/
def recordHeld (s : State) (i : Nat) (e : FaultEnt) : Bool := (ring s ((comp s e.comp).part % 16)).held.any (isFaultRec i e)

/-- The held record of an entry changed or taken away. -/
def editHeld (s : State) (part i : Nat) (e : FaultEnt) (f : List W64 → Option (List W64)) : State :=
  let r := ring s part
  setRing s part { r with held := r.held.filterMap fun ws => if isFaultRec i e ws then f ws else some ws }

/-- An entry's record queued (R373): written when the ring takes it, else held. -/
def queueFault (s : State) (i : Nat) (e : FaultEnt) : State :=
  faultRecord (setFault s i e) ((comp s e.comp).part % 16) 1 (faultWords i e)

/-- A fault's state in its engine (`TU_ENG_FAULT`). -/
def setEng (s : State) (n : Nat) (x : EngFault) : State := { s with tu := { s.tu with eng := tput {} s.tu.eng n x } }

/-- An open entry of a page. -/
def openFault (s : State) (a vpn : Nat) : Option (Nat × FaultEnt) :=
  s.tu.faults.find? fun f => decide (f.2.state ≠ 0) && decide (f.2.asid = a) && decide (f.2.vpn = vpn)

/-- A free entry of the 1,024. -/
def freeFault (s : State) : Option Nat := (List.range 1024).find? fun i => decide ((faultEnt s i).state = 0)

/-- A fault joins the open entry of its page or opens a free one; with neither it stays in its engine
(R372, R374). -/
def takeFault (s : State) (x : EngFault) : State :=
  let n := engNo s x.eng
  match openFault s x.asid x.vpn with
  | some (i, e) =>
    let e' := { e with need := e.need ||| x.need, count := e.count + 1, waiters := e.waiters ++ [x.eng] }
    let s := tuCount (setEng (setFault s i e') n { x with state := 2 }) 4 1
    editHeld s ((comp s e.comp).part % 16) i e fun ws => some (ws.take 2 ++ faultWords i e')
  | none => match freeFault s with
    | some i =>
      let e : FaultEnt := { state := 1, gen := ((faultEnt s i).gen + 1) % 64, asid := x.asid, vpn := x.vpn, cause := x.cause, need := x.need,
                            have_ := x.have_, level := x.level, comp := x.comp, ctx := x.ctx, tenant := x.tenant, entryFa := x.entryFa,
                            count := 1, waiters := [x.eng] }
      queueFault (tuCount (setEng s n { x with state := 2 }) 3 1) i e
    | none => setEng (if x.state = 1 then s else tuCount s 5 1) n { x with state := 1 }

/-- An access faults (R371): its engine stalls. -/
def raiseFault (s : State) (a : VAcc) (cause have_ level entryFa : Nat) : State :=
  takeFault s { vpn := a.va / 65536, asid := a.asid, need := 2 ^ a.need, cause := cause, have_ := have_, level := level, entryFa := entryFa,
                ctx := a.ctx, comp := a.comp, tenant := a.tenant, eng := a.eng }

/-- An entry freed; a record not yet written is withdrawn (R375, R377). -/
def freeEntry (s : State) (i : Nat) : State :=
  let e := faultEnt s i
  let s := if recordHeld s i e then editHeld (tuCount s 6 1) ((comp s e.comp).part % 16) i e fun _ => none else s
  setFault s i { gen := e.gen }

/-- An engine leaves the entry it waits on and any walk it shares (R375). -/
def leaveFaults (s : State) (eng : TrEng) : State :=
  let s := setEng s (engNo s eng) {}
  let s := { s with tu := { s.tu with walks := tmap {} s.tu.walks fun _ w => { w with waiters := w.waiters.filter fun x => decide (x.1 ≠ eng) } } }
  (tkeys s.tu.faults).foldl (fun s i =>
    let e := faultEnt s i
    if e.state ≠ 0 ∧ e.waiters.contains eng then
      let e' := { e with waiters := e.waiters.filter (· ≠ eng), count := e.count - 1 }
      if e'.waiters.isEmpty then freeEntry s i
      else
        editHeld (setFault s i e') ((comp s e.comp).part % 16) i e fun ws => some (ws.take 2 ++ faultWords i e')
    else s) s

/-- The engine is stalled on a fault. -/
def engStalled (s : State) (eng : TrEng) : Bool := decide ((tget {} s.tu.eng (engNo s eng)).state ≠ 0)

/-! ### Walks (R364, R365, R369) -/

/-- The address of the entry a walk reads. -/
def walkFa (w : Walk) : Nat :=
  let va := w.vpn * 65536
  w.table + 8 * (if w.level = 1 then fldN va 42 14 else if w.level = 2 then fldN va 29 13 else fldN va 16 13)

/-- The deepest pointer a tenant's walk cache holds for an address: the level to read and its table. -/
def walkFrom (s : State) (i mask a va : Nat) : Nat × Nat :=
  match sliceFind s i mask a va 2 with
  | some e => (3, e.fa)
  | none => match sliceFind s i mask a va 1 with
    | some e => (2, e.fa)
    | none => (1, (asid s a).root)

/-- A lookup that misses joins the walk of its page in its slice, or starts one (R369). -/
def startWalk (s : State) (a : VAcc) : State :=
  let i := engSlice s a.eng
  let vpn := a.va / 65536
  let s := tuCount s 1 1
  match s.tu.walks.find? fun w => w.2.active && decide (w.2.slice = i) && decide (w.2.asid = a.asid) && decide (w.2.vpn = vpn) with
  | some (n, w) =>
    if w.waiters.any fun x => decide (x.1 = a.eng) then s
    else { s with tu := { s.tu with walks := tput {} s.tu.walks n { w with waiters := w.waiters ++ [(a.eng, a.need)] } } }
  | none =>
    let n := ((List.range (s.tu.walks.length + 1)).find? fun k => !(tget {} s.tu.walks k).active).getD 0
    let (l, t) := walkFrom s i (tlbMask s a.tenant) a.asid a.va
    let w : Walk := { active := true, slice := i, asid := a.asid, vpn := vpn, level := l, table := t, tenant := a.tenant, comp := a.comp,
                      ctx := a.ctx, waiters := [(a.eng, a.need)] }
    { s with tu := { s.tu with walks := tput {} s.tu.walks n w } }

/-- Region and key of an access through a leaf (R367): those the entry holds, and within a 512 MiB page, which may span several
regions, those of the region that contains the address. -/
def leafRegion (s : State) (a : VAcc) (e : TlbEnt) : Option (Nat × Nat) :=
  if e.kind = 4 then (regionFor s a.comp (entFa e a.va)).map fun x => if x.1 = e.region then (e.region, e.rkey) else (x.1, x.2.rkey)
  else some (e.region, e.rkey)

/-- A leaf met by an access: its address, a RIGHTS fault (R366), or RIGHTS where no region contains the address (R367). -/
def useLeaf (s : State) (a : VAcc) (e : TlbEnt) : State × Tr :=
  if e.rights.testBit a.need then
    match leafRegion s a e with
    | none => (s, .ends 3)
    | some r => (s, .ok (entFa e a.va) r.1 r.2)
  else (raiseFault s a 1 e.rights (if e.kind = 4 then 2 else 3) e.entry, .waits)

/-- The translation of an access: micro-TLB, then the slice's TLBs, then a walk (R369). -/
def translate (s : State) (a : VAcc) : State × Tr :=
  if (asid s a.asid).status.enabled = false then (s, .ends 3)
  else
    let n := engNo s a.eng
    match (tget [] s.tu.micro n).find? (entHits a.asid a.va) with
    | some e =>
      let l := (tget [] s.tu.micro n).erase e
      useLeaf { s with tu := { s.tu with micro := tput [] s.tu.micro n (l ++ [e]) } } a e
    | none =>
      let s := tuCount s 0 1
      let i := engSlice s a.eng
      let m := tlbMask s a.tenant
      match (sliceFind s i m a.asid a.va 3).orElse fun _ => sliceFind s i m a.asid a.va 4 with
      | some e =>
        let s := useTick s
        let l := (sliceEnts s i).map fun x => if x = e then { x with used := s.tu.clock } else x
        useLeaf (microInstall { s with tu := { s.tu with slices := tput [] s.tu.slices i l } } n e) a e
      | none => (startWalk s a, .waits)

/-- A page-table entry breaks a condition of R365 at a level. -/
def pteBad (s : State) (level w : Nat) : Bool :=
  let fa := fldN w 16 44 * 65536
  let leaf := decide (fldN w 1 1 = 1)
  let r := fldN w 2 3
  decide (fldN w 60 4 ≠ 0) || decide (fldN w 5 3 ≠ 0) ||
  (if level = 3 then !leaf
   else if leaf then decide (level = 1) || decide (fa % 2 ^ 29 ≠ 0)
   else decide (r ≠ 0) || decide (faSwitch fa ≠ s.swNum) || decide (fa % 65536 ≠ 0))

/-- What a walk's read came to: the next level, a leaf installed for its waiters, the end of their
accesses with a status, or a fault of each. -/
inductive WalkEnd where
  | goes
  | wake (l : List TrEng)
  | fails (l : List TrEng) (status : Nat)
deriving DecidableEq, Repr

/-- Rights of a leaf as a mask: [2] Atomic, [1] Write, [0] Read. -/
def pteRights (w : Nat) : Nat := fldN w 2 3

/-- A walk ends. -/
def dropWalk (s : State) (n : Nat) : State := { s with tu := { s.tu with walks := tput {} s.tu.walks n {} } }

/-- The access of a waiter of a walk. -/
def waiterAcc (w : Walk) (x : TrEng × Nat) : VAcc :=
  { eng := x.1, asid := w.asid, va := w.vpn * 65536, need := x.2, comp := w.comp, ctx := w.ctx, tenant := w.tenant }

/-- A walk's read has returned a status and an entry (R366–R369, R371, R376). -/
def walkRead (s : State) (n status : Nat) (v : W64) : State × WalkEnd :=
  let w := tget {} s.tu.walks n
  let engs := w.waiters.map (·.1)
  let m := tlbMask s w.tenant
  let va := w.vpn * 65536
  if (asid s w.asid).status.enabled = false then (dropWalk s n, .fails engs 3)
  else if w.poisoned then
    let (l, t) := walkFrom s w.slice m w.asid va
    ({ s with tu := { s.tu with walks := tput {} s.tu.walks n { w with poisoned := false, level := l, table := t } } }, .goes)
  else
    let s := tuCount s 2 1
    let x := v.toNat
    if status ≠ 0 then (dropWalk s n, .fails engs status)
    else if x % 2 = 0 then (w.waiters.foldl (fun s y => raiseFault s (waiterAcc w y) 0 0 w.level (walkFa w)) (dropWalk s n), .goes)
    else if pteBad s w.level x then (w.waiters.foldl (fun s y => raiseFault s (waiterAcc w y) 2 0 w.level (walkFa w)) (dropWalk s n), .goes)
    else
      let fa := fldN x 16 44 * 65536
      if w.level < 3 ∧ fldN x 1 1 = 0 then
        let s := sliceInstall s w.slice m { asid := w.asid, key := va / 2 ^ keyShift w.level, kind := w.level, fa := fa }
        ({ s with tu := { s.tu with walks := tput {} s.tu.walks n { w with level := w.level + 1, table := fa } } }, .goes)
      else
        let kind := if w.level = 2 then 4 else 3
        let at_ := fa + va % 2 ^ keyShift kind
        match regionFor s w.comp at_ with
        | none =>
          let lack := w.waiters.filter fun y => !(pteRights x).testBit y.2
          (lack.foldl (fun s y => raiseFault s (waiterAcc w y) 1 (pteRights x) w.level (walkFa w)) (dropWalk s n),
            .fails ((w.waiters.filter fun y => (pteRights x).testBit y.2).map (·.1)) 3)
        | some (r, y) =>
          let e : TlbEnt := { asid := w.asid, key := va / 2 ^ keyShift kind, kind := kind, fa := fa, rights := pteRights x, region := r, rkey := y.rkey, entry := walkFa w }
          let s := sliceInstall (dropWalk s n) w.slice m e
          (engs.foldl (fun s g => microInstall s (engNo s g) e) s, .wake engs)

/-- A walk is one of the 64 its slice runs (R369). -/
def walkRuns (s : State) (n : Nat) : Bool :=
  let w := tget {} s.tu.walks n
  w.active && decide ((s.tu.walks.filter fun x => x.2.active && decide (x.2.slice = w.slice) && decide (x.1 < n)).length < 64)

/-- Every cached translation of an ASID goes, and its walks under way restart (R376 steps 1 and 2). -/
def dropAsid (s : State) (a : Nat) : State :=
  { s with tu := { s.tu with micro := tmap [] s.tu.micro fun _ l => l.filter fun e => decide (e.asid ≠ a)
                             slices := tmap [] s.tu.slices fun _ l => l.filter fun e => decide (e.asid ≠ a)
                             walks := tmap {} s.tu.walks fun _ w => if w.asid = a then { w with poisoned := true } else w } }

end Sys2Proof.Machine
end

