-- ==== Sys2Proof/Machine/Copy.lean ====
section
/-! DEFINITION. Copy engines (R278–R280), synchronisation objects as configured (R285, R286), and updates
that an engine of this switch makes (R250, R274, R289). -/

namespace Sys2Proof.Machine

/-! ### Updates by an engine -/

/-- An update of an object of this switch, made here under its key (R250): its status, and the state. -/
def localUpdate (s : State) (f : Frame) : Nat × State :=
  let n := f.dst % 16384
  let sig := decide (f.op = 0x0A)
  match updateValue s n f.comp sig (leAt f.data 0 8) with
  | none => (3, s)
  | some v =>
    match cacheStep s f with
    | .hit _ => (0, teCount s 0 1)
    | .refuse st => (st, if st = 7 then teCount s 1 1 else s)
    | .fresh => if rcFull s f then (1, teCount s 2 1) else (0, rcRecord (setObject s n v) f 0)

/-- STREAM of a key (R274): the 27 bits that name the issuer's record or transfer, the issuer's number, and
the count's high part. -/
def keyStream (hi issuer n : Nat) : Nat := hi % 2 ^ 27 * 2 ^ 13 + issuer * 256 + n / 65536 % 256

/-- The issue mark of an issuer of a record (R274). -/
def issueMark (s : State) (seq issuer : Nat) : Nat := tget 0 s.te.marks (seq * 32 + issuer)

/-- A mark raised past a count (R274). -/
def markIssued (s : State) (seq issuer n : Nat) : State :=
  { s with te := { s.te with marks := tput 0 s.te.marks (seq * 32 + issuer) (max (issueMark s seq issuer) (n + 1)) } }

/-- ISSUE_TIME of an issuer's n-th update: the first run's start below its mark, else now (R274). -/
def issueTime (s : State) (seq issuer n : Nat) : Nat :=
  if n < issueMark s seq issuer then ((findRec s seq).map (·.firstRun)).getD s.now else s.now

/-- The frame of an update of an object (R290). -/
def updateFrame (s : State) (op sw obj c v : Nat) : Frame :=
  { op := op, tc := 3, src := ownId s, dst := sw * 2 ^ 48 + objBase + obj, comp := c, mapE := curEpoch s c,
    routeE := (route s sw).epoch, len := 8, data := bytesLE 8 v }

/-! ### Copy engines -/

/-- A copy engine. -/
def copyEng (s : State) (e : Nat) : CopyEng := tget {} s.te.copy e
/-- A copy engine replaced. -/
def setCopy (s : State) (e : Nat) (x : CopyEng) : State := { s with te := { s.te with copy := tput {} s.te.copy e x } }

/-- The access of a copy engine to an address. -/
def copyAcc (s : State) (e va need : Nat) : VAcc :=
  let x := copyEng s e
  let c := ctx s x.ctx
  { eng := .copy e, asid := c.asid, va := va, need := need, comp := x.comp, ctx := x.ctx, tenant := c.tenant }

/-- Virtual address of a ring slot. -/
def slotVa (x : CopyEng) (i : Nat) : Nat := x.base + i % 2 ^ x.log2 * 32

/-- Index of the next descriptor to take. -/
def nextIndex (x : CopyEng) : W32 := x.cons + w32 x.xfers.length

/-- A transfer changed. -/
def editXfer (s : State) (e i : Nat) (f : Transfer → Transfer) : State :=
  let x := copyEng s e
  setCopy s e { x with xfers := x.xfers.map fun t => if t.index = i then f t else t }

/-- A chunk of a transfer changed. -/
def editChunk (s : State) (e i off : Nat) (f : Chunk → Chunk) : State :=
  editXfer s e i fun t => { t with chunks := t.chunks.map fun c => if c.off = off then f c else c }

/-- Complete transfers leave the front: CONSUMER names the oldest that is not (R293). -/
def popXfers (s : State) (e : Nat) : State :=
  let x := copyEng s e
  let done := x.xfers.takeWhile fun t => decide (t.st = 4)
  setCopy s e { x with xfers := x.xfers.drop done.length, cons := x.cons + w32 done.length }

/-- An ARRIVE of a transfer to its OBJ (R279, R280): here at once, elsewhere as a tagged request. One that a full reply cache answers
with RETRY_LATER stays outstanding, to be sent again (R273). -/
def copyArrive (s : State) (e : Nat) (t : Transfer) (count : Nat) : State :=
  let x := copyEng s e
  let sw := if t.remote then t.switch else s.swNum
  let f := { updateFrame s 0x09 sw t.obj x.comp count with
    stream := keyStream (e % 32 * 2 ^ 22 + t.seq % 2 ^ 22) 29 t.updates, tag := t.updates % 65536, issueT := s.now }
  let s := editXfer s e t.index fun t => { t with updates := t.updates + 1 }
  if sw = s.swNum then
    match localUpdate s f with
    | (1, s) => keepOut s f (.copyArrive e t.index)
    | (_, s) => s
  else issue s f (.copyArrive e t.index)

/-- A transfer stops with a status at a byte offset (R280): its slot's word 0 is to be written. -/
def stopXfer (s : State) (e i status off : Nat) : State :=
  editXfer s e i fun t => if t.st = 4 ∨ t.st = 3 then t else { t with st := 3, chunks := [], word0 := place 0 8 status + place 8 56 off }

/-- Outstanding requests of a copy engine (R265). -/
def copyOut (s : State) (e : Nat) : Nat := outCount s fun w => match w with
  | .copyRead x _ _ => decide (x = e)
  | .copyWrite x _ _ => decide (x = e)
  | .copyArrive x _ => decide (x = e)
  | .copyDesc x _ => decide (x = e)
  | .copyStatus x _ => decide (x = e)
  | _ => false

/-- A memory request of an engine at a translated address. -/
def memReq (s : State) (op tc fa c region rkey len : Nat) (data : Bytes) : Frame :=
  { op := op, tc := tc, src := ownId s, dst := fa, comp := c, mapE := curEpoch s c, routeE := (route s (faSwitch fa)).epoch,
    region := region, rkey := rkey, len := len, data := data }

/-- READs of a source range, in 32-byte units within 4 KiB pages, each translated for itself (R364): address and length of each. -/
def readParts (va n : Nat) : List (Nat × Nat) :=
  let lo := va / 32 * 32
  let hi := ceilDiv (va + n) 32 * 32
  let mid := (va / 4096 + 1) * 4096
  if hi ≤ mid then [(lo, hi - lo)] else [(lo, mid - lo), (mid, hi - mid)]

/-- Bytes of a range from its READs' data, in order. -/
def readJoin (va n : Nat) (parts : Tab Bytes) : Bytes := ((parts.flatMap (·.2)).drop (va % 32)).take n

/-- What a copy engine does next. -/
inductive CopyAct where
  | none
  | desc
  | status (t : Transfer)
  | read (t : Transfer) (c : Chunk)
  | write (t : Transfer) (c : Chunk)
  | cut (t : Transfer)
deriving DecidableEq, Repr

/-- The next act in ring order: the status of a stopped transfer, a chunk read, a chunk to write, a
transfer to be cut further, and otherwise the next descriptor, within 64 transfers (R279). -/
def copyAct (x : CopyEng) : CopyAct :=
  let one := fun (t : Transfer) =>
    if t.st = 3 ∧ t.word0 ≠ 0 then some (CopyAct.status t)
    else if t.st ≠ 2 then none
    else match t.chunks.find? fun c => decide (c.st = 2) with
      | some c => some (.write t c)
      | none => match t.chunks.find? fun c => decide (c.st = 0) with
        | some c => some (.read t c)
        | none => if t.next < t.length then some (.cut t) else none
  match x.xfers.findSome? one with
  | some a => a
  | none => if x.xfers.length < 64 ∧ nextIndex x ≠ x.prod ∧ x.xfers.all (fun t => decide (t.st ≠ 1)) then .desc else .none

/-- The chunk a transfer is cut into next: it ends at a 4 KiB boundary of the destination (R279). -/
def nextChunk (t : Transfer) : Chunk :=
  { off := t.next, len := min (t.length - t.next) (4096 - (t.dst + t.next) % 4096) }

/-- The access of a copy engine's next act has ended with a status: the transfer stops, and one whose status
cannot be written is over (R280). -/
def copyFail (s : State) (e st : Nat) : State :=
  let x := copyEng s e
  match copyAct x with
  | .none => s
  | .cut _ => s
  | .desc =>
    let i := (nextIndex x).toNat
    stopXfer (setCopy s e { x with xfers := x.xfers ++ [{ index := i, seq := x.count }], count := x.count + 1 }) e i st 0
  | .status t => popXfers (editXfer (copyArrive s e t (2 ^ 63)) e t.index fun t => { t with st := 4 }) e
  | .read t c => stopXfer s e t.index st c.off
  | .write t c => stopXfer s e t.index st c.off

/-- One act of a copy engine: the state, and whether it may go on. -/
def copyStep (s : State) (e : Nat) : State × Bool :=
  let x := copyEng s e
  match copyAct x with
  | .none => (s, false)
  | .desc =>
    let i := (nextIndex x).toNat
    match translate s (copyAcc s e (slotVa x i) 0) with
    | (s, .waits) => (s, false)
    | (s, .ends st) => (copyFail s e st, true)
    | (s, .ok fa r k) =>
      let s := setCopy s e { x with xfers := x.xfers ++ [{ index := i, st := 1, seq := x.count }], count := x.count + 1 }
      (issueNew s (memReq s 0x01 4 fa x.comp r k 32 []) (.copyDesc e i), false)
  | .status t =>
    match translate s (copyAcc s e (slotVa x t.index) 1) with
    | (s, .waits) => (s, false)
    | (s, .ends st) => (copyFail s e st, true)
    | (s, .ok fa r k) =>
      let s := issueNew s (memReq s 0x02 4 fa x.comp r k 8 (bytesLE 8 t.word0)) (.copyStatus e t.index)
      (editXfer s e t.index fun t => { t with word0 := 0 }, true)
  | .cut t => (editXfer s e t.index fun t => { t with chunks := t.chunks ++ [nextChunk t], next := t.next + (nextChunk t).len }, true)
  | .read t c =>
    let ps := readParts (t.src + c.off) c.len
    let part := ps.getD c.sent (0, 0)
    match translate s (copyAcc s e part.1 0) with
    | (s, .waits) => (s, false)
    | (s, .ends st) => (copyFail s e st, true)
    | (s, .ok fa r k) =>
      let s := editChunk s e t.index c.off fun c =>
        { c with st := if c.sent + 1 < ps.length then 0 else 1, sent := c.sent + 1, left := c.left ++ [c.sent] }
      (issueNew s (memReq s 0x01 4 fa x.comp r k part.2 []) (.copyRead e t.index (c.off * 2 + c.sent)), true)
  | .write t c =>
    match translate s (copyAcc s e (t.dst + c.off) 1) with
    | (s, .waits) => (s, false)
    | (s, .ends st) => (copyFail s e st, true)
    | (s, .ok fa r k) =>
      let data := readJoin (t.src + c.off) c.len c.parts
      let s := editChunk s e t.index c.off fun c => { c with st := 3 }
      (issueNew s (memReq s 0x02 4 fa x.comp r k data.length data) (.copyWrite e t.index c.off), true)

/-- A copy engine goes on until it waits, within its 512 requests (R265). -/
def copyPump (e : Nat) : Nat → State → State
  | 0, s => s
  | n + 1, s =>
    if (copyEng s e).status.enabled = false ∨ engStalled s (.copy e) = true ∨ 511 ≤ copyOut s e then s
    else match copyStep s e with
      | (s, true) => copyPump e n s
      | (s, false) => s

/-- A copy engine goes on. -/
def copyGo (s : State) (e : Nat) : State := copyPump e 1200 s

/-- The descriptor of a transfer has been read (*Copy descriptor*), or its read has failed. -/
def copyDescDone (s : State) (e i status : Nat) (data : Bytes) : State :=
  let w := bytesWords 4 data
  let s := if status = 0 then
      editXfer s e i fun t => if t.st ≠ 1 then t else
        { t with st := 2, src := df w 0 0 56, dst := df w 1 0 56, length := df w 2 0 35, obj := df w 3 0 14,
                 switch := df w 3 16 12, remote := decide (df w 3 28 1 = 1) }
    else if status = 1 then
      let x := copyEng s e
      setCopy s e { x with xfers := x.xfers.filter fun t => decide (t.index ≠ i), count := x.count - 1 }
    else stopXfer s e i status 0
  let s := editXfer s e i fun t => if t.st = 2 ∧ t.length = 0 then { t with st := 4 } else t
  copyGo (popXfers s e) e

/-- A READ of a chunk has ended; RETRY_LATER, and a drop notice, send the chunk again (R279, R280). -/
def copyReadDone (s : State) (e i ch status : Nat) (dropped : Bool) (data : Bytes) : State :=
  let off := ch / 2
  let s :=
    if dropped || decide (status = 1) then editChunk s e i off fun c => if c.st ≤ 1 then { c with st := 0, sent := 0, left := [], parts := [] } else c
    else if status ≠ 0 then stopXfer s e i status off
    else editChunk s e i off fun c =>
      if c.st ≤ 1 ∧ c.left.contains (ch % 2) = true then
        let c := { c with left := c.left.erase (ch % 2), parts := tput [] c.parts (ch % 2) data }
        if c.st = 1 ∧ c.left.isEmpty = true then { c with st := 2 } else c
      else c
  copyGo s e

/-- A chunk's WRITE has ended; its end is the event COPY_CHUNK_DONE. -/
def copyWriteDone (s : State) (e i off status : Nat) (dropped : Bool) : State :=
  if dropped || decide (status = 1) then copyGo (editChunk s e i off fun c => { c with st := 2 }) e
  else editChunk s e i off fun c => { c with st := 4, status := status }

/-- The status of a stopped transfer stands in its slot: the wake-up ARRIVE of 2^63 follows (R280). -/
def copyStatusDone (s : State) (e i : Nat) : State :=
  match (copyEng s e).xfers.find? fun t => decide (t.index = i) && decide (t.st = 3) with
  | none => s
  | some t => copyGo (popXfers (editXfer (copyArrive s e t (2 ^ 63)) e i fun t => { t with st := 4 }) e) e

/-- COPY_CHUNK_DONE (R279, R280): a chunk's WRITE is complete: an ARRIVE of its bytes goes to OBJ, or the
transfer stops. The ARRIVE waits in its engine while 512 requests are out (R265). -/
def execCopyChunkDone (e : Nat) (i : Nat) (off : Nat) (s : State) : Host.Outcome State Fault Refusal :=
  .next (if working s then
    match (copyEng s e).xfers.find? fun t => decide (t.index = i) && decide (t.st = 2) with
    | none => s
    | some t => match t.chunks.find? fun c => decide (c.off = off) && decide (c.st = 4) with
      | none => s
      | some c =>
        if c.status ≠ 0 then copyGo (stopXfer s e i c.status off) e
        else if 512 ≤ copyOut s e then s
        else
          let s := copyArrive s e t c.len
          let s := editXfer s e i fun t =>
            let l := t.chunks.filter fun c => decide (c.off ≠ off)
            { t with chunks := l, st := if l.isEmpty ∧ t.length ≤ t.next then 4 else t.st }
          copyGo (popXfers s e) e
  else s)

/-- COPY_RING (R278): the bound endpoint's ring sets the producer index under the rules of R60 and R63. -/
def execCopyRing (f : Frame) (s : State) : Host.Outcome State Fault Refusal :=
  .next (if atTarget s f && decide (f.op = 0x07) && decide (leAt f.data 0 1 = 0x43) then
    if formOk f = false then answer s f 3
    else
      let a := epochFence s f
      if a.1 ≠ 0 then answer a.2 f a.1
      else
        let s := a.2
        let e := leAt f.data 1 1
        let x := copyEng s e
        let p := w32 (leAt f.data 4 4)
        if 32 ≤ e ∨ x.status.enabled = false ∨ x.ep ≠ f.src ∨ x.comp ≠ f.comp then answer s f 3
        else
          let d := (p - x.cons).toNat
          let s := answer s f 0
          if d ≤ 2 ^ x.log2 then (if (p - x.prod).toNat ≤ 2 ^ x.log2 then copyGo (setCopy s e { x with prod := p }) e else s)
          else if d < 2 ^ 31 then faultRecord s (comp s x.comp).part 2 [w64 (0x800 + e), w64 (place 0 32 x.cons.toNat + place 32 32 p.toNat)]
          else s
  else s)

/-! ### Objects and engines committed -/

/-- The object a SYNCOBJ descriptor describes (R286). -/
def syncOf (d : List W64) : SyncObj :=
  { status := { enabled := true }, kind := df d 0 16 2, comp := df d 0 32 12, thr := df d 1 0 64, n := df d 2 0 32,
    notify := decide (df d 2 48 1 = 1), ep := df d 2 32 16 }

/-- Checks of a SYNCOBJ that enables (R285, R286, R292, R576). -/
def syncReason (s : State) (q : CtlSeq) (d : List W64) : Nat :=
  let x := objAt s (df d 0 0 14)
  let o := syncOf d
  firstFail [
    (!reaches q o.comp || (x.status.enabled && !reaches q x.comp), 3),
    (x.status.enabled, 1),
    (decide ((comp s o.comp).state = 0), 8),
    (reservedSet d [fmask 0 14 + fmask 16 2 + fmask 32 12, fmask 0 64, fmask 0 49, 1] || (decide (o.kind ≠ 1) && decide (o.n ≠ 0)), 9),
    (decide (o.kind = 3), 4),
    (decide (o.kind = 1) && !decide (1 ≤ o.n ∧ o.n ≤ 2 ^ 31), 0x0502),
    (o.notify && !memberOf s o.comp o.ep, 0x0505)]

/-- COMMIT_SYNCOBJ (R286). -/
def execCommitSyncobj (cs : Nat) (s : State) : Host.Outcome State Fault Refusal :=
  .next (runCtl s cs 0xE6 (fun _ => true) (fun d => stampKey okSync (df d 0 0 14)) (fun s d => some (statusWord (objAt s (df d 0 0 14)).status)) fun s q d =>
    let n := df d 0 0 14
    let x := objAt s n
    let put := fun (y : SyncObj) => { s with te := { s.te with sync := tput {} s.te.sync n y } }
    let r := if enableOf d then syncReason s q d else if !reaches q (df d 0 32 12) || (x.status.enabled && !reaches q x.comp) then 3 else 0
    if r ≠ 0 then
      let y := { x with status := refused x.status r }
      refuse (put y) r (some (statusWord y.status))
    else
      let y := if enableOf d then syncOf d else { x with status := { x.status with enabled := false, reason := 0 } }
      { s := put y, status := some (statusWord y.status), obj := some (stampKey okSync n), size := 64 })

/-- Checks of a COPYENG that enables (R278, R292). Its descriptor's layout, which the spec does not give, is
that of `TE_COPY_CFG`, `TE_COPY_BASE` and ENABLE (log entry 32), with the engine in [36:32] of word 2. -/
def copyReason (s : State) (q : CtlSeq) (d : List W64) : Nat :=
  let x := copyEng s (df d 2 32 5)
  let c := df d 0 32 12
  let k := ctx s (df d 0 16 10)
  firstFail [
    (!reaches q c || (x.status.enabled && !reaches q x.comp), 3),
    (x.status.enabled, 1),
    (decide ((comp s c).state = 0), 8),
    (reservedSet d [fmask 0 4 + fmask 16 10 + fmask 32 12 + fmask 48 16, fmask 0 56, fmask 32 5, 1], 9),
    (decide (df d 0 0 4 < 6) || decide (12 < df d 0 0 4) || decide (df d 1 0 56 % 4096 ≠ 0), 0x0503),
    (!k.status.enabled || decide (k.comp ≠ c) || !memberOf s c (df d 0 48 16), 0x0504)]

/-- A copy engine disabled: transfers in flight are abandoned, and it leaves its fault entries (R280, R371). -/
def copyOff (s : State) (e : Nat) : State :=
  let x := copyEng s e
  let s := leaveFaults (setCopy s e { x with xfers := [], status := { x.status with enabled := false, reason := 0 } }) (.copy e)
  { s with te := { s.te with outst := s.te.outst.filter fun o => match o.what with
    | .copyRead y _ _ => decide (y ≠ e)
    | .copyWrite y _ _ => decide (y ≠ e)
    | .copyDesc y _ => decide (y ≠ e)
    | .copyStatus y _ => decide (y ≠ e)
    | _ => true } }

/-- Status word of a copy engine, with its transfers in flight (R293). -/
def copyWord (x : CopyEng) : W64 := statusWord x.status ||| w64 (place 56 7 (x.xfers.filter fun t => decide (t.st ≠ 4)).length)

/-- COMMIT_COPYENG (R278). -/
def execCommitCopyeng (cs : Nat) (s : State) : Host.Outcome State Fault Refusal :=
  .next (runCtl s cs 0xE7 (fun _ => true) (fun d => stampKey okCopyEng (df d 2 32 5)) (fun s d => some (copyWord (copyEng s (df d 2 32 5)))) fun s q d =>
    let e := df d 2 32 5
    let x := copyEng s e
    let key := some (stampKey okCopyEng e)
    let r := if enableOf d then copyReason s q d else if !reaches q (df d 0 32 12) || (x.status.enabled && !reaches q x.comp) then 3 else 0
    if r ≠ 0 then
      let y := { x with status := refused x.status r }
      refuse (setCopy s e y) r (some (copyWord y))
    else if enableOf d then
      let y : CopyEng := { status := { enabled := true }, ep := df d 0 48 16, comp := df d 0 32 12, ctx := df d 0 16 10, log2 := df d 0 0 4,
                           base := df d 1 0 56, count := x.count }
      { s := setCopy (microClear s (896 + e)) e y, status := some (copyWord y), obj := key }
    else
      let s := copyOff (microClear s (896 + e)) e
      { s := s, status := some (copyWord (copyEng s e)), obj := key })

end Sys2Proof.Machine
end

