-- ==== Sys2Proof/Machine/Pattern.lean ====
section
/-! DEFINITION. Pattern images and the pattern store (R97–R105). -/

namespace Sys2Proof.Machine

/-! ### Images (R97–R99) -/

/-- A stage map entry (R98), its code section resolved within the image. -/
structure StageEnt where
  ty   : Nat := 0
  spc  : Nat := 0
  len  : Nat := 0
  off  : Nat := 0
  inL  : Nat := 0
  outL : Nat := 0
deriving DecidableEq, Repr

/-- A lace map entry (R99). -/
structure LaceEnt where
  src   : Nat := 0
  dst   : Nat := 0
  beat  : Nat := 0
  depth : Nat := 0
deriving DecidableEq, Repr

/-- Header fields of an image by offset. -/
def imgStages (b : Bytes) : Nat := leAt b 0x08 1
/-- Lace count. -/
def imgLaces (b : Bytes) : Nat := leAt b 0x09 1
/-- IMAGE_SIZE. -/
def imgSize (b : Bytes) : Nat := leAt b 0x0C 4
/-- DEMAND of a unit type 1–7. -/
def imgDemand (b : Bytes) (ty : Nat) : Nat := leAt b (0x10 + ty - 1) 1
/-- POWER_CLASS. -/
def imgClass (b : Bytes) : Nat := leAt b 0x06 1 % 8
/-- STAGE_MEM in KiB. -/
def imgMem (b : Bytes) : Nat := leAt b 0x18 4
/-- CONST_SIZE. -/
def imgConst (b : Bytes) : Nat := leAt b 0x1C 4

/-- Entry n of the stage map. -/
def imgStage (b : Bytes) (n : Nat) : StageEnt :=
  let o := leAt b 0x20 4 + 16 * n
  { ty := leAt b o 1, spc := leAt b (o + 1) 1 % 8, len := leAt b (o + 2) 2, off := leAt b (o + 4) 4,
    inL := leAt b (o + 8) 4, outL := leAt b (o + 12) 4 }

/-- The stage map. -/
def imgStageMap (b : Bytes) : List StageEnt := (List.range (imgStages b)).map (imgStage b)

/-- Entry k of the lace map. -/
def imgLace (b : Bytes) (k : Nat) : LaceEnt :=
  let o := leAt b 0x24 4 + 8 * k
  { src := leAt b o 1, dst := leAt b (o + 1) 1, beat := leAt b (o + 2) 2, depth := leAt b (o + 4) 2 }

/-- The lace map. -/
def imgLaceMap (b : Bytes) : List LaceEnt := (List.range (imgLaces b)).map (imgLace b)

/-- Code of a stage. -/
def imgCode (b : Bytes) (e : StageEnt) : Bytes := (b.drop (leAt b 0x28 4 + e.off)).take e.len

/-- Sequencer code. -/
def imgSeqCode (b : Bytes) : Bytes := (b.drop (leAt b 0x30 4)).take (leAt b 0x34 2)

/-- Constants. -/
def imgConsts (b : Bytes) : Bytes := (b.drop (leAt b 0x2C 4)).take (imgConst b)

/-- The stage a code section's checks are made for. -/
def entLaces (e : StageEnt) : LaceSets := { inp := e.inL, out := e.outL }

/-! ### Checks of an image (R101, *Pattern reason codes*) -/

/-- A code length is a multiple of 8 within 8–4,096. -/
def codeLenOk (n : Nat) : Bool := decide (n % 8 = 0) && decide (8 ≤ n ∧ n ≤ 4096)

/-- Sections of an image as offset and length; the stage code reaches to its furthest stage's end. -/
def imgSections (b : Bytes) : List (Nat × Nat) :=
  let code := (imgStageMap b).foldl (fun m e => max m (e.off + e.len)) 0
  [(0, 128), (leAt b 0x20 4, 16 * imgStages b), (leAt b 0x24 4, 8 * imgLaces b), (leAt b 0x30 4, leAt b 0x34 2),
   (leAt b 0x28 4, code), (leAt b 0x2C 4, imgConst b)]

/-- No two of the non-empty sections overlap. -/
def sectionsApart : List (Nat × Nat) → Bool
  | [] => true
  | x :: t => (decide (x.2 = 0) || t.all fun y => decide (y.2 = 0) || !meets x.1 x.2 y.1 y.2) && sectionsApart t

/-- Reserved bytes of the header, the stage map and the lace map are zero. -/
def imgReserved (b : Bytes) : Bool :=
  decide (leAt b 0x06 1 / 8 = 0) && decide (leAt b 0x07 1 = 0) && decide (leAt b 0x0A 2 = 0) && decide (leAt b 0x17 1 = 0)
    && decide (leAt b 0x36 10 = 0) && decide (leAt b 0x60 32 = 0)
    && ((List.range (imgStages b)).all fun n => decide (leAt b (leAt b 0x20 4 + 16 * n + 1) 1 / 8 = 0))
    && ((List.range (imgLaces b)).all fun k => decide (leAt b (leAt b 0x24 4 + 8 * k + 6) 2 = 0))

/-- PAT_LAYOUT passes. A size or length of a wrong shape counts as a section that leaves its place, and a CODE_OFF that is
no multiple of 8 as a misaligned section (DEDUCED, log 112). -/
def imgLayout (b : Bytes) : Bool :=
  decide (imgSize b % 64 = 0) && decide (128 ≤ imgSize b) && imgReserved b
    && ((imgSections b).all fun x => decide (x.1 % 64 = 0) && decide (x.1 + x.2 ≤ imgSize b))
    && codeLenOk (leAt b 0x34 2) && ((imgStageMap b).all fun e => codeLenOk e.len && decide (e.off % 8 = 0))
    && sectionsApart (imgSections b)

/-- The SM3 digest of an image, its DIGEST field taken as zero (R97). -/
def imgDigest (b : Bytes) : Bytes := sm3 (b.take 0x40 ++ List.replicate 32 0 ++ b.drop 0x60)

/-- PAT_STAGES passes. -/
def imgStagesOk (b : Bytes) : Bool :=
  decide (2 ≤ imgStages b ∧ imgStages b ≤ 24) && decide (1 ≤ imgLaces b ∧ imgLaces b ≤ 32)
    && ((imgStageMap b).all fun e => decide (1 ≤ e.ty ∧ e.ty ≤ 7))
    && (List.range 7).all fun t => decide (imgDemand b (t + 1) = ((imgStageMap b).filter fun e => e.ty = t + 1).length)

/-- PAT_OPCODE passes: every section of code is defined, allowed and well structured. -/
def imgCodeOk (b : Bytes) : Bool :=
  let ok := fun (u : UnitKind) (l : LaceSets) (c : Bytes) => sectionOk u l c (c.length / 8) && flowOk c (c.length / 8)
  ok 8 {} (imgSeqCode b) && (imgStageMap b).all fun e => ok e.ty (entLaces e) (imgCode b e)

/-- PAT_LACE passes (R99, R120). -/
def imgLacesOk (b : Bytes) : Bool :=
  let st := imgStageMap b
  let ls := imgLaceMap b
  (ls.zipIdx.all fun (l, k) =>
    decide (l.src < st.length ∧ l.dst < st.length ∧ l.src ≠ l.dst) && (st.getD l.src {}).outL.testBit k && (st.getD l.dst {}).inL.testBit k
      && decide (32 ≤ l.beat ∧ l.beat ≤ 256) && decide (l.beat % 32 = 0) && decide (2 ≤ l.depth ∧ l.depth ≤ 64))
  && (st.zipIdx.all fun (e, n) => (List.range 32).all fun k =>
    (!e.outL.testBit k || (decide (k < ls.length) && decide ((ls.getD k {}).src = n)))
    && (!e.inL.testBit k || (decide (k < ls.length) && decide ((ls.getD k {}).dst = n))))
  && (List.range st.length).all fun n => decide (((ls.filter fun l => l.src = n).foldl (fun m l => m + l.beat * l.depth) 0) ≤ 16384)

/-- Stages reached from a set along the laces, `n` times over. -/
def reachFrom (ls : List LaceEnt) : Nat → List Nat → List Nat
  | 0, r => r
  | n + 1, r => reachFrom ls n (r ++ ((ls.filter fun l => r.contains l.src).map (·.dst))).eraseDups

/-- Stages left when those without a producer among the rest are taken away, `n` times over. -/
def peel (ls : List LaceEnt) : Nat → List Nat → List Nat
  | 0, r => r
  | n + 1, r => peel ls n (r.filter fun x => ls.any fun l => decide (l.dst = x) && r.contains l.src)

/-- PAT_GRAPH passes: every stage is reached from stage 0 and no cycle exists. -/
def imgGraphOk (b : Bytes) : Bool :=
  let ns := List.range (imgStages b)
  let r := reachFrom (imgLaceMap b) (imgStages b) [0]
  ns.all (fun n => r.contains n) && (peel (imgLaceMap b) (imgStages b) ns).isEmpty

/-- The checks of an image up to PAT_POWER in table order, 0 when all pass. -/
def imgReason (b : Bytes) : Nat :=
  firstFail [
    (decide (leAt b 0 4 ≠ 0x54415056) || decide (leAt b 5 1 ≠ 1), 0x0201),
    (!imgLayout b, 0x0202),
    (decide (imgDigest b ≠ (b.drop 0x40).take 32), 0x0203),
    (!imgStagesOk b, 0x0204),
    (!imgCodeOk b, 0x0205),
    (!imgLacesOk b, 0x0206),
    (!imgGraphOk b, 0x0207),
    ((imgStageMap b).any fun e => decide (imgClass b < e.spc), 0x0208)]

/-! ### The store (R101–R105) -/

/-- A pattern-store slot. -/
def pat (s : State) (n : Nat) : PatSlot := tget {} s.sa.pats n
/-- A pattern-store slot replaced. -/
def setPat (s : State) (n : Nat) (x : PatSlot) : State := { s with sa := { s.sa with pats := tput {} s.sa.pats n x } }

/-- The slot's current handle (R103). -/
def patHandle (n : Nat) (x : PatSlot) : Nat := if x.ever then x.gen % 16 * 4096 + n else 0

/-- Status word of a slot (R103). -/
def patWord (s : State) (n : Nat) : W64 :=
  let x := pat s n
  statusWord x.status ||| w64 (place 48 16 (patHandle n x) + place 20 12 (if x.pwide then 0 else x.comp) + place 16 1 (b2n x.pwide))

/-- The partition of a slot's scope. -/
def patPart (s : State) (x : PatSlot) : Nat := if x.pwide then x.part else (comp s x.comp).part

/-- Banks of the largest slice of a partition. -/
def maxBanks (s : State) (part : Nat) : Nat :=
  s.sa.seqs.foldl (fun m q => if q.2.part = part ∧ q.2.state ≠ 6 ∧ q.2.state ≠ 7 then max m q.2.banks else m) 0

/-- `n` bytes at a place a descriptor names: in the bulk window, or in pool memory, where bytes that stand in a
tray, at a lender or on another switch are those that came back with a status. -/
def fetchBytes (s : State) (place_ : W64) (n status : Nat) (data : Bytes) : Option Bytes :=
  let a := fld place_ 0 60
  let back := if status = 0 then some (data.take n) else none
  if bit place_ 63 then
    if faSwitch a = s.swNum then
      if (ownAccess s a n).1 ≠ 0 then none
      else (bytesHere s (faOff a) n).orElse fun _ => back
    else back
  else some (bulkRead s a n)

/-- The image a commit names. -/
def patImage (s : State) (d : List W64) (status : Nat) (data : Bytes) : Option Bytes :=
  fetchBytes s (wd d 1) (min (df d 2 0 32) 262144) status data

/-- A program reaches a slot's present scope. -/
def patReached (q : CtlSeq) (x : PatSlot) : Bool :=
  decide (q.priv = 1) || !(x.status.enabled || x.status.draining) || (!x.pwide && decide (x.comp = q.comp))

/-- A program names no pattern outside its composition (R83, R254). -/
def patNamed (q : CtlSeq) (d : List W64) : Bool :=
  decide (q.priv = 1) || (decide (df d 0 48 1 = 0) && decide (df d 0 32 12 = q.comp))

/-- Checks of an enabling PATTERN commit (R78, R101). DEDUCED (log 113): what an ADDR outside the bulk window's general area,
a window image on host-owned pages and an image that cannot be read come to. -/
def patReason (s : State) (q : CtlSeq) (d : List W64) (img : Option Bytes) : Nat :=
  let x := pat s (df d 0 0 12)
  let wide := df d 0 48 1 = 1
  let c := df d 0 32 12
  let b := img.getD []
  let part := if wide then q.part else (comp s c).part
  let r := firstFail [
    (!patNamed q d || !patReached q x, 3),
    (x.status.enabled || x.status.draining, 1),
    ((List.range 7).any fun t => decide (imgDemand b (t + 1) ≠ 0) && decide (activeCount s (t + 1) = 0), 2),
    (img.isNone || (!decide wide && decide ((comp s c).state = 0)), 8),
    (reservedSet d [fmask 0 12 + fmask 32 12 + fmask 48 1, fmask 0 60 + fmask 63 1, fmask 0 32, 1], 9),
    (decide (262144 < imgSize b) || decide (df d 2 0 32 ≠ imgSize b) || decide (df d 1 0 60 % 64 ≠ 0)
      || (!bit (wd d 1) 63 && !pagesInGen s (df d 1 0 60 / 4096 * 4096) (df d 1 0 60 % 4096 + df d 2 0 32)), 4)]
  if r ≠ 0 then r
  else
    let r := imgReason b
    if r ≠ 0 then r
    else if maxBanks s part * 256 < imgMem b ∨ imgMem b * 1024 < imgConst b then 0x0209 else 0

/-- COMMIT_PATTERN (R101, R102): loads and enables a slot. -/
def execCommitPattern (cs : Nat) (status : Nat) (data : Bytes) (s : State) : Host.Outcome State Fault Refusal :=
  .next (runCtl s cs 0xE0 enableOf (fun d => stampKey okPattern (df d 0 0 12)) (fun s d => some (patWord s (df d 0 0 12))) fun s q d =>
    let n := df d 0 0 12
    let x := pat s n
    let img := patImage s d status data
    let r := patReason s q d img
    if r ≠ 0 then
      let s := setPat s n { x with status := refused x.status r }
      refuse s r (some (patWord s n))
    else
      let b := img.getD []
      let wide := decide (df d 0 48 1 = 1)
      let y : PatSlot := { status := { enabled := true }, gen := (x.gen + 1) % 16, ever := true, pwide := wide,
                           comp := if wide then 0 else df d 0 32 12, part := if wide then q.part else 0, image := b, digest := imgDigest b }
      let s := digestNote (setPat s n y) (65536 + patHandle n y) true y.digest
      { s := s, status := some (patWord s n), obj := some (stampKey okPattern n), size := b.length })

/-- A running job uses a pattern slot. -/
def patUsed (s : State) (n : Nat) : Bool := s.sa.seqs.any fun q => match q.2.job with
  | some j => decide (j.pat = n) && j.usesPat
  | none => false

/-- The digest of a disabled pattern is withdrawn once no job uses it (R469). -/
def dropPatDigest (s : State) (n : Nat) (x : PatSlot) : State := digestNote s (65536 + patHandle n x) false x.digest

/-- COMMIT_PATTERN_DISABLE (R104). -/
def execCommitPatternDisable (cs : Nat) (s : State) : Host.Outcome State Fault Refusal :=
  .next (runCtl s cs 0xE0 (fun d => !enableOf d) (fun d => stampKey okPattern (df d 0 0 12)) (fun s d => some (patWord s (df d 0 0 12))) fun s q d =>
    let n := df d 0 0 12
    let x := pat s n
    if patNamed q d = false ∨ patReached q x = false then
      let s := setPat s n { x with status := refused x.status 3 }
      refuse s 3 (some (patWord s n))
    else
      let off := x.status.enabled
      let used := if off then patUsed s n else x.status.draining
      let s := setPat s n { x with status := { x.status with enabled := false, reason := 0, draining := used } }
      let s := if off && !used then dropPatDigest s n x else s
      { s := s, status := some (patWord s n), obj := some (stampKey okPattern n), size := 64 })

/-- PATTERN_DRAIN_END (R104): the last job on a disabled pattern has retired. -/
def execPatternDrainEnd (n : Nat) (s : State) : Host.Outcome State Fault Refusal :=
  .next (let x := pat s n
    if working s && x.status.draining && !patUsed s n then dropPatDigest (setPat s n { x with status := { x.status with draining := false } }) n x else s)

end Sys2Proof.Machine
end

