-- ==== Sys2Proof/Machine/Jobs.lean ====
section
/-! DEFINITION. Job queues and doorbells (R22–R26, R60–R64), jobs from their taking to their retirement
(R28, R105–R110, R126–R133, R30, R65), and the gating of units and dies (R505). -/

namespace Sys2Proof.Machine

/-! ### Job queues (R60–R64) -/

/-- A job queue. -/
def jobq (s : State) (n : Nat) : JobQueue := tget {} s.cc.jq n
/-- A job queue replaced. -/
def setJobq (s : State) (n : Nat) (x : JobQueue) : State := { s with cc := { s.cc with jq := tput {} s.cc.jq n x } }

/-- Live job records of a queue. -/
def queueRecs (s : State) (n : Nat) : List JRec := s.lv.recs.filter fun r => decide (r.kind = .job) && decide (r.queue = n)

/-- Queue of a doorbell. -/
def bellQueue (f : Frame) : Nat := leAt f.data 0 2 % 4096
/-- Producer index of a doorbell. -/
def bellIndex (f : Frame) : W32 := w32 (leAt f.data 2 4)

/-- The acceptance completion (R23, R24): queue in [11:0] and accept pointer in [47:16] of its first word,
the sequence number in the second (log entry 45). -/
def bellAnswer (s : State) (f : Frame) (status : Nat) : State :=
  let n := bellQueue f
  let x := jobq s n
  answer s f status (bytesLE 8 (place 0 12 n + place 16 32 x.accept.toNat) ++ bytesLE 8 x.lastSeq)

/-- The checks of R62 on a doorbell whose turn has come, with their counters. -/
def bellCheck (s : State) (f : Frame) : Nat × State :=
  let x := jobq s (bellQueue f)
  if formOk f = false ∨ x.status.enabled = false ∨ x.endpoint ≠ f.src ∨ x.comp ≠ f.comp then (3, s)
  else
    let a := epochFence s f
    if a.1 ≠ 0 then a
    else if s.cc.bootDone = false ∨ acceptStopped s = true ∨ journalRoom s (stagedEntries s + 2) = false then (1, a.2)
    else a

/-- Doorbells at the head of a queue are taken up in turn, until one reads its first slot or none is left
(R62–R64). -/
def bellsGo (n : Nat) : Nat → State → State
  | 0, s => s
  | k + 1, s =>
    let x := jobq s n
    match x.bells with
    | [] => s
    | b :: t =>
      if b.open_ then s
      else
        let c := bellCheck s b.f
        let s := setJobq c.2 n { x with bells := t }
        if c.1 ≠ 0 then bellsGo n k (bellAnswer s b.f c.1)
        else
          let d := (bellIndex b.f - x.accept).toNat
          if d = 0 ∨ 2 ^ 31 ≤ d then bellsGo n k (bellAnswer s b.f 0)
          else if 2 ^ x.log2 < d then
            let s := faultRecord s (comp s x.comp).part 2 [w64 n, w64 (place 0 32 x.accept.toNat + place 32 32 (bellIndex b.f).toNat)]
            bellsGo n k (bellAnswer s b.f 0)
          else setJobq s n { x with bells := { b with open_ := true, reading := true } :: t }

/-- The head doorbell's acceptance ends (R23); during a flush no completion is sent (R484). -/
def bellEnd (s : State) (n status : Nat) : State :=
  let x := jobq s n
  match x.bells with
  | [] => s
  | b :: t =>
    let s := if s.lv.flushCause = 0 then bellAnswer s b.f (if b.accepted = 0 then status else 0) else s
    bellsGo n t.length (setJobq s n { x with bells := t })

/-- DOORBELL (R62–R64): a doorbell joins those of its queue in arrival order. -/
def execDoorbell (f : Frame) (s : State) : Host.Outcome State Fault Refusal :=
  .next (if atTarget s f && decide (f.op = 0x07) then
    let n := bellQueue f
    let x := jobq s n
    bellsGo n (x.bells.length + 1) (setJobq s n { x with bells := x.bells ++ [{ f := f }] })
  else s)

/-- The fabric address of a slot (R60). -/
def slotFa (x : JobQueue) (i : W32) : Nat := x.base + i.toNat % 2 ^ x.log2 * 64

/-- DESCRIPTOR_READ_DONE (R23): the slot's read has ended; the descriptor is staged, or acceptance stops. -/
def execDescriptorReadDone (n : Nat) (status : Nat) (data : Bytes) (s : State) : Host.Outcome State Fault Refusal :=
  .next (if working s then
    let x := jobq s n
    match x.bells with
    | [] => s
    | b :: t =>
      if b.reading = false then s
      else
        let r := ownRead s (slotFa x x.accept) 64 status data
        if r.1 ≠ 0 then bellEnd s n r.1
        else if x.status.enabled = false ∨ b.cut = true then bellEnd s n 3
        else if acceptStopped s = true ∨ journalRoom s (stagedEntries s + 2) = false then bellEnd s n 1
        else setJobq s n { x with bells := { b with reading := false, staged := some (fitTo 64 r.2) } :: t }
  else s)

/-- DESCRIPTOR_ACCEPT (R22, R23): a staged descriptor is accepted, and the accept pointer moves past it. -/
def execDescriptorAccept (n : Nat) (s : State) : Host.Outcome State Fault Refusal :=
  .next (if working s then
    let x := jobq s n
    match x.bells with
    | [] => s
    | b :: t => match b.staged with
      | none => s
      | some d =>
        let seq := s.lv.nextSeq
        let s := stageRecord s { kind := .job, entries := 2, part := (comp s x.comp).part, comp := x.comp, queue := n,
                                 slot := x.accept.toNat, length := 64, body := d }
        let more := decide (x.accept + 1 ≠ bellIndex b.f) && !b.cut
        let s := setJobq s n { x with accept := x.accept + 1, lastSeq := seq,
                                      bells := { b with accepted := b.accepted + 1, reading := more, staged := none } :: t }
        if more then s else bellEnd s n 0
  else s)

/-- Status word of a queue's entry. -/
def jobqWord (s : State) (n : Nat) : W64 := statusWord (jobq s n).status

/-- Checks of an enabling JOBQ commit (R60, R61, R78). -/
def jobqReason (s : State) (q : CtlSeq) (d : List W64) : Nat :=
  let x := jobq s (df d 0 0 12)
  let c := df d 0 32 12
  firstFail [
    (!reaches q c || ((x.status.enabled || x.status.draining) && !reaches q x.comp), 3),
    (x.status.enabled || x.status.draining, 1),
    (decide ((comp s c).state = 0), 8),
    (reservedSet d [fmask 0 12 + fmask 32 12 + fmask 48 16, fmask 0 60, fmask 0 5, 1], 9),
    (!decide (6 ≤ df d 2 0 5 ∧ df d 2 0 5 ≤ 16) || decide (df d 1 0 60 % 4096 ≠ 0), 0x0104),
    (!memberOf s c (df d 0 48 16), 0x0105)]

/-- COMMIT_JOBQ_ENABLE (R60, R61). -/
def execCommitJobqEnable (cs : Nat) (s : State) : Host.Outcome State Fault Refusal :=
  .next (runCtl s cs 0xE4 enableOf (fun d => stampKey okJobq (df d 0 0 12)) (fun s d => some (jobqWord s (df d 0 0 12))) fun s q d =>
    let n := df d 0 0 12
    let x := jobq s n
    let r := jobqReason s q d
    if r ≠ 0 then
      let s := setJobq s n { x with status := refused x.status r }
      refuse s r (some (jobqWord s n))
    else
      let s := setJobq s n { x with base := df d 1 0 60, endpoint := df d 0 48 16, comp := df d 0 32 12, log2 := df d 2 0 5, accept := 0, lastSeq := 0,
                                    status := { enabled := true } }
      { s := s, status := some (jobqWord s n), obj := some (stampKey okJobq n) })

/-- Entries of a queue that have not retired, and a descriptor of it whose staging runs (R22, R61). -/
def queueBusy (s : State) (n : Nat) : Bool := !(queueRecs s n).isEmpty || (jobq s n).bells.any fun b => b.staged.isSome

/-- A queue disabled: a doorbell in acceptance stops before its next slot, and the queue drains while an entry accepted,
or in staging, has not retired (R61). -/
def disableJobq (s : State) (n : Nat) : State :=
  let x := jobq s n
  setJobq s n { x with status := { x.status with enabled := false, reason := 0,
                                                 draining := (x.status.enabled || x.status.draining) && queueBusy s n }
                       bells := x.bells.map fun b => { b with cut := b.cut || b.open_ } }

/-- COMMIT_JOBQ_DISABLE (R61). -/
def execCommitJobqDisable (cs : Nat) (s : State) : Host.Outcome State Fault Refusal :=
  .next (runCtl s cs 0xE4 (fun d => !enableOf d) (fun d => stampKey okJobq (df d 0 0 12)) (fun s d => some (jobqWord s (df d 0 0 12))) fun s q d =>
    let n := df d 0 0 12
    let x := jobq s n
    if !reaches q (df d 0 32 12) || ((x.status.enabled || x.status.draining) && !reaches q x.comp) then
      let s := setJobq s n { x with status := refused x.status 3 }
      refuse s 3 (some (jobqWord s n))
    else
      let s := disableJobq s n
      { s := s, status := some (jobqWord s n), obj := some (stampKey okJobq n) })

/-- JOBQ_DRAIN_END (R61): the last accepted entry of a disabled queue has retired. -/
def execJobqDrainEnd (n : Nat) (s : State) : Host.Outcome State Fault Refusal :=
  .next (let x := jobq s n
    if working s && x.status.draining && !queueBusy s n then setJobq s n { x with status := { x.status with draining := false } } else s)

/-! ### Taking a job (R28, R106, R133, R528) -/

/-- Word `i` of a job record's descriptor. -/
def jobWord (r : JRec) (i : Nat) : W64 := w64 (leAt r.body (8 * i) 8)

/-- A job stands on some sequencer. -/
def jobTaken (s : State) (seq : Nat) : Bool := s.sa.seqs.any fun x => x.2.job.any fun j => decide (j.seq = seq)

/-- A taken job of a queue has not started yet, so no later one may (R28). -/
def queueHeld (s : State) (n : Nat) : Bool :=
  s.sa.seqs.any fun x => x.2.job.any fun j => decide (j.queue = n) && !j.began && j.endStatus.isNone

/-- A job record waits to be taken. -/
def jobWaits (s : State) (r : JRec) : Bool :=
  decide (r.kind = .job) && !r.exported && !jobTaken s r.seq && (findCompl s r.seq).isNone

/-- Jobs of a partition that may be taken: the earliest waiting one of each queue without a job held before
its start. -/
def nextJobs (s : State) (part : Nat) : List JRec :=
  s.lv.recs.filter fun r => decide (r.part = part) && jobWaits s r && !queueHeld s r.queue &&
    s.lv.recs.all fun e => !(decide (e.queue = r.queue) && decide (e.seq < r.seq) && jobWaits s e)

/-- A partition is being reset (R534). -/
def partStopped (s : State) (part : Nat) : Bool := decide (tget 0 s.cc.partState part ≠ 0)

/-- A descriptor sets a reserved bit or leaves a zero field nonzero (*Job descriptor*, *Descriptor flags*). -/
def jobReserved (r : JRec) : Bool :=
  let w := jobWord r
  decide (fld (w 0) 26 6 ≠ 0) || decide (fld (w 0) 40 24 ≠ 0) || decide (fld (w 0) 34 6 ≠ 0) || decide (fld (w 1) 60 4 ≠ 0)
    || decide (fld (w 6) 60 4 ≠ 0) || decide (fld (w 7) 16 16 ≠ 0) || decide (fld (w 7) 14 1 ≠ 0)
    || (bit (w 7) 15 && decide (fld (w 7) 0 14 ≠ 0)) || (!bit (w 0) 32 && decide (fld (w 1) 0 60 ≠ 0))

/-- The checks at the start of a job, none when all pass (R106, R528). DEDUCED (log 126): a FAILED composition is found before a fence. -/
def jobCheck (s : State) (r : JRec) : Option Nat :=
  let c := comp s r.comp
  let h := fld (jobWord r 0) 0 16
  let n := h % 4096
  let p := pat s n
  let x := ctx s (fld (jobWord r 0) 16 10)
  if c.state = 3 then some 8
  else if c.state = 0 ∨ c.state = 4 ∨ fenced s r.comp = true then some 9
  else if p.status.enabled = false ∨ patHandle n p ≠ h then some 5
  else if (if p.pwide then p.part ≠ c.part else p.comp ≠ r.comp) ∨ x.status.enabled = false ∨ x.comp ≠ r.comp ∨ jobReserved r = true then some 3
  else if (List.range 7).any (fun t => decide (imgDemand p.image (t + 1) ≠ 0) && decide (activeCount s (t + 1) = 0)) then some 0x0C
  else none

/-- A pattern's charge (R506). -/
def patCharge (img : Bytes) : Nat := (imgStageMap img).foldl (fun n e => n + stageCharge e.ty e.spc) 1

/-- The run a record's descriptor gives. -/
def jobRunOf (s : State) (r : JRec) : JobRun :=
  let w := jobWord r
  let n := fld (w 0) 0 12
  let img := (pat s n).image
  { seq := r.seq, queue := r.queue, slot := r.slot, comp := r.comp, ctx := fld (w 0) 16 10, tenant := (comp s r.comp).tenant,
    asid := (ctx s (fld (w 0) 16 10)).asid, pat := n, flags := fld (w 0) 32 8, argAddr := (w 1).toNat, args := [w 2, w 3, w 4, w 5],
    complAddr := fld (w 6) 0 60, userTag := fld (w 7) 32 32, nosync := bit (w 7) 15, sync := fld (w 7) 0 14,
    endpoint := (jobq s r.queue).endpoint, pclass := imgClass img, charge := if imgClass img < 2 then 0 else patCharge img, began := r.started }

/-- A job taken by a sequencer, after its checks: it ends at once, asks for leave, or goes to placement. -/
def takeJob (s : State) (q : Nat) (r : JRec) : State :=
  let x := seam s q
  let j := jobRunOf s r
  let x := { x with restarts := tget 0 s.sa.reruns r.seq }
  let s := { s with sa := { s.sa with reruns := tput 0 s.sa.reruns r.seq 0 } }
  let s := if x.seqNo = 0 then s else if x.tenant ≠ j.tenant then saCount s 1 1 else if x.ctx ≠ j.ctx then saCount s 0 1 else s
  let x := { x with state := 1, wait := 0, tenant := j.tenant, ctx := j.ctx, seqNo := r.seq, iv := false, of := false, uf := false }
  match jobCheck s r with
  | some st => setSeam s q { x with state := 8, job := some { j with endStatus := some st } }
  | none =>
    let j := { j with usesPat := true, waitT := s.now }
    if j.charge = 0 then setSeam s q { x with job := some j }
    else askLeave (setSeam s q { x with wait := 1, job := some j }) x.part (.job q) j.charge

/-- JOB_TAKE (R28, R106, R133): an idle sequencer with a slice takes the oldest job of its partition it may,
or first scrubs for one of another tenant. -/
def execJobTake (q : Nat) (s : State) : Host.Outcome State Fault Refusal :=
  .next (let x := seam s q
    if working s && s.sa.ready && s.cc.bootDone && decide (q < 68) && decide (x.state = 0) && decide (x.banks ≠ 0) && !partStopped s x.part && !startsBarred s then
      match oldest (nextJobs s x.part) with
      | none => s
      | some r =>
        if x.scrubDue || (x.ran && decide (x.tenant ≠ (comp s r.comp).tenant)) then setSeam s q { x with state := 4 }
        else takeJob s q r
    else s)

/-- Bank `b` of a die has failed. -/
def bankFailed (s : State) (d b : Nat) : Bool := (tget 0 s.sa.bankFail d).testBit b

/-- Banks of a die in service, lowest first. -/
def goodBanks (s : State) (d : Nat) : List Nat := (List.range 96).filter fun b => !bankFailed s d b

/-- The banks of a run of `n` from a first bank: failed banks are skipped (R125). -/
def bankRun (s : State) (d first n : Nat) : List Nat := ((goodBanks s d).filter fun b => decide (first ≤ b)).take n

/-- The banks of a sequencer's slice. -/
def sliceBanks (s : State) (q : Nat) : List Nat := bankRun s (unitDie 0 q) (seam s q).first (seam s q).banks

/-- A die's spare rows are exhausted (R124); their number is open (DESIGN CHOICE, log 115). -/
def rowsOut (s : State) (d : Nat) : Bool := decide (Config.spareRows ≤ tget 0 s.sa.rowsUsed d)

/-- A row remapped to a spare row. -/
def remapRow (s : State) (d : Nat) : State :=
  let s := saCount s 4 1
  { s with sa := { s.sa with rowsUsed := tmod 0 s.sa.rowsUsed d (· + 1) } }

/-- A bank marked failed: the sequencer whose slice holds it retires, and its spare starts without banks (R124). -/
def failBank (s : State) (q d b : Nat) : State :=
  let s := { s with sa := { s.sa with bankFail := tput 0 s.sa.bankFail d (tget 0 s.sa.bankFail d ||| 2 ^ b) } }
  let s := if (seam s q).state = 7 then s else retireUnit s 0 q
  setSeam s q { seam s q with banks := 0, first := 0 }

/-- SEQUENCER_SCRUB_END (R133): registers, instruction memory and slice read zero. `bad` names the bank of each row in which
the read-back found a word that is not zero: the row is remapped, or its bank fails (R124). -/
def execSequencerScrubEnd (q : Nat) (s : State) (bad : List Nat := []) : Host.Outcome State Fault Refusal :=
  .next (let x := seam s q
    if working s && decide (x.state = 4) then
      let d := unitDie 0 q
      let rows := bad.filter (sliceBanks s q).contains
      rows.foldl (fun s b => if (seam s q).state = 7 then s else if rowsOut s d then failBank s q d b else remapRow s d)
        (setSeam s q { x with state := 0, s := [], p := 1, pc := 0, loops := [], code := [], mem := [], ran := false, scrubDue := false })
    else s)

/-! ### Placement (R126–R128, R505) -/

/-- A unit counts as one of a partition: active there, and not absent for the job. -/
def unitIn (s : State) (part : Nat) (barred : List Nat) (ty p : Nat) : Bool :=
  let u := unitAt s ty p
  decide (u.part = part) && decide (u.state ≤ 2) && !barred.contains (unitKey ty p)

/-- Units of a type in a partition. -/
def unitsIn (s : State) (part : Nat) (barred : List Nat) (ty : Nat) : List Nat := (List.range (physCount ty)).filter (unitIn s part barred ty)

/-- Laces between stage n and placed stages that lie on another die. -/
def crossings (ls : List LaceEnt) (plan : List (Nat × Nat)) (n d : Nat) : Nat :=
  (ls.filter fun l =>
    let m := if l.src = n then l.dst else l.src
    (decide (l.src = n) || decide (l.dst = n)) && (match plan[m]? with
      | some u => decide (unitDie u.1 u.2 ≠ d)
      | none => false)).length

/-- The unit the procedure of R126 chooses for a stage: fewest crossings, then own die, then lowest die, then
lowest logical number. -/
def chooseUnit (s : State) (part die : Nat) (barred : List Nat) (ls : List LaceEnt) (plan : List (Nat × Nat)) (n ty : Nat) : Option Nat :=
  let free := (unitsIn s part barred ty).filter fun p => decide ((unitAt s ty p).state = 0) && !plan.contains (ty, p)
  let key := fun p => (crossings ls plan n (unitDie ty p) * 8 + (if unitDie ty p = die then 0 else 4) + unitDie ty p) * 256 + (unitAt s ty p).logical
  free.foldl (fun b p => match b with
    | none => some p
    | some o => if key p < key o then some p else some o) none

/-- A plan for the stages in order, none when some type has no free unit. -/
def planStages (s : State) (part die : Nat) (barred : List Nat) (ls : List LaceEnt) : List StageEnt → List (Nat × Nat) → Option (List (Nat × Nat))
  | [], plan => some plan
  | e :: t, plan => match chooseUnit s part die barred ls plan plan.length e.ty with
    | none => none
    | some p => planStages s part die barred ls t (plan ++ [(e.ty, p)])

/-- Cross-die channels a plan needs, by source die × 4 + destination die. -/
def planChans (ls : List LaceEnt) (plan : List (Nat × Nat)) : Tab Nat :=
  let die := fun n => match plan[n]? with
    | some u => unitDie u.1 u.2
    | none => 0
  ls.foldl (fun t l => if die l.src = die l.dst then t else tmod 0 t (die l.src * 4 + die l.dst) (· + 1)) []

/-- Channels of a direction held by seams. -/
def chansHeld (s : State) (k : Nat) : Nat := s.sa.seqs.foldl (fun n x => n + tget 0 x.2.chans k) 0

/-- A die of the controller. -/
def die (s : State) (d : Nat) : Die := tget {} s.ph.dies d
/-- A die replaced. -/
def setDie (s : State) (d : Nat) (x : Die) : State := { s with ph := { s.ph with dies := tput {} s.ph.dies d x } }

/-- A die's PLL starts to lock if it stands (R505). -/
def wakeDie (s : State) (d : Nat) : State :=
  let x := die s d
  if x.pll = 0 then setDie s d { x with pll := 1, lockT := s.now + 8000 } else s

/-- When a gated part of a die is awake. -/
def awakeTime (s : State) (d : Nat) : Nat := (if (die s d).pll = 2 then s.now else max s.now (die s d).lockT) + 500

/-- A unit claimed for a seam (R126, R128): registers zeroed for another tenant, woken if gated. -/
def claimUnit (s : State) (ty p lg tenant : Nat) : State :=
  let s := wakeDie s (unitDie ty p)
  let u := unitAt s ty p
  let u := { u with state := 1, seam := lg, awakeAt := if u.gated then awakeTime s (unitDie ty p) else u.awakeAt, gated := false }
  let s := setHealth (microClear s ((ty - 1) * 128 + p)) ty p { health s ty p with unseen := false }
  setUnit s ty p (if u.lastTenant = tenant then u else { u with lastTenant := tenant, holds := none })

/-- What placement came to. -/
inductive Placing where
  | absent
  | waits (what : Nat)
  | placed (plan : List (Nat × Nat))
deriving DecidableEq, Repr

/-- The procedure of R126 for a sequencer's job. -/
def planFor (s : State) (q : Nat) (j : JobRun) : Placing :=
  let x := seam s q
  let img := (pat s j.pat).image
  let ls := imgLaceMap img
  if (List.range 7).any (fun t => decide ((unitsIn s x.part j.barred (t + 1)).length < imgDemand img (t + 1))) then .absent
  else match planStages s x.part (unitDie 0 q) j.barred ls (imgStageMap img) [] with
    | none => .waits 2
    | some plan =>
      if (planChans ls plan).any (fun k => decide (8 < chansHeld s k.1 + k.2)) then .waits 3 else .placed plan

/-- The sequencer's job is placed, waits or ends (R126, R127). -/
def placeJob (s : State) (q : Nat) (j : JobRun) : State :=
  match planFor s q j with
  | .absent => stopJob s q 0x0C
  | .waits w => setSeam s q { seam s q with wait := w, job := some j }
  | .placed plan =>
    let s := tallyWait s q
    let x := seam s q
    let img := (pat s j.pat).image
    let s := plan.foldl (fun s u => claimUnit s u.1 u.2 x.logical j.tenant) s
    let s := wakeDie s (unitDie 0 q)
    let stages := (plan.zip (imgStageMap img)).zipIdx.foldl (fun t y =>
      let g : Stage := { ty := y.1.1.1, phys := y.1.1.2, spc := y.1.2.spc, inL := y.1.2.inL, outL := y.1.2.outL, code := imgCode img y.1.2 }
      tput {} t y.2 g) []
    setSeam s q { x with state := 2, wait := 0, stages := stages, chans := planChans (imgLaceMap img) plan,
                         awakeAt := if x.gated then awakeTime s (unitDie 0 q) else x.awakeAt, gated := false }

/-- A sequencer's job that may be placed: leave is held or not needed. -/
def placeable (s : State) (q : Nat) : Option JobRun :=
  let x := seam s q
  if x.state = 1 ∧ x.wait ≠ 1 then x.job.filter fun j => j.leaveHeld || decide (j.charge = 0) else none

/-- PLACEMENT (R126). -/
def execPlacement (q : Nat) (s : State) : Host.Outcome State Fault Refusal :=
  .next (match placeable s q with
    | some j => if working s && decide ((seam s q).wait = 0) then placeJob s q { j with waitT := s.now } else s
    | none => s)

/-- A waiting sequencer of a partition tries again; the partition's pointer moves past one that is placed (R56, R127). -/
def retryPlace (part : Nat) (s : State) (q : Nat) : State := match placeable s q with
  | none => s
  | some j =>
    if (seam s q).part = part ∧ (seam s q).wait ≠ 0 then
      let s := placeJob s q j
      if (seam s q).state = 2 then { s with sa := { s.sa with rrSeq := tput 0 s.sa.rrSeq part ((q + 1) % 68) } } else s
    else s

/-- PLACEMENT_RETRY (R127): waiting sequencers of a partition try again, round-robin. -/
def execPlacementRetry (part : Nat) (s : State) : Host.Outcome State Fault Refusal :=
  .next (if working s then
    let start := tget 0 s.sa.rrSeq part
    (List.range 68).foldl (fun s k => retryPlace part s ((start + k) % 68)) s
  else s)

/-- PLL_LOCK (R505): a die's PLL has locked. -/
def execPllLock (d : Nat) (s : State) : Host.Outcome State Fault Refusal :=
  .next (let x := die s d
    if mainUp s && decide (x.pll = 1) && decide (x.lockT ≤ s.now) then setDie s d { x with pll := 2 } else s)

/-! ### Start (R107, R108) -/

/-- Every claimed unit and the sequencer are awake. -/
def seamAwake (s : State) (q : Nat) : Bool :=
  let x := seam s q
  decide ((die s (unitDie 0 q)).pll = 2) && decide (x.awakeAt ≤ s.now) &&
  x.stages.all fun g => decide ((die s (unitDie g.2.ty g.2.phys)).pll = 2) && decide ((unitAt s g.2.ty g.2.phys).awakeAt ≤ s.now)

/-- s registers at job start (R108). -/
def startRegs (j : JobRun) : Tab W64 :=
  let t := (j.args.zipIdx).foldl (fun t a => sPut t (a.2 + 1) a.1) []
  sPut (sPut (sPut t 5 (w64 j.argAddr)) 6 (w64 j.seq)) 7 (w64 (place 28 16 j.endpoint + place 16 12 j.comp + place 0 10 j.ctx))

/-! ### References on table generations (R201) -/

/-- The resident entry of a table, with its number. -/
def resOf (s : State) (id : Nat) : Option (Nat × GvRes) := s.gv.res.find? fun r => r.2.valid && decide (r.2.table = id)

/-- References of a generation of a table changed. -/
def editRefs (s : State) (id gen : Nat) (f : Nat → Nat) : State := match resOf s id with
  | none => s
  | some (k, r) =>
    let r := if r.newGen = gen then { r with newRefs := f r.newRefs } else if r.oldLive ∧ r.oldGen = gen then { r with oldRefs := f r.oldRefs } else r
    { s with gv := { s.gv with res := tput {} s.gv.res k r } }

/-- A buffered block's reference dropped. -/
def dropRef (s : State) (b : BlockBuf) : State := if b.ref then editRefs s b.table b.gen (· - 1) else s

/-- References on tables that an encoding stage holds dropped (R197). -/
def dropEncRefs (s : State) (g : Stage) : State := g.encRefs.foldl (fun s r => editRefs s r.1 r.2 (· - 1)) s

/-- Tables a stage's ENCODE instructions name, with the generation that is NEW: what it references from its start. -/
def encTables (s : State) (g : Stage) (c : Nat) : List (Nat × Nat) :=
  if g.ty ≠ 7 then []
  else
    let ids := ((insStarts g.code (g.code.length / 8)).filterMap fun p =>
      let i := insAt g.code p
      if i.opc = 0x21 then some (i.x 0 16) else none).eraseDups
    ids.filterMap fun id => (resOf s id).bind fun r => if r.2.comp = c ∧ r.2.draining = false ∧ r.2.newGen ≠ 0 then some (id, r.2.newGen) else none

/-- Encoding stages of a seam that start reference their tables. -/
def takeEncRefs (s : State) (q c : Nat) : State :=
  (seam s q).stages.foldl (fun s g =>
    let l := encTables s g.2 c
    let s := l.foldl (fun s r => editRefs s r.1 r.2 (· + 1)) s
    setSeam s q (putStage (seam s q) g.1 { stageOf (seam s q) g.1 with encRefs := l })) s

/-- Units of a seam hold the pattern's code (R107 step 3). -/
def loadUnits (s : State) (x : Seam) (h : Nat) : State :=
  x.stages.foldl (fun s g => setUnit s g.2.ty g.2.phys { unitAt s g.2.ty g.2.phys with holds := some h }) s

/-- A weight-set handle is stale for a composition's job (R179): no set of it is registered under it, or it is withdrawn. -/
def staleSet (s : State) (c : Nat) : Option Nat → Bool
  | none => false
  | some h =>
    let x : WSet := tget {} s.tr.wsets (h % 4096)
    !x.status.enabled || x.status.draining || decide (x.gen ≠ h / 4096) || decide (x.comp ≠ c)

/-- A job's code and constants are loaded, its start state is set, and every stage and the sequencer start together (R107, R108). -/
def startJob (s : State) (q : Nat) (j : JobRun) (set : Option Nat) (wire : List (Nat × Nat)) : State :=
  let x := seam s q
  let img := (pat s j.pat).image
  let s := loadUnits (markStarted s j.seq) x (patHandle j.pat (pat s j.pat))
  let s := setCtx s j.ctx { ctx s j.ctx with resident := true, seq := x.logical }
  let laces := (imgLaceMap img).zipIdx.foldl (fun t l =>
    let y : Lace := { src := l.1.src, dst := l.1.dst, beat := l.1.beat, depth := l.1.depth }
    tput {} t l.2 y) []
  let y : Seam := { x with state := 3, s := startRegs j, p := 1, pc := 0, loops := [], code := imgSeqCode img, halted := false, cwait := .none,
                           updates := 0, laces := laces, mem := memWrite x.mem 0 (imgConsts img), ran := true,
                           job := some { j with began := true, startT := s.now, wset := set.map (· % 4096), wire := wire, wired := [] } }
  takeEncRefs (setSeam s q y) q j.comp

/-- JOB_START (R107, R108, R477): code and constants loaded, the start state set, and every stage and the
sequencer start together. `set` is the weight-set handle that the argument block names and `wire` the stages that send to coded
receivers, with their table addresses (R179, R209; DESIGN CHOICE, log 95: the spec lays neither out). -/
def execJobStart (q : Nat) (s : State) (set : Option Nat := none) (wire : List (Nat × Nat) := []) : Host.Outcome State Fault Refusal :=
  .next (let x := seam s q
    match x.job with
    | none => s
    | some j =>
      if working s && decide (x.state = 2) && seamAwake s q && !stagingWaits s then
        if staleSet s j.comp set then stopJob s q 5 else startJob s q j set wire
      else s)

/-! ### Retirement (R109, R129–R131, R30, R65) -/

/-- A write or tagged update of a seam's job awaits its completion (R109). -/
def seamBusy (s : State) (q : Nat) : Bool :=
  s.te.outst.any fun o => match o.what with
    | .piece y _ _ => decide (y = q) && decide (o.frame.op ≠ 0x01)
    | .stageUpdate y _ => decide (y = q)
    | .seqUpdate y => decide (y = q)
    | _ => false

/-- A checker of a type goes back among the spares (R517). -/
def freeChecker (s : State) (ty : Nat) : Option Nat → State
  | none => s
  | some c => if (unitAt s ty c).state = 5 then setUnit s ty c { unitAt s ty c with state := 3 } else s

/-- The stages of a seam stop: they leave fault entries, buffered blocks, tables and checkers, and its reads are
given up. DESIGN CHOICE (log 123): the references of a job that ends early are dropped here, once its writes have drained. -/
def quitStages (s : State) (q : Nat) : State :=
  let x := seam s q
  let s := x.stages.foldl (fun s g =>
    freeChecker (dropEncRefs (dropRef (dropRef (leaveFaults s (.stage q g.1)) g.2.buf) g.2.fill) g.2) g.2.ty (g.2.hold.bind (·.checker))) s
  let outst := s.te.outst.filter fun o => match o.what with
    | .piece y _ _ => decide (y ≠ q) || decide (o.frame.op ≠ 0x01)
    | _ => true
  { s with te := { s.te with outst := outst }, sa := { s.sa with welts := s.sa.welts.filter fun w => decide (w.seam ≠ q) || w.closedAt.isSome } }

/-- A part whose job has given it back is swapped if that was due (R513); a SPARE.SWAP that waited for it completes. -/
def swapOnFree (s : State) (ty p : Nat) (free : Bool) : State :=
  let s := if (health s ty p).swapDue && free then swapNow s ty p else s
  match (List.range 9).find? fun cs => decide ((ctl s cs).wait = .spareUnit ty p) with
  | none => s
  | some cs => if (health s ty p).swapDue then s
    else if (health s ty p).retired then ctlComplete s cs 0 none (some (stampKey okSwap (ty * 2 ^ 20 + p))) 32
    else ctlComplete s cs 0x0D01 none none 32

/-- A stage unit freed, and swapped if its swap was due (R513). -/
def freeUnit (s : State) (ty p : Nat) : State :=
  let s := setUnit s ty p { unitAt s ty p with state := if (unitAt s ty p).state = 1 then 0 else (unitAt s ty p).state, seam := 0, idleT := s.now }
  swapOnFree s ty p (decide ((unitAt s ty p).state = 0))

/-- The units, channels and leave of a seam's job given back (R127, R510). -/
def releaseSeam (s : State) (q : Nat) : State :=
  let x := seam s q
  let s := x.stages.foldl (fun s g => freeUnit s g.2.ty g.2.phys) (quitStages s q)
  let s := match x.job with
    | none => s
    | some j => if j.leaveHeld then dropLeave s x.part j.charge else cancelLeave s x.part (.job q)
  setSeam s q { seam s q with stages := [], laces := [], chans := [], wait := 0, job := x.job.map fun j => { j with leaveHeld := false } }

/-- The job's halves have all halted. -/
def seamHalted (x : Seam) : Bool := x.halted && x.stages.all fun g => g.2.halted

/-- Flags of a job: those of all its stages (R131), counted for its partition (R148). -/
def jobFlags (s : State) (q : Nat) : State :=
  let x := seam s q
  let f := fun (g : Stage → Bool) => x.stages.any fun y => g y.2
  let iv := f (·.iv)
  let ov := f (·.of)
  let uf := f (·.uf)
  let s := saCount (saCount (saCount s (32 + 3 * x.part) (b2n iv)) (33 + 3 * x.part) (b2n ov)) (34 + 3 * x.part) (b2n uf)
  setSeam s q { x with iv := iv, of := ov, uf := uf }

/-- A context is resident while a sequencer holds it for a running job (R423). -/
def ctxLeft (s : State) (c : Nat) : State :=
  match s.sa.seqs.find? fun x => decide (x.2.state = 3) && x.2.job.any fun j => decide (j.ctx = c) with
  | some x => setCtx s c { ctx s c with resident := true, seq := x.2.logical }
  | none => setCtx s c { ctx s c with resident := false, seq := 0 }

/-- The status a job completes with (R21, R520). -/
def jobStatus (j : JobRun) : Nat := match j.endStatus with
  | some st => st
  | none => if j.proofRerun then 0x0D else 0

/-- Word 1 of a completion record (R65). -/
def complWord (j : JobRun) (status : Nat) : W64 := w64 (place 0 8 status + place 8 12 j.queue + place 20 32 j.slot)

/-- The sequencer is free again, or is swapped if that was due (R513). -/
def freeSeq (s : State) (q : Nat) : State :=
  let s := setSeam s q { seam s q with state := 0, wait := 0, job := none, halted := true, cwait := .none, stopT := none, idleT := s.now }
  swapOnFree s 0 q true

/-- A sequencer's job retires: its flags are counted, its units and leave go back, and its completion record is staged unless the
entry is exported or removal has begun. -/
def retireJob (s : State) (q : Nat) (j : JobRun) : State :=
  let s := if (seam s q).stages.isEmpty then s else jobFlags s q
  let s := releaseSeam s q
  let s := match findRec s j.seq with
    | none => s
    | some r => if r.exported ∨ s.lv.removeStopped then s else stageCompletion s r (complWord j (jobStatus j)) j.userTag
  ctxLeft (freeSeq (phCount s 6 (b2n (decide (jobStatus j = 0x0D)))) q) j.ctx

/-- JOB_RETIRE (R109, R30 part 1): a job whose stages have halted, or that ended early, retires once its writes
have completed; its completion record is staged. -/
def execJobRetire (q : Nat) (s : State) : Host.Outcome State Fault Refusal :=
  .next (let x := seam s q
    match x.job with
    | none => s
    | some j =>
      if working s && !stagingWaits s && !seamBusy s q && ((decide (x.state = 3) && seamHalted x) || decide (x.state = 8)) then retireJob s q j else s)

/-- The oldest live record of a queue. -/
def queueHead (s : State) (n : Nat) : Option JRec := oldest (queueRecs s n)

/-- The bytes of a job's completion record (R65). -/
def complBytes (r c : JRec) : Bytes := bytesLE 8 r.seq ++ bytesLE 8 c.word1.toNat ++ bytesLE 8 c.doneAt ++ bytesLE 8 (c.userTag % 2 ^ 32)

/-- An object bumped at a retirement, or the skip counted (R289). -/
def bump (s : State) (n c : Nat) : State :=
  match updateValue s n c false 1 with
  | some v => setObject s n v
  | none => teCount s 9 1

/-- Parts 2 and 3 of R30 for a job whose completion record stands staged. -/
def deliverCompl (s : State) (r c : JRec) (status : Nat) : State :=
  let w := ownWrite s (fld (jobWord r 6) 0 60) (complBytes r c) status
  if w.1 = 1 then s
  else
    let s := if bit (jobWord r 0) 33 then notify w.2 r.comp (jobq s r.queue).endpoint (bytesLE 8 (c.userTag % 2 ^ 32)) else w.2
    let s := if bit (jobWord r 7) 15 then s else bump s (fld (jobWord r 7) 0 14) r.comp
    retireRec s r.seq

/-- COMPLETION_WRITE_DONE (R28, R30, R65): the record of the oldest entry of a queue stands in memory; the
message of FLAGS[1] is sent, the object is bumped and the entry retires. A write refused with RETRY_LATER is
sent again; any other status leaves the journal's record as the outcome. -/
def execCompletionWriteDone (n : Nat) (status : Nat) (s : State) : Host.Outcome State Fault Refusal :=
  .next (match queueHead s n with
    | none => s
    | some r => match findCompl s r.seq with
      | none => s
      | some c =>
        if working s && !stagingWaits s then
          deliverCompl s r c status
        else s)

/-- The run limit of a partition in ns (R129). -/
def runLimit (s : State) (part : Nat) : Nat := tget 100000 s.sa.runLim part * 1000

/-- JOB_RUN_LIMIT (R129). -/
def execJobRunLimit (q : Nat) (s : State) : Host.Outcome State Fault Refusal :=
  .next (let x := seam s q
    if working s && decide (x.state = 3) && x.job.any (fun j => decide (j.startT + runLimit s x.part ≤ s.now))
    then stopJob (setSeam s q { x with stopT := some s.now }) q 0x0E else s)

/-! ### Restarts (R124, R130, R520) -/

/-- The part an uncorrectable error struck is taken out or its row remapped (R124, R130). -/
def dropPart (s : State) (q : Nat) (err : ErrPart) : State :=
  match err with
  | .unit ty p => retireUnit s ty p
  | .lace l =>
    let g := stageOf (seam s q) (laceOf (seam s q) l).src
    retireUnit s g.ty g.phys
  | .chan _ _ => s
  | .row d _ => remapRow s d

/-- A stopped job runs again from its start: it gives its units and leave back, and asks anew (R130, R510). -/
def rerunJob (s : State) (q : Nat) (j : JobRun) : State :=
  let s := saCount (releaseSeam s q) 5 1
  let s := { s with sa := { s.sa with welts := s.sa.welts.filter fun w => !(decide (w.seam = q) && decide (w.seq = j.seq)) } }
  let x := seam s q
  let j := { j with leaveHeld := false, waitT := s.now, spills := 0 }
  let x := { x with state := 1, restarts := x.restarts + 1, job := some j, halted := true, cwait := .none, updates := 0, stopT := none }
  if j.charge = 0 then setSeam s q x
  else askLeave (setSeam s q { x with wait := 1 }) x.part (.job q) j.charge

/-- The failing part lies in the seam. -/
def errIn (s : State) (q : Nat) (err : ErrPart) : Bool :=
  let x := seam s q
  match err with
  | .unit ty p => x.stages.any fun g => decide (g.2.ty = ty) && decide (g.2.phys = p)
  | .lace l => decide (x.laces.any fun y => y.1 = l)
  | .chan a b => decide (tget 0 x.chans (a * 4 + b) ≠ 0)
  | .row d b => decide (unitDie 0 q = d) && (sliceBanks s q).contains b

/-- The bank of a failing row fails with its sequencer (R124): the job waits to be taken again, its restarts counted on
(R130). -/
def restartElsewhere (s : State) (q d b : Nat) (j : JobRun) : State :=
  let s := { s with sa := { s.sa with reruns := tput 0 s.sa.reruns j.seq ((seam s q).restarts + 1) } }
  failBank (freeSeq (saCount (releaseSeam s q) 5 1) q) q d b

/-- JOB_RESTART (R130): the stages of a running job stop; once its writes have completed, the failing part is
retired or remapped, and the job is placed again. When no spare row is left, the row's bank fails and its sequencer
retires, and the job waits to be taken again. The event is presented again while writes are outstanding. -/
def execJobRestart (q : Nat) (err : ErrPart) (s : State) : Host.Outcome State Fault Refusal :=
  .next (let x := seam s q
    match x.job with
    | none => s
    | some j =>
      if working s && (decide (x.state = 3) || decide (x.state = 5)) && errIn s q err then
        if seamBusy s q then setSeam s q { x with state := 5, wait := 0, stopT := if x.stopT.isNone then some s.now else x.stopT }
        else
          let s := saCount s 3 1
          let again := rerunJob (dropPart s q err) q j
          ctxLeft (match err with
            | .row d b => if rowsOut s d then restartElsewhere s q d b j else again
            | _ => again) j.ctx
      else s)

/-! ### Gating (R505) -/

/-- Every unit and sequencer of a compute die is gated or holds no clock. -/
def dieIdle (s : State) (d : Nat) : Bool :=
  ((List.range 7).all fun t => (List.range (physCount (t + 1))).all fun p => decide (unitDie (t + 1) p ≠ d) || (unitAt s (t + 1) p).gated)
  && (List.range 68).all fun q => decide (unitDie 0 q ≠ d) || (seam s q).gated

/-- The die's idle time starts when its last unit is gated. -/
def dieGated (s : State) (d : Nat) : State := if dieIdle s d then setDie s d { die s d with idleT := s.now } else s

/-- UNIT_IDLE_GATE (R505): a unit, or with type 0 a seam sequencer, that has held no job for UNIT_IDLE is gated. -/
def execUnitIdleGate (ty : Nat) (p : Nat) (s : State) : Host.Outcome State Fault Refusal :=
  .next (if mainUp s && decide (ty < 8) && decide (p < physCount ty) then
    if ty = 0 then
      let x := seam s p
      if x.gated = false ∧ x.job = none ∧ x.idleT + s.ph.unitIdle * 1000 ≤ s.now then dieGated (setSeam s p { x with gated := true }) (unitDie 0 p) else s
    else
      let u := unitAt s ty p
      if u.gated = false ∧ u.state ≠ 1 ∧ u.state ≠ 5 ∧ u.idleT + s.ph.unitIdle * 1000 ≤ s.now
      then dieGated (setUnit s ty p { u with gated := true }) (unitDie ty p) else s
  else s)

/-- PLL_IDLE_STOP (R505): a die whose units have all been gated for PLL_IDLE stops its PLL. -/
def execPllIdleStop (d : Nat) (s : State) : Host.Outcome State Fault Refusal :=
  .next (let x := die s d
    if mainUp s && decide (d < 4) && decide (x.pll = 2) && dieIdle s d && decide (x.idleT + s.ph.pllIdle * 1000 ≤ s.now)
    then setDie s d { x with pll := 0 } else s)

/-! ### The power-on test and the array's objects (R112, R145) -/

/-- The entry of a unit after its first power-on test: active ones free with their logical number, others spare. -/
def unitInit (ty p : Nat) : SUnit :=
  let d := unitDie ty p
  let i := p - physBase ty d
  if i < actOnDie ty then { logical := actOnDie ty * d + i } else { state := 3 }

/-- The entry of a seam sequencer after its first power-on test, with its default slice of six banks. -/
def seamInit (q : Nat) : Seam :=
  let d := unitDie 0 q
  let i := q - physBase 0 d
  if i < 16 then { logical := 16 * d + i, first := 6 * i, banks := 6 } else { state := 6 }

/-- Every sequencer and unit of the variant with its initial logical number (R112). -/
def initArray (s : State) : State :=
  let s := (List.range 68).foldl (fun s q => setSeam s q (seamInit q)) s
  (List.range 7).foldl (fun s t => if typePresent s.variant (t + 1)
    then (List.range (physCount (t + 1))).foldl (fun s p => setUnit s (t + 1) p (unitInit (t + 1) p)) s else s) s

/-- POWER_ON_TEST_END (R112, R145, R146): the array is ready. The first test gives every active part its
logical number in partition 0; a later one finds numbers, partitions and slices as the state image holds them. -/
def execPowerOnTestEnd (s : State) : Host.Outcome State Fault Refusal :=
  .next (if decide (s.cc.stage = 4) && !s.sa.ready then
    let s := { s with sa := { s.sa with ready := true } }
    if s.sa.seqs.isEmpty then initArray s else s
  else s)

/-- Bank counts of an SA_SLICE descriptor. -/
def sliceCounts (d : List W64) : List Nat := (List.range 16).map fun k => leAt (wordsBytes (d.drop 1)) k 1

/-- First bank and count of each logical sequencer of a die under a layout that skips failed banks. -/
def sliceLayout (s : State) (dn : Nat) (l : List Nat) : List (Nat × Nat) :=
  (l.foldl (fun (a : Nat × List (Nat × Nat)) n => (a.1 + n, a.2 ++ [((goodBanks s dn).getD a.1 0, n)])) (0, [])).2

/-- The sequencers an SA_SLICE changes, with their new slices. -/
def sliceChanges (s : State) (d : List W64) : List (Nat × Nat × Nat) :=
  let dn := df d 0 0 2
  (sliceLayout s dn (sliceCounts d)).zipIdx.filterMap fun (x, k) => match physOf s 0 (16 * dn + k) with
    | none => none
    | some q => if (seam s q).banks = x.2 ∧ ((seam s q).first = x.1 ∨ x.2 = 0) then none else some (q, x.1, x.2)

/-- A slice moved to other banks: cells of banks it keeps stay with their bank, all others read zero (R125). -/
def reslice (s : State) (q first n : Nat) : Seam :=
  let x := seam s q
  let old := sliceBanks s q
  let new := bankRun s (unitDie 0 q) first n
  let cells := x.mem.filterMap fun c => match old[c.1 / 262144]? with
    | none => none
    | some b => (new.findIdx? (· = b)).map fun i => (i * 262144 + c.1 % 262144, c.2)
  { x with first := first, banks := n, mem := cells }

/-- The state with a layout applied. -/
def applySlices (s : State) (d : List W64) : State := (sliceChanges s d).foldl (fun s x => setSeam s x.1 (reslice s x.1 x.2.1 x.2.2)) s

/-- A pattern's STAGE_MEM fits the largest slice of its partition. -/
def patternFits (s : State) (p : PatSlot) : Bool := decide (imgMem p.image ≤ maxBanks s (patPart s p) * 256)

/-- A new state leaves each enabled pattern that had a slice of its STAGE_MEM or more with one (R105; DEDUCED, log 114). -/
def patternsFit (s t : State) : Bool :=
  s.sa.pats.all fun p => !p.2.status.enabled || !patternFits s p.2 || patternFits t p.2

/-- Checks of an SA_SLICE commit (R125, R145). -/
def sliceReason (s : State) (d : List W64) : Nat :=
  let l := sliceCounts d
  firstFail [
    ((sliceChanges s d).any fun x => decide ((seam s x.1).state ≠ 0), 1),
    (reservedSet d [fmask 0 2, 2 ^ 64 - 1, 2 ^ 64 - 1, 1], 9),
    (l.any fun n => decide (96 < n), 4),
    (decide ((goodBanks s (df d 0 0 2)).length < l.foldl (· + ·) 0), 0x0301),
    (!patternsFit s (applySlices s d), 0x0209)]

/-- A commit on one of the array's status words. -/
def saCommit (s : State) (cs opc : Nat) (key : List W64 → Nat) (get : State → Nat → ObjStatus) (set : State → Nat → ObjStatus → State)
    (kind : Nat) (reason : State → List W64 → Nat) (go : State → List W64 → State) : State :=
  runCtl s cs opc (fun _ => true) (fun d => stampKey kind (key d)) (fun s d => some (statusWord (get s (key d)))) fun s _ d =>
    applyOnly s d (statusWord (get s (key d))) fun _ =>
      let k := key d
      let r := reason s d
      let o := if r ≠ 0 then refused (get s k) r else accepted (get s k)
      let s := set (if r = 0 then go s d else s) k o
      if r ≠ 0 then refuse s r (some (statusWord o)) else { s := s, status := some (statusWord o), obj := some (stampKey kind k) }

/-- COMMIT_SA_SLICE (R105, R125, R145). -/
def execCommitSaSlice (cs : Nat) (s : State) : Host.Outcome State Fault Refusal :=
  .next (saCommit s cs 0xE1 (fun d => df d 0 0 2) (fun s k => tget {} s.sa.sliceSt k)
    (fun s k o => { s with sa := { s.sa with sliceSt := tput {} s.sa.sliceSt k o } }) okSlice sliceReason applySlices)

/-- Logical numbers an SA_UNITMAP names. -/
def mapUnits (d : List W64) : List Nat := (List.range 128).filter fun u => bit (wd d (1 + u / 64)) (u % 64)

/-- A unit or sequencer named is placed, scrubbing or not idle. -/
def mapBusy (s : State) (ty l : Nat) : Bool := match physOf s ty l with
  | none => false
  | some p => if ty = 0 then decide ((seam s p).state ≠ 0) else decide ((unitAt s ty p).state = 1) || decide ((unitAt s ty p).state = 2)

/-- Checks of an SA_UNITMAP commit (R145, R458). -/
def unitmapReason (s : State) (d : List W64) : Nat :=
  let ty := df d 0 8 3
  firstFail [
    ((mapUnits d).any (mapBusy s ty), 1),
    (!typePresent s.variant ty || decide (activeCount s ty = 0), 2),
    (reservedSet d [fmask 0 4 + fmask 8 3, 2 ^ 64 - 1, 2 ^ 64 - 1, 1], 9),
    ((mapUnits d).any fun u => decide (4 * actOnDie ty ≤ u), 4),
    ((mapUnits d).any fun u => (physOf s ty u).isNone, 0x0302),
    ((lcNow s).sealed && (mapUnits d).any (fun u => match physOf s ty u with
      | none => false
      | some p => decide ((if ty = 0 then (seam s p).part else (unitAt s ty p).part) ≠ df d 0 0 4)), 0x0B06)]

/-- The named sequencers or units move to the commit's partition; a sequencer that moves is due its scrub (R112, R133). -/
def applyUnitmap (s : State) (d : List W64) : State :=
  let ty := df d 0 8 3
  (mapUnits d).foldl (fun s u => match physOf s ty u with
    | none => s
    | some p =>
      if ty = 0 then (if (seam s p).part = df d 0 0 4 then s else setSeam s p { seam s p with part := df d 0 0 4, scrubDue := true })
      else setUnit s ty p { unitAt s ty p with part := df d 0 0 4 }) s

/-- COMMIT_SA_UNITMAP (R145): the named parts move to the partition; a moved sequencer is scrubbed before its
next job. -/
def execCommitSaUnitmap (cs : Nat) (s : State) : Host.Outcome State Fault Refusal :=
  .next (saCommit s cs 0xE2 (fun d => df d 0 0 4) (fun s k => tget {} s.sa.mapSt k)
    (fun s k o => { s with sa := { s.sa with mapSt := tput {} s.sa.mapSt k o } }) okUnitMap unitmapReason applyUnitmap)

/-- COMMIT_SA_PARTCFG (R129, R145). -/
def execCommitSaPartcfg (cs : Nat) (s : State) : Host.Outcome State Fault Refusal :=
  .next (saCommit s cs 0xE3 (fun d => df d 0 0 4) (fun s k => tget {} s.sa.cfgSt k)
    (fun s k o => { s with sa := { s.sa with cfgSt := tput {} s.sa.cfgSt k o } }) okPartCfg
    (fun _ d => firstFail [
      (reservedSet d [fmask 0 4, fmask 0 32, 0, 1], 9),
      (!decide (1000 ≤ df d 1 0 32 ∧ df d 1 0 32 ≤ 10000000), 4)])
    fun s d => { s with sa := { s.sa with runLim := tput 100000 s.sa.runLim (df d 0 0 4) (df d 1 0 32) } })

end Sys2Proof.Machine
end

