-- ==== Sys2Proof/Machine/Flow.lean ====
section
/-! DEFINITION. Stages that execute (R85, R86, R89, R214), and the flow instructions of sequencers and stages
(R222–R225). -/

namespace Sys2Proof.Machine

/-! ### Executing units -/

/-- A stage of a running job that has not halted and stalls on no fault. -/
def stageLive (s : State) (q n : Nat) : Bool :=
  working s && decide ((seam s q).state = 3) && (seam s q).stages.any (fun g => decide (g.1 = n)) && !(stageOf (seam s q) n).halted
    && !engStalled s (.stage q n)

/-- A stage. -/
def stage (s : State) (q n : Nat) : Stage := stageOf (seam s q) n
/-- A stage replaced. -/
def setStage (s : State) (q n : Nat) (g : Stage) : State := setSeam s q (putStage (seam s q) n g)
/-- The instruction at a stage's pc. -/
def stageIns (s : State) (q n : Nat) : Ins := insAt (stage s q n).code (stage s q n).pc
/-- A stage past its instruction. -/
def stageNext (g : Stage) : Stage := { g with pc := g.pc + (insAt g.code g.pc).len }

/-- t registers an instruction names, reads and writes alike. -/
def tRegs (i : Ins) : List Nat :=
  let run := fun sp n => if isT sp then (List.range n).map (sp % 32 + ·) else []
  let rd := i.f 41 7
  let rs1 := i.f 34 7
  let rs2 := i.f 27 7
  let n := runOf (i.f 23 4)
  match i.opc with
  | 0x30 => run rd 4 ++ run rs1 1 ++ run rs2 1
  | 0x31 => run rd 1 ++ run rs1 1 ++ run rs2 1
  | 0x32 => run rd n ++ run rs1 1 ++ run rs2 n ++ (if i.f 0 2 = 0 then [] else [i.x 32 4])
  | 0x33 => run rd 1 ++ run rs1 n
  | 0x34 => run rd n ++ run rs1 1
  | 0x40 => run rd 2 ++ run rs1 1
  | 0x41 => run rd 1 ++ run rs1 1 ++ run rs2 1
  | 0x42 => run rd 2 ++ run rs1 1
  | 0x60 => run rd 1 ++ run rs1 1
  | 0x13 => run rd (i.f 8 4 + 1) ++ run rs1 (i.f 8 4 + 1)
  | _ => []

/-- An instruction waits for the verdict on a held tile (R518): it names one of its registers or its row, a
block's values are held in the output buffer, or the stage would halt. -/
def holdWaits (g : Stage) (i : Ins) : Bool := match g.hold with
  | none => false
  | some h => h.lace.isSome || decide (i.opc = 0) || (tRegs i).any (fun t => h.rds.contains t)
      || (h.row.isSome && decide (i.opc = 0x40) && decide (h.row = some (i.f 0 8)))

/-- A stage instruction of an opcode executes, if the one at the stage's pc is of that opcode and of the form
`sel` takes; with its guard off it only advances (R89). -/
def runStage (s : State) (q n opc : Nat) (sel : Ins → Bool) (body : State → Stage → Ins → State) : State :=
  if stageLive s q n && decide ((stageIns s q n).opc = opc) && sel (stageIns s q n) then
    if !guardOn (stage s q n).p (stageIns s q n) then setStage s q n (stageNext (stage s q n))
    else if holdWaits (stage s q n) (stageIns s q n) then s
    else body s (stage s q n) (stageIns s q n)
  else s

/-- A seam sequencer that executes. -/
def seqLive (s : State) (q : Nat) : Bool :=
  working s && decide ((seam s q).state = 3) && !(seam s q).halted && decide ((seam s q).cwait = .none)
/-- The instruction at a seam sequencer's pc. -/
def seqIns (s : State) (q : Nat) : Ins := insAt (seam s q).code (seam s q).pc

/-- An instruction of a sequencer or stage of any kind executes: it is at the issuer's pc, and its guard is on;
with the guard off it only advances. -/
def runAny (s : State) (iss : Issuer) (opc : Nat) (c : State → Nat → Ins → State) (x : State → Nat → Ins → State)
    (g : State → Nat → Nat → Ins → State) : State :=
  match iss with
  | .ctl cs =>
    if ctlActive s cs && decide ((ctlIns s cs).opc = opc) then
      if guardOn (ctl s cs).p (ctlIns s cs) then c s cs (ctlIns s cs) else setCtl s cs { ctl s cs with pc := (ctl s cs).pc + (ctlIns s cs).len }
    else s
  | .seq q =>
    if seqLive s q && decide ((seqIns s q).opc = opc) then
      if guardOn (seam s q).p (seqIns s q) then x s q (seqIns s q) else setSeam s q { seam s q with pc := (seam s q).pc + (seqIns s q).len }
    else s
  | .stage q n => runStage s q n opc (fun _ => true) fun s _ i => g s q n i

/-! ### HALT, LOOP, ENDL and BR -/

/-- Every stream of a stage has delivered its last record (R218). -/
def streamsDone (g : Stage) : Bool := g.pieces.isEmpty

/-- HALT of a stage (R109, R222): its output laces close once its streams have delivered. -/
def haltStage (s : State) (q n : Nat) : State :=
  let g := stage s q n
  if streamsDone g then
    let s := dropEncRefs s g
    let x := putStage (seam s q) n { g with halted := true, encRefs := [] }
    setSeam s q { x with laces := (laceList g.outL).foldl (fun t l => tmod {} t l fun c => { c with closed := true }) x.laces }
  else s

/-- HALT (R222). -/
def execHalt (iss : Issuer) (s : State) : Host.Outcome State Fault Refusal :=
  .next (runAny s iss 0x00 (fun s cs _ => if stagingWaits s then s else progEnd s cs 0 (fld (sGet (ctl s cs).s 31) 0 16))
    (fun s q _ => setSeam s q { seam s q with halted := true }) (fun s q n _ => haltStage s q n))

/-- LOOP (R223). -/
def execLoop (iss : Issuer) (s : State) : Host.Outcome State Fault Refusal :=
  .next (runAny s iss 0x01
    (fun s cs i =>
      let x := ctl s cs
      let p := loopPlace x.image { pc := x.pc, loops := x.loops } i (sGet x.s (i.f 32 5))
      setCtl s cs { x with pc := p.pc, loops := p.loops })
    (fun s q i =>
      let x := seam s q
      let p := loopPlace x.code { pc := x.pc, loops := x.loops } i (sGet x.s (i.f 32 5))
      setSeam s q { x with pc := p.pc, loops := p.loops })
    (fun s q n i =>
      let g := stage s q n
      let p := loopPlace g.code { pc := g.pc, loops := g.loops } i (sGet (seam s q).s (i.f 32 5))
      setStage s q n { g with pc := p.pc, loops := p.loops }))

/-- s registers after an ENDL: the induction register of the loop it closes has advanced (R224). -/
def endlS (t : Tab W64) (pl : Place) : Tab W64 := match endlFrame pl with
  | some f => indS t f
  | none => t

/-- ENDL (R224). -/
def execEndl (iss : Issuer) (s : State) : Host.Outcome State Fault Refusal :=
  .next (runAny s iss 0x02
    (fun s cs _ =>
      let x := ctl s cs
      let pl : Place := { pc := x.pc, loops := x.loops }
      setCtl s cs { x with pc := (endlPlace pl).pc, loops := (endlPlace pl).loops, s := endlS x.s pl })
    (fun s q _ =>
      let x := seam s q
      let pl : Place := { pc := x.pc, loops := x.loops }
      setSeam s q { x with pc := (endlPlace pl).pc, loops := (endlPlace pl).loops, s := endlS x.s pl })
    (fun s q n _ =>
      let g := stage s q n
      let pl : Place := { pc := g.pc, loops := g.loops }
      let a := match endlFrame pl with
        | some f => indA g.a f
        | none => g.a
      setStage s q n { g with pc := (endlPlace pl).pc, loops := (endlPlace pl).loops, a := a }))

/-- BR (R225). -/
def execBr (iss : Issuer) (s : State) : Host.Outcome State Fault Refusal :=
  .next (runAny s iss 0x03
    (fun s cs i =>
      let x := ctl s cs
      let p := brPlace { pc := x.pc, loops := x.loops } i
      setCtl s cs { x with pc := p.pc, loops := p.loops })
    (fun s q i =>
      let x := seam s q
      let p := brPlace { pc := x.pc, loops := x.loops } i
      setSeam s q { x with pc := p.pc, loops := p.loops })
    (fun s q n i =>
      let g := stage s q n
      let p := brPlace { pc := g.pc, loops := g.loops } i
      setStage s q n { g with pc := p.pc, loops := p.loops }))

/-! ### ARRIVE, SIGNAL and WAITCNT (R250–R252) -/

/-- An update of a sequencer or control program: its object's switch and number. -/
def updTarget (s : State) (i : Ins) : Nat × Nat := (if i.x 28 1 = 1 then i.x 16 12 else s.swNum, i.x 0 14)

/-- The value an update carries. -/
def updValue (op : Nat) (i : Ins) (v : W64) : Nat := if op = 0x09 then (i.f 0 16 + v.toNat) % 2 ^ 64 else v.toNat

/-- A tagged update's frame under the key of an issuer's n-th update (R274). -/
def updFrame (s : State) (op sw obj c v seq issuer n : Nat) : Frame :=
  { updateFrame s op sw obj c v with stream := keyStream seq issuer n, tag := n % 65536, issueT := issueTime s seq issuer n }

/-- The composition a control program's update carries: its own, or for an FM program that of an object of this switch, and
composition 0 toward others, by which they know it (R250, `fmUpdate`). -/
def updComp (s : State) (q : CtlSeq) (sw obj : Nat) : Nat :=
  if q.priv = 2 then q.comp else if sw = s.swNum then (objAt s obj).comp else 0

/-- An update of a control program. One that a full reply cache answers with RETRY_LATER stays outstanding (R273). -/
def ctlUpdate (s : State) (cs op : Nat) (i : Ins) : State :=
  let q := ctl s cs
  let (sw, obj) := updTarget s i
  let f := updFrame s op sw obj (updComp s q sw obj) (updValue op i (sGet q.s (i.f 34 5))) q.seqNo 30 q.updates
  let s := setCtl (markIssued s q.seqNo 30 q.updates) cs { q with updates := q.updates + 1 }
  if sw = s.swNum then
    match localUpdate s f with
    | (0, s) => setCtl s cs { ctl s cs with pc := q.pc + i.len }
    | (1, s) => setCtl (keepOut s f (.ctlUpdate cs)) cs { ctl s cs with wait := .update }
    | (st, s) => endProg s cs st 0
  else setCtl (issue s f (.ctlUpdate cs)) cs { ctl s cs with wait := .update }

/-- The job's sequencer or a stage issued something others can see (R520). -/
def jobSent (s : State) (q : Nat) : State := setSeam s q { seam s q with job := (seam s q).job.map fun j => { j with sent := true } }

/-- An update of a seam sequencer; its 16,777,217th ends the job (R274). -/
def seqUpdate (s : State) (q op : Nat) (i : Ins) : State :=
  let x := seam s q
  match x.job with
  | none => s
  | some j =>
    if 16777216 ≤ x.updates then stopJob s q 3
    else
      let (sw, obj) := updTarget s i
      let f := updFrame s op sw obj j.comp (updValue op i (sGet x.s (i.f 34 5))) j.seq 31 x.updates
      let t := jobSent (setSeam (markIssued s j.seq 31 x.updates) q { x with updates := x.updates + 1 }) q
      if sw = s.swNum then
        match localUpdate t f with
        | (0, t) => setSeam t q { seam t q with pc := x.pc + i.len }
        | (1, t) => setSeam (keepOut t f (.seqUpdate q)) q { seam t q with cwait := .update }
        | (st, t) => stopJob t q st
      else
        let t := issue t f (.seqUpdate q)
        setSeam t q { seam t q with cwait := .update }

/-- ARRIVE (R250). -/
def execArrive (iss : Issuer) (s : State) : Host.Outcome State Fault Refusal :=
  .next (runAny s iss 0x70 (fun s cs i => ctlUpdate s cs 0x09 i) (fun s q i => seqUpdate s q 0x09 i) fun s _ _ _ => s)

/-- SIGNAL (R250). -/
def execSignal (iss : Issuer) (s : State) : Host.Outcome State Fault Refusal :=
  .next (runAny s iss 0x72 (fun s cs i => ctlUpdate s cs 0x0A i) (fun s q i => seqUpdate s q 0x0A i) fun s _ _ _ => s)

/-- WAITCNT's test of an object (R251). -/
def countMet (s : State) (obj thr : Nat) (eq : Bool) : Bool := countTest (objAt s obj).value.toNat thr eq

/-- A count to wait for, from the instruction and its registers. -/
def countWait (s : State) (i : Ins) (regs : Tab W64) : CpWait :=
  .count (fld (sGet regs (i.f 34 5)) 0 14) (sGet regs (i.f 27 5)).toNat (bit i.w 0) (i.f 41 5)
    (if i.f 2 20 = 0 then 0 else s.now + i.f 2 20 * 1000) false

/-- An object a waiter of a composition may read (R110, R250): one that was committed, of its composition. -/
def countReach (s : State) (obj : Nat) (own : Option Nat) : Bool :=
  let o := objAt s obj
  o.status.enabled && match own with
    | some c => decide (o.comp = c)
    | none => true

/-- A control program's wait has ended with a truth value. -/
def ctlCounted (s : State) (cs rd : Nat) (v : Bool) : State :=
  let q := ctl s cs
  setCtl s cs { q with p := pPut q.p (rd % 32) v, pc := q.pc + 1, wait := .none }

/-- A seam sequencer's wait has ended with a truth value. -/
def seqCounted (s : State) (q rd : Nat) (v : Bool) : State :=
  let x := seam s q
  setSeam s q { x with p := pPut x.p (rd % 32) v, pc := x.pc + 1, cwait := .none }

/-- WAITCNT (R251): completes at once if the test holds, else waits. -/
def execWaitcnt (iss : Issuer) (s : State) : Host.Outcome State Fault Refusal :=
  .next (runAny s iss 0x71
    (fun s cs i =>
      let q := ctl s cs
      match countWait s i q.s with
      | .count obj thr eq rd dl _ =>
        if !countReach s obj (if q.priv = 2 then some q.comp else none) then endProg s cs 3 0
        else if countMet s obj thr eq then ctlCounted s cs rd true
        else setCtl s cs { q with wait := .count obj thr eq rd dl false }
      | _ => s)
    (fun s q i =>
      let x := seam s q
      match countWait s i x.s, x.job with
      | .count obj thr eq rd dl _, some j =>
        if !countReach s obj (some j.comp) then stopJob s q 3
        else if countMet s obj thr eq then seqCounted s q rd true
        else setSeam s q { x with cwait := .count obj thr eq rd dl false }
      | _, _ => s)
    fun s _ _ _ => s)

/-- The count an issuer waits for. -/
def waitOf (s : State) : Issuer → CpWait
  | .ctl cs => if working s && decide ((ctl s cs).state = 1) then (ctl s cs).wait else .none
  | .seq q => if working s && decide ((seam s q).state = 3) then (seam s q).cwait else .none
  | .stage _ _ => .none

/-- A wait for a count ends with a truth value. -/
def counted (s : State) (iss : Issuer) (rd : Nat) (v : Bool) : State := match iss with
  | .ctl cs => ctlCounted s cs rd v
  | .seq q => seqCounted s q rd v
  | .stage _ _ => s

/-- WAITCNT_SATISFIED (R251, R252): the first cycle in which the test holds, or has held after an update. -/
def execWaitcntSatisfied (iss : Issuer) (s : State) : Host.Outcome State Fault Refusal :=
  .next (match waitOf s iss with
    | .count obj thr eq rd _ met => if met || countMet s obj thr eq then counted s iss rd true else s
    | _ => s)

/-- WAITCNT_TIMEOUT (R251): the timeout expires; if the test holds in that cycle, the predicate is 1. -/
def execWaitcntTimeout (iss : Issuer) (s : State) : Host.Outcome State Fault Refusal :=
  .next (match waitOf s iss with
    | .count obj thr eq rd dl met => if dl ≠ 0 ∧ dl ≤ s.now then counted s iss rd (met || countMet s obj thr eq) else s
    | _ => s)

end Sys2Proof.Machine
end

