-- ==== Sys2Proof/Machine/StageIo.lean ====
section
/-! DEFINITION. What a stage moves: streams, gathers and scatters (R118, R151, R226–R228), records of coded
blocks with their spilled blocks (R199), EMIT (R229, R230), reduce-writes and multicast stores (R248, R249). -/

namespace Sys2Proof.Machine

/-! ### Registers and the slice -/

/-- A stage's t register. -/
def tGet (g : Stage) (k : Nat) : Tile := tget {} g.t (k % 16)
/-- A stage's t register written. -/
def tPut (g : Stage) (k : Nat) (x : Tile) : Stage := { g with t := tput {} g.t (k % 16) x }
/-- The data bytes of a t register written; its scale field stays. -/
def tData (g : Stage) (k : Nat) (d : BitVec 8192) : Stage := tPut g k { tGet g k with data := d }
/-- A stage's a register. -/
def aGet (g : Stage) (k : Nat) : W64 := tget 0 g.a (k % 16)
/-- A stage's a register written. -/
def aPut (g : Stage) (k : Nat) (v : W64) : Stage := { g with a := tput 0 g.a (k % 16) v }
/-- SPACE of an a register (R86). -/
def aSpace (v : W64) : Nat := fld v 62 2
/-- Address of an a register. -/
def aAddr (v : W64) : Nat := fld v 0 56
/-- An s or a register by its specifier. -/
def regVal (s : State) (q : Nat) (g : Stage) (sp : Nat) : W64 := if isA sp then aGet g sp else sGet (seam s q).s (sp % 32)
/-- p6 of a stage after it took from a lace (R217). -/
def setP6 (g : Stage) (v : Bool) : Stage := { g with p := pPut g.p 6 v }

/-- Bytes of a slice (R123). -/
def sliceBytes (x : Seam) : Nat := x.banks * 262144

/-- Bytes of a slice that a range names, if it lies inside. -/
def sliceRead (x : Seam) (a n : Nat) : Option Bytes := if a + n ≤ sliceBytes x then some (memRead x.mem a n) else none

/-- The job of a seam. -/
def jobOf (s : State) (q : Nat) : JobRun := (seam s q).job.getD {}

/-- An access of a stage to memory. -/
def stageAcc (s : State) (q n va need : Nat) : VAcc :=
  let j := jobOf s q
  { eng := .stage q n, asid := j.asid, va := va, need := need, comp := j.comp, ctx := j.ctx, tenant := j.tenant }

/-- Outstanding requests of a stage (R265). -/
def stageOut (s : State) (q n : Nat) : Nat := outCount s fun w => match w with
  | .piece a b _ => decide (a = q) && decide (b = n)
  | .stageUpdate a b => decide (a = q) && decide (b = n)
  | _ => false

/-- The stage may hold one more request. -/
def stageRoom (s : State) (q n : Nat) : Bool := decide (stageOut s q n < 512)

/-! ### Room in a lace (R119) -/

/-- Bytes of a record. -/
def recLen (i : Ins) : Nat := i.f 22 12 * 32
/-- The lace of a stream. -/
def recLace (i : Ins) : Nat := i.f 39 5

/-- Scale bytes a tile of a type has (*Tile shapes*). -/
def scaleBytes (ty : Nat) : Nat := if ty = 9 then 64 else if isMX ty then 32 else 0

/-- MXFP6 types. -/
def isFP6 (ty : Nat) : Bool := decide (ty = 7 ∨ ty = 8)

/-- Lace size of a tile of a type (R229). -/
def laceSize (ty : Nat) : Nat := (if isFP6 ty then 768 else 1024) + scaleBytes ty

/-- Bytes an instruction takes together from a lace, which it draws in as they come; none for TOPK, which takes its whole input
(R244). -/
def takeNeed (g : Stage) (i : Ins) (l : Nat) : Option Nat :=
  match i.opc with
  | 0x10 => some (if i.f 38 1 = 1 ∧ recLace i = l then recLen i else 0)
  | 0x11 => some 4
  | 0x12 => some (if recLace i = l then recLen i else 4)
  | 0x13 => some (if i.f 0 3 = 1 ∧ i.f 3 5 = l then (i.f 8 4 + 1) * laceSize (i.f 23 4) else 0)
  | 0x20 => some (if i.f 0 5 = l then 4128 else 0)
  | 0x21 => some (if i.f 0 5 = l then 4096 else 0)
  | 0x22 => some (if l = (if g.prog.phase = 1 then i.f 0 5 else i.f 32 5) then 4096 else 0)
  | 0x51 => if i.f 32 5 = l then none else some 0
  | 0x53 => some (if i.f 0 5 = l then i.x 0 12 * 32 else 4)
  | 0x60 => some 2080
  | 0x61 => some (if i.f 0 5 = l then i.x 0 9 + 32 * i.f 5 1 else 0)
  | 0x62 => some (if i.f 0 5 = l then i.x 16 13 + 32 * i.f 5 1 else 0)
  | _ => some 0

/-- A beat may leave a lace's producer: the lace holds fewer than DEPTH beats beyond what its consumer's instruction is drawing in
(R119). A record of a producer leaves it in one step, so what stands above DEPTH beats is in the producer's output buffer (log 22). -/
def laceRoom (x : Seam) (l : Nat) : Bool :=
  let c := laceOf x l
  let g := stageOf x c.dst
  let i := insAt g.code g.pc
  match (if g.halted = false ∧ guardOn g.p i = true then takeNeed g i l else some 0) with
  | none => true
  | some n => decide (c.q.length < c.beat * c.depth + n)

/-! ### Data that return -/

/-- A slot record's slots by the size its first header states (R199): offset and bytes of each; none when the
record is no whole number of them, or when headers differ. -/
def slotsOf (b : Bytes) : Option (List (Nat × Bytes)) :=
  let m := fldN (leAt b 3 1) 2 6
  let sz := (m + 1) * 64
  let l := (List.range (b.length / sz)).map fun k => (k * sz, (b.drop (k * sz)).take sz)
  if b.length % sz = 0 ∧ l.all (fun x => decide (fldN (leAt x.2 3 1) 2 6 = m)) = true then some l else none

/-- A slot holds a stub (R188). -/
def isStub (b : Bytes) : Bool := decide (fldN (leAt b 3 1) 0 2 = 1)

/-- Address of a spilled block: that of its stub's slot plus OFFSET. -/
def spillAddr (va : Nat) (b : Bytes) : Nat := wrapInt 56 ((va : Int) + signed 64 (leAt b 8 8))

/-- The pieces a coded record becomes: its slots as they are, and for each stub a spilled block to be read, in
the slice at once (R199). A spilled block that does not lie on a 4 KiB boundary has no such pieces. -/
def slotPieces (x : Seam) (slice : Bool) (va lace : Nat) (b : Bytes) : Option (List Piece) :=
  (slotsOf b).bind fun l => l.mapM fun s =>
    if isStub s.2 then
      let a := spillAddr (va + s.1) s.2
      if a % 4096 ≠ 0 then none
      else if slice then (sliceRead x a 4096).map fun d => { va := a, len := 4096, st := 3, lace := lace, data := s.2.take 32 ++ d }
      else some { va := a, len := 4096, st := 0, lace := lace, stub := s.2.take 32 }
    else some { va := va + s.1, len := s.2.length, st := 3, lace := lace, data := s.2 }

/-- The first coded record all of whose requests have been issued and have returned. -/
def wholeRecord (g : Stage) : Option Nat :=
  (g.pieces.find? fun p => p.graver && !(g.prog.have_ && decide (g.prog.rec_ = p.rec_))
    && g.pieces.all fun r => decide (r.rec_ ≠ p.rec_) || !r.graver || decide (r.st = 3)).map (·.rec_)

/-- Coded records that are whole are cut into their slots; a bad one ends the job with RIGHTS (R199). -/
def cutRecords (q n : Nat) : Nat → State → State
  | 0, s => s
  | k + 1, s =>
    let g := stage s q n
    match wholeRecord g with
    | none => s
    | some r =>
      let mine := g.pieces.filter fun p => p.graver && decide (p.rec_ = r)
      let h := mine.headD {}
      match slotPieces (seam s q) false h.va h.lace (mine.flatMap (·.data)) with
      | none => stopJob s q 3
      | some l =>
        let before := g.pieces.takeWhile fun p => !(p.graver && decide (p.rec_ = r))
        let after := (g.pieces.drop before.length).filter fun p => !(p.graver && decide (p.rec_ = r))
        cutRecords q n k (setStage s q n { g with pieces := before ++ l ++ after })

/-- Pieces whose data may enter their laces, those that stay, and the laces that wait. -/
def readyPieces : List Piece → List Nat → List Piece × List Piece
  | [], _ => ([], [])
  | p :: t, held =>
    if p.lace < 32 ∧ held.contains p.lace = false ∧ p.st = 3 ∧ p.graver = false then
      let r := readyPieces t held
      (p :: r.1, r.2)
    else
      let r := readyPieces t (p.lace :: held)
      (r.1, p :: r.2)

/-- Data enter the laces in record order (R118, R218). -/
def deliver (s : State) (q n : Nat) : State :=
  let g := stage s q n
  let r := readyPieces g.pieces []
  let s := setStage s q n { g with pieces := r.2 }
  setSeam s q (r.1.foldl (fun x p => lacePut x p.lace p.data) (seam s q))

/-- A read of a piece's bytes: the whole 32-byte units that hold them. -/
def pieceReq (s : State) (q : Nat) (p : Piece) (fa region rkey : Nat) : Frame :=
  memReq s 0x01 1 (fa / 32 * 32) (jobOf s q).comp region rkey (ceilDiv (p.va % 32 + p.len) 32 * 32) []

/-- Spilled blocks are read ahead of the stage's other requests (R199). -/
def readSpills (q n : Nat) : Nat → State → State
  | 0, s => s
  | k + 1, s =>
    let g := stage s q n
    match g.pieces.find? fun p => decide (p.st = 0) with
    | none => s
    | some p =>
      if engStalled s (.stage q n) || !stageRoom s q n then s
      else match translate s (stageAcc s q n p.va 0) with
        | (s, .waits) => s
        | (s, .ends st) => stopJob s q st
        | (s, .ok fa r key) =>
          let id := s.te.nextId
          let g := stage s q n
          let at_ := g.pieces.findIdx fun y => decide (y.st = 0)
          let s := setStage s q n { g with pieces := setAt g.pieces at_ { p with st := 2, id := id } }
          readSpills q n k { issueNew s (pieceReq s q p fa r key) (.piece q n id) with gv := { s.gv with ctr := tmod 0 s.gv.ctr 1 fun c => satInc c 1 } }

/-- A stage's data that have returned are cut and delivered, and its spilled blocks read. -/
def stageGo (s : State) (q n : Nat) : State :=
  if (seam s q).state = 3 then
    let s := cutRecords q n ((stage s q n).pieces.length + 1) s
    if (seam s q).state = 3 then
      let s := readSpills q n ((stage s q n).pieces.length + 1) s
      if (seam s q).state = 3 then deliver s q n else s
    else s
  else s

/-- A read or write of a stage has ended: its data are kept, or the job ends with its status (R118). -/
def pieceDone (s : State) (q n id status : Nat) (data : Bytes) : State :=
  if status ≠ 0 then stopJob s q status
  else
    let g := stage s q n
    let f := fun (p : Piece) => if p.id = id ∧ p.st = 2 then { p with st := 3, data := p.stub ++ (data.drop (p.va % 32)).take p.len } else p
    stageGo (setStage s q n { g with pieces := g.pieces.map f }) q n

/-! ### STREAM, GATHER and SCATTER -/

/-- Bytes from record to record. -/
def recStride (i : Ins) : Nat := (if i.f 0 17 = 0 then i.f 22 12 else i.f 0 17) * 32
/-- The count of records an instruction names. DESIGN CHOICE (log 124): the register is read at every presentation of the running
stream. -/
def recCount (s : State) (q : Nat) (i : Ins) : Nat := if i.f 17 5 = 0 then 1 else (sGet (seam s q).s (i.f 17 5)).toNat
/-- The instruction ends. One that takes from a lace sets p6, to 0 where it met end-of-stream and had taken nothing (R217). -/
def ioEnd (s : State) (q n : Nat) (takes eos : Bool) : State :=
  let g := stage s q n
  let h := { stageNext g with prog := {} }
  setStage s q n (if takes then setP6 h (g.prog.took || !eos) else h)

/-- The lace an index stream comes from (R227). -/
def indexLace (g : Stage) (i : Ins) : Nat :=
  if i.opc = 0x12 then ((laceList g.inL).filter (· ≠ recLace i)).headD 0 else firstLace g.inL

/-- What becomes of the next record: its address, the end of the instruction, a wait, or an end of the job. -/
inductive NextRec where
  | at_ (s : State) (addr : Nat)
  | done (eos : Bool)
  | waits
  | bad

/-- The address of the next record of a stream, or by the next index (R92, R227, R228). -/
def nextRec (s : State) (q n : Nat) (i : Ins) : NextRec :=
  let g := stage s q n
  let base := aAddr (aGet g (i.f 44 4))
  if recCount s q i ≤ g.prog.count then .done false
  else if i.opc = 0x10 then .at_ s (wrapInt 56 (base + g.prog.count * recStride i : Nat))
  else
    let l := indexLace g i
    let c := laceOf (seam s q) l
    if 4 ≤ c.q.length then
      let x := signed 32 (leAt c.q 0 4)
      if x < 0 then .bad
      else
        let s := setSeam s q (laceDrop (seam s q) l 4)
        let g := stage s q n
        .at_ (setStage s q n { g with prog := { g.prog with took := true } }) (wrapInt 56 ((base : Int) + x * recStride i))
    else if c.closed then .done true
    else .waits

/-- A record is done. -/
def recDone (s : State) (q n : Nat) : State :=
  let g := stage s q n
  setStage s q n { g with prog := { g.prog with count := g.prog.count + 1, have_ := false, passed := 0 } }

/-- Pieces that join a stage's. -/
def addPieces (s : State) (q n : Nat) (l : List Piece) : State :=
  let g := stage s q n
  setStage s q n { g with pieces := g.pieces ++ l }

/-- `GV_SPILL_READS` raised. -/
def countSpills (s : State) (n : Nat) : State := { s with gv := { s.gv with ctr := tmod 0 s.gv.ctr 1 fun c => satInc c n } }

/-- One record from the slice to the lace (R226): the second read of a stub is one of the slice, and counts (R199). -/
def sliceToLace (s : State) (q n : Nat) (i : Ins) (addr : Nat) : State :=
  match sliceRead (seam s q) addr (recLen i) with
  | none => stopJob s q 3
  | some b =>
    if !laceRoom (seam s q) (recLace i) then s
    else
    let ps := if i.f 34 4 = 0xF then slotPieces (seam s q) true addr (recLace i) b
      else some [{ va := addr, len := recLen i, st := 3, lace := recLace i, data := b }]
    match ps with
    | none => stopJob s q 3
    | some l =>
      let stubs := if i.f 34 4 = 0xF then (((slotsOf b).getD []).filter fun x => isStub x.2).length else 0
      stageGo (recDone (addPieces (countSpills s stubs) q n l) q n) q n

/-- One request from memory to the lace (R118). -/
def memToLace (s : State) (q n : Nat) (i : Ins) (addr : Nat) : State :=
  let g := stage s q n
  let va := (addr + g.prog.passed) % 2 ^ 56
  let len := min (recLen i - g.prog.passed) (4096 - va % 4096)
  if !stageRoom s q n || !laceRoom (seam s q) (recLace i) then s
  else match translate s (stageAcc s q n va 0) with
    | (s, .waits) => s
    | (s, .ends st) => stopJob s q st
    | (s, .ok fa r k) =>
      let id := s.te.nextId
      let p : Piece := { id := id, va := va, len := len, st := 2, lace := recLace i, rec_ := g.prog.rec_, graver := decide (i.f 34 4 = 0xF) }
      let s := issueNew (addPieces s q n [p]) (pieceReq s q p fa r k) (.piece q n id)
      if g.prog.passed + len = recLen i then recDone s q n
      else
        let g := stage s q n
        setStage s q n { g with prog := { g.prog with passed := g.prog.passed + len } }

/-- Up to `len` bytes taken from a lace: a wait until they are there or the lace has closed. -/
def laceTake (s : State) (q l len : Nat) : Option (Bytes × State) :=
  let c := laceOf (seam s q) l
  if c.q.length < len ∧ c.closed = false then none
  else some (c.q.take len, setSeam s q (laceDrop (seam s q) l len))

/-! ### Wire tables (R180, R209) -/

/-- The live record of a generation of a resident table: NEW, or OLD. -/
def genRecord (r : GvRes) (gen : Nat) : Option Bytes :=
  if gen = 0 then none
  else if r.newGen = gen then some r.newRec
  else if r.oldLive ∧ r.oldGen = gen then some r.oldRec
  else none

/-- Headers of the coded slots that begin in a run of bytes before which `left` bytes of an earlier slot stand, and what is left of
the last slot after it (R185, R188). -/
def slotHeads : Nat → Nat → Bytes → List Bytes × Nat
  | 0, left, b => ([], left - b.length)
  | fuel + 1, left, b =>
    if b.length ≤ left then ([], left - b.length)
    else
      let c := b.drop left
      let r := slotHeads fuel ((fldN (leAt c 3 1) 2 6 + 1) * 64) c
      (c.take 4 :: r.1, r.2)

/-- A wire table (R209): the generation's number, digest and record. -/
def wireTable (id gen : Nat) (rec_ : Bytes) : Bytes :=
  bytesLE 2 id ++ bytesLE 1 gen ++ bytesLE 1 0 ++ fitTo 32 (sm3 (rec_.take 132)) ++ List.replicate 28 0 ++ fitTo 160 rec_

/-- What must happen before a stage sends a run of bytes to a coded receiver. -/
inductive WireDue where
  | nothing
  | stale
  | table (id gen : Nat) (data : Bytes)
deriving DecidableEq, Repr

/-- The address of the wire tables of a stage of a job, where it sends to a coded receiver. -/
def wireAddr (s : State) (q n : Nat) : Option Nat := ((jobOf s q).wire.find? fun w => decide (w.1 = n)).map (·.2)

/-- The first table generation that a run of coded bytes names and the receiver has not been sent in the job; a generation that is not
resident is stale (R180, R209). -/
def wireDue (s : State) (q n : Nat) (b : Bytes) : WireDue :=
  match wireAddr s q n with
  | none => .nothing
  | some a =>
    let live := fun (h : Bytes) => (resOf s (leAt h 0 2)).bind fun r => if r.2.draining then none else genRecord r.2 (leAt h 2 1)
    let hs := (slotHeads b.length (stage s q n).prog.coded b).1
    match hs.find? fun h => (live h).isNone || !(jobOf s q).wired.contains (a, leAt h 0 2, leAt h 2 1) with
    | none => .nothing
    | some h => match live h with
      | none => .stale
      | some r => .table (leAt h 0 2) (leAt h 2 1) (wireTable (leAt h 0 2) (leAt h 2 1) r)

/-- A wire table has been sent: the job and `GV_WIRE_TABLES` count it. -/
def wireSent (s : State) (q n id gen : Nat) : State :=
  let a := (wireAddr s q n).getD 0
  let s := setSeam s q { seam s q with job := (seam s q).job.map fun j => { j with wired := (a, id, gen) :: j.wired } }
  { s with gv := { s.gv with ctr := tmod 0 s.gv.ctr 7 fun c => satInc c 1 } }

/-- A run of coded bytes has been sent: where the next slot begins. -/
def codedSent (s : State) (q n : Nat) (b : Bytes) : State :=
  match wireAddr s q n with
  | none => s
  | some _ =>
    let g := stage s q n
    setStage s q n { g with prog := { g.prog with coded := (slotHeads b.length g.prog.coded b).2 } }

/-- Bytes on their way from a stage: a wire table that they need goes first, as one store of its own to the job's table address; then
`go` sends them. -/
def wireFirst (s : State) (q n : Nat) (b : Bytes) (store : State → Nat → Nat → Nat → Bytes → Frame) (go : State → State) : State :=
  match wireDue s q n b with
  | .nothing => go s
  | .stale => stopJob s q 0x0B
  | .table id gen d =>
    match translate s (stageAcc s q n ((wireAddr s q n).getD 0) 1) with
    | (s, .waits) => s
    | (s, .ends st) => stopJob s q st
    | (s, .ok fa r k) =>
      let f := store s fa r k d
      let o := s.te.nextId
      wireSent (jobSent (issueNew s f (.piece q n o)) q) q n id gen

/-- One record from the lace to the slice, or one request of it to memory (R92, R118, R226). Data that end within
a record are written as far as they go. -/
def laceToMem (s : State) (q n : Nat) (i : Ins) (addr : Nat) : State :=
  let g := stage s q n
  let mem := decide (aSpace (aGet g (i.f 44 4)) = 1)
  let va := if mem then (addr + g.prog.passed) % 2 ^ 56 else addr
  let len := if mem then min (recLen i - g.prog.passed) (4096 - va % 4096) else recLen i
  match laceTake s q (recLace i) len with
  | none => s
  | some ([], t) => ioEnd t q n true true
  | some (b, t) =>
    let took := fun (s : State) =>
      let g := stage s q n
      setStage s q n { g with prog := { g.prog with took := true } }
    let cont := fun (s : State) =>
      if b.length < len then ioEnd s q n true true
      else if !mem || decide (g.prog.passed + len = recLen i) then recDone s q n
      else
        let g := stage s q n
        setStage s q n { g with prog := { g.prog with passed := g.prog.passed + len } }
    if !mem then
      if addr + b.length ≤ sliceBytes (seam s q) then
        let x := seam t q
        cont (took (setSeam t q { x with mem := memWrite x.mem addr b }))
      else stopJob s q 3
    else if !stageRoom s q n then s
    else
      let store := fun (s : State) (fa r k : Nat) (b : Bytes) => memReq s 0x02 1 fa (jobOf s q).comp r k b.length b
      wireFirst s q n b store fun s => match translate s (stageAcc s q n va 1) with
      | (s, .waits) => s
      | (s, .ends st) => stopJob s q st
      | (s, .ok fa r k) =>
        let s := setSeam s q (laceDrop (seam s q) (recLace i) len)
        let id := s.te.nextId
        cont (took (codedSent (jobSent (issueNew s (store s fa r k b) (.piece q n id)) q) q n b))

/-- A lace the stage's TOPK has closed: a later emission onto it ends the job with RIGHTS (R244). -/
def laceShut (s : State) (q l : Nat) : Bool := (laceOf (seam s q) l).closed

/-- One presentation of STREAM, GATHER or SCATTER: one record of the slice or one request of memory (R218,
R226–R228). A count of 0 ends it at once (R92). A count above 2^32 − 1, SPACE 2 or 3, and a memory address that is not 32-byte aligned end the job
with RIGHTS. -/
def streamStep (s : State) (q n : Nat) (i : Ins) : State :=
  let g := stage s q n
  let a := aGet g (i.f 44 4)
  let dir := decide (i.f 38 1 = 1)
  let takes := dir || decide (i.opc ≠ 0x10)
  if recCount s q i = 0 then ioEnd s q n takes false
  else if 2 ^ 32 ≤ recCount s q i ∨ 2 ≤ aSpace a ∨ (aSpace a = 1 ∧ aAddr a % 32 ≠ 0) ∨ (dir = false ∧ laceShut s q (recLace i) = true)
  then stopJob s q 3
  else
    let move := fun (s : State) (addr : Nat) =>
      if dir then laceToMem s q n i addr else if aSpace a = 0 then sliceToLace s q n i addr else memToLace s q n i addr
    if g.prog.have_ then move s g.prog.addr
    else match nextRec s q n i with
      | .done eos => ioEnd s q n takes eos
      | .waits => s
      | .bad => stopJob s q 3
      | .at_ s addr =>
        let g := stage s q n
        move (setStage s q n { g with prog := { g.prog with have_ := true, addr := addr, passed := 0, rec_ := s.te.nextId } }) addr

/-- STREAM (R226). -/
def execStream (q : Nat) (n : Nat) (s : State) : Host.Outcome State Fault Refusal :=
  .next (runStage s q n 0x10 (fun _ => true) fun s _ i => streamStep s q n i)

/-- GATHER (R227). -/
def execGather (q : Nat) (n : Nat) (s : State) : Host.Outcome State Fault Refusal :=
  .next (runStage s q n 0x11 (fun _ => true) fun s _ i => streamStep s q n i)

/-- SCATTER (R227). -/
def execScatter (q : Nat) (n : Nat) (s : State) : Host.Outcome State Fault Refusal :=
  .next (runStage s q n 0x12 (fun _ => true) fun s _ i => streamStep s q n i)

/-! ### EMIT -/

/-- EMIT of a mode. -/
def emitRow (s : State) (q n mode : Nat) (body : State → Stage → Ins → State) : State :=
  runStage s q n 0x13 (fun i => decide (i.f 0 3 = mode)) body

/-- A tile in its lace form: packed data, then scale bytes (R229). -/
def tileToLace (ty : Nat) (t : Tile) : Bytes :=
  (if isFP6 ty then bytesLE 768 (packBits 6 (tileElems t 8)) else tileBytes t) ++ bytesLE (scaleBytes ty) t.scale.toNat

/-- A tile from its lace form; bytes that are missing read 0. -/
def tileFromLace (ty : Nat) (old : Tile) (b : Bytes) : Tile :=
  let d := if isFP6 ty then
      let w := ofLE (b.take 768)
      BitVec.ofNat 8192 (packBits 8 ((List.range 1024).map fun k => fldN w (6 * k) 6))
    else BitVec.ofNat 8192 (ofLE (b.take 1024))
  let k := scaleBytes ty
  let sc := if k = 0 then old.scale else BitVec.ofNat 512 (putFld old.scale.toNat 0 (8 * k) (leAt b (laceSize ty - k) k))
  { data := d, scale := sc }

/-- The value of flat element `e` of a tile with its block's scale; a scale of 0xFF makes it NaN (R134, R238). -/
def tileVal (ty : Nat) (t : Tile) (e : Nat) : FVal :=
  let x := tileFld t (e * tileBits ty) (tileBits ty)
  if isMX ty then
    let sc := (t.scale >>> (8 * (e / 32))).toNat % 256
    if sc = 0xFF then .nan
    else match elemVal ty x with
      | .fin a m k => .fin a m (k + sc - 127)
      | v => v
  else elemVal ty x

/-- Elements of a tile of a type. -/
def elemCount (ty : Nat) : Nat := 8192 / tileBits ty

/-- The values of a tile's elements in flat order. -/
def tileVals (ty : Nat) (t : Tile) : List FVal := (List.range (elemCount ty)).map (tileVal ty t)

/-- A tile put on a lace as elements of a type (R229). -/
def putTile (et ty rc : Nat) (t : Tile) : Res Bytes :=
  if et = ty then ⟨tileToLace ty t, 0⟩
  else
    let r := resMap (elemRound ty rc) (tileVals et t)
    let b := tileBits ty
    ⟨bytesLE (elemCount et * b / 8) (packBits b r.v), r.f⟩

/-- The bytes a PUT puts on its lace, with the flags of its rounding. -/
def emitBytes (g : Stage) (i : Ins) : Res Bytes :=
  let r := resMap (putTile (i.x 0 4) (i.f 23 4) (i.f 12 2)) ((List.range (i.f 8 4 + 1)).map fun k => tGet g (i.f 34 7 + k))
  ⟨r.v.flatten, r.f⟩

/-- EMIT PUT (R229). -/
def execEmitPut (q : Nat) (n : Nat) (s : State) : Host.Outcome State Fault Refusal :=
  .next (emitRow s q n 0 fun s g i =>
    if laceShut s q (i.f 3 5) then stopJob s q 3
    else if !laceRoom (seam s q) (i.f 3 5) then s
    else
    let s := setStage s q n (stageNext (stageFlags g (emitBytes g i).f))
    setSeam s q (lacePut (seam s q) (i.f 3 5) (emitBytes g i).v))

/-- A TAKE's tiles in their registers. -/
def takeTiles (g : Stage) (i : Ins) (b : Bytes) : Stage :=
  let sz := laceSize (i.f 23 4)
  (List.range (i.f 8 4 + 1)).foldl (fun h j =>
    tPut h (i.f 41 7 + j) (tileFromLace (i.f 23 4) (tGet h (i.f 41 7 + j)) ((b.drop (j * sz)).take sz))) g

/-- EMIT TAKE (R229, R230). -/
def execEmitTake (q : Nat) (n : Nat) (s : State) : Host.Outcome State Fault Refusal :=
  .next (emitRow s q n 1 fun s _ i =>
    match laceTake s q (i.f 3 5) ((i.f 8 4 + 1) * laceSize (i.f 23 4)) with
    | none => s
    | some (b, s) =>
      let g := stage s q n
      if b.isEmpty then setStage s q n (setP6 (stageNext g) false)
      else setStage s q n (setP6 (stageNext (takeTiles g i b)) true))

/-- EMIT SETA (R229). -/
def execEmitSeta (q : Nat) (n : Nat) (s : State) : Host.Outcome State Fault Refusal :=
  .next (emitRow s q n 2 fun s g i =>
    let v := fld (regVal s q g (i.f 34 7)) 0 56 + i.x 0 56
    setStage s q n (stageNext (aPut g (i.f 41 7) (w64 (place 0 56 v + place 62 2 (i.f 18 2))))))

/-- The value of LDA in its register. -/
def ldaPut (s : State) (q n : Nat) (i : Ins) (b : Bytes) : State :=
  let g := stage s q n
  let h := aPut { g with prog := {} } (i.f 41 7) (w64 (place 0 56 (leAt b 0 8) + place 62 2 (i.f 18 2)))
  setStage s q n (stageNext h)

/-- EMIT LDA (R229, R230): from the slice at once, from memory by one translated read. -/
def execEmitLda (q : Nat) (n : Nat) (s : State) : Host.Outcome State Fault Refusal :=
  .next (emitRow s q n 3 fun s g i =>
    let a := aGet g (i.f 34 7)
    let va := (aAddr a + i.x 0 32) % 2 ^ 56
    if 2 ≤ aSpace a ∨ va % 8 ≠ 0 then stopJob s q 3
    else if aSpace a = 0 then
      match sliceRead (seam s q) va 8 with
      | none => stopJob s q 3
      | some b => ldaPut s q n i b
    else if g.prog.active then
      match g.pieces.find? fun p => decide (p.lace = 32) && decide (p.st = 3) with
      | none => s
      | some p => ldaPut (setStage s q n { g with pieces := g.pieces.filter fun p => decide (p.lace ≠ 32) }) q n i p.data
    else if !stageRoom s q n then s
    else match translate s (stageAcc s q n va 0) with
      | (s, .waits) => s
      | (s, .ends st) => stopJob s q st
      | (s, .ok fa r k) =>
        let id := s.te.nextId
        let p : Piece := { id := id, va := va, len := 8, st := 2, lace := 32 }
        let g := stage s q n
        let s := setStage s q n { g with pieces := g.pieces ++ [p], prog := { g.prog with active := true } }
        issueNew s (pieceReq s q p fa r k) (.piece q n id))

/-- Bytes LDT and STT move for each tile. -/
def slotSize (i : Ins) : Nat := 1024 + 64 * i.f 14 1

/-- LDT's tiles in their registers. -/
def loadTiles (g : Stage) (i : Ins) (b : Bytes) : Stage :=
  (List.range (i.f 8 4 + 1)).foldl (fun h j =>
    let c := (b.drop (j * slotSize i)).take (slotSize i)
    let old := tGet h (i.f 41 7 + j)
    tPut h (i.f 41 7 + j) { data := BitVec.ofNat 8192 (ofLE (c.take 1024))
                            scale := if i.f 14 1 = 1 then BitVec.ofNat 512 (leAt c 1024 64) else old.scale }) g

/-- EMIT LDT (R229, R230). -/
def execEmitLdt (q : Nat) (n : Nat) (s : State) : Host.Outcome State Fault Refusal :=
  .next (emitRow s q n 4 fun s g i =>
    let a := aGet g (i.f 34 7)
    let va := (aAddr a + i.x 0 32) % 2 ^ 56
    if aSpace a ≠ 0 ∨ va % 64 ≠ 0 then stopJob s q 3
    else match sliceRead (seam s q) va ((i.f 8 4 + 1) * slotSize i) with
      | none => stopJob s q 3
      | some b => setStage s q n (stageNext (loadTiles g i b)))

/-- The bytes STT stores. -/
def sttBytes (g : Stage) (i : Ins) : Bytes :=
  (List.range (i.f 8 4 + 1)).flatMap fun j =>
    let t := tGet g (i.f 34 7 + j)
    tileBytes t ++ (if i.f 14 1 = 1 then bytesLE 64 t.scale.toNat else [])

/-- EMIT STT (R229, R230). -/
def execEmitStt (q : Nat) (n : Nat) (s : State) : Host.Outcome State Fault Refusal :=
  .next (emitRow s q n 5 fun s g i =>
    let a := aGet g (i.f 27 7)
    let va := (aAddr a + i.x 0 32) % 2 ^ 56
    let b := sttBytes g i
    if aSpace a ≠ 0 ∨ va % 64 ≠ 0 ∨ sliceBytes (seam s q) < va + b.length then stopJob s q 3
    else
      let x := seam s q
      setStage (setSeam s q { x with mem := memWrite x.mem va b }) q n (stageNext g))

/-- A relation between unsigned numbers (REL). -/
def relHolds (rel : Nat) (c : Int) : Bool := match rel with
  | 0 => decide (c = 0)
  | 1 => decide (c ≠ 0)
  | 2 => decide (c < 0)
  | 3 => decide (c ≤ 0)
  | 4 => decide (0 < c)
  | _ => decide (0 ≤ c)

/-- EMIT SETP (R229). -/
def execEmitSetp (q : Nat) (n : Nat) (s : State) : Host.Outcome State Fault Refusal :=
  .next (emitRow s q n 6 fun s g i =>
    let v := (regVal s q g (i.f 34 7)).toNat
    setStage s q n (stageNext { g with p := pPut g.p (i.f 41 7 % 32) (relHolds (i.f 15 3) ((v : Int) - (i.ext.toNat : Int))) }))

/-! ### Reduce-writes and multicast stores -/

/-- The offset of a record of REDW or MCAST from its base, and its data: by position, or by the line its header
names. -/
def lineRec (i : Ins) (count step : Nat) (b : Bytes) : Int × Bytes :=
  if i.f 5 1 = 1 then (signed 32 (leAt b 0 4) * step, b.drop 32) else ((count * step : Nat), b)

/-- A record from the lace for REDW and MCAST: the instruction ends at end-of-stream, and the job with RIGHTS
when data end within a record. -/
def lineStep (s : State) (q n : Nat) (i : Ins) (len : Nat) (go : Bytes → State → State) : State :=
  let need := len + 32 * i.f 5 1
  match laceTake s q (i.f 0 5) need with
  | none => s
  | some ([], t) => ioEnd t q n true true
  | some (b, t) => if b.length < need then stopJob s q 3 else go b t

/-- A record has been sent. -/
def lineSent (s : State) (q n : Nat) : State :=
  let g := stage s q n
  setStage s q n { g with prog := { g.prog with took := true, count := g.prog.count + 1 } }

/-- One record of REDW sent as a tagged reduce-write (R248, R274). -/
def redwSend (s : State) (q n : Nat) (i : Ins) (b : Bytes) : State :=
  let g := stage s q n
  let j := jobOf s q
  let op := i.x 13 3
  let (off, data) := lineRec i g.prog.count 256 b
  let va := wrapInt 56 ((aAddr (aGet g (i.f 34 7)) : Int) + off)
  if 16777216 ≤ g.updates then stopJob s q 3
  else if !stageRoom s q n then s
  else match translate s (stageAcc s q n va 2) with
    | (s, .waits) => s
    | (s, .ends st) => stopJob s q st
    | (s, .ok fa r k) =>
      let u := g.updates
      let f := { memReq s 0x05 3 fa j.comp r k data.length data with
        subop := op, etype := i.x 9 4, stream := keyStream j.seq n u, tag := u % 65536, issueT := issueTime s j.seq n u }
      let s := setSeam s q (laceDrop (seam s q) (i.f 0 5) b.length)
      let g := stage s q n
      let s := jobSent (markIssued (setStage s q n { g with updates := u + 1 }) j.seq n u) q
      lineSent (issue s f (.stageUpdate q n)) q n

/-- REDW (R248). -/
def execRedw (q : Nat) (n : Nat) (s : State) : Host.Outcome State Fault Refusal :=
  .next (runStage s q n 0x61 (fun _ => true) fun s g i =>
    if aSpace (aGet g (i.f 34 7)) ≠ 1 then stopJob s q 3
    else lineStep s q n i (i.x 0 9) fun b _ => redwSend s q n i b)

/-- One record of MCAST: its base is translated, needing the right Write (R366), and the store carries its
offset from the members' bases (R276). -/
def mcastSend (s : State) (q n : Nat) (i : Ins) (b : Bytes) : State :=
  let g := stage s q n
  let (off, data) := lineRec i g.prog.count (i.x 16 13) b
  let va := wrapInt 56 ((aAddr (aGet g (i.f 34 7)) : Int) + off)
  if !stageRoom s q n then s
  else
    let store := fun (s : State) (fa r k : Nat) (b : Bytes) =>
      { memReq s 0x06 5 (s.swNum * 2 ^ 48 + faOff fa) (jobOf s q).comp r k b.length b with group := i.x 0 14 }
    wireFirst s q n data store fun s => match translate s (stageAcc s q n va 1) with
    | (s, .waits) => s
    | (s, .ends st) => stopJob s q st
    | (s, .ok fa r k) =>
      let f := store s fa r k data
      let s := setSeam s q (laceDrop (seam s q) (i.f 0 5) b.length)
      let id := s.te.nextId
      lineSent (codedSent (jobSent (issueNew s f (.piece q n id)) q) q n data) q n

/-- MCAST (R249). -/
def execMcast (q : Nat) (n : Nat) (s : State) : Host.Outcome State Fault Refusal :=
  .next (runStage s q n 0x62 (fun _ => true) fun s g i =>
    let x := group s (i.x 0 14)
    if aSpace (aGet g (i.f 34 7)) ≠ 1 ∨ x.status.enabled = false ∨ x.comp ≠ (jobOf s q).comp then stopJob s q 3
    else lineStep s q n i (i.x 16 13) fun b _ => mcastSend s q n i b)

end Sys2Proof.Machine
end

