-- ==== Sys2Proof/Machine/Proof.lean ====
section
/-! DEFINITION. Proof: sampled tiles, their checkers and verdicts (R516–R523). -/

namespace Sys2Proof.Machine

/-! ### Samples -/

/-- Tiles of a group of a unit's (R516). -/
def groupTiles (s : State) (ty : Nat) (h : UHealth) : Nat :=
  2 ^ (if h.escal then tget 0 s.ph.log2esc ty else tget 0 s.ph.log2n ty)

/-- The unit's next tile is sampled: it stands at the drawn position of its group, or takes the place of one that
found no checker (R516, R517). -/
def sampleDue (s : State) (ty p : Nat) : Bool :=
  let h := health s ty p
  let n := groupTiles s ty h
  proofType ty && !proofOff s ty && (h.owed || decide (h.tiles = Config.proofPosition ty p h.groups n % n))

/-- A unit's place in its groups after one more tile. -/
def nextTile (h : UHealth) (n : Nat) (sampled : Bool) : UHealth :=
  let h := if n ≤ h.tiles + 1 then { h with tiles := 0, groups := h.groups + 1 } else { h with tiles := h.tiles + 1 }
  { h with owed := h.owed && !sampled, unseen := h.unseen || !sampled }

/-- A spare of a unit's type lent to check for a tenant (R517). -/
def lendChecker (s : State) (ty c tenant : Nat) : State :=
  let s := setUnit s ty c { unitAt s ty c with state := 5 }
  setHealth s ty c { health s ty c with chkTenant := tenant }

/-- A hold is given a free checker, if there is one: one of the unit's own die, else of the lowest-numbered die. -/
def findChecker (s : State) (ty p tenant : Nat) (h : ProofHold) : State × ProofHold :=
  match spareFor s ty p with
  | none => (s, h)
  | some c => (lendChecker s ty c tenant, { h with checker := some c })

/-- A tile of a stage has ended with a result: it counts in its group, and when it is sampled its result is held
for a checker (R516–R518). -/
def tileDone (s : State) (q n : Nat) (h : ProofHold) : State :=
  let g := stage s q n
  if !proofType g.ty then s
  else
    let due := sampleDue s g.ty g.phys
    let u := health s g.ty g.phys
    let s := setHealth s g.ty g.phys (nextTile u (groupTiles s g.ty u) due)
    if !due then s
    else
      let r := findChecker s g.ty g.phys (jobOf s q).tenant { h with time := s.now }
      setStage r.1 q n { stage r.1 q n with hold := some r.2 }

/-- A tile that would be sampled waits while another of its stage is held. -/
def tileWaits (s : State) (g : Stage) : Bool := g.hold.isSome && sampleDue s g.ty g.phys

/-! ### Verdicts -/

/-- The hold of a stage of a job that runs or stops. -/
def holdOf (s : State) (q n : Nat) : Option ProofHold :=
  if working s && (decide ((seam s q).state = 3) || decide ((seam s q).state = 5)) then (stage s q n).hold else none

/-- A held tile found no checker: its result is used, and the unit's next tile is sampled in its place (R517). -/
def skipSample (s : State) (q n : Nat) (h : ProofHold) : State :=
  let g := stage s q n
  let s := phCount s 5 1
  let s := setHealth s g.ty g.phys { health s g.ty g.phys with owed := true, unseen := true }
  match h.lace with
  | none => setStage s q n { g with hold := none }
  | some l =>
    let s := dropRef (setStage s q n (nextBlock { g with hold := none })) g.buf
    setSeam s q (lacePut (seam s q) l h.bytes)

/-- PROOF_CHECKER_WAIT (R517): a spare that has come free checks the held tile; after 256 cycles without one, the
sample is skipped and the next tile sampled in its place. -/
def execProofCheckerWait (q : Nat) (n : Nat) (s : State) : Host.Outcome State Fault Refusal :=
  .next (match holdOf s q n with
    | none => s
    | some h =>
      let g := stage s q n
      if h.checker.isSome then s
      else
        let r := findChecker s g.ty g.phys (jobOf s q).tenant h
        if r.2.checker.isSome then setStage r.1 q n { stage r.1 q n with hold := some r.2 }
        else if h.time + 147 ≤ s.now then skipSample s q n h
        else s)

/-- m and l of a row as a tile shows them. -/
def rowTile (m l : Nat) : Tile := tileOf 32 [m, l]

/-- A row state that a tile shows. -/
def tileRow (t : Tile) : Nat × Nat := (tileFld t 0 32, tileFld t 32 32)

/-- A tile's result used and its hold ended (R518, R519). -/
def releaseHold (s : State) (q n : Nat) (h : ProofHold) (tiles : List Tile) (bytes : Bytes) : State :=
  let g := stage s q n
  let g' := (h.rds.zip tiles).foldl (fun g x => tPut g x.1 x.2) { g with hold := none }
  let g' := match h.row with
    | none => g'
    | some r => { g' with rows := tput (0xFF800000, 0) g'.rows r (tileRow (tiles.getD h.rds.length {})) }
  match h.lace with
  | none => setStage s q n g'
  | some l =>
    let s := dropRef (setStage s q n (nextBlock g')) g.buf
    setSeam s q (lacePut (seam s q) l bytes)

/-- The checker's result was equal: checker and tile are released. -/
def agreed (s : State) (q n : Nat) (h : ProofHold) : State :=
  let g := stage s q n
  let s := freeChecker s g.ty h.checker
  let s := setHealth s g.ty g.phys { health s g.ty g.phys with unseen := false }
  releaseHold s q n h h.tiles h.bytes

/-- PROOF_VERDICT (R518, R519): the checker's result releases the tile, or differs and a repeat starts. -/
def execProofVerdict (q : Nat) (n : Nat) (res : ProofRes) (s : State) : Host.Outcome State Fault Refusal :=
  .next (match holdOf s q n with
    | none => s
    | some h =>
      let g := stage s q n
      if h.checker.isNone || h.differs then s
      else
        let s := phCount s 3 1
        if res.tiles = h.tiles ∧ res.bytes = h.bytes then agreed s q n h
        else setStage s q n { g with hold := some { h with differs := true, chkTiles := res.tiles, chkBytes := res.bytes } })

/-- Temperature bin (R521). -/
def tempBin (tj : Nat) : Nat := if tj < 40 then 0 else if 100 ≤ tj then 7 else (tj - 30) / 10

/-- Load class of a unit at a tile (R521). -/
def loadClass (s : State) (ty p time : Nat) (cond : ProofCond) : Nat :=
  if cond.droop then 3 else if time < (unitAt s ty p).awakeAt + 10000 then 0 else if cond.busy then 2 else 1

/-- 24 h in ns. -/
def dayNs : Nat := 86400000000000

/-- A charged mismatch (R521–R523): the bin counts it, the unit goes under escalation, the record is written, and
the third in one bin within 24 h retires the unit. -/
def chargeUnit (s : State) (q ty p time : Nat) (checker : Bool) (cond : ProofCond) : State :=
  let h := health s ty p
  let t := tempBin (die s (unitDie ty p)).tj
  let c := loadClass s ty p time cond
  let l := (tget [] h.bins (4 * t + c)).filter (fun x => decide (s.now < x + dayNs)) ++ [s.now]
  let j := jobOf s q
  let out := decide (3 ≤ l.length)
  let w2 := place 0 3 ty + place 8 8 p + place 16 8 (unitAt s ty p).logical + place 24 2 (unitDie ty p) + place 40 3 t + place 48 2 c
    + place 56 2 (min 3 l.length) + place 60 2 (if checker then 2 else if out then 1 else 0)
  let s := phCount (setHealth s ty p { h with bins := tput [] h.bins (4 * t + c) l, escal := true, lastMis := s.now }) 4 1
  let s := faultRecord s (seam s q).part 5 [w64 w2, w64 j.seq, w64 (place 48 16 j.tenant + place 0 10 j.ctx), w64 time]
  if !out then s
  else if checker then
    phCount (setHealth (setUnit s ty p { unitAt s ty p with state := 4, holds := none }) ty p { health s ty p with retired := true, escal := false }) 7 1
  else retireUnit s ty p

/-- The job restarts without a suspect unit (R520). -/
def restartWithout (s : State) (q ty p : Nat) (barred : Bool) : State :=
  let j := jobOf s q
  let j := if barred then { j with barred := j.barred ++ [unitKey ty p], proofRerun := j.proofRerun || j.sent } else j
  ctxLeft (rerunJob s q j) j.ctx

/-- The unit's mismatch makes its job restart (R520, R522): the job has run unsampled tiles on it, or it retires. -/
def mustRestart (s : State) (ty p : Nat) (cond : ProofCond) (time : Nat) : Bool :=
  let h := health s ty p
  h.unseen || decide (2 ≤ ((tget [] h.bins (4 * tempBin (die s (unitDie ty p)).tj + loadClass s ty p time cond)).filter
    fun x => decide (s.now < x + dayNs)).length)

/-- A repeat's verdict is carried out: whoever differs from it is charged, and the job restarts or the tile is released. -/
def repeatOver (s : State) (q n : Nat) (h : ProofHold) (c : Nat) (asUnit asChk again : Bool) (cond : ProofCond) : State :=
  let g := stage s q n
  let s := freeChecker s g.ty (some c)
  let s := if asChk then s else chargeUnit s q g.ty c h.time true cond
  let s := if asUnit then s else chargeUnit s q g.ty g.phys h.time false cond
  if again then restartWithout s q g.ty g.phys (asChk || (health s g.ty g.phys).unseen)
  else if asUnit then releaseHold s q n h h.tiles h.bytes
  else releaseHold s q n h h.chkTiles h.chkBytes

/-- PROOF_REPEAT_VERDICT (R519–R523): the repeat decides which result is used and who is charged. A job that
restarts first waits for its writes; the event is then presented again. -/
def execProofRepeatVerdict (q : Nat) (n : Nat) (res : ProofRes) (cond : ProofCond) (s : State) : Host.Outcome State Fault Refusal :=
  .next (match holdOf s q n with
    | none => s
    | some h =>
      let g := stage s q n
      match h.checker with
      | none => s
      | some c =>
        if !h.differs then s
        else
          let asUnit := decide (res.tiles = h.tiles ∧ res.bytes = h.bytes)
          let asChk := decide (res.tiles = h.chkTiles ∧ res.bytes = h.chkBytes)
          let again := (asChk && mustRestart s g.ty g.phys cond h.time) || (!asChk && !asUnit)
          if again && seamBusy s q then setSeam s q { seam s q with state := 5, wait := 0 }
          else repeatOver s q n h c asUnit asChk again cond)

/-- ESCALATION_END (R522): 24 h without a charged mismatch. -/
def execEscalationEnd (ty : Nat) (p : Nat) (s : State) : Host.Outcome State Fault Refusal :=
  .next (let h := health s ty p
    if mainUp s && h.escal && decide (h.lastMis + dayNs ≤ s.now) then setHealth s ty p { h with escal := false } else s)

/-- PROOF_BIN_LAPSE (R522): counts older than 24 h leave a bin. -/
def execProofBinLapse (ty : Nat) (p : Nat) (bin : Nat) (s : State) : Host.Outcome State Fault Refusal :=
  .next (let h := health s ty p
    if mainUp s && decide (bin < 32) then
      setHealth s ty p { h with bins := tput [] h.bins bin ((tget [] h.bins bin).filter fun x => decide (s.now < x + dayNs)) }
    else s)

end Sys2Proof.Machine
end

