-- ==== Sys2Proof/Machine/StageMath.lean ====
section
/-! DEFINITION. Tile arithmetic of stages: MMA, DOT, SCALE, QUANT, DEQUANT (R234–R238), SMAX, EXP and LSEMERGE
(R239–R242), and the TILE form of RED (R247). -/

namespace Sys2Proof.Machine

/-! ### Tiles -/

/-- Rows of a tile of a type (*Tile shapes*). -/
def tileRows (ty : Nat) : Nat := if ty = 0 ∨ ty = 0xD then 16 else 32
/-- Columns of a tile of a type. -/
def tileCols (ty : Nat) : Nat := elemCount ty / tileRows ty

/-- The first elements of `k` bits of a tile replaced; the others keep their values. -/
def tileSet (k : Nat) (old : Tile) (l : List Nat) : Tile :=
  { old with data := BitVec.ofNat 8192 (putFld old.data.toNat 0 (k * l.length) (packBits k l)) }

/-- Elements over a run of FP32 or INT32 tiles from a register, 256 to each (R215). -/
def runTiles (g : Stage) (rd m : Nat) (l : List Nat) : List Tile :=
  (List.range m).map fun j => tileSet 32 (tGet g (rd + j)) ((l.drop (256 * j)).take 256)

/-- Elements of a run of FP32 or INT32 tiles in flat order (R215). -/
def runElems (g : Stage) (rs m : Nat) : List Nat := (List.range m).flatMap fun j => tileElems (tGet g (rs + j)) 32

/-- What a tile instruction comes to: its destination registers with their tiles, its flags, and an S unit's row. -/
structure TileOut where
  rds   : List Nat := []
  tiles : List Tile := []
  flags : Nat := 0
  row   : Option (Nat × Nat × Nat) := none
  /-- Free values drawn. -/
  draws : Nat := 0
deriving DecidableEq, Repr

/-- The default row state of an S unit, (−∞, 0) (R240). -/
def row0 : Nat × Nat := (0xFF800000, 0)

/-- A tile instruction's results written (R214). -/
def writeTiles (g : Stage) (o : TileOut) : Stage :=
  let g := (o.rds.zip o.tiles).foldl (fun g x => tPut g x.1 x.2) (stageFlags g o.flags)
  match o.row with
  | none => g
  | some r => { g with rows := tput row0 g.rows r.1 r.2 }

/-- What Proof holds of a result (R517). -/
def holdTiles (o : TileOut) : ProofHold :=
  { rds := o.rds, row := o.row.map (·.1), tiles := o.tiles ++ (match o.row with | none => [] | some r => [rowTile r.2.1 r.2.2]) }

/-- A tile instruction: it writes its results, which Proof may hold. -/
def tileStep (s : State) (q n opc : Nat) (sel : Ins → Bool) (f : Stage → Ins → TileOut) : State :=
  runStage s q n opc sel fun s g i =>
    if tileWaits s g then s
    else
      let o := f g i
      let s := { s with freeCtr := s.freeCtr + o.draws }
      tileDone (setStage s q n (stageNext (writeTiles g o))) q n (holdTiles o)

/-- Registers of a run. -/
def regsFrom (rd m : Nat) : List Nat := (List.range m).map fun j => rd % 32 + j

/-- Every instruction of the opcode. -/
def anyForm : Ins → Bool := fun _ => true

/-! ### Sums -/

/-- A NaN that comes from no NaN sets IV (R131). -/
def nanFlag (v : FVal) (ins : List FVal) : Nat := if v.isNan && !ins.any FVal.isNan then fIV else 0

/-- The exact sum of products, rounded once to FP32 (R139). -/
def dotExact (a b : List FVal) : Res Nat :=
  let v := FVal.sum (List.zipWith FVal.mul a b)
  let r := toF32 v
  ⟨r.v, r.f ||| nanFlag v (a ++ b)⟩

/-- The sum of products as INT32 with saturation (R139). -/
def dotInt (a b : List FVal) : Res Nat := roundFix 32 0 0 (FVal.sum (List.zipWith FVal.mul a b))

/-- A list of sums as an FP32 chain: from its first term, in order (R140). -/
def sumChain (l : List Nat) : Res Nat := match l with
  | [] => ⟨0, 0⟩
  | x :: t => t.foldl (fun (r : Res Nat) y => r.bind fun v => fadd v y) ⟨x, 0⟩

/-- FP32 patterns of values. -/
def f32s (l : List FVal) : Res (List Nat) := resMap toF32 l

/-- The sum of products by FP32 operations in ascending order (R140, R235). -/
def dotChain (a b : List FVal) : Res Nat :=
  (inputs a).bind fun x => (inputs b).bind fun y => (resMap (fun (p : Nat × Nat) => fmul p.1 p.2) (x.zip y)).bind sumChain
where
  /-- Operands as FP32; a subnormal operand is no subnormal result (R131). -/
  inputs (l : List FVal) : Res (List Nat) := let r := f32s l; ⟨r.v, r.f % fUF⟩

/-- Products and sums of integers, each operation saturating at INT32 (R136). -/
def dotIntChain (a b : List FVal) : Res Nat :=
  (resMap (fun (p : FVal × FVal) => roundFix 32 0 0 (p.1.mul p.2)) (a.zip b)).bind fun l => match l with
    | [] => ⟨0, 0⟩
    | x :: t => t.foldl (fun (r : Res Nat) y => r.bind fun v => iadd v y) ⟨x, 0⟩

/-- Types with INT32 results. -/
def intSum (ty : Nat) : Bool := decide (ty = 0xB ∨ ty = 0xC)

/-- Row `r` of a list of elements by columns. -/
def rowOf {α : Type} (c r : Nat) (l : List α) : List α := (l.drop (c * r)).take c

/-- Column `c` of a list of elements with `w` columns. -/
def colOf {α : Type} (w c : Nat) (l : List α) : List α := (List.range (l.length / w)).filterMap fun r => l[r * w + c]?

/-! ### MMA, DOT, SCALE -/

/-- MMA (R234, R139): 1,024 sums over K of A's row and Bᵀ's row, added to the accumulator. -/
def mmaOut (g : Stage) (i : Ins) : TileOut :=
  let rd := i.f 41 7
  let ty := i.f 23 4
  let w := tileCols ty
  let a := tileVals ty (tGet g (i.f 34 7))
  let b := tileVals ty (tGet g (i.f 27 7))
  let acc := if i.f 0 1 = 1 then List.replicate 1024 0 else runElems g rd 4
  let one := fun (e : Nat × Nat) =>
    let x := rowOf w (e.2 / 32) a
    let y := rowOf w (e.2 % 32) b
    if intSum ty then (dotInt x y).bind fun v => iadd e.1 v else (dotExact x y).bind fun v => fadd e.1 v
  let r := resMap one acc.zipIdx
  { rds := regsFrom rd 4, tiles := runTiles g rd 4 r.v, flags := r.f }

/-- MMA (R234). -/
def execMma (q : Nat) (n : Nat) (s : State) : Host.Outcome State Fault Refusal :=
  .next (tileStep s q n 0x30 anyForm mmaOut)

/-- DOT (R235): by the exact sums of an M unit or the FP32 operations of a V unit. -/
def dotOut (g : Stage) (i : Ins) : TileOut :=
  let rd := i.f 41 7
  let ty := i.f 23 4
  let w := tileCols ty
  let a := tileVals ty (tGet g (i.f 34 7))
  let b := tileVals ty (tGet g (i.f 27 7))
  let rows := decide (i.f 2 1 = 0)
  let line := fun (l : List FVal) (k : Nat) => if rows then rowOf w k l else colOf w k l
  let one := fun (k : Nat) =>
    let x := line a k
    let y := line b (if i.f 1 1 = 1 then 0 else k)
    let v := if intSum ty then (if g.ty = 1 then dotInt x y else dotIntChain x y)
      else if g.ty = 1 then dotExact x y else dotChain x y
    if i.f 0 1 = 0 then v
    else v.bind fun v => (if intSum ty then iadd else fadd) (tileFld (tGet g rd) (32 * k) 32) v
  let r := resMap one (List.range (if rows then tileRows ty else w))
  { rds := regsFrom rd 1, tiles := [tileSet 32 (tGet g rd) r.v], flags := r.f }

/-- DOT (R235). -/
def execDot (q : Nat) (n : Nat) (s : State) : Host.Outcome State Fault Refusal :=
  .next (tileStep s q n 0x31 anyForm dotOut)

/-- 1/x in FP32 (R236): the reciprocal of a zero sets OF. -/
def recip32 (x : Nat) : Res Nat :=
  let r := fdiv 0x3F800000 x
  ⟨r.v, r.f ||| (if x % 2 ^ 31 = 0 then fOF else 0)⟩

/-- SCALE (R236). -/
def scaleOut (g : Stage) (i : Ins) : TileOut :=
  let rd := i.f 41 7
  let ty := i.f 23 4
  let w := tileCols ty
  let m := runOf ty
  let a := (tileVals ty (tGet g (i.f 34 7))).map fun v => (toF32 v).v
  let add := runElems g (i.f 27 7) m
  let src := tileElems (tGet g (i.x 32 4)) 32
  let one := fun (e : Nat × Nat) =>
    let x := match i.f 0 2 with
      | 0 => i.x 0 32
      | 1 => src.getD (e.2 / w) 0
      | _ => src.getD (e.2 % w) 0
    (if i.f 3 1 = 1 then recip32 x else ⟨x, 0⟩).bind fun x => (fmul x e.1).bind fun p =>
      if i.f 2 1 = 1 then fadd p (add.getD e.2 0) else ⟨p, 0⟩
  let r := resMap one a.zipIdx
  { rds := regsFrom rd m, tiles := runTiles g rd m r.v, flags := r.f }

/-- SCALE (R236). -/
def execScale (q : Nat) (n : Nat) (s : State) : Host.Outcome State Fault Refusal :=
  .next (tileStep s q n 0x32 anyForm scaleOut)

/-! ### QUANT, DEQUANT -/

/-- emax of an MX element type (R138). -/
def mxEmax (ty : Nat) : Int := match ty with
  | 5 => 8
  | 6 => 15
  | 7 => 4
  | 0xA => 0
  | _ => 2

/-- floor(log2) of the largest magnitude of a block: none when all are zero, and beyond every range for an
infinity. -/
def blockLog (l : List FVal) : Option Int := l.foldl (fun b v => match v with
  | .nan => b
  | .inf _ => some 1024
  | .fin _ m e => if m = 0 then b else
      let k : Int := m.log2 + e
      match b with
      | none => some k
      | some b => some (max b k)) none

/-- A block of 32 values as MX elements with their scale byte (R136, R138). -/
def quantBlock (ty rc : Nat) (l : List FVal) : Res (List Nat × Nat) :=
  if l.any FVal.isNan then ⟨((resMap (elemRound ty rc) (l.map fun _ => FVal.nan)).v, 0xFF), 0⟩
  else match blockLog l with
    | none => (resMap (elemRound ty rc) l).bind fun es => ⟨(es, 0), 0⟩
    | some k =>
      let e := max (-127) (min 127 (k - mxEmax ty))
      let d := l.map fun v => match v with
        | .fin a m x => FVal.fin a m (x - e)
        | v => v
      (resMap (elemRound ty rc) d).bind fun es => ⟨(es, (e + 127).toNat), 0⟩

/-- QUANT (R237, R135, R136, R138). -/
def quantOut (g : Stage) (i : Ins) : TileOut :=
  let rd := i.f 41 7
  let ty := i.f 23 4
  let rc := i.f 0 2
  let src := (runElems g (i.f 34 7) (runOf ty)).map fun x => if i.f 2 1 = 1 then elemVal 0xD x else f32 x
  let old := tGet g rd
  if isMX ty then
    let r := resMap (fun b => quantBlock ty rc (rowOf 32 b src)) (List.range (elemCount ty / 32))
    let t := tileSet (tileBits ty) old (r.v.flatMap (·.1))
    { rds := regsFrom rd 1, tiles := [{ t with scale := BitVec.ofNat 512 (putFld old.scale.toNat 0 (8 * scaleBytes ty) (packBits 8 (r.v.map (·.2)))) }], flags := r.f }
  else
    let r := resMap (elemRound ty rc) src
    { rds := regsFrom rd 1, tiles := [tileSet (tileBits ty) old r.v], flags := r.f }

/-- QUANT (R237). -/
def execQuant (q : Nat) (n : Nat) (s : State) : Host.Outcome State Fault Refusal :=
  .next (tileStep s q n 0x33 anyForm quantOut)

/-- DEQUANT (R238). -/
def dequantOut (g : Stage) (i : Ins) : TileOut :=
  let rd := i.f 41 7
  let ty := i.f 23 4
  let r := resMap toF32 (tileVals ty (tGet g (i.f 34 7)))
  { rds := regsFrom rd (runOf ty), tiles := runTiles g rd (runOf ty) r.v, flags := r.f }

/-- DEQUANT (R238). -/
def execDequant (q : Nat) (n : Nat) (s : State) : Host.Outcome State Fault Refusal :=
  .next (tileStep s q n 0x34 anyForm dequantOut)

/-! ### SMAX, EXP, LSEMERGE -/

/-- SMAX of an operation. -/
def smaxForm (op : Nat) (i : Ins) : Bool := decide (i.f 8 2 = op)

/-- A row's state. -/
def rowState (g : Stage) (i : Ins) : Nat × Nat := tget row0 g.rows (i.f 0 8)

/-- SMAX RESET (R239). -/
def execSmaxReset (q : Nat) (n : Nat) (s : State) : Host.Outcome State Fault Refusal :=
  .next (tileStep s q n 0x40 (smaxForm 0) fun _ i => { row := some (i.f 0 8, row0) })

/-- exp(x − y), 0 when x is −∞ (R143, R239). -/
def expDiff (x y : Nat) : Res Nat := if x = 0xFF800000 then ⟨0, 0⟩ else (fsub x y).bind (fexp 3)

/-- SMAX BLOCK (R239, R143). -/
def smaxOut (g : Stage) (i : Ins) : TileOut :=
  let rd := i.f 41 7
  let ty := i.f 23 4
  let sc := (tileElems (tGet g (i.f 34 7)) 32).take (i.f 10 8 + 1)
  let st := rowState g i
  let m := sc.foldl fmax st.1
  let r := (expDiff st.1 m).bind fun c => (resMap (fun x => expDiff x m) sc).bind fun p =>
    (sumChain p).bind fun sum => (fmul st.2 c).bind fun lc => (fadd lc sum).bind fun l =>
      (if ty = 0 then ⟨p, 0⟩ else resMap (fun x => elemRound 1 0 (f32 x)) p).bind fun p => ⟨(c, p, l), 0⟩
  let (c, p, l) := r.v
  { rds := regsFrom rd 2
    tiles := [{ tGet g rd with data := (tileOf (tileBits ty) p).data }, tileSet 32 (tGet g (rd + 1)) [c]]
    flags := r.f, row := some (i.f 0 8, m, l) }

/-- SMAX BLOCK (R239). -/
def execSmaxBlock (q : Nat) (n : Nat) (s : State) : Host.Outcome State Fault Refusal :=
  .next (tileStep s q n 0x40 (smaxForm 1) smaxOut)

/-- SMAX END (R239). -/
def execSmaxEnd (q : Nat) (n : Nat) (s : State) : Host.Outcome State Fault Refusal :=
  .next (tileStep s q n 0x40 (smaxForm 2) fun g i =>
    { rds := regsFrom (i.f 41 7) 1, tiles := [tileSet 32 (tGet g (i.f 41 7)) [(rowState g i).1, (rowState g i).2]] })

/-- EXP (R241). -/
def expOut (g : Stage) (i : Ins) : TileOut :=
  let rd := i.f 41 7
  let ty := i.f 23 4
  let x := if i.f 0 1 = 1 then tileFld (tGet g (i.f 27 7)) 0 32 else 0
  let r := (resMap (fun a => (fsub a x).bind (fexp 3)) (tileElems (tGet g (i.f 34 7)) 32)).bind fun l =>
    if ty = 0 then ⟨l, 0⟩ else resMap (fun v => elemRound 1 0 (f32 v)) l
  { rds := regsFrom rd 1, tiles := [tileSet (tileBits ty) (tGet g rd) r.v], flags := r.f }

/-- EXP (R241). -/
def execExp (q : Nat) (n : Nat) (s : State) : Host.Outcome State Fault Refusal :=
  .next (tileStep s q n 0x41 anyForm expOut)

/-- The triple a tile holds (R242). -/
def tileTriple (t : Tile) : Lse :=
  { m := tileFld t 0 32, l := tileFld t 32 32, o := (List.range 64).map fun k => tileFld t (32 * (64 + k)) 32 }

/-- LSEMERGE (R242, R144). -/
def lseOut (g : Stage) (i : Ins) : TileOut :=
  let rd := i.f 41 7
  let src := tGet g (i.f 34 7)
  let old := tGet g rd
  let r := lseMerge 2 (tileTriple old) (if i.f 0 1 = 1 then lseOfBytes (tileBytes src) else tileTriple src)
  let es := tileElems old 32
  let new := tileSet 32 old ([r.v.m, r.v.l] ++ (es.drop 2).take 62 ++ r.v.o)
  if i.f 1 1 = 1 then
    let b := bytesOfLse r.v
    { rds := regsFrom rd 2, tiles := [new, tileSet 8 (tGet g (rd + 1)) (b.v.map (·.toNat))], flags := r.f ||| b.f }
  else { rds := regsFrom rd 1, tiles := [new], flags := r.f }

/-- LSEMERGE (R242). -/
def execLsemerge (q : Nat) (n : Nat) (s : State) : Host.Outcome State Fault Refusal :=
  .next (tileStep s q n 0x42 anyForm lseOut)

/-! ### RED TILE -/

/-- Pairs of a tile: s at flat element 2i and r at 2i + 1 (R247). -/
def tilePairs (t : Tile) : List (Nat × Nat) := (List.range 128).map fun k => (tileFld t (64 * k) 32, tileFld t (64 * k + 32) 32)

/-- RED TILE (R247, R140, R141, R155). -/
def redOut (g : Stage) (i : Ins) : TileOut :=
  let rd := i.f 41 7
  let ty := i.f 23 4
  let op := i.f 1 3
  let src := tGet g (i.f 34 7)
  let xs := if ty = 0xD ∧ op ≠ 1 then tileElems src 32 else ((tileVals ty src).take 256).map fun v => (toF32 v).v
  if op = 1 then
    let ys := if i.f 4 1 = 1 then tilePairs src else (xs.take 128).map fun x => (x, 0)
    let r := resMap (fun (p : (Nat × Nat) × (Nat × Nat)) => addPair p.1 p.2) ((tilePairs (tGet g rd)).zip ys)
    { rds := regsFrom rd 1, tiles := [tileSet 32 (tGet g rd) (r.v.flatMap fun p => [p.1, p.2])], flags := r.f }
  else
    let one : Nat × Nat → Res Nat := fun p =>
      if op = 0 then (if ty = 0xD then iadd p.1 p.2 else fadd p.1 p.2)
      else if op = 3 then ⟨if ty = 0xD then imax p.1 p.2 else fmax p.1 p.2, 0⟩
      else ⟨if ty = 0xD then imin p.1 p.2 else fmin p.1 p.2, 0⟩
    let r := resMap one ((tileElems (tGet g rd) 32).zip xs)
    { rds := regsFrom rd 1, tiles := [tileSet 32 (tGet g rd) r.v], flags := r.f }

/-- RED TILE (R247). -/
def execRedTile (q : Nat) (n : Nat) (s : State) : Host.Outcome State Fault Refusal :=
  .next (tileStep s q n 0x60 (fun i => decide (i.f 0 1 = 0)) redOut)

end Sys2Proof.Machine
end

