-- ==== Sys2Proof/Machine/Graver.lean ====
section
/-! DEFINITION. The Graver codec (chapter *Graver Codec*): codable types (R183), block and stub layouts
(R185–R188), table records (R189, R190), canonical codes (R191), building a table (R194, R195), and the coding and
decoding of a block. -/

namespace Sys2Proof.Machine

/-! ### Codable types -/

/-- Exponent coding, in place of value coding. -/
def gvExp (ty : Nat) : Bool := decide (ty ≤ 2)
/-- Values of a raw block. -/
def gvValues (ty : Nat) : Nat := if ty = 0 then 1024 else if ty ≤ 2 then 2048 else if ty = 9 ∨ ty = 0xC then 8192 else 4096
/-- Bits of a value in a raw block. -/
def gvBits (ty : Nat) : Nat := if ty = 0 then 32 else if ty ≤ 2 then 16 else if ty = 9 ∨ ty = 0xC then 4 else 8
/-- Symbols of the alphabet. -/
def gvAlphabet (ty : Nat) : Nat := if ty = 2 then 32 else if ty = 9 ∨ ty = 0xC then 16 else 256
/-- Bits of a residue. -/
def gvResBits (ty : Nat) : Nat := if ty = 0 then 24 else if ty = 1 then 8 else if ty = 2 then 11 else 0
/-- Bytes of the residue area. -/
def gvResBytes (ty : Nat) : Nat := gvValues ty * gvResBits ty / 8
/-- Bits of the mantissa below the exponent field. -/
def gvMant (ty : Nat) : Nat := if ty = 0 then 23 else if ty = 1 then 7 else 10

/-- The symbol of a value. -/
def gvSymbol (ty v : Nat) : Nat := if gvExp ty then v / 2 ^ gvMant ty % gvAlphabet ty else v
/-- The residue of a value: mantissa, with the sign above it. -/
def gvResidue (ty v : Nat) : Nat := v % 2 ^ gvMant ty + v / 2 ^ (gvBits ty - 1) * 2 ^ gvMant ty
/-- A value from its symbol and residue. -/
def gvJoin (ty sym res : Nat) : Nat :=
  if gvExp ty then res % 2 ^ gvMant ty + sym * 2 ^ gvMant ty + res / 2 ^ gvMant ty * 2 ^ (gvBits ty - 1) else sym

/-- The values of a raw block, in memory order. -/
def gvUnpack (ty : Nat) (b : Bytes) : List Nat :=
  if gvBits ty = 4 then b.flatMap fun x => [x.toNat % 16, x.toNat / 16] else elemsLE (gvBits ty / 8) (b.length / (gvBits ty / 8)) b

/-! ### Tables -/

/-- Length of a symbol in a record. -/
def recLenOf (r : Bytes) (sym : Nat) : Nat := fldN (leAt r (sym / 2) 1) (4 * (sym % 2)) 4
/-- TYPE of a record. -/
def recType (r : Bytes) : Nat := leAt r 131 1
/-- Lengths of a record's alphabet. -/
def recLens (r : Bytes) : List Nat := (List.range (gvAlphabet (recType r))).map (recLenOf r)

/-- The first check a record breaks, as its reason code (R190, *GV reason codes*). -/
def recReason (r : Bytes) : Nat :=
  let ty := recType r
  let all := (List.range 256).map (recLenOf r)
  let used := all.filter (· ≠ 0)
  if leAt r 128 2 ≠ 0x4756 ∨ leAt r 144 16 ≠ 0 then 0x0401
  else if codable ty = false ∨ leAt r 130 1 ≠ b2n (!gvExp ty) then 0x0402
  else if all.any (fun l => decide (11 < l)) = true ∨ (all.drop (gvAlphabet ty)).any (fun l => decide (l ≠ 0)) = true ∨ used.length < 2 then 0x0403
  else if (used.foldl (fun (n : Nat) l => n + 2 ^ (11 - l)) 0) ≠ 2048 then 0x0404
  else 0

/-- The table digest (R189). -/
def recDigest (r : Bytes) : Bytes := sm3 (r.take 132)
/-- TCHK of a table. -/
def recChk (r : Bytes) : Nat := leAt (recDigest r) 0 2

/-- A code: its symbol, its bits and its length. -/
structure Code where
  sym : Nat := 0
  code : Nat := 0
  len : Nat := 0
deriving DecidableEq, Repr

/-- Canonical codes of the lengths of one size and above (R191). -/
def codesFrom (lens : List Nat) : Nat → Nat → Nat → List Code
  | 0, _, _ => []
  | fuel + 1, l, code =>
    let first := code * 2
    let syms := (lens.zipIdx.filter fun x => decide (x.1 = l)).map (·.2)
    (syms.zipIdx.map fun x => { sym := x.1, code := first + x.2, len := l }) ++ codesFrom lens fuel (l + 1) (first + syms.length)

/-- Canonical codes of a table (R191). -/
def canonCodes (lens : List Nat) : List Code := codesFrom lens 11 1 0

/-! ### Lanes -/

/-- Bits of a byte string, from bit 0 of each byte upward (R187). -/
def laneBits (b : Bytes) : List Bool := b.flatMap fun x => (List.range 8).map fun i => x.getLsbD i

/-- Bits of a code, most significant first. -/
def codeBits (c : Code) : List Bool := (List.range c.len).map fun i => c.code.testBit (c.len - 1 - i)

/-- The value of bits, most significant first. -/
def bitsVal (l : List Bool) : Nat := l.foldl (fun n b => 2 * n + b2n b) 0

/-- One symbol read from a lane, with the bits left. -/
def readCode (codes : List Code) : Nat → Nat → Nat → List Bool → Option (Nat × List Bool)
  | 0, _, _, _ => none
  | _, _, _, [] => none
  | fuel + 1, l, v, b :: t =>
    let v := 2 * v + b2n b
    match codes.find? fun c => decide (c.len = l + 1) && decide (c.code = v) with
    | some c => some (c.sym, t)
    | none => readCode codes fuel (l + 1) v t

/-- `n` symbols of a lane; fewer than 8 zero bits stay as padding (R193 step 5). -/
def readLane (codes : List Code) : Nat → List Bool → Option (List Nat)
  | 0, bs => if bs.length < 8 ∧ bs.all (fun b => !b) = true then some [] else none
  | n + 1, bs => match readCode codes 11 0 0 bs with
    | none => none
    | some (x, t) => (readLane codes n t).map (x :: ·)

/-- Bytes of bits, padded with zero bits. -/
def packLane (l : List Bool) : Bytes :=
  let v := (l.zipIdx).foldl (fun n b => n + (if b.1 then 2 ^ b.2 else 0)) 0
  bytesLE (ceilDiv l.length 8) v

/-! ### Blocks -/

/-- KIND of a block or stub. -/
def blkKind (b : Bytes) : Nat := fldN (leAt b 3 1) 0 2
/-- Slot size its header states. -/
def blkSlot (b : Bytes) : Nat := (fldN (leAt b 3 1) 2 6 + 1) * 64
/-- LANE_END of a lane (R185, R186). -/
def laneEnd (b : Bytes) (k : Nat) : Nat := fldN (leAt b 6 26) (13 * k) 13

/-- Lane ends rise from the residue area's end and stay in the slot (R193 step 4). -/
def laneEndsOk (ty : Nat) (b : Bytes) : Bool :=
  let es := (32 + gvResBytes ty) :: (List.range 16).map (laneEnd b)
  (List.zipWith (fun x y => decide (x ≤ y)) es (es.drop 1)).all (fun x => x) && decide (laneEnd b 15 ≤ blkSlot b) && decide (blkSlot b ≤ b.length)

/-- The values of a coded block (R185–R187), none where a lane breaks step 5. -/
def decodeBlock (ty : Nat) (lens : List Nat) (b : Bytes) : Option (List Nat) :=
  let codes := canonCodes lens
  let per := gvValues ty / 16
  let lane := fun (k : Nat) =>
    let lo := if k = 0 then 32 + gvResBytes ty else laneEnd b (k - 1)
    readLane codes per (laneBits ((b.drop lo).take (laneEnd b k - lo)))
  ((List.range 16).mapM lane).map fun ls =>
    let area := leAt b 32 (gvResBytes ty)
    (List.range (gvValues ty)).map fun k =>
      gvJoin ty ((ls.getD (k % 16) []).getD (k / 16) 0) (fldN area (k * gvResBits ty) (gvResBits ty))

/-- A symbol's code. -/
def codeOf (codes : List Code) (sym : Nat) : Option Code := codes.find? fun c => decide (c.sym = sym)

/-- Lane streams of a raw block's values, none where a symbol has no code. -/
def encodeLanes (ty : Nat) (lens : List Nat) (vs : List Nat) : Option (List Bytes) :=
  let codes := canonCodes lens
  (List.range 16).mapM fun k =>
    let mine := (List.range (gvValues ty / 16)).map fun i => vs.getD (16 * i + k) 0
    (mine.mapM fun v => codeOf codes (gvSymbol ty v)).map fun cs => packLane (cs.flatMap codeBits)

/-- Header bytes 0–5 of a block or stub. -/
def blkHead (id gen slot kind chk : Nat) : Bytes := bytesLE 2 id ++ bytesLE 1 gen ++ bytesLE 1 ((slot / 64 - 1) * 4 + kind) ++ bytesLE 2 chk

/-- A raw block coded to a slot record, none where it spills (R188, R197). -/
def encodeBlock (ty id gen slot : Nat) (rec_ : Bytes) (vs : List Nat) : Option Bytes :=
  match encodeLanes ty (recLens rec_) vs with
  | none => none
  | some ls =>
    let start := 32 + gvResBytes ty
    let ends := (List.range 16).map fun k => start + ((ls.take (k + 1)).foldl (fun n l => n + l.length) 0)
    let size := ends.getD 15 0
    if slot < size then none
    else
      let le := (ends.zipIdx).foldl (fun n e => n + e.1 * 2 ^ (13 * e.2)) 0
      let res := if gvResBits ty = 0 then [] else bytesLE (gvResBytes ty) (packBits (gvResBits ty) (vs.map (gvResidue ty)))
      some (fitTo slot (blkHead id gen slot 0 (recChk rec_) ++ bytesLE 26 le ++ res ++ ls.flatten))

/-- A stub (R188): its header, TYPE and OFFSET, padded to its slot. -/
def stubRec (ty id gen slot : Nat) (off : Int) : Bytes :=
  fitTo slot ((blkHead id gen slot 1 0).take 4 ++ bytesLE 4 ty ++ bytesLE 8 (wrapInt 64 off) ++ List.replicate 16 0)

/-! ### Building a table -/

/-- Counts of symbols raised by a list of values; a counter that would pass 2^32 − 1 halves every one (R194). -/
def countValues (ty : Nat) (counts : List Nat) (vs : List Nat) : List Nat :=
  vs.foldl (fun c v =>
    let s := gvSymbol ty v
    let c := if 2 ^ 32 ≤ c.getD s 0 + 1 then c.map fun x => (x + 1) / 2 else c
    setAt c s (c.getD s 0 + 1)) counts

/-- A node of the merge: weight, key, and its leaves with their depths. -/
structure HNode where
  w : Nat := 0
  key : Nat := 0
  leaves : List (Nat × Nat) := []
deriving DecidableEq, Repr

/-- The node of least (weight, key). -/
def leastNode : List HNode → HNode → HNode
  | [], b => b
  | x :: t, b => leastNode t (if x.w < b.w ∨ (x.w = b.w ∧ x.key < b.key) then x else b)

/-- The two least nodes taken and merged, until one is left (R194). -/
def mergeNodes : Nat → List HNode → List HNode
  | 0, l => l
  | fuel + 1, l =>
    if l.length ≤ 1 then l
    else
      let a := leastNode (l.drop 1) (l.headD {})
      let l := l.erase a
      let b := leastNode (l.drop 1) (l.headD {})
      let l := l.erase b
      mergeNodes fuel ({ w := a.w + b.w, key := min a.key b.key, leaves := (a.leaves ++ b.leaves).map fun x => (x.1, x.2 + 1) } :: l)

/-- Σ 2^(11 − L) over the used symbols. -/
def kraft (lens : List Nat) : Nat := lens.foldl (fun k l => if l = 0 then k else k + 2 ^ (11 - l)) 0

/-- The best of a list of symbols under an order. -/
def pick (better : Nat → Nat → Bool) : List Nat → Option Nat
  | [] => none
  | x :: t => match pick better t with
    | none => some x
    | some y => some (if better x y then x else y)

/-- The first loop of R194: too many short codes. -/
def lengthen (counts : List Nat) : Nat → List Nat → List Nat
  | 0, lens => lens
  | fuel + 1, lens =>
    if kraft lens ≤ 2048 then lens
    else
      let l := fun s => lens.getD s 0
      let c := fun s => counts.getD s 0
      match pick (fun x y => decide (l y < l x) || (decide (l x = l y) && (decide (c x < c y) || (decide (c x = c y) && decide (y < x)))))
        ((List.range lens.length).filter fun s => decide (0 < l s ∧ l s < 11)) with
      | none => lens
      | some s => lengthen counts fuel (setAt lens s (l s + 1))

/-- The second loop of R194: the code is not complete. -/
def shorten (counts : List Nat) : Nat → List Nat → List Nat
  | 0, lens => lens
  | fuel + 1, lens =>
    let k := kraft lens
    if 2048 ≤ k then lens
    else
      let l := fun s => lens.getD s 0
      let c := fun s => counts.getD s 0
      match pick (fun x y => decide (c y < c x) || (decide (c x = c y) && decide (x < y)))
        ((List.range lens.length).filter fun s => decide (1 < l s) && decide (2 ^ (11 - l s) ≤ 2048 - k)) with
      | none => lens
      | some s => shorten counts fuel (setAt lens s (l s - 1))

/-- The code lengths of counts (R194). -/
def buildLengths (counts : List Nat) : List Nat :=
  let a := counts.length
  let used := (List.range a).filter fun s => decide (counts.getD s 0 ≠ 0)
  let used := match used with
    | [s] => [s, (s + 1) % a]
    | l => l
  let leaves := used.map fun s => ({ w := counts.getD s 0, key := s, leaves := [(s, 0)] } : HNode)
  let tree := (mergeNodes leaves.length leaves).headD {}
  let lens := (List.range a).map fun s => match tree.leaves.find? fun x => decide (x.1 = s) with
    | some x => min 11 x.2
    | none => 0
  shorten counts 4096 (lengthen counts 4096 lens)

/-- The encoded size of a block, with whether a symbol has no code (R188). -/
def encodedSize (ty : Nat) (lens : List Nat) (vs : List Nat) : Nat × Bool :=
  let lane := fun (k : Nat) => ceilDiv (((List.range (gvValues ty / 16)).map fun i => lens.getD (gvSymbol ty (vs.getD (16 * i + k) 0)) 0).foldl (· + ·) 0) 8
  (32 + gvResBytes ty + ((List.range 16).map lane).foldl (· + ·) 0, vs.any fun v => decide (lens.getD (gvSymbol ty v) 0 = 0))

/-- The slot of the sizing sweep (R195). A block is noted as twice its size, plus 1 when it holds a symbol of
length 0. -/
def chooseSlot (share : Nat) (sizes : List Nat) : Nat :=
  let need := ceilDiv (share * sizes.length) 1000
  let fits := fun (s : Nat) => (sizes.filter fun x => decide (x / 2 ≤ s)).length
  (((List.range 64).map fun k => 64 * (k + 1)).find? fun s => decide (need ≤ fits s)).getD 4096

/-- The table record of a BUILDTAB (R189, R195). -/
def tableRecord (ty share : Nat) (lens sizes : List Nat) : Bytes :=
  let slot := chooseSlot share sizes
  let spills := (sizes.filter fun x => decide (x % 2 = 1 ∨ slot < x / 2)).length
  bytesLE 128 (packBits 4 lens) ++ bytesLE 2 0x4756 ++ bytesLE 1 (b2n (!gvExp ty)) ++ bytesLE 1 ty ++ bytesLE 2 slot ++ bytesLE 2 share
    ++ bytesLE 4 sizes.length ++ bytesLE 4 spills ++ List.replicate 16 0

end Sys2Proof.Machine
end

