-- ==== Sys2Proof/Machine/Tables.lean ====
section
/-! DEFINITION. The table store and residency of coding tables: TABLE.LOAD (R202–R208). -/

namespace Sys2Proof.Machine

/-- A table-store entry. -/
def gvStore (s : State) (id : Nat) : GvStore := tget {} s.gv.store id
/-- A table-store entry replaced. -/
def setStore (s : State) (id : Nat) (x : GvStore) : State := { s with gv := { s.gv with store := tput {} s.gv.store id x } }
/-- A resident entry replaced. -/
def setRes (s : State) (r : Nat) (x : GvRes) : State := { s with gv := { s.gv with res := tput {} s.gv.res r x } }
/-- A GV counter raised (*GV counters*). -/
def gvCount (s : State) (i n : Nat) : State := { s with gv := { s.gv with ctr := tmod 0 s.gv.ctr i fun c => satInc c n } }

/-- TABLE_ID of a descriptor. -/
def tabId (d : List W64) : Nat := df d 0 0 16
/-- ACTION of a descriptor. -/
def tabAct (d : List W64) : Nat := df d 0 16 3

/-- A further TABLE.LOAD of the ID is refused: its INSTALL has not completed, or its resident table drains (R207). -/
def tabBusy (s : State) (id : Nat) : Bool := (resOf s id).any fun r => r.2.pend.isSome || r.2.loading || r.2.draining

/-- Masks of a TABLE.LOAD descriptor's fields. -/
def tabMasks : List Nat := [fmask 0 19 + fmask 32 12, fmask 63 1 + fmask 0 60, 0, 0]

/-- Checks common to the actions (R78, R207). -/
def tabChecks (s : State) (q : CtlSeq) (d : List W64) (absent limit : Bool) : Nat :=
  firstFail [
    (!reaches q (df d 0 32 12), 3),
    (tabBusy s (tabId d), 1),
    (decide ((comp s (df d 0 32 12)).state = 0) || absent, 8),
    (reservedSet d tabMasks, 9),
    (decide (4 ≤ tabAct d) || limit, 4)]

/-- The ID is bound to another composition. -/
def tabOther (s : State) (d : List W64) : Bool := (gvStore s (tabId d)).owned && decide ((gvStore s (tabId d)).comp ≠ df d 0 32 12)

/-- A refusal, with its reason in the ID's status word. -/
def tabRefuse (s : State) (id r : Nat) : CtlRes := refuse (setStore s id { gvStore s id with reason := r }) r

/-- A TABLE.LOAD of some actions. -/
def tabRow (s : State) (cs : Nat) (sel : Nat → Bool) (body : State → CtlSeq → List W64 → CtlRes) : State :=
  runCtl s cs 0x90 (fun d => sel (tabAct d)) (fun d => stampKey okTable (tabId d)) (fun _ _ => none) body

/-- TABLE_STORE (R202, R190). -/
def execTableStore (cs : Nat) (status : Nat) (data : Bytes) (s : State) : Host.Outcome State Fault Refusal :=
  .next (tabRow s cs (fun a => decide (a = 0)) fun s q d =>
    let id := tabId d
    let a := df d 1 0 60
    let src := bit (wd d 1) 63
    let rec_ := fetchBytes s (wd d 1) 160 status data
    let r := tabChecks s q d rec_.isNone (decide (a % 64 ≠ 0) || (!src && !pagesInGen s (a / 4096 * 4096) (a % 4096 + 160)))
    let b := rec_.getD []
    let r := if r ≠ 0 then r else if recReason b ≠ 0 then recReason b else if tabOther s d then 0x0405 else 0
    if r ≠ 0 then tabRefuse s id r
    else
      let x := gvStore s id
      { s := setStore s id { x with present := true, record := b, comp := df d 0 32 12, owned := true, enabled := true, reason := 0 },
        obj := some (stampKey okTable id), size := 192 })

/-- The new generation begins to load (R203): OLD retires, NEW becomes OLD. The retired one's digest stays until the new one is
resident. -/
def beginLoad (s : State) (r : Nat) : State :=
  let x := tget {} s.gv.res r
  setRes s r { x with oldLive := decide (x.newGen ≠ 0), oldGen := x.newGen, oldRec := x.newRec, oldRefs := x.newRefs,
                      newGen := 0, newRec := [], newRefs := 0, closing := false, pend := none, loading := true,
                      retired := if x.oldLive then some (x.oldGen, x.oldRec) else none }

/-- A free resident entry. -/
def freeRes (s : State) : Option Nat := (List.range 1024).find? fun r => !(tget {} s.gv.res r).valid

/-- TABLE_INSTALL (R203): loads at once, or waits for OLD's references with CLOSING set. -/
def execTableInstall (cs : Nat) (s : State) : Host.Outcome State Fault Refusal :=
  .next (tabRow s cs (fun a => decide (a = 1)) fun s q d =>
    let id := tabId d
    let r := tabChecks s q d false false
    let r := if r ≠ 0 then r
      else if (resOf s id).isNone ∧ (freeRes s).isNone then 5
      else if tabOther s d then 0x0405
      else if (gvStore s id).present = false then 0x0406 else 0
    if r ≠ 0 then tabRefuse s id r
    else
      let s := setStore s id { gvStore s id with reason := 0 }
      match resOf s id with
      | none =>
        let k := (freeRes s).getD 0
        let s := setStore s id { gvStore s id with res := some k }
        { s := beginLoad (setRes s k { valid := true, table := id, comp := (gvStore s id).comp }) k, wait := .resident k }
      | some (k, x) =>
        if x.oldLive ∧ x.oldRefs ≠ 0 then { s := setRes s k { x with closing := true, pend := some cs, waitT := s.now }, wait := .install k }
        else { s := beginLoad s k, wait := .resident k })

/-- INSTALL_WAIT_END (R203, R204): OLD's references have reached zero. -/
def execInstallWaitEnd (id : Nat) (s : State) : Host.Outcome State Fault Refusal :=
  .next (match resOf s id with
    | none => s
    | some (k, x) => match x.pend with
      | none => s
      | some cs =>
        if working s && decide (x.oldRefs = 0) then
          let s := beginLoad (gvCount s 6 ((s.now - x.waitT) * 7 / 4)) k
          setCtl s cs { ctl s cs with wait := .resident k }
        else s)

/-- The sequencer whose INSTALL loads an entry. -/
def loadWaiter (s : State) (k : Nat) : Option Nat := (List.range 9).find? fun cs => decide ((ctl s cs).wait = .resident k)

/-- The generation number after an ID's last (R203). -/
def nextGen (g : Nat) : Nat := if g = 255 then 1 else g + 1

/-- INSTALL_RESIDENT (R203): the new generation is resident on all dies; its digest is given to the root of trust
and that of the retired one withdrawn. -/
def execInstallResident (id : Nat) (s : State) : Host.Outcome State Fault Refusal :=
  .next (match resOf s id with
    | none => s
    | some (k, x) =>
      if working s && x.loading && !stagingWaits s then
        let t := gvStore s id
        let g := nextGen t.lastGen
        let s' := setStore (setRes s k { x with loading := false, retired := none, newGen := g, newRec := t.record, newRefs := 0 }) id { t with lastGen := g }
        let s' := digestNote s' (3 * 65536 + id) true (recDigest t.record)
        let s' := match x.retired with
          | none => s'
          | some r => digestNote s' (3 * 65536 + id) false (recDigest r.2)
        match loadWaiter s k with
        | none => stateRecord s' 192
        | some cs => ctlComplete s' cs 0 none (some (stampKey okTable id)) 192
      else s)

/-- A table out of residency (R205): its entry drains, and at DELETE its store entry goes with it; one that is not
resident has nothing to drain. -/
def releaseTable (s : State) (id : Nat) (delete : Bool) : State := match resOf s id with
  | some (k, x) => setRes s k { x with draining := true, deleting := delete || x.deleting, pend := none, closing := false, loading := false }
  | none => if delete then setStore s id { lastGen := (gvStore s id).lastGen } else s

/-- RELEASE and DELETE (R202, R205). -/
def tabRelease (s : State) (cs : Nat) (sel : Nat → Bool) (delete : Bool) : State :=
  tabRow s cs sel fun s q d =>
    let id := tabId d
    let r := tabChecks s q d false false
    let r := if r ≠ 0 then r else if tabOther s d then 0x0405 else if (gvStore s id).present = false then 0x0406 else 0
    if r ≠ 0 then tabRefuse s id r
    else { s := releaseTable (setStore s id { gvStore s id with reason := 0 }) id delete, obj := some (stampKey okTable id), size := 192 }

/-- TABLE_RELEASE (R205). -/
def execTableRelease (cs : Nat) (s : State) : Host.Outcome State Fault Refusal :=
  .next (tabRelease s cs (fun a => decide (a = 2)) false)

/-- TABLE_DELETE (R202); an ACTION that is reserved is refused here too (R576). -/
def execTableDelete (cs : Nat) (s : State) : Host.Outcome State Fault Refusal :=
  .next (tabRelease s cs (fun a => decide (3 ≤ a)) true)

/-- Digests of a resident entry's generations that the root of trust holds (R203). -/
def resDigests (x : GvRes) : List Bytes :=
  (if x.newGen ≠ 0 then [recDigest x.newRec] else []) ++ (if x.oldLive then [recDigest x.oldRec] else [])
    ++ match x.retired with
      | none => []
      | some r => [recDigest r.2]

/-- TABLE_DRAIN_END (R205, R202): no references remain; the entry is freed and its digests withdrawn. -/
def execTableDrainEnd (id : Nat) (s : State) : Host.Outcome State Fault Refusal :=
  .next (match resOf s id with
    | none => s
    | some (k, x) =>
      if working s && x.draining && decide (x.newRefs + x.oldRefs = 0) then
        let s := (resDigests x).foldl (fun s d => digestNote s (3 * 65536 + id) false d) (setRes s k {})
        let t := gvStore s id
        stateRecord (setStore s id (if x.deleting then { lastGen := t.lastGen } else { t with res := none })) 192
      else s)

end Sys2Proof.Machine
end

