-- ==== Sys2Proof/Machine/Requests.lean ====
section
/-! DEFINITION. What comes back to the engines: page-table reads, faults and invalidations (R369–R379),
completions, resends and timeouts (R264, R273, R342), suspicion of peers (R530), and messages (R256). -/

namespace Sys2Proof.Machine

/-! ### Engines that waited for a translation -/

/-- An engine goes on. -/
def engGo (s : State) : TrEng → State
  | .stage q n => stageGo s q n
  | .copy e => copyGo s e

/-- An engine's access ends with a status: its stage's job, or its transfer. -/
def engFail (st : Nat) (s : State) : TrEng → State
  | .stage q _ => stopJob s q st
  | .copy e => copyGo (copyFail s e st) e

/-- WALK_READ_DONE (R369): the read of walk `n` has returned. Its data come from this switch's own pool memory
where they stand on the module. -/
def execWalkReadDone (n : Nat) (status : Nat) (data : W64) (s : State) : Host.Outcome State Fault Refusal :=
  .next (if working s && walkRuns s n then
    let r := ownRead s (walkFa (tget {} s.tu.walks n)) 8 status (bytesLE 8 data.toNat)
    match walkRead s n r.1 (w64 (leAt r.2 0 8)) with
    | (s, .goes) => s
    | (s, .wake l) => l.foldl engGo s
    | (s, .fails l st) => l.foldl (engFail st) s
  else s)

/-- Faults held in their engines for a full fault table, in round-robin order (R374). -/
def heldFaults (s : State) : List (Nat × EngFault) :=
  let l := s.tu.eng.filter fun x => decide (x.2.state = 1)
  (l.filter fun x => decide (s.tu.rrEng ≤ x.1)) ++ (l.filter fun x => decide (x.1 < s.tu.rrEng))

/-- FAULT_TABLE_RETRY (R374): the next held fault that can join or open an entry does. -/
def execFaultTableRetry (s : State) : Host.Outcome State Fault Refusal :=
  .next (if working s then
    match (heldFaults s).find? fun x => (openFault s x.2.asid x.2.vpn).isSome || (freeFault s).isSome with
    | none => s
    | some x => takeFault { s with tu := { s.tu with rrEng := x.1 + 1 } } x.2
  else s)

/-- FAULT_RECORD_RETRY (R67): the next source in round-robin order writes its oldest held record of a fault ring when the
ring has space. -/
def execFaultRecordRetry (part : Nat) (s : State) : Host.Outcome State Fault Refusal :=
  .next (if working s && decide (part < 16) then writeHeld s part else s)

/-! ### Invalidation (R376–R378) -/

/-- An open entry is ended: its waiters are let go, and `f` says what becomes of each. -/
def endFault (f : State → TrEng → State) (s : State) (i : Nat) : State :=
  let e := faultEnt s i
  let s := e.waiters.foldl (fun s g => setEng s (engNo s g) {}) (freeEntry s i)
  e.waiters.foldl f s

/-- Open entries of an ASID. -/
def openOf (s : State) (a : Nat) : List Nat := (s.tu.faults.filter fun f => decide (f.2.state ≠ 0) && decide (f.2.asid = a)).map (·.1)

/-- ABORT names an open entry of the ASID at its generation. -/
def fidOpen (s : State) (a fid : Nat) : Bool :=
  let e := faultEnt s (fid % 1024)
  decide (e.state ≠ 0) && decide (e.asid = a) && decide (fidOf (fid % 1024) e = fid)

/-- ASID of the engine that issued a request it translated. -/
def reqAsid (s : State) (o : OutReq) : Option Nat :=
  match o.what with
  | .piece q _ _ => some (jobOf s q).asid
  | .stageUpdate q _ => some (jobOf s q).asid
  | .copyRead e _ _ => some (ctx s (copyEng s e).ctx).asid
  | .copyWrite e _ _ => some (ctx s (copyEng s e).ctx).asid
  | .copyDesc e _ => some (ctx s (copyEng s e).ctx).asid
  | .copyStatus e _ => some (ctx s (copyEng s e).ctx).asid
  | _ => none

/-- A request translated for an ASID no later than a time is outstanding (R376 step 3). -/
def asidBusy (s : State) (a since : Nat) : Bool :=
  s.te.outst.any fun o => decide (reqAsid s o = some a) && decide (o.issued ≤ since)

/-- An ASID object replaced. -/
def setAsid (s : State) (a : Nat) (x : Asid) : State := { s with tu := { s.tu with asids := tput {} s.tu.asids a x } }

/-- Checks of ASID.INVAL (R378, R380, R576). -/
def invalReason (s : State) (q : CtlSeq) (d : List W64) : Nat :=
  let a := df d 0 0 16
  let x := asid s a
  let act := df d 0 16 2
  let st := df d 1 16 8
  firstFail [
    (!reaches q (df d 0 32 12) || (x.status.enabled && !reaches q x.comp), 3),
    (!x.status.enabled, 8),
    (reservedSet d [fmask 0 18 + fmask 32 12, fmask 0 24, 0, 0], 9),
    (decide (act = 3), 4),
    (decide (x.comp ≠ df d 0 32 12), 0x0802),
    (decide (act = 2) && !fidOpen s a (df d 1 0 16), 0x0803),
    (decide (act = 2) && decide (st ≠ 3) && decide (st ≠ 4) && decide (st ≠ 8), 0x0805)]

/-- ASID.INVAL of the actions a row stands for (R376): steps 1 and 2, then the wait. A refused one still does
steps 1 to 3 when the ASID is enabled and in reach (R378). -/
def invalRow (s : State) (cs : Nat) (sel : Nat → Bool) : State :=
  runCtl s cs 0x8A (fun d => sel (df d 0 16 2)) (fun d => stampKey okAsid (df d 0 0 16)) (fun _ _ => none) fun s q d =>
    let a := df d 0 0 16
    let x := asid s a
    let r := invalReason s q d
    if x.status.enabled && reaches q x.comp then
      let s := setAsid (dropAsid s a) a { x with status := { x.status with draining := true, reason := r } }
      { s := s, wait := .inval a (df d 0 16 2) (df d 1 0 16) (df d 1 16 8) r s.now }
    else refuse (setAsid s a { x with status := refused x.status r }) r

/-- ASID_INVAL_NONE (R376), and the reserved ACTION 3, which is refused. -/
def execAsidInvalNone (cs : Nat) (s : State) : Host.Outcome State Fault Refusal :=
  .next (invalRow s cs fun a => decide (a = 0) || decide (a = 3))
/-- ASID_INVAL_RETRY_ALL (R377). -/
def execAsidInvalRetryAll (cs : Nat) (s : State) : Host.Outcome State Fault Refusal := .next (invalRow s cs fun a => decide (a = 1))
/-- ASID_INVAL_ABORT (R377). -/
def execAsidInvalAbort (cs : Nat) (s : State) : Host.Outcome State Fault Refusal := .next (invalRow s cs fun a => decide (a = 2))

/-- Step 4: the action is applied. -/
def invalApply (s : State) (a act fid st : Nat) : State :=
  if act = 1 then (openOf s a).foldl (endFault engGo) s
  else if act = 2 ∧ fidOpen s a fid = true then endFault (engFail st) s (fid % 1024)
  else s

/-- Some sequencer waits in an ASID.INVAL of an ASID. -/
def invalWaits (s : State) (a : Nat) : Bool :=
  s.cc.seqs.any fun q => match q.2.wait with
    | .inval b _ _ _ _ _ => decide (b = a)
    | _ => false

/-- ASID_INVAL_DRAINED (R376 steps 3 and 4): the requests translated before have ended, and the ASID records the stamp
(R96). -/
def execAsidInvalDrained (cs : Nat) (s : State) : Host.Outcome State Fault Refusal :=
  .next (match (ctl s cs).wait with
    | .inval a act fid st r since =>
      if working s && !asidBusy s a since then
        let s := if r = 0 then { s with stamps := tput {} s.stamps (stampKey okAsid a) (ctlStamp (ctl s cs)) } else s
        let s := ctlFinish (tuCount s 7 1) cs r none
        let x := asid s a
        let s := setAsid s a { x with status := { x.status with draining := invalWaits s a } }
        if r = 0 then invalApply s a act fid st else s
      else s
    | _ => s)

/-- Status word of an ASID. -/
def asidWord (x : Asid) : W64 := statusWord x.status ||| w64 (place 20 12 x.comp)

/-- Checks of an ASID commit that enables (R379, R380). -/
def asidReason (s : State) (d : List W64) : Nat :=
  firstFail [
    ((asid s (df d 0 0 16)).status.enabled, 1),
    (decide ((comp s (df d 0 32 12)).state = 0), 8),
    (reservedSet d [fmask 0 16 + fmask 32 12, fmask 0 60, 0, 1], 9),
    (decide (df d 1 0 60 % 131072 ≠ 0) || decide (faSwitch (df d 1 0 60) ≠ s.swNum), 0x0801)]

/-- An ASID disabled (R379): its translations go, and its faults end as under ABORT with RIGHTS. -/
def disableAsid (s : State) (a : Nat) : State :=
  let x := asid s a
  let s := setAsid (dropAsid s a) a { x with status := { x.status with enabled := false, reason := 0 } }
  let s := (openOf s a).foldl (endFault (engFail 3)) s
  let l := s.tu.eng.filter fun x => decide (x.2.state = 1) && decide (x.2.asid = a)
  l.foldl (fun s x => engFail 3 (setEng s x.1 {}) x.2.eng) s

/-- COMMIT_ASID (R379). -/
def execCommitAsid (cs : Nat) (s : State) : Host.Outcome State Fault Refusal :=
  .next (runCtl s cs 0xEF (fun _ => true) (fun d => stampKey okAsid (df d 0 0 16)) (fun s d => some (asidWord (asid s (df d 0 0 16)))) fun s _ d =>
    let a := df d 0 0 16
    let key := some (stampKey okAsid a)
    if enableOf d then
      let r := asidReason s d
      if r ≠ 0 then
        let y := { asid s a with status := refused (asid s a).status r }
        refuse (setAsid s a y) r (some (asidWord y))
      else
        let y : Asid := { status := { enabled := true }, root := df d 1 0 60, comp := df d 0 32 12 }
        { s := setAsid s a y, status := some (asidWord y), obj := key }
    else
      let s := disableAsid s a
      { s := s, status := some (asidWord (asid s a)), obj := key })

/-! ### Suspicion of peers (R530) -/

/-- Key of a peer: its KIND (0 endpoint, 1 switch, 2 tray), and its ID, number or port. -/
def peerKey (kind id : Nat) : Nat := kind * 65536 + id

/-- The peer a request was sent to; none for requests of this switch's own. -/
def peerOf (s : State) (o : OutReq) : Option Nat :=
  if faSwitch o.frame.dst ≠ s.swNum ∧ (o.via.isNone ∨ o.frame.op = 0x0B) then some (peerKey 1 (faSwitch o.frame.dst))
  else match o.via with
    | some p => some (peerKey 2 p)
    | none => if o.frame.op = 0x07 then some (peerKey 0 (o.frame.dst % 65536)) else none

/-- A peer. -/
def peer (s : State) (k : Nat) : Peer := tget {} s.te.peers k
/-- A peer replaced. -/
def setPeer (s : State) (k : Nat) (x : Peer) : State := { s with te := { s.te with peers := tput {} s.te.peers k x } }

/-- The port a peer stands behind. -/
def peerPort (s : State) (k : Nat) : Nat :=
  if k / 65536 = 0 then (endpointPort s (k % 65536)).getD 0
  else if k / 65536 = 1 then ((route s (k % 65536)).ports.headD 0)
  else k % 65536

/-- Partitions whose enabled compositions name a peer; a tray's is that of its port, and partition 0 stands for none. -/
def peerParts (s : State) (k : Nat) : List Nat :=
  let id := k % 65536
  let l := if k / 65536 = 2 then [(port s id).part]
    else ((s.tr.comps.filter fun c => c.2.status.enabled &&
      (if k / 65536 = 0 then memberOf s c.1 id else (spanOf s c.1).contains id)).map (·.2.part)).eraseDups
  if l.isEmpty then [0] else l

/-- A SUSPECT record: REASON 0 port down, 1 timeouts, 2 cleared. -/
def suspectRecord (s : State) (k reason : Nat) : State :=
  let id := if k / 65536 = 2 then 0 else k % 65536
  let w2 := w64 (place 0 2 (k / 65536) + place 8 8 (peerPort s k) + place 32 16 id + place 56 2 reason)
  let w3 := w64 (peer s k).lastOk
  (peerParts s k).foldl (fun s p => faultRecord s p 3 [w2, w3]) s

/-- A peer becomes suspect, with one record. -/
def suspect (s : State) (k reason : Nat) : State :=
  if (peer s k).suspect then s else suspectRecord (setPeer s k { peer s k with suspect := true }) k reason

/-- A suspicion clears, with one record. -/
def clearSuspect (s : State) (k : Nat) : State :=
  if (peer s k).suspect then suspectRecord (setPeer s k { peer s k with suspect := false, timeouts := 0 }) k 2 else s

/-- A request to a peer has ended with a status. -/
def peerSaw (s : State) (o : OutReq) (status : Nat) : State :=
  match peerOf s o with
  | none => s
  | some k =>
    let x := peer s k
    if status = 0x0E then
      let s := setPeer s k { x with timeouts := x.timeouts + 1 }
      if 8 ≤ x.timeouts + 1 then suspect s k 1 else s
    else if status = 0 then clearSuspect (setPeer s k { x with timeouts := 0, lastOk := s.now }) k
    else setPeer s k { x with timeouts := 0 }

/-! ### Completions, resends and timeouts (R264, R273, R342) -/

/-- An outstanding request by its request ID or key. -/
def outFind (s : State) (stream tag : Nat) : Option OutReq :=
  s.te.outst.find? fun o => decide (o.frame.stream = stream) && decide (o.frame.tag = tag)

/-- The outstanding request a completion ends: that of its request ID or key, requester and address (R342). -/
def outEnds (s : State) (f : Frame) : Option OutReq :=
  s.te.outst.find? fun o => decide (o.frame.stream = f.stream) && decide (o.frame.tag = f.tag) && decide (o.frame.src = f.src) && decide (o.frame.dst = f.dst)

/-- A request is no longer outstanding. -/
def outDrop (s : State) (o : OutReq) : State := { s with te := { s.te with outst := s.te.outst.erase o } }

/-- A request is sent again as it was; of a tagged one it is counted (R273, R295). -/
def resend (s : State) (o : OutReq) : State :=
  let s := if taggedOp o.frame.op then teCount s 3 1 else s
  sendOut { s with te := { s.te with outst := s.te.outst.map fun x => if x = o then { x with lastSend := s.now } else x } } o.frame o.via

/-- The engine of a request that answers RETRY_LATER itself by issuing anew (R279). -/
def ownRetry : ReqFor → Bool
  | .copyRead _ _ _ => true
  | .copyWrite _ _ _ => true
  | .copyDesc _ _ => true
  | .mcwCopy _ _ => true
  | _ => false

/-- A seam sequencer's update has completed. -/
def seqUpdated (s : State) (q status : Nat) : State :=
  if status ≠ 0 then stopJob s q status
  else if (seam s q).cwait = .update then
    let x := seam s q
    setSeam s q { x with cwait := .none, pc := x.pc + (insAt x.code x.pc).len }
  else s

/-- A control program's update has completed; another status than OK ends the program with it. -/
def ctlUpdated (s : State) (cs status : Nat) : State :=
  if (ctl s cs).wait ≠ .update then s
  else if status ≠ 0 then endProg s cs status 0
  else
    let q := ctl s cs
    setCtl s cs { q with wait := .none, pc := q.pc + (insAt q.image q.pc).len }

/-- A request has ended: what becomes of what it was for. -/
def reqDone (s : State) (o : OutReq) (status : Nat) (media dropped : Bool) (data : Bytes) : State :=
  match o.what with
  | .piece q n id => pieceDone s q n id status data
  | .stageUpdate q _ => if status = 0 then s else stopJob s q status
  | .seqUpdate q => seqUpdated s q status
  | .ctlUpdate cs => ctlUpdated s cs status
  | .copyRead e i ch => copyReadDone s e i ch status dropped data
  | .copyWrite e i off => copyWriteDone s e i off status dropped
  | .copyArrive _ _ => s
  | .copyDesc e i => copyDescDone s e i status data
  | .copyStatus e i => copyStatusDone s e i
  | .mcwCopy n m => mcwDone s n m status
  | .drain sw epoch => markerAck s sw epoch
  | .mapDrain _ _ => s
  | .probe k sw => if status = 0 then probeAck s k sw o.frame.routeE else s
  | .notice => s
  | .lease n => if (status = 6 ∨ status = 0x0E) ∧ leAt o.frame.data 1 1 = 3 then owe s o.frame else leaseAnswer s n status data
  | .mem n => memCpl s n o.frame.tag status media data

/-- CPL_RECEIVE (R342): a completion ends the outstanding request it names. RETRY_LATER ends none: a tagged
request is resent 20 µs after its last sending (R273), a copy engine issues its chunk anew (R279), and any
other is sent again at once. -/
def execCplReceive (f : Frame) (s : State) : Host.Outcome State Fault Refusal :=
  .next (if working s && decide (f.op = 0x0F) then
    match outEnds s f with
    | none => s
    | some o =>
      if f.status = 1 ∧ ownRetry o.what = false then (if taggedOp o.frame.op then s else resend s o)
      else reqDone (peerSaw (outDrop s o) o f.status) o f.status f.mediaErr f.dropped f.data
  else s)

/-- TAGGED_RESEND (R273). -/
def execTaggedResend (stream : Nat) (tag : Nat) (s : State) : Host.Outcome State Fault Refusal :=
  .next (if working s then
    match outFind s stream tag with
    | none => s
    | some o => if taggedOp o.frame.op && !o.held && decide (o.lastSend + 20000 ≤ s.now) then resend s o else s
  else s)

/-- DRAIN and PROBE requests end by their acknowledgement or their fence's limit only (R261, R283, R408). -/
def untimed : ReqFor → Bool
  | .drain _ _ => true
  | .mapDrain _ _ => true
  | .probe _ _ => true
  | _ => false

/-- COMPLETION_TIMEOUT (R264): a request ends with TIMEOUT, counted from its first issue. -/
def execCompletionTimeout (stream : Nat) (tag : Nat) (s : State) : Host.Outcome State Fault Refusal :=
  .next (if working s then
    match outFind s stream tag with
    | none => s
    | some o => if !untimed o.what && !o.held && decide (o.issued + ctoNs s o.frame.comp ≤ s.now)
        then reqDone (teCount (peerSaw (outDrop s o) o 0x0E) 4 1) o 0x0E false false [] else s
  else s)

/-! ### Messages -/

/-- A message of a lease comes from a switch's own engines (log entry 42). -/
def isLeaseMsg (f : Frame) : Bool := decide (0xF000 ≤ f.src) && decide (leAt f.data 0 1 = 0x4C)

/-- MSG_REQUEST (R256): a message to an endpoint of this switch goes out of its port; one to an endpoint
behind no port is refused with RIGHTS. -/
def execMsgRequest (f : Frame) (s : State) : Host.Outcome State Fault Refusal :=
  .next (if atTarget s f && decide (f.op = 0x07) then
    if formOk f = false then answer s f 3
    else if isLeaseMsg f then leaseReceive s f
    else
      let a := epochFence s f
      if a.1 ≠ 0 then answer a.2 f a.1
      else match endpointPort s (f.dst % 65536) with
        | none => answer a.2 f 3
        | some p => if portUp s p then sendOut a.2 f (some p) else answer a.2 f 6
  else s)


end Sys2Proof.Machine
end

