-- ==== Sys2Proof/Machine/Wire.lean ====
section
/-! DEFINITION. The LFP link layer on the wire: transaction headers and link frames (R341, R342), flits with
CRC and FEC (R338, R339), sealing groups (R348), and the sending of flits with their replay (R340). -/

namespace Sys2Proof.Machine

/-! ### Transaction header (R342) -/

/-- Bytes of a frame (R296): the header, and the payload but for a READ. -/
def frameLen (f : Frame) : Nat := if f.op = 0x01 then 48 else 48 + f.data.length

/-- Cells of a frame (R296). -/
def frameCells (f : Frame) : Nat := ceilDiv (frameLen f) 256

/-- Flits of a frame (R296). -/
def frameFlits (f : Frame) : Nat := ceilDiv (frameLen f) 236

/-- The six words of the header. -/
def headerWords (f : Frame) : List W64 :=
  [w64 (place 0 8 f.op + place 8 3 f.tc + place 11 2 f.colour + place 13 1 (b2n f.dropped) + place 14 1 (b2n f.mediaErr)
      + place 16 13 (if f.op = 0x01 then f.len else f.data.length) + place 32 16 f.src + place 48 16 f.region),
   w64 (place 0 60 f.dst),
   w64 (place 0 12 f.comp + place 12 8 f.mapE + place 20 8 f.routeE + place 28 4 f.subop + place 32 4 f.etype + place 36 2 f.opw
      + place 40 8 f.status + place 48 12 f.rsw),
   w64 (place 0 32 f.rkey + place 32 14 f.group),
   w64 (place 0 40 f.stream + place 40 16 f.tag),
   w64 f.issueT]

/-- A frame as bytes. -/
def encodeFrame (f : Frame) : Bytes := wordsBytes (headerWords f) ++ (if f.op = 0x01 then [] else f.data)

/-- Bytes of the frame whose header a byte string begins with. -/
def wireLen (bs : Bytes) : Nat := if leAt bs 0 1 = 0x01 then 48 else 48 + fldN (leAt bs 2 2) 0 13

/-- A frame from its bytes. -/
def decodeFrame (bs : Bytes) : Frame :=
  let w := fun i => leAt bs (8 * i) 8
  { op := fldN (w 0) 0 8, tc := fldN (w 0) 8 3, colour := fldN (w 0) 11 2, dropped := fldN (w 0) 13 1 = 1, mediaErr := fldN (w 0) 14 1 = 1,
    len := fldN (w 0) 16 13, src := fldN (w 0) 32 16, region := fldN (w 0) 48 16, dst := fldN (w 1) 0 60,
    comp := fldN (w 2) 0 12, mapE := fldN (w 2) 12 8, routeE := fldN (w 2) 20 8, subop := fldN (w 2) 28 4, etype := fldN (w 2) 32 4,
    opw := fldN (w 2) 36 2, status := fldN (w 2) 40 8, rsw := fldN (w 2) 48 12, rkey := fldN (w 3) 0 32, group := fldN (w 3) 32 14,
    stream := fldN (w 4) 0 40, tag := fldN (w 4) 40 16, issueT := w 5, data := bs.drop 48 }

/-- A reserved field of a header is not zero. -/
def headerReserved (bs : Bytes) : Bool :=
  let w := fun i => leAt bs (8 * i) 8
  decide (fldN (w 0) 15 1 ≠ 0) || decide (fldN (w 0) 29 3 ≠ 0) || decide (fldN (w 1) 60 4 ≠ 0) || decide (fldN (w 2) 38 2 ≠ 0)
    || decide (fldN (w 2) 60 4 ≠ 0) || decide (fldN (w 3) 46 18 ≠ 0) || decide (fldN (w 4) 56 8 ≠ 0)

/-! ### Link frames (R341) -/

/-- Units of a link frame. -/
def linkUnits (l : LinkFrame) : Nat := max 1 (ceilDiv (l.body.length + 2) 16)

/-- A link frame as bytes, whole units. -/
def encodeLink (l : LinkFrame) : Bytes :=
  fitTo (16 * linkUnits l) ([BitVec.ofNat 8 l.op, BitVec.ofNat 8 (linkUnits l)] ++ l.body)

/-- Link frames from a unit boundary of a payload area, up to a unit whose byte 0 is zero. -/
def decodeLinks : Nat → Bytes → List LinkFrame
  | 0, _ => []
  | n + 1, bs =>
    let u := leAt bs 1 1
    if bs.length < 16 ∨ leAt bs 0 1 = 0 ∨ u = 0 ∨ bs.length < 16 * u then []
    else { op := leAt bs 0 1, body := (bs.take (16 * u)).drop 2 } :: decodeLinks n (bs.drop (16 * u))

/-- Little-endian field of a link frame at its own byte offset. -/
def lfAt (l : LinkFrame) (off n : Nat) : Nat := leAt l.body (off - 2) n

/-- The body of a link frame of `u` units from byte 2 on, from its fields as offset, size and value. -/
def linkBody (u : Nat) (fields : List (Nat × Nat × Nat)) : Bytes :=
  bytesLE (16 * u - 2) (fields.foldl (fun a x => a + place (8 * (x.1 - 2)) (8 * x.2.1) x.2.2) 0)

/-! ### FEC (R339) -/

/-- Multiplication by α in GF(2^8) with x^8 + x^4 + x^3 + x^2 + 1. -/
def gfX (v : Nat) : Nat := if v < 128 then 2 * v else (2 * v) ^^^ 0x11D

/-- The two syndromes of one interleave: the values at α^0 and α^1, the byte at the lowest position the
highest coefficient. -/
def synd (bs : List Nat) : Nat × Nat := bs.foldl (fun a b => (a.1 ^^^ b, gfX a.2 ^^^ b)) (0, 0)

/-- The bytes of an interleave: those at positions equal to `j` modulo 3. -/
def lane3 (j : Nat) (bs : Bytes) : List Nat := (bs.zipIdx.filter fun x => decide (x.2 % 3 = j)).map (·.1.toNat)

/-- The two check bytes that make both syndromes of an interleave zero. -/
def checks (ds : List Nat) : Nat × Nat :=
  let t := synd (ds ++ [0, 0])
  let c := ((List.range 256).find? fun c => decide (c ^^^ gfX c = t.1 ^^^ t.2)).getD 0
  (c, t.1 ^^^ c)

/-- Bytes 0–249 of a flit with their FEC bytes 250–255. -/
def fecEncode (bs : Bytes) : Bytes :=
  let c := fun j => checks (lane3 j bs)
  bs ++ [(c 1).1, (c 2).1, (c 0).1, (c 1).2, (c 2).2, (c 0).2].map fun v => BitVec.ofNat 8 v

/-- The exponent k < n with a · α^k = b. -/
def gfLog : Nat → Nat → Nat → Nat → Option Nat
  | 0, _, _, _ => none
  | n + 1, a, b, k => if a = b then some k else gfLog n (gfX a) b (k + 1)

/-- Positions of an interleave, from the last to the first. -/
def lanePos (j : Nat) : List Nat := ((List.range 256).filter fun i => decide (i % 3 = j)).reverse

/-- One interleave corrected: the flit, and whether a byte was corrected. -/
def fecLane (bs : Bytes) (j : Nat) : Bytes × Bool :=
  let t := synd (lane3 j bs)
  if t.1 = 0 then (bs, false)
  else match gfLog (lanePos j).length t.1 t.2 0 with
    | none => (bs, false)
    | some k =>
      let i := (lanePos j).getD k 0
      (setAt bs i (bs.getD i 0 ^^^ BitVec.ofNat 8 t.1), true)

/-- The three interleaves corrected, with whether any byte was. -/
def fecDecode (bs : Bytes) : Bytes × Bool :=
  let a := fecLane bs 0
  let b := fecLane a.1 1
  let c := fecLane b.1 2
  (c.1, a.2 || b.2 || c.2)

/-! ### Flits (R338) -/

/-- The link header of a flit. -/
def linkHeader (ftype seq ack : Nat) (nak sealed : Bool) (keySel gpos : Nat) : Nat :=
  place 0 4 ftype + place 4 10 seq + place 14 10 ack + place 24 1 (b2n nak) + place 25 1 (b2n sealed) + place 26 1 keySel + place 27 5 gpos

/-- A flit of a payload area and a link header. -/
def mkFlit (area : Bytes) (hdr : Nat) : Bytes :=
  let b := fitTo 236 area ++ bytesLE 6 hdr
  fecEncode (b ++ bytesLE 8 (crc64 b).toNat)

/-- The ACK a port sends: the SEQ of the last PAYLOAD flit received in order. -/
def ackOf (x : Port) : Nat := (x.rxSeq + 1023) % 1024

/-- A PAYLOAD flit put on the link, its ACK and NAK as they are now. -/
def wireFlit (x : Port) (t : TxFlit) : Port :=
  { x with wire := mkFlit t.area (linkHeader 1 t.seq (ackOf x) x.nak t.sealed t.keySel t.gpos) :: x.wire }

/-- A NOP flit put on the link, carrying the last SEQ sent and the acknowledgement. -/
def wireNop (x : Port) : Port :=
  { x with wire := mkFlit [] (linkHeader 0 ((x.txSeq + 1023) % 1024) (ackOf x) x.nak false 0 0) :: x.wire }

/-- A new PAYLOAD flit: it takes the next SEQ and is kept for replay. -/
def sendFlit (now : Nat) (x : Port) (area : Bytes) (sealed : Bool) (gpos : Nat) : Port :=
  let t : TxFlit := { seq := x.txSeq, gpos := gpos, keySel := if sealed then x.keySel else 0, sealed := sealed, area := area, sentT := now }
  wireFlit { x with txSeq := (x.txSeq + 1) % 1024, replay := x.replay ++ [t] } t

/-! ### Sealing groups (R348) -/

/-- The nonce of a group under a key slot: IV base, then the group counter. -/
def groupNonce (iv group : Nat) : Bytes := bytesLE 4 iv ++ bytesLE 8 group

/-- The additional data of a flit: its link header with bits [24:14] zero. -/
def aadOf (hdr : Nat) : Bytes := bytesLE 6 (putFld hdr 14 11 0)

/-- XOR of a byte string with a keystream at least as long. -/
def xorBytes (a k : Bytes) : Bytes := List.zipWith (· ^^^ ·) a k

/-- `n` bytes of the keystream of a group. -/
def keystream (key : Nat) (nonce : Bytes) (n : Nat) : Bytes := gcmText (BitVec.ofNat 128 key) nonce (List.replicate n 0)

/-- The MAC frame of a group. -/
def macLink (group : Nat) (tag : BitVec 128) : LinkFrame := { op := 0x26, body := List.replicate 6 0 ++ bytesLE 8 group ++ bytesOf tag }

/-- Split into payload areas of 236 bytes. -/
def areas : Nat → Bytes → List Bytes
  | 0, _ => []
  | n + 1, bs => fitTo 236 (bs.take 236) :: areas n (bs.drop 236)

/-- Offset in the last of `n` areas of the first 16-byte boundary after `len` bytes. -/
def tailOf (n len : Nat) : Nat := ceilDiv (len - 236 * (n - 1)) 16 * 16

/-- The group's bytes with those from `a` to `b` cut out. -/
def cutOut (bs : Bytes) (a b : Nat) : Bytes := bs.take a ++ bs.drop b

/-- A group's payload areas sealed under its key: `raw` is the clear group with room for the MAC frame at
`mac`, and the bytes `x0` to `x1` (the stamps of a time frame) stay out of the protection. -/
def sealGroup (key : Nat) (iv group : Nat) (hdrs : List Nat) (raw : Bytes) (x0 x1 mac : Nat) : Bytes :=
  let nonce := groupNonce iv group
  let text := (raw.take x0 ++ (raw.drop x1).take (mac - x1)) ++ raw.drop (mac + 32)
  let cipher := gcmText (BitVec.ofNat 128 key) nonce text
  let tag := gcmTag (BitVec.ofNat 128 key) nonce (hdrs.flatMap aadOf) cipher
  let n1 := mac - (x1 - x0)
  cipher.take x0 ++ (raw.drop x0).take (x1 - x0) ++ (cipher.take n1).drop x0 ++ encodeLink (macLink group tag) ++ cipher.drop n1

/-- Flits of `len` bytes of a frame or link frame on a port: with protection, room for the MAC frame too. -/
def groupFlits (x : Port) (len : Nat) : Nat :=
  let n := ceilDiv len 236
  if x.protActive ∧ 236 < tailOf n len + 32 then n + 1 else n

/-- The link has room for `n` more unacknowledged flits (R340). -/
def replayRoom (x : Port) (n : Nat) : Bool := decide (x.replay.length + n ≤ 512)

/-- A frame or link frame sent in flits of its own; on a protected link they are one sealing group (the model
closes a group after each, as R348 leaves the sender free to). -/
def sendBytes (now : Nat) (x : Port) (bs : Bytes) (x0 x1 : Nat) : Port :=
  let n := groupFlits x bs.length
  if x.protActive then
    let k := tget (0, 0) x.txKey x.keySel
    let m := ceilDiv bs.length 236
    let mac := if m = n then 236 * (n - 1) + tailOf m bs.length else 236 * m
    let hdrs := (List.range n).map fun i => linkHeader 1 ((x.txSeq + i) % 1024) 0 false true x.keySel i
    let out := sealGroup k.1 k.2 x.txGroup hdrs (fitTo (236 * n) bs) (min x0 mac) (min x1 mac) mac
    let x := ((areas n out).zipIdx).foldl (fun x a => sendFlit now x a.1 true a.2) x
    { x with txGroup := x.txGroup + 1 }
  else (areas n bs).foldl (fun x a => sendFlit now x a false 0) x

/-- Flits carry link frames in this state (R331): CONFIG and ACTIVE. -/
def linkOpen (x : Port) : Bool := decide (x.state = 3 ∨ x.state = 4)

/-- A time frame with its departure stamp, taken as its flit leaves: t1 of a TIME_SYNC, t3 of a TIME_REPLY (R351). -/
def stampLink (now : Nat) (l : LinkFrame) : LinkFrame :=
  if l.op = 0x21 then { l with body := linkBody 2 [(8, 8, now), (16, 8, lfAt l 16 8)] }
  else if l.op = 0x22 then { l with body := linkBody 2 [(8, 8, lfAt l 8 8), (16, 8, now), (24, 8, lfAt l 24 8)] }
  else l

/-- What the departure of a link frame does: a TIME_SYNC opens its exchange (R351), and after a KEY_SWITCH the next group is under
the new slot (R347). -/
def linkLeft (now : Nat) (l : LinkFrame) (x : Port) : Port :=
  if l.op = 0x21 then { x with timeX := some (lfAt l 16 8, now) }
  else if l.op = 0x25 then { x with keySel := lfAt l 2 1, txGroup := lfAt l 8 8, protActive := true, keyOut := none }
  else x

/-- Waiting link frames sent, oldest first, while the replay buffer has room. -/
def pumpN (now : Nat) : Nat → Port → Port
  | 0, x => x
  | n + 1, x =>
    match x.txLinks with
    | [] => x
    | l :: t =>
      if linkOpen x && replayRoom x 2 then
        let time := l.op = 0x21 ∨ l.op = 0x22
        pumpN now n (linkLeft now l (sendBytes now { x with txLinks := t } (encodeLink (stampLink now l)) (if time then 8 else 0) (if time then 32 else 0)))
      else x

/-- Waiting link frames of a port sent. -/
def pumpLinks (s : State) (p : Nat) : State := setPort s p (pumpN s.now (port s p).txLinks.length (port s p))

/-- A link frame sent on a port. -/
def sendLink (s : State) (p : Nat) (l : LinkFrame) : State :=
  pumpLinks (setPort s p { port s p with txLinks := (port s p).txLinks ++ [l] }) p

/-- A frame as it leaves by a port: a request keeps RSW only toward another switch, and a window-mode memory port
carries the local offset alone (R342, R356). -/
def wireFrame (x : Port) (f : Frame) : Frame :=
  let f := if f.op = 0x0F ∨ x.profile = 0 then f else { f with rsw := 0 }
  if x.mode = 1 ∧ f.op ≠ 0x0F then { f with dst := f.dst % 2 ^ 40 } else f

/-- A transaction frame put on a port's link. -/
def txFrame (now : Nat) (x : Port) (f : Frame) : Port := { sendBytes now x (encodeFrame (wireFrame x f)) 0 0 with lastTx := now }

/-- A transaction frame sent on a port. -/
def sendFrame (s : State) (p : Nat) (f : Frame) : State := setPort s p (txFrame s.now (port s p) f)

/-- The link may carry a transaction frame of this port now: ACTIVE, at full width (R334), with room for its flits (R340). -/
def mayTx (x : Port) (f : Frame) : Bool := decide (x.state = 4) && !x.dozeTx && replayRoom x (groupFlits x (frameLen f))

/-- Waiting answers of the link layer sent, oldest first, while the link may carry them. -/
def pumpAnswers (now : Nat) : Nat → Port → Port
  | 0, x => x
  | n + 1, x =>
    match x.answers with
    | [] => x
    | f :: t => if mayTx x f then pumpAnswers now n (txFrame now { x with answers := t } f) else x

/-- What waits at a port's link goes: link frames, then the link layer's own answers. -/
def pumpPort (s : State) (p : Nat) : State :=
  let s := pumpLinks s p
  setPort s p (pumpAnswers s.now (port s p).answers.length (port s p))

/-- A dozing port starts to wake: WAKE goes, and full width is there 1.2 µs later (R334). -/
def startWake (s : State) (p : Nat) : State :=
  let x := port s p
  if x.dozeTx && x.wakeAt.isNone then sendLink (setPort s p { x with wakeAt := some (s.now + 1200) }) p { op := 0x24, body := linkBody 1 [] } else s

/-- Logical lane that byte `i` of a flit travels on (R330). -/
def laneOfByte (x : Port) (i : Nat) : Nat := i % x.width

/-! ### Opening a sealed group (R348, R349) -/

/-- Link-frame units of one area opened: the clear bytes and the keystream left. MAC frames of the group are
clear, and of time frames bytes 8–31. -/
def openUnits (group : Nat) : Nat → Bytes → Bytes → Bytes × Bytes
  | 0, ks, r => (xorBytes r ks, ks.drop r.length)
  | n + 1, ks, r =>
    if r.length < 16 then (xorBytes r ks, ks.drop r.length)
    else if leAt r 0 2 = 0x0226 ∧ leAt r 8 8 = group ∧ 32 ≤ r.length then
      let t := openUnits group n ks (r.drop 32)
      (r.take 32 ++ t.1, t.2)
    else
      let h := xorBytes (r.take 8) ks
      let u := leAt h 1 1
      if leAt h 0 1 = 0 ∨ u = 0 ∨ r.length < 16 * u then (xorBytes r ks, ks.drop r.length)
      else if (leAt h 0 1 = 0x21 ∨ leAt h 0 1 = 0x22) ∧ u = 2 then
        let t := openUnits group n (ks.drop 8) (r.drop 32)
        (h ++ (r.take 32).drop 8 ++ t.1, t.2)
      else
        let t := openUnits group n (ks.drop (16 * u)) (r.drop (16 * u))
        (xorBytes (r.take (16 * u)) ks ++ t.1, t.2)

/-- The areas of a group opened in order; `left` counts the bytes of the frame under way still to come. -/
def openAreas (group : Nat) : Bytes → Nat → List Bytes → List Bytes
  | _, _, [] => []
  | ks, left, r :: rest =>
    let starts := left = 0
    let h := xorBytes (r.take 48) ks
    let mac := leAt r 0 2 = 0x0226 ∧ leAt r 8 8 = group
    let len := if starts then (if ¬mac ∧ 0 < leAt h 0 1 ∧ leAt h 0 1 < 0x20 then wireLen h else 0) else left
    if 236 ≤ len then xorBytes r ks :: openAreas group (ks.drop 236) (len - 236) rest
    else
      let t := min (ceilDiv len 16 * 16) r.length
      let u := openUnits group 15 (ks.drop t) (r.drop t)
      (xorBytes (r.take t) ks ++ u.1) :: openAreas group u.2 0 rest

/-- Place of the group's MAC frame in its last area. -/
def macAt (group : Nat) (area : Bytes) : Option Nat :=
  (List.range 14).map (16 * ·) |>.find? fun t => decide (leAt area t 2 = 0x0226) && decide (leAt area (t + 8) 8 = group) && decide (t + 32 ≤ 236)

/-- The bytes of a group that are protected, in order: those `openAreas` takes keystream for. The clear group shows
where its time frames stand. -/
def protectedOf (group : Nat) : List Bytes → List Bytes → Nat → Bytes
  | [], _, _ => []
  | _, [], _ => []
  | r :: rs, c :: cs, left =>
    let mac := leAt r 0 2 = 0x0226 ∧ leAt r 8 8 = group
    let len := if left = 0 then (if ¬mac ∧ 0 < leAt c 0 1 ∧ leAt c 0 1 < 0x20 then wireLen c else 0) else left
    if 236 ≤ len then r ++ protectedOf group rs cs (len - 236)
    else
      let t := ceilDiv len 16 * 16
      r.take t ++ units (r.drop t) (c.drop t) 15 ++ protectedOf group rs cs 0
where
  /-- The protected bytes of link-frame units. -/
  units (r c : Bytes) : Nat → Bytes
    | 0 => r
    | n + 1 =>
      if r.length < 16 then r
      else if leAt r 0 2 = 0x0226 ∧ leAt r 8 8 = group ∧ 32 ≤ r.length then units (r.drop 32) (c.drop 32) n
      else
        let u := leAt c 1 1
        if leAt c 0 1 = 0 ∨ u = 0 ∨ r.length < 16 * u then r
        else if (leAt c 0 1 = 0x21 ∨ leAt c 0 1 = 0x22) ∧ u = 2 then r.take 8 ++ units (r.drop 32) (c.drop 32) n
        else r.take (16 * u) ++ units (r.drop (16 * u)) (c.drop (16 * u)) n

/-- A sealed group opened under a key slot's key and IV base: the clear areas and whether the tag verifies. -/
def openGroup (key iv group : Nat) (fl : List RxFlit) : List Bytes × Bool :=
  let rs := fl.map (·.area)
  let nonce := groupNonce iv group
  let clear := openAreas group (keystream key nonce (236 * rs.length)) 0 rs
  let tag := gcmTag (BitVec.ofNat 128 key) nonce (fl.flatMap fun x => aadOf x.hdr) (protectedOf group rs clear 0)
  match rs.getLast? with
  | none => (clear, false)
  | some r => match macAt group r with
    | none => (clear, false)
    | some t => (clear, decide ((r.drop (t + 16)).take 16 = bytesOf tag))

end Sys2Proof.Machine
end

