-- ==== Sys2Proof/Machine/Queue.lean ====
section
/-! DEFINITION. The traffic manager: shares of the cell buffer and admission (R296, R300–R305), queues and their
scheduler (R311–R314), time gates (R315–R317), meters (R308–R310), mirroring (R321, R322), and frames that leave
the core other than by being sent (R299, R319, R320). -/

namespace Sys2Proof.Machine

/-! ### Ports and queues -/

/-- The switch-core side of a port. -/
def swPort (s : State) (p : Nat) : SwPort := tget {} s.sw.ports p
/-- The switch-core side of a port replaced. -/
def setSwPort (s : State) (p : Nat) (x : SwPort) : State := { s with sw := { s.sw with ports := tput {} s.sw.ports p x } }
/-- An egress queue. -/
def queue (s : State) (p q : Nat) : EQueue := tget {} s.sw.queues (p * 64 + q)
/-- An egress queue replaced. -/
def setQueue (s : State) (p q : Nat) (x : EQueue) : State := { s with sw := { s.sw with queues := tput {} s.sw.queues (p * 64 + q) x } }
/-- A counter of *SW counters* of a port raised. -/
def swCount (s : State) (p i n : Nat) : State := setSwPort s p { swPort s p with ctr := tmod 0 (swPort s p).ctr i fun c => satInc c n }
/-- A counter of *PC counters* of a port raised. -/
def pcCount (s : State) (p i n : Nat) : State := setPort s p { port s p with ctr := tmod 0 (port s p).ctr i fun c => satInc c n }

/-- A lossless class (R300). -/
def lossless (tc : Nat) : Bool := decide (tc = 0 ∨ tc = 1 ∨ tc = 2 ∨ tc = 3 ∨ tc = 5)

/-- A request frame of R302. -/
def requestOp (op : Nat) : Bool := decide (1 ≤ op ∧ op ≤ 10)

/-- Cells held as reserves: five classes of each fabric port (R300). -/
def reservedCells (s : State) : Nat := ((fabricPorts.filter (portNamed s)).map fun p => 5 * (swPort s p).reserve).foldl (· + ·) 0

/-- Cells in a queue. All are shared cells: a frame's reserve cells return when it is admitted. -/
def queueCells (x : EQueue) : Nat := (x.frames.map (·.cells)).foldl (· + ·) 0

/-- Free shared cells (R300). -/
def freeShared (s : State) : Nat := 786432 - reservedCells s - (s.sw.queues.map fun x => queueCells x.2).foldl (· + ·) 0

/-- The queue a frame takes at an egress port (R311). -/
def queueOf (s : State) (p : Nat) (f : Frame) : Nat :=
  let q := tget 0 s.sw.share f.comp * 8 + f.tc
  if (queue s p q).disabled then f.tc else q

/-- The threshold test of R300 and R304 for a frame of some cells; `half` is the lower threshold. -/
def alphaOk (s : State) (p q cells : Nat) (half : Bool) : Bool :=
  let x := queue s p q
  let free := freeShared s
  decide ((queueCells x + cells) * 64 * (if half then 2 else 1) ≤ free * 2 ^ x.alpha) && decide (cells ≤ free)

/-- A frame joins its queue at an egress port. -/
def enqueue (s : State) (p : Nat) (f : Frame) (inPort since : Nat) : State :=
  let q := queueOf s p f
  let x := queue s p q
  let n := s.sw.nextOrd
  setQueue { s with sw := { s.sw with nextOrd := n + 1 } } p q
    { x with frames := x.frames ++ [{ f := f, inPort := inPort, cells := frameCells f, since := since, ord := n }] }

/-- The port number of an egress: the LF7's own traffic goes to internal port 192. -/
def egressPort : Egress → Option Nat
  | .fabric p => some p
  | .internal => some 192
  | .lost => none

/-- Route epoch of the switch that forwards a request (R257). -/
def stampRoute (s : State) (f : Frame) : Frame :=
  if f.op = 0x0F ∨ f.op = 0x0B ∨ f.op = 0x0C ∨ faSwitch f.dst = s.swNum then f else { f with routeE := (route s (faSwitch f.dst)).epoch }

/-! ### Credits (R300) -/

/-- Cells a class holds in a port's reserve. -/
def heldCells (s : State) (p tc : Nat) : Nat := (((swPort s p).waiting.filter fun w => decide (w.f.tc = tc)).map (·.cells)).foldl (· + ·) 0

/-- Cells in a port's ingress FIFO (R298). -/
def fifoCells (x : Port) : Nat := (x.rxFrames.map frameCells).foldl (· + ·) 0
/-- The ingress FIFO of 32 cells is full (R298). -/
def fifoFull (x : Port) : Bool := decide (32 ≤ fifoCells x)

/-- Credits of a class granted up to what RESERVE leaves free, by a CREDIT frame that counts the cells returned; withheld while the
ingress FIFO is full (R298). -/
def regrant (s : State) (p tc : Nat) : State :=
  let x := port s p
  let g := (swPort s p).reserve - (heldCells s p tc + tget 0 x.granted tc)
  if p < 192 ∧ 0 < g ∧ portUp s p = true ∧ fifoFull x = false then
    let ret := (tget 0 x.returned tc + g) % 2 ^ 32
    let s := setPort s p { x with granted := tput 0 x.granted tc (tget 0 x.granted tc + g), returned := tput 0 x.returned tc ret }
    sendLink s p { op := 0x20, body := linkBody 1 [(2, 1, tc), (4, 4, ret)] }
  else s

/-- Credits of every lossless class granted. -/
def regrantAll (s : State) (p : Nat) : State := [0, 1, 2, 3, 5].foldl (fun s tc => regrant s p tc) s

/-- The reserve cells of an arriving frame that is refused return as credits (R302, R310). -/
def creditBack (s : State) (p : Nat) (f : Frame) : State :=
  if lossless f.tc then
    let x := port s p
    regrant (setPort s p { x with granted := tmod 0 x.granted f.tc fun g => g - frameCells f }) p f.tc
  else s

/-- A frame leaves the reserve; its cells return. -/
def leaveReserve (s : State) (p i : Nat) : State :=
  let x := swPort s p
  match x.waiting[i]? with
  | none => s
  | some w => regrant (setSwPort s p { x with waiting := x.waiting.eraseIdx i }) p w.f.tc

/-! ### Frames that end here -/

/-- A completion sent by this switch for a request that ends here; that of a posted write carries TAG 0xFFFF (R302). -/
def endRequest (s : State) (f : Frame) (status : Nat) (via : Option Nat) : State :=
  sendOut s { mkCpl f status [] with tag := if f.op = 0x03 then 0xFFFF else f.tag } via

/-- Where the completion of a request that ends at an ingress port goes: back by that port from an endpoint, by
the route of its first switch otherwise. -/
def backBy (s : State) (p : Nat) : Option Nat := if p < 192 ∧ (port s p).profile ≠ 0 then some p else none

/-- A completion passes through this switch: it no longer counts against the port its request entered by (R266). -/
def portOutDone (s : State) (f : Frame) : State :=
  if f.op = 0x0F then
    { s with te := { s.te with portOut := tmap [] s.te.portOut (fun _ l =>
        l.eraseP (fun x => decide (x.1 = f.src) && decide (x.2.1 = f.stream) && decide (x.2.2.1 = f.tag))) } }
  else s

/-- A frame that has left egress port `p` unsent under R319 or R320. -/
def flushOne (s : State) (f : Frame) : State :=
  if f.op = 0x0F then portOutDone s f
  else if f.tc = 6 ∨ f.tc = 7 then s
  else if f.op = 0x0B then sendOut s (mkCpl f 0 [])
  else if f.op = 0x0C then
    (match s.te.outst.find? fun o => decide (o.frame.stream = f.stream) && decide (o.frame.src = f.src) && decide (o.frame.dst = f.dst) with
    | some o => sendOut { s with te := { s.te with outst := s.te.outst.map fun x => if x = o then { x with lastSend := s.now } else x } } f
    | none => sendOut s f)
  else endRequest s f 6 none

/-- Every frame of a port's queues is flushed, in queue order (R319). -/
def flushPort (s : State) (p : Nat) : State :=
  (List.range 64).foldl (fun s q =>
    let x := queue s p q
    let s := if x.frames.isEmpty then s else swCount (setQueue s p q { x with frames := [], awake := false }) p 3 x.frames.length
    x.frames.foldl (fun s w => flushOne s w.f) s) s

/-- A port's queues are in aging mode (R318). -/
def agingMode (s : State) (p : Nat) : Bool := !s.cc.bootDone || s.cc.recovery || decide ((port s p).state = 6)

/-! ### Gates (R315–R317) -/

/-- A gate list of a port: 1 A, 2 B. -/
def gateList (x : SwPort) (l : Nat) : GateList := if l = 1 then x.listA else x.listB
/-- A gate list replaced. -/
def setGateList (x : SwPort) (l : Nat) (g : GateList) : SwPort := if l = 1 then { x with listA := g } else { x with listB := g }
/-- Entries 0 to COUNT of a list. -/
def gateEnts (g : GateList) : List GateEnt := (List.range (g.count + 1)).map fun i => tget {} g.ents i

/-- Time left of the consecutive entries that open a queue, from an entry with `rest` ns left of it; none once
every entry of the cycle has opened it. -/
def runFrom (q : Nat) (es : List GateEnt) : Nat → Nat → Nat → Option Nat
  | 0, _, _ => none
  | n + 1, i, acc =>
    let e := es.getD (i % es.length) {}
    if bit e.open_ q then runFrom q es n (i + 1) (acc + e.dur) else some acc

/-- The entry a cycle is in at an offset, with the time left of it. -/
def entryAt : List GateEnt → Nat → Nat → Nat × Nat
  | [], i, _ => (i - 1, 0)
  | e :: t, i, off => if off < e.dur then (i, e.dur - off) else entryAt t (i + 1) (off - e.dur)

/-- Time since the last cycle start BASE + k × CYCLE, k any integer. -/
def cycleOff (cycle base now : Nat) : Nat := (now + (cycle - base % cycle)) % cycle

/-- Time left of a queue's current open run: none where nothing bounds it, 0 while its gate is closed. -/
def openLeft (s : State) (p q : Nat) : Option Nat :=
  let x := swPort s p
  if x.active = 0 then none
  else
    let g := gateList x x.active
    let es := gateEnts g
    let a := entryAt es 0 (cycleOff g.cycle g.base s.now)
    if bit (es.getD a.1 {}).open_ q = false then some 0
    else runFrom q es es.length (a.1 + 1) a.2

/-- Flit time in ns: 2 on an x8 port, 4 on an x4 port (R317, R330). -/
def flitNs (x : Port) : Nat := if x.width = 4 then 4 else 2

/-- A frame may start now for its queue's gate (R317). -/
def gateFits (s : State) (p q : Nat) (f : Frame) : Bool :=
  match openLeft s p q with
  | none => true
  | some t => decide (0 < t) && decide (frameFlits f * flitNs (port s p) ≤ t)

/-! ### The scheduler (R312–R314) -/

/-- The link partner has granted enough credit for a frame (R312); internal ports and drop-eligible classes need none. -/
def creditOk (s : State) (p : Nat) (w : QFrame) : Bool :=
  decide (192 ≤ p) || !lossless w.f.tc || decide (w.cells ≤ tget 0 (port s p).credit w.f.tc)

/-- A drain marker leaves only behind the requests for its switch that were queued at the port before it (R261). -/
def drainOk (s : State) (p : Nat) (w : QFrame) : Bool :=
  decide (w.f.op ≠ 0x0B) || s.sw.queues.all fun x => decide (x.1 / 64 ≠ p) ||
    x.2.frames.all fun y => decide (w.ord ≤ y.ord) || decide (y.f.op = 0x0F) || decide (headsFor y.f ≠ headsFor w.f)

/-- A queue is eligible (R312, R333). -/
def eligible (s : State) (p q : Nat) : Bool :=
  match (queue s p q).frames.head? with
  | none => false
  | some w => (decide (192 ≤ p) || decide ((port s p).state = 4)) && creditOk s p w && drainOk s p w && gateFits s p q w.f

/-- A frame that its gate alone keeps from being sent is counted once (R317). -/
def gateWaits (s : State) (p q : Nat) : State :=
  let x := queue s p q
  match x.frames with
  | [] => s
  | w :: t =>
    if decide (p < 192) && !w.gated && creditOk s p w && !gateFits s p q w.f then swCount (setQueue s p q { x with frames := { w with gated := true } :: t }) p 7 1
    else s

/-- A queue wakes with the virtual time as its start tag, or is no longer awake (R313). -/
def wakeQueue (s : State) (p q : Nat) : State :=
  let x := queue s p q
  if eligible s p q then (if x.awake then s else setQueue s p q { x with awake := true, sTag := (swPort s p).v })
  else if x.awake then setQueue s p q { x with awake := false } else s

/-- Queues of a port that are listed. -/
def listedQueues (s : State) (p : Nat) : List Nat := (s.sw.queues.filter fun x => decide (x.1 / 64 = p)).map (·.1 % 64)

/-- Every queue of a port brought to its present eligibility. -/
def wakeAll (s : State) (p : Nat) : State := (listedQueues s p).foldl (fun s q => wakeQueue (gateWaits s p q) p q) s

/-- Finish tag of a queue's head frame (R313). -/
def finishTag (x : EQueue) : W64 :=
  match x.frames.head? with
  | none => x.sTag
  | some w => x.sTag + w64 (w.cells * (2 ^ 24 / x.weight))

/-- A tag comes before another, compared modulo 2^64 as signed differences. -/
def tagLt (a b : W64) : Bool := (a - b).msb

/-- The awake queue of the lowest finish tag; ties go to the lower number. -/
def bestQueue (s : State) (p : Nat) : List Nat → Option Nat
  | [] => none
  | q :: t =>
    match bestQueue s p t with
    | none => if (queue s p q).awake then some q else none
    | some r => if (queue s p q).awake && !tagLt (finishTag (queue s p r)) (finishTag (queue s p q)) then some q else some r

/-- The tags after a frame of queue `q` was taken: V, and the S of the queue if it stays eligible (R313). -/
def tagsAfter (s : State) (p q : Nat) (start fin : W64) : State :=
  let y := swPort s p
  let s := setSwPort s p { y with v := if tagLt y.v start then start else y.v }
  let x := queue s p q
  setQueue s p q { x with fTag := fin, sTag := fin, awake := eligible s p q }

/-! ### Meters (R308–R310) -/

/-- The meter a frame meets at an ingress port: the enabled one of the lowest number that matches. -/
def meterFor (s : State) (p : Nat) (f : Frame) : Option (Nat × Meter) :=
  s.sw.meters.find? fun m => m.2.status.enabled && (decide (m.2.port = 255) || decide (m.2.port = p)) && (m.2.anyComp || decide (m.2.comp = f.comp))
    && m.2.tcMask.testBit f.tc

/-- A bucket filled for some ns at a rate in Mbit/s, in 1/8000 byte, up to its burst. -/
def fillBucket (level rate burst dt : Nat) : Nat := min (burst * 8000) (level + rate * dt)

/-- A meter at a time and a frame of `n` bytes with the colour it carries: the colour, and the meter after (R309). -/
def meterColour (m : Meter) (now n pre : Nat) : Nat × Meter :=
  let b := n * 8000
  let tc := fillBucket m.tc m.cir m.cbs (now - m.last)
  let tp := fillBucket m.tp m.pir m.pbs (now - m.last)
  let m := { m with tc := tc, tp := tp, last := now }
  if tp < b ∨ (m.aware = true ∧ pre = 3) then (3, { m with redC := satInc m.redC n })
  else if tc < b ∨ (m.aware = true ∧ pre = 2) then (2, { m with tp := tp - b, yellow := satInc m.yellow n })
  else (1, { m with tp := tp - b, tc := tc - b, green := satInc m.green n })

/-- A frame metered at a fabric port: the state, the frame with its colour, and whether RED REFUSE stops it. -/
def meterFrame (s : State) (p : Nat) (f : Frame) : State × Frame × Bool :=
  match meterFor s p f with
  | none => (s, f, false)
  | some (n, m) =>
    let r := meterColour m s.now (frameLen f) f.colour
    ({ s with sw := { s.sw with meters := tput {} s.sw.meters n r.2 } }, { f with colour := r.1 },
      decide (r.1 = 3) && decide (m.red = 1) && requestOp f.op)

/-! ### Mirroring (R321, R322) -/

/-- The frame's tenant allows payload capture. -/
def captureOk (s : State) (c : Nat) : Bool :=
  match tenantOf s (comp s c).tenant with
  | none => false
  | some e => decide ((comp s c).state ≠ 0) && (tenant s e).capture

/-- The 128 bytes of a copy: header bytes, and payload bytes where they may be captured. -/
def mirrorBytes (f : Frame) (payload : Bool) : Bytes := fitTo 128 (if payload then encodeFrame f else (encodeFrame f).take 48)

/-- The mirror record of a copy (*Mirror metadata*). -/
def mirrorRecord (s : State) (n dir : Nat) (m : Mirror) (f raw : Frame) (dropped : Bool) (inP : Nat) (outP : Option Nat) (q depth : Nat) : List W64 :=
  let p := outP.getD 0xFFFF
  let head := [w64 s.now,
    w64 (place 0 8 n + place 8 1 dir + place 9 1 (b2n (decide (128 < frameLen f))) + place 10 2 f.colour + place 12 1 (b2n dropped) + place 16 16 inP
      + place 32 16 p + place 48 8 f.tc + place 56 8 q),
    w64 (place 0 16 f.comp + place 16 16 (frameLen f) + place 32 32 depth), 0]
  head ++ bytesWords 28 (fitTo 224 (mirrorBytes raw (m.payload && captureOk s f.comp)))

/-- OP that the model gives a mirror copy on its way to the control complex; no LFP frame has it (log 65). -/
def mirrorOp : Nat := 0x10

/-- A mirror copy as a TC6 frame of one cell: its record without the zeros that end it. -/
def mirrorFrame (c : Nat) (r : List W64) : Frame :=
  let b := (wordsBytes r).take 160
  { op := mirrorOp, tc := 6, comp := c, len := b.length, data := b }

/-- A frame met by the sessions of a direction: every N-th match is copied, and the copy joins its queue to the control complex, or is
dropped where that has no room (R304, R321, R322). A copy is not copied again. -/
def mirrorAll (s : State) (dir p : Nat) (f raw : Frame) (dropped : Bool) (inP : Nat) (outP : Option Nat) (q depth : Nat) : State :=
  (s.sw.mirrors.filter fun x => decide (raw.op ≠ mirrorOp) && x.2.status.enabled && decide (x.2.dir = dir) && (decide (x.2.port = 255) || decide (x.2.port = p))
      && (x.2.anyComp || decide (x.2.comp = f.comp)) && x.2.tcMask.testBit f.tc).foldl (fun s x =>
    let m := { x.2 with seen := (x.2.seen + 1) % x.2.n }
    let s := { s with sw := { s.sw with mirrors := tput {} s.sw.mirrors x.1 m } }
    if m.seen ≠ 0 then s
    else
      let s := { s with sw := { s.sw with mirCopies := satInc s.sw.mirCopies 1 } }
      let y := mirrorFrame f.comp (mirrorRecord s x.1 dir m f raw dropped inP outP q depth)
      if alphaOk s 192 (queueOf s 192 y) 1 false then enqueue s 192 y p s.now
      else { s with sw := { s.sw with mirDrop := satInc s.sw.mirDrop 1 } }) s

end Sys2Proof.Machine
end

