-- ==== Sys2Proof/Machine/Switch.lean ====
section
/-! DEFINITION. Frames through the switch core: arrival, admission and refusal (R300–R310, R344, R354, R355),
departure (R313), gates and sampling (R316, R323), route holds (R261), and ports that go down (R319, R320). -/

namespace Sys2Proof.Machine

/-! ### Arrival -/

/-- The enabled window of a port that holds a window address (R355). -/
def windowAt (s : State) (p wa : Nat) : Option Window :=
  (s.pc.wins.find? fun w => decide (w.1 / 256 = p) && w.2.status.enabled && decide (w.2.base ≤ wa) && decide (wa < w.2.base + 2 ^ w.2.log2)).map (·.2)

/-- Bit of a window's rights that a request type needs; MSG needs none. -/
def windowNeeds (op : Nat) : Option Nat := if op = 0x01 then some 0 else if op = 0x02 ∨ op = 0x03 then some 1 else none

/-- A request of a window-mode port rewritten (R354, R355): the frame, or none with whether it counts as a miss. A MSG uses neither
REGION nor RKEY, and carries zero in both (R342). -/
def windowFrame (s : State) (p : Nat) (f : Frame) : Option Frame × Bool :=
  if ¬(f.op = 0x01 ∨ f.op = 0x02 ∨ f.op = 0x03 ∨ f.op = 0x07) then (none, false)
  else if f.dst / 2 ^ 40 ≠ 0 ∨ f.comp ≠ 0 ∨ f.region ≠ 0 ∨ f.rkey ≠ 0 ∨ f.stream ≠ 0 ∨ f.tag ≠ 0 ∨ f.issueT ≠ 0 ∨ f.rsw ≠ 0 then (none, false)
  else match windowAt s p f.dst with
    | none => (none, true)
    | some w =>
      if (windowNeeds f.op).any (fun b => !w.rights.testBit b) then (none, true)
      else
        let f := { f with dst := (w.fa + (f.dst - w.base)) % 2 ^ 60, src := w.srcId, comp := w.comp }
        (some (if f.op = 0x07 then f else { f with region := w.region, rkey := w.rkey }), false)

/-- What a fabric port refuses before the core: unknown types, markers and probes from others than switches, foreign
sources, requests of a memory port, and one request too many (R256, R258, R266, R344). 0 when it refuses nothing. -/
def ingressRefusal (s : State) (p : Nat) (f : Frame) : Nat :=
  let x := port s p
  if f.op = 0x0F then 0
  else if f.op = 0 ∨ 0x0C < f.op then 3
  else if x.profile = 2 then 3
  else if x.profile ≠ 0 ∧ 0x0B ≤ f.op then 3
  else if x.profile = 1 ∧ ¬(x.peerId ≤ f.src ∧ f.src < x.peerId + x.peerCount ∧ f.src < 0xF000 ∧ f.rsw = 0) then 3
  else if nonPosted f.op = true ∧ 8192 ≤ (tget [] s.te.portOut p).length then 1
  else 0

/-- A frame as this switch carries it on: a request from others than switches was first admitted here, and a status
the spec does not define reads RIGHTS (R291, R342). -/
def adopt (s : State) (p : Nat) (f : Frame) : Frame :=
  if (port s p).profile = 0 then f
  else if f.op = 0x0F then (if 0x0E < f.status then { f with status := 3 } else f)
  else { f with rsw := s.swNum }

/-- A request toward a route with drain markers out is held (R261). -/
def routeHolds (s : State) (f : Frame) : Bool :=
  requestOp f.op && decide (faSwitch f.dst ≠ s.swNum) && decide ((route s (faSwitch f.dst)).draining ≠ [])

/-- A request held for a route change; of this switch's own, its outstanding request is marked. -/
def holdFrame (s : State) (f : Frame) : State :=
  let s := teCount s 10 1
  let own := s.te.outst.find? fun o => decide (o.frame.stream = f.stream) && decide (o.frame.tag = f.tag) && decide (o.frame.src = f.src) && decide (o.frame.dst = f.dst)
  match own with
  | none => { s with te := { s.te with holds := s.te.holds ++ [{ frame := f, issued := s.now }] } }
  | some o => { s with te := { s.te with holds := s.te.holds ++ [{ o with frame := f }]
                                         outst := s.te.outst.map fun x => if x = o then { x with held := true } else x } }

/-- A frame of a drop-eligible class dropped at a port: a TC4 request draws a drop notice (R305). -/
def dropFrame (s : State) (p : Nat) (f : Frame) : State :=
  if f.tc = 4 ∧ requestOp f.op = true then
    sendOut (swCount s p 1 1) { mkCpl f 1 [] with tc := 2, dropped := true, tag := if f.op = 0x03 then 0xFFFF else f.tag } (backBy s p)
  else s

/-- A frame with no port that is up: a request ends with PATH_LOST, a completion is discarded (R299). The status of a multicast copy
goes to the store it is of (R277). -/
def loseFrame (s : State) (p : Nat) (f : Frame) : State :=
  if f.op = 0x0F then swCount (portOutDone s f) p 3 1 else endRequest s f 6 (if endsOwn s f then none else backBy s p)

/-- A metered frame is counted against its port (R266) and lands in the reserve, or for a drop-eligible class is
admitted or dropped (R304). True when it was dropped or refused. -/
def landFrame (s : State) (p : Nat) (f : Frame) : State × Bool :=
  let s := if nonPosted f.op then { s with te := { s.te with portOut := tmod [] s.te.portOut p fun l => l ++ [(f.src, f.stream, f.tag, f.tc)] } } else s
  if lossless f.tc then
    let x := port s p
    let s := setPort s p { x with granted := tmod 0 x.granted f.tc fun g => g - frameCells f }
    let y := swPort s p
    (setSwPort s p { y with waiting := y.waiting ++ [{ f := f, inPort := p, cells := frameCells f, since := s.now }] }, false)
  else if f.op = 0x06 ∧ (port s p).profile ≠ 0 then (endRequest s f 3 (backBy s p), true)
  else if routeHolds s f then (holdFrame s f, false)
  else match egressPort (egressOf s { f := f }) with
    | none => (loseFrame s p f, true)
    | some e =>
      if alphaOk s e (queueOf s e f) (frameCells f) (decide (2 ≤ f.colour)) then (enqueue s e (stampRoute s f) p s.now, false)
      else (dropFrame (swCount s p 0 1) p f, true)

/-- Effects of a red frame that RED REFUSE stops (R310). -/
def redRefuse (s : State) (p : Nat) (f : Frame) : State :=
  let s := swCount s p 6 1
  if lossless f.tc then endRequest (creditBack s p f) f 1 (backBy s p) else dropFrame s p f

/-- A frame rewritten and judged at its port: the state, the frame as carried, and whether it was dropped or refused. -/
def judgeFrame (s : State) (p : Nat) (f : Frame) : State × Frame × Bool :=
  let w := if (port s p).mode = 1 ∧ f.op ≠ 0x0F then windowFrame s p f else (some f, false)
  match w with
  | (none, miss) => (endRequest (creditBack (if miss then pcCount s p 7 1 else s) p f) f 3 (some p), f, true)
  | (some f, _) =>
    let r := ingressRefusal s p f
    if r ≠ 0 then (endRequest (creditBack (if r = 1 then teCount s 6 1 else s) p f) f r (backBy s p), f, true)
    else
      let m := meterFrame s p (adopt s p f)
      if m.2.2 then (redRefuse m.1 p m.2.1, m.2.1, true)
      else
        let l := landFrame m.1 p m.2.1
        (l.1, m.2.1, l.2)

/-- The port's link layer refuses transaction frames while FENCE_ALL stands (R541). -/
def fenceFrame (s : State) (p : Nat) (f : Frame) : State :=
  if f.op = 0x0F then s
  else
    let a := { mkCpl f 9 [] with tag := if f.op = 0x03 then 0xFFFF else f.tag }
    pumpPort (startWake (setPort s p { port s p with answers := (port s p).answers ++ [a] }) p) p

/-- A frame that has entered at a port meets the ingress sessions, as it was received (R321). -/
def ingressSeen (s : State) (p : Nat) (f raw : Frame) (dropped : Bool) : State :=
  let e := egressPort (egressOf s { f := f })
  let q := match e with
    | none => 0
    | some e => queueOf s e f
  let depth := match e with
    | none => 0
    | some e => queueCells (queue s e q)
  mirrorAll s 0 p f raw dropped p e q depth

/-- A frame of a drop-eligible class meets a full ingress FIFO (R298, R304, R305). -/
def fifoDrop (s : State) (p : Nat) (f : Frame) : State := ingressSeen (dropFrame (swCount s p 0 1) p f) p f f true

/-- A frame leaves its port's ingress FIFO. Once that is no longer full, the credits withheld are granted (R298). -/
def leaveFifo (s : State) (p : Nat) (f : Frame) : State :=
  let x := port s p
  let y := { x with rxFrames := x.rxFrames.erase f }
  let s := setPort s p y
  if fifoFull x && !fifoFull y then regrantAll s p else s

/-- FRAME_INGRESS (R298, R300, R305, R309, R322): a frame leaves a fabric port's ingress FIFO and is judged. -/
def execFrameIngress (f : Frame) (port_ : Nat) (s : State) : Host.Outcome State Fault Refusal :=
  .next (if working s && portUp s port_ then
    let s := leaveFifo s port_ f
    let j := if s.cc.fenceAll then (fenceFrame s port_ f, f, true) else judgeFrame s port_ f
    ingressSeen j.1 port_ j.2.1 f j.2.2
  else s)

/-! ### Admission -/

/-- A frame admitted at its egress, with a count of its own for the port it came from; none where its queue has no
room (R300). -/
def admitAt (s : State) (p : Nat) (o : OutFrame) (since : Nat) : Option State :=
  match egressPort (egressOf s o) with
  | none => some (loseFrame s p o.f)
  | some e =>
    if alphaOk s e (queueOf s e o.f) (frameCells o.f) false then
      some (enqueue (portOutDone s o.f) e (if o.via.isSome then o.f else stampRoute s o.f) p since)
    else none

/-- Frames admitted one after another, all or none (R303, R307), with how many have joined queues. -/
def admitAll (p since : Nat) : State → List OutFrame → Option (State × Nat)
  | s, [] => some (s, 0)
  | s, o :: t => match if routeHolds s o.f then some (holdFrame s o.f) else admitAt s p o since with
    | none => none
    | some s' => (admitAll p since s' t).map fun r =>
      (r.1, r.2 + b2n (!routeHolds s o.f && (egressPort (egressOf s o)).isSome))

/-- A multicast store at its first switch: refused, or its copies admitted together or not at all (R276, R307). -/
def admitMcw (s : State) (p : Nat) (f : Frame) (since : Nat) : Option State :=
  match mcwStatus s f with
  | 0 => (admitAll p since (mcwKeep s f) ((mcwCopies s f).map fun c => { f := c })).map fun r => swCount r.1 p 5 r.2
  | st => some (answer (if st = 9 then teCount s 7 1 else s) f st)

/-- The frame is a copy of a multicast store that has been replicated (R276, R307). -/
def isCopy (s : State) (p : Nat) (f : Frame) : Bool :=
  if p < 192 then decide ((port s p).profile = 0)
  else s.te.outst.any fun o => decide (o.frame.stream = f.stream) && decide (o.frame.tag = f.tag) && (match o.what with
    | .mcwCopy _ _ => true
    | _ => false)

/-- A frame that stands at an ingress port goes on: held, replicated, or admitted; none where it has to wait. -/
def admitFrame (s : State) (p : Nat) (o : OutFrame) (since : Nat) : Option State :=
  if o.via.isNone && decide (o.f.op = 0x06) && !isCopy s p o.f then admitMcw s p o.f since
  else if o.via.isNone && routeHolds s o.f then some (holdFrame s o.f)
  else admitAt s p o since

/-- No earlier frame that a waiting frame may not pass: of its class (R301), and for a drain marker of its
destination (R261). -/
def firstInReserve (l : List QFrame) (i : Nat) (f : Frame) : Bool :=
  (l.take i).all fun w => decide (w.f.tc ≠ f.tc) &&
    (decide (f.op ≠ 0x0B) || decide (w.f.op = 0x0F) || decide (faSwitch w.f.dst ≠ faSwitch f.dst))

/-- MCW_REQUEST (R276, R307): a multicast store enters its first switch, and waits there until its copies are admitted together. -/
def execMcwRequest (f : Frame) (s : State) : Host.Outcome State Fault Refusal :=
  .next (if working s && decide (f.op = 0x06) then
    (admitMcw s (if f.src < 0xF000 then (endpointPort s f.src).getD 192 else 192) f s.now).getD s
  else s)

/-- A request of this switch's own is first admitted here (R342). -/
def ownRsw (s : State) (f : Frame) : Frame := if f.op ≠ 0x0F ∧ f.src = ownId s then { f with rsw := s.swNum } else f

/-- FRAME_ADMIT (R300, R301, R303, R307): the frame at place `i` of an ingress port's reserve, or of those that
wait at the internal ports. DESIGN CHOICE (log 128): the internal ports share one order of arrival for each class. -/
def execFrameAdmit (port_ : Nat) (i : Nat) (s : State) : Host.Outcome State Fault Refusal :=
  .next (if !working s then s
  else if port_ < 192 then
    match (swPort s port_).waiting[i]? with
    | none => s
    | some w =>
      if firstInReserve (swPort s port_).waiting i w.f then
        (match admitFrame s port_ { f := w.f } w.since with
        | none => s
        | some s => leaveReserve s port_ i)
      else s
  else if port_ < 200 then
    match s.te.out[i]? with
    | none => s
    | some o =>
      if (s.te.out.take i).any (fun x => decide (x.f.tc = o.f.tc)) then s
      else
        let o' := { o with f := ownRsw s o.f }
        match admitFrame { s with te := { s.te with out := s.te.out.eraseIdx i } } port_ o' s.now with
        | none => s
        | some s => ingressSeen s port_ o'.f o'.f false
  else s)

/-- ADMISSION_TIMEOUT (R302): a request frame that has waited ADM_WAIT leaves the reserve with RETRY_LATER. -/
def execAdmissionTimeout (port_ : Nat) (i : Nat) (s : State) : Host.Outcome State Fault Refusal :=
  .next (if working s && decide (port_ < 192) then
    match (swPort s port_).waiting[i]? with
    | none => s
    | some w =>
      if requestOp w.f.op && decide (w.since + (swPort s port_).admWait * 1000 ≤ s.now) then
        endRequest (swCount (leaveReserve s port_ i) port_ 2 1) w.f 1 (backBy s port_)
      else s
  else s)

/-! ### Departure -/

/-- The head frame of a queue leaves: its credit is spent, the tags move on, egress sessions see it, and a fabric
port sends it (R300, R313, R321). A mirror copy that leaves for the control complex is written to its ring (R322). -/
def depart (s : State) (p q : Nat) (w : QFrame) : State :=
  let x := queue s p q
  let depth := queueCells x
  let s := setQueue s p q { x with frames := x.frames.tail }
  let s := if p < 192 ∧ lossless w.f.tc = true then
      setPort s p { port s p with credit := tmod 0 (port s p).credit w.f.tc fun c => c - w.cells } else s
  let s := tagsAfter s p q x.sTag (finishTag x)
  let s := mirrorAll (wakeAll s p) 1 p w.f w.f false w.inPort (some p) q depth
  if p < 192 then sendFrame s p w.f
  else if w.f.op = mirrorOp then ringWrite s 16 (bytesWords 32 (fitTo 256 w.f.data)) else s

/-- EGRESS_SELECT (R313, R334): the eligible head frame of the lowest finish tag is sent. A dozing port sends WAKE
instead, and the frame waits 1.2 µs. -/
def execEgressSelect (port_ : Nat) (s : State) : Host.Outcome State Fault Refusal :=
  .next (if working s && (portNamed s port_ || decide (192 ≤ port_ ∧ port_ < 200)) then
    let s := wakeAll s port_
    match bestQueue s port_ (List.range 64) with
    | none => s
    | some q =>
      match (queue s port_ q).frames.head? with
      | none => s
      | some w =>
        if port_ < 192 ∧ (port s port_).dozeTx = true then
          startWake s port_
        else if port_ < 192 ∧ replayRoom (port s port_) (groupFlits (port s port_) (frameLen w.f)) = false then s
        else depart s port_ q w
  else s)

/-- GATE_ENTRY_BOUNDARY (R317): the gates that the active list's present entry opens decide which queues are eligible. -/
def execGateEntryBoundary (port_ : Nat) (s : State) : Host.Outcome State Fault Refusal :=
  .next (if working s && decide (port_ < 192) && decide ((swPort s port_).active ≠ 0) then wakeAll s port_ else s)

/-- The deactivation of the active list takes effect at the end of its cycle. -/
def stopGates (x : SwPort) (now : Nat) : SwPort :=
  match x.stop with
  | none => x
  | some t => if t ≤ now then { x with active := 0, stop := none } else x

/-- The accepted list becomes active at its first cycle start, in place of the one that was, whose deactivation falls away. -/
def startGates (x : SwPort) (now : Nat) : SwPort :=
  match x.next with
  | none => x
  | some n =>
    if n.start ≤ now then
      setGateList { x with active := n.list, next := none, stop := none } n.list { gateList x n.list with cycle := n.cycle, count := n.count, base := n.base }
    else x

/-- GATE_CYCLE_START (R316): a deactivation takes effect, or an accepted list becomes active; a port with an active list does not
doze (R334). -/
def execGateCycleStart (port_ : Nat) (s : State) : Host.Outcome State Fault Refusal :=
  .next (if working s && decide (port_ < 192) then
    let x := stopGates (swPort s port_) s.now
    let x := startGates x s.now
    if x = swPort s port_ then s
    else
      let s := wakeAll (setSwPort s port_ x) port_
      if x.active ≠ 0 then startWake s port_ else s
  else s)

/-- Bucket of a head delay (R323). -/
def delayBucket (d : Nat) : Nat := ((List.range 15).find? fun b => decide (d < 64 * 2 ^ (b + 1))).getD 15

/-- One queue sampled: its depth and head delay, its histogram, and with RECORD a record of the telemetry ring. -/
def sampleQueue (s : State) (p q : Nat) : State :=
  let x := queue s p q
  let d := match x.frames.head? with
    | none => 0
    | some w => s.now - w.since
  let k := (p * 64 + q) * 16 + delayBucket d
  let s := { s with sw := { s.sw with hist := tmod 0 s.sw.hist k fun c => satInc c 1 } }
  if (swPort s p).smpRecord then
    ringWrite s 17 ([w64 (1 + place 8 8 p + place 16 6 q), w64 s.now, w64 (queueCells x), w64 d] ++ List.replicate 4 0)
  else s

/-- QUEUE_SAMPLE (R323): at a multiple of PERIOD. -/
def execQueueSample (port_ : Nat) (s : State) : Host.Outcome State Fault Refusal :=
  .next (if working s && (swPort s port_).smpOn && decide (s.now % (swPort s port_).smpPeriod = 0) then
    (List.range 64).foldl (fun s q => if bit (swPort s port_).smpMask q then sampleQueue s port_ q else s) s
  else s)

/-! ### Route changes -/

/-- ROUTE_DRAIN_ACK (R261): every marker of the old routes is acknowledged, and the held requests go on. -/
def execRouteDrainAck (switch : Nat) (s : State) : Host.Outcome State Fault Refusal :=
  .next (if working s && decide ((route s switch).draining = []) then
    let l := s.te.holds.filter fun o => decide (faSwitch o.frame.dst = switch)
    let freed := fun (o : OutReq) => l.any fun x => decide (x.frame.stream = o.frame.stream) && decide (x.frame.tag = o.frame.tag) && decide (x.frame.src = o.frame.src)
    { s with te := { s.te with holds := s.te.holds.filter fun o => decide (faSwitch o.frame.dst ≠ switch)
                               out := l.map (fun o => { f := o.frame }) ++ s.te.out
                               outst := s.te.outst.map fun o => if freed o then { o with held := false } else o } }
  else s)

/-- ROUTE_HOLD_TIMEOUT (R261): a held request reaches its completion timeout and ends with PATH_LOST. -/
def execRouteHoldTimeout (i : Nat) (s : State) : Host.Outcome State Fault Refusal :=
  .next (if working s then
    match s.te.holds[i]? with
    | none => s
    | some h =>
      if h.issued + ctoNs s h.frame.comp ≤ s.now then
        let s := { s with te := { s.te with holds := s.te.holds.eraseIdx i } }
        match outEnds s h.frame with
        | some o => reqDone (outDrop s o) o 6 false false []
        | none => endRequest s h.frame 6 none
      else s
  else s)

/-! ### Ports that go down -/

/-- Peers whose port a port is: its partner, and the switches that no port that is up leads to any more (R530). -/
def peersAt (s : State) (p : Nat) (lost : Bool) : List Nat :=
  let x := port s p
  let direct := if x.profile = 1 then (List.range x.peerCount).map fun i => peerKey 0 (x.peerId + i)
    else if x.profile = 2 then [peerKey 2 p]
    else if x.profile = 0 then [peerKey 1 x.peerId] else []
  let far := (s.sw.routes.filter fun r => r.2.present && r.2.ports.contains p && (!lost || decide ((routePorts s r.1).all (· = p)))).map fun r => peerKey 1 r.1
  (direct ++ far).eraseDups

/-- A port's link forgets its partner; what arrived before stays. -/
def linkReset (x : Port) (st now : Nat) : Port :=
  { x with state := st, stateT := now, width := 0, peerId := 0, peerCount := 0, profile := 0xF, peerGraver := 0, linkVer := 0, peerCap := 0, memCap := 0,
           authFail := false, protActive := false, epMismatch := false, keySel := 0, rxKeySel := 0, dozeTx := false, dozeRx := false, wakeAt := none,
           txSeq := 0, replay := [], rxSeq := 0, nak := false, rxPart := [], rxLinks := [], txLinks := [], answers := [], keyPart := [], credit := [], seenRet := [], granted := [],
           returned := [], txKey := [], rxKey := [], txGroup := 0, rxGroup := 0, rxSealed := [], macFails := 0, rxReady := false, keyOut := none, lost := none, timeX := none, capsSeen := false }

/-- Physical lane of the spare of a pair (R328). -/
def spareLane (k : Nat) : Nat := 68 * (k / 4) + 64 + k % 4

/-- A physical lane. -/
def lane (s : State) (l : Nat) : Lane := tget {} s.pc.lanes l
/-- A physical lane replaced. -/
def setLane (s : State) (l : Nat) (x : Lane) : State := { s with pc := { s.pc with lanes := tput {} s.pc.lanes l x } }

/-- A lane swap of a pair ends; the SPARE.SWAP that waits for it completes with a reason. -/
def swapEnds (s : State) (k reason : Nat) : State :=
  let x := pair s k
  let s := setPair s k { x with swap := 0, lane := 0, port := 0, peerSeq := none, reqCs := none }
  match x.reqCs with
  | none => s
  | some cs => ctlComplete s cs reason none (if reason = 0 then some (stampKey okSwap (2 * 2 ^ 16 + x.lane)) else none) 32

/-- A swap under way on a port that goes down ends with it: its lane is on a port that is not up. -/
def dropSwap (s : State) (p : Nat) : State :=
  let k := p / 4
  if (pair s k).swap ≠ 0 ∧ (pair s k).port = p then
    swapEnds (setLane s (spareLane k) { lane s (spareLane k) with port := 0xFF, logical := 0xF, state := 1 }) k 0x0708
  else s

/-- The spare lane of a pair, where it serves a port, is idle again. -/
def freeSpare (s : State) (p : Nat) : State :=
  let sp := spareLane (p / 4)
  if (lane s sp).port = p then
    setLane (setPair s (p / 4) { pair s (p / 4) with used := false }) sp { lane s sp with port := 0xFF, logical := 0xF, state := 1 }
  else s

/-- Lanes of a port go dark, but for failed ones (`PC_LANE`), and the spare is free again (R332). -/
def darkLanes (s : State) (p : Nat) : State :=
  let s := freeSpare s p
  { s with pc := { s.pc with lanes := tmap {} s.pc.lanes fun _ l => if l.port = p then { l with port := 0xFF, logical := 0xF, state := if l.state = 4 then 4 else 6 } else l } }

/-- A new route epoch for every destination whose entry names a port (R299). -/
def reopenRoutes (s : State) (p : Nat) : State :=
  (s.sw.routes.filter fun r => r.2.present && r.2.ports.contains p).foldl (fun s r => changeRoute s r.1 true r.2.ports) s

/-- A port moves to a down state: if it was up, its peers become suspect, route epochs open, and in service mode
its queues flush (R299, R319, R530). -/
def portGoesDown (s : State) (p st : Nat) : State :=
  if portUp s p then
    let peers := peersAt s p true
    let s := peers.foldl (fun s k => suspect s k 0) s
    let s := darkLanes (setPort (dropSwap s p) p (linkReset (port s p) st s.now)) p
    let s := { s with ta := { s.ta with sess := tput {} s.ta.sess (16 + p) {} } }
    let s := reopenRoutes s p
    if agingMode s p then wakeAll s p else flushPort s p
  else darkLanes (setPort { s with ta := { s.ta with sess := tput {} s.ta.sess (16 + p) {} } } p (linkReset (port s p) st s.now)) p

/-- PORT_DOWN (R319, R331): the link of a port that was up is lost. -/
def execPortDown (port_ : Nat) (s : State) : Host.Outcome State Fault Refusal :=
  .next (if mainUp s && portUp s port_ then portGoesDown s port_ 1 else s)

/-- FRAME_AGE_OUT (R320): in aging mode the oldest frame of a queue past AGE_LIMIT is discarded. -/
def execFrameAgeOut (port_ : Nat) (q : Nat) (s : State) : Host.Outcome State Fault Refusal :=
  .next (if mainUp s && agingMode s port_ && decide (q < 64) then
    let x := queue s port_ q
    match x.frames.findIdx? fun w => decide (w.since + (swPort s port_).ageLimit * 1000 < s.now) with
    | none => s
    | some i =>
      match x.frames[i]? with
      | none => s
      | some w => flushOne (wakeAll (swCount (setQueue s port_ q { x with frames := x.frames.eraseIdx i }) port_ 4 1) port_) w.f
  else s)

/-- AGING_TO_SERVICE (R320): the queues of a down port that is in service mode are flushed. -/
def execAgingToService (port_ : Nat) (s : State) : Host.Outcome State Fault Refusal :=
  .next (if mainUp s && portNamed s port_ && !portUp s port_ && !agingMode s port_ then flushPort s port_ else s)

end Sys2Proof.Machine
end

