-- ==== Sys2Proof/Machine/Manager.lean ====
section
/-! DEFINITION. The objects of the switch core: MCGROUP (R306), METER (R308), SCHED (R311), GATE (R315, R316) and
MIRROR (R321), with the checks of R324. -/

namespace Sys2Proof.Machine

/-! ### Multicast groups -/

/-- A multicast group replaced. -/
def setGroup (s : State) (g : Nat) (x : McGroup) : State := { s with sw := { s.sw with groups := tput {} s.sw.groups g x } }

/-- Masks of the MCGROUP descriptor. -/
def groupMasks : List Nat := [fmask 0 2 + fmask 16 14 + fmask 32 7 + fmask 48 12, fmask 0 60, fmask 0 7 + fmask 8 2 + fmask 32 16, 1]

/-- A refused MCGROUP commit. -/
def groupRefuse (s : State) (g r : Nat) : CtlRes :=
  let x := group s g
  let y := { x with status := refused x.status r }
  refuse (setGroup s g y) r (some (statusWord y.status))

/-- A group that a composition has enabled is that composition's while it stands (R254). -/
def groupKept (s : State) (q : CtlSeq) (x : McGroup) : Bool := x.owned && decide ((comp s x.comp).state ≠ 0) && !reaches q x.comp

/-- Checks of a GROUP form that enables (R306, R324). -/
def groupReason (s : State) (q : CtlSeq) (d : List W64) : Nat :=
  let c := df d 0 48 12
  let x := group s (df d 0 16 14)
  firstFail [
    (!reaches q c || groupKept s q x, 3),
    (decide ((comp s c).state = 0), 8),
    (reservedSet d groupMasks, 9),
    (decide (df d 0 0 2 ≠ 0) || decide (df d 2 8 2 = 3), 4),
    ((List.range (df d 2 0 7 + 1)).any fun i => (tget none x.members i).isNone, 0x0602),
    (decide (df d 2 8 2 = 2) && !memberOf s c (df d 2 32 16), 0x0603)]

/-- COMMIT_MCGROUP_GROUP (R306), and the reserved FORMs, which are refused. -/
def execCommitMcgroupGroup (cs : Nat) (s : State) : Host.Outcome State Fault Refusal :=
  .next (runCtl s cs 0xE8 (fun d => decide (df d 0 0 2 ≠ 1)) (fun d => stampKey okMcGroup (df d 0 16 14))
    (fun s d => some (statusWord (group s (df d 0 16 14)).status)) fun s q d =>
    let g := df d 0 16 14
    let x := group s g
    let r := if enableOf d ∨ df d 0 0 2 ≠ 0 then groupReason s q d else if !reaches q (df d 0 48 12) || groupKept s q x then 3 else 0
    if r ≠ 0 then groupRefuse s g r
    else
      let y : McGroup := if enableOf d then
          { x with status := accepted x.status, owned := true, comp := df d 0 48 12, count := df d 2 0 7, senders := df d 2 8 2, sender := df d 2 32 16 }
        else { x with status := { x.status with enabled := false, reason := 0 } }
      { s := setGroup s g y, status := some (statusWord y.status), obj := some (stampKey okMcGroup g), size := 64 })

/-- Checks of a MEMBER form (R306, R324): a group of another composition is out of reach (R254). -/
def memberReason (s : State) (q : CtlSeq) (d : List W64) : Nat :=
  let x := group s (df d 0 16 14)
  firstFail [
    (groupKept s q x, 3),
    (x.status.enabled, 1),
    (reservedSet d groupMasks, 9),
    (enableOf d && decide (df d 1 0 60 % 256 ≠ 0), 4)]

/-- COMMIT_MCGROUP_MEMBER (R306). -/
def execCommitMcgroupMember (cs : Nat) (s : State) : Host.Outcome State Fault Refusal :=
  .next (runCtl s cs 0xE8 (fun d => decide (df d 0 0 2 = 1)) (fun d => stampKey okMcGroup (df d 0 16 14 + 2 ^ 14 * (df d 0 32 7 + 1)))
    (fun s d => some (statusWord (group s (df d 0 16 14)).status)) fun s q d =>
    let g := df d 0 16 14
    let x := group s g
    let r := memberReason s q d
    if r ≠ 0 then groupRefuse s g r
    else
      let y := { x with status := { x.status with reason := 0 }, members := tput none x.members (df d 0 32 7) (if enableOf d then some (df d 1 0 60) else none) }
      { s := setGroup s g y, status := some (statusWord y.status), obj := some (stampKey okMcGroup (g + 2 ^ 14 * (df d 0 32 7 + 1))), size := 64 })

/-! ### Meters -/

/-- A meter. -/
def meter (s : State) (m : Nat) : Meter := tget {} s.sw.meters m
/-- A meter replaced. -/
def setMeter (s : State) (m : Nat) (x : Meter) : State := { s with sw := { s.sw with meters := tput {} s.sw.meters m x } }

/-- A named fabric port and a named composition lie in different partitions (0x0007). -/
def partsDiffer (s : State) (p c : Nat) (anyC : Bool) : Bool := decide (p < 192) && !anyC && decide ((port s p).part ≠ (comp s c).part)

/-- Checks of a METER that enables (R308, R324). -/
def meterReason (s : State) (d : List W64) : Nat :=
  let p := df d 0 16 8
  let anyC := bit (wd d 0) 44
  firstFail [
    (partsDiffer s p (df d 0 32 12) anyC, 7),
    (!anyC && decide ((comp s (df d 0 32 12)).state = 0), 8),
    (reservedSet d [fmask 0 14 + fmask 15 1 + fmask 16 8 + fmask 32 13 + fmask 48 10, fmask 0 24 + fmask 32 24, fmask 0 24 + fmask 32 24, 1], 9),
    (decide (192 ≤ p ∧ p ≤ 254) || decide (2 ≤ df d 0 56 2) || decide (df d 1 32 24 = 0) || decide (df d 2 0 24 < 4352) || decide (df d 2 32 24 < 4352), 4),
    (decide (df d 1 32 24 < df d 1 0 24), 0x0604)]

/-- The meter a descriptor describes, both buckets full; its counters go on. -/
def meterOf (x : Meter) (now : Nat) (d : List W64) : Meter :=
  { x with status := accepted x.status, aware := bit (wd d 0) 15, port := df d 0 16 8, comp := df d 0 32 12, anyComp := bit (wd d 0) 44,
           tcMask := df d 0 48 8, red := df d 0 56 2, cir := df d 1 0 24, pir := df d 1 32 24, cbs := df d 2 0 24, pbs := df d 2 32 24,
           tc := df d 2 0 24 * 8000, tp := df d 2 32 24 * 8000, last := now }

/-- COMMIT_METER (R308). -/
def execCommitMeter (cs : Nat) (s : State) : Host.Outcome State Fault Refusal :=
  .next (runCtl s cs 0xE9 (fun _ => true) (fun d => stampKey okMeter (df d 0 0 14)) (fun s d => some (statusWord (meter s (df d 0 0 14)).status)) fun s _ d =>
    let m := df d 0 0 14
    let x := meter s m
    let r := if enableOf d then meterReason s d else 0
    if r ≠ 0 then
      let y := { x with status := refused x.status r }
      refuse (setMeter s m y) r (some (statusWord y.status))
    else
      let y := if enableOf d then meterOf x s.now d else { x with status := { x.status with enabled := false, reason := 0 } }
      { s := setMeter s m y, status := some (statusWord y.status), obj := some (stampKey okMeter m), size := 64 })

/-! ### Scheduling -/

/-- Masks of the SCHED descriptor. -/
def schedMasks : List Nat :=
  [fmask 0 2 + fmask 8 8 + fmask 16 6 + fmask 32 12, fmask 0 13 + fmask 16 3 + fmask 32 3, fmask 0 42 + fmask 48 16, 1]

/-- RESERVE of a port at reset (R311). -/
def resetReserve (s : State) (p : Nat) : Nat := if (pair s (p / 4)).split then 192 else 384

/-- COMMIT_SCHED_QUEUE (R311), and the reserved FORM 3, which is refused. -/
def execCommitSchedQueue (cs : Nat) (s : State) : Host.Outcome State Fault Refusal :=
  .next (runCtl s cs 0xEA (fun d => decide (df d 0 0 2 = 0 ∨ df d 0 0 2 = 3)) (fun d => stampKey okSched (df d 0 8 8 * 64 + df d 0 16 6))
    (fun s d => some (statusWord (queue s (df d 0 8 8) (df d 0 16 6)).status)) fun s _ d =>
    let p := df d 0 8 8
    let q := df d 0 16 6
    let x := queue s p q
    let r := firstFail [
      (enableOf d && reservedSet d schedMasks, 9),
      (decide (199 < p) || decide (df d 0 0 2 = 3) || (enableOf d && !decide (1 ≤ df d 1 0 13 ∧ df d 1 0 13 ≤ 4096)), 4)]
    if r ≠ 0 then
      let y := { x with status := refused x.status r }
      refuse (if p < 200 then setQueue s p q y else s) r (some (statusWord y.status))
    else
      let y := if enableOf d then { x with status := accepted x.status, weight := df d 1 0 13, alpha := df d 1 16 3 }
        else { x with status := { x.status with enabled := true, reason := 0 }, disabled := false, weight := 256, alpha := 5 }
      { s := setQueue s p q y, status := some (statusWord y.status), obj := some (stampKey okSched (p * 64 + q)) })

/-- Shared cells that would remain with another RESERVE of a port (0x0601). -/
def sharedWith (s : State) (p reserve : Nat) : Nat := 786432 - reservedCells (setSwPort s p { swPort s p with reserve := reserve })

/-- COMMIT_SCHED_PORT (R311, R324). -/
def execCommitSchedPort (cs : Nat) (s : State) : Host.Outcome State Fault Refusal :=
  .next (runCtl s cs 0xEA (fun d => decide (df d 0 0 2 = 1)) (fun d => stampKey okSched (2 ^ 20 + df d 0 8 8))
    (fun s d => some (statusWord (swPort s (df d 0 8 8)).status)) fun s _ d =>
    let p := df d 0 8 8
    let x := swPort s p
    let age := df d 2 0 32
    let adm := df d 2 32 10
    let res := if p < 192 ∧ enableOf d = true then df d 2 48 16 else resetReserve s p
    let r := firstFail [
      (enableOf d && reservedSet d schedMasks, 9),
      (decide (199 < p) || (enableOf d && (!decide (100 ≤ age ∧ age ≤ 100000) || !decide (1 ≤ adm ∧ adm ≤ 1000)
        || (decide (p < 192) && !decide (64 ≤ res ∧ res ≤ 4096)))), 4),
      (enableOf d && decide (sharedWith s p res < 262144), 0x0601)]
    if r ≠ 0 then
      let y := { x with status := refused x.status r }
      refuse (if p < 200 then setSwPort s p y else s) r (some (statusWord y.status))
    else
      let y := if enableOf d then { x with status := accepted x.status, ageLimit := age, admWait := adm, reserve := res }
        else { x with status := { x.status with enabled := false, reason := 0 }, ageLimit := 2000, admWait := 8, reserve := res }
      { s := [0, 1, 2, 3, 5].foldl (fun s tc => regrant s p tc) (setSwPort s p y), status := some (statusWord y.status),
        obj := some (stampKey okSched (2 ^ 20 + p)) })

/-- COMMIT_SCHED_SHARE (R311). -/
def execCommitSchedShare (cs : Nat) (s : State) : Host.Outcome State Fault Refusal :=
  .next (runCtl s cs 0xEA (fun d => decide (df d 0 0 2 = 2)) (fun d => stampKey okSched (2 ^ 21 + df d 0 32 12))
    (fun s d => some (statusWord (tget {} s.sw.shareSt (df d 0 32 12)))) fun s _ d =>
    let c := df d 0 32 12
    let x : ObjStatus := tget {} s.sw.shareSt c
    let r := if enableOf d then firstFail [(decide ((comp s c).state = 0), 8), (reservedSet d schedMasks, 9)] else 0
    let y := if r ≠ 0 then refused x r else if enableOf d then accepted x else { x with enabled := false, reason := 0 }
    let s := { s with sw := { s.sw with shareSt := tput {} s.sw.shareSt c y } }
    if r ≠ 0 then refuse s r (some (statusWord y))
    else
      { s := { s with sw := { s.sw with share := tput 0 s.sw.share c (if enableOf d then df d 1 32 3 else 0) } },
        status := some (statusWord y), obj := some (stampKey okSched (2 ^ 21 + c)) })

/-! ### Gates -/

/-- Masks of the GATE descriptor. -/
def gateMasks : List Nat := [fmask 0 2 + fmask 8 9 + fmask 24 8, fmask 0 24 + fmask 32 8, fmask 0 64, 1]

/-- The list a GATE descriptor names. -/
def gateSel (d : List W64) : Nat := df d 0 16 1 + 1

/-- Stamp key of a gate list of a port, or of one entry. -/
def gateKey (d : List W64) (entry : Bool) : Nat :=
  stampKey okGate ((df d 0 8 8 * 2 + df d 0 16 1) * 512 + if entry then df d 0 24 8 + 1 else 0)

/-- A refused GATE commit. -/
def gateRefuse (s : State) (d : List W64) (r : Nat) : CtlRes :=
  let p := df d 0 8 8
  let x := swPort s p
  let g := gateList x (gateSel d)
  let g := { g with status := refused g.status r }
  refuse (if p < 192 then setSwPort s p (setGateList x (gateSel d) g) else s) r (some (statusWord g.status))

/-- COMMIT_GATE_ENTRY (R315, R324), and the reserved FORMs, which are refused. -/
def execCommitGateEntry (cs : Nat) (s : State) : Host.Outcome State Fault Refusal :=
  .next (runCtl s cs 0xEB (fun d => decide (df d 0 0 2 ≠ 1)) (fun d => gateKey d true)
    (fun s d => some (statusWord (gateList (swPort s (df d 0 8 8)) (gateSel d)).status)) fun s _ d =>
    let p := df d 0 8 8
    let x := swPort s p
    let g := gateList x (gateSel d)
    applyOnly s d (statusWord g.status) fun _ =>
      let dur := df d 1 0 24
      let r := firstFail [
        (reservedSet d gateMasks, 9),
        (decide (df d 0 0 2 ≠ 0) || decide (191 < p) || !decide (64 ≤ dur ∧ dur ≤ 16000000), 4),
        (decide (x.active = gateSel d), 0x0605)]
      if r ≠ 0 then gateRefuse s d r
      else
        let g := { g with ents := tput {} g.ents (df d 0 24 8) { dur := dur, open_ := wd d 2 }, status := { g.status with reason := 0 } }
        { s := setSwPort s p (setGateList x (gateSel d) g), status := some (statusWord g.status), obj := some (gateKey d true) })

/-- An open run of some queue in a cycle of entries is shorter than 128 ns (0x0607). -/
def shortRun (es : List GateEnt) : Bool :=
  (List.range 64).any fun q => (List.range es.length).any fun i =>
    bit (es.getD i {}).open_ q && !bit (es.getD ((i + es.length - 1) % es.length) {}).open_ q
      && (runFrom q es es.length i 0).any fun t => decide (t < 128)

/-- Checks of a LIST that activates (R316, R324). -/
def listReason (s : State) (d : List W64) : Nat :=
  let g := gateList (swPort s (df d 0 8 8)) (gateSel d)
  let es := gateEnts { g with count := df d 1 32 8 }
  let cyc := df d 1 0 24
  firstFail [
    (reservedSet d gateMasks, 9),
    (decide (191 < df d 0 8 8) || !decide (1000 ≤ cyc ∧ cyc ≤ 16000000), 4),
    (decide ((es.map (·.dur)).foldl (· + ·) 0 ≠ cyc), 0x0606),
    (shortRun es, 0x0607)]

/-- COMMIT_GATE_LIST (R316): the list becomes active at its first cycle start from now on, and a deactivation takes
effect at the end of the current cycle. -/
def execCommitGateList (cs : Nat) (s : State) : Host.Outcome State Fault Refusal :=
  .next (runCtl s cs 0xEB (fun d => decide (df d 0 0 2 = 1)) (fun d => gateKey d false)
    (fun s d => some (statusWord (gateList (swPort s (df d 0 8 8)) (gateSel d)).status)) fun s _ d =>
    let p := df d 0 8 8
    let x := swPort s p
    let l := gateSel d
    let g := gateList x l
    let r := if enableOf d then listReason s d else if 191 < p then 4 else 0
    if r ≠ 0 then gateRefuse s d r
    else if enableOf d then
      let cyc := df d 1 0 24
      let base := (wd d 2).toNat
      let off := cycleOff cyc base s.now
      let n : GateNext := { list := l, start := if off = 0 then s.now else s.now + (cyc - off), cycle := cyc, count := df d 1 32 8, base := base }
      let y := setGateList { x with next := some n } l { g with status := accepted g.status }
      { s := setSwPort s p y, status := some (statusWord (accepted g.status)), obj := some (gateKey d false) }
    else
      let o := { g.status with enabled := false, reason := 0 }
      let y := setGateList x l { g with status := o }
      let y := if x.next.any (fun n => decide (n.list = l)) then { y with next := none } else y
      let y := if x.active = l then { y with stop := some (s.now + (g.cycle - cycleOff g.cycle g.base s.now)) } else y
      { s := setSwPort s p y, status := some (statusWord o), obj := some (gateKey d false) })

/-! ### Mirroring -/

/-- A mirror session. -/
def mirror (s : State) (n : Nat) : Mirror := tget {} s.sw.mirrors n
/-- A mirror session replaced. -/
def setMirror (s : State) (n : Nat) (x : Mirror) : State := { s with sw := { s.sw with mirrors := tput {} s.sw.mirrors n x } }

/-- Masks of the MIRROR descriptor. -/
def mirrorMasks : List Nat := [fmask 0 2 + fmask 4 7 + fmask 16 8 + fmask 32 12 + fmask 48 8, fmask 0 33, fmask 0 64, 1]

/-- COMMIT_MIRROR_SESSION (R321), and the reserved FORMs, which are refused. -/
def execCommitMirrorSession (cs : Nat) (s : State) : Host.Outcome State Fault Refusal :=
  .next (runCtl s cs 0xEC (fun d => decide (df d 0 0 2 ≠ 1)) (fun d => stampKey okMirror (df d 0 4 4))
    (fun s d => some (statusWord (mirror s (df d 0 4 4)).status)) fun s _ d =>
    let n := df d 0 4 4
    let p := df d 0 16 8
    let c := df d 0 32 12
    let anyC := bit (wd d 0) 10
    let x := mirror s n
    let r := if enableOf d ∨ df d 0 0 2 ≠ 0 then firstFail [
        (partsDiffer s p c anyC, 7),
        (!anyC && decide ((comp s c).state = 0), 8),
        (reservedSet d mirrorMasks, 9),
        (decide (df d 0 0 2 ≠ 0) || decide (200 ≤ p ∧ p ≤ 254), 4)] else 0
    if r ≠ 0 then
      let y := { x with status := refused x.status r }
      refuse (setMirror s n y) r (some (statusWord y.status))
    else
      let y : Mirror := if enableOf d then
          { status := accepted x.status, dir := df d 0 8 1, payload := bit (wd d 0) 9, anyComp := anyC, port := p, comp := c, tcMask := df d 0 48 8,
            n := df d 1 0 20 + 1, seen := 0 }
        else { x with status := { x.status with enabled := false, reason := 0 } }
      { s := setMirror s n y, status := some (statusWord y.status), obj := some (stampKey okMirror n) })

/-- COMMIT_MIRROR_SAMPLER (R321, R323). -/
def execCommitMirrorSampler (cs : Nat) (s : State) : Host.Outcome State Fault Refusal :=
  .next (runCtl s cs 0xEC (fun d => decide (df d 0 0 2 = 1)) (fun d => stampKey okMirror (16 + df d 0 16 8))
    (fun s d => some (statusWord (swPort s (df d 0 16 8)).smpSt)) fun s _ d =>
    let p := df d 0 16 8
    let x := swPort s p
    let per := df d 1 0 32
    let r := firstFail [
      (enableOf d && reservedSet d mirrorMasks, 9),
      (decide (199 < p) || (enableOf d && !decide (64 ≤ per ∧ per ≤ 1000000)), 4)]
    if r ≠ 0 then
      let y := { x with smpSt := refused x.smpSt r }
      refuse (if p < 200 then setSwPort s p y else s) r (some (statusWord y.smpSt))
    else
      let y := if enableOf d then { x with smpSt := accepted x.smpSt, smpOn := true, smpPeriod := per, smpRecord := bit (wd d 1) 32, smpMask := wd d 2 }
        else { x with smpSt := { x.smpSt with enabled := false, reason := 0 }, smpOn := false }
      { s := setSwPort s p y, status := some (statusWord y.smpSt), obj := some (stampKey okMirror (16 + p)) })

end Sys2Proof.Machine
end

