-- ==== Sys2Proof/Machine/Links.lean ====
section
/-! DEFINITION. The link layer of a port in service: flits received and acknowledged (R339, R340), sealing groups
opened (R348, R349), credits (R300), doze (R334), link keys (R346, R347) and the SPDM exchange that precedes them
(R461), and the entry to ACTIVE (R331, R332, R344, R352). -/

namespace Sys2Proof.Machine

/-! ### Entry to ACTIVE -/

/-- The switch is the fabric's time source: no port has role 2 or 3 (R350). -/
def timeSource (s : State) : Bool := fabricPorts.all fun p => !portNamed s p || decide ((port s p).timeRole < 2)

/-- An SPDM connection (R461): 0 DOE outside a session, 1–4 the secured DOE sessions, 16 + p the link of port p. -/
def sess (s : State) (k : Nat) : Session := tget {} s.ta.sess k
/-- A connection replaced. -/
def setSess (s : State) (k : Nat) (x : Session) : State := { s with ta := { s.ta with sess := tput {} s.ta.sess k x } }

/-- The link must be protected before it serves: a native link to a partner that is capable (R346). -/
def wantsProt (x : Port) : Bool := decide (x.mode = 0) && decide (x.peerCap % 2 = 1)

/-- A port in CONFIG may leave it: the partner is known, its endpoint IDs are allowed, the link is protected where it
must be, and device time is set or the port leads to it (R343, R344, R346, R352). -/
def mayServe (s : State) (p : Nat) : Bool :=
  let x := port s p
  decide (x.state = 3) && x.capsSeen && !x.epMismatch && !x.authFail
    && (if wantsProt x then (sess s (16 + p)).secured && x.protActive && x.rxReady else !x.prot)
    && (s.pc.timeSet || timeSource s || decide (2 ≤ x.timeRole))

/-- A partner's credits at entry to ACTIVE, which the spec does not give: its default RESERVE for the width (log entry 51). -/
def firstCredit (x : Port) : Tab Nat :=
  let n := if x.width = 4 then 192 else 384
  [(0, n), (1, n), (2, n), (3, n), (5, n)]

/-- Messages that waited for a port's endpoints leave (R489). -/
def sendNotices (s : State) (p : Nat) : State :=
  let mine := s.te.notices.filter fun n => decide (endpointPort s n.2.1 = some p)
  mine.foldl (fun s n => notify s n.1 n.2.1 n.2.2) { s with te := { s.te with notices := s.te.notices.filter fun n => !mine.contains n } }

/-- A port enters ACTIVE: route epochs open, credits are granted in full, suspicions clear, and what waited for the
port goes (R299, R332, R403, R530). -/
def enterActive (s : State) (p : Nat) : State :=
  let s := reopenRoutes s p
  let x := port s p
  let gr := [0, 1, 2, 3, 5].foldl (fun t tc => tput 0 t tc ((swPort s p).reserve - heldCells s p tc)) ([] : Tab Nat)
  let s := setPort s p { x with state := 4, stateT := s.now, credit := firstCredit x, seenRet := [], granted := gr, returned := [], lastTx := s.now }
  sendOwed (sendNotices ((peersAt s p false).foldl clearSuspect s) p)

/-- A port in CONFIG enters ACTIVE if nothing keeps it. -/
def tryActive (s : State) (p : Nat) : State := if mayServe s p then enterActive s p else s

/-! ### Flits received -/

/-- An arriving transaction frame: one with a reserved field set is refused at its port (R342), one of a drop-eligible class that meets
a full FIFO is dropped (R304), and any other waits in the FIFO for FRAME_INGRESS. -/
def frameArrived (s : State) (p : Nat) (bs : Bytes) : State :=
  let f := decodeFrame bs
  if headerReserved bs = true ∧ f.op ≠ 0x0F then ingressSeen (endRequest (creditBack s p f) f 3 (backBy s p)) p f f true
  else if fifoFull (port s p) && !lossless f.tc then fifoDrop s p f
  else setPort s p { port s p with rxFrames := (port s p).rxFrames ++ [f] }

/-- Link frames taken from a payload area at a unit boundary; MAC frames are dealt with by their group. -/
def linksArrived (s : State) (p : Nat) (bs : Bytes) : State :=
  setPort s p { port s p with rxLinks := (port s p).rxLinks ++ (decodeLinks 15 bs).filter fun l => decide (l.op ≠ 0x26) }

/-- One clear payload area in order: it goes on with the frame under way, or begins a frame or link frames (R341). -/
def takeArea (s : State) (p : Nat) (area : Bytes) : State :=
  let x := port s p
  let op := leAt area 0 1
  if x.rxPart.isEmpty && decide (op = 0) then s
  else if x.rxPart.isEmpty && decide (0x20 ≤ op) then linksArrived s p area
  else
    let bs := x.rxPart ++ area
    let n := wireLen bs
    if bs.length < n then setPort s p { x with rxPart := bs }
    else
      let t := ceilDiv (n - x.rxPart.length) 16 * 16
      linksArrived (frameArrived (setPort s p { x with rxPart := [] }) p (bs.take n)) p (area.drop t)

/-- Flits up to an acknowledged SEQ leave the replay buffer; the newest of them gives the round trip (R340). -/
def ackFlits (now : Nat) (x : Port) (a : Nat) : Port :=
  match x.replay.findIdx? fun t => decide (t.seq = a) with
  | none => x
  | some i => { x with replay := x.replay.drop (i + 1), rtt := now - ((x.replay[i]?).getD {}).sentT }

/-- Every flit of the replay buffer sent again, in order (R340). -/
def replayAll (x : Port) : Port :=
  let l := x.replay.map fun t => { t with count := t.count + 1 }
  l.foldl wireFlit { x with replay := l }

/-- A port enters RETRAIN (R333): queues, credits and the replay buffer are kept, and no queue is eligible. -/
def enterRetrain (s : State) (p : Nat) (lost : Option Nat) : State :=
  wakeAll (pcCount (setPort s p { port s p with state := 5, stateT := s.now, lost := lost }) p 3 1) p

/-- ACK and NAK of a flit (R340, R333). -/
def ackNak (s : State) (p ack : Nat) (nak : Bool) : State :=
  let x := ackFlits s.now (port s p) ack
  if nak then
    let s := pcCount (setPort s p (replayAll x)) p 2 x.replay.length
    if (port s p).replay.any (fun t => decide (8 ≤ t.count)) && decide ((port s p).state = 4) then enterRetrain s p none else s
  else tryActive (pumpPort (setPort s p x) p) p

/-- A PAYLOAD flit in order (R340, R348): an open one is taken at once, a sealed one joins its group, whose MAC frame
waits for MAC_FRAME. -/
def payload (s : State) (p seq hdr : Nat) (area : Bytes) : State :=
  let x := { port s p with rxSeq := (seq + 1) % 1024, nak := false }
  if fldN hdr 25 1 = 1 then
    let s := setPort s p { x with rxSealed := x.rxSealed ++ [{ seq := seq, hdr := hdr, area := area }] }
    match macAt x.rxGroup area with
    | none => s
    | some t =>
      let l : LinkFrame := { op := 0x26, body := (area.drop (t + 2)).take 30 }
      setPort s p { port s p with rxLinks := (port s p).rxLinks ++ [l] }
  else takeArea (setPort s p x) p area

/-- FLIT_RECEIVE (R339, R340): FEC first, then the CRC; a failure sets NAK, and the answer goes in a NOP flit. -/
def execFlitReceive (port_ : Nat) (flit : Bytes) (s : State) : Host.Outcome State Fault Refusal :=
  .next (if mainUp s && portNamed s port_ && decide (3 ≤ (port s port_).state ∧ (port s port_).state ≤ 5) && decide (flit.length = 256) then
    let d := fecDecode flit
    let s := if d.2 then pcCount s port_ 0 1 else s
    if leAt d.1 242 8 ≠ (crc64 (d.1.take 242)).toNat then
      let s := pcCount s port_ 1 1
      setPort s port_ (wireNop { port s port_ with nak := true })
    else
      let hdr := leAt d.1 236 6
      let s := ackNak s port_ (fldN hdr 14 10) (decide (fldN hdr 24 1 = 1))
      let seq := fldN hdr 4 10
      if fldN hdr 0 4 = 1 then
        let s := if seq = (port s port_).rxSeq then payload s port_ seq hdr (d.1.take 236) else s
        setPort s port_ (wireNop (port s port_))
      else s
  else s)

/-- A link frame taken from those that have arrived at a port. -/
def takeLink (s : State) (p : Nat) (f : LinkFrame) : State := setPort s p { port s p with rxLinks := (port s p).rxLinks.erase f }

/-- A link frame of a kind is taken at a port whose link carries them. -/
def onLink (s : State) (p op : Nat) (f : LinkFrame) (go : State → State) : State :=
  if mainUp s && portNamed s p && decide (3 ≤ (port s p).state ∧ (port s p).state ≤ 5) && decide (f.op = op) then go (takeLink s p f) else s

/-- MAC_FRAME (R349): the group's tag verifies and its frames are taken, or the group is discarded and NAKed; the
third failure takes the port down. -/
def execMacFrame (port_ : Nat) (f : LinkFrame) (s : State) : Host.Outcome State Fault Refusal :=
  .next (onLink s port_ 0x26 f fun s =>
    let x := port s port_
    match x.rxSealed with
    | [] => s
    | h :: _ =>
      let k := tget (0, 0) x.rxKey (fldN h.hdr 26 1)
      let g := openGroup k.1 k.2 x.rxGroup x.rxSealed
      if g.2 && decide (lfAt f 8 8 = x.rxGroup) then
        g.1.foldl (fun s a => takeArea s port_ a) (setPort s port_ { x with rxSealed := [], rxGroup := x.rxGroup + 1, macFails := 0 })
      else if 2 ≤ x.macFails then raiseEvent (pcCount (portGoesDown s port_ 1) port_ 4 1) 0
      else setPort s port_ (wireNop { x with rxSealed := [], rxSeq := h.seq, nak := true, macFails := x.macFails + 1 }))

/-- CREDIT_FRAME (R300): cells of a class returned by the partner since ACTIVE. -/
def execCreditFrame (port_ : Nat) (f : LinkFrame) (s : State) : Host.Outcome State Fault Refusal :=
  .next (onLink s port_ 0x20 f fun s =>
    let x := port s port_
    let tc := lfAt f 2 1
    let n := (lfAt f 4 4 + 2 ^ 32 - tget 0 x.seenRet tc) % 2 ^ 32
    if lossless tc then wakeAll (setPort s port_ { x with credit := tmod 0 x.credit tc (· + n), seenRet := tput 0 x.seenRet tc (lfAt f 4 4) }) port_ else s)

/-! ### Doze (R334) -/

/-- Lanes of a port in service, the spare among them, but for logical lane 0, set dozing or awake. -/
def dozeLanes (s : State) (p : Nat) (on : Bool) : State :=
  { s with pc := { s.pc with lanes := tmap {} s.pc.lanes fun n l =>
      if l.port ≠ p ∨ l.logical = 0 then l
      else if on then (if l.state = 0 ∨ l.state = 3 then { l with state := 5 } else l)
      else if l.state = 5 then { l with state := if n % 68 < 64 then 0 else 3 } else l } }

/-- DOZE_IDLE_TIMEOUT (R334): never with DOZE_IDLE 0, nor with an active gate list. -/
def execDozeIdleTimeout (port_ : Nat) (s : State) : Host.Outcome State Fault Refusal :=
  .next (let x := port s port_
    if working s && portNamed s port_ && decide (x.state = 4) && !x.dozeTx && decide (x.doze ≠ 0) && decide ((swPort s port_).active = 0)
        && decide (x.lastTx + x.doze * 1000 ≤ s.now) && (List.range 64).all (fun q => (queue s port_ q).frames.isEmpty) then
      let s := sendLink s port_ { op := 0x23, body := linkBody 1 [] }
      dozeLanes (setPort s port_ { port s port_ with dozeTx := true }) port_ true
    else s)

/-- DOZE_FRAME (R334). -/
def execDozeFrame (port_ : Nat) (f : LinkFrame) (s : State) : Host.Outcome State Fault Refusal :=
  .next (onLink s port_ 0x23 f fun s => setPort s port_ { port s port_ with dozeRx := true })

/-- WAKE_FRAME (R334). -/
def execWakeFrame (port_ : Nat) (f : LinkFrame) (s : State) : Host.Outcome State Fault Refusal :=
  .next (onLink s port_ 0x24 f fun s => setPort s port_ { port s port_ with dozeRx := false })

/-- The transmit direction is at full width again. -/
def wakePort (s : State) (p : Nat) : State := dozeLanes (setPort s p { port s p with dozeTx := false, wakeAt := none, lastTx := s.now }) p false

/-- WAKE_DELAY_END (R334): 1.2 µs after WAKE the waiting frames may leave. -/
def execWakeDelayEnd (port_ : Nat) (s : State) : Host.Outcome State Fault Refusal :=
  .next (if mainUp s && (port s port_).wakeAt.any (fun t => decide (t ≤ s.now)) then pumpPort (wakePort s port_) port_ else s)

/-! ### SPDM on links, and link keys (R346, R347, R461)

The codes of SPDM 1.2 messages are those of its specification (PRESUMED); of a message's content beyond its code the
model takes what `Config.spdmRoot` yields. -/

/-- An SPDM message of a code, with no content shown. -/
def spdmMsg (code p1 : Nat) : Bytes := [0x12, BitVec.ofNat 8 code, BitVec.ofNat 8 p1, 0]

/-- An SPDM message sent on a link. -/
def sendKeymsg (s : State) (p : Nat) (m : Bytes) : State := sendLink s p { op := 0x29, body := m }

/-- The LF7 is the requester on a link: toward endpoints and trays, and toward switches of a higher number (R346). -/
def spdmRequester (s : State) (p : Nat) : Bool := decide ((port s p).profile ≠ 0) || decide (s.swNum < (port s p).peerId)

/-- An SPDM authentication has failed on a link (R346, R475). -/
def authFails (s : State) (p : Nat) : State :=
  let s := { s with ta := { s.ta with ctr := tmod 0 s.ta.ctr 1 fun c => satInc c 1 } }
  setSess (setPort s p { port s p with authFail := true }) (16 + p) {}

/-- A new transmit key offered to the partner for its receive slot that is not in use (R347). The message is protected
by the session, so the wire shows its code only. -/
def offerKey (s : State) (p : Nat) : State :=
  let x := port s p
  let slot := 1 - x.keySel
  let key := Config.sessionKey p s.freeCtr
  let iv := (Config.sessionKey p (s.freeCtr + 1)).toNat % 2 ^ 32
  let s := setPort (draw (draw s)) p { x with txKey := tput (0, 0) x.txKey slot (key.toNat, iv), keyOut := some slot, lastRekey := s.now }
  sendKeymsg s p (spdmMsg 0xFE 0)

/-- A link's session is secured: the LF7 offers its key (R347). -/
def linkSecured (s : State) (p : Nat) (root : Bytes) : State :=
  offerKey (setSess s (16 + p) { opened := true, secured := true, phase := 4, root := root, lastBeat := s.now }) p

/-- The answer of the partner to the requester's last message, and the next one (R346). -/
def spdmResponse (s : State) (p : Nat) (m : Bytes) : State :=
  let x := sess s (16 + p)
  let go := fun (n next : Nat) => sendKeymsg (setSess s (16 + p) { x with opened := true, phase := n, lastBeat := s.now }) p (spdmMsg next 0)
  match leAt m 1 1 with
  | 0x04 => if x.phase = 0 then go 1 0xE1 else s
  | 0x61 => if x.phase = 1 then go 2 0xE3 else s
  | 0x63 => if x.phase = 2 then go 3 0x81 else s
  | 0x01 => if x.phase = 3 then go 3 0x82 else s
  | 0x02 => if x.phase = 3 then go 3 0xE4 else s
  | 0x64 => if x.phase = 3 then (match Config.spdmRoot (16 + p) m with
      | none => authFails s p
      | some r => sendKeymsg (setSess s (16 + p) { x with phase := 4, root := r, lastBeat := s.now }) p (spdmMsg 0xE5 0)) else s
  | 0x65 => if x.phase = 4 ∧ x.secured = false then linkSecured s p x.root else s
  | 0x7E => (match (port s p).keyOut with
      | none => s
      | some k =>
        if (port s p).txLinks.any (fun l => decide (l.op = 0x25)) then s
        else tryActive (sendLink s p { op := 0x25, body := linkBody 1 [(2, 1, k), (8, 8, 0)] }) p)
  | 0x68 => setSess s (16 + p) { x with lastBeat := s.now, missed := 0 }
  | 0x7F => if x.secured then s else authFails s p
  | _ => s

/-- The reply to an SPDM request by its code and the phase of the connection, with the phase after it (R461). -/
def spdmReply (phase : Nat) (m : Bytes) : Bytes × Nat :=
  let err := fun (c : Nat) => (spdmMsg 0x7F c, phase)
  if leAt m 0 1 ≠ 0x12 ∧ leAt m 1 1 ≠ 0x84 then err 0x41
  else match leAt m 1 1 with
    | 0x84 => (spdmMsg 0x04 0, 1)
    | 0xE1 => if phase = 1 then (spdmMsg 0x61 0, 2) else err 0x04
    | 0xE3 => if phase = 2 then (spdmMsg 0x63 0, 3) else err 0x04
    | 0x81 => if 3 ≤ phase then (spdmMsg 0x01 0, phase) else err 0x04
    | 0x82 => if 3 ≤ phase then (spdmMsg 0x02 (leAt m 2 1), phase) else err 0x04
    | 0x83 => if 3 ≤ phase then (spdmMsg 0x03 (leAt m 2 1), phase) else err 0x04
    | 0xE4 => if phase = 3 then (spdmMsg 0x64 0, 4) else err 0x04
    | 0xE8 => if phase = 4 then (spdmMsg 0x68 0, phase) else err 0x04
    | 0xE9 => if phase = 4 then (spdmMsg 0x69 (leAt m 2 1), phase) else err 0x04
    | _ => err 0x07

/-- A request of the partner on a link where the LF7 answers (R346, R461). -/
def linkRequest (s : State) (p : Nat) (m : Bytes) : State :=
  let x := sess s (16 + p)
  match leAt m 1 1 with
  | 0xE5 => if x.phase = 4 ∧ x.secured = false then (match Config.spdmRoot (16 + p) m with
      | none => sendKeymsg (authFails s p) p (spdmMsg 0x7F 0x06)
      | some r => linkSecured (sendKeymsg s p (spdmMsg 0x65 0)) p r) else sendKeymsg s p (spdmMsg 0x7F 0x04)
  | 0xEC => if x.secured then portGoesDown (sendKeymsg s p (spdmMsg 0x6C 0)) p 1 else sendKeymsg s p (spdmMsg 0x7F 0x04)
  | 0xFE => s
  | _ =>
    let r := spdmReply x.phase m
    sendKeymsg (setSess s (16 + p) { x with opened := true, phase := r.2, missed := 0, lastBeat := s.now }) p r.1

/-- A whole SPDM message that has arrived on a link. A vendor-defined request is protected by the session; what it holds is LINK_KEY
or a Kilhar message. Until stage READY requests are answered with ResponseNotReady (R455). -/
def linkMessage (s : State) (p : Nat) (m : Bytes) : State :=
  if leAt m 1 1 < 0x80 then spdmResponse s p m
  else if s.cc.stage ≠ 6 then sendKeymsg s p (spdmMsg 0x7F 0x42)
  else linkRequest s p m

/-- KEYMSG_FRAME (R346, *Link frames*): an SPDM message or a piece of one. DESIGN CHOICE (log 130): a frame of 14 units goes on in the
next one, and a shorter one ends the message. -/
def execKeymsgFrame (port_ : Nat) (f : LinkFrame) (s : State) : Host.Outcome State Fault Refusal :=
  .next (onLink s port_ 0x29 f fun s =>
    let x := port s port_
    if linkUnits f = 14 then setPort s port_ { x with keyPart := x.keyPart ++ f.body }
    else linkMessage (setPort s port_ { x with keyPart := [] }) port_ (x.keyPart ++ f.body))

/-- LINK_KEY (R347): the partner's transmit key for a receive slot not in use. The payload is slot, key and IV base
(log entry 52). -/
def execLinkKey (port_ : Nat) (payload : Bytes) (s : State) : Host.Outcome State Fault Refusal :=
  .next (if mainUp s && portNamed s port_ && decide (3 ≤ (port s port_).state ∧ (port s port_).state ≤ 5) && (sess s (16 + port_)).secured then
    let x := port s port_
    let slot := leAt payload 0 1
    if payload.length ≠ 21 ∨ 1 < slot ∨ (x.rxReady = true ∧ slot = x.rxKeySel) then sendKeymsg s port_ (spdmMsg 0x7F 0x01)
    else
      let s := setPort s port_ { x with rxKey := tput (0, 0) x.rxKey slot (ofBE ((payload.drop 1).take 16), leAt payload 17 4) }
      sendKeymsg s port_ (spdmMsg 0x7E 0)
  else s)

/-- KEY_SWITCH_FRAME (R347): the partner's next group uses the slot it names. -/
def execKeySwitchFrame (port_ : Nat) (f : LinkFrame) (s : State) : Host.Outcome State Fault Refusal :=
  .next (onLink s port_ 0x25 f fun s =>
    let x := port s port_
    let k := lfAt f 2 1
    if (sess s (16 + port_)).secured && decide (k < 2) && (x.rxKey.any fun y => decide (y.1 = k)) then
      tryActive (setPort s port_ { x with rxKeySel := k, rxGroup := lfAt f 8 8, rxReady := true }) port_
    else s)

/-- REKEY_TIMER (R347): a new key every 600 s, and before the group counter under one key reaches 2^32. -/
def execRekeyTimer (port_ : Nat) (s : State) : Host.Outcome State Fault Refusal :=
  .next (let x := port s port_
    if mainUp s && portUp s port_ && x.protActive && x.keyOut.isNone && (sess s (16 + port_)).secured
        && (decide (x.lastRekey + 600000000000 ≤ s.now) || decide (2 ^ 32 - 2 ^ 16 ≤ x.txGroup)) then offerKey s port_ else s)

end Sys2Proof.Machine
end

