-- ==== Sys2Proof/Machine/Ports.lean ====
section
/-! DEFINITION. Ports and lanes: training, retraining and spare lanes (R327–R337), partners (R343–R346), fabric time
(R350–R353), and PORT and WINDOW commits (R357, R358). -/

namespace Sys2Proof.Machine

/-! ### Lanes -/

/-- Lane groups a port uses, by its pair's split (R329). -/
def portGroups (s : State) (p : Nat) : List Nat := if (pair s (p / 4)).split then [p] else [p, p + 1]

/-- Physical lane of wavelength `w` of a lane group (R327, R328). -/
def groupLane (g w : Nat) : Nat := 68 * (g / 16) + 4 * (g % 16) + w

/-- Physical lane at a place of a port: place 4i + w is wavelength w of its i-th group (R329). -/
def physLane (s : State) (p i : Nat) : Nat := groupLane ((portGroups s p).getD (i / 4) p) (i % 4)

/-- Port pair of a physical lane. -/
def lanePair (l : Nat) : Nat := if l % 68 < 64 then (16 * (l / 68) + l % 68 / 4) / 4 else 4 * (l / 68) + (l % 68 - 64)

/-- Places of a port put in service at a width, `spare` on the spare lane of the pair. The logical lanes of a port trained at x4 are
0–3, whichever its group (R330; DEDUCED, log 129). -/
def lanesUp (s : State) (p w : Nat) (ls : List Nat) (spare : Option Nat) : State :=
  let s := ls.foldl (fun s i => setLane s (physLane s p i) { lane s (physLane s p i) with port := p, logical := i % w, state := 0 }) s
  let sp := spareLane (p / 4)
  match spare with
  | some i => setLane s sp { lane s sp with port := p, logical := i % w, state := 3 }
  | none => if (lane s sp).state = 6 then setLane s sp { lane s sp with state := 1 } else s

/-- The spare of a pair is free to stand in for a lane. -/
def spareFree (s : State) (k : Nat) : Bool := !(pair s k).used && decide ((pair s k).swap = 0)

/-- The width and places that a set of locked ones gives (R332): the width, the places, and the one the spare stands in for. A failed
lane does not lock; on a split pair the spare stands in where a swap replaced the lane (R335; DEDUCED, log 129). -/
def chooseWidth (s : State) (p : Nat) (locked : List Nat) : Option (Nat × List Nat × Option Nat) :=
  let fails := fun (i : Nat) => decide ((lane s (physLane s p i)).state = 4)
  let has := fun (l : List Nat) => l.all fun i => locked.contains i && !fails i
  let missing := fun (n : Nat) => (List.range n).filter fun i => !locked.contains i || fails i
  if (pair s (p / 4)).split then
    match missing 4 with
    | [] => some (4, List.range 4, none)
    | [i] => if spareFree s (p / 4) && fails i then some (4, (List.range 4).filter (· ≠ i), some i) else none
    | _ => none
  else match missing 8 with
    | [] => some (8, List.range 8, none)
    | [i] => if spareFree s (p / 4) then some (8, (List.range 8).filter (· ≠ i), some i)
        else if i < 4 then some (4, [4, 5, 6, 7], none) else some (4, [0, 1, 2, 3], none)
    | _ => if has [0, 1, 2, 3] then some (4, [0, 1, 2, 3], none) else if has [4, 5, 6, 7] then some (4, [4, 5, 6, 7], none) else none

/-- The LF7's own capability record (R343). -/
def ownCaps (s : State) (x : Port) : LinkFrame :=
  { op := 0x27, body := linkBody 4 [(2, 1, 0), (3, 1, if x.mode = 1 then 0 else 1), (4, 2, s.swNum), (7, 1, 1), (16, 2, 8192), (18, 1, if x.mode = 1 then 0 else 3)] }

/-- PARTNER_DETECT (R331, R332): light and the training pattern are found. -/
def execPartnerDetect (port_ : Nat) (s : State) : Host.Outcome State Fault Refusal :=
  .next (if mainUp s && portNamed s port_ && decide ((port s port_).state = 1)
    then setPort s port_ { port s port_ with state := 2, stateT := s.now } else s)

/-- TRAINING_COMPLETE (R332, R343): `lanes` are the logical lanes that lock. The port enters CONFIG and sends CAPS, or
stays in TRAIN. -/
def execTrainingComplete (port_ : Nat) (lanes : List Nat) (s : State) : Host.Outcome State Fault Refusal :=
  .next (if mainUp s && portNamed s port_ && decide ((port s port_).state = 2) then
    match chooseWidth s port_ lanes with
    | none => s
    | some (w, ls, sp) =>
      let s := lanesUp s port_ w ls sp
      let s := match sp with
        | some i => setLane (setPair s (port_ / 4) { pair s (port_ / 4) with used := true }) (physLane s port_ i) { lane s (physLane s port_ i) with state := 4 }
        | none => s
      let s := setPort s port_ { port s port_ with state := 3, stateT := s.now, width := w, linkVer := 0, capsSeen := false }
      sendLink s port_ (ownCaps s (port s port_))
  else s)

/-- TRAIN_RETRY (R332): every 1 ms. -/
def execTrainRetry (port_ : Nat) (s : State) : Host.Outcome State Fault Refusal :=
  .next (if mainUp s && portNamed s port_ && decide ((port s port_).state = 2) && decide ((port s port_).stateT + 1000000 ≤ s.now)
    then setPort s port_ { port s port_ with stateT := s.now } else s)

/-- The partner's capability record taken into a port (R343): its endpoint IDs must lie in those the port allows (R344), and a link
that must be protected needs a partner that can (R346). -/
def takeCaps (x : Port) (f : LinkFrame) : Port :=
  let id := lfAt f 4 2
  let n := lfAt f 6 1
  let x := { x with capsSeen := true, profile := lfAt f 2 1 % 16, linkVer := lfAt f 3 1, peerId := id, peerCount := n, peerGraver := lfAt f 7 1 % 16,
                    memCap := lfAt f 8 8, peerCap := lfAt f 18 1 }
  { x with epMismatch := decide (x.profile = 1) && !(decide (x.epBase ≤ id) && decide (1 ≤ n) && decide (id + n ≤ x.epBase + x.epCount)),
           authFail := x.prot && !wantsProt x }

/-- CAPS_FRAME (R343, R344, R346): the partner's record classes the port; then the link is protected, or may serve. -/
def execCapsFrame (port_ : Nat) (f : LinkFrame) (s : State) : Host.Outcome State Fault Refusal :=
  .next (onLink s port_ 0x27 f fun s =>
    let x := port s port_
    if x.state ≠ 3 ∨ x.capsSeen = true then s
    else
      let x := takeCaps x f
      let s := setPort s port_ x
      if wantsProt x then (if spdmRequester s port_ then sendKeymsg s port_ (spdmMsg 0x84 0) else s)
      else tryActive s port_)

/-! ### Loss of lock, retraining and spare lanes (R333–R337) -/

/-- The spare of a pair takes the place of a lane: the lane reads failed, and the spare keeps its logical number (R335). -/
def spareTakes (s : State) (k l : Nat) : State :=
  let x := lane s l
  let s := setLane s (spareLane k) { lane s (spareLane k) with port := x.port, logical := x.logical, state := 3 }
  setPair (setLane s l { x with port := 0xFF, logical := 0xF, state := 4 }) k { pair s k with used := true }

/-- The lane a swap replaces. Of a swap the partner started, the SPARE frame names only the pair: one of the port's
lanes, a free value. -/
def swapLane (s : State) (k : Nat) : Nat × State :=
  if (pair s k).lane < 816 then ((pair s k).lane, s)
  else
    let ls := (s.pc.lanes.filter fun x => decide (x.2.port = (pair s k).port) && decide (x.1 % 68 < 64)).map (·.1)
    (ls.getD ((Config.freeWord s.freeCtr).toNat % max 1 ls.length) 0, draw s)

/-- A swap completes (R335, R361). -/
def swapDone (s : State) (k : Nat) : State :=
  let p := (pair s k).port
  let a := swapLane s k
  let s := pcCount (spareTakes a.2 k a.1) p 5 1
  swapEnds { s with ph := { s.ph with laneDue := s.ph.laneDue.filter (· ≠ a.1) } } k 0

/-- A swap of a lane begins (R335): the spare trains, and a SPARE frame tells the partner. -/
def startSwap (s : State) (l : Nat) (cs : Option Nat) : State :=
  let k := lanePair l
  let p := (lane s l).port
  let s := setPair s k { pair s k with swap := 1, lane := l, port := p, reqCs := cs, peerSeq := none }
  let s := setLane s (spareLane k) { lane s (spareLane k) with port := p, logical := (lane s l).logical, state := 2 }
  sendLink s p { op := 0x28, body := linkBody 1 [(2, 1, k), (3, 1, 0)] }

/-- Codes of the lane form of SPARE.SWAP (R337, R358): the spare free, and the lane in service on a port that is up. -/
def laneReason (s : State) (l : Nat) : Nat :=
  firstFail [
    (decide (815 < l), 4),
    ((pair s (lanePair l)).used || decide ((pair s (lanePair l)).swap ≠ 0), 0x0707),
    (decide (64 ≤ l % 68) || decide ((lane s l).state = 4) || !portUp s (lane s l).port, 0x0708)]

/-- LANE_SWAP_START (R335, R337, R513): the power and health controller starts the swap of a lane whose swap is due. -/
def execLaneSwapStart (lane_ : Nat) (s : State) : Host.Outcome State Fault Refusal :=
  .next (if mainUp s && s.ph.laneDue.contains lane_ && decide (laneReason s lane_ = 0) then startSwap s lane_ none else s)

/-- SPARE_LOCK (R335): both receivers lock on the spare, and each side duplicates the lane on it. -/
def execSpareLock (pair_ : Nat) (s : State) : Host.Outcome State Fault Refusal :=
  .next (if mainUp s && decide (pair_ < 48) && decide ((pair s pair_).swap = 1) then setPair s pair_ { pair s pair_ with swap := 2 } else s)

/-- SPARE_DESKEW_DONE (R335): the LF7 announces the SEQ of its switching flit, the one after its announcement's. -/
def execSpareDeskewDone (pair_ : Nat) (s : State) : Host.Outcome State Fault Refusal :=
  .next (if mainUp s && decide (pair_ < 48) && decide ((pair s pair_).swap = 2) then
    let p := (pair s pair_).port
    let q := ((port s p).txSeq + 1) % 1024
    sendLink (setPair s pair_ { pair s pair_ with swap := 3, mySeq := q }) p { op := 0x28, body := linkBody 1 [(2, 1, pair_), (3, 1, 1), (4, 2, q)] }
  else s)

/-- SPARE_FRAME (R335): the partner starts, announces or abandons a swap. -/
def execSpareFrame (port_ : Nat) (f : LinkFrame) (s : State) : Host.Outcome State Fault Refusal :=
  .next (onLink s port_ 0x28 f fun s =>
    let k := port_ / 4
    let x := pair s k
    match lfAt f 3 1 with
    | 0 => if x.swap = 0 ∧ x.used = false then
          let s := setPair s k { x with swap := 1, lane := 816, port := port_, peerSeq := none, reqCs := none }
          setLane s (spareLane k) { lane s (spareLane k) with port := port_, state := 2 }
        else if x.swap = 0 ∧ x.used = true then sendLink s port_ { op := 0x28, body := linkBody 1 [(2, 1, k), (3, 1, 2)] } else s
    | 1 => if x.swap ≠ 0 ∧ x.port = port_ then setPair s k { x with peerSeq := some (lfAt f 4 2) } else s
    | 2 => if x.swap ≠ 0 ∧ x.port = port_ then
          swapEnds (setLane s (spareLane k) { lane s (spareLane k) with port := 0xFF, logical := 0xF, state := 1 }) k 0x0707 else s
    | _ => s)

/-- SPARE_SWITCH (R335): from the announced flits both sides use the spare. -/
def execSpareSwitch (pair_ : Nat) (s : State) : Host.Outcome State Fault Refusal :=
  .next (if mainUp s && decide (pair_ < 48) && decide ((pair s pair_).swap = 3) && (pair s pair_).peerSeq.isSome then swapDone s pair_ else s)

/-- The swap of a pair under way replaces a lane of a port: of a swap the partner started, the lane that loses lock. -/
def swapsLane (s : State) (k l p : Nat) : Bool :=
  let x := pair s k
  decide (x.swap ≠ 0) && (decide (x.lane = l) || (decide (x.lane = 816) && decide (x.port = p)))

/-- The swap under way completes with the lane that lost lock. -/
def finishSwap (s : State) (k l : Nat) : State := swapDone (setPair s k { pair s k with lane := l }) k

/-- LANE_LOCK_LOSS (R333, R336): a lane in service loses lock, or with no lane named a flit has been replayed 8 times.
A swap of that very lane completes at once where the spare is locked. -/
def execLaneLockLoss (port_ : Nat) (lane_ : Option Nat) (s : State) : Host.Outcome State Fault Refusal :=
  .next (if mainUp s && decide ((port s port_).state = 4) && portNamed s port_ then
    match lane_ with
    | none => if (port s port_).replay.any (fun t => decide (8 ≤ t.count)) then enterRetrain s port_ none else s
    | some l =>
      let k := port_ / 4
      if (lane s l).port ≠ port_ ∨ ¬((lane s l).state = 0 ∨ (lane s l).state = 3 ∨ (lane s l).state = 5) then s
      else if swapsLane s k l port_ && decide (2 ≤ (pair s k).swap) then finishSwap s k l
      else enterRetrain s port_ (some l)
  else s)

/-- A port back in ACTIVE with its sequence numbers, replay buffer, credits and queues (R333); unacknowledged flits
are sent again, and what waited for the link goes. -/
def backActive (s : State) (p w : Nat) : State :=
  let x := port s p
  pumpPort (setPort s p (replayAll { x with state := 4, stateT := s.now, width := w, lost := none, replay := x.replay.map fun t => { t with count := 0 } })) p

/-- A port that has lost a lane for good goes on at x4: the lanes of that lane's group go dark, those of the other are its logical
lanes 0–3 (R330, R336). -/
def narrow (s : State) (p l : Nat) : State :=
  let g := (lane s l).logical / 4
  let sp := lane s (spareLane (p / 4))
  let s := if l ≠ spareLane (p / 4) ∧ sp.port = p ∧ sp.logical / 4 = g then freeSpare s p else s
  { s with pc := { s.pc with lanes := tmap {} s.pc.lanes fun n y =>
      if n = l then { y with port := 0xFF, logical := 0xF, state := 4 }
      else if y.port = p ∧ y.logical / 4 = g then { y with port := 0xFF, logical := 0xF, state := 6 }
      else if y.port = p then { y with logical := y.logical % 4 } else y } }

/-- RETRAIN_COMPLETE (R333, R336): the lanes relock; a lost lane is replaced by the pair's spare, or where that is in
use the port goes on at x4 on the group without it, if it has one. -/
def execRetrainComplete (port_ : Nat) (s : State) : Host.Outcome State Fault Refusal :=
  .next (if mainUp s && portNamed s port_ && decide ((port s port_).state = 5) then
    let x := port s port_
    let k := port_ / 4
    match x.lost with
    | none => backActive s port_ x.width
    | some l =>
      if swapsLane s k l port_ then backActive (finishSwap s k l) port_ x.width
      else if spareFree s k then backActive (spareTakes s k l) port_ x.width
      else if x.width = 8 then backActive (narrow s port_ l) port_ 4
      else s
  else s)

/-- RETRAIN_TIMEOUT (R333): not back in ACTIVE within 2 ms, the port goes to DETECT. -/
def execRetrainTimeout (port_ : Nat) (s : State) : Host.Outcome State Fault Refusal :=
  .next (if mainUp s && portNamed s port_ && decide ((port s port_).state = 5) && decide ((port s port_).stateT + 2000000 ≤ s.now)
    then portGoesDown s port_ 1 else s)

/-! ### Fabric time (R350–R353) -/

/-- Ports of time roles 2 and 3 on which an exchange may run: up, or in CONFIG with the partner known (R331, R351). -/
def syncPorts (s : State) : List Nat :=
  fabricPorts.filter fun p => portNamed s p && decide (2 ≤ (port s p).timeRole) && decide ((port s p).mode = 0)
    && (portUp s p || (decide ((port s p).state = 3) && (port s p).capsSeen))

/-- TIME_SYNC_PERIOD (R351): every 125 µs; t1 is stamped as the frame leaves. -/
def execTimeSyncPeriod (s : State) : Host.Outcome State Fault Refusal :=
  .next (if mainUp s && decide (s.pc.lastSync + 125000 ≤ s.now) && !(syncPorts s).isEmpty then
    let n := s.pc.exch
    let s := { s with pc := { s.pc with exch := n + 1, lastSync := s.now } }
    (syncPorts s).foldl (fun s p => sendLink s p { op := 0x21, body := linkBody 2 [(16, 8, n)] }) s
  else s)

/-- TIME_SYNC_FRAME (R351): a port of role 1 answers with the arrival time, and the departure time as the answer leaves. -/
def execTimeSyncFrame (port_ : Nat) (f : LinkFrame) (s : State) : Host.Outcome State Fault Refusal :=
  .next (onLink s port_ 0x21 f fun s =>
    if (port s port_).timeRole = 1 then
      sendLink s port_ { op := 0x22, body := linkBody 2 [(8, 8, s.now), (24, 8, lfAt f 16 8)] } else s)

/-- The port followed, or the one to follow: an upstream port that serves before a backup. -/
def followed (s : State) : Nat :=
  if s.pc.upstream ≠ 0xFF then s.pc.upstream
  else ((syncPorts s).find? fun p => decide ((port s p).timeRole = 2)).getD ((syncPorts s).headD 0xFF)

/-- The offset of an exchange in units of 0.05 ns (R351). -/
def exchOffset (x : Port) (t1 t2 t3 t4 : Nat) : Int := 10 * (((t2 : Int) - t1) - ((t4 : Int) - t3)) - signed 16 x.asym

/-- Reply-cache entries whose holds keep what they have left when device time steps (R275, R352). -/
def moveHolds (l : List RcEntry) (old new : Nat) : List RcEntry := l.map fun e => { e with expiry := new + (e.expiry - old) }

/-- Device time set in one step, by the first accepted exchange after a cold reset (R352); ports in CONFIG may then
leave it. -/
def setTime (s : State) (t : Nat) : State :=
  let s := { s with now := t, te := { s.te with rc := moveHolds s.te.rc s.now t }
                    pc := { s.pc with timeSet := true, slew := 0, slewGap := 0 } }
  fabricPorts.foldl tryActive s

/-- TIME_REPLY_FRAME (R351, R352): the offset is rejected, or filtered and slewed; the first sets device time. -/
def execTimeReplyFrame (port_ : Nat) (f : LinkFrame) (s : State) : Host.Outcome State Fault Refusal :=
  .next (onLink s port_ 0x22 f fun s =>
    let x := port s port_
    match x.timeX with
    | none => s
    | some (n, t1) =>
      if lfAt f 24 8 ≠ n ∨ x.timeRole < 2 ∨ followed s ≠ port_ then s
      else
        let s := setPort s port_ { x with timeX := none }
        let o := exchOffset x t1 (lfAt f 8 8) (lfAt f 16 8) s.now
        if s.pc.haveEst = true ∧ 2000 < (o - s.pc.estimate).natAbs then pcCount s port_ 6 1
        else if s.pc.timeSet = false then
          let t := ((s.now : Int) + o / 20).toNat
          let s := { s with pc := { s.pc with upstream := port_, tState := 2, lastAcc := t, estimate := 0, haveEst := true, lastSync := t } }
          setTime s t
        else
          let e := if s.pc.haveEst then Config.timeFilter s.pc.estimate o else o
          tryActive { s with pc := { s.pc with upstream := port_, tState := 2, lastAcc := s.now, estimate := e, haveEst := true, slew := e / 20 } } port_)

/-- TIME_UPSTREAM_TIMEOUT (R353): 20 ms without an accepted exchange; the switch follows another upstream port that is
up, or enters HOLDOVER. -/
def execTimeUpstreamTimeout (s : State) : Host.Outcome State Fault Refusal :=
  .next (if mainUp s && decide (s.pc.tState = 2) && decide (s.pc.lastAcc + 20000000 ≤ s.now) then
    match (syncPorts s).find? fun p => decide (p ≠ s.pc.upstream) with
    | some p => { s with pc := { s.pc with upstream := p, lastAcc := s.now, haveEst := false, slew := 0 } }
    | none => { s with pc := { s.pc with upstream := 0xFF, tState := 3, holdT := s.now, haveEst := false, slew := 0 } }
  else s)

/-- HOLDOVER_TIMEOUT (R353): after 40 ms the switch is UNSYNC. -/
def execHoldoverTimeout (s : State) : Host.Outcome State Fault Refusal :=
  .next (if mainUp s && decide (s.pc.tState = 3) && decide (s.pc.holdT + 40000000 ≤ s.now)
    then raiseEvent { s with pc := { s.pc with tState := 4 } } 0 else s)

/-- The time state after a change of roles (R350, R352): with no upstream port the switch is the source; a source that
gets one follows it from its first exchange on, which slews the time that is set (DEDUCED, log 131). -/
def rolesChanged (s : State) : State :=
  if timeSource s then
    (if s.pc.tState = 1 then s else fabricPorts.foldl tryActive { s with pc := { s.pc with tState := 1, upstream := 0xFF, timeSet := true, haveEst := false, slew := 0 } })
  else if s.pc.tState = 1 then { s with pc := { s.pc with tState := 0, upstream := 0xFF, haveEst := false, slew := 0 } }
  else s

/-! ### Commits (R357, R358) -/

/-- Masks of the PORT descriptor. -/
def portMasks : List Nat := [fmask 0 1 + fmask 8 16, fmask 0 53, 0, 1]

/-- Checks of a PORT form (R357, R358). -/
def portReason (s : State) (d : List W64) : Nat :=
  let n := df d 0 8 8
  let x := port s n
  let mode := df d 0 17 1
  let role := df d 0 22 2
  firstFail [
    (decide (n < 192) && decide (x.state ≠ 0) && (decide (x.mode ≠ mode) || decide (x.epBase ≠ df d 1 32 16)), 1),
    (reservedSet d portMasks, 9),
    (decide (191 < n) || decide (3 < df d 0 19 3) || decide (1000 < df d 1 0 16) || decide (16 < df d 1 48 5), 4),
    (!portNamed s n, 0x0701),
    (decide (mode = 1) && s.sw.routes.any (fun r => r.2.present && r.2.ports.contains n), 0x0702),
    ((decide (2 ≤ role) && fabricPorts.any (fun p => decide (p ≠ n) && portNamed s p && decide ((port s p).timeRole = role)))
      || (decide (mode = 1) && (decide (role ≠ 0) || decide (df d 0 18 1 = 1))), 0x0703)]

/-- The settings of a PORT descriptor taken into a port, and the state it then moves to. -/
def applyPort (s : State) (n : Nat) (d : List W64) : State :=
  let x := port s n
  let test := df d 0 19 3
  let x := { x with mode := df d 0 17 1, prot := decide (df d 0 18 1 = 1), test := test, timeRole := df d 0 22 2, doze := df d 1 0 16, asym := df d 1 16 16,
                    epBase := df d 1 32 16, epCount := df d 1 48 5, status := accepted x.status }
  let s := setPort s n x
  let s := if test ≠ 0 then (if x.state = 6 then s else portGoesDown s n 6)
    else if x.state = 0 ∨ x.state = 6 then setPort s n { x with state := 1, stateT := s.now }
    else if x.doze = 0 then startWake s n else s
  rolesChanged s

/-- COMMIT_PORT (R357, R358). -/
def execCommitPort (cs : Nat) (s : State) : Host.Outcome State Fault Refusal :=
  .next (runCtl s cs 0xED (fun d => decide (df d 0 0 1 = 0)) (fun d => stampKey okPort (df d 0 8 8)) (fun s d => some (statusWord (port s (df d 0 8 8)).status)) fun s _ d =>
    let n := df d 0 8 8
    let key := some (stampKey okPort n)
    let r := if enableOf d then portReason s d else if 191 < n then 4 else 0
    if r ≠ 0 then
      let y := { port s n with status := refused (port s n).status r }
      refuse (if n < 192 then setPort s n y else s) r (some (statusWord y.status))
    else if enableOf d then
      let s := applyPort s n d
      { s := s, status := some (statusWord (port s n).status), obj := key, size := 64 }
    else
      let s := portGoesDown s n 0
      let s := setPort s n { port s n with status := { (port s n).status with enabled := false, reason := 0 } }
      { s := s, status := some (statusWord (port s n).status), obj := key, size := 64 })

/-- COMMIT_PORT_PAIR (R329, R357): SPLIT changes which numbers name ports, and sets each port's RESERVE to that of its
width (R303). -/
def execCommitPortPair (cs : Nat) (s : State) : Host.Outcome State Fault Refusal :=
  .next (runCtl s cs 0xED (fun d => decide (df d 0 0 1 = 1)) (fun d => stampKey okPort (256 + df d 0 8 8)) (fun s d => some (statusWord (pair s (df d 0 8 8)).status)) fun s _ d =>
    let k := df d 0 8 8
    let x := pair s k
    let ps := (List.range 4).map (4 * k + ·)
    let r := firstFail [
      (decide (k < 48) && enableOf d && ps.any (fun p => portNamed s p && decide ((port s p).state ≠ 0)), 1),
      (enableOf d && reservedSet d portMasks, 9),
      (decide (47 < k), 4)]
    if r ≠ 0 then
      let y := { x with status := refused x.status r }
      refuse (if k < 48 then setPair s k y else s) r (some (statusWord y.status))
    else
      let split := if enableOf d then decide (df d 0 16 1 = 1) else x.split
      let y := { x with split := split, status := { enabled := enableOf d } }
      let s := setPair s k y
      let s := if split = x.split then s else ps.foldl (fun s p => setSwPort s p { swPort s p with reserve := if split then 192 else 384 }) s
      { s := s, status := some (statusWord y.status), obj := some (stampKey okPort (256 + k)) })

/-- A window. -/
def window (s : State) (p w : Nat) : Window := tget {} s.pc.wins (p * 256 + w)
/-- A window replaced. -/
def setWindow (s : State) (p w : Nat) (x : Window) : State := { s with pc := { s.pc with wins := tput {} s.pc.wins (p * 256 + w) x } }

/-- Checks of a WINDOW that enables (R355, R358). -/
def windowReason (s : State) (d : List W64) : Nat :=
  let p := df d 0 0 8
  let i := df d 0 8 8
  let base := df d 0 16 40
  let fa := df d 1 0 60
  let n := df d 2 0 6
  let c := df d 2 16 12
  firstFail [
    (decide (p < 192) && decide ((port s p).part ≠ (comp s c).part), 7),
    (decide ((comp s c).state = 0), 8),
    (reservedSet d [fmask 0 56, fmask 0 60, fmask 0 9 + fmask 16 12 + fmask 32 32, 1 + fmask 32 32], 9),
    (decide (191 < p) || !decide (16 ≤ n ∧ n ≤ 40) || decide (0xF000 ≤ df d 2 48 16), 4),
    (!portNamed s p, 0x0701),
    (decide (base % 2 ^ n ≠ 0) || decide (fa % 2 ^ n ≠ 0) || decide (2 ^ 40 < base + 2 ^ n) || decide (df d 2 8 1 = 1), 0x0704),
    (s.pc.wins.any (fun w => decide (w.1 / 256 = p) && decide (w.1 % 256 ≠ i) && w.2.status.enabled && decide (w.2.base < base + 2 ^ n)
      && decide (base < w.2.base + 2 ^ w.2.log2)), 0x0705),
    (decide ((port s p).mode = 0), 0x0706)]

/-- COMMIT_WINDOW (R355, R357). -/
def execCommitWindow (cs : Nat) (s : State) : Host.Outcome State Fault Refusal :=
  .next (runCtl s cs 0xEE (fun _ => true) (fun d => stampKey okWindow (df d 0 0 16)) (fun s d => some (statusWord (window s (df d 0 0 8) (df d 0 8 8)).status)) fun s _ d =>
    let p := df d 0 0 8
    let i := df d 0 8 8
    let x := window s p i
    let r := if enableOf d then windowReason s d else if 191 < p then 4 else 0
    if r ≠ 0 then
      let y := { x with status := refused x.status r }
      refuse (if p < 192 then setWindow s p i y else s) r (some (statusWord y.status))
    else
      let y : Window := if enableOf d then
          { status := accepted x.status, base := df d 0 16 40, log2 := df d 2 0 6, fa := df d 1 0 60, rights := df d 2 6 3, comp := df d 2 16 12,
            region := df d 2 32 16, srcId := df d 2 48 16, rkey := df d 3 32 32 }
        else { x with status := { x.status with enabled := false, reason := 0 } }
      { s := setWindow s p i y, status := some (statusWord y.status), obj := some (stampKey okWindow (df d 0 0 16)), size := 64 })

end Sys2Proof.Machine
end

