-- ==== Sys2Proof/Machine/Clear.lean ====
section
/-! DEFINITION. What a warm or cold reset clears, block by block (R535–R537, R573): registers outside the always-on ranges return
to their reset columns; objects stay as the state image holds them; volatile memory is gone. -/

namespace Sys2Proof.Machine

/-! ### Control complex -/

/-- A mailbox after a reset: its binding is an object and stays; its registers lie in the always-on ranges. -/
def clearMbx (cold : Bool) (x : Mailbox) : Mailbox :=
  if cold then { priv := x.priv, part := x.part, comp := x.comp, bind := x.bind, running := x.running } else x

/-- A ring after a reset (R573): empty, at its reset registers; what the host had not consumed of fault and meter records waits
to be written again, oldest first. -/
def clearRing (n : Nat) (x : Ring) : Ring :=
  let y := tget {} resetRings n
  if n < 16 ∨ n = 18 then { base := y.base, size := y.size, held := x.copies ++ x.held } else { base := y.base, size := y.size }

/-- All rings after a reset. -/
def clearRings (s : State) : Tab Ring := (List.range 19).foldl (fun t n => tput {} t n (clearRing n (ring s n))) []

/-- A control sequencer after a reset: a retired one stays so. -/
def clearCtl (x : CtlSeq) : CtlSeq := if x.state = 3 then { state := 3 } else {}

/-- The control complex after a reset with a cause; `cold` also resets the always-on domain (R536), but for the status of a
COLD_RESET, which runs until stage READY (R541). -/
def clearCc (s : State) (cold : Bool) (cause : Nat) (rec : Bool) : CcState :=
  let c := s.cc
  let k : CcState := if cold then {} else c
  let a : CcState := if c.aonRun = 6 ∧ (cause = 3 ∨ cause = 7) then c else k
  { ideRequired := k.ideRequired, bootReason := k.bootReason, intStatus := k.intStatus, intMask := k.intMask, mbxPend := k.mbxPend,
    mbxMask := k.mbxMask, sent := k.sent, msixTable := k.msixTable, pba := k.pba, locks := k.locks, snap := k.snap,
    aonOp := a.aonOp, aonState := a.aonState, aonRun := a.aonRun, sbAddr := k.sbAddr, sbSmbus := k.sbSmbus,
    partResets := k.partResets, warmCount := if cold then 0 else min 65535 (c.warmCount + 1),
    mbx := tmap { } c.mbx fun _ x => clearMbx cold x,
    jq := tmap {} c.jq fun _ x => { x with bells := [] },
    rings := clearRings s, seqs := tmap {} c.seqs fun _ x => clearCtl x,
    crashIdx := k.crashIdx, resetCause := cause, devAreaLost := decide (cause = 5), part := c.part, mgmtFailed := c.mgmtFailed,
    caps := c.caps, coldBoot := cold, recReq := rec }

/-! ### Seam array and codec -/

/-- A stage unit after a reset: free, or a checker gone back to the spares; its number and partition stay (R112). -/
def clearUnit (u : SUnit) : SUnit :=
  { part := u.part, logical := u.logical, state := if u.state = 5 then 3 else if u.state = 3 ∨ u.state = 4 then u.state else 0 }

/-- A seam sequencer after a reset: idle with its number, partition and slice. -/
def clearSeam (x : Seam) : Seam :=
  { part := x.part, logical := x.logical, first := x.first, banks := x.banks, state := if x.state = 6 ∨ x.state = 7 then x.state else 0 }

/-- The seam array after a reset. -/
def clearSa (a : SaState) : SaState :=
  { units := tmap {} a.units fun _ u => clearUnit u, seqs := tmap {} a.seqs fun _ x => clearSeam x, runLim := a.runLim,
    sliceSt := a.sliceSt, mapSt := a.mapSt, cfgSt := a.cfgSt, bankFail := a.bankFail, rowsUsed := a.rowsUsed, pats := a.pats }

/-- A resident entry after a reset: both generations stay (R208), a load under way is undone, and no block references one. -/
def clearRes (r : GvRes) : GvRes :=
  let y : GvRes := { r with newRefs := 0, oldRefs := 0, closing := false, pend := none, waitT := 0, loading := false, retired := none }
  if r.loading = false then y
  else if r.oldLive = false then {}
  else match r.retired with
    | some x => { y with newGen := r.oldGen, newRec := r.oldRec, oldGen := x.1, oldRec := x.2 }
    | none => { y with newGen := r.oldGen, newRec := r.oldRec, oldLive := false, oldGen := 0, oldRec := [] }

/-- The codec after a reset; an ID whose first load was undone holds no entry. -/
def clearGv (g : GvState) : GvState :=
  let res := tmap {} g.res fun _ r => clearRes r
  { res := res, store := tmap {} g.store fun _ t => { t with res := t.res.filter fun k => (tget {} res k : GvRes).valid } }

/-! ### Fabric -/

/-- A copy engine after a reset: disabled, its transfers abandoned, its pointers kept (R280). -/
def clearCopy (x : CopyEng) : CopyEng := { x with status := {}, xfers := [], count := 0 }

/-- The transaction engine after a reset. What the volatile image holds is put back at restore. -/
def clearTe (t : TeState) : TeState :=
  { sync := tmap {} t.sync fun _ o => { o with value := 0 }, copy := tmap {} t.copy fun _ x => clearCopy x, fences := t.fences, tLost := t.tLost, notices := t.notices }

/-- A queue after a reset: empty. -/
def clearQueue (q : EQueue) : EQueue := { q with sTag := 0, fTag := 0, awake := false, frames := [] }

/-- The switch core after a reset. -/
def clearSw (s : State) (now : Nat) : SwState :=
  let w := s.sw
  { ports := tmap {} w.ports fun _ x => { x with waiting := [], v := 0, ctr := [] },
    queues := tmap {} w.queues fun _ q => clearQueue q, share := w.share, shareSt := w.shareSt, groups := w.groups,
    meters := tmap {} w.meters fun _ m => { m with tc := m.cbs * 8000, tp := m.pbs * 8000, last := now, green := 0, yellow := 0, redC := 0 },
    mirrors := tmap {} w.mirrors fun _ m => { m with seen := 0 }, routes := tmap {} w.routes fun _ r => { r with draining := [] } }

/-- A port after a reset: its settings stay, its link is gone. -/
def clearPort (x : Port) (now : Nat) : Port :=
  { linkReset x 0 now with rtt := 0, rxFrames := [], wire := [], lastRekey := 0, lastTx := 0, ctr := [] }

/-- The port complex after a reset; a warm reset keeps that device time has been set (R352). -/
def clearPc (s : State) (cold : Bool) (now : Nat) : PcState :=
  { ports := tmap {} s.pc.ports fun _ x => clearPort x now, pairs := tmap {} s.pc.pairs fun _ x => { split := x.split, status := x.status },
    wins := s.pc.wins, timeSet := !cold && s.pc.timeSet }

/-! ### Pool and isolation -/

/-- The tier manager after a reset: every copy in HBM and every lease is gone; the tier map itself is rebuilt at restore (R537). -/
def clearTr (t : TrState) : TrState :=
  { tmap := t.tmap, reserved := t.reserved, exts := t.exts, regions := t.regions,
    comps := tmap {} t.comps fun _ x => { x with closing := false, meter := {} },
    wsets := tmap {} t.wsets fun _ x => { x with hashing := false }, fdtags := t.fdtags, routeSt := t.routeSt }

/-- The isolation engine after a reset. -/
def clearIe (i : IeState) : IeState :=
  { tenants := i.tenants, ctxs := tmap {} i.ctxs fun _ x => { x with resident := false, seq := 0 },
    slots := tmap {} i.slots fun _ k => { k with uses := 0 }, pch := i.pch, ports := i.ports }

/-! ### Root of trust, power, vault -/

/-- The root of trust after a reset: sessions, delivered material and measurements are gone (R466). -/
def clearTa (t : TaState) (cold : Bool) : TaState :=
  { lcA := t.lcA, lcB := t.lcB, anchor := t.anchor, debug := !cold && t.debug, serial := t.serial, chain1 := t.chain1,
    changes := if cold then 0 else t.changes, pufBad := t.pufBad, sealedUnder := t.sealedUnder }

/-- The policy of the power and health controller, as its objects hold it. -/
def phImage (p : PhState) : PhImage :=
  { budget := p.budget, unitIdle := p.unitIdle, pllIdle := p.pllIdle, log2n := p.log2n, log2esc := p.log2esc, policy := p.policy,
    ageLimit := p.ageLimit, ceLimit := p.ceLimit, eyeMin := p.eyeMin, wstart := p.wstart, wlen := p.wlen, wperiod := p.wperiod,
    weights := p.flows.map fun f => (f.1, f.2.weight), status := p.status }

/-- Objects of the power and health controller as an image holds them. -/
def putPhImage (p : PhState) (x : PhImage) : PhState :=
  { p with budget := x.budget, unitIdle := x.unitIdle, pllIdle := x.pllIdle, log2n := x.log2n, log2esc := x.log2esc, policy := x.policy,
           ageLimit := x.ageLimit, ceLimit := x.ceLimit, eyeMin := x.eyeMin, wstart := x.wstart, wlen := x.wlen, wperiod := x.wperiod,
           flows := x.weights.foldl (fun t w => tmod {} t w.1 fun f => { f with weight := w.2 }) p.flows, status := x.status, img := none }

/-- The always-on registers of the power and health controller after a cold reset (R13, R536): its objects go to the state image,
which restore reads (R487). -/
def coldPh (p : PhState) : PhState := { putPhImage p {} with flows := [], sbCap := 1500, img := some (p.img.getD (phImage p)) }

/-- The power and health controller after a reset: its objects stay, and what has retired; no leave is held. -/
def clearPh (q : PhState) (cold : Bool) (now : Nat) : PhState :=
  let p := if cold then coldPh q else q
  { img := p.img, volts := p.volts, watts := p.watts, undervolt := p.undervolt, overvolt := p.overvolt, hbmFail := p.hbmFail, spareOut := p.spareOut,
    budget := p.budget, sbCap := p.sbCap, unitIdle := p.unitIdle, pllIdle := p.pllIdle,
    dies := tmap {} p.dies fun _ d => { tj := d.tj, throttle := d.throttle },
    flows := tmap {} p.flows fun _ f => { weight := f.weight }, units := tmap {} p.units fun _ u => { retired := u.retired },
    log2n := p.log2n, log2esc := p.log2esc, policy := p.policy, ageLimit := p.ageLimit, ceLimit := p.ceLimit, eyeMin := p.eyeMin,
    wstart := p.wstart, wlen := p.wlen, wperiod := p.wperiod, thrSince := now, status := p.status }

/-- A form's status word after a reset: a write under way has ended with it. -/
def clearLvForm (o : ObjStatus) : ObjStatus := { o with owner := 0 }

/-- The vault after a reset. `LV_STATUS.STATE` reads EXPORTED until a cold reset (R498); the usable energy of the bank is measured
at each cold boot (R486): DEDUCED (log 119), a warm reset keeps what was measured. -/
def clearLv (v : LvState) (cold : Bool) : LvState :=
  let l := if cold then { v with usable := 0, need := 0, dirtyEff := 0, holdupLow := false } else v
  { l with lastCause := 0, mapCache := [], state := if l.state = 6 ∧ cold = false then 6 else 0, status := tmap {} l.status fun _ o => clearLvForm o, ctr := [],
           flushCause := 0, flushThen := 0, flushRecovery := false, flushReset := 0, flushStart := 0, inputBack := false, imgWriting := none, exporting := none,
           removeStart := none, removeStopped := false }

/-- A reset takes effect, at boot stage RESET: cause of `CC_RESET_CAUSE`, and whether recovery mode is asked for. -/
def resetNow (s : State) (cold : Bool) (cause : Nat) (rec : Bool) : State :=
  let now := if cold then 0 else s.now
  { s with now := now, cc := clearCc s cold cause rec, lv := clearLv s.lv cold, sa := clearSa s.sa, gv := clearGv s.gv, te := clearTe s.te,
           sw := clearSw s now, pc := clearPc s cold now, tu := { asids := s.tu.asids }, tr := clearTr s.tr, ie := clearIe s.ie,
           ta := clearTa s.ta cold, ph := clearPh s.ph cold now
           hw := { s.hw with safe := if s.lv.state = 6 ∧ cold = false then 2 else 0, off := false } }

end Sys2Proof.Machine
end

