-- ==== Sys2Proof/Machine/Host.lean ====
section
/-! DEFINITION. Accesses of the control host and of the baseboard controller: registers (R5–R12,
R39, R81, R82), interrupts (R42), locks (R57–R59), mailbox halves (R48–R50), rings (R66), the bulk
window (R37, R45, R46) and the bootstrap check (R40, R43, R44). -/

namespace Sys2Proof.Machine

/-- How an access is answered before it reaches a register: served, completed with Unsupported
Request, or without any effect or answer. -/
inductive Access where
  | served
  | unsupported
  | absent
deriving DecidableEq, Repr

/-- A stream is in use both ways under one key set (R36). -/
def IdeStream.active (x : IdeStream) : Bool := (x.go.contains 0 && x.go.contains 2) || (x.go.contains 1 && x.go.contains 3)

/-- IDE is active on the management port: CXL.io and CXL.cachemem both (R34, R36; DEDUCED, log 118). -/
def ideActive (s : State) : Bool := s.cc.ideIo.active && s.cc.ideMem.active

/-- CXL.io outside the always-on 1 MiB of `CC` is refused until IDE is active (R36). -/
def ideBlocks (s : State) (off : Nat) : Bool :=
  s.cc.ideRequired && !ideActive s && decide (0x100000 ≤ off)

/-- The tests of R7, R36, R81, R557, R558 and R572 on a register access. -/
def access (s : State) (path : Path) (off size : Nat) : Access :=
  if unpowered s then .absent
  else match path with
  | .sideband => if size = 8 ∧ off % 8 = 0 then .served else .absent
  | .cxl =>
    if s.hw.perstLow then .absent
    else if 0x4000000 ≤ off ∨ ideBlocks s off = true then .unsupported
    else if ¬((size = 8 ∧ off % 8 = 0) ∨ (size = 4 ∧ off % 4 = 0)) then .unsupported
    else if inAon off = false ∧ mainUp s = false then .unsupported
    else .served

/-- The part of the sideband's reach that holds registers (R82). -/
def sidebandReach (off : Nat) : Bool :=
  decide (off < 0x3000) || (decide (0x19E00 ≤ off) && decide (off < 0x1A000))
    || (decide (0x80000 + 254 * 0x800 ≤ off) && decide (off < 0x80000 + 255 * 0x800))
    || (decide (0x400000 ≤ off) && decide (off < 0x440000))

/-- Register bits an access of a size covers, within the aligned 64-bit register. -/
def accessMask (off size : Nat) : W64 :=
  if size = 8 then w64 (2 ^ 64 - 1) else if off % 8 = 4 then w64 ((2 ^ 32 - 1) * 2 ^ 32) else w64 (2 ^ 32 - 1)

/-- Written data placed in the aligned 64-bit register. -/
def accessData (off size : Nat) (v : W64) : W64 :=
  if size = 8 then v else if off % 8 = 4 then v <<< 32 else v &&& w64 (2 ^ 32 - 1)

/-- A field written under a mask of the bits the access covers. -/
def mergeW (old v mask : W64) : W64 := (old &&& ~~~mask) ||| (v &&& mask)

/-- An access guarded by `access`: on `served` the function applies and the answer is OK. -/
def guarded (s : State) (path : Path) (off size : Nat) (f : State → State) : State :=
  match access s path off size with
  | .served => f { s with resp := .ok }
  | .unsupported => { s with resp := .unsupported }
  | .absent => { s with resp := .none }

/-! ### Interrupt registers -/

/-- Bits of `CC_INT_STATUS` and `CC_INT_MASK` that are not reserved. -/
def intBits : W64 := 0x0000FFFF00FFFFFF

/-- Vectors whose pending bit a clear takes away may send one further message (R42). -/
def rearm (sent cleared : W64) (vec : Nat → Nat) (n : Nat) : W64 :=
  (List.range n).foldl (fun a b => if bit cleared b then a &&& ~~~(w64 (2 ^ vec b)) else a) sent

/-- A W1C write of `CC_INT_STATUS`; clearing BULK_UE clears VALID of `CC_BULK_UE_ADDR`. -/
def intStatusClear (s : State) (v : W64) : State :=
  let c := s.cc.intStatus &&& v &&& intBits
  { s with cc := { s.cc with intStatus := s.cc.intStatus &&& ~~~c
                             sent := rearm s.cc.sent c eventVector 48
                             ueValid := s.cc.ueValid && !bit c 23 } }

/-- A W1C write of `CC_MBX_PEND`. -/
def mbxPendClear (s : State) (v : W64) : State :=
  let c := w64 s.cc.mbxPend.toNat &&& v
  { s with cc := { s.cc with mbxPend := s.cc.mbxPend &&& ~~~(w32 c.toNat)
                             sent := rearm s.cc.sent c (fun k => 32 + k) 32 } }

/-- A write of `CC_INT_MASK`; a pending event newly unmasked is signalled (R42). -/
def intMaskWrite (s : State) (v mask : W64) : State :=
  let m := mergeW s.cc.intMask v mask &&& intBits
  let fresh := fun b => bit s.cc.intStatus b && eventMasked s.cc.intMask b && !eventMasked m b
  (List.range 48).foldl (fun s b => if fresh b then sendVector s (eventVector b) else s)
    { s with cc := { s.cc with intMask := m } }

/-- A write of `CC_MBX_MASK`. -/
def mbxMaskWrite (s : State) (v mask : W64) : State :=
  let m := w32 (mergeW (w64 s.cc.mbxMask.toNat) v mask).toNat
  let fresh := s.cc.mbxMask &&& ~~~m &&& s.cc.mbxPend
  (List.range 32).foldl (fun s k => if bit fresh k then sendVector s (32 + k) else s)
    { s with cc := { s.cc with mbxMask := m } }

/-! ### Locks -/

/-- The owner of a lock, 0 when it is free. -/
def lockOwner (s : State) (k : Nat) : Nat := tget 0 s.cc.locks k

/-- A lock's owner set. -/
def setLock (s : State) (k n : Nat) : State := { s with cc := { s.cc with locks := tput 0 s.cc.locks k n } }

/-- A requester number a path may use: 1–239 on CXL.io, 254 on the sideband (R57, R82). -/
def aliasOk (path : Path) (n k : Nat) : Bool :=
  match path with
  | .cxl => decide (1 ≤ n) && decide (n ≤ 239) && decide (k < 256)
  | .sideband => decide (n = 254) && decide (k < 256)

/-- A read of a lock alias (R58): the owner before the read, the lock taken if it was free. -/
def lockRead (s : State) (n k : Nat) : State :=
  let o := lockOwner s k
  let s := { s with resp := .data (w64 o) }
  if o = 0 then setLock s k n else s

/-- A write to a lock alias (R58): the owner's own number frees the lock; any other is ignored. -/
def lockWrite (s : State) (n k : Nat) (v : W64) : State :=
  if lockOwner s k = n ∧ v.toNat = n then setLock s k 0 else s

/-- A write of `CC_LOCK_FORCE` (R59). DESIGN CHOICE (log 122): the whole 64-bit value names the lock, and one of 256 or more
names none. -/
def lockForce (s : State) (v : W64) : State := if v.toNat < 256 then setLock s v.toNat 0 else s

/-! ### Mailbox halves -/

/-- A write of a queue word of an inbound half; while FULL it is ignored and OVERRUN sets (R49). -/
def inWord (s : State) (m i : Nat) (v mask : W64) : State :=
  let x := mbx s m
  if x.inFull then setMbx s m { x with overrun := true }
  else setMbx s m { x with inQ := tput 0 x.inQ i (mergeW (tget 0 x.inQ i) v mask) }

/-- A write of `IN_HEAD` (R48, R49); mailbox 15 takes LEN 1–4 (R82). -/
def inHead (s : State) (m : Nat) (v : W64) : State :=
  let x := mbx s m
  let len := fld v 0 5
  if x.inFull then setMbx s m { x with overrun := true }
  else if len = 0 ∨ (if m = 79 then 4 else 16) < len then setMbx s m { x with malformed := true }
  else setMbx s m { x with inFull := true, inLen := len }

/-- A 32-bit write of the upper half of `IN_HEAD`, which holds no field: while FULL it is ignored and OVERRUN sets, as
for any write of `IN_HEAD` (R7, R49); else it has no effect (DEDUCED: log entry 106). -/
def inHeadUpper (s : State) (m : Nat) : State :=
  let x := mbx s m
  if x.inFull then setMbx s m { x with overrun := true } else s

/-- Value of a HEAD or PEEK register: [16] FULL, [4:0] LEN. -/
def headWord (full : Bool) (len : Nat) : W64 := w64 (len % 32 + b2n full * 65536)

/-- A read of `OUT_HEAD`: FULL and LEN, FULL cleared; a message that waited follows at once. -/
def outHead (s : State) (m : Nat) : State :=
  let x := mbx s m
  let s := { s with resp := .data (headWord x.outFull x.outLen) }
  if x.outFull then
    match x.outWait with
    | [] => setMbx s m { x with outFull := false }
    | ws :: rest => putOut (setMbx s m { x with outFull := false, outWait := rest }) m ws
  else s

/-- A write of `MBX_CTL`; that of mailbox 15 has none (R82). -/
def mbxCtl (s : State) (m : Nat) (v mask : W64) : State :=
  if m = 79 then s
  else
    let x := mbx s m
    setMbx s m { x with ctl := (mergeW (w64 x.ctl) v mask).toNat % 4 }

/-- A W1C write of `MBX_STATUS`: [1] MALFORMED, [0] OVERRUN. -/
def mbxStatusClear (s : State) (m : Nat) (v : W64) : State :=
  let x := mbx s m
  setMbx s m { x with malformed := x.malformed && !bit v 1, overrun := x.overrun && !bit v 0 }

/-- A write to a register of a mailbox, by offset within it. -/
def mbxWrite (s : State) (m o : Nat) (v mask : W64) : State :=
  if o < 0x80 then inWord s m (o / 8) v mask
  else if o = 0x80 then (if bit mask 0 then inHead s m v else inHeadUpper s m)
  else if o = 0x190 then mbxCtl s m v mask
  else if o = 0x198 then mbxStatusClear s m (v &&& mask)
  else s

/-- The mailbox whose registers an offset lies in: 0–63 host-facing, 64–79 internal. -/
def mbxOf (off : Nat) : Nat := (off - 0x10000) / 0x200

/-! ### Rings -/

/-- A `CONS` write: ignored when it would pass PROD or fall behind PROD − 2^SIZE (R66). The copies
kept in the Last of the records it passes go (R67, R68). -/
def ringCons (s : State) (n : Nat) (v : W64) : State :=
  let r := ring s n
  let c := w32 v.toNat
  if (r.prod - c).toNat ≤ 2 ^ r.size then
    let left := (r.prod - c).toNat
    setRing s n { r with cons := c, copies := r.copies.drop (r.copies.length - left) }
  else s

/-! ### Bootstrap -/

/-- Areas of the bulk window at the present bootstrap registers, as offset and length: the flag
area, the ring areas, the general area and the handover area (R43, R44). -/
def windowAreas (s : State) : List (Nat × Nat) :=
  (0, 0x400000) :: (List.range 19).map (fun n => ((ring s n).base, 2 ^ (ring s n).size * ringRec n))
    ++ [(s.cc.genBase, s.cc.genSize), (s.cc.hoBase, s.cc.hoSize)]

/-- No two areas of a list share a byte. -/
def areasApart : List (Nat × Nat) → Bool
  | [] => true
  | a :: t => t.all (fun b => decide (a.1 + a.2 ≤ b.1) || decide (b.1 + b.2 ≤ a.1) || decide (a.2 = 0) || decide (b.2 = 0))
      && areasApart t

/-- The check that setting DONE runs (R40, R43, R44, R66, R73), as its reason code. -/
def bootstrapReason (s : State) : Nat :=
  if ([16, 17, 18].any fun n => decide ((ring s n).size < 10) || decide (20 < (ring s n).size)) then 0x0004
  else if s.cc.wdog < 1000 ∨ 1000000 < s.cc.wdog then 0x0004
  else if (windowAreas s).any (fun a => decide (a.1 % 4096 ≠ 0) || decide (2 ^ 34 < a.1 + a.2)) then 0x0103
  else if s.cc.genSize % 4096 ≠ 0 ∨ s.cc.hoSize % 4096 ≠ 0 then 0x0103
  else if areasApart (windowAreas s) = false then 0x0103
  else if s.cc.hoSize < 1073741888 then 0x0103
  else 0

/-- Records held for a ring while DONE was 0 written into it, oldest first (R68). -/
def flushHeld (s : State) (n : Nat) : State :=
  let r := ring s n
  r.held.foldl (fun s ws => ringWrite s n ws) (setRing s n { r with held := [] })

/-- A write of `CC_BOOT_CTL` (R40): IDE_REQUIRED is RW, DONE is W1S and runs the check. The
bootstrap set is writable from stage READY (R455) until DONE. -/
def bootCtl (s : State) (v mask : W64) : State :=
  if s.cc.bootDone ∨ s.cc.stage ≠ 6 then s
  else
    let s := if bit mask 1 then { s with cc := { s.cc with ideRequired := bit v 1 } } else s
    if bit (v &&& mask) 0 then
      let r := bootstrapReason s
      let s := { s with cc := { s.cc with bootReason := r } }
      if r = 0 then
        let s := { s with cc := { s.cc with bootDone := true } }
        ((List.range 16) ++ [18]).foldl flushHeld s
      else s
    else s

/-! ### Bulk window -/

/-- CXL.mem requests are dropped, and counted, until IDE is active where it is required (R36); none
arrives while PERST_N is low (R557). DESIGN CHOICE (log 121): such a request is counted in `CC_BULK_VIOL` and
makes no vector pending. -/
def memDropped (s : State) : Bool := s.cc.ideRequired && !ideActive s

/-- `CC_BULK_VIOL` raised. -/
def bulkViolation (s : State) (n : Nat) : State :=
  { s with cc := { s.cc with bulkViol := satInc s.cc.bulkViol n } }

/-- The value a host may write to a host-owned flag: the flip, or the flag unchanged (R45). -/
def flagAccepted (old new : Byte) : Bool := !bit old 0 && (decide (new = old) || decide (new = flipByte old))

/-- One flag byte of a host write (R45). -/
def flagWrite1 (s : State) (page : Nat) (b : Byte) : State :=
  if pageInGen s page then
    if flagAccepted (memGet s.cc.flags page) b then
      { s with cc := { s.cc with flags := memPut s.cc.flags page b } }
    else raiseEvent (bulkViolation s 1) 0
  else s

/-- The flag bytes of a host write, under byte enables (R46). -/
def flagWrite (s : State) (page : Nat) : List (Option Byte) → State
  | [] => s
  | some b :: t => flagWrite (flagWrite1 s page b) (page + 1) t
  | none :: t => flagWrite s (page + 1) t

/-- A host write to data of the window (R45): ignored and counted once when a page it touches is
device-owned. -/
def bulkWrite (s : State) (off : Nat) (data : List (Option Byte)) : State :=
  if data ≠ [] ∧ (pagesOf off data.length).any (fun p => devOwned s p) = true then raiseEvent (bulkViolation s 1) 0
  else { s with cc := { s.cc with bulk := memWriteBE s.cc.bulk off data } }

/-! ### Read-clear counters -/

/-- The RC counters by offset: block and index. -/
inductive CtrSel where
  | bulkViol
  | ringLost (n : Nat)
  | sa (i : Nat) | gv (i : Nat) | te (i : Nat) | tu (i : Nat) | tr (i : Nat) | ie (i : Nat)
  | ta (i : Nat) | lv (i : Nat) | ph (i : Nat)
  | pcPort (p i : Nat) | swPort (p i : Nat)
  | mirCopies | mirDrop
  | hist (i : Nat)
  | meter (m c : Nat)
deriving DecidableEq, Repr

/-- Register index of an offset in a range of `n` registers from a base. -/
def regIx (off base n : Nat) : Option Nat :=
  if base ≤ off ∧ off < base + 8 * n then some ((off - base) / 8) else none

/-- The counter at an aligned offset (R67, R68, R148, R211, R295, R326, R361, R382, R419, R449,
R475, R501, R526). -/
def ctrSel (off : Nat) : Option CtrSel :=
  if off = 0x100420 then some .bulkViol
  else ((regIx off 0x100300 16).map .ringLost)
    <|> ((regIx off 0x100380 3).map fun i => .ringLost (16 + i))
    <|> ((regIx off 0x3806000 7).map .sa)
    <|> ((regIx off 0x3806100 48).map fun i => .sa (32 + i))
    <|> ((regIx off 0x3C00100 8).map .gv)
    <|> ((regIx off 0x2000100 11).map .te)
    <|> ((regIx off 0x2801000 8).map .tu)
    <|> ((regIx off 0x3000100 10).map .tr)
    <|> ((regIx off 0x3400100 6).map .ie)
    <|> ((regIx off 0x800100 6).map .ta)
    <|> ((regIx off 0xC00400 10).map .lv)
    <|> ((regIx off 0x460000 8).map .ph)
    <|> ((regIx off 0x1200000 (192 * 8)).map fun i => .pcPort (i / 8) (i % 8))
    <|> ((regIx off 0x1802000 (200 * 8)).map fun i => .swPort (i / 8) (i % 8))
    <|> (if off = 0x1806000 then some .mirCopies else none)
    <|> (if off = 0x1806008 then some .mirDrop else none)
    <|> ((regIx off 0x1900000 (200 * 64 * 16)).map .hist)
    <|> ((regIx off 0x1B00000 (16384 * 4)).bind fun i => if i % 4 < 3 then some (.meter (i / 4) (i % 4)) else none)

/-- The value of a counter. -/
def ctrGet (s : State) : CtrSel → W64
  | .bulkViol => s.cc.bulkViol
  | .ringLost n => (ring s n).lost
  | .sa i => tget 0 s.sa.ctr i
  | .gv i => tget 0 s.gv.ctr i
  | .te i => tget 0 s.te.ctr i
  | .tu i => tget 0 s.tu.ctr i
  | .tr i => tget 0 s.tr.ctr i
  | .ie i => tget 0 s.ie.ctr i
  | .ta i => tget 0 s.ta.ctr i
  | .lv i => tget 0 s.lv.ctr i
  | .ph i => tget 0 s.ph.ctr i
  | .pcPort p i => tget 0 (tget {} s.pc.ports p).ctr i
  | .swPort p i => tget 0 (tget {} s.sw.ports p).ctr i
  | .mirCopies => s.sw.mirCopies
  | .mirDrop => s.sw.mirDrop
  | .hist i => tget 0 s.sw.hist i
  | .meter m c =>
    let x := tget {} s.sw.meters m
    if c = 0 then x.green else if c = 1 then x.yellow else x.redC

/-- A counter set. -/
def ctrSet (s : State) (c : CtrSel) (v : W64) : State :=
  match c with
  | .bulkViol => { s with cc := { s.cc with bulkViol := v } }
  | .ringLost n => setRing s n { ring s n with lost := v }
  | .sa i => { s with sa := { s.sa with ctr := tput 0 s.sa.ctr i v } }
  | .gv i => { s with gv := { s.gv with ctr := tput 0 s.gv.ctr i v } }
  | .te i => { s with te := { s.te with ctr := tput 0 s.te.ctr i v } }
  | .tu i => { s with tu := { s.tu with ctr := tput 0 s.tu.ctr i v } }
  | .tr i => { s with tr := { s.tr with ctr := tput 0 s.tr.ctr i v } }
  | .ie i => { s with ie := { s.ie with ctr := tput 0 s.ie.ctr i v } }
  | .ta i => { s with ta := { s.ta with ctr := tput 0 s.ta.ctr i v } }
  | .lv i => { s with lv := { s.lv with ctr := tput 0 s.lv.ctr i v } }
  | .ph i => { s with ph := { s.ph with ctr := tput 0 s.ph.ctr i v } }
  | .pcPort p i => { s with pc := { s.pc with ports := tmod {} s.pc.ports p fun x => { x with ctr := tput 0 x.ctr i v } } }
  | .swPort p i => { s with sw := { s.sw with ports := tmod {} s.sw.ports p fun x => { x with ctr := tput 0 x.ctr i v } } }
  | .mirCopies => { s with sw := { s.sw with mirCopies := v } }
  | .mirDrop => { s with sw := { s.sw with mirDrop := v } }
  | .hist i => { s with sw := { s.sw with hist := tput 0 s.sw.hist i v } }
  | .meter m k => { s with sw := { s.sw with meters := tmod {} s.sw.meters m fun x =>
      if k = 0 then { x with green := v } else if k = 1 then { x with yellow := v } else { x with redC := v } } }

/-- The bits an access reads, moved down to bit 0. -/
def readPart (off size : Nat) (v : W64) : W64 :=
  if size = 8 then v else if off % 8 = 4 then v >>> 32 else v &&& w64 (2 ^ 32 - 1)

/-- A read of an RC counter (R11): the value, and the bits read cleared. -/
def counterRead (s : State) (off size : Nat) : State :=
  match ctrSel (off / 8 * 8) with
  | none => { s with resp := .data 0 }
  | some c =>
    let v := ctrGet s c
    ctrSet { s with resp := .data (readPart off size v) } c (v &&& ~~~(accessMask off size))

/-! ### Writes to registers -/

/-- The effective budget, the lower of `PH_BUDGET` and `PH_SB_CAP` (R503). -/
def effBudget (s : State) : Nat := min s.ph.budget s.ph.sbCap

/-- A sideband write of `PH_SB_CAP`, taken as 300 or 1,500 outside that range (R503). -/
def sbCapWrite (s : State) (v : W64) : State :=
  { s with ph := { s.ph with sbCap := max 300 (min 1500 (fld v 0 16)) } }

/-- A bootstrap-set member of the main domain written while DONE is 0 (R39, R44, R66, R73). -/
def bootWrite (s : State) (off : Nat) (v mask : W64) : State :=
  if s.cc.bootDone ∨ s.cc.stage ≠ 6 then s
  else if off < 0x100000 + 19 * 0x20 ∧ off % 0x20 = 0 then
    let n := (off - 0x100000) / 0x20
    let r := ring s n
    setRing s n { r with base := fld (mergeW (w64 r.base) v mask) 0 34 }
  else if off < 0x100000 + 19 * 0x20 ∧ off % 0x20 = 8 then
    let n := (off - 0x100000) / 0x20
    let r := ring s n
    if n < 16 then s else setRing s n { r with size := fld (mergeW (w64 r.size) v mask) 0 5 }
  else if off = 0x100400 then { s with cc := { s.cc with genBase := fld (mergeW (w64 s.cc.genBase) v mask) 0 34 } }
  else if off = 0x100408 then { s with cc := { s.cc with genSize := fld (mergeW (w64 s.cc.genSize) v mask) 0 35 } }
  else if off = 0x100410 then { s with cc := { s.cc with hoBase := fld (mergeW (w64 s.cc.hoBase) v mask) 0 34 } }
  else if off = 0x100418 then { s with cc := { s.cc with hoSize := fld (mergeW (w64 s.cc.hoSize) v mask) 0 35 } }
  else if off = 0x101100 then { s with cc := { s.cc with wdog := fld (mergeW (w64 s.cc.wdog) v mask) 0 32 } }
  else s

/-- A write to the aligned register at an offset from CXL.io, `AON` being what a write of
`CC_AON_OP` does: the registers of R39, with no effect elsewhere (R6, R15). -/
def cxlWrite (aon : State → W64 → State) (s : State) (off : Nat) (v mask : W64) : State :=
  if off = 0x20 then intStatusClear s (v &&& mask)
  else if off = 0x28 then intMaskWrite s v mask
  else if off = 0x30 then mbxPendClear s (v &&& mask)
  else if off = 0x38 then mbxMaskWrite s v mask
  else if off = 0x1000 then bootCtl s v mask
  else if off = 0x2000 then aon s (v &&& mask)
  else if off = 0x2010 then (if bit mask 0 then lockForce s (v &&& mask) else s)
  else if 0x3000 ≤ off ∧ off < 0x3400 then
    { s with cc := { s.cc with msixTable := tmod 0 s.cc.msixTable (off / 8) fun o => mergeW o v mask } }
  else if off = 0x3800 then { s with cc := { s.cc with pba := mergeW s.cc.pba v mask } }
  else if 0x10000 ≤ off ∧ off < 0x1A000 then mbxWrite s (mbxOf off) (off % 0x200) v mask
  else if 0x80000 ≤ off ∧ off < 0x100000 then
    (if bit mask 0 then lockWrite s ((off - 0x80000) / 0x800) (off % 0x800 / 8) (v &&& mask) else s)
  else if 0x100000 ≤ off ∧ off < 0x100000 + 19 * 0x20 ∧ off % 0x20 = 0x18 then
    ringCons s ((off - 0x100000) / 0x20) (mergeW (w64 (ring s ((off - 0x100000) / 0x20)).cons.toNat) v mask)
  else if 0x100000 ≤ off ∧ off < 0x102000 then bootWrite s off v mask
  else s

/-- A write over the sideband (R82). -/
def sidebandWrite (aon : State → W64 → State) (s : State) (off : Nat) (v : W64) : State :=
  if off = 0x2000 then aon s v
  else if off = 0x2010 then lockForce s v
  else if 0x19E00 ≤ off ∧ off < 0x1A000 then mbxWrite s 79 (off % 0x200) v (accessMask 0 8)
  else if 0x80000 + 254 * 0x800 ≤ off ∧ off < 0x80000 + 255 * 0x800 then lockWrite s 254 (off % 0x800 / 8) v
  else if off = 0x400020 then sbCapWrite s v
  else s

/-- A lock alias whose requester number CXL.io may not use (R57). -/
def aliasBarred (off : Nat) : Bool :=
  decide (0x80000 ≤ off ∧ off < 0x100000) && (decide ((off - 0x80000) / 0x800 = 0) || decide (240 ≤ (off - 0x80000) / 0x800))

/-- A register write of either path. -/
def registerWrite (aon : State → W64 → State) (s : State) (path : Path) (off size : Nat) (v : W64) : State :=
  guarded s path off size fun s =>
    match path with
    | .sideband => sidebandWrite aon s off v
    | .cxl =>
      if aliasBarred off then { s with resp := .unsupported }
      else cxlWrite aon s (off / 8 * 8) (accessData off size v) (accessMask off size)

/-! ### The commands -/

/-- BOOTSTRAP_DONE (R40): a 64-bit CXL.io write of `CC_BOOT_CTL`; the sideband writes it not (R82). -/
def execBootstrapDone (path : Path) (v : W64) (s : State) : Host.Outcome State Fault Refusal :=
  .next (guarded s path 0x1000 8 fun s =>
    match path with
    | .sideband => s
    | .cxl => bootCtl s v (accessMask 0 8))

/-- INT_PEND_CLEAR (R42): a write of `CC_INT_STATUS` or `CC_MBX_PEND`. -/
def execIntPendClear (path : Path) (off size : Nat) (v : W64) (s : State) : Host.Outcome State Fault Refusal :=
  .next (guarded s path off size fun s =>
    match path with
    | .sideband => s
    | .cxl =>
      let d := accessData off size v &&& accessMask off size
      if off / 8 * 8 = 0x20 then intStatusClear s d
      else if off / 8 * 8 = 0x30 then mbxPendClear s d
      else s)

/-- INT_MASK_WRITE (R42): a write of `CC_INT_MASK` or `CC_MBX_MASK`. -/
def execIntMaskWrite (path : Path) (off size : Nat) (v : W64) (s : State) : Host.Outcome State Fault Refusal :=
  .next (guarded s path off size fun s =>
    match path with
    | .sideband => s
    | .cxl =>
      if off / 8 * 8 = 0x28 then intMaskWrite s (accessData off size v) (accessMask off size)
      else if off / 8 * 8 = 0x38 then mbxMaskWrite s (accessData off size v) (accessMask off size)
      else s)

/-- LOCK_ACQUIRE (R57, R58): requester `n` reads lock `k` at its alias. -/
def execLockAcquire (path : Path) (n k : Nat) (s : State) : Host.Outcome State Fault Refusal :=
  .next (guarded s path (0x80000 + n * 0x800 + k * 8) 8 fun s =>
    if aliasOk path n k then lockRead s n k
    else match path with
      | .cxl => { s with resp := .unsupported }
      | .sideband => { s with resp := .data 0 })

/-- LOCK_RELEASE (R58): requester `n` writes `v` to its alias of lock `k`. -/
def execLockRelease (path : Path) (n k : Nat) (v : W64) (s : State) : Host.Outcome State Fault Refusal :=
  .next (guarded s path (0x80000 + n * 0x800 + k * 8) 8 fun s =>
    if aliasOk path n k then lockWrite s n k v
    else match path with
      | .cxl => { s with resp := .unsupported }
      | .sideband => s)

/-- LOCK_FORCE (R59). -/
def execLockForce (path : Path) (v : W64) (s : State) : Host.Outcome State Fault Refusal :=
  .next (guarded s path 0x2010 8 fun s => lockForce s v)

/-- IN_HEAD_WRITE (R48, R49): a sender writes LEN to `IN_HEAD` of mailbox `m`. -/
def execInHeadWrite (path : Path) (m : Nat) (v : W64) (s : State) : Host.Outcome State Fault Refusal :=
  .next (guarded s path (0x10000 + m * 0x200 + 0x80) 8 fun s =>
    match path with
    | .cxl => if m < 80 then inHead s m v else s
    | .sideband => if m = 79 then inHead s m v else s)

/-- OUT_HEAD_READ (R48, R50): a read of `OUT_HEAD` of mailbox `m`. -/
def execOutHeadRead (path : Path) (m : Nat) (s : State) : Host.Outcome State Fault Refusal :=
  .next (guarded s path (0x10000 + m * 0x200 + 0x180) 8 fun s =>
    match path with
    | .cxl => if m < 80 then outHead s m else { s with resp := .data 0 }
    | .sideband => if m = 79 then outHead s m else { s with resp := .data 0 })

/-- RING_CONS_WRITE (R66): a CXL.io write of the `CONS` register of ring `n`. -/
def execRingConsWrite (n : Nat) (v : W64) (s : State) : Host.Outcome State Fault Refusal :=
  .next (guarded s .cxl (0x100000 + n * 0x20 + 0x18) 8 fun s => if n < 19 then ringCons s n v else s)

/-- FLAG_BYTE_WRITE (R45, R46): a CXL.mem write in the flag area. -/
def execFlagByteWrite (off : Nat) (data : List (Option Byte)) (s : State) : Host.Outcome State Fault Refusal :=
  .next (if s.hw.perstLow || windowOff s then { s with resp := .none }
    else if memDropped s then bulkViolation { s with resp := .none } 1
    else flagWrite { s with resp := .ok } off data)

/-- BULK_DATA_WRITE (R45, R46): a CXL.mem write outside the flag area. -/
def execBulkDataWrite (off : Nat) (data : List (Option Byte)) (s : State) : Host.Outcome State Fault Refusal :=
  .next (if s.hw.perstLow || windowOff s then { s with resp := .none }
    else if memDropped s then bulkViolation { s with resp := .none } 1
    else if off < 0x400000 then flagWrite { s with resp := .ok } off data
    else bulkWrite { s with resp := .ok } off data)

/-- BULK_READ (R37): a CXL.mem read of the window; `ue` is the offset of a line that meets an
uncorrectable error, and the read then returns all-ones. -/
def execBulkRead (off len : Nat) (ue : Option Nat) (s : State) : Host.Outcome State Fault Refusal :=
  .next (if s.hw.perstLow || windowOff s then { s with resp := .none }
    else if memDropped s then bulkViolation { s with resp := .none } 1
    else match ue with
      | none => { s with resp := .bytes (bulkRead s off len) }
      | some a =>
        let s := { s with resp := .bytes (List.replicate len 0xFF) }
        let s := if s.cc.ueValid then s else { s with cc := { s.cc with ueValid := true, ueOffset := a % 2 ^ 34 } }
        raiseEvent s 23)

/-- SB_CAP_WRITE (R503, R525): `PH_SB_CAP` is writable from the sideband only. -/
def execSbCapWrite (path : Path) (v : W64) (s : State) : Host.Outcome State Fault Refusal :=
  .next (guarded s path 0x400020 8 fun s =>
    match path with
    | .cxl => s
    | .sideband => sbCapWrite s v)

end Sys2Proof.Machine
end

