-- ==== Sys2Proof/Machine/Trust.lean ====
section
/-! DEFINITION. The root of trust: the limited-change record (R456–R460), SPDM connections (R461–R463), the Kilhar messages
(R464–R466) and the attestation report (R467–R470). -/

namespace Sys2Proof.Machine

/-- A TA counter raised (*TA counters*). -/
def taCount (s : State) (i n : Nat) : State := { s with ta := { s.ta with ctr := tmod 0 s.ta.ctr i fun c => satInc c n } }

/-! ### The limited-change record -/

/-- Copy B holds the newest valid record (R460). -/
def newestB (s : State) : Bool := s.ta.lcB.valid && (!s.ta.lcA.valid || decide (s.ta.lcA.seq < s.ta.lcB.seq))

/-- A change writes the whole record into the copy that does not hold the newest valid one (R460), and the attestation log
records it. -/
def writeLc (s : State) (setting value : Nat) (r : LcRec) : State :=
  let n := (if newestB s then s.ta.lcB.seq else s.ta.lcA.seq) + 1
  let c : LcCopy := { valid := true, seq := n, val := r }
  let s := { s with ta := { s.ta with lcLast := some (setting, s.now) } }
  attest (if newestB s then { s with ta := { s.ta with lcA := c } } else { s with ta := { s.ta with lcB := c } }) 2 setting value []

/-- A setting has been changed in this cycle already (R460; DESIGN CHOICE: log entry 107). -/
def lcTaken (s : State) (setting : Nat) : Bool := decide (s.ta.lcLast = some (setting, s.now))

/-- Every delivered entry is zeroised (R456, R466). -/
def clearDelivered (s : State) : State := { s with ta := { s.ta with deliv := [] } }

/-- Every key slot zeroised at once, without drain (R442). -/
def zeroiseAll (s : State) : State := (tkeys s.ie.slots).foldl (fun s n => if (slot s n).state ≠ 0 then zeroise s n else s) s

/-! ### The partition layout record (R468) -/

/-- `n` bytes of a bitmap, bit i of which is `f i`. -/
def bitmap (n : Nat) (f : Nat → Bool) : Bytes :=
  (List.range n).map fun b => BitVec.ofNat 8 ((List.range 8).foldl (fun v i => v + b2n (f (8 * b + i)) * 2 ^ i) 0)

/-- The logical number of a type belongs to a partition; type 0 is the seam sequencers. -/
def logicalIn (s : State) (part ty l : Nat) : Bool := match physOf s ty l with
  | none => false
  | some p => if ty = 0 then decide ((seam s p).part = part) else decide ((unitAt s ty p).part = part)

/-- The block of a partition. -/
def layoutBlock (s : State) (p : Nat) : Bytes :=
  fitTo 128 (bitmap 24 (fun n => portNamed s n && decide ((port s n).part = p))
    ++ bitmap 8 (logicalIn s p 0) ++ bitmap 16 (logicalIn s p 1) ++ bitmap 8 (logicalIn s p 2) ++ bitmap 4 (logicalIn s p 3)
    ++ bitmap 4 (logicalIn s p 4) ++ bitmap 8 (logicalIn s p 5) ++ bitmap 6 (logicalIn s p 6) ++ bitmap 2 (logicalIn s p 7)
    ++ bitmap 16 (fun n => decide ((pch s n).part = p) && decide (n < pchEnd s)))

/-- The partition layout record. -/
def layoutRecord (s : State) : Bytes := (List.range 16).flatMap (layoutBlock s)

/-! ### SPDM over DOE -/

/-- A message on a connection is answered: until stage READY DOE answers with ResponseNotReady (R455); none arrives while
PERST_N is low (R557), in a session that is not open, or on a link that is not up. An answer of DOE makes vector 21 pending
(R42, log entry 104: PRESUMED). -/
def onConn (s : State) (k : Nat) (go : State → State) : State :=
  if k ≤ 4 then
    if s.hw.perstLow || unpowered s then { s with resp := .none }
    else
      let t := if s.cc.stage ≠ 6 then { s with resp := .bytes (spdmMsg 0x7F 0x42) }
        else if k ≠ 0 ∧ (sess s k).opened = false then { s with resp := .bytes (spdmMsg 0x7F 0x02) }
        else go s
      raiseEvent t 21
  else
    let p := k - 16
    if mainUp s && decide (16 ≤ k) && portNamed s p && decide (3 ≤ (port s p).state ∧ (port s p).state ≤ 5) then go s else s

/-- An answer on a connection. That of a link also leaves in a KEYMSG frame, protected by the session, so the wire shows its
code only. -/
def sayBack (s : State) (k : Nat) (m : Bytes) : State :=
  let s := { s with resp := .bytes m }
  if k ≤ 4 then s else sendKeymsg s (k - 16) (spdmMsg 0x7E 0)

/-- A free secured DOE session. -/
def freeSession (s : State) : Option Nat := [1, 2, 3, 4].find? fun k => !(sess s k).opened

/-- A request outside a session: the negotiation, and the KEY_EXCHANGE that takes one of the four sessions (R461). -/
def doeOpen (s : State) (m : Bytes) : State :=
  let x := sess s 0
  if leAt m 0 1 = 0x12 ∧ leAt m 1 1 = 0xE4 ∧ x.phase = 3 then
    match freeSession s with
    | none => sayBack s 0 (spdmMsg 0x7F 0x0A)
    | some k => sayBack (setSess s k { opened := true, phase := 4, lastBeat := s.now }) 0 (spdmMsg 0x64 k)
  else
    let r := spdmReply x.phase m
    sayBack (setSess s 0 { x with opened := true, phase := r.2 }) 0 r.1

/-- A request inside a session (R461). -/
def doeSession (s : State) (k : Nat) (m : Bytes) : State :=
  let x := sess s k
  match leAt m 1 1 with
  | 0xE5 =>
    if x.secured then sayBack s k (spdmMsg 0x7F 0x04)
    else match Config.spdmRoot k m with
      | none => sayBack (setSess (taCount s 1 1) k {}) k (spdmMsg 0x7F 0x06)
      | some r => sayBack (setSess s k { x with secured := true, root := r, lastBeat := s.now }) k (spdmMsg 0x65 0)
  | 0xEC => if x.secured then sayBack (setSess s k {}) k (spdmMsg 0x6C 0) else sayBack s k (spdmMsg 0x7F 0x04)
  | _ =>
    let r := spdmReply x.phase m
    sayBack (setSess s k { x with missed := 0, lastBeat := s.now }) k r.1

/-- SPDM_REQUEST (R461): an SPDM request over DOE, outside a session or inside one of the four. -/
def execSpdmRequest (sess_ : Nat) (req : Bytes) (s : State) : Host.Outcome State Fault Refusal :=
  .next (if sess_ ≤ 4 then onConn s sess_ fun s => if sess_ = 0 then doeOpen s req else doeSession s sess_ req else s)

/-- SPDM_HEARTBEAT_MISS (R461): a heartbeat period of 60 s passes without one; a session that misses three ends, and with
a link's session its port goes down (R347). -/
def execSpdmHeartbeatMiss (sess_ : Nat) (s : State) : Host.Outcome State Fault Refusal :=
  .next (let x := sess s sess_
    if mainUp s && x.opened && x.secured && decide (x.lastBeat + 60000000000 * (x.missed + 1) ≤ s.now) then
      if x.missed < 2 then setSess s sess_ { x with missed := x.missed + 1 }
      else if sess_ ≤ 4 then setSess s sess_ {}
      else portGoesDown (setSess s sess_ {}) (sess_ - 16) 1
    else s)

/-- A secured session of either kind. -/
def securedOn (s : State) (k : Nat) : Bool := decide (k ≠ 0) && (sess s k).opened && (sess s k).secured
/-- A secured DOE session. -/
def securedDoe (s : State) (k : Nat) : Bool := decide (k ≤ 4) && securedOn s k
/-- Owner authority (R464). -/
def ownerOn (s : State) (k : Nat) : Bool := securedDoe s k && decide (s.ta.anchor ≠ []) && decide ((sess s k).root = s.ta.anchor)

/-- SET_CERTIFICATE (R462). -/
def execSetCertificate (sess_ : Nat) (slot_ : Nat) (chain : Bytes) (s : State) : Host.Outcome State Fault Refusal :=
  .next (onConn s sess_ fun s =>
    if slot_ = 1 ∧ ownerOn s sess_ = true ∧ Config.chainLeaf chain = Config.keyDigest (ownerSeed s)
    then sayBack { s with ta := { s.ta with chain1 := chain } } sess_ (spdmMsg 0x6E 1)
    else sayBack s sess_ (spdmMsg 0x7F 0x04))

/-- GET_CSR (R462): a certificate request for the OwnerID key. -/
def execGetCsr (sess_ : Nat) (s : State) : Host.Outcome State Fault Refusal :=
  .next (onConn s sess_ fun s => sayBack s sess_ (spdmMsg 0x6D 0 ++ Config.certRequest (ownerSeed s)))

/-- A measurement block (R463). -/
def measBlock (s : State) (i : Nat) : Bytes :=
  if i ≤ 5 then fitTo 32 (measOf s (i - 1)) else if i = 6 then bytesLE 8 (taLc s).toNat ++ bytesLE 8 (taState s).toNat else layoutRecord s

/-- GET_MEASUREMENTS (R463): one block, all of them for index 0xFF, or their number for index 0; signed with the Alias key
when asked. -/
def execGetMeasurements (sess_ : Nat) (index : Nat) (sign : Bool) (nonce : Bytes) (s : State) : Host.Outcome State Fault Refusal :=
  .next (onConn s sess_ fun s =>
    if 7 < index ∧ index ≠ 0xFF then sayBack s sess_ (spdmMsg 0x7F 0x01)
    else
      let body := if index = 0 then [] else if index = 0xFF then [1, 2, 3, 4, 5, 6, 7].flatMap (measBlock s) else measBlock s index
      let m := spdmMsg 0x60 (if index = 0 then 7 else 0) ++ body ++ fitTo 32 nonce
      sayBack s sess_ (if sign then m ++ fitTo 64 (Config.sm2Sign (cdi1 s) m) else m))

/-! ### Kilhar messages -/

/-- A Kilhar message answered: the reason code in bytes 0–1, then the results. -/
def kilhar (s : State) (k reason : Nat) (res : Bytes) : State := sayBack s k (bytesLE 2 reason ++ if reason = 0 then res else [])

/-- The limited-change record as the messages return it: `TA_LC`, SEALED and the layout digest. -/
def lcBytes (s : State) : Bytes := bytesLE 8 (taLc s).toNat ++ bytesLE 8 (b2n (lcNow s).sealed) ++ fitTo 32 (lcNow s).layout

/-- A limited-change message: refused and counted, or the record changed, `after` following the write (R456, R475). A second change of
a setting in one cycle is refused with OBJECT_BUSY (R460). -/
def changeLc (s : State) (k reason setting value : Nat) (r : LcRec) (after : State → State) : State :=
  let reason := if lcTaken s setting then 1 else reason
  if reason ≠ 0 then kilhar (taCount s 4 1) k reason []
  else
    let s := after (writeLc s setting value r)
    kilhar s k 0 (lcBytes s)

/-- SET_OWNER (R464): an anchor of zeros is the empty one. -/
def execSetOwner (sess_ : Nat) (digest : Bytes) (s : State) : Host.Outcome State Fault Refusal :=
  .next (onConn s sess_ fun s =>
    let r := firstFail [(decide (s.ta.anchor ≠ []), 0x0B05), (!securedDoe s sess_, 0x0B09)]
    if r ≠ 0 then kilhar s sess_ r []
    else
      let d := fitTo 32 digest
      kilhar { s with ta := { s.ta with anchor := if d.all (· = 0) then [] else d } } sess_ 0 [])

/-- RAISE_FLOOR (R457). -/
def execRaiseFloor (sess_ : Nat) (floor : Nat) (s : State) : Host.Outcome State Fault Refusal :=
  .next (onConn s sess_ fun s =>
    let c := lcNow s
    let r := firstFail [(decide (c.floorLeft = 0), 0x0B03),
      (decide (floor ≤ c.floor) || [1, 2, 3, 4].any fun l => decide (svnOf s l < floor), 0x0B04), (!ownerOn s sess_, 0x0B05)]
    changeLc s sess_ r 0 floor { c with floor := floor, floorLeft := c.floorLeft - 1 } fun s => s)

/-- RAISE_EPOCH (R456): the anchor is cleared, slot 1 is emptied, and every key slot and delivered key is zeroised. -/
def execRaiseEpoch (sess_ : Nat) (s : State) : Host.Outcome State Fault Refusal :=
  .next (onConn s sess_ fun s =>
    let c := lcNow s
    let r := firstFail [(decide (c.epochLeft = 0), 0x0B03), (!ownerOn s sess_, 0x0B05)]
    changeLc s sess_ r 1 (c.idepoch + 1) { c with idepoch := c.idepoch + 1, epochLeft := c.epochLeft - 1 } fun s =>
      zeroiseAll (clearDelivered { s with ta := { s.ta with anchor := [], chain1 := [], sealedUnder := (c.idepoch + 1, s.ta.debug) } }))

/-- SEAL (R456, R458): a seal takes the digest of the current layout; an unseal keeps the one it unsealed. -/
def execSeal (sess_ : Nat) (on : Bool) (s : State) : Host.Outcome State Fault Refusal :=
  .next (onConn s sess_ fun s =>
    let c := lcNow s
    let r := firstFail [(decide (c.sealLeft = 0), 0x0B03), (!ownerOn s sess_, 0x0B05)]
    changeLc s sess_ r 2 (b2n on)
      { c with sealed := on, sealLeft := c.sealLeft - 1, layout := if on then sm3 (layoutRecord s) else c.layout } fun s => s)

/-- A Kilhar debug token: KEYIDX, the key, and its signature over the nonce and the DeviceID digest. -/
def tokenOk (s : State) (token nonce : Bytes) : Bool :=
  let key := (token.drop 1).take 64
  decide (leAt token 0 1 ≤ 1) && decide (sm3 key = Config.kilharKeyDigest (leAt token 0 1))
    && Config.sm2Verify key (nonce ++ s.ta.devId) ((token.drop 65).take 64)

/-- DEBUG_UNLOCK (R459): granted for the next cold reset. -/
def execDebugUnlock (sess_ : Nat) (token nonce : Bytes) (s : State) : Host.Outcome State Fault Refusal :=
  .next (onConn s sess_ fun s =>
    let c := lcNow s
    let r := firstFail [(decide (c.debugLeft = 0), 0x0B03), (!ownerOn s sess_, 0x0B05),
      (s.tr.comps.any (fun x => decide (x.2.state ≠ 0)) || !tokenOk s token nonce, 0x0B07)]
    changeLc s sess_ r 3 1 { c with debugNext := true, debugLeft := c.debugLeft - 1 } fun s => s)

/-- GET_LC (R456). -/
def execGetLc (sess_ : Nat) (s : State) : Host.Outcome State Fault Refusal :=
  .next (onConn s sess_ fun s => kilhar s sess_ 0 (lcBytes s))

/-! ### Delivered keys -/

/-- DELIVER_KEY (R465): the material takes the lowest free entry, bound to the endpoint that authenticated the link, or to
0xFFFF over DOE. -/
def execDeliverKey (sess_ : Nat) (tenant_ : Nat) (mode : Nat) (material : Bytes) (s : State) : Host.Outcome State Fault Refusal :=
  .next (onConn s sess_ fun s =>
    let e := (List.range 256).find? fun e => !(tget {} s.ta.deliv e).used
    let r := firstFail [
      (decide (1 < mode) || decide (65535 < tenant_) || decide (material.length ≠ if mode = 1 then 48 else 32), 4),
      (e.isNone, 0x0B08), (!securedOn s sess_, 0x0B09)]
    if r ≠ 0 then kilhar s sess_ r []
    else
      let n := (s.ta.serial + 1) % 2 ^ 24
      let x : Delivered := { used := true, tenant := tenant_, sealedMode := decide (mode = 1), owner := if sess_ ≤ 4 then 0xFFFF else (port s (sess_ - 16)).peerId,
                             material := material, serial := n, session := sess_, time := s.now }
      let s := taCount { s with ta := { s.ta with deliv := tput {} s.ta.deliv (e.getD 0) x, serial := n } } 2 1
      kilhar s sess_ 0 (bytesLE 4 (e.getD 0 + n * 256)))

/-- DISCARD_KEY (R466): by the session that delivered. -/
def execDiscardKey (sess_ : Nat) (keyref : Nat) (s : State) : Host.Outcome State Fault Refusal :=
  .next (onConn s sess_ fun s =>
    let x := deliveredOf s keyref
    let r := firstFail [(!x.used || decide (x.serial ≠ keyref / 256), 0x0B01), (!securedOn s sess_ || decide (x.session ≠ sess_), 0x0B09)]
    if r ≠ 0 then kilhar s sess_ r []
    else kilhar { s with ta := { s.ta with deliv := tput {} s.ta.deliv (keyref % 256) {} } } sess_ 0 [])

/-- DELIVERED_KEY_EXPIRY (R466). -/
def execDeliveredKeyExpiry (e : Nat) (s : State) : Host.Outcome State Fault Refusal :=
  .next (let x : Delivered := tget {} s.ta.deliv e
    if x.used ∧ x.time + 60000000000 ≤ s.now then taCount { s with ta := { s.ta with deliv := tput {} s.ta.deliv e {} } } 3 1 else s)

/-! ### The attestation report -/

/-- A report entry (*Report entry*). -/
def repEntry (kind flags handle gen size : Nat) (digest : Bytes) : Bytes :=
  fitTo 48 (bytesLE 1 kind ++ bytesLE 1 flags ++ bytesLE 2 handle ++ bytesLE 1 gen ++ bytesLE 3 0 ++ bytesLE 8 size ++ fitTo 32 digest)

/-- Entries of a composition's scope in order (R469). -/
def repEntries (s : State) (c : Nat) : List Bytes :=
  let pats := s.sa.pats.filter fun x => (x.2.status.enabled || x.2.status.draining)
    && (if x.2.pwide then decide (x.2.part = (comp s c).part) else decide (x.2.comp = c))
  let sets := s.tr.wsets.filter fun x => (x.2.status.enabled || x.2.status.draining) && decide (x.2.comp = c)
  let tabs := (s.gv.store.filter fun x => x.2.owned && decide (x.2.comp = c) && x.2.res.isSome).map fun x => (x.1, (tget {} s.gv.res (x.2.res.getD 0) : GvRes))
  pats.map (fun x => repEntry 1 (b2n x.2.pwide + 2 * b2n x.2.status.draining) (patHandle x.1 x.2) 0 x.2.image.length x.2.digest)
  ++ sets.map (fun x => repEntry 2 (2 * b2n x.2.status.draining) (x.2.gen * 4096 + x.1) 0 x.2.length x.2.digest)
  ++ tabs.flatMap fun x =>
    (if x.2.newGen ≠ 0 then [repEntry 3 (1 + 4 * b2n x.2.draining) x.1 x.2.newGen 0 (recDigest x.2.newRec)] else [])
    ++ (if x.2.oldLive then [repEntry 3 (4 * b2n x.2.draining) x.1 x.2.oldGen 0 (recDigest x.2.oldRec)] else [])
    ++ (match x.2.retired with
      | none => []
      | some r => [repEntry 3 (4 * b2n x.2.draining) x.1 r.1 0 (recDigest r.2)])

/-- `CC_CAP_UNITS` (R41). -/
def capUnits (s : State) : W64 := w64 ((List.range 8).foldl (fun v i => v + place (8 * i) 8 (s.cc.caps.getD i 0)) 0)

/-- HBM stacks of the variant. -/
def hbmStacks (s : State) : Nat := if s.variant = .g1 then 2 else 4

/-- `CC_CAP_VARIANT`. -/
def capVariant (s : State) : W64 := w64 (place 8 8 (hbmStacks s) + (match s.variant with
  | .a1 => 1
  | .g1 => 2
  | .t1 => 3))

/-- Bits set among the lowest `n` of a number. -/
def ones (n v : Nat) : Nat := ((List.range n).filter v.testBit).length

/-- The first 1,024 bytes of a report (*Report header*). -/
def repHeader (s : State) (c start : Nat) (nonce : Bytes) (total : Nat) : Bytes :=
  let dev := decide (c = 0xFFFF)
  let x := comp s c
  let lc := lcNow s
  let count := min 4096 (total - start)
  fitTo 1024 (bytesLE 4 0x54415250 ++ bytesLE 2 0x0100
    ++ bytesLE 2 (b2n (decide (4096 < total - start)) + 2 * b2n s.ta.debug + 4 * b2n lc.sealed + 8 * b2n (decide (s.ta.anchor ≠ [])))
    ++ bytesLE 4 (1024 + 48 * count + 64) ++ bytesLE 2 count ++ bytesLE 2 start ++ bytesLE 4 total ++ bytesLE 2 s.swNum ++ bytesLE 2 c
    ++ (if dev then bytesLE 6 0 else bytesLE 1 x.current ++ bytesLE 1 x.previous ++ bytesLE 1 x.state ++ bytesLE 1 0 ++ bytesLE 2 x.tenant)
    ++ bytesLE 2 0 ++ fitTo 32 nonce ++ bytesLE 8 s.now ++ bytesLE 8 (capUnits s).toNat ++ bytesLE 8 (capVariant s).toNat
    ++ ([1, 2, 3, 4, 5, 6, 7, 0].map fun ty => BitVec.ofNat 8 (sparesOf s ty).length)
    ++ bytesLE 2 (lanesLeft s) ++ bytesLE 1 (2 - ones 2 s.lv.lpddrFail) ++ bytesLE 1 (8 - (s.lv.nand.filter fun k => decide (k.2.state ≠ 0)).length)
    ++ bytesLE 1 (hbmStacks s - ones 4 s.ph.hbmFail) ++ bytesLE 1 (b2n (decide (s.cc.mgmtFailed = 0))) ++ bytesLE 1 (b2n (decide ((ctl s 8).state = 2)))
    ++ bytesLE 1 0 ++ fitTo 32 s.ta.devId ++ fitTo 32 (Config.keyDigest (ownerSeed s))
    ++ bytesLE 1 lc.idepoch ++ bytesLE 1 lc.floor ++ bytesLE 1 lc.floorLeft ++ bytesLE 1 lc.epochLeft ++ bytesLE 1 lc.sealLeft ++ bytesLE 1 lc.debugLeft
    ++ bytesLE 2 0 ++ ([0, 1, 2, 3, 4].flatMap fun l => fitTo 32 (measOf s l)) ++ ([1, 2, 3, 4].map fun l => BitVec.ofNat 8 (svnOf s l)) ++ bytesLE 4 0
    ++ sm3 (layoutRecord s) ++ fitTo 32 lc.layout ++ sm3 (Config.certificate devidSeed (cdi1 s)) ++ fitTo 32 (Config.keyDigest (meterSeed s))
    ++ bytesLE 8 s.ta.changes)

/-- A signed report (R467). -/
def report (s : State) (c start : Nat) (nonce : Bytes) : Bytes :=
  let es := if c = 0xFFFF then [] else repEntries s c
  let b := repHeader s c start nonce es.length ++ ((es.drop start).take 4096).flatten
  b ++ fitTo 64 (Config.sm2Sign (cdi1 s) b)

/-- GET_REPORT (R467, R470). -/
def execGetReport (sess_ : Nat) (nonce : Bytes) (comp_ : Nat) (start : Nat) (s : State) : Host.Outcome State Fault Refusal :=
  .next (onConn s sess_ fun s =>
    let r := firstFail [
      (decide (comp_ ≠ 0xFFFF) && decide (comp_ < 4096) && decide ((comp s comp_).state = 0), 8),
      ((decide (comp_ ≠ 0xFFFF) && decide (4095 < comp_)) || decide (65535 < start), 4),
      (decide (4 < sess_) && (decide (comp_ = 0xFFFF) || !memberOf s comp_ (port s (sess_ - 16)).peerId), 0x0B05)]
    if r ≠ 0 then kilhar s sess_ r []
    else kilhar (taCount s 0 1) sess_ 0 (report s comp_ start nonce))

end Sys2Proof.Machine
end

