-- ==== Sys2Proof/Machine/Vault.lean ====
section
/-! DEFINITION. The Last vault in service: staging and its drain (R479–R482), the hold-up bank (R486), flash
(R491–R494), its areas, firmware images and policy (R495–R499). -/

namespace Sys2Proof.Machine

/-- The vault serves: the main domain is available and no flush is under way. -/
def vaultUp (s : State) : Bool := mainUp s && decide (s.lv.flushCause = 0)

/-- `LV_STATUS.STATE`: the full drain shows while dirty staging stands at DIRTY_HIGH or above (R482). -/
def vaultState (s : State) : Nat := if s.lv.state = 0 ∧ dirtyHighB s ≤ s.lv.dirty ∧ s.cc.stage = 6 then 1 else s.lv.state

/-! ### Staging -/

/-- DIRTY_DRAIN (R480, R482): bytes of dirty staging drain to NAND. -/
def execDirtyDrain (bytes : Nat) (s : State) : Host.Outcome State Fault Refusal :=
  .next (if vaultUp s then
    let n := min bytes s.lv.dirty
    freeSegs (lvCount { s with lv := { s.lv with dirty := s.lv.dirty - n } } 4 n)
  else s)

/-- KIND of a header entry. -/
def kindCode : JKind → Nat
  | .job => 1
  | .program => 2
  | .completion => 3

/-- SOURCE of a header entry. -/
def recSource (r : JRec) : Nat :=
  match r.kind with
  | .job => place 0 12 r.queue + place 32 32 r.slot
  | .program => place 0 7 r.mailbox + place 8 2 r.priv + place 16 16 r.tag + place 32 32 r.length
  | .completion => r.ofSeq

/-- Words 0–6 of a header entry (*Header entry*). -/
def recWords (r : JRec) : List Nat :=
  [r.seq,
   place 0 8 (kindCode r.kind) + place 8 3 (b2n r.started + 2 * b2n r.exported + 4 * b2n r.written) + place 16 11 r.entries
     + place 32 4 r.part + place 36 12 r.comp,
   recSource r, r.accepted, if r.kind = .completion then r.word1.toNat else r.firstRun, r.doneAt, r.userTag]

/-- A record's entries as they are staged (R476): the header entry, whose CRC covers them all with its own field zero, and the body
entries. -/
def recEntry (r : JRec) : Bytes :=
  let head := (recWords r).flatMap (bytesLE 8)
  let body := fitTo (64 * (r.entries - 1)) r.body
  head ++ bytesLE 4 (crc32c (head ++ bytesLE 8 0 ++ body)).toNat ++ bytesLE 4 0 ++ body

/-- Live records of a segment. -/
def segRecs (s : State) (k : Nat) : List JRec := s.lv.recs.filter fun r => decide (r.seg = k) && decide (r.kind ≠ .completion)

/-- Entries of records with those reserved for their completions (R478). -/
def recEntries (l : List JRec) : Nat := l.foldl (fun n r => n + r.entries + 1) 0

/-- A list names exactly the live records of a full segment, which are less than a quarter of it (R480). -/
def relocatable (s : State) (k : Nat) (records : List Nat) : Bool :=
  s.lv.fullSegs.contains k && decide records.Nodup && decide (records.length = (segRecs s k).length)
    && records.all (fun q => (segRecs s k).any fun r => decide (r.seq = q)) && decide (4 * recEntries (segRecs s k) < 1024)

/-- The live records of a segment copied unchanged into the open segment, and the segment freed. -/
def moveSeg (s : State) (k : Nat) : State :=
  let n := recEntries (segRecs s k)
  let s := mapRecs (placeEntries s n) fun r => if r.seg = k then { r with seg := (placeEntries s n).lv.openSeg } else r
  addDirty { s with lv := { s.lv with fullSegs := s.lv.fullSegs.filter (· ≠ k) } } (64 * n)

/-- SEGMENT_RELOCATE (R480): the live records of a full segment, less than a quarter of it, are copied unchanged into
the open segment, and it is freed. -/
def execSegmentRelocate (records : List Nat) (s : State) : Host.Outcome State Fault Refusal :=
  .next (match (records.head?.bind (findRec s)).map (·.seg) with
    | none => s
    | some k =>
      if vaultUp s && relocatable s k records then lvCount (moveSeg s k) 9 records.length
      else s)

/-- LPDDR_PACKAGE_FAIL (R479): staging continues on the survivor. -/
def execLpddrPackageFail (n : Nat) (s : State) : Host.Outcome State Fault Refusal :=
  .next (if n < 2 then unpend { s with lv := { s.lv with lpddrFail := s.lv.lpddrFail ||| 2 ^ n } } (10 * 256 + n) else s)

/-! ### Flash -/

/-- A NAND package. -/
def nandPkg (s : State) (k : Nat) : NandPkg := tget {} s.lv.nand k
/-- A NAND package replaced. -/
def setNand (s : State) (k : Nat) (x : NandPkg) : State := { s with lv := { s.lv with nand := tput {} s.lv.nand k x } }

/-- A package out of service (R491): its pair continues on the survivor. -/
def nandOut (s : State) (k : Nat) : State :=
  let s := setNand (unpend s (11 * 256 + k)) k { nandPkg s k with state := 1 }
  { s with lv := { s.lv with nandDegraded := s.lv.nandDegraded ||| 2 ^ (k % 4) } }

/-- NAND_PACKAGE_FAIL (R491). -/
def execNandPackageFail (k : Nat) (s : State) : Host.Outcome State Fault Refusal :=
  .next (if k < 8 then nandOut s k else s)

/-- Erase counts of a package after a wear-levelling move; a block that reaches 60,000 erases is retired and replaced from
the spare blocks (R494). A package with no spare block left then counts as failed. -/
def afterMove (x : NandPkg) (newMin newMax : Nat) : NandPkg :=
  let worn := decide (60000 ≤ newMax)
  { x with eMin := min newMin 65535, eMax := min newMax 65535, retired := x.retired + b2n worn, spare := x.spare - b2n worn }

/-- A wear-levelling move in one package of a pair, where it is in service. -/
def wearPackage (s : State) (k newMin newMax : Nat) : State :=
  let x := nandPkg s k
  if x.state = 0 then
    let s := setNand s k (afterMove x newMin newMax)
    if 60000 ≤ newMax ∧ x.spare = 0 then nandOut s k else s
  else s

/-- WEAR_LEVEL_MOVE (R494): in the pair of package `pkg`, whose erase counts differ by more than WL_SPREAD. -/
def execWearLevelMove (pkg : Nat) (newMin newMax : Nat) (s : State) : Host.Outcome State Fault Refusal :=
  .next (if vaultUp s && decide (pkg < 8) && s.lv.imgWriting.isNone && decide ((nandPkg s pkg).state = 0)
      && decide ((nandPkg s pkg).eMin + s.lv.wlSpread < (nandPkg s pkg).eMax) then
    lvCount (wearPackage (wearPackage s (pkg % 4) newMin newMax) (pkg % 4 + 4) newMin newMax) 7 1
  else s)

/-- Age bin of an age in ns (R493): bin 0 under 1 h, bin b from 2^(b−1) h, bin 15 from 16,384 h. -/
def ageBin (age : Nat) : Nat := (List.range 15).foldl (fun b i => if 2 ^ i * 3600000000000 ≤ age then i + 1 else b) 0

/-- A logical page's entry is looked up in the mapping cache (R492): a miss is counted and filled with the table page of 4,096
entries that holds it. DESIGN CHOICE (log 120): of 512 table pages the one whose place is free-valued leaves. -/
def mapLookup (s : State) (page : Nat) : State :=
  let t := page / 4096
  if s.lv.mapCache.contains t then s
  else
    let s := lvCount s 8 1
    if s.lv.mapCache.length < 512 then { s with lv := { s.lv with mapCache := s.lv.mapCache ++ [t] } }
    else { draw s with lv := { s.lv with mapCache := s.lv.mapCache.eraseIdx ((Config.freeWord s.freeCtr).toNat % 512) ++ [t] } }

/-- A logical page is written anew: the same pair, and a block and page of it that are free-valued (DESIGN CHOICE, log 120). -/
def mapWrite (s : State) (page : Nat) : State :=
  let old := tget 0 s.lv.mapTab page
  let p := old / 2 ^ 30 * 2 ^ 30 + (Config.freeWord s.freeCtr).toNat % 2 ^ 23 * 128
  { draw s with lv := { s.lv with mapTab := tput 0 s.lv.mapTab page p } }

/-- The age bins with which a read that fails ECC is retried in turn: a + 1, a + 2 and a − 1, those that exist (R493). -/
def retryBins (a : Nat) : List Nat := [a + 1, a + 2].filter (· ≤ 15) ++ if a = 0 then [] else [a - 1]

/-- The time a write is stamped with: device time, or before it has been set the last that the vault recorded (R493). -/
def stampTime (s : State) : Nat :=
  if s.pc.timeSet then s.now else if s.vimg.cur.present && s.vimg.cur.marked then s.vimg.cur.time else s.vimg.prev.time

/-- Age bin of a page. -/
def pageAge (s : State) (page : Nat) : Nat := ageBin (s.now - (tget (0, 0) s.lv.pages page).1)

/-- Temperature bin of a difference in °C (R493): bin 0 below −45, bin k from −60 + 15k, bin 7 from 45. -/
def driftBin (d : Int) : Nat := (List.range 7).foldl (fun (b k : Nat) => if 15 * (k : Int) - 45 ≤ d then k + 1 else b) 0

/-- The threshold offset in 10 mV with which a page is first read at a temperature: the entry of `LV_RTABLE` at the page's age bin and
temperature bin (R493, R500). -/
def readOffset (s : State) (page temp : Nat) : Int :=
  signed 8 (fld (tget 0 s.lv.rtable (pageAge s page)) (8 * driftBin ((temp : Int) - (tget (0, 0) s.lv.pages page).2)) 8)

/-- A page read, with retries and the mirror package counted (R493, R500). -/
def readPage (s : State) (page retries : Nat) (mirror : Bool) : State :=
  let s := if retries = 0 then s else lvCount s 5 1
  mapLookup (if mirror then lvCount s 6 1 else s) page

/-- A page written anew, with the stamp of its new write (R493). -/
def rewritePage (s : State) (page temp : Nat) : State :=
  let s := mapWrite s page
  { s with lv := { s.lv with pages := tput (0, 0) s.lv.pages page (stampTime s, temp) } }

/-- The mapping cache does not hold a page's entry (R492). -/
def mapMisses (s : State) (page : Nat) : Bool := !s.lv.mapCache.contains (page / 4096)

/-- PAGE_REWRITE (R493): a page is read, through the mapping cache, where it hits or misses as the cache stands, after `retries`
retries with the bins that exist, or where all of them fail from the mirror package; an old or weak one is rewritten, and carries the
stamp of its new write. -/
def execPageRewrite (page temp : Nat) (weak : Bool) (retries : Nat) (mirror miss : Bool) (s : State) : Host.Outcome State Fault Refusal :=
  .next (if vaultUp s && decide (page < 25165824) && decide (miss = mapMisses s page) && decide (retries ≤ (retryBins (pageAge s page)).length)
      && (!mirror || decide (retries = (retryBins (pageAge s page)).length)) then
    if weak ∨ 13 ≤ pageAge s page then rewritePage (readPage s page retries mirror) page temp else readPage s page retries mirror
  else s)

/-! ### The hold-up bank (R485, R486, R555) -/

/-- E(D) exceeds an energy in 0.1 J, D in MiB (R485). -/
def flushExceeds (mib energy : Nat) : Bool := decide (energy * 2800000000 < 2580 * (226606336 + mib * 2 ^ 20))

/-- DIRTY_EFF for a usable energy: the largest whole number of MiB up to DIRTY_MAX whose flush it covers (R486). -/
def effOf (energy dirtyMax : Nat) : Nat := min dirtyMax ((energy * 2800000000 / 2580 - 226606336) / 2 ^ 20)

/-- NEED: E(DIRTY_EFF) in 0.1 J, rounded up. -/
def needOf (eff : Nat) : Nat := ceilDiv (2580 * (226606336 + eff * 2 ^ 20)) 2800000000

/-- DIRTY_EFF, NEED and HOLDUP_LOW follow the usable energy, DIRTY_MAX and the charge (R486). -/
def applyHoldup (s : State) : State :=
  let e := effOf s.lv.usable s.lv.dirtyMax
  { s with lv := { s.lv with dirtyEff := e, need := needOf e, holdupLow := s.lv.charging || flushExceeds 64 s.lv.usable } }

/-- HOLDUP_MEASURE (R486): the usable energy in 0.1 J. -/
def execHoldupMeasure (usable : Nat) (s : State) : Host.Outcome State Fault Refusal :=
  .next (applyHoldup { s with lv := { s.lv with usable := usable } })

/-- HOLDUP_CHARGED (R486, R555): the bank is charged, and its usable energy covers E(64 MiB). -/
def execHoldupCharged (s : State) : Host.Outcome State Fault Refusal :=
  .next (if s.lv.charging ∧ flushExceeds 64 s.lv.usable = false then applyHoldup { s with lv := { s.lv with charging := false } } else s)

/-! ### Firmware images (R453, R454, R497) -/

/-- Bytes before the body: the header and the signing key it is followed by. -/
def imageHead : Nat := 192

/-- The header of an image passes MAGIC, LAYER, length, KEYIDX and the floor (R453). -/
def headerOk (s : State) (layer : Nat) (img : Bytes) : Bool :=
  decide (leAt img 0 4 = 0x4B465749) && decide (leAt img 4 1 = layer) && decide (leAt img 6 1 ≤ 1)
    && decide (leAt img 8 4 + imageHead = img.length) && decide ((lcNow s).floor ≤ leAt img 5 1)

/-- The key, the signature and the body digest of an image are right (R453). -/
def imageVerifies (img : Bytes) : Bool :=
  let key := (img.drop 128).take 64
  decide (sm3 key = Config.kilharKeyDigest (leAt img 6 1)) && Config.sm2Verify key (img.take 48) ((img.drop 48).take 64)
    && decide (sm3 (img.drop imageHead) = (img.drop 16).take 32)

/-- The slot of a layer that is not running, as key of the slot table (R454, R497). -/
def idleSlot (s : State) (layer : Nat) : Nat := layer * 2 + if s.ta.imageB.testBit layer then 0 else 1

/-- An image written into the inactive slot of its layer; a valid one is named in the boot record (R497). -/
def writeImage (s : State) (layer : Nat) (img : Bytes) : State :=
  let k := idleSlot s layer
  let ok := headerOk s layer img && imageVerifies img
  let s := { s with lv := { s.lv with fw := tput {} s.lv.fw k { bytes := img, valid := ok, svn := leAt img 5 1 } } }
  if ok then { s with lv := { s.lv with bootSlot := tput 0 s.lv.bootSlot layer (k % 2) } } else s

/-! ### LV_POLICY (R499) -/

/-- Status word of a form. -/
def lvStatus (s : State) (f : Nat) : ObjStatus := tget {} s.lv.status f
/-- Status word of a form replaced. -/
def setLvStatus (s : State) (f : Nat) (o : ObjStatus) : State := { s with lv := { s.lv with status := tput {} s.lv.status f o } }

/-- Masks of the LV_POLICY descriptor. -/
def lvMasks : List Nat := [fmask 0 2 + fmask 8 3 + fmask 16 2, fmask 0 60, fmask 0 64, 1]

/-- A COMMIT of LV_POLICY of one form: `reason` gives the tests after the common ones of privilege, busy and reserved bits. -/
def lvRow (s : State) (cs form : Nat) (busy : State → Bool) (reason : State → List W64 → Nat) (go : State → List W64 → State) : State :=
  runCtl s cs 0xF6 (fun d => decide (df d 0 0 2 = form)) (fun _ => stampKey okLvPolicy form) (fun s _ => some (statusWord (lvStatus s form)))
    fun s q d => applyOnly s d (statusWord (lvStatus s form)) fun _ =>
      let r := firstFail [(decide (q.priv ≠ 1), 3), (busy s, 1), (reservedSet d lvMasks, 9)]
      let r := if r ≠ 0 then r else reason s d
      if r ≠ 0 then
        let o := refused (lvStatus s form) r
        refuse (setLvStatus s form o) r (some (statusWord o))
      else
        let s := go (setLvStatus s form (accepted (lvStatus s form))) d
        { s := s, status := some (statusWord (lvStatus s form)), obj := some (stampKey okLvPolicy form) }

/-- COMMIT_LV_LIMITS (R499). -/
def execCommitLvLimits (cs : Nat) (s : State) : Host.Outcome State Fault Refusal :=
  .next (lvRow s cs 0 (fun _ => false)
    (fun s d =>
      let hi := df d 1 0 16
      let mx := df d 1 16 16
      let wl := df d 1 32 16
      firstFail [
        (!(decide (64 ≤ hi ∧ hi ≤ 1024) && decide (64 ≤ mx ∧ mx ≤ 1024) && decide (16 ≤ wl ∧ wl ≤ 4096)), 4),
        (flushExceeds mx s.lv.usable, 0x0C01),
        (decide (mx ≤ hi), 0x0C02)])
    fun s d => applyHoldup { s with lv := { s.lv with dirtyHigh := df d 1 0 16, dirtyMax := df d 1 16 16, wlSpread := df d 1 32 16 } })

/-- The pages of a source lie in the general area and are device-owned. -/
def sourceOk (s : State) (off len : Nat) : Bool := pagesInGen s off len && pagesOwned s off len

/-- The owner bits of a status word: 1 writing, 2 finished, 3 failed with a code (R499). -/
def writeState (st code : Nat) : W64 := w64 (place 56 8 st + place 48 8 code)

/-- COMMIT_LV_IMAGE (R497, R499). -/
def execCommitLvImage (cs : Nat) (s : State) : Host.Outcome State Fault Refusal :=
  .next (lvRow s cs 1 (fun s => s.lv.imgWriting.isSome)
    (fun s d =>
      let off := df d 1 0 60
      let len := df d 2 0 32
      firstFail [
        (!decide (1 ≤ df d 0 8 3 ∧ df d 0 8 3 ≤ 4) || decide (off % 4096 ≠ 0) || decide (67108864 < len), 4),
        (!headerOk s (df d 0 8 3) (bulkRead s off len), 0x0C03),
        (!sourceOk s off len, 0x0C04)])
    fun s d =>
      let s := setLvStatus s 1 { lvStatus s 1 with owner := writeState 1 0 }
      { s with lv := { s.lv with imgWriting := some (df d 0 8 3, df d 1 0 60, df d 2 0 32) } })

/-- LV_IMAGE_WRITE_END (R497): the body has been verified and written, and the pages go back to the host. -/
def execLvImageWriteEnd (s : State) : Host.Outcome State Fault Refusal :=
  .next (if vaultUp s then
    match s.lv.imgWriting with
    | none => s
    | some (layer, off, len) =>
      let img := bulkRead s off len
      let ok := headerOk s layer img && imageVerifies img
      let s := writeImage { s with lv := { s.lv with imgWriting := none } } layer img
      let s := setLvStatus s 1 { lvStatus s 1 with owner := if ok then writeState 2 0 else writeState 3 0x06 }
      flipPages s off len
  else s)

/-- COMMIT_LV_RTABLE (R499): the 128-byte table of offsets. -/
def execCommitLvRtable (cs : Nat) (s : State) : Host.Outcome State Fault Refusal :=
  .next (lvRow s cs 2 (fun _ => false)
    (fun s d => firstFail [(decide (df d 1 0 60 % 4096 ≠ 0), 4), (!sourceOk s (df d 1 0 60) 128, 0x0C04)])
    fun s d =>
      let t := bytesWords 16 (bulkRead s (df d 1 0 60) 128)
      { s with lv := { s.lv with rtable := (List.range 16).foldl (fun r a => tput 0 r a (wd t a)) s.lv.rtable } })

/-- Records of an export area: the attestation log and the crash records are rings, and the handover copy is one record
(R495). -/
def areaRecords (area : Nat) : Nat := if area = 0 then 8388608 else if area = 1 then 1024 else 1

/-- The newest of the records that a ring of `n` places has held in place `i`. -/
def inRing {α : Type} (l : List α) (n i : Nat) : Option α :=
  if l.length ≤ i then none else l[(l.length - 1 - i) / n * n + i]?

/-- Bytes of record `i` of an area; a place never written reads as zeros. -/
def areaRecord (s : State) (area i : Nat) : Bytes :=
  if area = 0 then (match inRing s.lv.attLog 8388608 i with
    | some r => fitTo 256 (Config.attestBytes r.kind r.time r.object r.value r.digest)
    | none => List.replicate 256 0)
  else if area = 1 then (match inRing s.lv.crash 1024 i with
    | some r => fitTo 1048576 (Config.crashBytes r.1 r.2)
    | none => List.replicate 1048576 0)
  else s.lv.handover

/-- Bytes that an export writes. -/
def exportLen (s : State) (area count : Nat) : Nat :=
  if area = 0 then 256 * count else if area = 1 then 1048576 * count else if count = 0 then 0 else s.lv.handover.length

/-- COMMIT_LV_EXPORT (R499). -/
def execCommitLvExport (cs : Nat) (s : State) : Host.Outcome State Fault Refusal :=
  .next (lvRow s cs 3 (fun s => s.lv.exporting.isSome)
    (fun s d =>
      let area := df d 0 16 2
      firstFail [
        (decide (area = 3) || decide (df d 1 0 60 % 4096 ≠ 0), 4),
        (decide (areaRecords area < df d 2 0 32 + df d 2 32 32)
          || !pagesInGen s (df d 1 0 60) (exportLen s area (df d 2 32 32)), 0x0C05)])
    fun s d =>
      let s := setLvStatus s 3 { lvStatus s 3 with owner := writeState 1 0 }
      { s with lv := { s.lv with exporting := some (df d 0 16 2, df d 1 0 60, df d 2 0 32, df d 2 32 32) } })

/-- LV_EXPORT_WRITE_END (R499): the write has finished, or failed with the low byte of a code. -/
def execLvExportWriteEnd (fail : Option Nat) (s : State) : Host.Outcome State Fault Refusal :=
  .next (if vaultUp s then
    match s.lv.exporting with
    | none => s
    | some (area, dest, first, count) =>
      let s := { s with lv := { s.lv with exporting := none } }
      match fail with
      | some c => setLvStatus s 3 { lvStatus s 3 with owner := writeState 3 c }
      | none =>
        let bs := (List.range count).flatMap fun i => areaRecord s area (first + i)
        let s := { s with cc := { s.cc with bulk := memWrite s.cc.bulk dest bs } }
        setLvStatus s 3 { lvStatus s 3 with owner := writeState 2 0 }
  else s)

end Sys2Proof.Machine
end

