-- ==== Sys2Proof/Machine/Reset.lean ====
section
/-! DEFINITION. Flushes (R483, R484), resets and the wedge-proof operations (R80, R535–R542), planned removal (R498, R544),
and the input, the pins and the sideband of the module (R81, R502, R550–R562). -/

namespace Sys2Proof.Machine

/-! ### Flushes -/

/-- What follows a flush, by rank: service, the export, a warm reset, a cold reset, power-off, the loss of input (R540). -/
def thenRank (n : Nat) : Nat :=
  match n with
  | 0 => 0
  | 4 => 1
  | 1 => 2
  | 2 => 3
  | 3 => 4
  | _ => 5

/-- A program whose staging has not completed is dropped: it was never accepted, and its sender may send it again (R55, R484). -/
def dropProg (s : State) (g : StagedProg) : State :=
  let s := match g.bulkOff with
    | none => s
    | some o => flipPages s o g.image.length
  let s := setMbx s g.mailbox { mbx s g.mailbox with running := (mbx s g.mailbox).running - 1 }
  cpRefused s g.mailbox g.tag 1 0

/-- Every program whose staging runs is dropped. -/
def dropStaged (s : State) : State := s.cc.staged.foldl dropProg { s with cc := { s.cc with staged := [] } }

/-- Doorbells are dropped: their acceptance completions are not sent (R484 step 1). -/
def dropBells (s : State) : State := { s with cc := { s.cc with jq := tmap {} s.cc.jq fun _ x => { x with bells := [] } } }

/-- The volatile image of this moment (R483). -/
def volImage (s : State) (cause : Nat) : VolImage :=
  { present := true, time := s.now, highSeq := s.lv.nextSeq - 1, cause := cause,
    sync := s.te.sync.foldl (fun t o => tput 0 t o.1 o.2.value) [], rc := s.te.rc, marks := s.te.marks,
    meters := s.tr.comps.foldl (fun t c => tput {} t c.1 c.2.meter) [] }

/-- Before stage RESTORE, and in recovery mode, there is nothing volatile to save. -/
def imageDue (s : State) : Bool := (decide (s.cc.stage = 5) || decide (s.cc.stage = 6)) && !s.cc.recovery

/-- The image of a flush takes the place of the older of the two (R495). -/
def takeImage (s : State) (cause : Nat) : State :=
  if imageDue s then { s with vimg := { cur := volImage s cause, prev := s.vimg.cur } } else s

/-- A flush starts for a cause, with what follows it (R483, R484). While one runs none starts; what follows it then changes to
what ranks higher (R540). -/
def startFlush (s : State) (cause thn reset : Nat) (rec : Bool) : State :=
  if s.lv.flushCause ≠ 0 then
    if thenRank s.lv.flushThen < thenRank thn then
      { s with lv := { s.lv with flushThen := thn, flushReset := reset, flushRecovery := rec } }
    else s
  else
    let s := takeImage (dropBells (dropStaged s)) cause
    { s with lv := { s.lv with flushCause := cause, flushThen := thn, flushReset := reset, flushRecovery := rec, flushStart := s.now, inputBack := false,
                               state := if s.lv.state = 6 ∨ cause = 6 then s.lv.state else 2 }
             hw := { s.hw with safe := 1 } }

/-- The input is lost: a flush runs from the hold-up bank; a module switched off by POWER_OFF has none to make (R483, R541). -/
def loseInput (s : State) : State :=
  if unpowered s then s
  else
    let s := { s with hw := { s.hw with inputLost := true } }
    if s.hw.off then { s with hw := { s.hw with off := false, safe := 0 } } else startFlush s 1 5 1 false

/-- POWER_LOSS (R483): the input has stood below 47 V for 10 µs. -/
def execPowerLoss (s : State) : Host.Outcome State Fault Refusal := .next (loseInput s)

/-- OVERVOLTAGE (R502): above 63 V the input stage opens. -/
def execOvervoltage (s : State) : Host.Outcome State Fault Refusal :=
  .next (if unpowered s then s
    else
      let t := loseInput s
      { t with hw := { t.hw with inputOn := false } })

/-- EN_BREAK (R553): the input switch opens. -/
def execEnBreak (s : State) : Host.Outcome State Fault Refusal :=
  .next (let t := loseInput s
    { t with hw := { t.hw with en := false, inputOn := false } })

/-- UNDERVOLT_OVERVOLT (R502): the input voltage in 0.01 V, within 47–63 V. -/
def execUndervoltOvervolt (volts : Nat) (s : State) : Host.Outcome State Fault Refusal :=
  .next (if !unpowered s && decide (4700 ≤ volts ∧ volts ≤ 6300) then
    { s with ph := { s.ph with volts := volts, undervolt := decide (volts < 5000), overvolt := decide (6000 < volts) } }
  else s)

/-! ### Wedge-proof operations -/

/-- A wedge-proof operation that runs is done, and vector 22 becomes pending (R42, R80). DEDUCED (log 117): the status names it
again, where a refused one stood in its place. -/
def aonDone (s : State) (op : Nat) : State :=
  if s.cc.aonRun = op then raiseEvent { s with cc := { s.cc with aonRun := 0, aonOp := op, aonState := 2 } } 22 else s

/-- A wedge-proof operation is refused (R80). -/
def aonRefused (s : State) (op : Nat) : State := { s with cc := { s.cc with aonOp := op, aonState := 3 } }

/-- `CC_BOOT_CTL`. -/
def bootCtlWord (s : State) : W64 :=
  w64 (place 32 16 s.cc.bootReason + place 8 8 s.cc.stage + 2 * b2n s.cc.ideRequired + b2n s.cc.bootDone)

/-- `CC_RESET_CAUSE`. -/
def resetCauseWord (s : State) : W64 :=
  w64 (place 48 16 s.cc.warmCount + place 32 16 s.cc.crashIdx + place 8 1 (b2n s.cc.devAreaLost) + place 0 8 s.cc.resetCause)

/-- `CC_RECOVERY`. -/
def recoveryWord (s : State) : W64 := w64 (place 16 8 s.cc.recLayer + place 8 8 s.cc.recCause + b2n s.cc.recovery)

/-- `PH_INPUT`. -/
def phInputWord (s : State) : W64 :=
  w64 (place 48 16 s.ph.volts + place 32 16 s.ph.watts + place 16 16 s.ph.base + place 0 16 (leaveHeld s))

/-- `LV_STATUS`: ACCEPT_STOP shows the limits of R25 and R482. -/
def lvStatusWord (s : State) : W64 :=
  w64 (place 48 8 s.lv.lastCause + place 40 4 s.lv.nandDegraded + place 34 2 s.lv.lpddrFail + place 33 1 (b2n s.lv.holdupLow)
    + place 32 1 (b2n (!journalRoom s 1 || decide (dirtyHighB s ≤ s.lv.dirty))) + place 0 4 (vaultState s))

/-- `LV_LIVE`. -/
def lvLiveWord (s : State) : W64 := w64 (place 32 27 (liveEntries s) + place 0 21 (ceilDiv s.lv.dirty 1024))

/-- `SW_BUF`. -/
def swBufWord (s : State) : W64 := w64 (place 32 20 (freeShared s) + place 0 20 (reservedCells s))

/-- `TE_RC_USED`. -/
def rcUsedWord (s : State) : W64 := w64 (place 0 17 (s.te.rc.filter (·.used)).length)

/-- The indices of a ring: PROD and CONS. -/
def ringWord (s : State) (n : Nat) : W64 := w64 (place 0 32 (ring s n).prod.toNat + place 32 32 (ring s n).cons.toNat)

/-- Snapshot word `i` (R542): a word of the main domain reads all-ones while that domain does not answer. -/
def snapWord (s : State) (i : Nat) : W64 :=
  let main := fun (w : W64) => if mainUp s then w else w64 (2 ^ 64 - 1)
  match i with
  | 0 => w64 s.now
  | 1 => healthWord s
  | 2 => phInputWord s
  | 3 => main (lvStatusWord s)
  | 4 => main (w64 s.lv.nextSeq)
  | 5 => main (lvLiveWord s)
  | 6 => resetCauseWord s
  | 7 => recoveryWord s
  | 8 => main (taState s)
  | 9 => bootCtlWord s
  | 29 => capUnits s
  | 30 => main (swBufWord s)
  | 31 => main (rcUsedWord s)
  | n => main (ringWord s (n - 10))

/-- SNAPSHOT's effect (R542). -/
def takeSnapshot (s : State) : State :=
  { s with cc := { s.cc with snap := (List.range 32).foldl (fun t i => tput 0 t i (snapWord s i)) [] } }

/-- A job that was taken and has not started goes back to its queue at once (R498 step 2). -/
def untakeJob (s : State) (q : Nat) : State :=
  match (seam s q).job with
  | none => s
  | some j =>
    if !j.began && (decide ((seam s q).state = 1) || decide ((seam s q).state = 2)) then
      freeSeq (releaseSeam s q) q
    else s

/-- Nothing of an earlier record runs any more. -/
def allStopped (s : State) : Bool := s.sa.seqs.all (fun x => x.2.job.isNone) && s.cc.seqs.all fun x => decide (x.2.state ≠ 1)

/-- Records that a handover lists: those without a completion (R498 step 3). -/
def handoverRecs (s : State) : List JRec :=
  s.lv.recs.filter fun r => decide (r.kind ≠ .completion) && !r.exported && (findCompl s r.seq).isNone

/-- A handover entry (R70). -/
def handoverEntry (r : JRec) : Bytes :=
  bytesLE 8 r.seq ++ (match r.kind with
    | .job => bytesLE 2 r.queue ++ bytesLE 2 r.slot ++ bytesLE 2 r.comp ++ bytesLE 1 1
    | _ => bytesLE 2 r.part ++ bytesLE 2 r.mailbox ++ bytesLE 2 (if r.priv = 1 then 0 else r.comp) ++ bytesLE 1 2) ++ bytesLE 1 0

/-- The handover record (R70). -/
def handoverBytes (s : State) (last : Nat) : Bytes :=
  let l := handoverRecs s
  fitTo 64 (bytesLE 4 0x4C484F56 ++ bytesLE 4 0 ++ bytesLE 8 l.length ++ bytesLE 8 s.now ++ bytesLE 8 last) ++ l.flatMap handoverEntry

/-- Once nothing runs, the handover record is written, vector 20 is signalled, the listed records are marked EXPORTED and the
flush of the removal starts (R498). -/
def tryHandover (s : State) : State :=
  match s.lv.removeStart with
  | none => s
  | some (_, last) =>
    if working s && allStopped s then
      let b := handoverBytes s last
      let l := (handoverRecs s).map (·.seq)
      let s := { s with cc := { s.cc with bulk := memWrite s.cc.bulk s.cc.hoBase b }
                        lv := { s.lv with handover := b, removeStart := none } }
      let s := raiseEvent (attest s 4 0 l.length []) 20
      let s := addDirty (mapRecs s fun r => if l.contains r.seq then { r with exported := true } else r) (64 * l.length)
      startFlush s 6 4 0 false
    else s

/-- The planned removal starts (R498): no record is accepted, and what has not started is stopped. -/
def startRemove (s : State) : State :=
  let s := { s with lv := { s.lv with state := 5, removeStart := some (s.now, s.lv.nextSeq - 1), removeStopped := false } }
  let s := dropStaged s
  let s := (tkeys s.cc.jq).foldl (fun s n => bellEnd s n 1) s
  let s := (tkeys s.sa.seqs).foldl untakeJob s
  tryHandover s

/-- A removal may start: the vault serves and none has been made (R560). -/
def removeOk (s : State) : Bool := working s && decide (s.lv.state < 5)

/-- POWER_OFF's flush, or nothing where the module is off already. -/
def startPowerOff (s : State) (reset : Nat) : State := if s.hw.off then s else startFlush s 5 3 reset false

/-- A cold reset: after a flush, or at once where the module is off (R535, R541). -/
def startCold (s : State) (reset : Nat) (rec : Bool) : State := if s.hw.off then resetNow s true reset rec else startFlush s 3 2 reset rec

/-- COLD_RESET takes over from a POWER_OFF that runs (R80): the flush goes on, and no power-off follows it. -/
def takeOver (s : State) (op : Nat) : State :=
  if op = 6 ∧ s.cc.aonRun = 7 ∧ s.lv.flushThen = 3 ∧ s.lv.flushReset = 0 then { s with lv := { s.lv with flushThen := 0 } } else s

/-- An operation of `CC_AON_OP` that may run (R541). -/
def aonGo (s : State) (op : Nat) (rec : Bool) : State :=
  let s := takeOver s op
  let s := { s with cc := { s.cc with aonOp := op, aonState := 1, aonRun := op } }
  match op with
  | 1 => aonDone (takeSnapshot s) 1
  | 2 => aonDone { s with cc := { s.cc with fenceAll := true } } 2
  | 3 => aonDone (zeroiseAll s) 3
  | 4 => startFlush s 4 0 0 false
  | 5 => startFlush s 2 1 2 rec
  | 6 => startCold s 3 rec
  | 7 => if s.hw.off then aonDone s 7 else startPowerOff s 0
  | _ => startRemove s

/-- The operation is refused: another runs, and it is not COLD_RESET or POWER_OFF; a flush, a warm reset or a removal of a
module that is off; or a removal that may not start. -/
def aonBarred (s : State) (op : Nat) : Bool :=
  (decide (s.cc.aonRun ≠ 0) && decide (op ≠ 6 ∧ op ≠ 7)) || (s.hw.off && decide (op = 4 ∨ op = 5 ∨ op = 8)) || (decide (op = 8) && !removeOk s)

/-- A write of `CC_AON_OP` (R80). -/
def aonWrite (s : State) (w : W64) : State :=
  let op := fld w 0 8
  if fld w 48 16 = 0xA5C3 ∧ 1 ≤ op ∧ op ≤ 8 then
    if aonBarred s op then aonRefused s op else aonGo s op (bit w 8 && decide (op = 5 ∨ op = 6))
  else s

/-- A write of `CC_AON_OP` whose code is the row's. -/
def aonRow (s : State) (path : Path) (op : Nat) (v : W64) : State :=
  if fld v 0 8 = op then guarded s path 0x2000 8 fun s => aonWrite s v else s

/-- REGISTER_WRITE (R6, R7, R39, R82). -/
def execRegisterWrite (path : Path) (off size : Nat) (v : W64) (s : State) : Host.Outcome State Fault Refusal :=
  .next (registerWrite aonWrite s path off size v)

/-- SNAPSHOT (R541, R542). -/
def execSnapshot (path : Path) (v : W64) (s : State) : Host.Outcome State Fault Refusal := .next (aonRow s path 1 v)
/-- FENCE_ALL (R541). -/
def execFenceAll (path : Path) (v : W64) (s : State) : Host.Outcome State Fault Refusal := .next (aonRow s path 2 v)
/-- KEY_ZEROISE (R442, R541). -/
def execKeyZeroise (path : Path) (v : W64) (s : State) : Host.Outcome State Fault Refusal := .next (aonRow s path 3 v)
/-- JOURNAL_FLUSH (R483, R541). -/
def execJournalFlush (path : Path) (v : W64) (s : State) : Host.Outcome State Fault Refusal := .next (aonRow s path 4 v)
/-- WARM_RESET (R535, R541). -/
def execWarmReset (path : Path) (v : W64) (s : State) : Host.Outcome State Fault Refusal := .next (aonRow s path 5 v)
/-- COLD_RESET (R535, R541). -/
def execColdReset (path : Path) (v : W64) (s : State) : Host.Outcome State Fault Refusal := .next (aonRow s path 6 v)
/-- POWER_OFF (R541). -/
def execPowerOff (path : Path) (v : W64) (s : State) : Host.Outcome State Fault Refusal := .next (aonRow s path 7 v)
/-- REMOVE (R498, R541). -/
def execRemove (path : Path) (v : W64) (s : State) : Host.Outcome State Fault Refusal := .next (aonRow s path 8 v)

/-! ### Removal -/

/-- A control program stopped by a removal: its wait is given up, and it writes no completion (R498 step 2). -/
def haltProg (s : State) (cs : Nat) : State :=
  if (ctl s cs).state = 1 then
    let s := dropProgLeave (abandonWait s cs) cs
    let m := (ctl s cs).mailbox
    setCtl (setMbx s m { mbx s m with running := (mbx s m).running - 1 }) cs {}
  else s

/-- Programs and jobs that a removal finds running are stopped (R498 step 2). -/
def stopRunning (s : State) : State :=
  let s := (List.range 9).foldl haltProg { s with lv := { s.lv with removeStopped := true } }
  (tkeys s.sa.seqs).foldl (fun s q => stopJob s q 0x0E) s

/-- REMOVE_STOP_DEADLINE (R498 step 2): 10 ms after the removal began, what still runs is stopped. -/
def execRemoveStopDeadline (s : State) : Host.Outcome State Fault Refusal :=
  .next (match s.lv.removeStart with
    | none => s
    | some (t, _) =>
      if working s && !s.lv.removeStopped && decide (t + 10000000 ≤ s.now) then tryHandover (stopRunning s) else s)

/-! ### The end of a flush -/

/-- The module stands without input: the hold-up bank has done its work. -/
def goDark (s : State) : State := { s with hw := { s.hw with mainOn := false, pwrgd := false, safe := 0 } }

/-- The state after a flush, before what follows it (R484 steps 5 and 6): nothing is dirty, the image is marked, and a JOURNAL_FLUSH
is done. -/
def flushEnded (s : State) : State :=
  let s := lvCount s 2 1
  let s := if imageDue s then { s with vimg := { s.vimg with cur := { s.vimg.cur with marked := true } } } else s
  aonDone (freeSegs { s with lv := { s.lv with dirty := 0, lastCause := s.lv.flushCause, flushCause := 0,
                                               state := if s.lv.state = 2 then 0 else s.lv.state } }) 4

/-- FLUSH_COMPLETE (R484 steps 5 and 6): NAND holds everything, and what follows the flush happens. -/
def execFlushComplete (s : State) : Host.Outcome State Fault Refusal :=
  .next (if s.lv.flushCause = 0 then s
    else
      let l := s.lv
      let s := flushEnded s
      match l.flushThen with
      | 0 => { s with hw := { s.hw with safe := if s.lv.state = 6 then 2 else 0 } }
      | 4 => aonDone { s with lv := { s.lv with state := 6 }, hw := { s.hw with safe := 2 } } 8
      | 1 => resetNow s false l.flushReset l.flushRecovery
      | 2 => resetNow s true l.flushReset l.flushRecovery
      | 3 =>
        let s := { s with hw := { s.hw with off := true, mainOn := false, pwrgd := false, safe := 2 } }
        aonDone (if l.flushReset = 6 then { s with cc := { s.cc with resetCause := 6 } } else s) 7
      | _ =>
        let s := applyHoldup { s with lv := { s.lv with charging := true } }
        if l.inputBack then resetNow { s with hw := { s.hw with inputLost := false } } true 1 false else goDark s)

/-! ### The input and the pins -/

/-- The always-on domain comes up with the input: a cold reset of cause power loss where the input had been lost, and of cause
power-on otherwise, the hold-up bank to be charged (R483, R551, R555). -/
def powerOn (s : State) : State :=
  let cause := if s.hw.inputLost then 1 else 8
  let s := goDark { s with lv := { s.lv with charging := true }, hw := { s.hw with inputLost := false, inputOn := true, en := true } }
  applyHoldup (resetNow s true cause false)

/-- INPUT_SWITCH_CLOSE (R551): EN has been connected and the bulk capacitance charged for 20 ms. During a flush, the cold reset
that follows it takes the place of the power-on (R553). -/
def execInputSwitchClose (s : State) : Host.Outcome State Fault Refusal :=
  .next (if s.hw.inputOn then s
    else if s.lv.flushCause ≠ 0 then { s with hw := { s.hw with inputOn := true, en := true }, lv := { s.lv with inputBack := true } }
    else powerOn s)

/-- INPUT_POWER_RESTORED (R483): the input stands above 47 V again; an open input switch waits for R551. -/
def execInputPowerRestored (s : State) : Host.Outcome State Fault Refusal :=
  .next (if s.hw.inputLost && s.hw.inputOn then
    if s.lv.flushCause ≠ 0 then { s with lv := { s.lv with inputBack := true } } else powerOn s
  else s)

/-- POWER_GOOD (R562): PWRGD is released, and boot stage RESET begins. -/
def execPowerGood (s : State) : Host.Outcome State Fault Refusal :=
  .next (if !s.hw.pwrgd && !unpowered s && !s.hw.off && decide (s.lv.flushCause = 0) then
    let s := { s with hw := { s.hw with pwrgd := true, mainOn := true } }
    if s.cc.stage = 0 then s else resetNow s true 8 false
  else s)

/-- CONVERTER_REGULATION_LOSS (R562): PWRGD is pulled low. -/
def execConverterRegulationLoss (s : State) : Host.Outcome State Fault Refusal :=
  .next { s with hw := { s.hw with pwrgd := false } }

/-- RESET_N_ASSERT (R559): RESET_N has been low for 1 ms, which starts COLD_RESET under R80. -/
def execResetNAssert (s : State) : Host.Outcome State Fault Refusal :=
  .next (if unpowered s then { s with hw := { s.hw with resetLow := true } }
    else if s.hw.resetLow then s
    else
      let s := takeOver s 6
      let s := startCold { s with cc := { s.cc with aonOp := 6, aonState := 1, aonRun := 6 } } 7 false
      { s with hw := { s.hw with resetLow := true } })

/-- RESET_N_RELEASE (R559). -/
def execResetNRelease (s : State) : Host.Outcome State Fault Refusal := .next { s with hw := { s.hw with resetLow := false } }

/-- ATTN_N_ASSERT (R560, R561): ATTN_N has been low for 10 ms; REMOVE starts when no wedge-proof operation runs, as if the
sideband had written it. -/
def execAttnNAssert (s : State) : Host.Outcome State Fault Refusal :=
  .next (if !unpowered s && !s.hw.resetLow && decide (s.cc.aonRun = 0) && removeOk s then aonGo s 8 false else s)

/-- PERST_N_CHANGE (R557): the management port's controller is held in reset while PERST_N is low, and IDE ends with its link. -/
def execPerstNChange (low : Bool) (s : State) : Host.Outcome State Fault Refusal :=
  let s := { s with hw := { s.hw with perstLow := low } }
  .next (if low then { s with cc := { s.cc with ideIo := {}, ideMem := {} } } else s)

/-- The stream an IDE_KM message names (R34): CXL.io by IDE_KM, CXL.cachemem by CXL_IDE_KM. -/
def ideStream (s : State) (mem : Bool) : IdeStream := if mem then s.cc.ideMem else s.cc.ideIo
/-- That stream replaced. -/
def setIdeStream (s : State) (mem : Bool) (x : IdeStream) : State :=
  { s with cc := if mem then { s.cc with ideMem := x } else { s.cc with ideIo := x } }

/-- The object of an IDE_KM message applied to a stream: KEY_PROG delivers a key, K_SET_GO of a delivered key starts its
direction, K_SET_STOP ends it; the answer's object comes with it. -/
def ideKm (x : IdeStream) (object sel : Nat) : Option (Nat × IdeStream) :=
  match object with
  | 2 => some (3, { x with keys := sel :: x.keys.filter (· ≠ sel) })
  | 4 => if x.keys.contains sel then some (6, { x with go := sel :: x.go.filter (· ≠ sel) }) else none
  | 5 => some (6, { x with go := x.go.filter (· ≠ sel) })
  | _ => none

/-- IDE_KM_MESSAGE (R34, R36) over a secured DOE session. PRESUMED (log 118), as IDE_KM lays a message out: byte 0 the protocol, 0
of CXL.io and 1 of CXL.cachemem; byte 1 the object; byte 6 the key set in bit 0 and the direction in bit 1. -/
def execIdeKmMessage (sess_ : Nat) (msg : Bytes) (s : State) : Host.Outcome State Fault Refusal :=
  .next (if sess_ ≤ 4 then onConn s sess_ fun s =>
    if securedDoe s sess_ = false then { s with resp := .bytes (spdmMsg 0x7F 0x04) }
    else
      let mem := decide (leAt msg 0 1 = 1)
      match (if leAt msg 0 1 ≤ 1 then ideKm (ideStream s mem) (leAt msg 1 1) (leAt msg 6 1 % 4) else none) with
      | some (a, x) => { setIdeStream s mem x with resp := .bytes [leAt msg 0 1, a] }
      | none => { s with resp := .bytes (spdmMsg 0x7F 0x01) }
  else s)

/-- SMBUS_FALLBACK (R81). -/
def execSmbusFallback (s : State) : Host.Outcome State Fault Refusal := .next { s with cc := { s.cc with sbSmbus := true } }

/-- DYNAMIC_ADDRESS_ASSIGNMENT (R81): SETDASA or ENTDAA on the I3C sideband. -/
def execDynamicAddressAssignment (addr : Nat) (s : State) : Host.Outcome State Fault Refusal :=
  .next (if s.cc.sbSmbus || unpowered s then s else { s with cc := { s.cc with sbAddr := addr % 128 } })

/-! ### Resets that the LF7 makes itself -/

/-- FIRMWARE_SILENT (R527): the management firmware has been silent for 100 ms. -/
def execFirmwareSilent (s : State) : Host.Outcome State Fault Refusal :=
  .next (if s.hw.off || unpowered s || !decide (s.cc.stage = 4 ∨ s.cc.stage = 5 ∨ s.cc.stage = 6) then s else startFlush (crashRecord s 4) 2 1 4 false)

end Sys2Proof.Machine
end

