-- ==== Sys2Proof/Machine/Boot.lean ====
section
/-! DEFINITION. Boot (R450–R455), restore (R487–R490, R537), recovery mode (R543), and the loss of an HBM stack or of a line of
the device area (R538, R539). -/

namespace Sys2Proof.Machine

/-- Boot may go on: the main converters run, no flush runs, and RESET_N is high (R559). -/
def bootRuns (s : State) : Bool := s.hw.mainOn && s.hw.pwrgd && !unpowered s && decide (s.lv.flushCause = 0) && !s.hw.resetLow

/-- The boot stage reached. -/
def bootStage (s : State) (n : Nat) : State := { s with cc := { s.cc with stage := n } }

/-- `LV_STATUS.STATE` during boot; it reads EXPORTED until a cold reset (R498). -/
def bootLv (s : State) (n : Nat) : State := { s with lv := { s.lv with state := if s.lv.state = 6 then 6 else n } }

/-- A debug unlock takes effect at the cold boot it was granted for, and lasts until the next; it makes sealed keys unreadable
(R452, R459). -/
def bootDebug (s : State) : State :=
  if (lcNow s).debugNext then
    let s := writeLc s 3 0 { lcNow s with debugNext := false }
    clearDelivered (zeroiseAll { s with ta := { s.ta with debug := true } })
  else { s with ta := { s.ta with debug := false } }

/-- BOOT_IDENTITY (R450, R455, R460): layer 0 reads MRAM; a cold boot reconstructs the unique device secret. -/
def execBootIdentity (s : State) : Host.Outcome State Fault Refusal :=
  .next (if bootRuns s && decide (s.cc.stage = 0) then
    if s.ta.lcA.valid = false ∧ s.ta.lcB.valid = false then bootStage s 0xE3
    else if s.cc.coldBoot ∧ s.ta.pufBad then bootStage s 0xE2
    else
      let s := if s.cc.coldBoot then bootDebug s else s
      bootStage { s with ta := { s.ta with devId := Config.keyDigest devidSeed, meas := tput [] s.ta.meas 0 (Config.factoryDigest 0) } } 2
  else s)

/-- A slot of a layer holds an image valid at the running floor (R453, R454). -/
def slotValid (s : State) (layer slot_ : Nat) : Bool :=
  let x : FwSlot := tget {} s.lv.fw (layer * 2 + slot_)
  x.valid && decide ((lcNow s).floor ≤ x.svn)

/-- The slot of a layer that runs: the one that last booted, else the other (R454). -/
def bootSlotOf (s : State) (layer : Nat) : Option Nat :=
  let a := tget 0 s.lv.bootSlot layer
  if slotValid s layer a then some a else if slotValid s layer (1 - a) then some (1 - a) else none

/-- Measurement of an image: the digest of its body, which its header carries. -/
def imageDigest (layer : Nat) (img : Bytes) : Bytes := if img = [] then Config.factoryDigest layer else (img.drop 16).take 32

/-- A layer's image runs: it is measured, and the boot record names its slot. -/
def runLayer (s : State) (layer : Nat) : State :=
  match bootSlotOf s layer with
  | none => s
  | some k =>
    let x : FwSlot := tget {} s.lv.fw (layer * 2 + k)
    { s with lv := { s.lv with bootSlot := tput 0 s.lv.bootSlot layer k }
             ta := { s.ta with imageB := s.ta.imageB + k * 2 ^ layer, svn := tput 0 s.ta.svn layer x.svn
                               meas := tput [] s.ta.meas layer (imageDigest layer x.bytes) } }

/-- A layer's other image runs, and not the one that last booted. -/
def fellBack (s : State) (layer : Nat) : Bool := (bootSlotOf s layer).any fun k => decide (k ≠ tget 0 s.lv.bootSlot layer)

/-- A boot that runs some layer's other image is counted (`TA_IMAGE_FALLBACK`). -/
def noteFallback (s : State) : State := if [1, 2, 3, 4].any (fellBack s) then taCount s 5 1 else s

/-- FIRMWARE_LOAD (R454, R455): every layer runs a valid image, or boot stops at stage 0xE1 and the module enters recovery mode. -/
def execFirmwareLoad (s : State) : Host.Outcome State Fault Refusal :=
  .next (if bootRuns s && decide (s.cc.stage = 2) then
    match [1, 2, 3, 4].find? fun l => (bootSlotOf s l).isNone with
    | some l => { s with cc := { s.cc with stage := 0xE1, recovery := true, recCause := 1, recLayer := l } }
    | none =>
      let s := [1, 2, 3, 4].foldl runLayer (noteFallback { s with ta := { s.ta with imageB := 0 } })
      bootLv (bootStage (attest s 1 0 s.ta.imageB (measOf s 1)) 4) 3
  else s)

/-! ### Restore -/

/-- A grain of the rebuilt tier map (R537): scratch data in a lost copy fails; every other copy reverts to the backing, and the
frame of a pinned-tier grain stays reserved for its extent. -/
def rebuildGrain (s : State) (g cause : Nat) : State :=
  let e := tier s g
  if e.loc = 2 ∨ e.loc = 3 then
    match extOf s g with
    | none => setTier s g { loc := 1 }
    | some x =>
      if scratch (ext s x) ∧ e.dirty ≠ 0 then failGrain s g cause
      else
        let s := if e.loc = 2 ∧ (ext s x).cls = 0 ∧ (ext s x).pin = 0
          then { s with tr := { s.tr with reserved := tput 0 s.tr.reserved e.frame (x + 1) } } else s
        setTier s g { loc := 1 }
  else s

/-- The volatile image that restore reads, and whether the newest has no flush marker (R488). -/
def imageRead (s : State) : VolImage × Bool :=
  if s.vimg.cur.present ∧ s.vimg.cur.marked = false then (s.vimg.prev, true) else (s.vimg.cur, false)

/-- Volatile values put back from an image (R487); a reply-cache entry keeps the hold it had left (R275). -/
def putImage (s : State) (v : VolImage) : State :=
  let te := { s.te with sync := v.sync.foldl (fun t o => tmod {} t o.1 fun x => { x with value := o.2 }) s.te.sync
                        rc := moveHolds v.rc v.time s.now, marks := v.marks
                        restored := if v.present then some (v.time, v.highSeq) else none }
  let comps := v.meters.foldl (fun t m => if (tget {} t m.1).state = 0 then t else tmod {} t m.1 fun x => { x with meter := m.2 }) s.tr.comps
  { s with te := te, tr := { s.tr with comps := comps }, lv := { s.lv with lastCause := if v.present then v.cause else 0 } }

/-- Objects of the power and health controller put back from the state image (R487). -/
def putPolicy (s : State) : State :=
  match s.ph.img with
  | none => s
  | some x => { s with ph := putPhImage s.ph x }

/-- Completions that stand staged are finished (R489), those of a queue in the order of acceptance (R28): one whose record cannot be
written yet stays, and those behind it in its queue. -/
def finishCompls (s : State) : State :=
  (s.lv.recs.filter fun r => decide (r.kind = .job)).foldl (fun s r => match findCompl s r.seq with
    | some c => if (queueHead s r.queue).any (fun h => decide (h.seq = r.seq)) then deliverCompl s r c 0 else s
    | none => s) s

/-- The records that remain are re-entered (R490): exported ones are found retired (R498). -/
def reenter (s : State) : State :=
  let l := s.lv.recs.filter fun r => !r.exported
  let s := finishCompls { s with lv := { s.lv with recs := l } }
  let n := (s.lv.recs.filter fun r => decide (r.kind ≠ .completion)).length
  let s := lvCount { s with lv := { s.lv with nextSeq := if s.lv.everStaged then s.lv.nextSeq else 1 } } 3 n
  { s with cc := { s.cc with mbx := (List.range 80).foldl (fun t m => tmod {} t m fun x =>
      { x with running := (s.lv.recs.filter fun r => decide (r.kind = .program) && decide (r.mailbox = m)).length }) s.cc.mbx } }

/-- Scrubs that were due start again: channels that had not been scrubbed, and extents under EXT.SCRUB (R444, R445). -/
def requeueScrubs (s : State) : State :=
  let s := (List.range 128).foldl (fun s p => if (pch s p).state = 3 ∨ (pch s p).state = 4
    then queueScrub (setPch s p { pch s p with state := 4 }) (p / 32) (1, p) else s) s
  (tkeys s.tr.exts).foldl (fun s x => if (ext s x).state = 4 then scrubExtent s x else s) s

/-- After the loss of stack 0 the device area takes the lowest 14 channels of the lowest healthy stack, which leave their tenants
(R539). -/
def moveDeviceArea (s : State) : State :=
  if s.cc.resetCause ≠ 5 then s
  else match (List.range (hbmStacks s)).find? fun n => !s.ph.hbmFail.testBit n with
    | none => s
    | some n => (List.range 14).foldl (fun s i => setPch s (32 * n + i) { state := 0, part := (pch s (32 * n + i)).part }) s

/-- Saved key slots are read under the seal key; where a debug change or an identity-epoch raise has changed it, they cannot be, and
are zeroised (R452). -/
def unsealSlots (s : State) : State :=
  let k := ((lcNow s).idepoch, s.ta.debug)
  if s.ta.sealedUnder = k then s else zeroiseAll { s with ta := { s.ta with sealedUnder := k } }

/-- The state image cannot be read: both packages of a NAND pair are out (R491, R543). -/
def imageLost (s : State) : Bool := (List.range 4).any fun p => decide ((nandPkg s p).state ≠ 0) && decide ((nandPkg s (p + 4)).state ≠ 0)

/-- Restore into service (R487–R490, R537, R539). -/
def restoreAll (s : State) : State :=
  let v := imageRead s
  let s := if v.2 then crashRecord s 0x100 else s
  let s := unsealSlots (moveDeviceArea (putPolicy (putImage s v.1)))
  let s := (tkeys s.tr.tmap).foldl (fun s g => rebuildGrain s g 5) s
  let s := { s with tr := { s.tr with frames := [], lframes := [] } }
  bootLv (bootStage (requeueScrubs (reenter s)) 5) 4

/-- Boot goes on in recovery mode (R543). -/
def enterRecovery (s : State) (cause : Nat) : State :=
  bootLv (bootStage { s with cc := { s.cc with recovery := true, recCause := cause, recLayer := 0 } } 5) 3

/-- RESTORE (R487, R543). -/
def execRestore (s : State) : Host.Outcome State Fault Refusal :=
  .next (if bootRuns s && decide (s.cc.stage = 4) then
    if s.cc.recReq then enterRecovery s 3
    else if imageLost s then enterRecovery s 2
    else if s.sa.ready then restoreAll s else s
  else s)

/-- A port at stage READY: an enabled one starts to look for a partner (R331). -/
def startPort (now : Nat) (x : Port) : Port :=
  if x.status.enabled then { x with state := if x.test ≠ 0 then 6 else 1, stateT := now } else x

/-- The main domain starts (R352, R455, R505). -/
def startService (s : State) : State :=
  let s := { s with pc := { s.pc with ports := tmap {} s.pc.ports fun _ x => startPort s.now x } }
  if timeSource s then
    let s := if s.cc.coldBoot then setTime s (imageRead s).1.time else s
    { s with pc := { s.pc with tState := 1, timeSet := true } }
  else s

/-- BOOT_READY (R455, R536): the bootstrap set and the main domain become available; the spare control sequencer stands by. -/
def execBootReady (s : State) : Host.Outcome State Fault Refusal :=
  .next (if bootRuns s && decide (s.cc.stage = 5) then
    let s := bootLv (bootStage s 6) 0
    let s := if (ctl s 8).state = 0 then setCtl s 8 { ctl s 8 with state := 2 } else s
    aonDone (aonDone (if s.cc.recovery then s else startService s) 5) 6
  else s)

/-! ### Recovery mode -/

/-- The tests of RECOVERY_IMAGE (R543), as the code its answer carries. -/
def recoveryReason (s : State) (layer off len : Nat) : Nat :=
  firstFail [
    (!decide (1 ≤ layer ∧ layer ≤ 4) || !headerOk s layer (bulkRead s off len), 0x0C03),
    (decide (off % 4096 ≠ 0) || !sourceOk s off len, 0x0C04),
    (!imageVerifies (bulkRead s off len), 0x0C06)]

/-- RECOVERY_IMAGE (R543): mailbox 0 writes an image into the layer's inactive slot, and the pages go back to the host. -/
def execRecoveryImage (s : State) : Host.Outcome State Fault Refusal :=
  .next (if s.cc.recovery && msgReady s 0 5 then
    let tag := msgTag s 0
    let off := fld (inMsg s 0 1) 0 60
    let layer := fld (inMsg s 0 2) 0 8
    let len := fld (inMsg s 0 2) 32 32
    let r := recoveryReason s layer off len
    let s := takeMsg s 0
    let s := if r = 0 ∨ r = 0x0C06 then flipPages (writeImage s layer (bulkRead s off len)) off len else s
    cpDone s 0 tag 0 0 r
  else s)

/-! ### Losses in service -/

/-- The reply cache is lost (R538). -/
def loseReplies (s : State) : State := { s with te := { s.te with rc := [], tLost := some s.now } }

/-- A grain whose copy is lost in service: scratch data fails with a cause, any other is served from its backing (R398, R539). -/
def loseCopy (s : State) (g cause : Nat) : State :=
  match extOf s g with
  | some x => if scratch (ext s x) ∧ (tier s g).dirty ≠ 0 then failGrain s g cause else dropCopy s g
  | none => dropCopy s g

/-- A pseudo-channel lies in a stack. -/
def inStack (n p : Nat) : Bool := decide (p / 32 = n)

/-- A stack has gone (R539): its copies are lost and its channels absent. -/
def stackGone (s : State) (stack : Nat) : State :=
  let s := { s with ph := { s.ph with hbmFail := s.ph.hbmFail ||| 2 ^ stack } }
  let s := (s.tr.moves.filter fun m => m.2.active && decide (m.2.toLoc = 2) && inStack stack (framePch m.2.toFrame)).foldl (fun s m => dropMove s m.2.grain) s
  let lost := s.tr.tmap.filter fun t => decide (t.2.loc = 2) && inStack stack (framePch t.2.frame)
  let s := lost.foldl (fun s t => loseCopy s t.1 4) s
  let s := (List.range 32).foldl (fun s i => setPch s (32 * stack + i) { pch s (32 * stack + i) with state := 5, tenant := 0 }) s
  { s with tr := { s.tr with reserved := s.tr.reserved.filter fun r => !inStack stack (framePch r.1) } }

/-- The device area lies in a stack: stack 0, or the one that has taken it since. -/
def holdsArea (s : State) (stack : Nat) : Bool :=
  decide (stack = 0) || (List.range 32).any fun i => decide ((pch s (32 * stack + i)).state = 0)

/-- HBM_STACK_FAIL (R539): its channels are absent and its copies gone; with stack 0, or the stack that has taken the device area
after it, the device area goes, and a warm reset follows. -/
def execHbmStackFail (stack : Nat) (s : State) : Host.Outcome State Fault Refusal :=
  .next (if mainUp s && decide (stack < hbmStacks s) && !s.ph.hbmFail.testBit stack then
    if holdsArea s stack then startFlush (crashRecord (loseReplies (stackGone s stack)) 5) 2 1 5 false else stackGone s stack
  else s)

/-- DEVICE_AREA_UE (R538): an uncorrectable line of a device-area table. Objects other than grains and replies reload within 1 ms;
the time it takes is a free value (log 137). -/
def execDeviceAreaUe (what : AreaTable) (s : State) : Host.Outcome State Fault Refusal :=
  .next (if mainUp s then
    match what with
    | .replyCache => loseReplies s
    | .tierMap first count =>
      (tkeys (s.tr.tmap.filter fun t => decide (first ≤ t.1 ∧ t.1 < first + count) && decide (t.2.loc = 2 ∨ t.2.loc = 3))).foldl
        (fun s g => loseCopy (dropMove s g) g 5) s
    | .objects kind first count => { draw s with tr := { s.tr with
        reload := { kind := kind, first := first, count := count, till := s.now + (Config.freeWord s.freeCtr).toNat % 1000001 }
          :: s.tr.reload.filter fun r => decide (s.now < r.till) } }
  else s)

end Sys2Proof.Machine
end

