-- ==== Sys2Proof/Machine/Partition.lean ====
section
/-! DEFINITION. Bindings of mailboxes (R52), partitions and their resets (R532–R534, R547), the failure of a
control sequencer (R71), and the end of a composition (R406). -/

namespace Sys2Proof.Machine

/-! ### Mailbox bindings -/

/-- Status word of a binding. -/
def bindWord (s : State) (m : Nat) : W64 := statusWord (mbx s m).bind

/-- Checks of MBXBIND (R52, R78, R576). DESIGN CHOICE (log 116): a binding to a DESTROYING composition is accepted. -/
def bindingReason (s : State) (d : List W64) : Nat :=
  let m := df d 0 0 6
  let pr := df d 0 8 2
  let x := mbx s m
  firstFail [
    (x.inFull || decide (x.running ≠ 0) || s.cc.staged.any (fun g => decide (g.mailbox = m)), 1),
    (decide (pr = 2) && decide ((comp s (df d 0 32 12)).state = 0), 8),
    (reservedSet d [fmask 0 6 + fmask 8 2 + fmask 16 4 + fmask 32 12, 0, 0, 1]
      || (decide (pr ≠ 1) && decide (df d 0 16 4 ≠ 0)) || (decide (pr ≠ 2) && decide (df d 0 32 12 ≠ 0)), 9),
    (decide (m = 0) || decide (pr = 3), 4)]

/-- A mailbox bound, or with PRIV 0 unbound. -/
def bindMbx (s : State) (m pr part c : Nat) : State :=
  setMbx s m { mbx s m with priv := pr, part := part, comp := c, bind := { enabled := decide (pr ≠ 0) } }

/-- COMMIT_MBXBIND (R52): a RUNTIME binding takes its composition's partition. -/
def execCommitMbxbind (cs : Nat) (s : State) : Host.Outcome State Fault Refusal :=
  .next (runCtl s cs 0xE5 (fun _ => true) (fun d => stampKey okMbxBind (df d 0 0 6)) (fun s d => some (bindWord s (df d 0 0 6))) fun s _ d =>
    let m := df d 0 0 6
    applyOnly s d (bindWord s m) fun _ =>
      let r := bindingReason s d
      if r ≠ 0 then
        let s := setMbx s m { mbx s m with bind := refused (mbx s m).bind r }
        refuse s r (some (bindWord s m))
      else
        let c := df d 0 32 12
        let s := bindMbx s m (df d 0 8 2) (if df d 0 8 2 = 2 then (comp s c).part else df d 0 16 4) c
        { s := s, status := some (bindWord s m), obj := some (stampKey okMbxBind m) })

/-! ### Partition resets (R534) -/

/-- A partition holds a port, sequencer or unit (R547). -/
def partHolds (s : State) (p : Nat) : Bool :=
  fabricPorts.any (fun n => portNamed s n && decide ((port s n).part = p)) || s.sa.seqs.any (fun q => decide (q.2.part = p))
    || s.sa.units.any (fun u => decide (u.2.part = p))

/-- `CC_PART` (R547). -/
def partWord (s : State) (p : Nat) : W64 :=
  let o : ObjStatus := tget {} s.cc.part p
  statusWord { o with enabled := partHolds s p } ||| w64 (place 48 16 (tget 0 s.cc.partResets p) + place 24 8 (tget 0 s.cc.partState p))

/-- A control program stops for its partition's reset, to be run again under R96. -/
def stopProg (s : State) (cs : Nat) : State :=
  let s := if (ctl s cs).wait = .update then s else abandonWait s cs
  let s := dropProgLeave s cs
  setCtl s cs { ctl s cs with wait := .stopped }

/-- A partition reset begins, or joins the one in progress (R534 step 1, R540): jobs and programs stop. -/
def resetPart (s : State) (p : Nat) : State :=
  if tget 0 s.cc.partState p ≠ 0 then s
  else
    let s := { s with cc := { s.cc with partState := tput 0 s.cc.partState p 1 } }
    let s := (List.range 9).foldl (fun s cs => if (ctl s cs).state = 1 ∧ (ctl s cs).part = p then stopProg s cs else s) s
    (List.range 68).foldl (fun s q =>
      let x := seam s q
      if x.part = p ∧ x.state ≠ 8 ∧ x.job.isSome then setSeam s q { x with state := 5, wait := 0 } else s) s

/-- A partition's issued writes and updates are not all settled (R534 step 2). -/
def partBusy (s : State) (p : Nat) : Bool :=
  (List.range 68).any (fun q => decide ((seam s q).part = p) && seamBusy s q)
  || s.te.outst.any fun o => match o.what with
    | .ctlUpdate cs => decide ((ctl s cs).part = p)
    | .copyWrite e _ _ => decide ((comp s (copyEng s e).comp).part = p)
    | .copyStatus e _ => decide ((comp s (copyEng s e).comp).part = p)
    | .copyArrive e _ => decide ((comp s (copyEng s e).comp).part = p)
    | _ => false

/-- A partition's sequencer zeroed, its job given back to run again from its start (R534 steps 3 and 5). -/
def zeroSeam (s : State) (q : Nat) : State :=
  let x := seam s q
  let s := match x.job with
    | some j => if j.endStatus.isNone then ctxLeft (rerunJob s q j) j.ctx else s
    | none => s
  let x := seam s q
  setSeam s q { x with state := if x.state = 4 then 0 else x.state, s := [], p := 1, pc := 0, loops := [], code := [], mem := [],
                       ran := false, scrubDue := false }

/-- Steps 3 to 5 of R534. -/
def finishPartReset (s : State) (p : Nat) : State :=
  let s := (List.range 68).foldl (fun s q => if (seam s q).part = p then zeroSeam s q else s) s
  let s := { s with sa := { s.sa with units := tmap {} s.sa.units fun _ u => if u.part = p then { u with holds := none } else u } }
  let s := (List.range 32).foldl (fun s e =>
    if (copyEng s e).status.enabled ∧ (comp s (copyEng s e).comp).part = p then copyOff s e else s) s
  let s := (List.range 9).foldl (fun s cs => if (ctl s cs).wait = .stopped ∧ (ctl s cs).part = p then setCtl s cs {} else s) s
  { s with cc := { s.cc with partState := tput 0 s.cc.partState p 0
                             partResets := tmod 0 s.cc.partResets p fun n => min (n + 1) 65535 } }

/-- PARTITION_RESET_END (R534). -/
def execPartitionResetEnd (p : Nat) (s : State) : Host.Outcome State Fault Refusal :=
  .next (if working s && decide (tget 0 s.cc.partState p = 1) && !partBusy s p then finishPartReset s p else s)

/-- SEQUENCER_STOP_TIMEOUT (R534): a seam sequencer told to stop, or a control sequencer past its watchdog, has
not stopped within 1 ms: its partition is reset. A job that was to end so still ends with its status. -/
def execSequencerStopTimeout (iss : Issuer) (s : State) : Host.Outcome State Fault Refusal :=
  .next (if working s then
    match iss with
    | .seq q =>
      let x := seam s q
      if (x.state = 5 ∨ x.state = 8) ∧ x.stopT.any (fun t => decide (t + 1000000 ≤ s.now)) = true then resetPart s x.part else s
    | .ctl cs =>
      let q := ctl s cs
      if q.state = 1 ∧ q.wait ≠ .stopped ∧ q.started + s.cc.wdog * 1000 + 1000000 ≤ s.now then resetPart s q.part else s
    | .stage _ _ => s
  else s)

/-! ### PARTITION commits (R532) -/

/-- Members of a composition's live and prepared maps. -/
def mapMembers (x : Comp) : List Nat :=
  (if x.curLive then x.cur.members else []) ++ (if x.prevLive then x.prev.members else []) ++ (match x.prep with
    | some m => m.members
    | none => [])

/-- An enabled object names a port: a route, an extent, a window, a meter, a mirror session, a gate list or a
tray assignment. -/
def portUsed (s : State) (n : Nat) : Bool :=
  s.sw.routes.any (fun r => r.2.present && r.2.ports.contains n)
  || s.tr.exts.any (fun x => decide (x.2.state ≠ 0) && (decide (x.2.bport = n) || (x.2.mirror && decide (x.2.mport = n))))
  || s.pc.wins.any (fun w => decide (w.1 / 256 = n) && w.2.status.enabled)
  || s.sw.meters.any (fun m => m.2.status.enabled && decide (m.2.port = n))
  || s.sw.mirrors.any (fun m => m.2.status.enabled && decide (m.2.port = n))
  || decide ((tget {} s.sw.ports n).active ≠ 0) || (tget {} s.ie.ports n).assigned
  || s.tr.comps.any fun c => (mapMembers c.2).any fun ep => decide (endpointPort s ep = some n)

/-- Masks of the PARTITION descriptor. -/
def partMasks : List Nat := [fmask 0 2 + fmask 4 4 + fmask 16 8, 0, 0, 1]

/-- A PARTITION commit of the forms a row stands for; its status word is that of the partition named. -/
def partRow (s : State) (cs : Nat) (sel : Nat → Bool) (key : List W64 → Nat) (reason : State → List W64 → Nat) (go : State → List W64 → State) : State :=
  runCtl s cs 0xF3 (fun d => sel (df d 0 0 2)) (fun d => stampKey okPartition (key d)) (fun s d => some (partWord s (df d 0 4 4))) fun s _ d =>
    let p := df d 0 4 4
    applyOnly s d (partWord s p) fun _ =>
      let r := reason s d
      let o : ObjStatus := tget {} s.cc.part p
      let s := { s with cc := { s.cc with part := tput {} s.cc.part p { o with reason := r } } }
      if r ≠ 0 then refuse s r (some (partWord s p))
      else
        let s := go s d
        { s := s, status := some (partWord s p), obj := some (stampKey okPartition (key d)) }

/-- COMMIT_PARTITION_PORT (R532, R458), and the reserved FORM 3, which is refused. -/
def execCommitPartitionPort (cs : Nat) (s : State) : Host.Outcome State Fault Refusal :=
  .next (partRow s cs (fun f => decide (f = 0) || decide (f = 3)) (fun d => 256 + df d 0 16 8) (fun s d =>
      let n := df d 0 16 8
      let x := port s n
      let go := decide (df d 0 0 2 = 0)
      firstFail [
        (go && x.status.enabled, 1),
        (go && decide (x.part ≠ df d 0 4 4) && portUsed s n, 7),
        (reservedSet d partMasks, 9),
        (!go || decide (191 < n), 4),
        ((lcNow s).sealed && decide (x.part ≠ df d 0 4 4), 0x0B06)])
    fun s d => setPort s (df d 0 16 8) { port s (df d 0 16 8) with part := df d 0 4 4 })

/-- COMMIT_PARTITION_PCH (R532, R458). -/
def execCommitPartitionPch (cs : Nat) (s : State) : Host.Outcome State Fault Refusal :=
  .next (partRow s cs (fun f => decide (f = 1)) (fun d => 512 + df d 0 16 8) (fun s d =>
      let n := df d 0 16 8
      let x := pch s n
      firstFail [
        (decide (14 ≤ n ∧ n ≤ 127) && decide (x.state ≠ 1), 1),
        (reservedSet d partMasks, 9),
        (!decide (14 ≤ n ∧ n ≤ 127), 4),
        ((lcNow s).sealed && decide (x.part ≠ df d 0 4 4), 0x0B06)])
    fun s d => setPch s (df d 0 16 8) { pch s (df d 0 16 8) with part := df d 0 4 4 })

/-- COMMIT_PARTITION_RESET (R534): NUMBER is not used. A reset of the program's own partition stops the program
too; its commit has then been made, and is not made again (R96). -/
def execCommitPartitionReset (cs : Nat) (s : State) : Host.Outcome State Fault Refusal :=
  .next (partRow s cs (fun f => decide (f = 2)) (fun d => df d 0 4 4) (fun _ d => firstFail [(reservedSet d partMasks, 9)])
    fun s d => resetPart s (df d 0 4 4))

/-! ### Failure of a control sequencer (R71) -/

/-- CONTROL_SEQUENCER_FAIL (R71): the spare takes the place and number of the failed sequencer, which is retired;
its program runs again under R96. With no spare left the number is retired. -/
def execControlSequencerFail (cs : Nat) (s : State) : Host.Outcome State Fault Refusal :=
  .next (if mainUp s && decide (cs < 8) && decide ((ctl s cs).state ≤ 1) then
    let s := unpend (if (ctl s cs).state = 1 then dropProgLeave (abandonWait s cs) cs else s) (9 * 256 + cs)
    if (ctl s 8).state = 2 then setCtl (setCtl s cs {}) 8 { state := 3 } else setCtl s cs { state := 3 }
  else s)

/-! ### The end of a composition (R406) -/

/-- Tables of a composition. -/
def tablesOf (s : State) (c : Nat) : List Nat := (s.gv.store.filter fun t => t.2.owned && decide (t.2.comp = c)).map (·.1)

/-- A composition's mailboxes unbound (R52) and its job queues disabled (R61). -/
def dropUsers (s : State) (c : Nat) : State :=
  let s := (List.range 64).foldl (fun s m => if (mbx s m).priv = 2 ∧ (mbx s m).comp = c then bindMbx s m 0 0 0 else s) s
  (tkeys s.cc.jq).foldl (fun s n => if (jobq s n).status.enabled ∧ (jobq s n).comp = c then disableJobq s n else s) s

/-- What COMP.DESTROY does on this switch in the cycle in which it executes. -/
def destroyComp (s : State) (c : Nat) : State :=
  let x := comp s c
  let s := setComp s c { x with state := 4, fenceEnd := s.now + 10000000, status := { x.status with draining := true, reason := 0 } }
  let s := dropUsers s c
  let s := (tkeys s.tr.exts).foldl (fun s x => if (ext s x).state = 1 ∧ (ext s x).comp = c then revokeExt s x else s) s
  let s := (tablesOf s c).foldl (fun s id => releaseTable s id true) s
  startColl (applyFence s c 0 0) c 0 0 none

/-- COMP_DESTROY (R406). -/
def execCompDestroy (cs : Nat) (s : State) : Host.Outcome State Fault Refusal :=
  .next (runCtl s cs 0x83 (fun _ => true) (fun d => stampKey okComp (df d 0 0 12)) (fun _ _ => none) fun s _ d =>
    let c := df d 0 0 12
    let x := comp s c
    let r := firstFail [(reservedSet d [fmask 0 12, 0, 0, 0], 9), (decide (x.state = 0) || decide (x.state = 4), 0x0901)]
    if r ≠ 0 then refuse (setComp s c { x with status := refused x.status r }) r
    else { s := destroyComp s c, obj := some (stampKey okComp c) })

/-- Everything a destroyed composition waits for has ended. -/
def destroyDone (s : State) (c : Nat) : Bool :=
  (collDone (coll s (scopeKey c 0 0)) || decide ((comp s c).fenceEnd ≤ s.now))
  && s.tr.exts.all (fun e => decide (e.2.comp ≠ c) || decide (e.2.state ≠ 1 ∧ e.2.state ≠ 2))
  && s.cc.jq.all (fun j => decide (j.2.comp ≠ c) || !j.2.status.draining)
  && (tablesOf s c).isEmpty

/-- COMP_DESTROY_END (R406, R416): the composition is FREE, its final meter record written; the count of
switches not complete stays in MISSING, and the fence stands. A FREE composition holds no enabled queue (R62) and no
mailbox, so one taken up while it was DESTROYING is dropped here (DESIGN CHOICE, log 116). Its last record waits for place in the
backlog (R496). -/
def execCompDestroyEnd (c : Nat) (s : State) : Host.Outcome State Fault Refusal :=
  .next (if working s && decide ((comp s c).state = 4) && destroyDone s c && !backlogFull s then
    let k := coll s (scopeKey c 0 0)
    let n := ((k.missing ++ k.markers.map (·.1)).eraseDups).length
    let s := setFence s c { fenceOf s c with missing := n }
    stateRecord (setComp (closePeriod (dropUsers s c) c) c {}) 64
  else s)

end Sys2Proof.Machine
end

