-- ==== Sys2Proof/Machine/Power.lean ====
section
/-! DEFINITION. The power and health controller (chapter *Power, Clocks, Health and Proof*): leave (R506–R510), the throttles of the
input and of the dies (R504, R511), health inputs and spare swaps (R512–R515), and its policy (R524). -/

namespace Sys2Proof.Machine

/-! ### PH_POLICY (R524) -/

/-- Status word of a form. -/
def phStatus (s : State) (f : Nat) : ObjStatus := tget {} s.ph.status f
/-- Status word of a form replaced. -/
def setPhStatus (s : State) (f : Nat) (o : ObjStatus) : State := { s with ph := { s.ph with status := tput {} s.ph.status f o } }

/-- Masks of the PH_POLICY descriptor. -/
def phMasks : List Nat := [fmask 0 2 + fmask 8 8, fmask 0 56, fmask 0 64, fmask 0 63]

/-- A COMMIT of PH_POLICY of one form. -/
def phRow (s : State) (cs form : Nat) (absent : State → List W64 → Bool) (reason : State → List W64 → Nat) (go : State → List W64 → State) : State :=
  runCtl s cs 0xF5 (fun d => decide (df d 0 0 2 = form)) (fun _ => stampKey okPhPolicy form) (fun s _ => some (statusWord (phStatus s form)))
    fun s q d => applyOnly s d (statusWord (phStatus s form)) fun _ =>
      let r := firstFail [(decide (q.priv ≠ 1), 3), (absent s d, 2), (reservedSet d phMasks, 9)]
      let r := if r ≠ 0 then r else reason s d
      if r ≠ 0 then
        let o := refused (phStatus s form) r
        refuse (setPhStatus s form o) r (some (statusWord o))
      else
        let s := go (setPhStatus s form (accepted (phStatus s form))) d
        { s := s, status := some (statusWord (phStatus s form)), obj := some (stampKey okPhPolicy form) }

/-- COMMIT_PH_BUDGET (R503, R524). -/
def execCommitPhBudget (cs : Nat) (s : State) : Host.Outcome State Fault Refusal :=
  .next (phRow s cs 0 (fun _ _ => false)
    (fun _ d => firstFail [(!(decide (300 ≤ df d 1 0 16 ∧ df d 1 0 16 ≤ 1500) && decide (1 ≤ df d 1 16 16 ∧ df d 1 16 16 ≤ 1000)
      && decide (10 ≤ df d 1 32 16)), 4)])
    fun s d => { s with ph := { s.ph with budget := df d 1 0 16, unitIdle := df d 1 16 16, pllIdle := df d 1 32 16 } })

/-- COMMIT_PH_SWAP (R513, R524): WLEN and WPERIOD in seconds. -/
def execCommitPhSwap (cs : Nat) (s : State) : Host.Outcome State Fault Refusal :=
  .next (phRow s cs 1 (fun _ _ => false)
    (fun _ d => firstFail [
      (!(decide (df d 1 0 2 ≤ 2) && decide (10 ≤ df d 1 16 16 ∧ df d 1 16 16 ≤ 2000) && decide (1 ≤ df d 1 32 16)
        && decide (1 ≤ df d 1 48 8 ∧ df d 1 48 8 ≤ 100) && decide (60 ≤ df d 3 1 31 ∧ df d 3 1 31 ≤ 86400)
        && decide (3600 ≤ df d 3 32 31 ∧ df d 3 32 31 ≤ 2592000)), 4),
      (decide (df d 3 32 31 ≤ df d 3 1 31), 0x0D03)])
    fun s d => { s with ph := { s.ph with policy := df d 1 0 2, ageLimit := df d 1 16 16, ceLimit := df d 1 32 16, eyeMin := df d 1 48 8,
                                          wstart := (wd d 2).toNat, wlen := df d 3 1 31, wperiod := df d 3 32 31 } })

/-- COMMIT_PH_PROOF (R516, R524). -/
def execCommitPhProof (cs : Nat) (s : State) : Host.Outcome State Fault Refusal :=
  .next (phRow s cs 2 (fun s d => proofType (df d 0 8 8) && (!typePresent s.variant (df d 0 8 8) || decide (activeCount s (df d 0 8 8) = 0)))
    (fun _ d => firstFail [
      (!proofType (df d 0 8 8) || !(decide (df d 1 0 4 ≤ 12) && decide (df d 1 4 4 ≤ 12)), 4),
      (decide (df d 1 0 4 < df d 1 4 4), 0x0D05)])
    fun s d => { s with ph := { s.ph with log2n := tput 0 s.ph.log2n (df d 0 8 8) (df d 1 0 4), log2esc := tput 0 s.ph.log2esc (df d 0 8 8) (df d 1 4 4) } })

/-- COMMIT_PH_WEIGHT (R509, R524): the head that waits keeps the tag it has. -/
def execCommitPhWeight (cs : Nat) (s : State) : Host.Outcome State Fault Refusal :=
  .next (phRow s cs 3 (fun _ _ => false)
    (fun _ d => firstFail [(!(decide (df d 0 8 8 ≤ 16) && decide (1 ≤ df d 1 0 13 ∧ df d 1 0 13 ≤ 4096)), 4)])
    fun s d => setFlow s (df d 0 8 8) { flow s (df d 0 8 8) with weight := df d 1 0 13 })

/-! ### Leave (R506–R510) -/

/-- POWER_REQ (R510): a leave the program holds is released first. -/
def execPowerReq (cs : Nat) (s : State) : Host.Outcome State Fault Refusal :=
  .next (runCtl s cs 0x91 (fun d => !bit (wd d 0) 16) (fun _ => stampKey okPower cs) (fun _ _ => none) fun s _ d =>
    let c := df d 0 0 16
    let r := firstFail [(reservedSet d [fmask 0 17, 0, 0, 0], 9), (!decide (1 ≤ c ∧ c ≤ 60000), 4)]
    if r ≠ 0 then refuse s r
    else
      let s := dropProgLeave s cs
      { s := askLeave s (ctl s cs).part (.prog cs) c, wait := .leave })

/-- POWER_REQ_RELEASE (R510). -/
def execPowerReqRelease (cs : Nat) (s : State) : Host.Outcome State Fault Refusal :=
  .next (runCtl s cs 0x91 (fun d => bit (wd d 0) 16) (fun _ => stampKey okPower cs) (fun _ _ => none) fun s q d =>
    let r := firstFail [(reservedSet d [fmask 0 17, 0, 0, 0], 9), (!q.leave, 0x0D04)]
    if r ≠ 0 then refuse s r else { s := dropProgLeave s cs })

/-- The memory-side die of a frame. -/
def frameDie (f : Nat) : Nat := 4 + framePch f / 32

/-- A migration or scrub that waits for a memory-side die to cool (R511). -/
def leaveHot (s : State) (r : LeaveReq) : Bool :=
  match r.who with
  | .scrub e => decide ((die s (4 + e)).throttle ≠ 0)
  | .move n =>
    let m : Move := tget {} s.tr.moves n
    (decide (m.toLoc = 2) && decide ((die s (frameDie m.toFrame)).throttle ≠ 0))
      || (decide ((tier s m.grain).loc = 2) && decide ((die s (frameDie (tier s m.grain).frame)).throttle ≠ 0))
  | _ => false

/-- The flow whose waiting head has the lowest finish tag; ties go to the lower number (R509). -/
def bestFlow (s : State) : Option Nat :=
  (List.range 17).foldl (fun b p => match (flow s p).queue with
    | [] => b
    | r :: _ => if leaveHot s r then b else match b with
      | none => some p
      | some o => if tagLt (flow s p).f (flow s o).f then some p else some o) none

/-- Requests waiting for leave in all flows. -/
def leaveWaiting (s : State) : Nat := s.ph.flows.foldl (fun n f => n + f.2.queue.length) 0

/-- A charge fits (R508): G + c ≤ B − P_base, or it is the only request and no leave is held. -/
def leaveFits (s : State) (c base : Nat) : Bool :=
  decide (leaveHeld s + c ≤ 40 * (effBudget s - base)) || (decide (leaveWaiting s = 1) && decide (leaveHeld s = 0))

/-- What a grant starts. -/
def leaveGranted (s : State) (r : LeaveReq) : State :=
  match r.who with
  | .job q => setSeam s q { seam s q with wait := 0, job := (seam s q).job.map fun j => { j with leaveHeld := true } }
  | .prog cs => ctlComplete (setCtl s cs { ctl s cs with leave := true, leaveW := r.charge }) cs 0 none none 0
  | .move n => { s with tr := { s.tr with moves := tmod {} s.tr.moves n fun m => { m with running := true } } }
  | .scrub e => startScrub s e

/-- The oldest request of a queue leaves it with leave: virtual time moves to its start, and the queue's tags follow (R508). -/
def takeFront (s : State) (p : Nat) (r : LeaveReq) (l : List LeaveReq) : State :=
  let f := flow s p
  let s := { s with ph := { s.ph with v := if tagLt s.ph.v f.s then f.s else s.ph.v } }
  let g := { f with queue := l, held := f.held + r.charge, s := f.f }
  let s := setFlow s p { g with f := if l.isEmpty then g.f else leaveTag g (l.headD {}).charge }
  phCount (phCount s 0 1) 1 (s.now - r.since)

/-- LEAVE_GRANT (R508, R509): `base` is P_base in watts. -/
def execLeaveGrant (base : Nat) (s : State) : Host.Outcome State Fault Refusal :=
  .next (if working s then
    let s := { s with ph := { s.ph with base := base } }
    match bestFlow s with
    | none => s
    | some p =>
      match (flow s p).queue with
      | [] => s
      | r :: t => if leaveFits s r.charge base then leaveGranted (takeFront s p r t) r else s
  else s)

/-! ### Throttles (R504, R511) -/

/-- A change of the throttles; the time with any in force is counted from when the first sets (R526). -/
def withThrottle (s : State) (f : State → State) : State :=
  let t := f s
  if !throttled s && throttled t then { t with ph := { t.ph with thrSince := t.now } } else t

/-- BUDGET_THROTTLE_SET (R504): the input power, averaged over 1 ms, exceeds B by more than 2 %. -/
def execBudgetThrottleSet (watts : Nat) (s : State) : Host.Outcome State Fault Refusal :=
  .next (if mainUp s then
    let s := { s with ph := { s.ph with watts := watts } }
    if 102 * effBudget s < 100 * watts then withThrottle s fun s => { s with ph := { s.ph with budgetThr := true } } else s
  else s)

/-- BUDGET_THROTTLE_LIFT (R504): the 10 ms average has stayed below 0.95 × B for 10 ms. -/
def execBudgetThrottleLift (watts : Nat) (s : State) : Host.Outcome State Fault Refusal :=
  .next (if mainUp s then
    let s := { s with ph := { s.ph with watts := watts } }
    if 100 * watts < 95 * effBudget s then { s with ph := { s.ph with budgetThr := false } } else s
  else s)

/-- Throttle of a die at a temperature, with 5 °C of hysteresis on release (R511). -/
def throttleOf (d cur tj : Nat) : Nat :=
  if d < 4 then
    if 105 ≤ tj ∨ (cur = 2 ∧ 100 ≤ tj) then 2 else if 100 ≤ tj ∨ (cur ≠ 0 ∧ 95 ≤ tj) then 1 else 0
  else if d < 8 then (if 100 ≤ tj ∨ (cur ≠ 0 ∧ 95 ≤ tj) then 1 else 0)
  else 0

/-- DIE_TEMPERATURE (R511): a die reports its hottest junction. -/
def execDieTemperature (d tj : Nat) (s : State) : Host.Outcome State Fault Refusal :=
  .next (if !unpowered s && decide (d < 11) then
    let s := withThrottle s fun s => setDie s d { die s d with tj := min tj 255, throttle := throttleOf d (die s d).throttle tj }
    if 115 ≤ tj ∧ s.hw.off = false then
      startPowerOff { s with cc := { s.cc with aonOp := 7, aonState := 1, aonRun := 7 } } 6
    else s
  else s)

/-! ### Health and spare swaps (R512–R515) -/

/-- The unit or sequencer holds a job (R513). -/
def holdsJob (s : State) (ty p : Nat) : Bool :=
  if ty = 0 then (seam s p).job.isSome else decide ((unitAt s ty p).state = 1 ∨ (unitAt s ty p).state = 2)

/-- The unit or sequencer is in service: neither spare, checking, retired nor absent. -/
def inService (s : State) (ty p : Nat) : Bool :=
  typePresent s.variant ty && decide (p < physCount ty) &&
    (if ty = 0 then decide ((seam s p).state ≠ 6 ∧ (seam s p).state ≠ 7) else decide ((unitAt s ty p).state ≤ 2))

/-- A unit or sequencer swapped now, or when its job retires (R513). -/
def swapUnit (s : State) (ty p : Nat) : State :=
  if holdsJob s ty p then setHealth s ty p { health s ty p with swapDue := true } else swapNow s ty p

/-- A management core gives way to the spare (R74). -/
def swapCore (s : State) (n : Nat) : State := phCount { s with cc := { s.cc with mgmtFailed := s.cc.mgmtFailed ||| 2 ^ n } } 7 1

/-- A NAND package 0–7 or an LPDDR5X package 8–9 is taken out of service; its mirror carries on (R479, R491, R515). -/
def dropPackage (s : State) (n : Nat) : State :=
  phCount (if n < 8 then nandOut s n else { s with lv := { s.lv with lpddrFail := s.lv.lpddrFail ||| 2 ^ (n - 8) } }) 7 1

/-- A package stands in service beside a mirror that does. -/
def packageOk (s : State) (n : Nat) : Bool :=
  if n < 8 then decide ((nandPkg s n).state = 0) && decide ((nandPkg s ((n + 4) % 8)).state = 0) else decide (s.lv.lpddrFail = 0)

/-- Key of a part other than a lane: its kind and number (0–7 units and sequencers by type, 8 management core, 9 control
sequencer, 10 LPDDR5X, 11 NAND). Memory banks and HBM stacks have no spare. -/
def partKey : HealthPart → Option Nat
  | .unit ty p => if ty < 8 then some (ty * 256 + p) else none
  | .seq q => some q
  | .core c => some (8 * 256 + c)
  | .ctl cs => some (9 * 256 + cs)
  | .lpddr n => some (10 * 256 + n)
  | .nand n => some (11 * 256 + n)
  | _ => none

/-- A part is in service, so that it can be swapped. -/
def partLive (s : State) (k : Nat) : Bool :=
  let n := k % 256
  match k / 256 with
  | 8 => decide (n < 4) && !s.cc.mgmtFailed.testBit n
  | 9 => decide (n < 8) && decide ((ctl s n).state ≠ 3)
  | 10 => decide (n < 2) && packageOk s (8 + n)
  | 11 => decide (n < 8) && packageOk s n
  | ty => inService s ty n

/-- The swap of a part is made: a control sequencer's when its program has ended. With no spare the part stays in service. -/
def swapPart (s : State) (k : Nat) : State :=
  let n := k % 256
  let s := unpend s k
  if partLive s k = false then s
  else match k / 256 with
    | 8 => if s.cc.mgmtFailed = 0 then swapCore s n else s
    | 9 => if (ctl s n).state = 1 then { s with ph := { s.ph with partDue := s.ph.partDue.filter (· ≠ k) ++ [k] } } else swapCtl s n
    | 10 => dropPackage s (8 + n)
    | 11 => dropPackage s n
    | ty => swapUnit s ty n

/-- A maintenance window is open: WSTART + k × WPERIOD, for WLEN (R513). -/
def windowOpen (s : State) : Bool :=
  decide (s.ph.wperiod ≠ 0) && decide (((s.now : Int) - s.ph.wstart) % (s.ph.wperiod * 1000000000 : Nat) < (s.ph.wlen * 1000000000 : Nat))

/-- A part has crossed its swap threshold (R513): swapped at once, at the next window, or by SPARE.SWAP only; until then it shows
SWAP_PENDING, under MANUAL too (DEDUCED, log 136). -/
def crossed (s : State) (k : Nat) : State :=
  if partLive s k = false then s
  else if s.ph.policy = 0 ∨ (s.ph.policy = 1 ∧ windowOpen s = true) then swapPart s k
  else { s with ph := { s.ph with partWait := s.ph.partWait.filter (· ≠ k) ++ [k] } }

/-- The type and number of a part that has a health entry. -/
def healthUnit : HealthPart → Option (Nat × Nat)
  | .unit ty p => some (ty, p)
  | .seq q => some (0, q)
  | _ => none

/-- AGE_MONITOR_SAMPLE (R512): the slowdown of a part in 0.01 %. -/
def execAgeMonitorSample (part : HealthPart) (age : Nat) (s : State) : Host.Outcome State Fault Refusal :=
  .next (if mainUp s then
    let s := match healthUnit part with
      | some (ty, p) => setHealth s ty p { health s ty p with age := min age 65535 }
      | none => s
    match partKey part with
    | some k => if s.ph.ageLimit < age then crossed s k else s
    | none => s
  else s)

/-- CE_SAMPLE (R512): the corrected errors of a part in the last hour, and those since the last sample, which the unit's CE
(R146) and, for stage memory, `SA_ECC_CE` (R124) add up. -/
def execCeSample (part : HealthPart) (count : Nat) (s : State) (fresh : Nat := 0) : Host.Outcome State Fault Refusal :=
  .next (if mainUp s then
    let s := match healthUnit part with
      | some (ty, p) =>
        let s := setHealth s ty p { health s ty p with ceHour := min count 65535 }
        if ty = 0 then s else setUnit s ty p { unitAt s ty p with ce := min ((unitAt s ty p).ce + fresh) 4095 }
      | none => match part with
        | .bank _ _ => saCount s 2 fresh
        | _ => s
    match partKey part with
    | some k => if s.ph.ceLimit < count then crossed s k else s
    | none => s
  else s)

/-- EYE_SAMPLE (R512): a lane's eye margin in mV, and its corrections. -/
def execEyeSample (l eye corr : Nat) (s : State) : Host.Outcome State Fault Refusal :=
  .next (if mainUp s && decide (l < 816) then
    let s := setLane s l { lane s l with eye := min eye 255, corr := min corr 65535 }
    if eye < s.ph.eyeMin ∧ laneReason s l = 0 then
      if s.ph.policy = 0 ∨ (s.ph.policy = 1 ∧ windowOpen s = true) then { s with ph := { s.ph with laneDue := s.ph.laneDue.filter (· ≠ l) ++ [l] } }
      else { s with ph := { s.ph with laneWait := s.ph.laneWait.filter (· ≠ l) ++ [l] } }
    else s
  else s)

/-- SWAP_WINDOW_OPEN (R513): a maintenance window opens, and the swaps that waited for it are made. -/
def execSwapWindowOpen (s : State) : Host.Outcome State Fault Refusal :=
  .next (if mainUp s && decide (s.ph.policy = 1) && windowOpen s then
    let w := s.ph.partWait
    let s := { s with ph := { s.ph with laneDue := s.ph.laneDue.filter (fun l => !s.ph.laneWait.contains l) ++ s.ph.laneWait, laneWait := [], partWait := [] } }
    w.foldl swapPart s
  else s)

/-! ### SPARE.SWAP (R515) -/

/-- Stamp number of what SPARE.SWAP names. -/
def swapObj (d : List W64) : Nat :=
  let n := df d 0 16 16
  match df d 0 0 3 with
  | 0 => df d 0 4 3 * 2 ^ 20 + n
  | 1 => n
  | k => k * 2 ^ 16 + n

/-- Numbers of each kind. -/
def swapRange (d : List W64) : Bool :=
  let n := df d 0 16 16
  match df d 0 0 3 with
  | 0 => decide (df d 0 4 3 ≠ 0) && decide (n < physCount (df d 0 4 3))
  | 1 => decide (n < 68)
  | 2 => decide (n < 816)
  | 3 => decide (n < 5)
  | 4 => decide (n < 9)
  | 5 => decide (n < 10)
  | _ => false

/-- No spare remains for what SPARE.SWAP names. -/
def swapNoSpare (s : State) (d : List W64) : Bool :=
  match df d 0 0 3 with
  | 0 => (sparesOf s (df d 0 4 3)).isEmpty
  | 1 => (sparesOf s 0).isEmpty
  | 3 => decide (s.cc.mgmtFailed ≠ 0)
  | 4 => decide ((ctl s 8).state ≠ 2)
  | _ => false

/-- The part key of what SPARE.SWAP names. -/
def swapKey (d : List W64) : Nat :=
  let n := df d 0 16 16
  match df d 0 0 3 with
  | 0 => df d 0 4 3 * 256 + n
  | 1 => n
  | 3 => 8 * 256 + n
  | 4 => 9 * 256 + n
  | _ => if n < 8 then 11 * 256 + n else 10 * 256 + (n - 8)

/-- Tests of SPARE.SWAP (R358, R515). -/
def swapReason (s : State) (q : CtlSeq) (d : List W64) : Nat :=
  let r := firstFail [
    (decide (q.priv ≠ 1), 3),
    (decide (df d 0 0 3 = 0) && decide (df d 0 4 3 ≠ 0) && !typePresent s.variant (df d 0 4 3), 2),
    (reservedSet d [fmask 0 3 + fmask 4 3 + fmask 16 16, 0, 0, 0], 9),
    (!swapRange d, 4)]
  if r ≠ 0 then r
  else if df d 0 0 3 = 2 then laneReason s (df d 0 16 16)
  else firstFail [(swapNoSpare s d, 0x0D01), (!partLive s (swapKey d), 0x0D02)]

/-- The swap of SPARE.SWAP, with what its completion waits for. -/
def swapGo (s : State) (cs : Nat) (d : List W64) : CtlRes :=
  let n := df d 0 16 16
  let s := if df d 0 0 3 = 2 then s else unpend s (swapKey d)
  let o := some (stampKey okSwap (swapObj d))
  match df d 0 0 3 with
  | 2 =>
    let s := { s with ph := { s.ph with laneWait := s.ph.laneWait.filter (· ≠ n) } }
    { s := startSwap s n (some cs), wait := .spare (lane s n).port }
  | 4 => if (ctl s n).state = 1 then { s := swapPart s (swapKey d), wait := .spareUnit 9 n } else { s := swapPart s (swapKey d), obj := o }
  | 0 => if holdsJob s (df d 0 4 3) n then { s := swapUnit s (df d 0 4 3) n, wait := .spareUnit (df d 0 4 3) n } else { s := swapNow s (df d 0 4 3) n, obj := o }
  | 1 => if holdsJob s 0 n then { s := swapUnit s 0 n, wait := .spareUnit 0 n } else { s := swapNow s 0 n, obj := o }
  | _ => { s := swapPart s (swapKey d), obj := o }

/-- SPARE_SWAP (R515). -/
def execSpareSwap (cs : Nat) (s : State) : Host.Outcome State Fault Refusal :=
  .next (runCtl s cs 0x92 (fun _ => true) (fun d => stampKey okSwap (swapObj d)) (fun _ _ => none) fun s q d =>
    let r := swapReason s q d
    if r ≠ 0 then refuse s r else swapGo s cs d)

end Sys2Proof.Machine
end

