-- ==== Sys2Proof/Machine/Regs.lean ====
section
/-! DEFINITION. What a read of a register returns (R4, R6, R7, R9–R11, R81, R82): the word of every register of the twelve
subsystems at its offset, and the reads that change state. -/

namespace Sys2Proof.Machine

/-- A group of registers: `count` entries of `stride` bytes from an offset, and the word at a byte offset of an entry. -/
structure RegTab where
  base   : Nat
  stride : Nat
  count  : Nat
  word   : Nat → Nat → W64

/-- The word at an offset in the group that holds it; an offset that no register occupies reads zero (R6). -/
def readTabs (off : Nat) : List RegTab → W64
  | [] => 0
  | t :: r => if t.base ≤ off ∧ off < t.base + t.stride * t.count then t.word ((off - t.base) / t.stride) ((off - t.base) % t.stride)
              else readTabs off r

/-- One register. -/
def reg1 (off : Nat) (w : W64) : RegTab := { base := off, stride := 8, count := 1, word := fun _ _ => w }

/-- A table of single registers. -/
def regs (base count : Nat) (w : Nat → W64) : RegTab := { base := base, stride := 8, count := count, word := fun i _ => w i }

/-! ### Control complex and seam array -/

/-- `MBX_STATUS` of a mailbox. -/
def mbxStatusWord (x : Mailbox) : W64 :=
  w64 (place 32 16 x.comp + place 30 2 x.priv + place 16 4 (if x.priv = 1 then x.part else 0) + 2 * b2n x.malformed + b2n x.overrun)

/-- A register of a mailbox, by offset within it; `IN_HEAD` is write-only, and `MBX_CTL` of mailbox 15 reads zero (R48, R82). -/
def mbxReg (s : State) (m o : Nat) : W64 :=
  let x := mbx s m
  if o < 0x80 then tget 0 x.inQ (o / 8)
  else if o = 0x88 then headWord x.inFull x.inLen
  else if 0x100 ≤ o ∧ o < 0x180 then wd x.outQ ((o - 0x100) / 8)
  else if o = 0x188 then headWord x.outFull x.outLen
  else if o = 0x190 then (if m = 79 then 0 else w64 x.ctl)
  else if o = 0x198 then mbxStatusWord x
  else 0

/-- A word of a ring's control registers (R66). -/
def ringReg (r : Ring) (o : Nat) : W64 :=
  w64 (if o = 0 then r.base else if o = 8 then r.size else if o = 0x10 then r.prod.toNat else r.cons.toNat)

/-- A word of a job-queue entry. -/
def jqReg (s : State) (n o : Nat) : W64 :=
  let q := jobq s n
  if o = 0 then w64 q.base
  else if o = 8 then w64 (place 28 16 q.endpoint + place 16 12 q.comp + place 0 5 q.log2)
  else if o = 0x10 then jobqWord s n
  else w64 q.accept.toNat

/-- Registers of `CC` (R38–R44, R66, R73, R80, R542, R547). -/
def ccTabs (s : State) : List RegTab := [
  reg1 0x0 0x4C460701, reg1 0x8 (capVariant s), reg1 0x10 (capUnits s),
  reg1 0x20 s.cc.intStatus, reg1 0x28 s.cc.intMask, reg1 0x30 (w64 s.cc.mbxPend.toNat), reg1 0x38 (w64 s.cc.mbxMask.toNat),
  reg1 0x1000 (bootCtlWord s), reg1 0x2008 (w64 (place 0 8 s.cc.aonOp + place 8 2 s.cc.aonState)),
  reg1 0x2018 (resetCauseWord s), reg1 0x2020 (recoveryWord s),
  regs 0x2100 32 fun i => tget 0 s.cc.snap i,
  regs 0x3000 128 fun i => tget 0 s.cc.msixTable (0x600 + i), reg1 0x3800 s.cc.pba,
  { base := 0x10000, stride := 0x200, count := 80, word := mbxReg s },
  { base := 0x100000, stride := 0x20, count := 19, word := fun n o => ringReg (ring s n) o },
  reg1 0x100400 (w64 s.cc.genBase), reg1 0x100408 (w64 s.cc.genSize), reg1 0x100410 (w64 s.cc.hoBase), reg1 0x100418 (w64 s.cc.hoSize),
  reg1 0x100428 (w64 (place 63 1 (b2n s.cc.ueValid) + place 0 34 s.cc.ueOffset)),
  regs 0x101000 9 fun i => let q := ctl s i; w64 (place 16 48 q.seqNo + place 4 4 q.part + place 0 4 q.state),
  reg1 0x101100 (w64 s.cc.wdog), regs 0x101200 16 (partWord s), regs 0x101400 64 (bindWord s),
  { base := 0x110000, stride := 0x20, count := 4096, word := jqReg s }]

/-- `SA_UNIT` (R146); DIE shows once the power-on test has finished, and entries beyond the physical count read zero. -/
def saUnitWord (s : State) (ty p : Nat) : W64 :=
  let u := unitAt s ty p
  if typePresent s.variant ty ∧ p < physCount ty then
    w64 (place 48 16 u.lastTenant + place 40 8 u.seam + place 36 4 u.part + place 34 2 (if s.sa.ready then unitDie ty p else 0)
      + place 16 8 u.logical + place 4 12 u.ce + place 0 4 u.state)
  else 0

/-- The four registers of a physical seam sequencer (R146). -/
def saSeqReg (s : State) (q o : Nat) : W64 :=
  let x := seam s q
  w64 (if o = 0 then place 48 16 x.tenant + place 32 10 x.ctx + place 28 4 x.part + place 26 2 (if s.sa.ready then unitDie 0 q else 0)
        + place 8 8 x.logical + place 4 4 x.wait + place 0 4 x.state
    else if o = 8 then x.seqNo
    else if o = 0x10 then place 8 8 x.banks + place 0 8 x.first
    else place 32 32 x.restarts + 4 * b2n x.uf + 2 * b2n x.of + b2n x.iv)

/-- Registers of `SA` (R103, R146, R147). -/
def saTabs (s : State) : List RegTab := [
  reg1 0x3800000 (if s.sa.ready then 0x8000600820181004 else 0),
  regs 0x3801000 (7 * 128) fun i => saUnitWord s (i / 128 + 1) (i % 128),
  { base := 0x3803000, stride := 0x20, count := 68, word := saSeqReg s },
  regs 0x3804000 16 fun p => w64 (tget 100000 s.sa.runLim p),
  regs 0x3805000 4 fun d => statusWord (tget {} s.sa.sliceSt d),
  regs 0x3805100 16 fun p => statusWord (tget {} s.sa.mapSt p),
  regs 0x3805200 16 fun p => statusWord (tget {} s.sa.cfgSt p),
  { base := 0x3805400, stride := 0x10, count := 4, word := fun d o =>
      if o = 0 then w64 (tget 0 s.sa.bankFail d % 2 ^ 64) else w64 (tget 0 s.sa.bankFail d / 2 ^ 64 % 2 ^ 32) },
  regs 0x3810000 4096 (patWord s)]

/-! ### Graver codec, transaction engine, switch core -/

/-- A word of `GV_RES` and `GV_RES_REFS` (R211). -/
def gvResReg (s : State) (r o : Nat) : W64 :=
  let x : GvRes := tget {} s.gv.res r
  w64 (if o = 0 then place 48 16 x.table + place 40 8 x.newGen + place 32 8 (if x.oldLive then x.oldGen else 0) + place 31 1 (b2n x.valid)
        + place 30 1 (b2n x.closing) + place 29 1 (b2n x.draining) + place 16 12 x.comp
    else place 16 16 x.oldRefs + place 0 16 x.newRefs)

/-- Status word of a table ID (R212). -/
def tableWord (s : State) (id : Nat) : W64 :=
  let t := gvStore s id
  let r := resOf s id
  let x : GvRes := (r.map (·.2)).getD {}
  w64 (b2n t.enabled + 4 * b2n x.draining + place 32 16 t.reason + place 48 10 ((r.map (·.1)).getD 0) + place 20 12 (if t.owned then t.comp else 0)
    + place 12 8 t.lastGen + place 11 1 (b2n r.isSome) + place 10 1 (b2n x.closing))

/-- Registers of `GV` (R211, R212). -/
def gvTabs (s : State) : List RegTab := [
  reg1 0x3C00000 0x040010100B010000,
  reg1 0x3C00008 (w64 (place 32 11 (s.gv.res.filter fun r => r.2.valid && r.2.draining).length + place 0 11 (s.gv.res.filter (·.2.valid)).length)),
  { base := 0x3C01000, stride := 0x10, count := 1024, word := gvResReg s },
  regs 0x3C10000 65536 (tableWord s)]

/-- The four registers of a copy engine (R293). -/
def copyReg (s : State) (e o : Nat) : W64 :=
  let x := copyEng s e
  if o = 0 then w64 (place 48 16 x.ep + place 32 12 x.comp + place 16 10 x.ctx + place 0 4 x.log2)
  else if o = 8 then w64 x.base
  else if o = 0x10 then copyWord x
  else w64 (place 32 32 x.prod.toNat + place 0 32 x.cons.toNat)

/-- The fence status word of a composition (R294). -/
def fenceWord (s : State) (c : Nat) : W64 :=
  let f := fenceOf s c
  w64 (b2n f.comp + 2 * b2n (s.te.colls.any fun x => decide (x.2.comp = c) && !x.2.waiters.isEmpty)
    + place 24 8 (min f.peers.length 255) + place 32 16 f.reason + place 48 16 f.missing)

/-- Configuration word of a synchronisation object (R294). -/
def syncCfgWord (o : SyncObj) : W64 :=
  w64 (place 48 16 o.ep + place 46 2 o.kind + place 45 1 (b2n o.notify) + place 32 12 o.comp + place 0 32 o.n)

/-- Registers of `TE` (R293, R294). -/
def teTabs (s : State) : List RegTab := [
  reg1 0x2000000 0x01F4141040200E09, reg1 0x2000008 (rcUsedWord s),
  { base := 0x2010000, stride := 0x20, count := 32, word := copyReg s },
  regs 0x2020000 4096 (fenceWord s),
  regs 0x2100000 16384 fun n => (objAt s n).value,
  regs 0x2140000 16384 fun n => syncCfgWord (objAt s n),
  regs 0x2180000 16384 fun n => w64 (objAt s n).thr,
  regs 0x21C0000 16384 fun n => statusWord (objAt s n).status]

/-- `SW_PORT_STATUS` (R325): a flush under R319 is part of the step that starts it, and is never seen in progress. -/
def swPortWord (s : State) (p : Nat) : W64 :=
  w64 (place 32 20 (((List.range 64).map fun q => queueCells (queue s p q)).foldl (· + ·) 0) + place 8 2 (swPort s p).active + b2n (agingMode s p))

/-- `SW_Q_DEPTH` (R325): every cell of a queue is a shared one. -/
def queueWord (s : State) (p q : Nat) : W64 := let n := queueCells (queue s p q); w64 (place 32 20 n + place 0 20 n)

/-- Registers of `SW` (R325). -/
def swTabs (s : State) : List RegTab := [
  reg1 0x1800000 0x0C00003840081060, reg1 0x1800008 (swBufWord s),
  regs 0x1801000 200 (swPortWord s),
  regs 0x1810000 (200 * 64) fun i => queueWord s (i / 64) (i % 64),
  { base := 0x1B00000, stride := 0x20, count := 16384, word := fun m o => if o = 0x18 then statusWord (meter s m).status else 0 },
  regs 0x1B80000 16384 fun g => statusWord (group s g).status,
  regs 0x1BA0000 (200 * 64) fun i => statusWord (queue s (i / 64) (i % 64)).status,
  regs 0x1BBA000 200 fun p => statusWord (swPort s p).status,
  regs 0x1BC0000 4096 fun c => statusWord (tget {} s.sw.shareSt c),
  { base := 0x1BD0000, stride := 0x10, count := 192, word := fun p o => statusWord (gateList (swPort s p) (o / 8 + 1)).status },
  regs 0x1BD1000 16 fun n => statusWord (mirror s n).status,
  regs 0x1BD1100 200 fun p => statusWord (swPort s p).smpSt]

/-! ### Port complex, translation unit -/

/-- `PC_TIME_STATUS`, its OFFSET saturating (R359). -/
def timeWord (s : State) : W64 :=
  let o : Int := max (-(2 ^ 31)) (min (2 ^ 31 - 1) (s.pc.estimate / 20))
  w64 (place 32 32 (o % 2 ^ 32).toNat + place 16 8 s.pc.upstream + place 0 4 s.pc.tState)

/-- The four registers of a fabric port (R359, R360). -/
def portReg (s : State) (n o : Nat) : W64 :=
  let x := port s n
  if o = 0 then w64 (place 48 16 x.epBase + place 40 8 x.epCount + place 24 16 x.asym + place 8 16 x.doze + place 6 2 x.timeRole
      + place 3 3 x.test + 4 * b2n x.prot + place 1 1 x.mode + b2n (pair s (n / 4)).split)
  else if o = 8 then w64 (place 48 16 x.peerId + place 40 8 x.peerCount + place 36 4 x.profile + place 32 4 x.peerGraver + place 16 8 x.linkVer
      + place 15 1 (b2n x.authFail) + place 14 1 (b2n x.protActive) + place 13 1 (b2n x.epMismatch) + place 12 1 x.keySel
      + place 8 4 x.width + place 7 1 (b2n x.dozeTx) + place 6 1 (b2n x.dozeRx) + place 0 4 x.state)
  else if o = 0x10 then w64 (place 32 32 x.rtt + place 0 10 x.replay.length)
  else statusWord x.status

/-- `PC_LANE` (R360). -/
def laneWord (s : State) (l : Nat) : W64 :=
  let x := lane s l
  w64 (place 48 16 (min x.corr 65535) + place 40 8 (min x.eye 255) + place 24 8 x.port + place 20 4 x.logical + place 0 4 x.state)

/-- The four words of a window; its key is not readable (R359, R360). -/
def winReg (s : State) (i o : Nat) : W64 :=
  let x := window s (i / 256) (i % 256)
  if o = 0 then w64 (place 48 6 x.log2 + place 0 40 x.base)
  else if o = 8 then w64 x.fa
  else if o = 0x10 then w64 (place 48 16 x.srcId + place 32 16 x.region + place 16 12 x.comp + place 0 3 x.rights)
  else statusWord x.status

/-- Registers of `PC` (R359, R360). -/
def pcTabs (s : State) : List RegTab := [
  reg1 0x1000000 0x03300C6008400901, reg1 0x1000008 (timeWord s),
  { base := 0x1001000, stride := 0x20, count := 192, word := portReg s },
  regs 0x1002800 48 fun k => statusWord (pair s k).status,
  regs 0x1003000 816 (laneWord s),
  { base := 0x1010000, stride := 0x20, count := 192 * 256, word := winReg s }]

/-- `TU_SLICE` (R381). -/
def tuSliceWord (s : State) (i : Nat) : W64 :=
  w64 (place 16 14 ((sliceEnts s i).filter fun e => decide (e.kind = 3)).length
    + place 0 7 (s.tu.walks.filter fun w => w.2.active && decide (w.2.slice = i)).length)

/-- The four words of a fault-table entry (R381). -/
def faultReg (s : State) (i o : Nat) : W64 :=
  let e := faultEnt s i
  let ws := faultWords i e
  if o = 0 then wd ws 0
  else if o = 8 then
    w64 (place 48 16 (if e = {} then 0 else fidOf i e) + place 32 16 e.count
      + place 8 2 (if e.state = 0 then 0 else if recordHeld s i e then 1 else 2) + place 6 2 e.cause + place 0 3 e.need)
  else wd ws (if o = 0x10 then 2 else 3)

/-- `TU_ENG_FAULT` (R381). -/
def engFaultWord (x : EngFault) : W64 := w64 (place 24 40 x.vpn + place 8 16 x.asid + place 4 3 x.need + place 2 2 x.state)

/-- Registers of `TU` (R381). -/
def tuTabs (s : State) : List RegTab := [
  reg1 0x2800000 0x10040A1009104020, regs 0x2800100 4 (tuSliceWord s),
  { base := 0x2810000, stride := 0x20, count := 1024, word := faultReg s },
  regs 0x2820000 928 fun n => engFaultWord (tget {} s.tu.eng n),
  regs 0x2900000 65536 fun a => w64 (asid s a).root,
  regs 0x2980000 65536 fun a => asidWord (asid s a)]

/-! ### Tier manager, isolation engine -/

/-- HBM frames of pool HBM by variant (R384). -/
def poolFrames (s : State) : Nat := if s.variant = .g1 then 38400 else 87552

/-- `TR_POOL` (R418). -/
def poolWord (s : State) : W64 :=
  let held := ((tkeys s.tr.frames) ++ (tkeys s.tr.reserved)).eraseDups.length
  w64 (place 32 32 (poolFrames s - held) + place 0 32 (poolFrames s))

/-- The four words of a lease (R418): ENABLED shows a lease that is not FREE (DEDUCED, log 138). A lender knows no copies but
those it holds frames for. -/
def leaseReg (s : State) (n o : Nat) : W64 :=
  let l := lease s n
  if o = 0 then w64 (place 52 12 l.peer + place 51 1 (b2n l.borrower) + place 50 1 l.medium
    + place 24 24 (if l.borrower then (leaseUsed s n).length else 0) + place 0 24 l.grains)
  else if o = 8 then w64 l.base
  else if o = 0x10 then w64 l.deadline
  else w64 (b2n (decide (l.state ≠ 0)) + place 28 4 l.state + place 32 16 l.check)

/-- Requests of a composition under a map epoch that are not complete. -/
def epochCount (s : State) (c e : Nat) : Nat :=
  let hit := fun (f : Frame) => decide (f.comp = c) && decide (f.mapE = e)
  (s.te.outst.filter fun o => hit o.frame && decide (o.frame.op ≠ 0x0B) && decide (o.frame.op ≠ 0x0C)).length
    + (s.te.holds.filter fun o => hit o.frame).length + (s.te.waitq.filter hit).length
    + (s.tr.pend.filter fun p => p.2.active && hit p.2.frame).length + (s.te.mcw.filter fun p => p.2.active && hit p.2.frame).length

/-- The four words of a composition (R418). -/
def compReg (s : State) (c o : Nat) : W64 :=
  let x := comp s c
  if o = 0 then w64 (place 48 16 x.tenant + place 32 16 x.resv + place 28 4 x.part + place 27 1 (b2n x.fatal) + place 0 17 x.cto)
  else if o = 8 then w64 (place 48 16 x.mperiod + place 16 8 x.current + place 8 8 x.previous + 2 * b2n x.closing + b2n x.prevLive)
  else if o = 0x10 then statusWord x.status ||| w64 (place 28 4 x.state)
  else w64 (place 32 32 (if x.prevLive then epochCount s c x.previous else 0)
    + place 0 32 (s.tr.exts.filter fun e => decide (e.2.state = 1) && decide (e.2.comp = c)).length)

/-- Status word of a weight-set slot (R418). -/
def wsetWord (s : State) (w : Nat) : W64 :=
  let x := wset s w
  statusWord { x.status with checking := x.status.checking || x.hashing } ||| w64 (place 48 16 (if x.gen = 0 then 0 else x.gen % 16 * 4096 + w) + place 20 12 x.comp)

/-- Registers of `TR` (R418). -/
def trTabs (s : State) : List RegTab := [
  reg1 0x3000000 0x12100C080C15100E, reg1 0x3000008 (poolWord s),
  { base := 0x3001000, stride := 0x20, count := 256, word := leaseReg s },
  { base := 0x3010000, stride := 0x20, count := 4096, word := compReg s },
  regs 0x3040000 4096 (wsetWord s),
  regs 0x3080000 65536 fun r => regionWord (region s r),
  regs 0x3100000 768 fun k => w64 (tget {} s.tr.fdtags k).tag,
  regs 0x3102000 768 fun k => statusWord (tget {} s.tr.fdtags k).status,
  regs 0x3200000 262144 (extWord s)]

/-- The words of a key slot; no key is readable (R448). -/
def slotReg (s : State) (k o : Nat) : W64 :=
  let x : KeySlot := tget {} s.ie.slots k
  if o = 0 then w64 (place 48 16 x.owner + place 32 16 x.group + place 20 12 x.comp + place 12 8 x.gen + place 8 2 x.state + b2n x.sealed)
  else if o = 8 then w64 (place 32 32 (min x.late (2 ^ 32 - 1)) + place 0 32 x.uses)
  else if o = 0x10 then statusWord x.status
  else 0

/-- The words of a context (R448). -/
def ctxReg (s : State) (c o : Nat) : W64 :=
  let x := ctx s c
  if o = 0 then w64 (place 48 16 x.tenant + place 32 12 x.comp + place 16 16 x.asid + place 8 1 (b2n x.resident) + place 0 8 (if x.resident then x.seq else 0))
  else if o = 8 then w64 (((List.range 4).map fun i => place (12 * i) 12 (x.slots.getD i 0)).foldl (· + ·) (place 48 4 x.slotV))
  else if o = 0x10 then statusWord x.status
  else 0

/-- Registers of `IE` (R448). -/
def ieTabs (s : State) : List RegTab := [
  reg1 0x3400000 0x1000100A40802464,
  regs 0x3400010 4 fun d => let x := scrubEng s d; w64 (place 16 24 (scrubDone s x) + place 8 8 (min x.queue.length 255) + place 0 2 x.state),
  { base := 0x3410000, stride := 0x20, count := 4096, word := slotReg s },
  { base := 0x3430000, stride := 0x10, count := 16, word := fun e o =>
      let x := tenant s e
      if o = 0 then w64 (place 48 16 x.id + place 32 1 (b2n x.capture) + place 16 16 x.tmc + place 0 16 x.tlb) else statusWord x.status },
  { base := 0x3431000, stride := 0x20, count := 1024, word := ctxReg s },
  regs 0x3440000 128 fun p => let x := pch s p; w64 (place 48 16 x.tenant + place 0 3 x.state),
  regs 0x3440400 192 fun n => let x : IePort := tget {} s.ie.ports n; w64 (place 48 16 x.tenant + b2n x.assigned)]

/-! ### Root of trust, vault, power and health -/

/-- `TA_STORE` (R474): the table digests held are those of every generation that has one. -/
def taStoreWord (s : State) : W64 :=
  w64 (place 48 16 ((s.gv.res.map fun r => if r.2.valid then (resDigests r.2).length else 0).foldl (· + ·) 0)
    + place 32 16 (s.tr.wsets.filter fun w => w.2.status.enabled || w.2.status.draining).length
    + place 16 16 (s.sa.pats.filter fun p => p.2.status.enabled || p.2.status.draining).length
    + place 0 9 (s.ta.deliv.filter (·.2.used)).length)

/-- Registers of `TA` (R474). -/
def taTabs (s : State) : List RegTab := [
  reg1 0x800000 0x1204080C042008FF, reg1 0x800008 (taState s), reg1 0x800010 (taLc s),
  regs 0x800020 4 fun w => w64 (leAt s.ta.devId (8 * w) 8),
  reg1 0x800040 (w64 (place 0 8 (svnOf s 1) + place 8 8 (svnOf s 2) + place 16 8 (svnOf s 3) + place 24 8 (svnOf s 4))),
  reg1 0x800048 (taStoreWord s)]

/-- Registers of `LV` (R500). -/
def lvTabs (s : State) : List RegTab := [
  reg1 0xC00000 0x018008081A100810, reg1 0xC00008 (lvStatusWord s), reg1 0xC00010 (w64 s.lv.nextSeq), reg1 0xC00018 (lvLiveWord s),
  reg1 0xC00020 (w64 (place 32 16 s.lv.wlSpread + place 16 16 s.lv.dirtyMax + place 0 16 s.lv.dirtyHigh)),
  reg1 0xC00028 (w64 (place 32 16 s.lv.usable + place 16 16 s.lv.need + place 0 16 s.lv.dirtyEff)),
  regs 0xC00040 4 fun f => statusWord (lvStatus s f),
  regs 0xC00100 8 fun k => let x : NandPkg := tget {} s.lv.nand k
    w64 (place 48 16 (min x.eMax 65535) + place 32 16 (min x.eMin 65535) + place 16 16 x.retired + place 4 12 x.spare + place 0 4 x.state),
  regs 0xC00200 16 fun a => tget 0 s.lv.rtable a]

/-- `PH_UNIT_HEALTH` of a unit, or of a seam sequencer with type 0 (R525). -/
def unitHealthWord (s : State) (ty p : Nat) : W64 :=
  let h := health s ty p
  let charged := (h.bins.map fun b => (b.2.filter fun x => decide (s.now < x + dayNs)).length).foldl (· + ·) 0
  if p < physCount ty then
    w64 (place 48 16 h.age + place 32 16 h.ceHour + place 16 8 (if proofType ty then (if h.escal then tget 0 s.ph.log2esc ty else tget 0 s.ph.log2n ty) else 0)
      + place 8 8 (min charged 255) + place 0 2 (if h.retired then 3 else if h.swapDue then 2 else if h.escal then 1 else 0))
  else 0

/-- `PH_PROOF_BIN` of a unit: byte 4t + c counts the mismatches of a bin within 24 h, 0–3 (R525). -/
def proofBinReg (s : State) (ty p o : Nat) : W64 :=
  let h := health s ty p
  let n := fun i => min 3 ((tget [] h.bins i).filter fun x => decide (s.now < x + dayNs)).length
  if proofType ty then w64 (((List.range 8).map fun j => place (8 * j) 8 (n (o + j))).foldl (· + ·) 0) else 0

/-- `PH_FLOW` (R525). -/
def flowWord (f : Flow) : W64 := w64 (place 48 16 f.queue.length + place 24 16 f.held + place 0 13 f.weight)

/-- Registers of `PH` (R525). -/
def phTabs (s : State) : List RegTab := [
  reg1 0x400000 0x05DC012C08040B06, reg1 0x400008 (phInputWord s), reg1 0x400010 (healthWord s),
  reg1 0x400018 (w64 (place 16 16 (effBudget s) + place 0 16 s.ph.budget)), reg1 0x400020 (w64 s.ph.sbCap),
  regs 0x400100 11 fun d => let x := die s d; w64 (place 56 8 x.tj + place 8 8 x.pll + place 0 8 x.throttle),
  regs 0x400200 4 fun f => statusWord (phStatus s f),
  regs 0x401000 17 fun p => flowWord (flow s p),
  regs 0x440000 (7 * 128) fun i => unitHealthWord s (i / 128 + 1) (i % 128),
  regs 0x441C00 68 fun q => unitHealthWord s 0 q,
  { base := 0x450000, stride := 0x20, count := 7 * 128, word := fun i o => proofBinReg s (i / 128 + 1) (i % 128) o }]

/-! ### Reads -/

/-- The word of the register at an aligned offset; no register of a subsystem lies outside its span (R4). -/
def regWord (s : State) (off : Nat) : W64 :=
  readTabs off (if off < 0x400000 then ccTabs s else if off < 0x800000 then phTabs s else if off < 0xC00000 then taTabs s
    else if off < 0x1000000 then lvTabs s else if off < 0x1800000 then pcTabs s else if off < 0x2000000 then swTabs s
    else if off < 0x2800000 then teTabs s else if off < 0x3000000 then tuTabs s else if off < 0x3400000 then trTabs s
    else if off < 0x3800000 then ieTabs s else if off < 0x3C00000 then saTabs s else gvTabs s)

/-- A register as the sideband sees it: `PH_FLOW`, and BASE and GRANTED of `PH_INPUT`, read zero (R82). -/
def sidebandWord (s : State) (off : Nat) : W64 :=
  if 0x401000 ≤ off ∧ off < 0x401088 then 0
  else if off = 0x400008 then regWord s off &&& 0xFFFFFFFF00000000
  else regWord s off

/-- Time that sequencers have waited for units or channels so far goes into `SA_PLACE_WAIT` before it is read (R148). -/
def tallyAll (s : State) : CtrSel → State
  | .sa 6 => (tkeys s.sa.seqs).foldl tallyWait s
  | _ => s

/-- An offset of the lock aliases. -/
def isAlias (off : Nat) : Bool := decide (0x80000 ≤ off ∧ off < 0x100000)

/-- An offset of an `OUT_HEAD`. -/
def isOutHead (off : Nat) : Bool := decide (0x10000 ≤ off ∧ off < 0x1A000) && decide (off % 0x200 = 0x180)

/-- A read from CXL.io: an RC counter reads cleared, `OUT_HEAD` clears FULL and a lock alias takes the lock when the read covers the
half that holds the field (R7, R11, R48, R58; DEDUCED, log 106); any other register returns its word. -/
def cxlRead (s : State) (off size : Nat) : State :=
  let a := off / 8 * 8
  if isAlias a then (if off % 8 = 0 then lockRead s ((a - 0x80000) / 0x800) (a % 0x800 / 8) else { s with resp := .data 0 })
  else if isOutHead a then (if off % 8 = 0 then outHead s (mbxOf a) else { s with resp := .data 0 })
  else match ctrSel a with
    | some c => counterRead (tallyAll s c) off size
    | none => { s with resp := .data (readPart off size (regWord s a)) }

/-- A read over the sideband: zero outside its reach (R82). -/
def sidebandRead (s : State) (off : Nat) : State :=
  if !sidebandReach off then { s with resp := .data 0 }
  else if isAlias off then lockRead s 254 (off % 0x800 / 8)
  else if isOutHead off then outHead s 79
  else { s with resp := .data (sidebandWord s off) }

/-- COUNTER_READ_CLEAR (R9, R11): a read of the register at an offset. A sideband read at an offset that is not a multiple of 8 returns
eight zero bytes (R81). -/
def execCounterReadClear (path : Path) (off size : Nat) (s : State) : Host.Outcome State Fault Refusal :=
  .next (match path with
    | .sideband => if size = 8 ∧ off % 8 ≠ 0 ∧ unpowered s = false then { s with resp := .data 0 }
                   else guarded s path off size fun s => sidebandRead s off
    | .cxl => guarded s path off size fun s => if aliasBarred off then { s with resp := .unsupported } else cxlRead s off size)

end Sys2Proof.Machine
end

