-- ==== Sys2Proof/Machine/StageCodec.lean ====
section
/-! DEFINITION. Codec stages: DECODE, ENCODE and BUILDTAB (R184, R193–R201, R231–R233). -/

namespace Sys2Proof.Machine

/-! ### DECODE -/

/-- A header read names a live generation of a resident table: it takes a reference (R201, R204, R205). -/
def takesRef (s : State) (c : Nat) (b : Bytes) : Bool :=
  decide (blkKind b = 0) && (resOf s (leAt b 0 2)).any fun r =>
    !r.2.draining && decide (r.2.comp = c) && (genRecord r.2 (leAt b 2 1)).isSome

/-- A block enters the unit's free buffer, and its header takes its reference. -/
def bufferBlock (s : State) (q n l need : Nat) : State :=
  let b := (laceOf (seam s q) l).q.take need
  let ref := takesRef s (jobOf s q).comp b
  let buf : BlockBuf := { held := true, bytes := b, ref := ref, table := leAt b 0 2, gen := leAt b 2 1 }
  let s := if ref then editRefs s buf.table buf.gen (· + 1) else s
  let s := setSeam s q (laceDrop (seam s q) l need)
  let g := stage s q n
  let g := if g.buf.held then { g with fill := buf } else { g with buf := buf }
  setStage s q n { g with prog := { g.prog with took := true } }

/-- DECODE (R231): the next block enters one of the unit's two buffers (R192), its header taking its reference; the instruction ends
at end-of-stream, when both are empty. -/
def execDecode (q : Nat) (n : Nat) (s : State) : Host.Outcome State Fault Refusal :=
  .next (runStage s q n 0x20 (fun _ => true) fun s g i =>
    let l := i.f 0 5
    let c := laceOf (seam s q) l
    let need := if blkKind c.q = 1 then 4128 else blkSlot c.q
    if g.fill.held then s
    else if c.closed && c.q.isEmpty then if g.buf.held then s else ioEnd s q n true true
    else if c.closed = false ∧ (c.q.length < 32 ∨ c.q.length < need) then s
    else bufferBlock s q n l need)

/-- What a block comes to: a status with whether it is stale, or its values. -/
inductive BlockEnd where
  | fails (status : Nat) (stale : Bool)
  | vals (l : List Nat)
deriving DecidableEq, Repr

/-- The checks of a block in order, and its values (R193, R200, R206). -/
def judgeBlock (s : State) (c ty : Nat) (x : BlockBuf) : BlockEnd :=
  let b := x.bytes
  let kind := blkKind b
  let id := leAt b 0 2
  if kind ≥ 2 ∨ (kind = 1 ∧ (leAt b 4 1 ≠ ty ∨ leAt b 5 3 ≠ 0 ∨ leAt b 16 16 ≠ 0)) then .fails 3 false
  else if (gvStore s id).owned = true ∧ (gvStore s id).comp ≠ c then .fails 3 false
  else if kind = 1 then (if b.length < 4128 then .fails 3 false else .vals (gvUnpack ty (b.drop 32)))
  else match (if x.ref then (resOf s id).bind fun r => genRecord r.2 x.gen else none) with
    | none => .fails 0x0B true
    | some r =>
      if recChk r ≠ leAt b 4 2 then .fails 0x0B true
      else if laneEndsOk ty b = false then .fails 3 false
      else match decodeBlock ty (recLens r) b with
        | none => .fails 3 false
        | some l => .vals l

/-- Values of a coded type as the bytes of an output type (R184). -/
def codecOut (cty ty rc : Nat) (l : List Nat) : Res Bytes :=
  let r := if cty = ty then ⟨l, 0⟩ else resMap (fun x => elemRound ty rc (elemVal cty x)) l
  let k := if cty = ty then gvBits cty else tileBits ty
  ⟨bytesLE (l.length * k / 8) (packBits k r.v), r.f⟩

/-- A decoded block's values enter the output lace, or are held for Proof. -/
def blockOut (s : State) (q n l : Nat) (r : Res Bytes) : State :=
  let b := (stage s q n).buf
  let s := gvCount (setStage s q n (stageFlags (stage s q n) r.f)) 0 1
  let s := tileDone s q n { bytes := r.v, lace := some l }
  if (stage s q n).hold.any (fun h => h.lace.isSome) then s
  else
    let s := dropRef (setStage s q n (nextBlock (stage s q n))) b
    setSeam s q (lacePut (seam s q) l r.v)

/-- DECODE_BLOCK (R193, R184, R200): the buffered block is checked and decoded, and its values enter the output
lace, or are held for Proof. -/
def execDecodeBlock (q : Nat) (n : Nat) (s : State) : Host.Outcome State Fault Refusal :=
  .next (runStage s q n 0x20 (fun _ => true) fun s g i =>
    if g.buf.held = false ∨ tileWaits s g = true ∨ laceRoom (seam s q) (i.f 5 5) = false then s
    else match judgeBlock s (jobOf s q).comp (i.f 10 4) g.buf with
      | .fails st stale => stopJob (gvCount s (if stale then 2 else 3) 1) q st
      | .vals l => blockOut s q n (i.f 5 5) (codecOut (i.f 10 4) (i.f 23 4) (i.f 14 2) l))

/-! ### ENCODE -/

/-- The generation an ENCODE codes with, when the checks of R198 and R232 hold. -/
def encTable (s : State) (q : Nat) (g : Stage) (i : Ins) : Option (Nat × Bytes) :=
  let id := i.x 0 16
  let slot := i.x 16 16
  match g.encRefs.find? fun r => decide (r.1 = id) with
  | none => none
  | some r => (resOf s id).bind fun x => (genRecord x.2 r.2).bind fun rec_ =>
    if x.2.draining = false ∧ x.2.comp = (jobOf s q).comp ∧ recType rec_ = i.f 23 4 ∧ slot % 64 = 0 ∧ 64 ≤ slot ∧ slot ≤ 4096
      ∧ aAddr (aGet g (i.f 27 7)) % 4096 = 0 then some (r.2, rec_) else none

/-- ENCODE (R232): it ends at end-of-stream; a block left partly filled ends the job with RIGHTS (R196). -/
def execEncode (q : Nat) (n : Nat) (s : State) : Host.Outcome State Fault Refusal :=
  .next (runStage s q n 0x21 (fun _ => true) fun s g i =>
    let c := laceOf (seam s q) (i.f 0 5)
    if (encTable s q g i).isNone then stopJob s q 3
    else if c.closed = false ∨ 4096 ≤ c.q.length then s
    else if c.q.isEmpty then ioEnd s q n true true
    else stopJob s q 3)

/-- A raw block taken by an E unit. -/
def rawTaken (s : State) (q n lace : Nat) : State :=
  let s := setSeam s q (laceDrop (seam s q) lace 4096)
  let g := stage s q n
  setStage s q n { g with prog := { g.prog with took := true, count := g.prog.count + 1 } }

/-- A raw block's slot record leaves, or a stub and the spilled raw block; a spill past MAXSPILL ends the job with RIGHTS.
DEDUCED (log 125): OFFSET is the plain difference of the two addresses. -/
def encodeRaw (s : State) (q n : Nat) (i : Ins) (gen : Nat) (rec_ : Bytes) : State :=
  let g := stage s q n
  let ty := i.f 23 4
  let slot := i.x 16 16
  let j := jobOf s q
  let raw := (laceOf (seam s q) (i.f 0 5)).q.take 4096
  match encodeBlock ty (i.x 0 16) gen slot rec_ (gvUnpack ty raw) with
  | some b =>
    let s := rawTaken (gvCount s 4 1) q n (i.f 0 5)
    setSeam s q (lacePut (seam s q) (i.f 5 5) b)
  | none =>
    if i.x 32 32 ≤ j.spills then stopJob s q 3
    else
      let at_ := aAddr (aGet g (i.f 34 7)) + g.prog.count * slot
      let off : Int := (aAddr (aGet g (i.f 27 7)) + j.spills * 4096 : Nat) - (at_ : Int)
      let s := rawTaken (gvCount (gvCount s 4 1) 5 1) q n (i.f 0 5)
      let x := lacePut (lacePut (seam s q) (i.f 5 5) (stubRec ty (i.x 0 16) gen slot off)) (i.f 10 5) raw
      setSeam s q { x with job := x.job.map fun j => { j with spills := j.spills + 1 } }

/-- ENCODE_BLOCK (R197, R198): one raw block becomes a slot record, or a stub and a spilled raw block. -/
def execEncodeBlock (q : Nat) (n : Nat) (s : State) : Host.Outcome State Fault Refusal :=
  .next (runStage s q n 0x21 (fun _ => true) fun s g i =>
    match encTable s q g i with
    | none => stopJob s q 3
    | some (gen, rec_) =>
      if (laceOf (seam s q) (i.f 0 5)).q.length < 4096 ∨ laceRoom (seam s q) (i.f 5 5) = false ∨ laceRoom (seam s q) (i.f 10 5) = false then s
      else encodeRaw s q n i gen rec_)

/-! ### BUILDTAB -/

/-- A sweep's next raw block: none while it is not there; at end-of-stream an empty one; a part of one is bad. -/
def sweepBlock (s : State) (q lace : Nat) : Option (Option Bytes) :=
  let c := laceOf (seam s q) lace
  if 4096 ≤ c.q.length then some (some (c.q.take 4096))
  else if c.closed = false then none
  else if c.q.isEmpty then some (some [])
  else some none

/-- The lengths of a BUILDTAB's counts. -/
def progLens (g : Stage) : List Nat := buildLengths g.prog.counts

/-- A block of a sweep is counted, or its encoded size noted. -/
def sweepTaken (s : State) (q n : Nat) (ty lace : Nat) (sizing : Bool) (b : Bytes) : State :=
  let s := rawTaken s q n lace
  let g := stage s q n
  let vs := gvUnpack ty b
  if sizing then
    let e := encodedSize ty (progLens g) vs
    setStage s q n { g with prog := { g.prog with sizes := g.prog.sizes ++ [2 * e.1 + b2n e.2] } }
  else
    let c0 := if g.prog.counts.isEmpty then List.replicate (gvAlphabet ty) 0 else g.prog.counts
    setStage s q n { g with prog := { g.prog with counts := countValues ty c0 vs } }

/-- BUILDTAB (R194, R195, R233): one block of a sweep at a time; at the end of the second the record is emitted. -/
def execBuildtab (q : Nat) (n : Nat) (s : State) : Host.Outcome State Fault Refusal :=
  .next (runStage s q n 0x22 (fun _ => true) fun s g i =>
    let ty := i.f 37 4
    let sizing := decide (g.prog.phase = 1)
    let lace := if sizing then i.f 0 5 else i.f 32 5
    match sweepBlock s q lace with
    | none => s
    | some none => stopJob s q 3
    | some (some []) =>
      if !sizing then
        if g.prog.count = 0 then stopJob s q 3
        else setStage s q n { g with prog := { g.prog with phase := 1 } }
      else
        if !laceRoom (seam s q) (i.f 5 5) then s
        else
        let share := if i.f 10 10 = 0 then 990 else i.f 10 10
        let rec_ := tableRecord ty share (progLens g) g.prog.sizes
        let s := setSeam s q (lacePut (seam s q) (i.f 5 5) rec_)
        ioEnd s q n true true
    | some (some b) => sweepTaken s q n ty lace sizing b)

end Sys2Proof.Machine
end

