-- ==== Sys2Proof/Machine/StageFilter.lean ====
section
/-! DEFINITION. Filter stages: CMP, TOPK, SELECT and COMPACT (R117, R243–R246). -/

namespace Sys2Proof.Machine

/-! ### CMP -/

/-- CMP of a mode. -/
def cmpForm (mode : Nat) (i : Ins) : Bool := decide (i.f 3 2 = mode)

/-- A relation of two values (R243): false with a NaN, but NE, which is true. -/
def relVals (rel : Nat) (a b : FVal) : Bool := match a.cmp b with
  | none => decide (rel = 1)
  | some c => relHolds rel c

/-- The comparisons of CMP's source with its operand, in flat order. -/
def cmpBits (g : Stage) (i : Ins) : List Bool :=
  let ty := i.f 23 4
  let a := tileVals ty (tGet g (i.f 34 7))
  let k := if ty = 0xD then elemVal 0xD (i.x 0 32) else f32 (i.x 0 32)
  let b := if i.f 5 1 = 1 then tileVals ty (tGet g (i.f 27 7)) else a.map fun _ => k
  List.zipWith (relVals (i.f 0 3)) a b

/-- CMP SET, AND and OR (R243): the comparison joined with the mask run as it stands. -/
def cmpMask (join : Bool → Bool → Bool) (g : Stage) (i : Ins) : TileOut :=
  let rd := i.f 41 7
  let m := runOf (i.f 23 4)
  let old := runElems g rd m
  { rds := regsFrom rd m, tiles := runTiles g rd m (List.zipWith (fun b x => b2n (join b (decide (x ≠ 0)))) (cmpBits g i) old) }

/-- CMP SET (R243). -/
def execCmpSet (q : Nat) (n : Nat) (s : State) : Host.Outcome State Fault Refusal :=
  .next (tileStep s q n 0x50 (cmpForm 0) (cmpMask fun b _ => b))

/-- CMP AND (R243). -/
def execCmpAnd (q : Nat) (n : Nat) (s : State) : Host.Outcome State Fault Refusal :=
  .next (tileStep s q n 0x50 (cmpForm 1) (cmpMask fun b x => b && x))

/-- CMP OR (R243). -/
def execCmpOr (q : Nat) (n : Nat) (s : State) : Host.Outcome State Fault Refusal :=
  .next (tileStep s q n 0x50 (cmpForm 2) (cmpMask fun b x => b || x))

/-- A query element: a channel beyond the query tile has a free value (log entry 50). -/
def queryElem (free : Nat) (t : Tile) (k : Nat) : Nat :=
  if k < 256 then tileFld t (32 * k) 32 else (Config.freeWord (free + (k - 256))).toNat % 2 ^ 32

/-- CMP BOUND (R243): the sum over columns of max(q × lo, q × hi). -/
def boundOut (free : Nat) (g : Stage) (i : Ins) : TileOut :=
  let rd := i.f 41 7
  let ty := i.f 23 4
  let w := tileCols ty
  let f := fun (sp : Nat) => (tileVals ty (tGet g sp)).map fun v => (toF32 v).v
  let lo := f (i.f 34 7)
  let hi := f (i.f 27 7)
  let qs := (List.range w).map fun c => queryElem free (tGet g (i.x 32 4)) (i.x 36 8 + c)
  let one : Nat → Res Nat := fun r =>
    let terms := resMap (fun (p : Nat × Nat × Nat) => (fmul p.1 p.2.1).bind fun a => (fmul p.1 p.2.2).bind fun b => ⟨fmax a b, 0⟩)
      (qs.zip ((rowOf w r lo).zip (rowOf w r hi)))
    (terms.bind sumChain).bind fun v => if i.f 6 1 = 1 then fadd (tileFld (tGet g rd) (32 * r) 32) v else ⟨v, 0⟩
  let r := resMap one (List.range (tileRows ty))
  { rds := regsFrom rd 1, tiles := [tileSet 32 (tGet g rd) r.v], flags := r.f, draws := i.x 36 8 + w - 256 }

/-- CMP BOUND (R243). -/
def execCmpBound (q : Nat) (n : Nat) (s : State) : Host.Outcome State Fault Refusal :=
  .next (tileStep s q n 0x50 (cmpForm 3) (boundOut s.freeCtr))

/-! ### TOPK -/

/-- A key with its index, both as the ranking compares them. -/
structure TopKey where
  key : FVal := .nan
  pat : Nat := 0
  ix  : Nat := 0
deriving DecidableEq, Repr

/-- The first key ranks ahead of the second (R117): higher key, a NaN below every number, then the lower index. -/
def ranksAhead (a b : TopKey) : Bool := match a.key.cmp b.key with
  | some c => if c = 0 then decide (signed 32 a.ix < signed 32 b.ix) else decide (0 < c)
  | none =>
    if a.key.isNan && b.key.isNan then decide (signed 32 a.ix < signed 32 b.ix) else b.key.isNan

/-- A key put in a ranked list, behind those that rank as high. -/
def rankIn (x : TopKey) : List TopKey → List TopKey
  | [] => [x]
  | y :: t => if ranksAhead x y then x :: y :: t else y :: rankIn x t

/-- The k highest of a stream of keys in ranked order (R117). -/
def topKeys (k : Nat) (l : List TopKey) : List TopKey := l.foldl (fun acc x => (rankIn x acc).take k) []

/-- Keys of a TOPK's input (R244). -/
def topInput (i : Ins) (base : Nat) (b : Bytes) : List TopKey :=
  let ty := i.f 37 4
  let wide := if ty = 0xD then 0xD else 0
  let val := fun (t x : Nat) => elemVal t x
  if i.f 17 1 = 1 then
    (elemsLE 8 (b.length / 8) b).map fun p => { key := val wide (p % 2 ^ 32), pat := p % 2 ^ 32, ix := p / 2 ^ 32 }
  else
    (elemsLE (elemBytes ty) (b.length / elemBytes ty) b).zipIdx.map fun x =>
      { key := val ty x.1, pat := redIn ty x.1, ix := (x.2 + base) % 2 ^ 32 }

/-- TOPK's ranked keys leave for the output lace, which closes. -/
def topkEmit (s : State) (q n : Nat) (i : Ins) (k : Nat) : State :=
  let x := seam s q
  let c := laceOf x (i.f 32 5)
  let top := topKeys k (topInput i (fld (sGet x.s (i.f 25 5)) 0 32) c.q)
  let out := top.flatMap fun t => if i.f 18 1 = 1 then bytesLE 4 t.pat ++ bytesLE 4 t.ix else bytesLE 4 t.ix
  let x := lacePut (laceDrop x (i.f 32 5) c.q.length) (i.f 12 5) out
  let x := { x with laces := tmod {} x.laces (i.f 12 5) fun l => { l with closed := true } }
  setStage (setSeam s q x) q n (setP6 (stageNext (stage s q n)) !c.q.isEmpty)

/-- TOPK (R117, R244): once its input has ended it emits the highest keys in ranked order and closes its output.
Bytes that make no whole key end the job with RIGHTS. -/
def execTopk (q : Nat) (n : Nat) (s : State) : Host.Outcome State Fault Refusal :=
  .next (runStage s q n 0x51 (fun _ => true) fun s _ i =>
    let x := seam s q
    let k := if i.f 19 1 = 1 then (sGet x.s (i.f 20 5)).toNat else i.f 0 12 + 1
    let c := laceOf x (i.f 32 5)
    let sz := if i.f 17 1 = 1 then 8 else elemBytes (i.f 37 4)
    if k = 0 ∨ 4096 < k ∨ laceShut s q (i.f 12 5) = true then stopJob s q 3
    else if c.closed = false ∨ laceRoom x (i.f 12 5) = false then s
    else if c.q.length % sz ≠ 0 then stopJob s q 3
    else topkEmit s q n i k)

/-! ### SELECT -/

/-- The fill of SELECT for elements whose mask is 0 (R245). -/
def fillElem (ty sel : Nat) : Nat :=
  if ty = 0xD then (match sel with | 1 => 0x80000000 | 2 => 0x7FFFFFFF | _ => 0)
  else match sel with
    | 0 => 0
    | 1 => (elemRound ty 0 (.inf true)).v
    | 2 => (elemRound ty 0 (.inf false)).v
    | _ => (elemRound ty 0 .nan).v

/-- SELECT (R245). -/
def selectOut (g : Stage) (i : Ins) : TileOut :=
  let ty := i.f 23 4
  let k := tileBits ty
  let mask := runElems g (i.f 27 7) (runOf ty)
  let es := List.zipWith (fun x m => if m ≠ 0 then x else fillElem ty (i.f 0 2)) (tileElems (tGet g (i.f 34 7)) k) mask
  { rds := regsFrom (i.f 41 7) 1, tiles := [tileSet k (tGet g (i.f 41 7)) es] }

/-- SELECT (R245). -/
def execSelect (q : Nat) (n : Nat) (s : State) : Host.Outcome State Fault Refusal :=
  .next (tileStep s q n 0x52 anyForm selectOut)

/-! ### COMPACT -/

/-- One record of COMPACT with its mask (R246): emitted while OUTMAX allows, and counted. -/
def compactRec (s : State) (q n : Nat) (i : Ins) (rec_ : Bytes) (mask : Nat) : State :=
  let x := laceDrop (laceDrop (seam s q) (i.f 0 5) rec_.length) (i.f 5 5) 4
  let g := stage s q n
  let pass := decide (mask ≠ 0)
  let emit := pass && (decide (i.x 32 32 = 0) || decide (g.prog.count < i.x 32 32))
  let x := if emit then lacePut x (i.f 10 5) rec_ else x
  setStage (setSeam s q x) q n { g with prog := { g.prog with took := true, count := g.prog.count + b2n pass } }

/-- COMPACT (R246): one record at a time; when both laces have ended, the count. A lace that ends while the other
holds data, or within a record or mask, ends the job with RIGHTS. -/
def execCompact (q : Nat) (n : Nat) (s : State) : Host.Outcome State Fault Refusal :=
  .next (runStage s q n 0x53 (fun _ => true) fun s g i =>
    let x := seam s q
    let r := laceOf x (i.f 0 5)
    let m := laceOf x (i.f 5 5)
    let len := i.x 0 12 * 32
    if laceShut s q (i.f 10 5) || laceShut s q (i.f 15 5) then stopJob s q 3
    else if !laceRoom x (i.f 10 5) || !laceRoom x (i.f 15 5) then s
    else if len ≤ r.q.length ∧ 4 ≤ m.q.length then compactRec s q n i (r.q.take len) (leAt m.q 0 4)
    else if r.closed && m.closed && r.q.isEmpty && m.q.isEmpty then
      let x := lacePut x (i.f 15 5) (bytesLE 8 g.prog.count ++ List.replicate 24 0)
      ioEnd (setSeam s q x) q n true true
    else if (r.closed && decide (r.q.length < len) && (!r.q.isEmpty || !m.q.isEmpty))
        || (m.closed && decide (m.q.length < 4) && (!r.q.isEmpty || !m.q.isEmpty)) then stopJob s q 3
    else s)

end Sys2Proof.Machine
end

