-- ==== Sys2Proof/Machine/StageWelt.lean ====
section
/-! DEFINITION. The WELT form of RED, line records from laces, and a welt's timeout (R152–R158, R247). -/

namespace Sys2Proof.Machine

/-- A welt descriptor's fields (*Welt descriptor*). -/
def weltOf (seam_ seq c off : Nat) (b : Bytes) : Welt :=
  let w := fun (k : Nat) => leAt b (8 * k) 8
  { seam := seam_, seq := seq, comp := c, descOff := off, base := fldN (w 0) 0 56, lines := fldN (w 1) 0 24, expect := fldN (w 1) 32 16,
    op := fldN (w 2) 0 4, inType := fldN (w 2) 4 4, inPair := decide (fldN (w 2) 8 1 = 1), servers := fldN (w 2) 16 5,
    outType := fldN (w 2) 24 4, rc := fldN (w 2) 28 2, timeout := fldN (w 2) 32 32, stateOff := fldN (w 3) 0 32 }

/-- Bits of a welt descriptor that no field names. -/
def weltReserved (b : Bytes) : Bool :=
  reservedSet (bytesWords 4 b) [fmask 0 56, fmask 0 24 + fmask 32 16, fmask 0 9 + fmask 16 5 + fmask 24 6 + fmask 32 32, fmask 0 32]

/-- Every range of a welt descriptor holds. OUT_TYPE is any type a line's elements can be rounded to. -/
def weltRanges (w : Welt) (b : Bytes) : Bool :=
  let inOk := decide (w.inType ≤ 4) || decide (w.inType = 0xD)
  !weltReserved b && decide (w.base % 256 = 0) && decide (1 ≤ w.lines) && decide (1 ≤ w.expect) && decide (w.op ≤ 4)
    && (decide (w.op = 2) || inOk) && (!w.inPair || (decide (w.op = 1) && decide (w.inType = 0)))
    && decide (1 ≤ w.servers ∧ w.servers ≤ 16) && decide (w.outType ≤ 0xD)
    && decide (1 ≤ w.timeout ∧ w.timeout ≤ 10000000) && decide (w.stateOff % 64 = 0)

/-- The welt a job has named, open or waiting for its stages. -/
def jobWelt (s : State) (q : Nat) : Option Welt :=
  s.sa.welts.find? fun w => decide (w.seam = q) && decide (w.seq = (jobOf s q).seq)

/-- Stages in stage-map order with one more. -/
def joinIn (n : Nat) (l : List Nat) : List Nat := (List.range 24).filter fun k => decide (k = n) || l.contains k

/-- An open welt may take a range (R153): its region is welt-capable and wholly holds it, it overlaps no open welt,
fewer than 64 are open, and its state lies in the slice. -/
def weltFits (s : State) (q : Nat) (w : Welt) (r : Nat) : Bool :=
  let y := region s r
  y.welt && decide (y.comp = w.comp) && decide (faSwitch w.base = s.swNum)
    && decide (y.base ≤ w.base ∧ w.base + 256 * w.lines ≤ y.base + y.pages * 65536)
    && !s.sa.welts.any (fun x => x.opened && meets x.base (256 * x.lines) w.base (256 * w.lines))
    && decide ((s.sa.welts.filter (·.opened)).length < 64)
    && decide (w.stateOff + w.lines * weltLineB w ≤ sliceBytes (seam s q))

/-- A stage waits at the welt. -/
def weltJoin (s : State) (q n : Nat) (w : Welt) : State :=
  let old := s.sa.welts.filter fun x => !(decide (x.seam = q) && decide (x.seq = w.seq)) && (x.opened || x.closedAt.isNone || weltRecent s x)
  let s := { s with sa := { s.sa with welts := old ++ [w] } }
  setStage s q n { stage s q n with weltWait := true }

/-- The last serving stage executes the welt RED: the welt opens (R153). -/
def weltOpen (s : State) (q n : Nat) (w : Welt) : State :=
  match translate s (stageAcc s q n w.base 2) with
  | (s, .waits) => s
  | (s, .ends _) => stopJob s q 3
  | (s, .ok fa r _) =>
    let w := { w with base := fa }
    if weltFits s q w r = false then stopJob s q 3
    else
      let w := { w with opened := true, deadline := s.now + w.timeout * 1000 }
      let x := seam s q
      weltJoin (setSeam s q { x with mem := weltZeroAll w x.mem }) q n w

/-- A V stage executes the welt RED: it reads the descriptor, joins the welt, and opens it as its last server.
A second descriptor of one job ends the job with RIGHTS (R247). -/
def weltEnter (s : State) (q n off : Nat) : State :=
  match sliceRead (seam s q) off 32 with
  | none => stopJob s q 3
  | some b =>
    let j := jobOf s q
    let w := weltOf q j.seq j.comp off b
    let joined := match jobWelt s q with
      | none => some [n]
      | some x => if x.descOff ≠ off ∨ x.opened = true ∨ x.closedAt.isSome = true then none else some (joinIn n x.joined)
    match joined with
    | none => stopJob s q 3
    | some l =>
      if weltRanges w b = false then stopJob s q 3
      else if l.length < w.servers then weltJoin s q n { w with joined := l }
      else weltOpen s q n { w with joined := l }

/-- A stage whose welt has closed goes on; p6 is written if the stage has an input lace (R217). -/
def weltDone (s : State) (q : Nat) (g : Stage) : Stage :=
  let h := { stageNext g with weltWait := false, prog := {} }
  let c := laceOf (seam s q) (firstLace g.inL)
  if g.inL = 0 then h else setP6 h (g.prog.took || !(c.closed && c.q.isEmpty))

/-- RED WELT (R247): a stage joins the welt; it completes when the welt has closed. -/
def execRedWelt (q : Nat) (n : Nat) (s : State) : Host.Outcome State Fault Refusal :=
  .next (runStage s q n 0x60 (fun i => decide (i.f 0 1 = 1)) fun s g i =>
    let a := aGet g (i.f 34 7)
    if g.weltWait then
      if (jobWelt s q).any (fun w => w.closedAt.isSome) then setStage s q n (weltDone s q g) else s
    else if aSpace a ≠ 0 then stopJob s q 3
    else weltEnter s q n (aAddr a))

/-- A line record taken from a serving stage's lace is applied, or counts an excess. -/
def weltTake (s : State) (q n l : Nat) (w : Welt) : State :=
  let b := (laceOf (seam s q) l).q
  let k := leAt b 0 4
  let s := setSeam s q (laceDrop (seam s q) l (32 + weltInB w))
  let g := stage s q n
  let s := setStage s q n { g with prog := { g.prog with took := true } }
  if weltCount (seam s q).mem w k = w.expect then setWelt s w { w with excess := w.excess + 1 }
  else weltApply s w k ((b.drop 32).take (weltInB w))

/-- WELT_LACE_CONTRIBUTION (R157): a serving stage takes a line record from its input lace and applies it. A line
number beyond the welt ends the job with RIGHTS; a line that has its EXPECT counts an excess. -/
def execWeltLaceContribution (q : Nat) (n : Nat) (s : State) : Host.Outcome State Fault Refusal :=
  .next (if stageLive s q n && (stage s q n).weltWait then
    match jobWelt s q with
    | none => s
    | some w =>
      let g := stage s q n
      let l := firstLace g.inL
      let c := laceOf (seam s q) l
      let need := 32 + weltInB w
      if w.opened = false ∨ g.inL = 0 ∨ c.q.length < need ∨ (g.outL ≠ 0 ∧ laceRoom (seam s q) (firstLace g.outL) = false) then s
      else
        if w.lines ≤ leAt c.q 0 4 then stopJob s q 3 else weltTake s q n l w
  else s)

/-- WELT_TIMEOUT (R158, R167): the TIMEOUT expires with lines unfinished, whichever contributions or triples are short, and the job
ends with TIMEOUT. -/
def execWeltTimeout (q : Nat) (s : State) : Host.Outcome State Fault Refusal :=
  .next (match jobWelt s q with
    | none => s
    | some w => if working s && w.opened && decide (w.deadline ≤ s.now) then stopJob s q 0x0E else s)

end Sys2Proof.Machine
end

