-- ==== Sys2Proof/Machine/Dispatch.lean ====
section
/-! DEFINITION. The meaning of every command (one arm per row of the table of operations), on
everything but the queue. -/

namespace Sys2Proof.Machine

def exec (i : Instr) (s : State) : Host.Outcome State Fault Refusal :=
  match i with
  | .registerWrite path off size v => Sys2Proof.Machine.execRegisterWrite path off size v s
  | .counterReadClear path off size => Sys2Proof.Machine.execCounterReadClear path off size s
  | .bootstrapDone path v => Sys2Proof.Machine.execBootstrapDone path v s
  | .intPendClear path off size v => Sys2Proof.Machine.execIntPendClear path off size v s
  | .intMaskWrite path off size v => Sys2Proof.Machine.execIntMaskWrite path off size v s
  | .lockAcquire path n k => Sys2Proof.Machine.execLockAcquire path n k s
  | .lockRelease path n k v => Sys2Proof.Machine.execLockRelease path n k v s
  | .lockForce path v => Sys2Proof.Machine.execLockForce path v s
  | .inHeadWrite path m v => Sys2Proof.Machine.execInHeadWrite path m v s
  | .outHeadRead path m => Sys2Proof.Machine.execOutHeadRead path m s
  | .ringConsWrite n v => Sys2Proof.Machine.execRingConsWrite n v s
  | .flagByteWrite off data => Sys2Proof.Machine.execFlagByteWrite off data s
  | .bulkDataWrite off data => Sys2Proof.Machine.execBulkDataWrite off data s
  | .bulkRead off len ue => Sys2Proof.Machine.execBulkRead off len ue s
  | .sbCapWrite path v => Sys2Proof.Machine.execSbCapWrite path v s
  | .snapshot path v => Sys2Proof.Machine.execSnapshot path v s
  | .fenceAll path v => Sys2Proof.Machine.execFenceAll path v s
  | .keyZeroise path v => Sys2Proof.Machine.execKeyZeroise path v s
  | .journalFlush path v => Sys2Proof.Machine.execJournalFlush path v s
  | .warmReset path v => Sys2Proof.Machine.execWarmReset path v s
  | .coldReset path v => Sys2Proof.Machine.execColdReset path v s
  | .powerOff path v => Sys2Proof.Machine.execPowerOff path v s
  | .remove path v => Sys2Proof.Machine.execRemove path v s
  | .cpInline m => Sys2Proof.Machine.execCpInline m s
  | .cpBulk m => Sys2Proof.Machine.execCpBulk m s
  | .querySeq m => Sys2Proof.Machine.execQuerySeq m s
  | .healthQuery m => Sys2Proof.Machine.execHealthQuery m s
  | .malformedMessage m => Sys2Proof.Machine.execMalformedMessage m s
  | .recoveryImage => Sys2Proof.Machine.execRecoveryImage s
  | .programAccept m => Sys2Proof.Machine.execProgramAccept m s
  | .mgmtCoreFailover core => Sys2Proof.Machine.execMgmtCoreFailover core s
  | .doorbell f => Sys2Proof.Machine.execDoorbell f s
  | .descriptorReadDone q status data => Sys2Proof.Machine.execDescriptorReadDone q status data s
  | .descriptorAccept q => Sys2Proof.Machine.execDescriptorAccept q s
  | .jobTake q => Sys2Proof.Machine.execJobTake q s
  | .leaveGrant base => Sys2Proof.Machine.execLeaveGrant base s
  | .placement q => Sys2Proof.Machine.execPlacement q s
  | .placementRetry part => Sys2Proof.Machine.execPlacementRetry part s
  | .pllLock die => Sys2Proof.Machine.execPllLock die s
  | .jobStart q set wire => Sys2Proof.Machine.execJobStart q s set wire
  | .jobRetire q => Sys2Proof.Machine.execJobRetire q s
  | .completionWriteDone q status => Sys2Proof.Machine.execCompletionWriteDone q status s
  | .jobRunLimit q => Sys2Proof.Machine.execJobRunLimit q s
  | .jobRestart q err => Sys2Proof.Machine.execJobRestart q err s
  | .sequencerScrubEnd q bad => Sys2Proof.Machine.execSequencerScrubEnd q s bad
  | .unitIdleGate ty p => Sys2Proof.Machine.execUnitIdleGate ty p s
  | .pllIdleStop die => Sys2Proof.Machine.execPllIdleStop die s
  | .programTake cs => Sys2Proof.Machine.execProgramTake cs s
  | .watchdogExpiry cs => Sys2Proof.Machine.execWatchdogExpiry cs s
  | .halt iss => Sys2Proof.Machine.execHalt iss s
  | .loop iss => Sys2Proof.Machine.execLoop iss s
  | .endl iss => Sys2Proof.Machine.execEndl iss s
  | .br iss => Sys2Proof.Machine.execBr iss s
  | .stream q n => Sys2Proof.Machine.execStream q n s
  | .gather q n => Sys2Proof.Machine.execGather q n s
  | .scatter q n => Sys2Proof.Machine.execScatter q n s
  | .walkReadDone w status data => Sys2Proof.Machine.execWalkReadDone w status data s
  | .faultTableRetry => Sys2Proof.Machine.execFaultTableRetry s
  | .faultRecordRetry part => Sys2Proof.Machine.execFaultRecordRetry part s
  | .meterBacklogWrite => Sys2Proof.Machine.execMeterBacklogWrite s
  | .emitPut q n => Sys2Proof.Machine.execEmitPut q n s
  | .emitTake q n => Sys2Proof.Machine.execEmitTake q n s
  | .emitSeta q n => Sys2Proof.Machine.execEmitSeta q n s
  | .emitLda q n => Sys2Proof.Machine.execEmitLda q n s
  | .emitLdt q n => Sys2Proof.Machine.execEmitLdt q n s
  | .emitStt q n => Sys2Proof.Machine.execEmitStt q n s
  | .emitSetp q n => Sys2Proof.Machine.execEmitSetp q n s
  | .decode q n => Sys2Proof.Machine.execDecode q n s
  | .decodeBlock q n => Sys2Proof.Machine.execDecodeBlock q n s
  | .encode q n => Sys2Proof.Machine.execEncode q n s
  | .encodeBlock q n => Sys2Proof.Machine.execEncodeBlock q n s
  | .buildtab q n => Sys2Proof.Machine.execBuildtab q n s
  | .mma q n => Sys2Proof.Machine.execMma q n s
  | .dot q n => Sys2Proof.Machine.execDot q n s
  | .scale q n => Sys2Proof.Machine.execScale q n s
  | .quant q n => Sys2Proof.Machine.execQuant q n s
  | .dequant q n => Sys2Proof.Machine.execDequant q n s
  | .smaxReset q n => Sys2Proof.Machine.execSmaxReset q n s
  | .smaxBlock q n => Sys2Proof.Machine.execSmaxBlock q n s
  | .smaxEnd q n => Sys2Proof.Machine.execSmaxEnd q n s
  | .exp q n => Sys2Proof.Machine.execExp q n s
  | .lsemerge q n => Sys2Proof.Machine.execLsemerge q n s
  | .cmpSet q n => Sys2Proof.Machine.execCmpSet q n s
  | .cmpAnd q n => Sys2Proof.Machine.execCmpAnd q n s
  | .cmpOr q n => Sys2Proof.Machine.execCmpOr q n s
  | .cmpBound q n => Sys2Proof.Machine.execCmpBound q n s
  | .topk q n => Sys2Proof.Machine.execTopk q n s
  | .select q n => Sys2Proof.Machine.execSelect q n s
  | .compact q n => Sys2Proof.Machine.execCompact q n s
  | .redTile q n => Sys2Proof.Machine.execRedTile q n s
  | .redWelt q n => Sys2Proof.Machine.execRedWelt q n s
  | .weltLaceContribution q n => Sys2Proof.Machine.execWeltLaceContribution q n s
  | .weltTimeout q => Sys2Proof.Machine.execWeltTimeout q s
  | .redw q n => Sys2Proof.Machine.execRedw q n s
  | .mcast q n => Sys2Proof.Machine.execMcast q n s
  | .arrive iss => Sys2Proof.Machine.execArrive iss s
  | .signal iss => Sys2Proof.Machine.execSignal iss s
  | .waitcnt iss => Sys2Proof.Machine.execWaitcnt iss s
  | .waitcntSatisfied iss => Sys2Proof.Machine.execWaitcntSatisfied iss s
  | .waitcntTimeout iss => Sys2Proof.Machine.execWaitcntTimeout iss s
  | .mapSetRoute cs => Sys2Proof.Machine.execMapSetRoute cs s
  | .mapSetMember cs => Sys2Proof.Machine.execMapSetMember cs s
  | .mapSetSpan cs => Sys2Proof.Machine.execMapSetSpan cs s
  | .mapEpoch cs => Sys2Proof.Machine.execMapEpoch cs s
  | .mapEpochDrained cs => Sys2Proof.Machine.execMapEpochDrained cs s
  | .compCreate cs => Sys2Proof.Machine.execCompCreate cs s
  | .compDestroy cs => Sys2Proof.Machine.execCompDestroy cs s
  | .compDestroyEnd comp => Sys2Proof.Machine.execCompDestroyEnd comp s
  | .extGrant cs => Sys2Proof.Machine.execExtGrant cs s
  | .extRevoke cs => Sys2Proof.Machine.execExtRevoke cs s
  | .extentDrainEnd ext => Sys2Proof.Machine.execExtentDrainEnd ext s
  | .extScrub cs => Sys2Proof.Machine.execExtScrub cs s
  | .extScrubEnd ext => Sys2Proof.Machine.execExtScrubEnd ext s
  | .keyLoad cs => Sys2Proof.Machine.execKeyLoad cs s
  | .keyRetire cs => Sys2Proof.Machine.execKeyRetire cs s
  | .keyDrainZeroise slot => Sys2Proof.Machine.execKeyDrainZeroise slot s
  | .keyRetireTimeout slot => Sys2Proof.Machine.execKeyRetireTimeout slot s
  | .ctxBind cs => Sys2Proof.Machine.execCtxBind cs s
  | .ctxUnbind cs => Sys2Proof.Machine.execCtxUnbind cs s
  | .asidInvalNone cs => Sys2Proof.Machine.execAsidInvalNone cs s
  | .asidInvalRetryAll cs => Sys2Proof.Machine.execAsidInvalRetryAll cs s
  | .asidInvalAbort cs => Sys2Proof.Machine.execAsidInvalAbort cs s
  | .asidInvalDrained cs => Sys2Proof.Machine.execAsidInvalDrained cs s
  | .fenceComp cs => Sys2Proof.Machine.execFenceComp cs s
  | .fencePeer cs => Sys2Proof.Machine.execFencePeer cs s
  | .fenceReleasePeer cs => Sys2Proof.Machine.execFenceReleasePeer cs s
  | .fenceReleaseComp cs => Sys2Proof.Machine.execFenceReleaseComp cs s
  | .fenceCollected cs => Sys2Proof.Machine.execFenceCollected cs s
  | .fenceTimeout cs => Sys2Proof.Machine.execFenceTimeout cs s
  | .handoffSend cs => Sys2Proof.Machine.execHandoffSend cs s
  | .handoffAccept cs => Sys2Proof.Machine.execHandoffAccept cs s
  | .reclaim cs => Sys2Proof.Machine.execReclaim cs s
  | .leaseOffer cs => Sys2Proof.Machine.execLeaseOffer cs s
  | .leaseAccept cs => Sys2Proof.Machine.execLeaseAccept cs s
  | .leaseRecall cs => Sys2Proof.Machine.execLeaseRecall cs s
  | .leaseReturn cs => Sys2Proof.Machine.execLeaseReturn cs s
  | .leaseRecallReceipt lease reason notice => Sys2Proof.Machine.execLeaseRecallReceipt lease reason notice s
  | .leaseEmptied lease => Sys2Proof.Machine.execLeaseEmptied lease s
  | .leaseDeadline lease => Sys2Proof.Machine.execLeaseDeadline lease s
  | .leaseLost lease status => Sys2Proof.Machine.execLeaseLost lease status s
  | .weightsRegister cs => Sys2Proof.Machine.execWeightsRegister cs s
  | .weightsHashDone w status digest => Sys2Proof.Machine.execWeightsHashDone w status digest s
  | .weightsWithdraw cs => Sys2Proof.Machine.execWeightsWithdraw cs s
  | .weightsDrainEnd w => Sys2Proof.Machine.execWeightsDrainEnd w s
  | .tableStore cs status data => Sys2Proof.Machine.execTableStore cs status data s
  | .tableInstall cs => Sys2Proof.Machine.execTableInstall cs s
  | .installWaitEnd id => Sys2Proof.Machine.execInstallWaitEnd id s
  | .installResident id => Sys2Proof.Machine.execInstallResident id s
  | .tableRelease cs => Sys2Proof.Machine.execTableRelease cs s
  | .tableDelete cs => Sys2Proof.Machine.execTableDelete cs s
  | .tableDrainEnd id => Sys2Proof.Machine.execTableDrainEnd id s
  | .powerReq cs => Sys2Proof.Machine.execPowerReq cs s
  | .powerReqRelease cs => Sys2Proof.Machine.execPowerReqRelease cs s
  | .spareSwap cs => Sys2Proof.Machine.execSpareSwap cs s
  | .meterRead cs => Sys2Proof.Machine.execMeterRead cs s
  | .commitPattern cs status data => Sys2Proof.Machine.execCommitPattern cs status data s
  | .commitPatternDisable cs => Sys2Proof.Machine.execCommitPatternDisable cs s
  | .patternDrainEnd slot => Sys2Proof.Machine.execPatternDrainEnd slot s
  | .commitSaSlice cs => Sys2Proof.Machine.execCommitSaSlice cs s
  | .commitSaUnitmap cs => Sys2Proof.Machine.execCommitSaUnitmap cs s
  | .commitSaPartcfg cs => Sys2Proof.Machine.execCommitSaPartcfg cs s
  | .commitJobqEnable cs => Sys2Proof.Machine.execCommitJobqEnable cs s
  | .commitJobqDisable cs => Sys2Proof.Machine.execCommitJobqDisable cs s
  | .jobqDrainEnd q => Sys2Proof.Machine.execJobqDrainEnd q s
  | .commitMbxbind cs => Sys2Proof.Machine.execCommitMbxbind cs s
  | .commitSyncobj cs => Sys2Proof.Machine.execCommitSyncobj cs s
  | .commitCopyeng cs => Sys2Proof.Machine.execCommitCopyeng cs s
  | .commitMcgroupGroup cs => Sys2Proof.Machine.execCommitMcgroupGroup cs s
  | .commitMcgroupMember cs => Sys2Proof.Machine.execCommitMcgroupMember cs s
  | .commitMeter cs => Sys2Proof.Machine.execCommitMeter cs s
  | .commitSchedQueue cs => Sys2Proof.Machine.execCommitSchedQueue cs s
  | .commitSchedPort cs => Sys2Proof.Machine.execCommitSchedPort cs s
  | .commitSchedShare cs => Sys2Proof.Machine.execCommitSchedShare cs s
  | .commitGateEntry cs => Sys2Proof.Machine.execCommitGateEntry cs s
  | .commitGateList cs => Sys2Proof.Machine.execCommitGateList cs s
  | .commitMirrorSession cs => Sys2Proof.Machine.execCommitMirrorSession cs s
  | .commitMirrorSampler cs => Sys2Proof.Machine.execCommitMirrorSampler cs s
  | .commitPort cs => Sys2Proof.Machine.execCommitPort cs s
  | .commitPortPair cs => Sys2Proof.Machine.execCommitPortPair cs s
  | .commitWindow cs => Sys2Proof.Machine.execCommitWindow cs s
  | .commitAsid cs => Sys2Proof.Machine.execCommitAsid cs s
  | .commitRegion cs => Sys2Proof.Machine.execCommitRegion cs s
  | .commitPlacement cs => Sys2Proof.Machine.execCommitPlacement cs s
  | .commitFdtag cs => Sys2Proof.Machine.execCommitFdtag cs s
  | .commitPartitionPort cs => Sys2Proof.Machine.execCommitPartitionPort cs s
  | .commitPartitionPch cs => Sys2Proof.Machine.execCommitPartitionPch cs s
  | .commitPartitionReset cs => Sys2Proof.Machine.execCommitPartitionReset cs s
  | .partitionResetEnd part => Sys2Proof.Machine.execPartitionResetEnd part s
  | .sequencerStopTimeout iss => Sys2Proof.Machine.execSequencerStopTimeout iss s
  | .commitTenant cs => Sys2Proof.Machine.execCommitTenant cs s
  | .commitTenantPchAssign cs => Sys2Proof.Machine.execCommitTenantPchAssign cs s
  | .commitTenantPchRelease cs => Sys2Proof.Machine.execCommitTenantPchRelease cs s
  | .pchVacated ch => Sys2Proof.Machine.execPchVacated ch s
  | .pchScrubEnd ch => Sys2Proof.Machine.execPchScrubEnd ch s
  | .commitTenantTrayport cs => Sys2Proof.Machine.execCommitTenantTrayport cs s
  | .commitPhBudget cs => Sys2Proof.Machine.execCommitPhBudget cs s
  | .commitPhSwap cs => Sys2Proof.Machine.execCommitPhSwap cs s
  | .commitPhProof cs => Sys2Proof.Machine.execCommitPhProof cs s
  | .commitPhWeight cs => Sys2Proof.Machine.execCommitPhWeight cs s
  | .commitLvLimits cs => Sys2Proof.Machine.execCommitLvLimits cs s
  | .commitLvImage cs => Sys2Proof.Machine.execCommitLvImage cs s
  | .lvImageWriteEnd => Sys2Proof.Machine.execLvImageWriteEnd s
  | .commitLvRtable cs => Sys2Proof.Machine.execCommitLvRtable cs s
  | .commitLvExport cs => Sys2Proof.Machine.execCommitLvExport cs s
  | .lvExportWriteEnd fail => Sys2Proof.Machine.execLvExportWriteEnd fail s
  | .readRequest f ue => Sys2Proof.Machine.execReadRequest f ue s
  | .writeRequest f => Sys2Proof.Machine.execWriteRequest f s
  | .pwriteRequest f => Sys2Proof.Machine.execPwriteRequest f s
  | .atomicRequest f => Sys2Proof.Machine.execAtomicRequest f s
  | .redwRequest f => Sys2Proof.Machine.execRedwRequest f s
  | .mcwRequest f => Sys2Proof.Machine.execMcwRequest f s
  | .msgRequest f => Sys2Proof.Machine.execMsgRequest f s
  | .copyRing f => Sys2Proof.Machine.execCopyRing f s
  | .copyChunkDone eng index off => Sys2Proof.Machine.execCopyChunkDone eng index off s
  | .fenceRequest f => Sys2Proof.Machine.execFenceRequest f s
  | .arriveRequest f => Sys2Proof.Machine.execArriveRequest f s
  | .signalRequest f => Sys2Proof.Machine.execSignalRequest f s
  | .drainMarker f => Sys2Proof.Machine.execDrainMarker f s
  | .probe f => Sys2Proof.Machine.execProbe f s
  | .cplReceive f => Sys2Proof.Machine.execCplReceive f s
  | .taggedResend stream tag => Sys2Proof.Machine.execTaggedResend stream tag s
  | .completionTimeout stream tag => Sys2Proof.Machine.execCompletionTimeout stream tag s
  | .replyCacheExpiry e => Sys2Proof.Machine.execReplyCacheExpiry e s
  | .frameIngress f port => Sys2Proof.Machine.execFrameIngress f port s
  | .frameAdmit port idx => Sys2Proof.Machine.execFrameAdmit port idx s
  | .admissionTimeout port idx => Sys2Proof.Machine.execAdmissionTimeout port idx s
  | .egressSelect port => Sys2Proof.Machine.execEgressSelect port s
  | .gateEntryBoundary port => Sys2Proof.Machine.execGateEntryBoundary port s
  | .gateCycleStart port => Sys2Proof.Machine.execGateCycleStart port s
  | .frameAgeOut port q => Sys2Proof.Machine.execFrameAgeOut port q s
  | .queueSample port => Sys2Proof.Machine.execQueueSample port s
  | .routeDrainAck switch => Sys2Proof.Machine.execRouteDrainAck switch s
  | .routeHoldTimeout idx => Sys2Proof.Machine.execRouteHoldTimeout idx s
  | .portDown port => Sys2Proof.Machine.execPortDown port s
  | .agingToService port => Sys2Proof.Machine.execAgingToService port s
  | .flitReceive port flit => Sys2Proof.Machine.execFlitReceive port flit s
  | .creditFrame port f => Sys2Proof.Machine.execCreditFrame port f s
  | .timeSyncPeriod => Sys2Proof.Machine.execTimeSyncPeriod s
  | .timeSyncFrame port f => Sys2Proof.Machine.execTimeSyncFrame port f s
  | .timeReplyFrame port f => Sys2Proof.Machine.execTimeReplyFrame port f s
  | .timeUpstreamTimeout => Sys2Proof.Machine.execTimeUpstreamTimeout s
  | .holdoverTimeout => Sys2Proof.Machine.execHoldoverTimeout s
  | .dozeIdleTimeout port => Sys2Proof.Machine.execDozeIdleTimeout port s
  | .dozeFrame port f => Sys2Proof.Machine.execDozeFrame port f s
  | .wakeFrame port f => Sys2Proof.Machine.execWakeFrame port f s
  | .wakeDelayEnd port => Sys2Proof.Machine.execWakeDelayEnd port s
  | .keySwitchFrame port f => Sys2Proof.Machine.execKeySwitchFrame port f s
  | .macFrame port f => Sys2Proof.Machine.execMacFrame port f s
  | .capsFrame port f => Sys2Proof.Machine.execCapsFrame port f s
  | .spareFrame port f => Sys2Proof.Machine.execSpareFrame port f s
  | .keymsgFrame port f => Sys2Proof.Machine.execKeymsgFrame port f s
  | .linkKey port payload => Sys2Proof.Machine.execLinkKey port payload s
  | .rekeyTimer port => Sys2Proof.Machine.execRekeyTimer port s
  | .partnerDetect port => Sys2Proof.Machine.execPartnerDetect port s
  | .trainingComplete port lanes => Sys2Proof.Machine.execTrainingComplete port lanes s
  | .trainRetry port => Sys2Proof.Machine.execTrainRetry port s
  | .laneLockLoss port lane => Sys2Proof.Machine.execLaneLockLoss port lane s
  | .retrainTimeout port => Sys2Proof.Machine.execRetrainTimeout port s
  | .laneSwapStart lane => Sys2Proof.Machine.execLaneSwapStart lane s
  | .spareLock pair => Sys2Proof.Machine.execSpareLock pair s
  | .spareSwitch pair => Sys2Proof.Machine.execSpareSwitch pair s
  | .spdmHeartbeatMiss sess => Sys2Proof.Machine.execSpdmHeartbeatMiss sess s
  | .spdmRequest sess req => Sys2Proof.Machine.execSpdmRequest sess req s
  | .setCertificate sess slot chain => Sys2Proof.Machine.execSetCertificate sess slot chain s
  | .getCsr sess => Sys2Proof.Machine.execGetCsr sess s
  | .getMeasurements sess index sign nonce => Sys2Proof.Machine.execGetMeasurements sess index sign nonce s
  | .getReport sess nonce comp start => Sys2Proof.Machine.execGetReport sess nonce comp start s
  | .deliverKey sess tenant mode material => Sys2Proof.Machine.execDeliverKey sess tenant mode material s
  | .discardKey sess keyref => Sys2Proof.Machine.execDiscardKey sess keyref s
  | .deliveredKeyExpiry e => Sys2Proof.Machine.execDeliveredKeyExpiry e s
  | .setOwner sess digest => Sys2Proof.Machine.execSetOwner sess digest s
  | .raiseFloor sess floor => Sys2Proof.Machine.execRaiseFloor sess floor s
  | .raiseEpoch sess => Sys2Proof.Machine.execRaiseEpoch sess s
  | .seal sess on => Sys2Proof.Machine.execSeal sess on s
  | .debugUnlock sess token nonce => Sys2Proof.Machine.execDebugUnlock sess token nonce s
  | .getLc sess => Sys2Proof.Machine.execGetLc sess s
  | .dirtyDrain bytes => Sys2Proof.Machine.execDirtyDrain bytes s
  | .segmentRelocate records => Sys2Proof.Machine.execSegmentRelocate records s
  | .wearLevelMove pkg newMin newMax => Sys2Proof.Machine.execWearLevelMove pkg newMin newMax s
  | .pageRewrite page temp weak retries mirror miss => Sys2Proof.Machine.execPageRewrite page temp weak retries mirror miss s
  | .holdupMeasure usable => Sys2Proof.Machine.execHoldupMeasure usable s
  | .holdupCharged => Sys2Proof.Machine.execHoldupCharged s
  | .lpddrPackageFail n => Sys2Proof.Machine.execLpddrPackageFail n s
  | .nandPackageFail k => Sys2Proof.Machine.execNandPackageFail k s
  | .meterPeriodEnd comp => Sys2Proof.Machine.execMeterPeriodEnd comp s
  | .migrationStart grain toLoc toFrame => Sys2Proof.Machine.execMigrationStart grain toLoc toFrame s
  | .subgrainCopyDone move data => Sys2Proof.Machine.execSubgrainCopyDone move data s
  | .hbmPressureDrop grain => Sys2Proof.Machine.execHbmPressureDrop grain s
  | .mirrorResync ext => Sys2Proof.Machine.execMirrorResync ext s
  | .powerLoss => Sys2Proof.Machine.execPowerLoss s
  | .overvoltage => Sys2Proof.Machine.execOvervoltage s
  | .flushComplete => Sys2Proof.Machine.execFlushComplete s
  | .powerGood => Sys2Proof.Machine.execPowerGood s
  | .bootIdentity => Sys2Proof.Machine.execBootIdentity s
  | .firmwareLoad => Sys2Proof.Machine.execFirmwareLoad s
  | .restore => Sys2Proof.Machine.execRestore s
  | .bootReady => Sys2Proof.Machine.execBootReady s
  | .firmwareSilent => Sys2Proof.Machine.execFirmwareSilent s
  | .hbmStackFail stack => Sys2Proof.Machine.execHbmStackFail stack s
  | .deviceAreaUe what => Sys2Proof.Machine.execDeviceAreaUe what s
  | .dieTemperature die tj => Sys2Proof.Machine.execDieTemperature die tj s
  | .budgetThrottleSet watts => Sys2Proof.Machine.execBudgetThrottleSet watts s
  | .budgetThrottleLift watts => Sys2Proof.Machine.execBudgetThrottleLift watts s
  | .ageMonitorSample part age => Sys2Proof.Machine.execAgeMonitorSample part age s
  | .ceSample part count fresh => Sys2Proof.Machine.execCeSample part count s fresh
  | .eyeSample lane eye corr => Sys2Proof.Machine.execEyeSample lane eye corr s
  | .swapWindowOpen => Sys2Proof.Machine.execSwapWindowOpen s
  | .proofCheckerWait q n => Sys2Proof.Machine.execProofCheckerWait q n s
  | .proofVerdict q n res => Sys2Proof.Machine.execProofVerdict q n res s
  | .proofRepeatVerdict q n res cond => Sys2Proof.Machine.execProofRepeatVerdict q n res cond s
  | .escalationEnd ty p => Sys2Proof.Machine.execEscalationEnd ty p s
  | .proofBinLapse ty p bin => Sys2Proof.Machine.execProofBinLapse ty p bin s
  | .inputSwitchClose => Sys2Proof.Machine.execInputSwitchClose s
  | .enBreak => Sys2Proof.Machine.execEnBreak s
  | .resetNAssert => Sys2Proof.Machine.execResetNAssert s
  | .resetNRelease => Sys2Proof.Machine.execResetNRelease s
  | .attnNAssert => Sys2Proof.Machine.execAttnNAssert s
  | .perstNChange low => Sys2Proof.Machine.execPerstNChange low s
  | .retrainComplete port => Sys2Proof.Machine.execRetrainComplete port s
  | .controlSequencerFail cs => Sys2Proof.Machine.execControlSequencerFail cs s
  | .removeStopDeadline => Sys2Proof.Machine.execRemoveStopDeadline s
  | .inputPowerRestored => Sys2Proof.Machine.execInputPowerRestored s
  | .undervoltOvervolt volts => Sys2Proof.Machine.execUndervoltOvervolt volts s
  | .ideKmMessage sess msg => Sys2Proof.Machine.execIdeKmMessage sess msg s
  | .smbusFallback => Sys2Proof.Machine.execSmbusFallback s
  | .dynamicAddressAssignment addr => Sys2Proof.Machine.execDynamicAddressAssignment addr s
  | .spareDeskewDone pair => Sys2Proof.Machine.execSpareDeskewDone pair s
  | .powerOnTestEnd => Sys2Proof.Machine.execPowerOnTestEnd s
  | .converterRegulationLoss => Sys2Proof.Machine.execConverterRegulationLoss s

end Sys2Proof.Machine
end

