-- ==== Sys2Proof/Machine/Tick.lean ====
section
/-! DEFINITION. What a nanosecond brings when no command is waiting: device time (R350–R352), meter counts (R415), the time under a
throttle (R526), and the handover that a planned removal comes to (R498). -/

namespace Sys2Proof.Machine

/-- Device time advances by 1 ns; while it is corrected, every 5,000 ns (200 ppm) one more is added or one is withheld (R352). -/
def clockTick (s : State) : State :=
  if s.pc.slew = 0 then { s with now := s.now + 1 }
  else if s.pc.slewGap + 1 < 5000 then { s with now := s.now + 1, pc := { s.pc with slewGap := s.pc.slewGap + 1 } }
  else if 0 < s.pc.slew then { s with now := s.now + 2, pc := { s.pc with slew := s.pc.slew - 1, slewGap := 0 } }
  else { s with pc := { s.pc with slew := s.pc.slew + 1, slewGap := 0 } }

/-- Meter counts of every composition that is not FREE. -/
def metersTick (s : State) : State :=
  { s with tr := { s.tr with comps := tmap {} s.tr.comps fun c x => if x.state = 0 then x else { x with meter := meterTick s c x.meter } } }

/-- Whole microseconds that have passed under a throttle. -/
def throttleTick (s : State) (before : Nat) : State :=
  if throttled s then phCount s 2 ((s.now - s.ph.thrSince) / 1000 - (before - s.ph.thrSince) / 1000) else s

/-- One nanosecond without a command (DESIGN CHOICE: log entry 3). A module without power stands still. -/
def idle (s : State) : State :=
  if unpowered s then s
  else
    let t := throttleTick (clockTick s) s.now
    tryHandover (if working t then metersTick t else t)

end Sys2Proof.Machine
end

