-- ==== Sys2Proof/WellFormed.lean ====
section
/-! DEFINITION. Which commands name parts the module has: every number of a unit, queue, port, slot or
object within its range, and every header field of a frame within its width (R257, R342). The meanings
do not rely on it: each tests the numbers it uses. -/

namespace Sys2Proof

open Sys2Proof.Machine

/-- A number below its range's end. -/
def below (n b : Nat) : Bool := decide (n < b)

/-- A control sequencer 0–8, a seam sequencer 0–67, or one of the 24 stages of its job (R71, R112, R85). -/
def issuerOk : Issuer → Bool
  | .ctl cs => below cs 9
  | .seq q => below q 68
  | .stage q n => below q 68 && below n 24

/-- A part of the seam array an error is found in (R112, R115). -/
def errPartOk : ErrPart → Bool
  | .unit ty p => below ty 8 && below p 256
  | .lace l => below l 32
  | .chan a b => below a 4 && below b 4
  | .row d b => below d 4 && below b 96

/-- A part whose health is watched (R512). -/
def healthPartOk : HealthPart → Bool
  | .unit ty p => below ty 8 && below p 256
  | .seq q => below q 68
  | .core c => below c 5
  | .ctl cs => below cs 9
  | .bank d b => below d 4 && below b 96
  | .hbm n => below n 4
  | .lpddr n => below n 2
  | .nand n => below n 8

/-- The header fields of a frame fit their widths (R257, R342). -/
def frameOk (f : Frame) : Bool :=
  below f.op 256 && below f.tc 8 && below f.src 65536 && below f.dst (2 ^ 60) && below f.comp 4096
    && below f.mapE 256 && below f.routeE 256 && below f.region 65536 && below f.rkey (2 ^ 32)
    && below f.stream (2 ^ 40) && below f.tag 65536 && below f.issueT (2 ^ 64) && below f.len 4097 && below f.subop 16 && below f.opw 4
    && below f.etype 16 && below f.group 16384 && below f.status 256 && below f.rsw 4096 && below f.colour 4
    && below f.data.length 4097

/-- A link frame's operation and content fit a flit (R341). -/
def linkFrameOk (f : LinkFrame) : Bool := below f.op 256 && below f.body.length 223

/-- A command whose operands name parts the module has. -/
def WellFormed : Instr → Bool
  | .registerWrite _ _ _ _ => true
  | .counterReadClear _ _ _ => true
  | .bootstrapDone _ _ => true
  | .intPendClear _ _ _ _ => true
  | .intMaskWrite _ _ _ _ => true
  | .lockAcquire _ n k => below n 256 && below k 256
  | .lockRelease _ n k _ => below n 256 && below k 256
  | .lockForce _ _ => true
  | .inHeadWrite _ m _ => below m 80
  | .outHeadRead _ m => below m 80
  | .ringConsWrite n _ => below n 19
  | .flagByteWrite _ _ => true
  | .bulkDataWrite _ _ => true
  | .bulkRead _ _ _ => true
  | .sbCapWrite _ _ => true
  | .snapshot _ _ => true
  | .fenceAll _ _ => true
  | .keyZeroise _ _ => true
  | .journalFlush _ _ => true
  | .warmReset _ _ => true
  | .coldReset _ _ => true
  | .powerOff _ _ => true
  | .remove _ _ => true
  | .cpInline m => below m 80
  | .cpBulk m => below m 80
  | .querySeq m => below m 80
  | .healthQuery m => below m 80
  | .malformedMessage m => below m 80
  | .recoveryImage => true
  | .programAccept m => below m 80
  | .mgmtCoreFailover core => below core 5
  | .doorbell f => frameOk f
  | .descriptorReadDone q status _ => below q 4096 && below status 256
  | .descriptorAccept q => below q 4096
  | .jobTake q => below q 68
  | .leaveGrant _ => true
  | .placement q => below q 68
  | .placementRetry part => below part 16
  | .pllLock die => below die 11
  | .jobStart q set wire => below q 68 && set.all (fun h => below h 65536) && wire.all (fun w => below w.1 24 && below w.2 (2 ^ 56))
  | .jobRetire q => below q 68
  | .completionWriteDone q status => below q 4096 && below status 256
  | .jobRunLimit q => below q 68
  | .jobRestart q err => below q 68 && errPartOk err
  | .sequencerScrubEnd q bad => below q 68 && bad.all fun b => below b 96
  | .unitIdleGate ty p => below ty 8 && below p 256
  | .pllIdleStop die => below die 11
  | .programTake cs => below cs 9
  | .watchdogExpiry cs => below cs 9
  | .halt iss => issuerOk iss
  | .loop iss => issuerOk iss
  | .endl iss => issuerOk iss
  | .br iss => issuerOk iss
  | .stream q n => below q 68 && below n 24
  | .gather q n => below q 68 && below n 24
  | .scatter q n => below q 68 && below n 24
  | .walkReadDone w status _ => below w 1024 && below status 256
  | .faultTableRetry => true
  | .faultRecordRetry part => below part 16
  | .meterBacklogWrite => true
  | .emitPut q n => below q 68 && below n 24
  | .emitTake q n => below q 68 && below n 24
  | .emitSeta q n => below q 68 && below n 24
  | .emitLda q n => below q 68 && below n 24
  | .emitLdt q n => below q 68 && below n 24
  | .emitStt q n => below q 68 && below n 24
  | .emitSetp q n => below q 68 && below n 24
  | .decode q n => below q 68 && below n 24
  | .decodeBlock q n => below q 68 && below n 24
  | .encode q n => below q 68 && below n 24
  | .encodeBlock q n => below q 68 && below n 24
  | .buildtab q n => below q 68 && below n 24
  | .mma q n => below q 68 && below n 24
  | .dot q n => below q 68 && below n 24
  | .scale q n => below q 68 && below n 24
  | .quant q n => below q 68 && below n 24
  | .dequant q n => below q 68 && below n 24
  | .smaxReset q n => below q 68 && below n 24
  | .smaxBlock q n => below q 68 && below n 24
  | .smaxEnd q n => below q 68 && below n 24
  | .exp q n => below q 68 && below n 24
  | .lsemerge q n => below q 68 && below n 24
  | .cmpSet q n => below q 68 && below n 24
  | .cmpAnd q n => below q 68 && below n 24
  | .cmpOr q n => below q 68 && below n 24
  | .cmpBound q n => below q 68 && below n 24
  | .topk q n => below q 68 && below n 24
  | .select q n => below q 68 && below n 24
  | .compact q n => below q 68 && below n 24
  | .redTile q n => below q 68 && below n 24
  | .redWelt q n => below q 68 && below n 24
  | .weltLaceContribution q n => below q 68 && below n 24
  | .weltTimeout q => below q 68
  | .redw q n => below q 68 && below n 24
  | .mcast q n => below q 68 && below n 24
  | .arrive iss => issuerOk iss
  | .signal iss => issuerOk iss
  | .waitcnt iss => issuerOk iss
  | .waitcntSatisfied iss => issuerOk iss
  | .waitcntTimeout iss => issuerOk iss
  | .mapSetRoute cs => below cs 9
  | .mapSetMember cs => below cs 9
  | .mapSetSpan cs => below cs 9
  | .mapEpoch cs => below cs 9
  | .mapEpochDrained cs => below cs 9
  | .compCreate cs => below cs 9
  | .compDestroy cs => below cs 9
  | .compDestroyEnd comp => below comp 4096
  | .extGrant cs => below cs 9
  | .extRevoke cs => below cs 9
  | .extentDrainEnd ext => below ext 262144
  | .extScrub cs => below cs 9
  | .extScrubEnd ext => below ext 262144
  | .keyLoad cs => below cs 9
  | .keyRetire cs => below cs 9
  | .keyDrainZeroise slot => below slot 4096
  | .keyRetireTimeout slot => below slot 4096
  | .ctxBind cs => below cs 9
  | .ctxUnbind cs => below cs 9
  | .asidInvalNone cs => below cs 9
  | .asidInvalRetryAll cs => below cs 9
  | .asidInvalAbort cs => below cs 9
  | .asidInvalDrained cs => below cs 9
  | .fenceComp cs => below cs 9
  | .fencePeer cs => below cs 9
  | .fenceReleasePeer cs => below cs 9
  | .fenceReleaseComp cs => below cs 9
  | .fenceCollected cs => below cs 9
  | .fenceTimeout cs => below cs 9
  | .handoffSend cs => below cs 9
  | .handoffAccept cs => below cs 9
  | .reclaim cs => below cs 9
  | .leaseOffer cs => below cs 9
  | .leaseAccept cs => below cs 9
  | .leaseRecall cs => below cs 9
  | .leaseReturn cs => below cs 9
  | .leaseRecallReceipt lease _ _ => below lease 256
  | .leaseEmptied lease => below lease 256
  | .leaseDeadline lease => below lease 256
  | .leaseLost lease status => below lease 256 && below status 256
  | .weightsRegister cs => below cs 9
  | .weightsHashDone w status _ => below w 4096 && below status 256
  | .weightsWithdraw cs => below cs 9
  | .weightsDrainEnd w => below w 4096
  | .tableStore cs status _ => below cs 9 && below status 256
  | .tableInstall cs => below cs 9
  | .installWaitEnd id => below id 65536
  | .installResident id => below id 65536
  | .tableRelease cs => below cs 9
  | .tableDelete cs => below cs 9
  | .tableDrainEnd id => below id 65536
  | .powerReq cs => below cs 9
  | .powerReqRelease cs => below cs 9
  | .spareSwap cs => below cs 9
  | .meterRead cs => below cs 9
  | .commitPattern cs status _ => below cs 9 && below status 256
  | .commitPatternDisable cs => below cs 9
  | .patternDrainEnd slot => below slot 4096
  | .commitSaSlice cs => below cs 9
  | .commitSaUnitmap cs => below cs 9
  | .commitSaPartcfg cs => below cs 9
  | .commitJobqEnable cs => below cs 9
  | .commitJobqDisable cs => below cs 9
  | .jobqDrainEnd q => below q 4096
  | .commitMbxbind cs => below cs 9
  | .commitSyncobj cs => below cs 9
  | .commitCopyeng cs => below cs 9
  | .commitMcgroupGroup cs => below cs 9
  | .commitMcgroupMember cs => below cs 9
  | .commitMeter cs => below cs 9
  | .commitSchedQueue cs => below cs 9
  | .commitSchedPort cs => below cs 9
  | .commitSchedShare cs => below cs 9
  | .commitGateEntry cs => below cs 9
  | .commitGateList cs => below cs 9
  | .commitMirrorSession cs => below cs 9
  | .commitMirrorSampler cs => below cs 9
  | .commitPort cs => below cs 9
  | .commitPortPair cs => below cs 9
  | .commitWindow cs => below cs 9
  | .commitAsid cs => below cs 9
  | .commitRegion cs => below cs 9
  | .commitPlacement cs => below cs 9
  | .commitFdtag cs => below cs 9
  | .commitPartitionPort cs => below cs 9
  | .commitPartitionPch cs => below cs 9
  | .commitPartitionReset cs => below cs 9
  | .partitionResetEnd part => below part 16
  | .sequencerStopTimeout iss => issuerOk iss
  | .commitTenant cs => below cs 9
  | .commitTenantPchAssign cs => below cs 9
  | .commitTenantPchRelease cs => below cs 9
  | .pchVacated ch => below ch 128
  | .pchScrubEnd ch => below ch 128
  | .commitTenantTrayport cs => below cs 9
  | .commitPhBudget cs => below cs 9
  | .commitPhSwap cs => below cs 9
  | .commitPhProof cs => below cs 9
  | .commitPhWeight cs => below cs 9
  | .commitLvLimits cs => below cs 9
  | .commitLvImage cs => below cs 9
  | .lvImageWriteEnd => true
  | .commitLvRtable cs => below cs 9
  | .commitLvExport cs => below cs 9
  | .lvExportWriteEnd _ => true
  | .readRequest f _ => frameOk f
  | .writeRequest f => frameOk f
  | .pwriteRequest f => frameOk f
  | .atomicRequest f => frameOk f
  | .redwRequest f => frameOk f
  | .mcwRequest f => frameOk f
  | .msgRequest f => frameOk f
  | .copyRing f => frameOk f
  | .copyChunkDone eng _ _ => below eng 32
  | .fenceRequest f => frameOk f
  | .arriveRequest f => frameOk f
  | .signalRequest f => frameOk f
  | .drainMarker f => frameOk f
  | .probe f => frameOk f
  | .cplReceive f => frameOk f
  | .taggedResend _ _ => true
  | .completionTimeout _ _ => true
  | .replyCacheExpiry i => below i 65536
  | .frameIngress f port => frameOk f && below port 200
  | .frameAdmit port _ => below port 200
  | .admissionTimeout port _ => below port 200
  | .egressSelect port => below port 200
  | .gateEntryBoundary port => below port 200
  | .gateCycleStart port => below port 200
  | .frameAgeOut port q => below port 200 && below q 64
  | .queueSample port => below port 200
  | .routeDrainAck switch => below switch 4096
  | .routeHoldTimeout _ => true
  | .portDown port => below port 192
  | .agingToService port => below port 192
  | .flitReceive port _ => below port 192
  | .creditFrame port f => below port 192 && linkFrameOk f
  | .timeSyncPeriod => true
  | .timeSyncFrame port f => below port 192 && linkFrameOk f
  | .timeReplyFrame port f => below port 192 && linkFrameOk f
  | .timeUpstreamTimeout => true
  | .holdoverTimeout => true
  | .dozeIdleTimeout port => below port 192
  | .dozeFrame port f => below port 192 && linkFrameOk f
  | .wakeFrame port f => below port 192 && linkFrameOk f
  | .wakeDelayEnd port => below port 192
  | .keySwitchFrame port f => below port 192 && linkFrameOk f
  | .macFrame port f => below port 192 && linkFrameOk f
  | .capsFrame port f => below port 192 && linkFrameOk f
  | .spareFrame port f => below port 192 && linkFrameOk f
  | .keymsgFrame port f => below port 192 && linkFrameOk f
  | .linkKey port _ => below port 192
  | .rekeyTimer port => below port 192
  | .partnerDetect port => below port 192
  | .trainingComplete port _ => below port 192
  | .trainRetry port => below port 192
  | .laneLockLoss port _ => below port 192
  | .retrainTimeout port => below port 192
  | .laneSwapStart lane => below lane 816
  | .spareLock pair => below pair 48
  | .spareSwitch pair => below pair 48
  | .spdmHeartbeatMiss _ => true
  | .spdmRequest _ _ => true
  | .setCertificate _ slot _ => below slot 8
  | .getCsr _ => true
  | .getMeasurements _ _ _ _ => true
  | .getReport _ _ comp _ => below comp 4096
  | .deliverKey _ _ _ _ => true
  | .discardKey _ _ => true
  | .deliveredKeyExpiry e => below e 256
  | .setOwner _ _ => true
  | .raiseFloor _ _ => true
  | .raiseEpoch _ => true
  | .seal _ _ => true
  | .debugUnlock _ _ _ => true
  | .getLc _ => true
  | .dirtyDrain _ => true
  | .segmentRelocate _ => true
  | .wearLevelMove pkg _ _ => below pkg 8
  | .pageRewrite _ _ _ _ _ _ => true
  | .holdupMeasure _ => true
  | .holdupCharged => true
  | .lpddrPackageFail n => below n 2
  | .nandPackageFail k => below k 8
  | .meterPeriodEnd comp => below comp 4096
  | .migrationStart _ toLoc _ => below toLoc 4
  | .subgrainCopyDone _ _ => true
  | .hbmPressureDrop _ => true
  | .mirrorResync ext => below ext 262144
  | .powerLoss => true
  | .overvoltage => true
  | .flushComplete => true
  | .powerGood => true
  | .bootIdentity => true
  | .firmwareLoad => true
  | .restore => true
  | .bootReady => true
  | .firmwareSilent => true
  | .hbmStackFail stack => below stack 4
  | .deviceAreaUe _ => true
  | .dieTemperature die _ => below die 11
  | .budgetThrottleSet _ => true
  | .budgetThrottleLift _ => true
  | .ageMonitorSample part _ => healthPartOk part
  | .ceSample part _ _ => healthPartOk part
  | .eyeSample lane _ _ => below lane 816
  | .swapWindowOpen => true
  | .proofCheckerWait q n => below q 68 && below n 24
  | .proofVerdict q n _ => below q 68 && below n 24
  | .proofRepeatVerdict q n _ _ => below q 68 && below n 24
  | .escalationEnd ty p => below ty 8 && below p 256
  | .proofBinLapse ty p bin => below ty 8 && below p 256 && below bin 32
  | .inputSwitchClose => true
  | .enBreak => true
  | .resetNAssert => true
  | .resetNRelease => true
  | .attnNAssert => true
  | .perstNChange _ => true
  | .retrainComplete port => below port 192
  | .controlSequencerFail cs => below cs 9
  | .removeStopDeadline => true
  | .inputPowerRestored => true
  | .undervoltOvervolt _ => true
  | .ideKmMessage _ _ => true
  | .smbusFallback => true
  | .dynamicAddressAssignment addr => below addr 128
  | .spareDeskewDone pair => below pair 48
  | .powerOnTestEnd => true
  | .converterRegulationLoss => true

end Sys2Proof
end

