-- ==== Sys2Proof/Safety.lean ====
section
/-! DEFINITION. The terms in which statements speak: a command that answers a next state with a
property, and the canonical form of the byte memories that every step keeps. -/

namespace Sys2Proof.Machine

/-- The command runs on the state and answers a next state of which `P` holds. -/
def Answers (c : Instr) (s : State) (P : State → Prop) : Prop := ∃ t, exec c s = .next t ∧ P t

/-- The byte memories the module holds (the bulk window's data and ownership flags, pool HBM) in
their canonical form: addresses strictly rising, no listed byte equal to what an unlisted one reads. -/
def MemoriesCanonical (s : State) : Prop :=
  Memory.wf s.cc.bulk = true ∧ Memory.wf s.cc.flags = true ∧ Memory.wf s.tr.hbm = true

/-- A control sequencer executes, its instruction has an opcode and its guard holds, staging does not wait, and its
descriptor is `d` (R86, R94, R253). -/
abbrev Presents (s : State) (cs opc : Nat) (d : List W64) : Prop :=
  ctlActive s cs = true ∧ (ctlIns s cs).opc = opc ∧ guardOn (ctl s cs).p (ctlIns s cs) = true ∧ stagingWaits s = false
    ∧ ctlDesc s cs (ctlIns s cs) = some d

/-- No later change of the object stands, and in this cycle no other control sequencer was granted it (R77, R96). -/
abbrev Fresh (s : State) (cs opc key : Nat) : Prop :=
  stampPast s key (ctl s cs) = false ∧ commitLost s cs opc key = false

/-- The instruction of a control sequencer has completed with a reason code (R87): s31 holds it, the ordinal has counted,
the pc has advanced and the sequencer waits for nothing. -/
abbrev Completed (s t : State) (cs reason : Nat) : Prop :=
  sGet (ctl t cs).s 31 = w64 reason ∧ (ctl t cs).ordinal = (ctl s cs).ordinal + 1 ∧ (ctl t cs).pc = (ctl s cs).pc + 1
    ∧ (ctl t cs).wait = .none

/-- A COMMIT has completed with a reason code, and s30 holds the object's status word (R87, R574). -/
abbrev Committed (s t : State) (cs reason : Nat) (w : W64) : Prop := Completed s t cs reason ∧ sGet (ctl t cs).s 30 = w

/-- A grain at a pool offset stands in HBM alone: its extent has no tray backing and is not sealed, its key slot is live
and no grain moves (R384, R387). -/
abbrev InHbm (s : State) (x off : Nat) : Prop :=
  (tier s (off / grainB)).loc = 2 ∧ (ext s x).bport = 0xFF ∧ (ext s x).mirror = false ∧ s.tr.moves = []
    ∧ sealedExt s (ext s x) = false ∧ slotActive s (ext s x).kslot (ext s x).kgen = true

/-- The HBM address of a pool offset whose grain stands in HBM. -/
def hbmAddr (s : State) (off : Nat) : Nat := (tier s (off / grainB)).frame * grainB + off % grainB

/-- A request for pool memory passes the checks of R262 on this switch, and no earlier one holds its lines. -/
abbrev Admitted (s : State) (f : Frame) : Prop :=
  atTarget s f = true ∧ formOk f = true ∧ isLease f = false ∧ (epochFence s f).1 = 0 ∧ faOff f.dst < objBase
    ∧ (regionCheck s f).1 = 0 ∧ (lastChecks s f).1 = 0 ∧ memWaits s f = false

/-- Every byte of a memory outside `n` bytes from `a` reads as before. -/
def SameOutside (m m' : Mem) (a n : Nat) : Prop := ∀ b, b < a ∨ a + n ≤ b → memGet m' b = memGet m b

/-- The instruction at a control sequencer's pc has an opcode, and its guard is on (R86, R89). -/
abbrev CtlReady (s : State) (cs opc : Nat) : Prop :=
  ctlActive s cs = true ∧ (ctlIns s cs).opc = opc ∧ guardOn (ctl s cs).p (ctlIns s cs) = true

/-- The same of a seam sequencer. -/
abbrev SeqReady (s : State) (q opc : Nat) : Prop :=
  seqLive s q = true ∧ (seqIns s q).opc = opc ∧ guardOn (seam s q).p (seqIns s q) = true

/-- The same of a stage, which also waits for no verdict on a held tile (R518). -/
abbrev StageReady (s : State) (q n opc : Nat) : Prop :=
  stageLive s q n = true ∧ (stageIns s q n).opc = opc ∧ guardOn (stage s q n).p (stageIns s q n) = true
    ∧ holdWaits (stage s q n) (stageIns s q n) = false

/-- The same of a stage at a tile instruction, whose sample would not wait for another (R517). -/
abbrev TileReady (s : State) (q n opc : Nat) : Prop := StageReady s q n opc ∧ tileWaits s (stage s q n) = false

/-- A stage holds the results of a tile instruction and is past it; only what Proof holds of it is left open. -/
def Wrote (s t : State) (q n : Nat) (o : TileOut) : Prop :=
  { stage t q n with hold := none } = { stageNext (writeTiles (stage s q n) o) with hold := none }

/-- Of all seams only seam `q` has changed. -/
def SeamOnly (s t : State) (q : Nat) : Prop := ∀ k, k ≠ q → seam t k = seam s k

/-- Of all stages only stage `n` of seam `q` has changed, and the seam has changed in nothing else. -/
def StageOnly (s t : State) (q n : Nat) : Prop :=
  SeamOnly s t q ∧ (∀ k, k ≠ n → stage t q k = stage s q k) ∧ seam t q = { seam s q with stages := (seam t q).stages }

end Sys2Proof.Machine
end

