-- ==== Sys2Proof/Certificates/Slice0/Obligations.lean ====
section
/-! DEFINITION. The statements for the provers. Each clause says on which states a command completes and
what the next state is; an equation `t = …` with parts of `t` on its right says that all else is as before. -/

open Sys2Proof Sys2Proof.Machine

/-- Register writes, read-clear counters and interrupt registers. For every state, an access that the tests of R7, R36 and R572 let through completes: a CXL.io write of a bootstrap register before DONE stores the field and nothing else; a read of a counter that clears on read returns the value and leaves zero, of its half that half alone, and time that sequencers wait so far is counted first; a read of any other register returns its word, of a lock alias or OUT_HEAD has its effect through the low half, and over the sideband is zero where it does not reach; a write of 1 to pending bits clears exactly these; a write of CC_INT_MASK stores the mask; a sideband write of PH_SB_CAP stores the clamped cap; and setting DONE locks the bootstrap set or records the reason. -/
def Obligations.HostRegisterWrites : Prop :=
  (∀ (s : State) (v : W64), access s .cxl 0x100400 8 = .served → s.cc.bootDone = false → s.cc.stage = 6 → exec (.registerWrite .cxl 0x100400 8 v) s = .next ({ s with resp := .ok, cc := { s.cc with genBase := v.toNat % 2 ^ 34 } })) ∧
  (∀ (s : State) (v : W64), access s .cxl 0x100400 8 = .served → s.cc.bootDone = true → exec (.registerWrite .cxl 0x100400 8 v) s = .next ({ s with resp := .ok })) ∧
  (∀ (s : State) (off : Nat) (c : CtrSel), access s .cxl off 8 = .served → ctrSel off = some c → exec (.counterReadClear .cxl off 8) s = .next (ctrSet { tallyAll { s with resp := .ok } c with resp := .data (ctrGet (tallyAll { s with resp := .ok } c) c) } c 0)) ∧
  (∀ (s : State) (off : Nat) (c : CtrSel), access s .cxl off 4 = .served → ctrSel (off / 8 * 8) = some c → exec (.counterReadClear .cxl off 4) s = .next (ctrSet { (tallyAll { s with resp := .ok } c) with resp := .data (readPart off 4 (ctrGet (tallyAll { s with resp := .ok } c) c)) } c (ctrGet (tallyAll { s with resp := .ok } c) c &&& ~~~(accessMask off 4)))) ∧
  (∀ (s : State) (off : Nat), access s .cxl off 8 = .served → ctrSel off = some (.sa 6) → Answers (.counterReadClear .cxl off 8) s fun t => tget 0 t.sa.ctr 6 = 0 ∧ t = ctrSet { tallyAll { s with resp := .ok } (.sa 6) with resp := .data (ctrGet (tallyAll { s with resp := .ok } (.sa 6)) (.sa 6)) } (.sa 6) 0) ∧
  (∀ (s : State) (off size : Nat), access s .cxl off size = .served → isAlias (off / 8 * 8) = false → isOutHead (off / 8 * 8) = false → ctrSel (off / 8 * 8) = none → exec (.counterReadClear .cxl off size) s = .next ({ s with resp := .data (readPart off size (regWord { s with resp := .ok } (off / 8 * 8))) })) ∧
  (∀ (s : State) (off : Nat), access s .cxl off 4 = .served → off % 8 = 4 → aliasBarred off = false → isAlias (off / 8 * 8) = true ∨ isOutHead (off / 8 * 8) = true → exec (.counterReadClear .cxl off 4) s = .next ({ s with resp := .data 0 })) ∧
  (∀ (s : State) (off size : Nat), access s .cxl off size = .served → off % 8 = 0 → aliasBarred off = false → isAlias off = true → exec (.counterReadClear .cxl off size) s = .next (lockRead { s with resp := .ok } ((off - 0x80000) / 0x800) (off % 0x800 / 8))) ∧
  (∀ (s : State) (off size : Nat), access s .cxl off size = .served → off % 8 = 0 → isOutHead off = true → exec (.counterReadClear .cxl off size) s = .next (outHead { s with resp := .ok } (mbxOf off))) ∧
  (∀ (s : State) (off size : Nat), access s .cxl off size = .unsupported ∨ (access s .cxl off size = .served ∧ aliasBarred off = true) → exec (.counterReadClear .cxl off size) s = .next ({ s with resp := .unsupported })) ∧
  (∀ (s : State) (off size : Nat), access s .cxl off size = .absent → exec (.counterReadClear .cxl off size) s = .next ({ s with resp := .none })) ∧
  (∀ (s : State) (off : Nat), access s .sideband off 8 = .served → sidebandReach off = true → isAlias off = false → isOutHead off = false → exec (.counterReadClear .sideband off 8) s = .next ({ s with resp := .data (sidebandWord { s with resp := .ok } off) })) ∧
  (∀ (s : State) (off : Nat), access s .sideband off 8 = .served → sidebandReach off = false → exec (.counterReadClear .sideband off 8) s = .next ({ s with resp := .data 0 })) ∧
  (∀ (s : State) (off : Nat), unpowered s = false → off % 8 ≠ 0 → exec (.counterReadClear .sideband off 8) s = .next ({ s with resp := .data 0 })) ∧
  (∀ (s : State) (off : Nat), access s .sideband off 8 = .served → sidebandReach off = true → isAlias off = true → exec (.counterReadClear .sideband off 8) s = .next (lockRead { s with resp := .ok } 254 (off % 0x800 / 8))) ∧
  (∀ (s : State) (off : Nat), access s .sideband off 8 = .served → sidebandReach off = true → isOutHead off = true → exec (.counterReadClear .sideband off 8) s = .next (outHead { s with resp := .ok } 79)) ∧
  (∀ (s : State) (v : W64), access s .cxl 0x1000 8 = .served → s.cc.bootDone = false → s.cc.stage = 6 → bit v 0 = true → bootstrapReason s = 0 → Answers (.bootstrapDone .cxl v) s fun t => t.cc.bootDone = true ∧ t.cc.bootReason = 0 ∧ t.cc.ideRequired = bit v 1 ∧ t = ((List.range 16) ++ [18]).foldl flushHeld { { s with resp := .ok } with cc := { s.cc with ideRequired := bit v 1, bootReason := 0, bootDone := true } }) ∧
  (∀ (s : State) (v : W64), access s .cxl 0x1000 8 = .served → s.cc.bootDone = false → s.cc.stage = 6 → bit v 0 = true → bootstrapReason s ≠ 0 → exec (.bootstrapDone .cxl v) s = .next ({ s with resp := .ok, cc := { s.cc with ideRequired := bit v 1, bootReason := bootstrapReason s } })) ∧
  (∀ (s : State) (v : W64), access s .cxl 0x20 8 = .served → Answers (.intPendClear .cxl 0x20 8 v) s fun t => t.cc.intStatus = s.cc.intStatus &&& ~~~(v &&& intBits) ∧ (t.cc.ueValid = (s.cc.ueValid && !(bit v 23 && bit s.cc.intStatus 23))) ∧ t = intStatusClear { s with resp := .ok } (accessData 0x20 8 v &&& accessMask 0x20 8)) ∧
  (∀ (s : State) (v : W64), access s .cxl 0x28 8 = .served → Answers (.intMaskWrite .cxl 0x28 8 v) s fun t => t.cc.intMask = v &&& intBits ∧ t = intMaskWrite { s with resp := .ok } (accessData 0x28 8 v) (accessMask 0x28 8)) ∧
  (∀ (s : State) (v : W64), access s .cxl 0x30 8 = .served → Answers (.intPendClear .cxl 0x30 8 v) s fun t => t = mbxPendClear { s with resp := .ok } (accessData 0x30 8 v &&& accessMask 0x30 8)) ∧
  (∀ (s : State) (v : W64), access s .cxl 0x38 8 = .served → Answers (.intMaskWrite .cxl 0x38 8 v) s fun t => t = mbxMaskWrite { s with resp := .ok } (accessData 0x38 8 v) (accessMask 0x38 8)) ∧
  (∀ (s : State) (v : W64), access s .sideband 0x400020 8 = .served → exec (.sbCapWrite .sideband v) s = .next ({ s with resp := .ok, ph := { s.ph with sbCap := max 300 (min 1500 (v.toNat % 65536)) } }))

/-- Locks are taken by a read, freed by their owner, and freed by force. A served read by requester n at its alias returns the owner before the read and takes a lock that was free; a write by the owner of its own number at its own alias frees the lock, and any other write to an alias changes nothing; a write of k to CC_LOCK_FORCE frees lock k whatever its owner (R59), and a release write to a lock that is not the writer's is then ignored. -/
def Obligations.LockCommands : Prop :=
  (∀ (s : State) (n k : Nat), access s .cxl (0x80000 + n * 0x800 + k * 8) 8 = .served → 1 ≤ n → n ≤ 239 → k < 256 → lockOwner s k = 0 → Answers (.lockAcquire .cxl n k) s fun t => lockOwner t k = n ∧ t = { s with resp := .data 0, cc := { s.cc with locks := tput 0 s.cc.locks k n } }) ∧
  (∀ (s : State) (n k : Nat), access s .cxl (0x80000 + n * 0x800 + k * 8) 8 = .served → 1 ≤ n → n ≤ 239 → k < 256 → lockOwner s k ≠ 0 → exec (.lockAcquire .cxl n k) s = .next ({ s with resp := .data (w64 (lockOwner s k)) })) ∧
  (∀ (s : State) (n k : Nat) (v : W64), access s .cxl (0x80000 + n * 0x800 + k * 8) 8 = .served → 1 ≤ n → n ≤ 239 → k < 256 → lockOwner s k = n → v.toNat = n → Answers (.lockRelease .cxl n k v) s fun t => lockOwner t k = 0 ∧ t = { s with resp := .ok, cc := { s.cc with locks := tput 0 s.cc.locks k 0 } }) ∧
  (∀ (s : State) (n k : Nat) (v : W64), access s .cxl (0x80000 + n * 0x800 + k * 8) 8 = .served → 1 ≤ n → n ≤ 239 → k < 256 → ¬(lockOwner s k = n ∧ v.toNat = n) → exec (.lockRelease .cxl n k v) s = .next ({ s with resp := .ok })) ∧
  (∀ (s : State) (v : W64), access s .cxl 0x2010 8 = .served → v.toNat < 256 → Answers (.lockForce .cxl v) s fun t => lockOwner t v.toNat = 0 ∧ t = { s with resp := .ok, cc := { s.cc with locks := tput 0 s.cc.locks v.toNat 0 } })

/-- Mailbox heads and ring consumer counts follow R48, R49 and R66. A served write of IN_HEAD with LEN 1 to 16 to an empty half makes the message valid; LEN 0 or above 16 sets MALFORMED; while FULL is set the write sets OVERRUN and nothing else. A read of OUT_HEAD returns FULL and LEN and clears FULL. A CONS write between PROD − 2^SIZE and PROD is taken, and any other is ignored. -/
def Obligations.MailboxHalvesAndRings : Prop :=
  (∀ (s : State) (m : Nat) (v : W64), access s .cxl (0x10000 + m * 0x200 + 0x80) 8 = .served → m < 79 → (mbx s m).inFull = false → 1 ≤ fld v 0 5 → fld v 0 5 ≤ 16 → exec (.inHeadWrite .cxl m v) s = .next (setMbx { s with resp := .ok } m { mbx s m with inFull := true, inLen := fld v 0 5 })) ∧
  (∀ (s : State) (m : Nat) (v : W64), access s .cxl (0x10000 + m * 0x200 + 0x80) 8 = .served → m < 79 → (mbx s m).inFull = false → fld v 0 5 = 0 ∨ 16 < fld v 0 5 → exec (.inHeadWrite .cxl m v) s = .next (setMbx { s with resp := .ok } m { mbx s m with malformed := true })) ∧
  (∀ (s : State) (m : Nat) (v : W64), access s .cxl (0x10000 + m * 0x200 + 0x80) 8 = .served → m < 80 → (mbx s m).inFull = true → exec (.inHeadWrite .cxl m v) s = .next (setMbx { s with resp := .ok } m { mbx s m with overrun := true })) ∧
  (∀ (s : State) (m : Nat), access s .cxl (0x10000 + m * 0x200 + 0x180) 8 = .served → m < 80 → (mbx s m).outFull = true → (mbx s m).outWait = [] → exec (.outHeadRead .cxl m) s = .next (setMbx { s with resp := .data (headWord true (mbx s m).outLen) } m { mbx s m with outFull := false })) ∧
  (∀ (s : State) (m : Nat) (w : List W64) (l : List (List W64)), access s .cxl (0x10000 + m * 0x200 + 0x180) 8 = .served → m < 80 → (mbx s m).outFull = true → (mbx s m).outWait = w :: l → exec (.outHeadRead .cxl m) s = .next (putOut (setMbx { s with resp := .data (headWord true (mbx s m).outLen) } m { mbx s m with outFull := false, outWait := l }) m w)) ∧
  (∀ (s : State) (m : Nat), access s .cxl (0x10000 + m * 0x200 + 0x180) 8 = .served → m < 80 → (mbx s m).outFull = false → exec (.outHeadRead .cxl m) s = .next ({ s with resp := .data (headWord false (mbx s m).outLen) })) ∧
  (∀ (s : State) (m : Nat), access s .cxl (0x10000 + m * 0x200 + 0x180) 8 = .served → 80 ≤ m → exec (.outHeadRead .cxl m) s = .next ({ s with resp := .data 0 })) ∧
  (∀ (s : State) (n : Nat) (v : W64), access s .cxl (0x100000 + n * 0x20 + 0x18) 8 = .served → n < 19 → ((ring s n).prod - w32 v.toNat).toNat ≤ 2 ^ (ring s n).size → Answers (.ringConsWrite n v) s fun t => (ring t n).cons = w32 v.toNat ∧ (ring t n).prod = (ring s n).prod ∧ t = ringCons { s with resp := .ok } n v) ∧
  (∀ (s : State) (n : Nat) (v : W64), access s .cxl (0x100000 + n * 0x20 + 0x18) 8 = .served → n < 19 → 2 ^ (ring s n).size < ((ring s n).prod - w32 v.toNat).toNat → exec (.ringConsWrite n v) s = .next ({ s with resp := .ok }))

/-- Host stores to the bulk window obey ownership flags. A CXL.mem write of one flag byte of a general-area page is stored when it flips or keeps a host-owned flag, and otherwise leaves the flag and counts one violation; a write to data pages that are all host-owned stores its bytes under byte enables, and one that touches a device-owned page stores nothing and counts one violation; a read returns the bytes and changes nothing but the answer. -/
def Obligations.BulkWindowCommands : Prop :=
  (∀ (s : State) (p : Nat) (b : Byte), s.hw.perstLow = false → windowOff s = false → memDropped s = false → pageInGen s p = true → bit (memGet s.cc.flags p) 0 = false → b = memGet s.cc.flags p ∨ b = flipByte (memGet s.cc.flags p) → exec (.flagByteWrite p [some b]) s = .next ({ s with resp := .ok, cc := { s.cc with flags := memPut s.cc.flags p b } })) ∧
  (∀ (s : State) (p : Nat) (b : Byte), s.hw.perstLow = false → windowOff s = false → memDropped s = false → pageInGen s p = true → bit (memGet s.cc.flags p) 0 = true ∨ (b ≠ memGet s.cc.flags p ∧ b ≠ flipByte (memGet s.cc.flags p)) → Answers (.flagByteWrite p [some b]) s fun t => t.cc.flags = s.cc.flags ∧ t.cc.bulk = s.cc.bulk ∧ t.cc.bulkViol = satInc s.cc.bulkViol 1 ∧ t = flagWrite { s with resp := .ok } p [some b]) ∧
  (∀ (s : State) (p : Nat) (l : List (Option Byte)), s.hw.perstLow = false → windowOff s = false → memDropped s = false → Answers (.flagByteWrite p l) s fun t => t = flagWrite { s with resp := .ok } p l) ∧
  (∀ (s : State) (p : Nat) (l : List (Option Byte)), s.hw.perstLow = false → windowOff s = false → memDropped s = true → exec (.flagByteWrite p l) s = .next (bulkViolation { s with resp := .none } 1)) ∧
  (∀ (s : State) (off : Nat) (data : List (Option Byte)), s.hw.perstLow = false → windowOff s = false → memDropped s = false → 0x400000 ≤ off → (pagesOf off data.length).any (fun p => devOwned s p) = false → exec (.bulkDataWrite off data) s = .next ({ s with resp := .ok, cc := { s.cc with bulk := memWriteBE s.cc.bulk off data } })) ∧
  (∀ (s : State) (off : Nat) (data : List (Option Byte)), s.hw.perstLow = false → windowOff s = false → memDropped s = false → 0x400000 ≤ off → data ≠ [] → (pagesOf off data.length).any (fun p => devOwned s p) = true → Answers (.bulkDataWrite off data) s fun t => t.cc.bulk = s.cc.bulk ∧ t.cc.bulkViol = satInc s.cc.bulkViol 1 ∧ t = bulkWrite { s with resp := .ok } off data) ∧
  (∀ (s : State) (off : Nat) (data : List (Option Byte)), s.hw.perstLow = false → windowOff s = false → memDropped s = true → exec (.bulkDataWrite off data) s = .next (bulkViolation { s with resp := .none } 1)) ∧
  (∀ (s : State) (off : Nat) (data : List (Option Byte)), s.hw.perstLow = false → windowOff s = false → memDropped s = false → off < 0x400000 → Answers (.bulkDataWrite off data) s fun t => t = flagWrite { s with resp := .ok } off data) ∧
  (∀ (s : State) (off : Nat) (data : List (Option Byte)), s.hw.perstLow = true ∨ windowOff s = true → exec (.bulkDataWrite off data) s = .next ({ s with resp := .none })) ∧
  (∀ (s : State) (off len : Nat), s.hw.perstLow = false → windowOff s = false → memDropped s = false → exec (.bulkRead off len none) s = .next ({ s with resp := .bytes (bulkRead s off len) })) ∧
  (∀ (s : State) (off len : Nat) (u : Option Nat), s.hw.perstLow = false → windowOff s = false → memDropped s = true → exec (.bulkRead off len u) s = .next (bulkViolation { s with resp := .none } 1)) ∧
  (∀ (s : State) (off len a : Nat), s.hw.perstLow = false → windowOff s = false → memDropped s = false → Answers (.bulkRead off len (some a)) s fun t => t.resp = .bytes (List.replicate len 0xFF) ∧ t.cc.ueValid = true ∧ bit t.cc.intStatus 23 = true ∧ t.cc.ueOffset = (if s.cc.ueValid then s.cc.ueOffset else a % 2 ^ 34) ∧ t = raiseEvent { s with resp := .bytes (List.replicate len 0xFF), cc := (if s.cc.ueValid then s.cc else { s.cc with ueValid := true, ueOffset := a % 2 ^ 34 }) } 23)

/-- Messages are taken, answered and staged. A well-formed message in a served mailbox is taken, so its inbound FULL clears. A query is answered with the sequence number of the last accepted entry or with the health summary; an inline or bulk program that passes every test of R575 is staged; a message with a wrong length, a reserved bit or an unknown kind is answered CP_REFUSED with MBX_MALFORMED. Nothing outside the mailbox, the staging list and the interrupt state changes. -/
def Obligations.MailboxMessageCommands : Prop :=
  (∀ (s : State) (m : Nat), msgReady s m 1 = true → msgBarred s m 1 = false → imageReason (mbx s m).priv (wordsBytes ((List.range ((mbx s m).inLen - 1)).map fun i => inMsg s m (i + 1))) = 0 → progRetry s m (8 * ((mbx s m).inLen - 1)) = false → Answers (.cpInline m) s fun t => (mbx t m).inFull = false ∧ (mbx t m).running = (mbx s m).running + 1 ∧ t.cc.staged = s.cc.staged ++ [{ mailbox := m, tag := msgTag s m, priv := (mbx s m).priv, part := (mbx s m).part, comp := (mbx s m).comp, image := wordsBytes ((List.range ((mbx s m).inLen - 1)).map fun i => inMsg s m (i + 1)) }] ∧ t = stageProg (takeMsg s m) m (msgTag s m) (wordsBytes ((List.range ((mbx s m).inLen - 1)).map fun i => inMsg s m (i + 1))) none) ∧
  (∀ (s : State) (m : Nat), msgReady s m 1 = true → msgBarred s m 1 = false → imageReason (mbx s m).priv (wordsBytes ((List.range ((mbx s m).inLen - 1)).map fun i => inMsg s m (i + 1))) ≠ 0 → exec (.cpInline m) s = .next (cpRefused (takeMsg s m) m (msgTag s m) 3 (imageReason (mbx s m).priv (wordsBytes ((List.range ((mbx s m).inLen - 1)).map fun i => inMsg s m (i + 1)))))) ∧
  (∀ (s : State) (m : Nat), msgReady s m 1 = true → msgBarred s m 1 = true → exec (.cpInline m) s = .next (cpRefused (takeMsg s m) m (msgTag s m) 3 0x0003)) ∧
  (∀ (s : State) (m : Nat), msgReady s m 2 = true → msgBarred s m 2 = false → (inMsg s m 2).toNat ≠ 0 → (inMsg s m 2).toNat % 8 = 0 → (inMsg s m 2).toNat ≤ 65536 → (inMsg s m 1).toNat % 4096 = 0 → pagesInGen s (inMsg s m 1).toNat (inMsg s m 2).toNat = true → pagesOwned s (inMsg s m 1).toNat (inMsg s m 2).toNat = true → imageReason (mbx s m).priv (bulkRead s (inMsg s m 1).toNat (inMsg s m 2).toNat) = 0 → progRetry s m (inMsg s m 2).toNat = false → Answers (.cpBulk m) s fun t => (mbx t m).inFull = false ∧ t.cc.staged = s.cc.staged ++ [{ mailbox := m, tag := msgTag s m, priv := (mbx s m).priv, part := (mbx s m).part, comp := (mbx s m).comp, image := bulkRead s (inMsg s m 1).toNat (inMsg s m 2).toNat, bulkOff := some (inMsg s m 1).toNat }] ∧ t = stageProg (takeMsg s m) m (msgTag s m) (bulkRead s (inMsg s m 1).toNat (inMsg s m 2).toNat) (some (inMsg s m 1).toNat)) ∧
  (∀ (s : State) (m : Nat), msgReady s m 3 = true → msgBarred s m 3 = false → (mbx s m).outFull = false → Answers (.querySeq m) s fun t => (mbx t m).inFull = false ∧ (mbx t m).outFull = true ∧ (mbx t m).outQ = [replyHead 0x84 (msgTag s m), w64 s.lv.lastSeq, w64 s.now] ∧ t = putOut (takeMsg s m) m [replyHead 0x84 (msgTag s m), w64 s.lv.lastSeq, w64 s.now]) ∧
  (∀ (s : State) (m : Nat), msgReady s m 3 = true → msgBarred s m 3 = false → exec (.querySeq m) s = .next (queryReply (takeMsg s m) m (msgTag s m) (w64 s.lv.lastSeq))) ∧
  (∀ (s : State) (m : Nat), msgReady s m 4 = true → msgBarred s m 4 = false → (mbx s m).outFull = false → Answers (.healthQuery m) s fun t => (mbx t m).inFull = false ∧ (mbx t m).outFull = true ∧ (mbx t m).outQ = [replyHead 0x84 (msgTag s m), healthWord s, w64 s.now] ∧ t = putOut (takeMsg s m) m [replyHead 0x84 (msgTag s m), healthWord s, w64 s.now]) ∧
  (∀ (s : State) (m : Nat), mbxServed s m = true → msgWellFormed s m = false → (mbx s m).outFull = false → Answers (.malformedMessage m) s fun t => (mbx t m).inFull = false ∧ (mbx t m).outQ = [replyHead 0x83 (msgTag s m), 0, statusReason 3 0x0107] ∧ t = putOut (takeMsg s m) m [replyHead 0x83 (msgTag s m), 0, statusReason 3 0x0107])

/-- A program is accepted, taken by a control sequencer and ended by the watchdog. A staged program is accepted under the next sequence number, its record joins the journal and CP_ACCEPT names that number. A free control sequencer takes the oldest program of the next partition with none running, with s6 holding its sequence number. A program that runs beyond CC_CP_WDOG leaves its sequencer idle and its record leaves the journal. A failed management core is marked, and nothing else changes. -/
def Obligations.ProgramLifeCommands : Prop :=
  (∀ (s : State) (m : Nat) (g : StagedProg), working s = true → (s.cc.staged.find? fun g => decide (g.mailbox = m)) = some g → g.bulkOff = none → (mbx s m).outFull = false → Answers (.programAccept m) s fun t => t.cc.staged = s.cc.staged.erase g ∧ t.lv.nextSeq = s.lv.nextSeq + 1 ∧ t.lv.lastSeq = s.lv.nextSeq ∧ t.lv.recs = s.lv.recs ++ [{ seq := s.lv.nextSeq, kind := .program, entries := progEntries g.image.length, part := g.part, comp := g.comp, mailbox := m, priv := g.priv, tag := g.tag, length := g.image.length, body := g.image, accepted := s.now, seg := t.lv.openSeg }] ∧ (mbx t m).outQ = [replyHead 0x81 g.tag, w64 s.lv.nextSeq, 0] ∧ t = putOut (stageRecord { s with cc := { s.cc with staged := (s.cc.staged.erase g) } } { kind := .program, entries := progEntries g.image.length, part := g.part, comp := g.comp, mailbox := m, priv := g.priv, tag := g.tag, length := g.image.length, body := g.image }) m [replyHead 0x81 g.tag, w64 s.lv.nextSeq, 0]) ∧
  (∀ (s : State) (m o : Nat) (g : StagedProg), working s = true → (s.cc.staged.find? fun g => decide (g.mailbox = m)) = some g → g.bulkOff = some o → exec (.programAccept m) s = .next (postOut (flipPages (stageRecord { s with cc := { s.cc with staged := (s.cc.staged.erase g) } } { kind := .program, entries := progEntries g.image.length, part := g.part, comp := g.comp, mailbox := m, priv := g.priv, tag := g.tag, length := g.image.length, body := g.image }) o g.image.length) m [replyHead 0x81 g.tag, w64 s.lv.nextSeq, 0])) ∧
  (∀ (s : State) (cs p : Nat) (r : JRec), working s = true → cs < 9 → (ctl s cs).state = 0 → stagingWaits s = false → startsBarred s = false → nextPart s = some p → oldest (waitingProgs s p) = some r → r.priv = 1 ∨ (fenced s r.comp = false ∧ (comp s r.comp).state ≠ 0 ∧ (comp s r.comp).state ≠ 4) → Answers (.programTake cs) s fun t => ctl t cs = { state := 1, seqNo := r.seq, part := r.part, priv := r.priv, comp := r.comp, mailbox := r.mailbox, tag := r.tag, image := r.body, s := sPut [] 6 (w64 r.seq), started := s.now } ∧ t.cc.rrPart = (p + 1) % 16 ∧ t = setCtl { markStarted s r.seq with cc := { s.cc with rrPart := (p + 1) % 16 } } cs { state := 1, seqNo := r.seq, part := r.part, priv := r.priv, comp := r.comp, mailbox := r.mailbox, tag := r.tag, image := r.body, s := sPut [] 6 (w64 r.seq), started := s.now }) ∧
  (∀ (s : State) (cs : Nat), working s = true → cs < 9 → (ctl s cs).state = 1 → (ctl s cs).started + s.cc.wdog * 1000 ≤ s.now → (ctl s cs).wait = .none → (ctl s cs).leave = false → s.ph.partDue = [] → (mbx s (ctl s cs).mailbox).outFull = false → Answers (.watchdogExpiry cs) s fun t => (ctl t cs).state = 0 ∧ (mbx t (ctl s cs).mailbox).outQ = [replyHead 0x82 (ctl s cs).tag, w64 (ctl s cs).seqNo, statusReason 0x0E (fld (sGet (ctl s cs).s 31) 0 16), w64 s.now] ∧ t = progEnd s cs 0x0E (fld (sGet (ctl s cs).s 31) 0 16)) ∧
  (∀ (s : State) (core : Nat), core < 5 → exec (.mgmtCoreFailover core) s = .next (unpend { s with cc := { s.cc with mgmtFailed := (s.cc.mgmtFailed|||2^core) } } (8 * 256 + core)))

/-- Compositions are created, mapped, destroyed and freed. COMP.CREATE whose checks pass makes a free number a composition in state CREATED with the descriptor's partition, tenant and defaults; MAP.SET writes a route under the next route epoch or an entry of the prepared map; MAP.EPOCH makes the prepared map current under the next epoch, or waits while the previous epoch is busy, and then does so when it has drained; COMP.DESTROY puts the composition in DESTROYING under its fence, and its end frees the number. Each instruction completes with s31 zero, the ordinal and pc advanced, and the blocks it does not name stand as before. -/
def Obligations.CompositionCommands : Prop :=
  (∀ (s : State) (cs : Nat) (d : List W64), Presents s cs 0x82 d → stampPast s (stampKey okComp (df d 0 0 12)) (ctl s cs) = false → createReason s d = 0 → Answers (.compCreate cs) s fun t => Completed s t cs 0 ∧ comp t (df d 0 0 12) = { state := 1, status := { enabled := true }, tenant := df d 0 48 16, resv := df d 2 0 16, part := df d 0 16 4, fatal := decide (df d 0 24 1 = 1), cto := (if df d 1 0 17 = 0 then 50 else df d 1 0 17), mperiod := (if df d 1 32 16 = 0 then 1000 else df d 1 32 16), meter := { start := s.now } } ∧ (fenceOf t (df d 0 0 12)).comp = false ∧ (fenceOf t (df d 0 0 12)).reason = 0 ∧ t = ctlComplete { s with te := { s.te with fences := tput {} s.te.fences (df d 0 0 12) { tget {} s.te.fences (df d 0 0 12) with comp := (tget {} t.te.fences (df d 0 0 12)).comp, reason := (tget {} t.te.fences (df d 0 0 12)).reason } }, tr := { s.tr with comps := tput {} s.tr.comps (df d 0 0 12) (tget {} t.tr.comps (df d 0 0 12)) } } cs 0 none (some (stampKey okComp (df d 0 0 12))) 64) ∧
  (∀ (s : State) (cs : Nat) (d : List W64), Presents s cs 0x82 d → stampPast s (stampKey okComp (df d 0 0 12)) (ctl s cs) = false → createReason s d ≠ 0 → Answers (.compCreate cs) s fun t => Completed s t cs (createReason s d) ∧ comp t (df d 0 0 12) = { comp s (df d 0 0 12) with status := refused (comp s (df d 0 0 12)).status (createReason s d) } ∧ t = ctlComplete { s with tr := { s.tr with comps := tput {} s.tr.comps (df d 0 0 12) (tget {} t.tr.comps (df d 0 0 12)) } } cs (createReason s d) none none 64) ∧
  (∀ (s : State) (cs : Nat) (d : List W64), Presents s cs 0x80 d → df d 0 0 2 = 0 → df d 0 2 1 = 0 → stampPast s (stampKey okRoute (df d 0 48 12)) (ctl s cs) = false → mapSetReason s d = 0 → Answers (.mapSetRoute cs) s fun t => Completed s t cs 0 ∧ (route t (df d 0 48 12)).present = true ∧ (route t (df d 0 48 12)).ports = mapPorts d ∧ (route t (df d 0 48 12)).epoch = ((route s (df d 0 48 12)).epoch + 1) % 256 ∧ t = ctlComplete (changeRoute s (df d 0 48 12) true (mapPorts d)) cs 0 none (some (stampKey okRoute (df d 0 48 12))) 64) ∧
  (∀ (s : State) (cs : Nat) (d : List W64), Presents s cs 0x80 d → df d 0 0 2 = 1 → stampPast s (stampKey okMap (df d 0 32 12)) (ctl s cs) = false → mapSetReason s d = 0 → Answers (.mapSetMember cs) s fun t => Completed s t cs 0 ∧ (comp t (df d 0 32 12)).prep = some { prepared (comp s (df d 0 32 12)) with members := mapEntry (prepared (comp s (df d 0 32 12))).members (decide (df d 0 2 1 = 1)) (df d 1 0 16) } ∧ t = ctlComplete { s with tr := { s.tr with comps := tput {} s.tr.comps (df d 0 32 12) { tget {} s.tr.comps (df d 0 32 12) with prep := (tget {} t.tr.comps (df d 0 32 12)).prep } } } cs 0 none (some (stampKey okMap (df d 0 32 12))) 64) ∧
  (∀ (s : State) (cs : Nat) (d : List W64), Presents s cs 0x80 d → df d 0 0 2 = 2 → stampPast s (stampKey okMap (df d 0 32 12)) (ctl s cs) = false → mapSetReason s d = 0 → Answers (.mapSetSpan cs) s fun t => Completed s t cs 0 ∧ (comp t (df d 0 32 12)).prep = some { prepared (comp s (df d 0 32 12)) with span := mapEntry (prepared (comp s (df d 0 32 12))).span (decide (df d 0 2 1 = 1)) (df d 0 48 12) } ∧ t = ctlComplete { s with tr := { s.tr with comps := tput {} s.tr.comps (df d 0 32 12) { tget {} s.tr.comps (df d 0 32 12) with prep := (tget {} t.tr.comps (df d 0 32 12)).prep } } } cs 0 none (some (stampKey okMap (df d 0 32 12))) 64) ∧
  (∀ (s : State) (cs : Nat) (d : List W64), Presents s cs 0x81 d → stampPast s (stampKey okComp (df d 0 0 12)) (ctl s cs) = false → reaches (ctl s cs) (df d 0 0 12) = true → (comp s (df d 0 0 12)).closing = false → reservedSet d [fmask 0 12, 0, 0, 0] = false → (comp s (df d 0 0 12)).state = 1 ∨ (comp s (df d 0 0 12)).state = 2 → (comp s (df d 0 0 12)).prevLive = false → Answers (.mapEpoch cs) s fun t => Completed s t cs 0 ∧ (comp t (df d 0 0 12)).current = ((comp s (df d 0 0 12)).current + 1) % 256 ∧ (comp t (df d 0 0 12)).cur = prepared (comp s (df d 0 0 12)) ∧ (comp t (df d 0 0 12)).curLive = true ∧ (comp t (df d 0 0 12)).prep = none ∧ (comp t (df d 0 0 12)).state = 2 ∧ (comp t (df d 0 0 12)).previous = (comp s (df d 0 0 12)).current ∧ t = ctlComplete (rotateEpoch s (df d 0 0 12)) cs 0 none (some (stampKey okComp (df d 0 0 12))) 64) ∧
  (∀ (s : State) (cs : Nat) (d : List W64), Presents s cs 0x81 d → stampPast s (stampKey okComp (df d 0 0 12)) (ctl s cs) = false → reaches (ctl s cs) (df d 0 0 12) = true → (comp s (df d 0 0 12)).closing = false → reservedSet d [fmask 0 12, 0, 0, 0] = false → (comp s (df d 0 0 12)).state = 2 → (comp s (df d 0 0 12)).prevLive = true → epochBusy s (df d 0 0 12) (comp s (df d 0 0 12)).previous = true → Answers (.mapEpoch cs) s fun t => (ctl t cs).wait = .epochDrain (df d 0 0 12) ∧ (comp t (df d 0 0 12)).closing = true ∧ t = setCtl { s with tr := { s.tr with comps := tput {} s.tr.comps (df d 0 0 12) { tget {} s.tr.comps (df d 0 0 12) with closing := (tget {} t.tr.comps (df d 0 0 12)).closing } } } cs { ctl s cs with wait := .epochDrain (df d 0 0 12) }) ∧
  (∀ (s : State) (cs c : Nat), working s = true → cs < 9 → (ctl s cs).wait = .epochDrain c → epochBusy s c (comp s c).previous = false → Answers (.mapEpochDrained cs) s fun t => Completed s t cs 0 ∧ (comp t c).current = ((comp s c).current + 1) % 256 ∧ (comp t c).cur = prepared (comp s c) ∧ (comp t c).closing = false ∧ t = ctlComplete (rotateEpoch s c) cs 0 none (some (stampKey okComp c)) 64) ∧
  (∀ (s : State) (cs : Nat) (d : List W64), Presents s cs 0x83 d → stampPast s (stampKey okComp (df d 0 0 12)) (ctl s cs) = false → reservedSet d [fmask 0 12, 0, 0, 0] = false → (comp s (df d 0 0 12)).state = 1 ∨ (comp s (df d 0 0 12)).state = 2 ∨ (comp s (df d 0 0 12)).state = 3 → (ctl s cs).priv = 1 → Answers (.compDestroy cs) s fun t => Completed s t cs 0 ∧ (comp t (df d 0 0 12)).state = 4 ∧ fenced t (df d 0 0 12) = true ∧ t = ctlComplete (destroyComp s (df d 0 0 12)) cs 0 none (some (stampKey okComp (df d 0 0 12))) 64) ∧
  (∀ (s : State) (c : Nat), working s = true → (comp s c).state = 4 → destroyDone s c = true → backlogFull s = false → Answers (.compDestroyEnd c) s fun t => comp t c = {} ∧ (fenceOf t c).missing = ((coll s (scopeKey c 0 0)).missing ++ (coll s (scopeKey c 0 0)).markers.map (·.1)).eraseDups.length ∧ t = stateRecord (setComp (closePeriod (dropUsers (setFence s c { fenceOf s c with missing := (fenceOf t c).missing }) c) c) c {}) 64)

/-- Extents, regions, placement and failure-domain tags. EXT.GRANT whose checks pass gives the extent the descriptor's composition, grantee, key slot, base and backings in state GRANTED; EXT.REVOKE puts a granted extent in REVOKING, which becomes REVOKED when its last admitted request or move has ended; a COMMIT of REGION, PLACEMENT or FDTAG whose checks pass stores the object and its status word goes to s30; a COMMIT with ENABLE 0 disables the region. -/
def Obligations.ExtentAndRegionCommands : Prop :=
  (∀ (s : State) (cs : Nat) (d : List W64), Presents s cs 0x84 d → stampPast s (stampKey okExtent (df d 0 0 18)) (ctl s cs) = false → grantReason s d = 0 → (ext s (df d 0 0 18)).state = 0 → Answers (.extGrant cs) s fun t => Completed s t cs 0 ∧ ext t (df d 0 0 18) = grantedExt d ∧ (∀ kv ∈ t.tr.tmap, ¬((grantedExt d).base / grainB ≤ kv.1 ∧ kv.1 < (grantedExt d).base / grainB + (grantedExt d).grains)) ∧ t = ctlComplete (grantExt s d) cs 0 none (some (stampKey okExtent (df d 0 0 18))) 64) ∧
  (∀ (s : State) (cs : Nat) (d : List W64), Presents s cs 0x85 d → stampPast s (stampKey okExtent (df d 0 0 18)) (ctl s cs) = false → (ext s (df d 0 0 18)).state = 1 → (ext s (df d 0 0 18)).comp = df d 0 20 12 → reservedSet d [fmask 0 18 + fmask 20 12, 0, 0, 0] = false → (comp s (df d 0 20 12)).state ≠ 0 → Answers (.extRevoke cs) s fun t => Completed s t cs 0 ∧ ext t (df d 0 0 18) = { ext s (df d 0 0 18) with state := 2, status := { (ext s (df d 0 0 18)).status with enabled := false, draining := true, reason := 0 } } ∧ t = ctlComplete (revokeExt s (df d 0 0 18)) cs 0 none (some (stampKey okExtent (df d 0 0 18))) 64) ∧
  (∀ (s : State) (x : Nat), working s = true → (ext s x).state = 2 → extBusy s x = false → Answers (.extentDrainEnd x) s fun t => ext t x = { ext s x with state := 3, status := { (ext s x).status with draining := false } } ∧ t = stateRecord { s with tr := { s.tr with exts := tput {} s.tr.exts (x) (tget {} t.tr.exts (x)) } } 32) ∧
  (∀ (s : State) (cs : Nat) (d : List W64), Presents s cs 0xF0 d → enableOf d = true → Fresh s cs 0xF0 (stampKey okRegion (df d 0 0 16)) → regionReason s d = 0 → Answers (.commitRegion cs) s fun t => Committed s t cs 0 (regionWord (regionOf s d)) ∧ region t (df d 0 0 16) = regionOf s d ∧ t = ctlComplete (grantCommit { s with tr := { s.tr with regions := tput {} s.tr.regions (df d 0 0 16) (tget {} t.tr.regions (df d 0 0 16)) } } cs 0xF0 ((stampKey okRegion (df d 0 0 16)))) cs 0 (some (regionWord (regionOf s d))) (some (stampKey okRegion (df d 0 0 16))) 64) ∧
  (∀ (s : State) (cs : Nat) (d : List W64), Presents s cs 0xF0 d → enableOf d = false → Fresh s cs 0xF0 (stampKey okRegion (df d 0 0 16)) → df d 0 0 16 ≤ 65279 → Answers (.commitRegion cs) s fun t => Completed s t cs 0 ∧ (region t (df d 0 0 16)).status = { (region s (df d 0 0 16)).status with enabled := false, reason := 0 } ∧ t = ctlComplete (grantCommit { s with tr := { s.tr with regions := tput {} s.tr.regions (df d 0 0 16) { tget {} s.tr.regions (df d 0 0 16) with status := (tget {} t.tr.regions (df d 0 0 16)).status } } } cs 0xF0 ((stampKey okRegion (df d 0 0 16)))) cs 0 (some (regionWord (region t (df d 0 0 16)))) (some (stampKey okRegion (df d 0 0 16))) 64) ∧
  (∀ (s : State) (cs : Nat) (d : List W64), Presents s cs 0xF1 d → enableOf d = true → Fresh s cs 0xF1 (stampKey okPlacement (df d 0 0 18)) → placeReason s (ctl s cs) d = 0 → ¬(df d 0 48 2 = 0 ∧ df d 0 50 1 = 0) → Answers (.commitPlacement cs) s fun t => Completed s t cs 0 ∧ (ext t (df d 0 0 18)).cls = df d 0 48 2 ∧ (ext t (df d 0 0 18)).pin = df d 0 50 1 ∧ (ext t (df d 0 0 18)).status = { (ext s (df d 0 0 18)).status with reason := 0 } ∧ t = ctlComplete (grantCommit { s with tr := { s.tr with exts := tput {} s.tr.exts (df d 0 0 18) { tget {} s.tr.exts (df d 0 0 18) with cls := (tget {} t.tr.exts (df d 0 0 18)).cls, pin := (tget {} t.tr.exts (df d 0 0 18)).pin, status := (tget {} t.tr.exts (df d 0 0 18)).status }, reserved := (unreserve s (df d 0 0 18)).tr.reserved } } cs 0xF1 ((stampKey okPlacement (df d 0 0 18)))) cs 0 (some (extWord t (df d 0 0 18))) (some (stampKey okPlacement (df d 0 0 18))) 64) ∧
  (∀ (s : State) (cs : Nat) (d : List W64), Presents s cs 0xF1 d → enableOf d = true → Fresh s cs 0xF1 (stampKey okPlacement (df d 0 0 18)) → placeReason s (ctl s cs) d = 0 → df d 0 48 2 = 0 → df d 0 50 1 = 0 → Answers (.commitPlacement cs) s fun t => Completed s t cs 0 ∧ ext t (df d 0 0 18) = { ext s (df d 0 0 18) with cls := 0, pin := 0, status := { (ext s (df d 0 0 18)).status with reason := 0 } } ∧ t = ctlComplete (grantCommit (reserveFrames (unreserve { s with tr := { s.tr with exts := tput {} s.tr.exts (df d 0 0 18) (tget {} t.tr.exts (df d 0 0 18)) } } (df d 0 0 18)) (comp s (ext s (df d 0 0 18)).comp).tenant (df d 0 0 18) ((ext s (df d 0 0 18)).grains - extCopies s (ext s (df d 0 0 18)))) cs 0xF1 ((stampKey okPlacement (df d 0 0 18)))) cs 0 (some (extWord t (df d 0 0 18))) (some (stampKey okPlacement (df d 0 0 18))) 32) ∧
  (∀ (s : State) (cs : Nat) (d : List W64), Presents s cs 0xF2 d → enableOf d = true → Fresh s cs 0xF2 (stampKey okFdTag (fdKey d)) → df d 0 0 2 = 2 ∨ (df d 0 0 2 < 2 ∧ df d 0 8 8 ≤ 191) → reservedSet d [fmask 0 2 + fmask 8 8, fmask 0 32, 0, 1] = false → Answers (.commitFdtag cs) s fun t => Committed s t cs 0 1 ∧ tget {} t.tr.fdtags (fdKey d) = { tag := df d 1 0 32, status := { enabled := true } } ∧ t = ctlComplete (grantCommit { s with tr := { s.tr with fdtags := tput {} s.tr.fdtags (fdKey d) (tget {} t.tr.fdtags (fdKey d)) } } cs 0xF2 ((stampKey okFdTag (fdKey d)))) cs 0 (some 1) (some (stampKey okFdTag (fdKey d))) 64)

/-- Meter periods close, and their records reach the ring in order. A meter period that has ended, and METER.READ of a composition, close the period: the record number counts, the next period starts now with empty counts. A record of the backlog is written to the meter ring when the ring has space, so that PROD advances by one and the backlog loses its oldest record. -/
def Obligations.MeteringCommands : Prop :=
  (∀ (s : State) (c : Nat), working s = true → (comp s c).state ≠ 0 → (comp s c).meter.start + (comp s c).mperiod * 1000000 ≤ s.now → backlogFull s = false → Answers (.meterPeriodEnd c) s fun t => comp t c = { comp s c with meter := { recNo := (comp s c).meter.recNo + 1, start := s.now } } ∧ t = closePeriod s c) ∧
  (∀ (s : State) (cs : Nat) (d : List W64), Presents s cs 0x93 d → stampPast s (stampKey okMeterRec (df d 0 0 12)) (ctl s cs) = false → reaches (ctl s cs) (df d 0 0 12) = true → reservedSet d [fmask 0 12, 0, 0, 0] = false → (comp s (df d 0 0 12)).state ≠ 0 → backlogFull s = false → Answers (.meterRead cs) s fun t => Completed s t cs 0 ∧ comp t (df d 0 0 12) = { comp s (df d 0 0 12) with meter := { recNo := (comp s (df d 0 0 12)).meter.recNo + 1, start := s.now } } ∧ t = ctlComplete (closePeriod s (df d 0 0 12)) cs 0 none (some (stampKey okMeterRec (df d 0 0 12))) 64) ∧
  (∀ (s : State) (ws : List W64) (tl : List (List W64)), mainUp s = true → s.cc.bootDone = true → (ring s 18).held = ws :: tl → ringFull (ring s 18) = false → Answers (.meterBacklogWrite) s fun t => (ring t 18).held = tl ∧ (ring t 18).prod = (ring s 18).prod + 1 ∧ (ring t 18).copies = (ring s 18).copies ++ [ws] ∧ t = ringPut { s with cc := { s.cc with rings := tput {} s.cc.rings (18) { tget {} s.cc.rings (18) with held := (tget {} t.cc.rings (18)).held } } } 18 ws)

/-- Fences refuse at once, are collected over the span, and are released. FENCE of a composition or of a peer installs its refusal on this switch when it executes; where no other switch is in the span it completes with reason zero, and where one is it waits and a probe goes to each. The releases remove the refusal. A collection with every acknowledgement completes the waiting FENCE, and a deadline that passes first completes it with FENCE_INCOMPLETE and the count of switches not complete. -/
def Obligations.FenceCommands : Prop :=
  (∀ (s : State) (cs : Nat) (d : List W64), Presents s cs 0x8B d → df d 0 16 2 = 0 → fenceReason s (ctl s cs) d = 0 → (ctl s cs).priv = 1 → stampPast s (fenceKey (df d 0 0 12) 0 0) (ctl s cs) = false → collDone (coll (fenceStart s cs (df d 0 0 12) 0 0 (df d 1 0 32)) (scopeKey (df d 0 0 12) 0 0)) = true → Answers (.fenceComp cs) s fun t => Completed s t cs 0 ∧ fenced t (df d 0 0 12) = true ∧ t = ctlComplete (dropWaiter (fenceStart s cs (df d 0 0 12) 0 0 (df d 1 0 32)) (scopeKey (df d 0 0 12) 0 0) cs) cs 0 none (some (fenceKey (df d 0 0 12) 0 0)) 64) ∧
  (∀ (s : State) (cs : Nat) (d : List W64), Presents s cs 0x8B d → df d 0 16 2 = 0 → stampPast s (fenceKey (df d 0 0 12) 0 0) (ctl s cs) = false → fenceReason s (ctl s cs) d = 0 → (ctl s cs).priv = 2 → collDone (coll (fenceStart s cs (df d 0 0 12) 0 0 (df d 1 0 32)) (scopeKey (df d 0 0 12) 0 0)) = true → inOtherFence s cs (df d 0 0 12) = false → Answers (.fenceComp cs) s fun t => (ctl t cs).state = 0 ∧ fenced t (df d 0 0 12) = true ∧ t = progEnd (dropWaiter (fenceStart s cs (df d 0 0 12) 0 0 (df d 1 0 32)) (scopeKey (df d 0 0 12) 0 0) cs) cs 9 0) ∧
  (∀ (s : State) (cs : Nat) (d : List W64), Presents s cs 0x8B d → df d 0 16 2 = 0 → stampPast s (fenceKey (df d 0 0 12) 0 0) (ctl s cs) = false → fenceReason s (ctl s cs) d ≠ 0 → Answers (.fenceComp cs) s fun t => Completed s t cs (fenceReason s (ctl s cs) d) ∧ (fenceOf t (df d 0 0 12)).reason = fenceReason s (ctl s cs) d ∧ t = ctlComplete { s with te := { s.te with fences := tput {} s.te.fences (df d 0 0 12) { tget {} s.te.fences (df d 0 0 12) with reason := (tget {} t.te.fences (df d 0 0 12)).reason } } } cs (fenceReason s (ctl s cs) d) none none 64) ∧
  (∀ (s : State) (cs sw : Nat) (d : List W64), Presents s cs 0x8B d → df d 0 16 2 = 0 → fenceReason s (ctl s cs) d = 0 → (ctl s cs).priv = 1 → spanOf s (df d 0 0 12) = [sw] → coll s (scopeKey (df d 0 0 12) 0 0) = {} → stampPast s (fenceKey (df d 0 0 12) 0 0) (ctl s cs) = false → Answers (.fenceComp cs) s fun t => (ctl t cs).wait = .fence ∧ fenced t (df d 0 0 12) = true ∧ (coll t (scopeKey (df d 0 0 12) 0 0)).missing = [sw] ∧ t = fenceStart s cs (df d 0 0 12) 0 0 (df d 1 0 32)) ∧
  (∀ (s : State) (cs : Nat) (d : List W64), Presents s cs 0x8B d → df d 0 16 2 = 1 → fenceReason s (ctl s cs) d = 0 → (ctl s cs).priv = 1 → stampPast s (fenceKey (df d 0 0 12) 1 (df d 0 32 16)) (ctl s cs) = false → collDone (coll (fenceStart s cs (df d 0 0 12) 1 (df d 0 32 16) (df d 1 0 32)) (scopeKey (df d 0 0 12) 1 (df d 0 32 16))) = true → Answers (.fencePeer cs) s fun t => Completed s t cs 0 ∧ (fenceOf t (df d 0 0 12)).peers.contains (df d 0 32 16) = true ∧ (fenceOf t (df d 0 0 12)).comp = (fenceOf s (df d 0 0 12)).comp ∧ (comp s (df d 0 0 12)).fatal = true → (comp t (df d 0 0 12)).state = 3 ∧ t = ctlComplete (dropWaiter (fenceStart s cs (df d 0 0 12) 1 (df d 0 32 16) (df d 1 0 32)) (scopeKey (df d 0 0 12) 1 (df d 0 32 16)) cs) cs 0 none (some (fenceKey (df d 0 0 12) 1 (df d 0 32 16))) 64) ∧
  (∀ (s : State) (cs : Nat) (d : List W64), Presents s cs 0x8B d → df d 0 16 2 = 2 → fenceReason s (ctl s cs) d = 0 → (ctl s cs).priv = 1 → stampPast s (fenceKey (df d 0 0 12) 2 (df d 0 32 16)) (ctl s cs) = false → collDone (coll (fenceStart s cs (df d 0 0 12) 2 (df d 0 32 16) (df d 1 0 32)) (scopeKey (df d 0 0 12) 2 (df d 0 32 16))) = true → Answers (.fenceReleasePeer cs) s fun t => Completed s t cs 0 ∧ (fenceOf t (df d 0 0 12)).peers = (fenceOf s (df d 0 0 12)).peers.filter (· ≠ df d 0 32 16) ∧ t = ctlComplete (dropWaiter (fenceStart s cs (df d 0 0 12) 2 (df d 0 32 16) (df d 1 0 32)) (scopeKey (df d 0 0 12) 2 (df d 0 32 16)) cs) cs 0 none (some (fenceKey (df d 0 0 12) 2 (df d 0 32 16))) 64) ∧
  (∀ (s : State) (cs : Nat) (d : List W64), Presents s cs 0x8B d → df d 0 16 2 = 3 → fenceReason s (ctl s cs) d = 0 → (ctl s cs).priv = 1 → stampPast s (fenceKey (df d 0 0 12) 3 0) (ctl s cs) = false → collDone (coll (fenceStart s cs (df d 0 0 12) 3 0 (df d 1 0 32)) (scopeKey (df d 0 0 12) 3 0)) = true → Answers (.fenceReleaseComp cs) s fun t => Completed s t cs 0 ∧ fenced t (df d 0 0 12) = false ∧ (fenceOf t (df d 0 0 12)).peers = (fenceOf s (df d 0 0 12)).peers ∧ t = ctlComplete (dropWaiter (fenceStart s cs (df d 0 0 12) 3 0 (df d 1 0 32)) (scopeKey (df d 0 0 12) 3 0) cs) cs 0 none (some (fenceKey (df d 0 0 12) 3 0)) 64) ∧
  (∀ (s : State) (cs k deadline : Nat) (x : FenceColl), working s = true → (ctl s cs).wait = .fence → (ctl s cs).priv = 1 → waitedColl s cs = some (k, x, deadline) → collDone x = true → Answers (.fenceCollected cs) s fun t => Completed s t cs 0 ∧ t = ctlComplete (dropWaiter s k cs) cs 0 none (some (fenceKey (coll (dropWaiter s k cs) k).comp (coll (dropWaiter s k cs) k).kind (coll (dropWaiter s k cs) k).peer)) 64) ∧
  (∀ (s : State) (cs k deadline : Nat) (x : FenceColl), working s = true → (ctl s cs).wait = .fence → (ctl s cs).priv = 1 → waitedColl s cs = some (k, x, deadline) → collDone x = false → deadline ≤ s.now → Answers (.fenceTimeout cs) s fun t => Completed s t cs 0x0501 ∧ (fenceOf t x.comp).missing = ((x.missing ++ x.markers.map (·.1)).eraseDups).length ∧ (fenceOf t x.comp).comp = (fenceOf s x.comp).comp ∧ t = ctlFinish (setFence (dropWaiter s k cs) x.comp { fenceOf s x.comp with missing := (fenceOf t x.comp).missing, reason := 0x0501 }) cs 0x0501 none)

/-- Mailbox bindings, partitions and their resets. A COMMIT MBXBIND whose checks pass binds the mailbox to the privilege, partition and composition of its descriptor. A COMMIT PARTITION moves a disabled port or an unassigned pseudo-channel, or begins the reset of a partition: its state reads 1, its jobs and programs stop. The reset ends when its writes have settled: its state reads 0 and its reset count has risen. A failed control sequencer leaves its program's record in the journal. -/
def Obligations.MailboxBindingAndPartitionCommands : Prop :=
  (∀ (s : State) (cs : Nat) (d : List W64), Presents s cs 0xE5 d → enableOf d = true → Fresh s cs 0xE5 (stampKey okMbxBind (df d 0 0 6)) → bindingReason s d = 0 → Answers (.commitMbxbind cs) s fun t => Committed s t cs 0 (bindWord t (df d 0 0 6)) ∧ mbx t (df d 0 0 6) = { mbx s (df d 0 0 6) with priv := df d 0 8 2, part := (if df d 0 8 2 = 2 then (comp s (df d 0 32 12)).part else df d 0 16 4), comp := df d 0 32 12, bind := { enabled := decide (df d 0 8 2 ≠ 0) } } ∧ t = ctlComplete (grantCommit { s with cc := { s.cc with mbx := tput {} s.cc.mbx (df d 0 0 6) (tget {} t.cc.mbx (df d 0 0 6)) } } cs 0xE5 ((stampKey okMbxBind (df d 0 0 6)))) cs 0 (some (bindWord t (df d 0 0 6))) (some (stampKey okMbxBind (df d 0 0 6))) 64) ∧
  (∀ (s : State) (cs : Nat) (d : List W64), Presents s cs 0xF3 d → enableOf d = true → df d 0 0 2 = 0 → Fresh s cs 0xF3 (stampKey okPartition (256 + df d 0 16 8)) → (port s (df d 0 16 8)).status.enabled = false → portUsed s (df d 0 16 8) = false → reservedSet d partMasks = false → df d 0 16 8 ≤ 191 → (lcNow s).sealed = false → Answers (.commitPartitionPort cs) s fun t => Completed s t cs 0 ∧ port t (df d 0 16 8) = { port s (df d 0 16 8) with part := df d 0 4 4 } ∧ tget {} t.cc.part (df d 0 4 4) = { tget {} s.cc.part (df d 0 4 4) with reason := 0 } ∧ t = ctlComplete (grantCommit { s with cc := { s.cc with part := tput {} s.cc.part (df d 0 4 4) (tget {} t.cc.part (df d 0 4 4)) }, pc := { s.pc with ports := tput {} s.pc.ports (df d 0 16 8) (tget {} t.pc.ports (df d 0 16 8)) } } cs 0xF3 ((stampKey okPartition (256 + df d 0 16 8)))) cs 0 (some (partWord t (df d 0 4 4))) (some (stampKey okPartition (256 + df d 0 16 8))) 64) ∧
  (∀ (s : State) (cs : Nat) (d : List W64), Presents s cs 0xF3 d → enableOf d = true → df d 0 0 2 = 1 → Fresh s cs 0xF3 (stampKey okPartition (512 + df d 0 16 8)) → 14 ≤ df d 0 16 8 → df d 0 16 8 ≤ 127 → (pch s (df d 0 16 8)).state = 1 → reservedSet d partMasks = false → (lcNow s).sealed = false → Answers (.commitPartitionPch cs) s fun t => Completed s t cs 0 ∧ pch t (df d 0 16 8) = { pch s (df d 0 16 8) with part := df d 0 4 4 } ∧ tget {} t.cc.part (df d 0 4 4) = { tget {} s.cc.part (df d 0 4 4) with reason := 0 } ∧ t = ctlComplete (grantCommit { s with cc := { s.cc with part := tput {} s.cc.part (df d 0 4 4) (tget {} t.cc.part (df d 0 4 4)) }, ie := { s.ie with pch := tput {} s.ie.pch (df d 0 16 8) (tget {} t.ie.pch (df d 0 16 8)) } } cs 0xF3 ((stampKey okPartition (512 + df d 0 16 8)))) cs 0 (some (partWord t (df d 0 4 4))) (some (stampKey okPartition (512 + df d 0 16 8))) 64) ∧
  (∀ (s : State) (cs : Nat) (d : List W64), Presents s cs 0xF3 d → enableOf d = true → df d 0 0 2 = 2 → reservedSet d partMasks = false → tget 0 s.cc.partState (df d 0 4 4) = 0 → Fresh s cs 0xF3 (stampKey okPartition (df d 0 4 4)) → Answers (.commitPartitionReset cs) s fun t => tget 0 t.cc.partState (df d 0 4 4) = 1 ∧ (∀ q : Fin 68, (seam s q).part = df d 0 4 4 → (seam s q).job.isSome = true → (seam s q).state ≠ 8 → (seam t q).state = 5) ∧ (∀ c : Fin 9, (ctl s c).state = 1 → (ctl s c).part = df d 0 4 4 → (ctl t c).wait = .stopped) ∧ sGet (ctl t cs).s 31 = 0 ∧ tget {} t.cc.part (df d 0 4 4) = { tget {} s.cc.part (df d 0 4 4) with reason := 0 } ∧ t = ctlComplete (resetPart (grantCommit { s with cc := { s.cc with part := tput {} s.cc.part (df d 0 4 4) (tget {} t.cc.part (df d 0 4 4)) } } cs 0xF3 (stampKey okPartition (df d 0 4 4))) (df d 0 4 4)) cs 0 (some (partWord t (df d 0 4 4))) (some (stampKey okPartition (df d 0 4 4))) 64) ∧
  (∀ (s : State) (p : Nat), working s = true → p < 16 → tget 0 s.cc.partState p = 1 → partBusy s p = false → Answers (.partitionResetEnd p) s fun t => tget 0 t.cc.partState p = 0 ∧ tget 0 t.cc.partResets p = min (tget 0 s.cc.partResets p + 1) 65535 ∧ (∀ q : Fin 68, (seam s q).part = p → (seam t q).mem = []) ∧ t = finishPartReset s p) ∧
  (∀ (s : State) (q since : Nat), working s = true → (seam s q).stopT = some since → since + 1000000 ≤ s.now → (seam s q).state = 5 ∨ (seam s q).state = 8 → Answers (.sequencerStopTimeout (.seq q)) s fun t => tget 0 t.cc.partState (seam s q).part ≠ 0 ∧ t = resetPart s (seam s q).part) ∧
  (∀ (s : State) (cs : Nat), working s = true → (ctl s cs).state = 1 → (ctl s cs).wait ≠ .stopped → (ctl s cs).started + s.cc.wdog * 1000 + 1000000 ≤ s.now → Answers (.sequencerStopTimeout (.ctl cs)) s fun t => tget 0 t.cc.partState (ctl s cs).part ≠ 0 ∧ t = resetPart s (ctl s cs).part) ∧
  (∀ (s : State) (cs : Nat), mainUp s = true → cs < 8 → (ctl s cs).state ≤ 1 → (ctl s 8).state = 2 → Answers (.controlSequencerFail cs) s fun t => ctl t cs = {} ∧ (ctl t 8).state = 3 ∧ t.lv.recs = s.lv.recs ∧ t = setCtl (setCtl (unpend (if (ctl s cs).state = 1 then dropProgLeave (abandonWait s cs) cs else s) (9 * 256 + cs)) cs {}) 8 { state := 3 }) ∧
  (∀ (s : State) (cs : Nat), mainUp s = true → cs < 8 → (ctl s cs).state ≤ 1 → (ctl s 8).state ≠ 2 → Answers (.controlSequencerFail cs) s fun t => (ctl t cs).state = 3 ∧ t.lv.recs = s.lv.recs ∧ t = setCtl (unpend (if (ctl s cs).state = 1 then dropProgLeave (abandonWait s cs) cs else s) (9 * 256 + cs)) cs { state := 3 })

/-- Leases are offered, accepted, recalled, returned and ended. LEASE OFFER reserves the lender's grains and records the offer; ACCEPT records the borrower's lease and waits for the lender; RECALL and RETURN move a lease to RECALLING and RETURNING, and a recall's receipt sets the borrower's deadline and reason. An empty lease ends; a deadline that passes ends it at the lender with its frames zeroed and free; lost lease traffic ends it at the borrower. -/
def Obligations.LeaseCommands : Prop :=
  (∀ (s : State) (cs : Nat) (d : List W64), Presents s cs 0x8E d → leaseOp d = 0 → stampPast s (stampKey okLease (df d 0 0 8)) (ctl s cs) = false → firstFail (offerTests s d) = 0 → Answers (.leaseOffer cs) s fun t => Completed s t cs 0 ∧ lease t (df d 0 0 8) = { state := 1, peer := df d 0 16 12, medium := df d 0 32 1, grains := df d 2 0 24, base := df d 1 0 48, rkey := df d 2 32 32, notice := df d 3 0 32, frames := offerFrames s d } ∧ t = ctlComplete { s with tr := { s.tr with leases := tput {} s.tr.leases (df d 0 0 8) (tget {} t.tr.leases (df d 0 0 8)), frames := ((offerFrames s d).foldl (fun t f => tput 0 t f (2 ^ 40 + df d 0 0 8)) s.tr.frames) } } cs 0 none (some (stampKey okLease (df d 0 0 8))) 64) ∧
  (∀ (s : State) (cs : Nat) (d : List W64), Presents s cs 0x8E d → leaseOp d = 0 ∨ 4 ≤ leaseOp d → stampPast s (stampKey okLease (df d 0 0 8)) (ctl s cs) = false → firstFail (offerTests s d) ≠ 0 → Answers (.leaseOffer cs) s fun t => Completed s t cs (firstFail (offerTests s d)) ∧ lease t (df d 0 0 8) = { lease s (df d 0 0 8) with check := firstFail (offerTests s d) } ∧ t = ctlComplete { s with tr := { s.tr with leases := tput {} s.tr.leases (df d 0 0 8) (tget {} t.tr.leases (df d 0 0 8)) } } cs (firstFail (offerTests s d)) none none 64) ∧
  (∀ (s : State) (cs : Nat) (d : List W64), Presents s cs 0x8E d → leaseOp d = 1 → stampPast s (stampKey okLease (df d 0 0 8)) (ctl s cs) = false → firstFail (acceptTests s d) = 0 → Answers (.leaseAccept cs) s fun t => (ctl t cs).wait = .lease (df d 0 0 8) ∧ lease t (df d 0 0 8) = { peer := df d 0 16 12, borrower := true, grains := df d 2 0 24, rkey := df d 2 32 32, tenant := df d 0 48 16, please := df d 0 40 8, waitCs := some cs } ∧ t.te.outst.length = s.te.outst.length + 1 ∧ t = setCtl (leaseMsg (setLease s (df d 0 0 8) (acceptedLease cs d)) (df d 0 0 8) 1 (acceptedLease cs d)) cs { ctl s cs with wait := .lease (df d 0 0 8) }) ∧
  (∀ (s : State) (cs : Nat) (d : List W64), Presents s cs 0x8E d → leaseOp d = 2 → stampPast s (stampKey okLease (df d 0 0 8)) (ctl s cs) = false → reservedSet d leaseMasks = false → (lease s (df d 0 0 8)).state = 2 → (lease s (df d 0 0 8)).borrower = false → Answers (.leaseRecall cs) s fun t => Completed s t cs 0 ∧ lease t (df d 0 0 8) = { lease s (df d 0 0 8) with check := 0, state := 3, deadline := s.now + (lease s (df d 0 0 8)).notice * 1000 } ∧ t = ctlComplete (leaseMsg { s with tr := { s.tr with leases := tput {} s.tr.leases (df d 0 0 8) (tget {} t.tr.leases (df d 0 0 8)) } } (df d 0 0 8) 2 (lease t (df d 0 0 8))) cs 0 none (some (stampKey okLease (df d 0 0 8))) 64) ∧
  (∀ (s : State) (cs : Nat) (d : List W64), Presents s cs 0x8E d → leaseOp d = 3 → stampPast s (stampKey okLease (df d 0 0 8)) (ctl s cs) = false → reservedSet d leaseMasks = false → (lease s (df d 0 0 8)).state = 2 → (lease s (df d 0 0 8)).borrower = true → Answers (.leaseReturn cs) s fun t => Completed s t cs 0 ∧ (lease t (df d 0 0 8)).state = 4 ∧ t = ctlComplete (dropClean (setLease s (df d 0 0 8) { lease s (df d 0 0 8) with check := 0, state := 4 }) (df d 0 0 8)) cs 0 none (some (stampKey okLease (df d 0 0 8))) 64) ∧
  (∀ (s : State) (n reason notice : Nat), working s = true → (lease s n).state = 2 → (lease s n).borrower = true → leaseCopies s n = [] → Answers (.leaseRecallReceipt n reason notice) s fun t => lease t n = { lease s n with state := 3, deadline := s.now + notice * 1000, reason := reason } ∧ t = stateRecord (dropClean { s with tr := { s.tr with leases := tput {} s.tr.leases (n) (tget {} t.tr.leases (n)) } } n) 32) ∧
  (∀ (s : State) (n g k e reason notice : Nat), working s = true → (lease s n).state = 2 → (lease s n).borrower = true → leaseCopies s n = [(k, g)] → extOf s g = some e → Answers (.leaseRecallReceipt n reason notice) s fun t => lease t n = { lease s n with state := 3, deadline := s.now + notice * 1000, reason := reason } ∧ t = stateRecord (dropClean (setLease (faultRecord s (comp s (ext s e).comp).part 6 [w64 (place 0 8 n + place 16 12 (lease s n).peer + place 40 24 1), w64 (s.now + notice * 1000), w64 (place 0 24 (if scratchGrain s g = true ∧ (tier s g).dirty ≠ 0 then 1 else 0))]) n (lease t n)) n) 32) ∧
  (∀ (s : State) (n : Nat), working s = true → (lease s n).state = 3 ∨ (lease s n).state = 4 → (lease s n).borrower = true → leaseUsed s n = [] → Answers (.leaseEmptied n) s fun t => lease t n = {} ∧ t = stateRecord (setLease (leaseMsg s n 3 (lease s n)) n {}) 32) ∧
  (∀ (s : State) (n fr : Nat), working s = true → (lease s n).state = 3 → (lease s n).borrower = false → (lease s n).medium = 0 → (lease s n).deadline ≤ s.now → (lease s n).frames = [fr] → Answers (.leaseDeadline n) s fun t => lease t n = {} ∧ tget 0 t.tr.frames fr = 0 ∧ memGet t.tr.hbm (fr * grainB) = 0 ∧ (∀ a, fr * grainB ≤ a → a < fr * grainB + grainB → memGet t.tr.hbm a = 0) ∧ SameOutside s.tr.hbm t.tr.hbm (fr * grainB) grainB ∧ t = stateRecord { s with tr := { s.tr with leases := tput {} s.tr.leases (n) (tget {} t.tr.leases (n)), frames := tput 0 s.tr.frames (fr) (tget 0 t.tr.frames (fr)), hbm := (memClear s.tr.hbm (fr * grainB) grainB) } } 32) ∧
  (∀ (s : State) (n k g : Nat), working s = true → (lease s n).state = 3 → (lease s n).borrower = true → (lease s n).deadline ≤ s.now → leaseCopies (stopMovesTo s n) n = [(k, g)] → Answers (.leaseDeadline n) s fun t => lease t n = {} ∧ (tier t g).loc = 4 ∧ t = stateRecord (setLease (failGrain (trCount (stopMovesTo s n) 7 1) g 2) n {}) 32) ∧
  (∀ (s : State) (n status : Nat), working s = true → 2 ≤ (lease s n).state → (lease s n).borrower = true → status = 6 ∨ status = 0x0E → leaseCopies (stopMovesTo s n) n = [] → Answers (.leaseLost n status) s fun t => lease t n = {} ∧ t = stateRecord (setLease (leaseMsg (stopMovesTo s n) n 3 (lease s n)) n {}) 32) ∧
  (∀ (s : State) (n status k g : Nat), working s = true → 2 ≤ (lease s n).state → (lease s n).borrower = true → status = 6 ∨ status = 0x0E → leaseCopies (stopMovesTo s n) n = [(k, g)] → Answers (.leaseLost n status) s fun t => lease t n = {} ∧ (tier t g).loc = (if scratchGrain (stopMovesTo s n) g = true then 4 else 1) ∧ t = stateRecord (setLease (leaseMsg (if scratchGrain (stopMovesTo s n) g then failGrain (stopMovesTo s n) g 3 else dropCopy (stopMovesTo s n) g) n 3 (lease s n)) n {}) 32)

/-- Owner words are handed off, taken and reclaimed on their line. HANDOFF SEND and ACCEPT and RECLAIM on a word that stands in this module's HBM, whose checks pass, read the word, apply the operation of R411 and complete with its reason code; on reason zero the word's eight bytes take the new value and every other byte of HBM stands; the outcome joins the program's record. -/
def Obligations.OwnerWordCommands : Prop :=
  (∀ (s : State) (cs x new : Nat) (d : List W64), Presents s cs 0x8C d → df d 1 0 1 = 0 → stampPast s (stampKey okHandoff (2 ^ 30)) (ctl s cs) = false → recorded s (ctl s cs) = none → wordReason s (ctl s cs) opHandoffSend d = 0 → lineBusy s (faOff (df d 0 0 60)) 8 = false → ownAccess s (df d 0 0 60) 8 = (0, some x) → InHbm s x (faOff (df d 0 0 60)) → ownerOp opHandoffSend s.now (leAt (memRead s.tr.hbm (hbmAddr s (faOff (df d 0 0 60))) 8) 0 8) (place 0 16 (df d 1 16 16) + place 16 16 (df d 1 32 16) + place 32 8 (df d 1 48 8) + place 64 32 (df d 2 0 32)) = (new, 0) → Answers (.handoffSend cs) s fun t => Completed s t cs 0 ∧ memRead t.tr.hbm (hbmAddr s (faOff (df d 0 0 60))) 8 = bytesLE 8 new ∧ SameOutside s.tr.hbm t.tr.hbm (hbmAddr s (faOff (df d 0 0 60))) 8 ∧ t = serve (setCtl s cs { ctl s cs with wait := .handoff }) { op := opHandoffSend, src := ownId s, dst := df d 0 0 60, comp := df d 3 0 12, mapE := curEpoch s (df d 3 0 12), stream := cs, data := bytesLE 16 (place 0 16 (df d 1 16 16) + place 16 16 (df d 1 32 16) + place 32 8 (df d 1 48 8) + place 64 32 (df d 2 0 32)) } x false) ∧
  (∀ (s : State) (cs x new : Nat) (d : List W64), Presents s cs 0x8C d → df d 1 0 1 = 1 → stampPast s (stampKey okHandoff (2 ^ 30)) (ctl s cs) = false → recorded s (ctl s cs) = none → wordReason s (ctl s cs) opHandoffAccept d = 0 → lineBusy s (faOff (df d 0 0 60)) 8 = false → ownAccess s (df d 0 0 60) 8 = (0, some x) → InHbm s x (faOff (df d 0 0 60)) → ownerOp opHandoffAccept s.now (leAt (memRead s.tr.hbm (hbmAddr s (faOff (df d 0 0 60))) 8) 0 8) (place 0 16 (df d 1 16 16) + place 16 16 (df d 1 32 16) + place 32 8 (df d 1 48 8) + place 64 32 (df d 2 0 32)) = (new, 0) → Answers (.handoffAccept cs) s fun t => Completed s t cs 0 ∧ memRead t.tr.hbm (hbmAddr s (faOff (df d 0 0 60))) 8 = bytesLE 8 new ∧ SameOutside s.tr.hbm t.tr.hbm (hbmAddr s (faOff (df d 0 0 60))) 8 ∧ t = serve (setCtl s cs { ctl s cs with wait := .handoff }) { op := opHandoffAccept, src := ownId s, dst := df d 0 0 60, comp := df d 3 0 12, mapE := curEpoch s (df d 3 0 12), stream := cs, data := bytesLE 16 (place 0 16 (df d 1 16 16) + place 16 16 (df d 1 32 16) + place 32 8 (df d 1 48 8) + place 64 32 (df d 2 0 32)) } x false) ∧
  (∀ (s : State) (cs x new : Nat) (d : List W64), Presents s cs 0x8D d → stampPast s (stampKey okHandoff (2 ^ 30)) (ctl s cs) = false → recorded s (ctl s cs) = none → wordReason s (ctl s cs) opReclaim d = 0 → lineBusy s (faOff (df d 0 0 60)) 8 = false → ownAccess s (df d 0 0 60) 8 = (0, some x) → InHbm s x (faOff (df d 0 0 60)) → ownerOp opReclaim s.now (leAt (memRead s.tr.hbm (hbmAddr s (faOff (df d 0 0 60))) 8) 0 8) (place 0 16 (df d 1 16 16) + place 16 16 (df d 1 32 16) + place 32 8 (df d 1 48 8) + place 64 32 (df d 2 0 32)) = (new, 0) → Answers (.reclaim cs) s fun t => Completed s t cs 0 ∧ memRead t.tr.hbm (hbmAddr s (faOff (df d 0 0 60))) 8 = bytesLE 8 new ∧ SameOutside s.tr.hbm t.tr.hbm (hbmAddr s (faOff (df d 0 0 60))) 8 ∧ t = serve (setCtl s cs { ctl s cs with wait := .handoff }) { op := opReclaim, src := ownId s, dst := df d 0 0 60, comp := df d 3 0 12, mapE := curEpoch s (df d 3 0 12), stream := cs, data := bytesLE 16 (place 0 16 (df d 1 16 16) + place 16 16 (df d 1 32 16) + place 32 8 (df d 1 48 8) + place 64 32 (df d 2 0 32)) } x false) ∧
  (∀ (s : State) (cs : Nat) (d : List W64), Presents s cs 0x8D d → stampPast s (stampKey okHandoff (2 ^ 30)) (ctl s cs) = false → recorded s (ctl s cs) = none → lineBusy s (faOff (df d 0 0 60)) 8 = false → wordReason s (ctl s cs) opReclaim d ≠ 0 → Answers (.reclaim cs) s fun t => Completed s t cs (wordReason s (ctl s cs) opReclaim d) ∧ t = ctlFinish s cs (wordReason s (ctl s cs) opReclaim d) none)

/-- Weight sets are registered, hashed, withdrawn and drained. WEIGHTS.REG with OP register freezes the set's range and waits for its digest; when hashing ends well the set is enabled under the next generation and the waiting instruction completes; a failed read completes it with 0x0B0A and leaves the set disabled. OP withdraw makes the set drain, and when no job that reads it runs the slot is free. -/
def Obligations.WeightSetCommands : Prop :=
  (∀ (s : State) (cs : Nat) (d : List W64), Presents s cs 0x8F d → df d 0 16 1 = 0 → stampPast s (stampKey okWset (df d 0 0 12)) (ctl s cs) = false → weightsReason s (ctl s cs) d = 0 → Answers (.weightsRegister cs) s fun t => (ctl t cs).wait = .weights (df d 0 0 12) ∧ wset t (df d 0 0 12) = { wset s (df d 0 0 12) with comp := df d 0 32 12, base := df d 1 0 60, length := df d 2 0 40, hashing := true, digest := [] } ∧ t = setCtl { s with tr := { s.tr with wsets := tput {} s.tr.wsets (df d 0 0 12) (tget {} t.tr.wsets (df d 0 0 12)) } } cs { ctl s cs with wait := .weights (df d 0 0 12) }) ∧
  (∀ (s : State) (w cs : Nat) (dg : Bytes), working s = true → (wset s w).hashing = true → setBusy s (wset s w) = false → bytesHere s (faOff (wset s w).base) (wset s w).length = none → weightsWaiter s w = some cs → Answers (.weightsHashDone w 0 dg) s fun t => Completed s t cs 0 ∧ wset t w = { wset s w with hashing := false, gen := ((wset s w).gen + 1) % 16, digest := dg, status := { enabled := true } } ∧ t.ta.changes = s.ta.changes + 1 ∧ t = ctlComplete (digestNote { s with tr := { s.tr with wsets := tput {} s.tr.wsets (w) (tget {} t.tr.wsets (w)) } } (2 * 65536 + (wset t w).gen * 4096 + w) true dg) cs 0 none (some (stampKey okWset w)) 64) ∧
  (∀ (s : State) (w cs : Nat) (dg bs : Bytes), working s = true → (wset s w).hashing = true → setBusy s (wset s w) = false → bytesHere s (faOff (wset s w).base) (wset s w).length = some bs → weightsWaiter s w = some cs → Answers (.weightsHashDone w 0 dg) s fun t => Completed s t cs 0 ∧ wset t w = { wset s w with hashing := false, gen := ((wset s w).gen + 1) % 16, digest := treeDigest bs, status := { enabled := true } } ∧ t = ctlComplete (digestNote { s with tr := { s.tr with wsets := tput {} s.tr.wsets (w) (tget {} t.tr.wsets (w)) } } (2 * 65536 + (wset t w).gen * 4096 + w) true (treeDigest bs)) cs 0 none (some (stampKey okWset w)) 64) ∧
  (∀ (s : State) (w cs status : Nat) (dg : Bytes), working s = true → (wset s w).hashing = true → setBusy s (wset s w) = false → weightsWaiter s w = some cs → status ≠ 0 → Answers (.weightsHashDone w status dg) s fun t => Completed s t cs 0x0B0A ∧ wset t w = { wset s w with hashing := false, status := refused (wset s w).status 0x0B0A } ∧ t = ctlFinish { s with tr := { s.tr with wsets := tput {} s.tr.wsets (w) (tget {} t.tr.wsets (w)) } } cs 0x0B0A none) ∧
  (∀ (s : State) (cs : Nat) (d : List W64), Presents s cs 0x8F d → df d 0 16 1 = 1 → stampPast s (stampKey okWset (df d 0 0 12)) (ctl s cs) = false → weightsReason s (ctl s cs) d = 0 → Answers (.weightsWithdraw cs) s fun t => Completed s t cs 0 ∧ wset t (df d 0 0 12) = { wset s (df d 0 0 12) with status := { enabled := false, draining := true } } ∧ t = ctlComplete { s with tr := { s.tr with wsets := tput {} s.tr.wsets (df d 0 0 12) (tget {} t.tr.wsets (df d 0 0 12)) } } cs 0 none (some (stampKey okWset (df d 0 0 12))) 64) ∧
  (∀ (s : State) (w : Nat), working s = true → (wset s w).status.draining = true → setReaders s w = false → Answers (.weightsDrainEnd w) s fun t => wset t w = { wset s w with status := {}, digest := [], length := 0 } ∧ t = stateRecord (digestNote { s with tr := { s.tr with wsets := tput {} s.tr.wsets (w) (tget {} t.tr.wsets (w)) } } (2 * 65536 + (wset s w).gen * 4096 + w) false (wset s w).digest) 64)

/-- Grains move between tiers, copies drop under pressure and backings resync. A move of a dirty or upward copy that its class allows marks the grain migrating, takes its destination and asks leave where it is heavy; a clean copy that goes home is dropped. Each sub-grain copied counts in the move, and the last changes location and frame in one step. A copy dropped under pressure leaves the grain at its backing; a recorded sub-grain that is copied back leaves the resync list. -/
def Obligations.TierMoveCommands : Prop :=
  (∀ (s : State) (g fr x : Nat), extOf s g = some x → working s = true → moveAllowed s g x 2 fr = true → Answers (.migrationStart g 2 fr) s fun t => (tier t g) = { tier s g with state := if (tier s g).loc = 3 ∧ (lease s ((tier s g).frame / 2 ^ 18)).state ≠ 2 then 2 else 1 } ∧ tget 0 t.tr.frames fr = g + 1 ∧ (slot t (ext s x).kslot).uses = (slot s (ext s x).kslot).uses + 1 ∧ moveAt t (freeMove s) = { active := true, running := false, grain := g, toLoc := 2, toFrame := fr, slot := (ext s x).kslot, gen := (ext s x).kgen } ∧ t = askLeave (setMove (setTier (useTake { s with tr := { s.tr with frames := tput 0 s.tr.frames (fr) (tget 0 t.tr.frames (fr)) } } (ext s x).kslot) g (tier t g)) (freeMove s) { active := true, running := false, grain := g, toLoc := 2, toFrame := fr, slot := (ext s x).kslot, gen := (ext s x).kgen }) 16 (.move (freeMove s)) 160) ∧
  (∀ (s : State) (g fr x : Nat), extOf s g = some x → working s = true → moveAllowed s g x 3 fr = true → (tier s g).loc = 1 → Answers (.migrationStart g 3 fr) s fun t => tier t g = { tier s g with state := 1 } ∧ tget 0 t.tr.lframes fr = g + 1 ∧ moveAt t (freeMove s) = { active := true, running := true, grain := g, toLoc := 3, toFrame := fr, slot := (ext s x).kslot, gen := (ext s x).kgen } ∧ t = setMove (setTier (useTake { s with tr := { s.tr with lframes := tput 0 s.tr.lframes (fr) (tget 0 t.tr.lframes (fr)) } } (ext s x).kslot) g (tier t g)) (freeMove s) (moveAt t (freeMove s))) ∧
  (∀ (s : State) (g fr x : Nat), extOf s g = some x → working s = true → moveAllowed s g x 1 fr = true → (tier s g).dirty = 0 → Answers (.migrationStart g 1 fr) s fun t => (tier t g).loc = 1 ∧ t = stateRecord (dropCopy s g) 8) ∧
  (∀ (s : State) (n : Nat) (data : Bytes), working s = true → (moveAt s n).active = true → (moveAt s n).running = true → (moveAt s n).toLoc = 1 → (moveAt s n).next < 31 → lineBusy s ((moveAt s n).grain * grainB + (moveAt s n).next * 65536) 65536 = false → Answers (.subgrainCopyDone n data) s fun t => moveAt t n = { moveAt s n with next := (moveAt s n).next + 1 } ∧ t = setMove (trCount s 2 65536) n { moveAt s n with next := (moveAt s n).next + 1 }) ∧
  (∀ (s : State) (n : Nat) (data : Bytes), working s = true → (moveAt s n).active = true → (moveAt s n).running = true → (moveAt s n).toLoc = 2 → (moveAt s n).next < 31 → hereBytes s ((moveAt s n).grain * grainB + (moveAt s n).next * 65536) 65536 = none → lineBusy s ((moveAt s n).grain * grainB + (moveAt s n).next * 65536) 65536 = false → Answers (.subgrainCopyDone n data) s fun t => moveAt t n = { moveAt s n with next := (moveAt s n).next + 1 } ∧ SameOutside s.tr.hbm t.tr.hbm ((moveAt s n).toFrame * grainB + (moveAt s n).next * 65536) 65536 ∧ t = setMove (trCount { s with tr := { s.tr with hbm := (memWrite s.tr.hbm ((moveAt s n).toFrame * grainB + (moveAt s n).next * 65536) (decipher (slot s (moveAt s n).slot) ((moveAt s n).grain * grainB + (moveAt s n).next * 65536) (fitTo 65536 data))) } } 2 65536) n { moveAt s n with next := (moveAt s n).next + 1 }) ∧
  (∀ (s : State) (n : Nat) (data : Bytes), working s = true → (moveAt s n).active = true → (moveAt s n).running = true → (moveAt s n).toLoc = 1 → (moveAt s n).next = 31 → (tier s (moveAt s n).grain).loc = 3 → lineBusy s ((moveAt s n).grain * grainB + (moveAt s n).next * 65536) 65536 = false → Answers (.subgrainCopyDone n data) s fun t => moveAt t n = {} ∧ tier t (moveAt s n).grain = { loc := 1, frame := 0, state := 0, dirty := 0 } ∧ t = endMove (setMove (trCount s 2 65536) n { moveAt s n with next := 32 }) n { moveAt s n with next := 32 }) ∧
  (∀ (s : State) (g x : Nat), extOf s g = some x → working s = true → (tier s g).loc = 2 → (tier s g).state = 0 → (tier s g).dirty = 0 → (ext s x).state = 1 → (ext s x).bport ≠ 0xFF → dropRank (ext s x) < 3 → tenantFree s (comp s (ext s x).comp).tenant * 16 < tenantFrames s (comp s (ext s x).comp).tenant → dropsBefore s (comp s (ext s x).comp).tenant (ext s x) g = false → Answers (.hbmPressureDrop g) s fun t => (tier t g).loc = 1 ∧ t = stateRecord (dropCopy s g) 8) ∧
  (∀ (s : State) (g x : Nat), extOf s g = some x → working s = true → (tier s g).loc = 2 → (tier s g).state = 0 → (tier s g).dirty ≠ 0 → (ext s x).state = 1 → (ext s x).bport ≠ 0xFF → dropRank (ext s x) < 3 → tenantFree s (comp s (ext s x).comp).tenant * 16 < tenantFrames s (comp s (ext s x).comp).tenant → dropsBefore s (comp s (ext s x).comp).tenant (ext s x) g = false → Answers (.hbmPressureDrop g) s fun t => tier t g = { tier s g with state := 1 } ∧ t = askLeave (setMove (setTier (useTake s (ext s x).kslot) g (tier t g)) (freeMove s) { active := true, grain := g, toLoc := 1, slot := (ext s x).kslot, gen := (ext s x).kgen }) 16 (.move (freeMove s)) 160) ∧
  (∀ (s : State) (x : Nat) (r : Nat × Bool) (tl : List (Nat × Bool)), (ext s x).resync = r :: tl → working s = true → portUp s (if r.2 then (ext s x).mport else (ext s x).bport) = true → lineBusy s ((ext s x).base + r.1 * 65536) 65536 = false → Answers (.mirrorResync x) s fun t => ext t x = { ext s x with resync := tl, degraded := !tl.isEmpty } ∧ t = trCount { s with tr := { s.tr with exts := tput {} s.tr.exts (x) (tget {} t.tr.exts (x)) } } 8 65536)

/-- Tenants, their pseudo-channels and tray ports, and the end of a channel's release. A COMMIT TENANT whose checks pass writes the tenant's entry, assigns or releases a pseudo-channel, or assigns or releases a tray port, and completes with reason zero and the object's status word; a tenant still in use is kept. A channel released holds no durable copy; vacated, it is queued for its scrub; scrubbed, it is UNASSIGNED and counted. -/
def Obligations.TenantCommands : Prop :=
  (∀ (s : State) (cs e : Nat) (d : List W64), Presents s cs 0xF4 d → df d 0 0 2 = 0 → enableOf d = true → Fresh s cs 0xF4 (stampKey okTenant (df d 0 16 16)) → reservedSet d tenantMasks = false → tenantEntry s (df d 0 16 16) = e → e < 16 → waysMeet s (df d 0 16 16) (df d 1 0 16) (·.tlb) = false → waysMeet s (df d 0 16 16) (df d 1 16 16) (·.tmc) = false → Answers (.commitTenant cs) s fun t => Committed s t cs 0 1 ∧ tenant t e = { status := { enabled := true }, id := df d 0 16 16, capture := decide (df d 1 32 1 = 1), tmc := df d 1 16 16, tlb := df d 1 0 16 } ∧ t = ctlComplete (grantCommit (setTenant (dropTmc (dropWays s (df d 1 0 16 - (df d 1 0 16 &&& if (tenant s e).status.enabled then (tenant s e).tlb else 0))) (df d 1 16 16 - (df d 1 16 16 &&& if (tenant s e).status.enabled then (tenant s e).tmc else 0))) e (tenant t e)) cs 0xF4 ((stampKey okTenant (df d 0 16 16)))) cs 0 (some 1) (some (stampKey okTenant (df d 0 16 16))) 64) ∧
  (∀ (s : State) (cs : Nat) (d : List W64), Presents s cs 0xF4 d → df d 0 0 2 = 0 → enableOf d = true → Fresh s cs 0xF4 (stampKey okTenant (df d 0 16 16)) → reservedSet d tenantMasks = false → 16 ≤ tenantEntry s (df d 0 16 16) → Answers (.commitTenant cs) s fun t => Completed s t cs 5 ∧ t = ctlComplete (grantCommit s cs 0xF4 ((stampKey okTenant (df d 0 16 16)))) cs 5 (some (statusWord (refused (tenant s (tenantEntry s (df d 0 16 16))).status 5))) none 64) ∧
  (∀ (s : State) (cs e : Nat) (d : List W64), Presents s cs 0xF4 d → df d 0 0 2 = 0 → enableOf d = false → Fresh s cs 0xF4 (stampKey okTenant (df d 0 16 16)) → tenantOf s (df d 0 16 16) = some e → e < 16 → tenantInUse s (df d 0 16 16) = true → Answers (.commitTenant cs) s fun t => Completed s t cs 0x0A04 ∧ tenant t e = { tenant s e with status := refused (tenant s e).status 0x0A04 } ∧ t = ctlComplete (grantCommit { s with ie := { s.ie with tenants := tput {} s.ie.tenants (e) (tget {} t.ie.tenants (e)) } } cs 0xF4 ((stampKey okTenant (df d 0 16 16)))) cs 0x0A04 (some (statusWord (tenant t e).status)) none 64) ∧
  (∀ (s : State) (cs e : Nat) (d : List W64), Presents s cs 0xF4 d → df d 0 0 2 = 0 → enableOf d = false → Fresh s cs 0xF4 (stampKey okTenant (df d 0 16 16)) → tenantOf s (df d 0 16 16) = some e → e < 16 → tenantInUse s (df d 0 16 16) = false → Answers (.commitTenant cs) s fun t => Committed s t cs 0 0 ∧ tenant t e = {} ∧ t = ctlComplete (grantCommit { s with ie := { s.ie with tenants := tput {} s.ie.tenants (e) (tget {} t.ie.tenants (e)) } } cs 0xF4 ((stampKey okTenant (df d 0 16 16)))) cs 0 (some 0) (some (stampKey okTenant (df d 0 16 16))) 64) ∧
  (∀ (s : State) (cs : Nat) (d : List W64), Presents s cs 0xF4 d → df d 0 0 2 = 1 → enableOf d = true → Fresh s cs 0xF4 (stampKey okTenant (2 ^ 20 + df d 1 0 7)) → (tenantOf s (df d 0 16 16)).isSome = true → reservedSet d tenantMasks = false → pchOut s (df d 1 0 7) = false → (pch s (df d 1 0 7)).state = 1 → Answers (.commitTenantPchAssign cs) s fun t => Completed s t cs 0 ∧ pch t (df d 1 0 7) = { pch s (df d 1 0 7) with state := 2, tenant := df d 0 16 16 } ∧ t = ctlComplete (grantCommit { s with ie := { s.ie with pch := tput {} s.ie.pch (df d 1 0 7) (tget {} t.ie.pch (df d 1 0 7)) } } cs 0xF4 ((stampKey okTenant (2 ^ 20 + df d 1 0 7)))) cs 0 (some (statusWord (tenant s (tenantEntry s (df d 0 16 16))).status)) (some (stampKey okTenant (2 ^ 20 + df d 1 0 7))) 64) ∧
  (∀ (s : State) (cs : Nat) (d : List W64), Presents s cs 0xF4 d → df d 0 0 2 = 1 → enableOf d = true → Fresh s cs 0xF4 (stampKey okTenant (2 ^ 20 + df d 1 0 7)) → tenantOf s (df d 0 16 16) = some (tenantEntry s (df d 0 16 16)) → (tenantEntry s (df d 0 16 16)) < 16 → reservedSet d tenantMasks = false → pchOut s (df d 1 0 7) = false → (pch s (df d 1 0 7)).state ≠ 1 → Answers (.commitTenantPchAssign cs) s fun t => Completed s t cs 0x0A07 ∧ tenant t (tenantEntry s (df d 0 16 16)) = { tenant s (tenantEntry s (df d 0 16 16)) with status := refused (tenant s (tenantEntry s (df d 0 16 16))).status 0x0A07 } ∧ t = ctlComplete (grantCommit { s with ie := { s.ie with tenants := tput {} s.ie.tenants ((tenantEntry s (df d 0 16 16))) (tget {} t.ie.tenants ((tenantEntry s (df d 0 16 16)))) } } cs 0xF4 ((stampKey okTenant (2 ^ 20 + df d 1 0 7)))) cs 0x0A07 (some (statusWord (tenant t (tenantEntry s (df d 0 16 16))).status)) none 64) ∧
  (∀ (s : State) (cs : Nat) (d : List W64), Presents s cs 0xF4 d → df d 0 0 2 = 1 → enableOf d = false → Fresh s cs 0xF4 (stampKey okTenant (2 ^ 20 + df d 1 0 7)) → (tenantOf s (df d 0 16 16)).isSome = true → reservedSet d tenantMasks = false → pchOut s (df d 1 0 7) = false → (pch s (df d 1 0 7)).state = 2 → (pch s (df d 1 0 7)).tenant = df d 0 16 16 → s.tr.reserved.any (fun f => decide (framePch f.1 = df d 1 0 7)) = false → Answers (.commitTenantPchRelease cs) s fun t => Completed s t cs 0 ∧ pch t (df d 1 0 7) = { pch s (df d 1 0 7) with state := 3 } ∧ t = ctlComplete (grantCommit (vacate { s with ie := { s.ie with pch := tput {} s.ie.pch (df d 1 0 7) (tget {} t.ie.pch (df d 1 0 7)) } } (df d 1 0 7)) cs 0xF4 ((stampKey okTenant (2 ^ 20 + df d 1 0 7)))) cs 0 (some (statusWord (tenant s (tenantEntry s (df d 0 16 16))).status)) (some (stampKey okTenant (2 ^ 20 + df d 1 0 7))) 64) ∧
  (∀ (s : State) (cs : Nat) (d : List W64), Presents s cs 0xF4 d → df d 0 0 2 = 2 → enableOf d = true → Fresh s cs 0xF4 (stampKey okTenant (2 ^ 21 + df d 1 0 8)) → (tenantOf s (df d 0 16 16)).isSome = true → reservedSet d tenantMasks = false → df d 1 0 8 ≤ 191 → (port s (df d 1 0 8)).profile = 2 → (iePort s (df d 1 0 8)).assigned = false ∨ (iePort s (df d 1 0 8)).tenant = df d 0 16 16 → Answers (.commitTenantTrayport cs) s fun t => Completed s t cs 0 ∧ iePort t (df d 1 0 8) = { tenant := df d 0 16 16, assigned := true } ∧ t = ctlComplete (grantCommit { s with ie := { s.ie with ports := tput {} s.ie.ports (df d 1 0 8) (tget {} t.ie.ports (df d 1 0 8)) } } cs 0xF4 ((stampKey okTenant (2 ^ 21 + df d 1 0 8)))) cs 0 (some (statusWord (tenant s (tenantEntry s (df d 0 16 16))).status)) (some (stampKey okTenant (2 ^ 21 + df d 1 0 8))) 64) ∧
  (∀ (s : State) (cs : Nat) (d : List W64), Presents s cs 0xF4 d → df d 0 0 2 = 2 → enableOf d = false → Fresh s cs 0xF4 (stampKey okTenant (2 ^ 21 + df d 1 0 8)) → (tenantOf s (df d 0 16 16)).isSome = true → reservedSet d tenantMasks = false → df d 1 0 8 ≤ 191 → (iePort s (df d 1 0 8)).assigned = true → (iePort s (df d 1 0 8)).tenant = df d 0 16 16 → portBacks s (df d 1 0 8) = false → Answers (.commitTenantTrayport cs) s fun t => Completed s t cs 0 ∧ iePort t (df d 1 0 8) = {} ∧ t = ctlComplete (grantCommit { s with ie := { s.ie with ports := tput {} s.ie.ports (df d 1 0 8) (tget {} t.ie.ports (df d 1 0 8)) } } cs 0xF4 ((stampKey okTenant (2 ^ 21 + df d 1 0 8)))) cs 0 (some (statusWord (tenant s (tenantEntry s (df d 0 16 16))).status)) (some (stampKey okTenant (2 ^ 21 + df d 1 0 8))) 64) ∧
  (∀ (s : State) (p : Nat), working s = true → (pch s p).state = 3 → pchCopies s p = [] → Answers (.pchVacated p) s fun t => (scrubEng t (p / 32)).queue = (scrubEng s (p / 32)).queue ++ [(1, p)] ∧ pch t p = { pch s p with state := 4 } ∧ t = queueScrub (stateRecord { s with ie := { s.ie with pch := tput {} s.ie.pch (p) (tget {} t.ie.pch (p)) } } 8) (p / 32) (1, p)) ∧
  (∀ (s : State) (p : Nat), working s = true → (pch s p).state = 4 → scrubbing (endScrubs s) (1, p) = false → Answers (.pchScrubEnd p) s fun t => tget 0 t.ie.ctr 4 = satInc (tget 0 (endScrubs s).ie.ctr 4) 1610612736 ∧ pch t p = { pch s p with state := 1, tenant := 0 } ∧ t = stateRecord (setPch (ieCount (endScrubs s) 4 1610612736) p (pch t p)) 8)

/-- Contexts are bound and unbound, key slots loaded, retired and zeroised, and extents scrubbed. CTX.BIND with its checks passed binds a context to a composition, an ASID and its key slots, and with ENABLE 0 takes the binding away. KEY.LOAD consumes its delivered entry and makes the slot ACTIVE at the next generation with the material's keys; KEY.RETIRE drains it; a drained slot, or one past its deadline, holds no key and is FREE. EXT.SCRUB queues the scrub of every memory-side die and waits; its end frees the extent and zeroes its HBM copies. -/
def Obligations.ContextAndKeySlotCommands : Prop :=
  (∀ (s : State) (cs : Nat) (d : List W64), Presents s cs 0x89 d → enableOf d = true → stampPast s (stampKey okCtx (df d 0 0 10)) (ctl s cs) = false → bindReason s (ctl s cs) d = 0 → Answers (.ctxBind cs) s fun t => Completed s t cs 0 ∧ ctx t (df d 0 0 10) = { status := { enabled := true }, tenant := (comp s (df d 0 32 12)).tenant, comp := df d 0 32 12, asid := df d 1 0 16, slots := [df d 2 0 12, df d 2 12 12, df d 2 24 12, df d 2 36 12], slotV := df d 2 48 4 } ∧ t = ctlComplete { s with ie := { s.ie with ctxs := tput {} s.ie.ctxs (df d 0 0 10) (tget {} t.ie.ctxs (df d 0 0 10)) } } cs 0 none (some (stampKey okCtx (df d 0 0 10))) 64) ∧
  (∀ (s : State) (cs : Nat) (d : List W64), Presents s cs 0x89 d → enableOf d = true → stampPast s (stampKey okCtx (df d 0 0 10)) (ctl s cs) = false → bindReason s (ctl s cs) d ≠ 0 → Answers (.ctxBind cs) s fun t => Completed s t cs (bindReason s (ctl s cs) d) ∧ ctx t (df d 0 0 10) = { ctx s (df d 0 0 10) with status := refused (ctx s (df d 0 0 10)).status (bindReason s (ctl s cs) d) } ∧ t = ctlComplete { s with ie := { s.ie with ctxs := tput {} s.ie.ctxs (df d 0 0 10) (tget {} t.ie.ctxs (df d 0 0 10)) } } cs (bindReason s (ctl s cs) d) none none 64) ∧
  (∀ (s : State) (cs : Nat) (d : List W64), Presents s cs 0x89 d → enableOf d = false → stampPast s (stampKey okCtx (df d 0 0 10)) (ctl s cs) = false → reaches (ctl s cs) (df d 0 32 12) = true → (ctx s (df d 0 0 10)).status.enabled = false ∨ reaches (ctl s cs) (ctx s (df d 0 0 10)).comp = true → Answers (.ctxUnbind cs) s fun t => Completed s t cs 0 ∧ ctx t (df d 0 0 10) = { ctx s (df d 0 0 10) with status := { (ctx s (df d 0 0 10)).status with enabled := false, draining := (ctx s (df d 0 0 10)).resident, reason := 0 } } ∧ t = ctlComplete { s with ie := { s.ie with ctxs := tput {} s.ie.ctxs (df d 0 0 10) (tget {} t.ie.ctxs (df d 0 0 10)) } } cs 0 none (some (stampKey okCtx (df d 0 0 10))) 64) ∧
  (∀ (s : State) (cs : Nat) (d : List W64), Presents s cs 0x87 d → stampPast s (stampKey okSlot (df d 0 0 12)) (ctl s cs) = false → loadReason s (ctl s cs) d = 0 → Answers (.keyLoad cs) s fun t => Completed s t cs 0 ∧ slot t (df d 0 0 12) = { status := { enabled := true }, state := 1, owner := df d 0 48 16, group := df d 1 0 16, comp := df d 0 32 12, gen := (if (slot s (df d 0 0 12)).gen = 255 then 1 else (slot s (df d 0 0 12)).gen + 1), late := (slot s (df d 0 0 12)).late, sealed := decide (df d 0 16 1 = 1), dataKey := keyAt (deliveredOf s (df d 2 0 32)).material 0, tweakKey := keyAt (deliveredOf s (df d 2 0 32)).material 1, macKey := (if df d 0 16 1 = 1 then keyAt (deliveredOf s (df d 2 0 32)).material 2 else 0) } ∧ deliveredOf t (df d 2 0 32) = {} ∧ t = ctlComplete { s with ie := { s.ie with slots := tput {} s.ie.slots (df d 0 0 12) (tget {} t.ie.slots (df d 0 0 12)) }, ta := { s.ta with deliv := tput {} s.ta.deliv (df d 2 0 32 % 256) (tget {} t.ta.deliv (df d 2 0 32 % 256)) } } cs 0 none (some (stampKey okSlot (df d 0 0 12))) 128) ∧
  (∀ (s : State) (cs : Nat) (d : List W64), Presents s cs 0x88 d → stampPast s (stampKey okSlot (df d 0 0 12)) (ctl s cs) = false → reaches (ctl s cs) (slot s (df d 0 0 12)).comp = true → reservedSet d [fmask 0 20, fmask 0 32, 0, 0] = false → 10 ≤ df d 1 0 32 → df d 1 0 32 ≤ 10000 → (slot s (df d 0 0 12)).state = 1 → (slot s (df d 0 0 12)).gen = df d 0 12 8 → Answers (.keyRetire cs) s fun t => Completed s t cs 0 ∧ slot t (df d 0 0 12) = { slot s (df d 0 0 12) with state := 2, status := { enabled := false, draining := true }, deadline := s.now + df d 1 0 32 * 1000 } ∧ t = ctlComplete { s with ie := { s.ie with slots := tput {} s.ie.slots (df d 0 0 12) (tget {} t.ie.slots (df d 0 0 12)) } } cs 0 none (some (stampKey okSlot (df d 0 0 12))) 64) ∧
  (∀ (s : State) (cs : Nat) (d : List W64), Presents s cs 0x88 d → stampPast s (stampKey okSlot (df d 0 0 12)) (ctl s cs) = false → reaches (ctl s cs) (slot s (df d 0 0 12)).comp = true → reservedSet d [fmask 0 20, fmask 0 32, 0, 0] = false → df d 1 0 32 = 0 → (slot s (df d 0 0 12)).state = 1 → (slot s (df d 0 0 12)).gen = df d 0 12 8 → Answers (.keyRetire cs) s fun t => Completed s t cs 0 ∧ slot t (df d 0 0 12) = { slot s (df d 0 0 12) with state := 2, status := { enabled := false, draining := true }, deadline := s.now + 100000 } ∧ t = ctlComplete { s with ie := { s.ie with slots := tput {} s.ie.slots (df d 0 0 12) (tget {} t.ie.slots (df d 0 0 12)) } } cs 0 none (some (stampKey okSlot (df d 0 0 12))) 64) ∧
  (∀ (s : State) (n : Nat), working s = true → (slot s n).state = 2 → (slot s n).uses = 0 → s.tr.moves = [] → Answers (.keyDrainZeroise n) s fun t => slot t n = { slot s n with state := 0, status := {}, uses := 0, dataKey := 0, tweakKey := 0, macKey := 0, deadline := 0 } ∧ tget 0 t.ie.ctr 5 = satInc (tget 0 s.ie.ctr 5) 1 ∧ t = stateRecord (setSlot (ieCount s 5 1) n (slot t n)) 128) ∧
  (∀ (s : State) (n : Nat), working s = true → (slot s n).state = 2 → (slot s n).uses = 0 → Answers (.keyDrainZeroise n) s fun t => (slot t n).state = 0 ∧ (slot t n).dataKey = 0 ∧ (slot t n).tweakKey = 0 ∧ (slot t n).macKey = 0 ∧ t = zeroise s n) ∧
  (∀ (s : State) (n : Nat), working s = true → (slot s n).state = 2 → (slot s n).deadline ≤ s.now → Answers (.keyRetireTimeout n) s fun t => (slot t n).state = 0 ∧ (slot t n).dataKey = 0 ∧ (slot t n).tweakKey = 0 ∧ (slot t n).macKey = 0 ∧ t = zeroise (if (slot s n).uses = 0 then s else faultRecord s (comp s (slot s n).comp).part 7 [w64 (place 0 12 n + place 12 8 (slot s n).gen + place 32 12 (slot s n).comp), w64 (slot s n).uses]) n) ∧
  (∀ (s : State) (cs : Nat) (d : List W64), Presents s cs 0x86 d → stampPast s (stampKey okExtent (df d 0 0 18)) (ctl s cs) = false → (ext s (df d 0 0 18)).comp = df d 0 32 12 → reservedSet d [fmask 0 18 + fmask 32 12, 0, 0, 0] = false → (ext s (df d 0 0 18)).state = 3 → slotLive s (ext s (df d 0 0 18)).kslot (ext s (df d 0 0 18)).kgen = false → Answers (.extScrub cs) s fun t => (ctl t cs).wait = .scrub (df d 0 0 18) ∧ ext t (df d 0 0 18) = { ext s (df d 0 0 18) with state := 4, scrubBy := ctlStamp (ctl s cs), status := {} } ∧ (∀ e : Fin 4, e.val < memDies s → (scrubEng t e).queue = (scrubEng s e).queue ++ [(2, df d 0 0 18)]) ∧ t = setCtl (scrubExtent (dropLeased { s with tr := { s.tr with exts := tput {} s.tr.exts (df d 0 0 18) (tget {} t.tr.exts (df d 0 0 18)) } } (df d 0 0 18)) (df d 0 0 18)) cs { ctl s cs with wait := .scrub (df d 0 0 18) }) ∧
  (∀ (s : State) (x g f : Nat), working s = true → (ext s x).state = 4 → (ext s x).base = g * grainB → (ext s x).grains = 1 → s.tr.tmap = [(g, { loc := 2, frame := f })] → scrubbing (endScrubs s) (2, x) = false → (List.range 9).find? (fun cs => decide ((ctl (endScrubs s) cs).wait = .scrub x)) = none → Answers (.extScrubEnd x) s fun t => ext t x = {} ∧ t.tr.tmap = [] ∧ tget 0 t.tr.frames f = 0 ∧ memGet t.tr.hbm (f * grainB) = 0 ∧ (∀ a, f * grainB ≤ a → a < f * grainB + grainB → memGet t.tr.hbm a = 0) ∧ SameOutside s.tr.hbm t.tr.hbm (f * grainB) grainB ∧ t = stateRecord (setExt { (unreserve (ieCount (freeFrame (endScrubs s) f) 4 grainB) x) with tr := { (unreserve (ieCount (freeFrame (endScrubs s) f) 4 grainB) x).tr with tmap := [] } } x {}) 32) ∧
  (∀ (s : State) (x cs : Nat), working s = true → (ext s x).state = 4 → (ext s x).grains = 0 → s.tr.reserved = [] → scrubbing (endScrubs s) (2, x) = false → (List.range 9).find? (fun cs => decide ((ctl (endScrubs s) cs).wait = .scrub x)) = some cs → Answers (.extScrubEnd x) s fun t => Completed s t cs 0 ∧ ext t x = {} ∧ t = ctlComplete (setExt (ieCount (endScrubs s) 4 0) x {}) cs 0 none (some (stampKey okExtent x)) 64)

/-- Reads, writes, atomics and reduce-writes of a grain in HBM. A READ, WRITE, PWRITE, ATOMIC or REDW that passes the checks of R262 on this switch, whose grain stands in HBM, completes at once: a READ answers the bytes of memory; a WRITE writes its enabled bytes, a PWRITE likewise without an answer; an ATOMIC and a REDW whose key is not in the reply cache write the operation's result, answer, and record their reply; a duplicate answers the recorded reply. Every byte of HBM outside the bytes named stands, and no other state changes but the reply, the heat, the sub-grain's dirty bit and the pass through the pending table and the slot's uses. -/
def Obligations.PoolRequestCommands : Prop :=
  (∀ (s : State) (f : Frame), Admitted s f → f.op = 0x01 → InHbm s (region s f.region).extent (faOff f.dst) → Answers (.readRequest f {}) s fun t => t.te.out = s.te.out ++ [{ f := mkCpl f 0 (memRead s.tr.hbm (hbmAddr s (faOff f.dst)) f.len) }] ∧ t = serve (takeUp s f) f (region s f.region).extent false) ∧
  (∀ (s : State) (f : Frame), atTarget s f = true → formOk f = true → isLease f = false → (epochFence s f).1 = 0 → faOff f.dst < objBase → (regionCheck s f).1 ≠ 0 → f.op = 0x01 → Answers (.readRequest f {}) s fun t => t.te.out = s.te.out ++ [{ f := mkCpl f (regionCheck s f).1 [] }] ∧ t = answer (regionCheck (takeUp s f) f).2 f (regionCheck s f).1) ∧
  (∀ (s : State) (f : Frame), atTarget s f = true → formOk f = true → isLease f = false → (epochFence s f).1 = 0 → faOff f.dst < objBase → (regionCheck s f).1 = 0 → (lastChecks s f).1 = 0 → memWaits s f = true → f.op = 0x01 → exec (.readRequest f {}) s = .next (holdBack s f)) ∧
  (∀ (s : State) (f : Frame), atTarget s f = true → formOk f = true → isLease f = false → (epochFence s f).1 = 0 → f.op = 0x01 → f.len = 8 → objBase ≤ faOff f.dst → (faOff f.dst - objBase) / 8 < 16384 → (objAt s ((faOff f.dst - objBase) / 8)).status.enabled = true → (objAt s ((faOff f.dst - objBase) / 8)).comp = f.comp → exec (.readRequest f {}) s = .next (answer (takeUp s f) f 0 (bytesLE 8 (objAt s ((faOff f.dst - objBase) / 8)).value.toNat))) ∧
  (∀ (s : State) (f : Frame), atTarget s f = true → formOk f = true → isLease f = true → f.op = 0x01 → reloading s .lease (f.region - 0xFF00) = false → (lease s (f.region - 0xFF00)).state = 2 ∨ (lease s (f.region - 0xFF00)).state = 3 → (lease s (f.region - 0xFF00)).borrower = false → f.src = 0xF000 + (lease s (f.region - 0xFF00)).peer → (lease s (f.region - 0xFF00)).base ≤ faOff f.dst → faOff f.dst + f.len ≤ (lease s (f.region - 0xFF00)).base + (lease s (f.region - 0xFF00)).grains * grainB → (lease s (f.region - 0xFF00)).rkey = f.rkey → (lease s (f.region - 0xFF00)).medium = 0 → exec (.readRequest f {}) s = .next (answer (takeUp s f) f 0 (memRead s.tr.hbm ((lease s (f.region - 0xFF00)).frames.getD ((faOff f.dst - (lease s (f.region - 0xFF00)).base) / grainB) 0 * grainB + faOff f.dst % grainB) f.len))) ∧
  (∀ (s : State) (f : Frame), Admitted s { f with group := 0 } → f.op = 0x02 ∨ f.op = 0x06 → InHbm s (region s f.region).extent (faOff f.dst) → Answers (.writeRequest f) s fun t => t.te.out = s.te.out ++ [{ f := mkCpl f 0 [] }] ∧ memRead t.tr.hbm (hbmAddr s (faOff f.dst)) f.data.length = mergeBE f.be (memRead s.tr.hbm (hbmAddr s (faOff f.dst)) f.data.length) f.data ∧ SameOutside s.tr.hbm t.tr.hbm (hbmAddr s (faOff f.dst)) f.data.length ∧ t = serve (takeUp s { f with group := 0 }) { f with group := 0 } (region s f.region).extent false) ∧
  (∀ (s : State) (f : Frame), Admitted s f → f.op = 0x03 → InHbm s (region s f.region).extent (faOff f.dst) → Answers (.pwriteRequest f) s fun t => memRead t.tr.hbm (hbmAddr s (faOff f.dst)) f.data.length = mergeBE f.be (memRead s.tr.hbm (hbmAddr s (faOff f.dst)) f.data.length) f.data ∧ SameOutside s.tr.hbm t.tr.hbm (hbmAddr s (faOff f.dst)) f.data.length ∧ t = serve (takeUp s f) f (region s f.region).extent false) ∧
  (∀ (s : State) (f : Frame), Admitted s f → f.op = 0x04 → InHbm s (region s f.region).extent (faOff f.dst) → cacheStep s f = .fresh → rcFull s f = false → Answers (.atomicRequest f) s fun t => t.te.out = s.te.out ++ [{ f := mkCpl f 0 (memRead s.tr.hbm (hbmAddr s (faOff f.dst)) (opWidth f.opw)) }] ∧ memRead t.tr.hbm (hbmAddr s (faOff f.dst)) (opWidth f.opw) = bytesLE (opWidth f.opw) (atomicOp f.subop (opWidth f.opw) (leAt (memRead s.tr.hbm (hbmAddr s (faOff f.dst)) (opWidth f.opw)) 0 (opWidth f.opw)) (leAt f.data 0 (opWidth f.opw)) (leAt f.data (opWidth f.opw) (opWidth f.opw))) ∧ rcFind t f = some (w64 (leAt (memRead s.tr.hbm (hbmAddr s (faOff f.dst)) (opWidth f.opw)) 0 (opWidth f.opw))) ∧ SameOutside s.tr.hbm t.tr.hbm (hbmAddr s (faOff f.dst)) (opWidth f.opw) ∧ t = serve (takeUp s f) f (region s f.region).extent false) ∧
  (∀ (s : State) (f : Frame), Admitted s f → f.op = 0x05 → (region s f.region).welt = false → InHbm s (region s f.region).extent (faOff f.dst) → cacheStep s f = .fresh → rcFull s f = false → Answers (.redwRequest f) s fun t => t.te.out = s.te.out ++ [{ f := mkCpl f 0 [] }] ∧ memRead t.tr.hbm (hbmAddr s (faOff f.dst)) f.data.length = redwBytes f.subop f.etype (memRead s.tr.hbm (hbmAddr s (faOff f.dst)) f.data.length) f.data ∧ rcFind t f = some 0 ∧ SameOutside s.tr.hbm t.tr.hbm (hbmAddr s (faOff f.dst)) f.data.length ∧ t = serve (takeUp s f) f (region s f.region).extent false) ∧
  (∀ (s : State) (f : Frame) (v : W64), atTarget s f = true → formOk f = true → (epochFence s f).1 = 0 → faOff f.dst < objBase → (regionCheck s f).1 = 0 → f.op = 0x04 → rcFind s f = some v → Answers (.atomicRequest f) s fun t => t.te.out = s.te.out ++ [{ f := mkCpl f 0 (bytesLE (opWidth f.opw) v.toNat) }] ∧ t = answer (teCount (takeUp s f) 0 1) f 0 (bytesLE (opWidth f.opw) v.toNat))

/-- Requests to synchronisation objects, multicast stores, fences, markers, probes and messages. ARRIVE and SIGNAL at their target give the object the value of its kind and record the reply; a multicast store goes to every member under this switch's own request ID; an LFP FENCE with nothing of its source and class under way, and a drain marker, are answered; a PROBE installs its refusal and is answered once nothing of its scope is under way; a message to an endpoint here leaves by its port; a reply-cache entry past its time goes. -/
def Obligations.SynchronisationRequestCommands : Prop :=
  (∀ (s : State) (f : Frame) (n v : Nat), atTarget s f = true → f.op = 0x09 → formOk f = true → objBase ≤ faOff f.dst → f.dst % 16384 = n → cacheStep s f = .fresh → rcFull s f = false → (objAt s n).notify = false → fmUpdate f = true ∨ (epochFence s f).1 = 0 → updateValue s n (updReach s f) false (leAt f.data 0 8) = some v → flowBusy s f = false → Answers (.arriveRequest f) s fun t => objAt t n = { objAt s n with value := w64 v } ∧ t.te.out = s.te.out ++ [{ f := mkCpl f 0 [] }] ∧ rcFind t f = some 0 ∧ t = answer (rcRecord (setObject (takeUp s f) n v) f 0) f 0) ∧
  (∀ (s : State) (f : Frame) (n v : Nat), atTarget s f = true → f.op = 0x09 → formOk f = true → objBase ≤ faOff f.dst → f.dst % 16384 = n → fmUpdate f = true ∨ (epochFence s f).1 = 0 → cacheStep s f = .fresh → rcFull s f = false → updateValue s n (updReach s f) false (leAt f.data 0 8) = some v → flowBusy s f = false → Answers (.arriveRequest f) s fun t => objAt t n = { objAt s n with value := w64 v } ∧ rcFind t f = some 0 ∧ t = answer (rcRecord (setObject (takeUp s f) n v) f 0) f 0) ∧
  (∀ (s : State) (f : Frame) (n v : Nat), atTarget s f = true → f.op = 0x0A → formOk f = true → objBase ≤ faOff f.dst → f.dst % 16384 = n → cacheStep s f = .fresh → rcFull s f = false → (objAt s n).notify = false → fmUpdate f = true ∨ (epochFence s f).1 = 0 → updateValue s n (updReach s f) true (leAt f.data 0 8) = some v → flowBusy s f = false → Answers (.signalRequest f) s fun t => objAt t n = { objAt s n with value := w64 v } ∧ t.te.out = s.te.out ++ [{ f := mkCpl f 0 [] }] ∧ rcFind t f = some 0 ∧ t = answer (rcRecord (setObject (takeUp s f) n v) f 0) f 0) ∧
  (∀ (s : State) (f : Frame) (r : State × Nat), working s = true → f.op = 0x06 → mcwStatus s f = 0 → admitAll (if f.src < 0xF000 then (endpointPort s f.src).getD 192 else 192) s.now (mcwKeep s f) ((mcwCopies s f).map fun c => { f := c }) = some r → Answers (.mcwRequest f) s fun t => t = swCount r.1 (if f.src < 0xF000 then (endpointPort s f.src).getD 192 else 192) 5 r.2) ∧
  (∀ (s : State) (f : Frame) (b : Nat), working s = true → f.op = 0x06 → 0xF000 ≤ f.src → mcwStatus s f = 0 → groupBases (group s f.group) = [b] → egressPort (egressOf (mcwKeep s f) { f := mcwCopy s f b s.te.nextId 0 }) = some 192 → routeHolds (mcwKeep s f) (mcwCopy s f b s.te.nextId 0) = false → alphaOk (mcwKeep s f) 192 (queueOf (mcwKeep s f) 192 (mcwCopy s f b s.te.nextId 0)) (frameCells (mcwCopy s f b s.te.nextId 0)) false = true → Answers (.mcwRequest f) s fun t => t.te.nextId = s.te.nextId + 1 ∧ tget {} t.te.mcw (freeMcw s) = { active := true, frame := f, left := [0xFF] } ∧ t = swCount (enqueue (portOutDone (mcwKeep s f) (mcwCopy s f b s.te.nextId 0)) 192 (stampRoute (mcwKeep s f) (mcwCopy s f b s.te.nextId 0)) 192 s.now) 192 5 1) ∧
  (∀ (s : State) (f : Frame), working s = true → f.op = 0x06 → mcwStatus s f = 3 → exec (.mcwRequest f) s = .next (answer s f 3)) ∧
  (∀ (s : State) (f : Frame), working s = true → f.op = 0x06 → mcwStatus s f = 9 → exec (.mcwRequest f) s = .next (answer (teCount s 7 1) f 9)) ∧
  (∀ (s : State) (f : Frame), atTarget s f = true → f.op = 0x08 → formOk f = true → (epochFence s f).1 = 0 → srcBusy s f = false → Answers (.fenceRequest f) s fun t => t.te.out = s.te.out ++ [{ f := mkCpl f 0 [] }] ∧ t = answer s f 0) ∧
  (∀ (s : State) (f : Frame), atTarget s f = true → f.op = 0x08 → formOk f = true → (epochFence s f).1 ≠ 0 → exec (.fenceRequest f) s = .next (answer (epochFence s f).2 f (epochFence s f).1)) ∧
  (∀ (s : State) (f : Frame), atTarget s f = true → f.op = 0x0B → formOk f = true → Answers (.drainMarker f) s fun t => t.te.out = s.te.out ++ [{ f := mkCpl f 0 [] }] ∧ t = { s with te := { s.te with out := t.te.out } }) ∧
  (∀ (s : State) (f : Frame), atTarget s f = true → f.op = 0x0C → formOk f = true → 6 ≤ f.data.length → leAt f.data 2 1 = 0 → scopeBusy (applyFence s (leAt f.data 0 2) 0 (leAt f.data 4 2)) (leAt f.data 0 2) 0 (leAt f.data 4 2) = false → Answers (.probe f) s fun t => (fenceOf t (leAt f.data 0 2)).comp = true ∧ t = answer (dropProbe (applyFence s (leAt f.data 0 2) 0 (leAt f.data 4 2)) f) f 0) ∧
  (∀ (s : State) (f : Frame), atTarget s f = true → f.op = 0x0C → formOk f = true → 6 ≤ f.data.length → leAt f.data 2 1 = 1 → fenceFull s (leAt f.data 0 2) 1 (leAt f.data 4 2) = false → scopeBusy (applyFence s (leAt f.data 0 2) 1 (leAt f.data 4 2)) (leAt f.data 0 2) 1 (leAt f.data 4 2) = false → Answers (.probe f) s fun t => (fenceOf t (leAt f.data 0 2)).peers.contains (leAt f.data 4 2) = true ∧ t = answer (dropProbe (applyFence s (leAt f.data 0 2) 1 (leAt f.data 4 2)) f) f 0) ∧
  (∀ (s : State) (f : Frame), atTarget s f = true → f.op = 0x0C → formOk f = true → 6 ≤ f.data.length → leAt f.data 2 1 = 1 → fenceFull s (leAt f.data 0 2) 1 (leAt f.data 4 2) = false → scopeBusy (applyFence s (leAt f.data 0 2) 1 (leAt f.data 4 2)) (leAt f.data 0 2) 1 (leAt f.data 4 2) = true → Answers (.probe f) s fun t => (fenceOf t (leAt f.data 0 2)).peers.contains (leAt f.data 4 2) = true ∧ t.te.probes.contains { src := f.src, dst := f.dst, stream := f.stream, tag := f.tag, comp := leAt f.data 0 2, kind := 1, peer := leAt f.data 4 2 } = true ∧ t = keepProbe (applyFence s (leAt f.data 0 2) 1 (leAt f.data 4 2)) { src := f.src, dst := f.dst, stream := f.stream, tag := f.tag, comp := (leAt f.data 0 2), kind := 1, peer := (leAt f.data 4 2) }) ∧
  (∀ (s : State) (f : Frame) (p : Nat), atTarget s f = true → f.op = 0x07 → formOk f = true → isLeaseMsg f = false → (epochFence s f).1 = 0 → endpointPort s (f.dst % 65536) = some p → portUp s p = true → Answers (.msgRequest f) s fun t => t.te.out = s.te.out ++ [{ f := f, via := some p }] ∧ t = sendOut s f (some p)) ∧
  (∀ (s : State) (i : Nat) (e : RcEntry), working s = true → s.te.rc[i]? = some e → e.expiry ≤ s.now → (replayFrom s).isNone = true → Answers (.replyCacheExpiry i) s fun t => t.te.rc = s.te.rc.eraseIdx i ∧ t = { s with te := { s.te with rc := t.te.rc } })

/-- Completions, resends and timeouts of this switch's own requests. A completion ends the outstanding request it names and clears its peer's timeouts; RETRY_LATER sends an untagged request again at once; a tagged request is sent again 20 microseconds after its last sending; a request past its timeout ends with TIMEOUT, and its peer's consecutive timeouts count. -/
def Obligations.EngineReplyCommands : Prop :=
  (∀ (s : State) (f : Frame) (o : OutReq) (k : Nat), working s = true → f.op = 0x0F → f.status = 0 → outEnds s f = some o → o.what = .notice → peerOf s o = some k → (peer s k).suspect = false → Answers (.cplReceive f) s fun t => t.te.outst = s.te.outst.erase o ∧ peer t k = { peer s k with timeouts := 0, lastOk := s.now } ∧ t = { s with te := { s.te with outst := t.te.outst, peers := tput {} s.te.peers (k) (tget {} t.te.peers (k)) } }) ∧
  (∀ (s : State) (f : Frame) (o : OutReq), working s = true → f.op = 0x0F → f.status ≠ 1 ∨ ownRetry o.what = true → outEnds s f = some o → Answers (.cplReceive f) s fun t => t = reqDone (peerSaw (outDrop s o) o f.status) o f.status f.mediaErr f.dropped f.data) ∧
  (∀ (s : State) (f : Frame) (o : OutReq), working s = true → f.op = 0x0F → f.status = 1 → outEnds s f = some o → ownRetry o.what = false → taggedOp o.frame.op = false → Answers (.cplReceive f) s fun t => t.te.out = s.te.out ++ [{ f := o.frame, via := o.via }] ∧ t.te.outst = (s.te.outst.map fun x => if x = o then { x with lastSend := s.now } else x) ∧ t = { s with te := { s.te with out := t.te.out, outst := t.te.outst } }) ∧
  (∀ (s : State) (stream tag : Nat) (o : OutReq), working s = true → outFind s stream tag = some o → taggedOp o.frame.op = true → o.held = false → o.lastSend + 20000 ≤ s.now → Answers (.taggedResend stream tag) s fun t => t.te.out = s.te.out ++ [{ f := o.frame, via := o.via }] ∧ t.te.outst = (s.te.outst.map fun x => if x = o then { x with lastSend := s.now } else x) ∧ tget 0 t.te.ctr 3 = satInc (tget 0 s.te.ctr 3) 1 ∧ t = { s with te := { s.te with out := t.te.out, outst := t.te.outst, ctr := tput 0 s.te.ctr (3) (tget 0 t.te.ctr (3)) } }) ∧
  (∀ (s : State) (stream tag : Nat) (o : OutReq) (k : Nat), working s = true → outFind s stream tag = some o → o.what = .notice → o.held = false → o.issued + ctoNs s o.frame.comp ≤ s.now → peerOf s o = some k → (peer s k).timeouts < 7 → Answers (.completionTimeout stream tag) s fun t => t.te.outst = s.te.outst.erase o ∧ (peer t k).timeouts = (peer s k).timeouts + 1 ∧ tget 0 t.te.ctr 4 = satInc (tget 0 s.te.ctr 4) 1 ∧ t = { s with te := { s.te with outst := t.te.outst, ctr := tput 0 s.te.ctr (4) (tget 0 t.te.ctr (4)), peers := tput {} s.te.peers (k) { tget {} s.te.peers (k) with timeouts := (tget {} t.te.peers (k)).timeouts } } }) ∧
  (∀ (s : State) (stream tag : Nat) (o : OutReq) (k : Nat), working s = true → outFind s stream tag = some o → o.what = .notice → o.held = false → o.issued + ctoNs s o.frame.comp ≤ s.now → peerOf s o = some k → 7 ≤ (peer s k).timeouts → Answers (.completionTimeout stream tag) s fun t => (peer t k).suspect = true ∧ t.te.outst = s.te.outst.erase o ∧ t = teCount (suspect (setPeer { s with te := { s.te with outst := t.te.outst } } k { peer s k with timeouts := (peer s k).timeouts + 1 }) k 1) 4 1)

/-- Page-table walks, faults, invalidations and address spaces. A walk's read that returns a valid pointer takes the walk a level down; a leaf installs its translation and ends the walk; an absent entry opens a fault for the waiter. A held fault opens a free entry; a held fault record is written when its ring has space. ASID.INVAL drops every cached translation of the ASID and waits; when the requests translated before have ended it completes. A COMMIT ASID enables the object with its table, or disables it and drops its translations. -/
def Obligations.TranslationCommands : Prop :=
  (∀ (s : State) (n status x : Nat) (data : W64) (bs : Bytes) (w : Walk), working s = true → walkRuns s n = true → tget {} s.tu.walks n = w → (asid s w.asid).status.enabled = true → w.poisoned = false → ownRead s (walkFa w) 8 status (bytesLE 8 data.toNat) = (0, bs) → (w64 (leAt bs 0 8)).toNat = x → x % 2 = 1 → pteBad s w.level x = false → w.level < 3 → fldN x 1 1 = 0 → Answers (.walkReadDone n status data) s fun t => tget {} t.tu.walks n = { w with level := w.level + 1, table := fldN x 16 44 * 65536 } ∧ tget 0 t.tu.ctr 2 = satInc (tget 0 s.tu.ctr 2) 1 ∧ t = sliceInstall { s with tu := { s.tu with walks := tput {} s.tu.walks (n) (tget {} t.tu.walks (n)), ctr := tput 0 s.tu.ctr (2) (tget 0 t.tu.ctr (2)) } } w.slice (tlbMask s w.tenant) { asid := w.asid, key := w.vpn * 65536 / 2 ^ keyShift w.level, kind := w.level, fa := fldN x 16 44 * 65536 }) ∧
  (∀ (s : State) (n status x : Nat) (data : W64) (bs : Bytes) (w : Walk) (r : Nat) (y : Region), working s = true → walkRuns s n = true → tget {} s.tu.walks n = w → (asid s w.asid).status.enabled = true → w.poisoned = false → w.waiters = [] → ownRead s (walkFa w) 8 status (bytesLE 8 data.toNat) = (0, bs) → (w64 (leAt bs 0 8)).toNat = x → x % 2 = 1 → pteBad s w.level x = false → w.level = 3 → regionFor s w.comp (fldN x 16 44 * 65536 + w.vpn * 65536 % 2 ^ 16) = some (r, y) → tlbMask s w.tenant ≠ 0 → Answers (.walkReadDone n status data) s fun t => (sliceFind t w.slice (2 ^ (pickWay (sliceEnts s w.slice) (tlbMask s w.tenant) 3 w.vpn)) w.asid (w.vpn * 65536) 3).isSome = true ∧ tget {} t.tu.walks n = {} ∧ tget 0 t.tu.ctr 2 = satInc (tget 0 s.tu.ctr 2) 1 ∧ t = sliceInstall { s with tu := { s.tu with walks := tput {} s.tu.walks (n) (tget {} t.tu.walks (n)), ctr := tput 0 s.tu.ctr (2) (tget 0 t.tu.ctr (2)) } } w.slice (tlbMask s w.tenant) { asid := w.asid, key := w.vpn * 65536 / 2 ^ 16, kind := 3, fa := fldN x 16 44 * 65536, rights := pteRights x, region := r, rkey := y.rkey, entry := walkFa w }) ∧
  (∀ (s : State) (n status x : Nat) (data : W64) (bs : Bytes) (w : Walk) (r : Nat) (y : Region), working s = true → walkRuns s n = true → tget {} s.tu.walks n = w → (asid s w.asid).status.enabled = true → w.poisoned = false → ownRead s (walkFa w) 8 status (bytesLE 8 data.toNat) = (0, bs) → (w64 (leAt bs 0 8)).toNat = x → x % 2 = 1 → pteBad s w.level x = false → w.level = 3 → regionFor s w.comp (fldN x 16 44 * 65536 + w.vpn * 65536 % 2 ^ 16) = some (r, y) → Answers (.walkReadDone n status data) s fun t => t = (w.waiters.map (·.1)).foldl engGo ((w.waiters.map (·.1)).foldl (fun s g => microInstall s (engNo s g) { asid := w.asid, key := w.vpn * 65536 / 2 ^ 16, kind := 3, fa := fldN x 16 44 * 65536, rights := pteRights x, region := r, rkey := y.rkey, entry := walkFa w }) (sliceInstall (dropWalk (tuCount s 2 1) n) w.slice (tlbMask s w.tenant) { asid := w.asid, key := w.vpn * 65536 / 2 ^ 16, kind := 3, fa := fldN x 16 44 * 65536, rights := pteRights x, region := r, rkey := y.rkey, entry := walkFa w }))) ∧
  (∀ (s : State) (n status : Nat) (data : W64) (bs : Bytes) (w : Walk), working s = true → walkRuns s n = true → tget {} s.tu.walks n = w → (asid s w.asid).status.enabled = true → w.poisoned = false → ownRead s (walkFa w) 8 status (bytesLE 8 data.toNat) = (0, bs) → (w64 (leAt bs 0 8)).toNat % 2 = 0 → Answers (.walkReadDone n status data) s fun t => t = w.waiters.foldl (fun s y => raiseFault s (waiterAcc w y) 0 0 w.level (walkFa w)) (dropWalk (tuCount s 2 1) n)) ∧
  (∀ (s : State) (x : Nat × EngFault) (l : List (Nat × EngFault)) (i : Nat), working s = true → heldFaults s = x :: l → openFault s x.2.asid x.2.vpn = none → freeFault s = some i → Answers (.faultTableRetry) s fun t => (faultEnt t i).state = 1 ∧ (faultEnt t i).asid = x.2.asid ∧ (faultEnt t i).vpn = x.2.vpn ∧ (faultEnt t i).waiters = [x.2.eng] ∧ t.tu.rrEng = x.1 + 1 ∧ t = takeFault { s with tu := { s.tu with rrEng := t.tu.rrEng } } x.2) ∧
  (∀ (s : State) (p : Nat) (ws : List W64), working s = true → p < 16 → s.cc.bootDone = true → ringFull (ring s p) = false → nextHeld p (ring s p) = some ws → Answers (.faultRecordRetry p) s fun t => (ring t p).prod = (ring s p).prod + 1 ∧ memRead t.cc.bulk ((ring s p).base + (ring s p).prod.toNat % 2 ^ (ring s p).size * 64) 64 = fitTo 64 (wordsBytes ws) ∧ (ring t p).held = (ring s p).held.erase ws ∧ (ring t p).turn = heldSrc ws ∧ SameOutside s.cc.bulk t.cc.bulk ((ring s p).base + (ring s p).prod.toNat % 2 ^ (ring s p).size * 64) 64 ∧ t = ringPut (setRing s p { ring s p with held := (ring s p).held.erase ws, turn := heldSrc ws }) p ws) ∧
  (∀ (s : State) (cs : Nat) (d : List W64), Presents s cs 0x8A d → df d 0 16 2 = 0 → stampPast s (stampKey okAsid (df d 0 0 16)) (ctl s cs) = false → invalReason s (ctl s cs) d = 0 → reaches (ctl s cs) (asid s (df d 0 0 16)).comp = true → Answers (.asidInvalNone cs) s fun t => (ctl t cs).wait = .inval (df d 0 0 16) 0 (df d 1 0 16) (df d 1 16 8) 0 s.now ∧ (∀ i : Fin 4, (sliceEnts t i).all (fun e => decide (e.asid ≠ df d 0 0 16)) = true) ∧ asid t (df d 0 0 16) = { asid s (df d 0 0 16) with status := { (asid s (df d 0 0 16)).status with draining := true, reason := 0 } } ∧ t = setCtl (setAsid (dropAsid s (df d 0 0 16)) (df d 0 0 16) (asid t (df d 0 0 16))) cs { ctl s cs with wait := .inval (df d 0 0 16) 0 (df d 1 0 16) (df d 1 16 8) 0 s.now }) ∧
  (∀ (s : State) (cs : Nat) (d : List W64), Presents s cs 0x8A d → df d 0 16 2 = 1 → stampPast s (stampKey okAsid (df d 0 0 16)) (ctl s cs) = false → invalReason s (ctl s cs) d = 0 → reaches (ctl s cs) (asid s (df d 0 0 16)).comp = true → Answers (.asidInvalRetryAll cs) s fun t => (ctl t cs).wait = .inval (df d 0 0 16) 1 (df d 1 0 16) (df d 1 16 8) 0 s.now ∧ (∀ i : Fin 4, (sliceEnts t i).all (fun e => decide (e.asid ≠ df d 0 0 16)) = true) ∧ asid t (df d 0 0 16) = { asid s (df d 0 0 16) with status := { (asid s (df d 0 0 16)).status with draining := true, reason := 0 } } ∧ t = setCtl (setAsid (dropAsid s (df d 0 0 16)) (df d 0 0 16) (asid t (df d 0 0 16))) cs { ctl s cs with wait := .inval (df d 0 0 16) 1 (df d 1 0 16) (df d 1 16 8) 0 s.now }) ∧
  (∀ (s : State) (cs : Nat) (d : List W64), Presents s cs 0x8A d → df d 0 16 2 = 2 → stampPast s (stampKey okAsid (df d 0 0 16)) (ctl s cs) = false → invalReason s (ctl s cs) d = 0 → reaches (ctl s cs) (asid s (df d 0 0 16)).comp = true → Answers (.asidInvalAbort cs) s fun t => (ctl t cs).wait = .inval (df d 0 0 16) 2 (df d 1 0 16) (df d 1 16 8) 0 s.now ∧ (∀ i : Fin 4, (sliceEnts t i).all (fun e => decide (e.asid ≠ df d 0 0 16)) = true) ∧ asid t (df d 0 0 16) = { asid s (df d 0 0 16) with status := { (asid s (df d 0 0 16)).status with draining := true, reason := 0 } } ∧ t = setCtl (setAsid (dropAsid s (df d 0 0 16)) (df d 0 0 16) (asid t (df d 0 0 16))) cs { ctl s cs with wait := .inval (df d 0 0 16) 2 (df d 1 0 16) (df d 1 16 8) 0 s.now }) ∧
  (∀ (s : State) (cs a fid st r since : Nat), working s = true → (ctl s cs).wait = .inval a 0 fid st r since → asidBusy s a since = false → Answers (.asidInvalDrained cs) s fun t => Completed s t cs r ∧ tget 0 t.tu.ctr 7 = satInc (tget 0 s.tu.ctr 7) 1 ∧ asid t a = { asid s a with status := { (asid s a).status with draining := invalWaits t a } } ∧ t = setAsid (ctlFinish (tuCount (if r = 0 then { s with stamps := (tput {} s.stamps (stampKey okAsid a) (ctlStamp (ctl s cs))) } else s) 7 1) cs r none) a (asid t a)) ∧
  (∀ (s : State) (cs a fid st r since : Nat), working s = true → (ctl s cs).wait = .inval a 1 fid st r since → asidBusy s a since = false → openOf s a = [] → Answers (.asidInvalDrained cs) s fun t => Completed s t cs r ∧ asid t a = { asid s a with status := { (asid s a).status with draining := invalWaits t a } } ∧ t = setAsid (ctlFinish (tuCount (if r = 0 then { s with stamps := (tput {} s.stamps (stampKey okAsid a) (ctlStamp (ctl s cs))) } else s) 7 1) cs r none) a (asid t a)) ∧
  (∀ (s : State) (cs a act fid st since : Nat), working s = true → (ctl s cs).wait = .inval a act fid st 0 since → asidBusy s a since = false → Answers (.asidInvalDrained cs) s fun t => t = invalApply (setAsid (ctlFinish (tuCount { s with stamps := (tput {} s.stamps (stampKey okAsid a) (ctlStamp (ctl s cs))) } 7 1) cs 0 none) a { asid s a with status := { (asid s a).status with draining := invalWaits (ctlFinish s cs 0 none) a } }) a act fid st) ∧
  (∀ (s : State) (cs : Nat) (d : List W64), Presents s cs 0xEF d → enableOf d = true → Fresh s cs 0xEF (stampKey okAsid (df d 0 0 16)) → asidReason s d = 0 → Answers (.commitAsid cs) s fun t => Committed s t cs 0 (1 ||| w64 (place 20 12 (df d 0 32 12))) ∧ asid t (df d 0 0 16) = { status := { enabled := true }, root := df d 1 0 60, comp := df d 0 32 12 } ∧ t = ctlComplete (grantCommit { s with tu := { s.tu with asids := tput {} s.tu.asids (df d 0 0 16) (tget {} t.tu.asids (df d 0 0 16)) } } cs 0xEF ((stampKey okAsid (df d 0 0 16)))) cs 0 (some (1 ||| w64 (place 20 12 (df d 0 32 12)))) (some (stampKey okAsid (df d 0 0 16))) 64) ∧
  (∀ (s : State) (cs : Nat) (d : List W64), Presents s cs 0xEF d → enableOf d = false → Fresh s cs 0xEF (stampKey okAsid (df d 0 0 16)) → s.tu.faults = [] → s.tu.eng = [] → Answers (.commitAsid cs) s fun t => Completed s t cs 0 ∧ (asid t (df d 0 0 16)).status.enabled = false ∧ (∀ i : Fin 4, (sliceEnts t i).all (fun e => decide (e.asid ≠ df d 0 0 16)) = true) ∧ t = ctlComplete (grantCommit (disableAsid s (df d 0 0 16)) cs 0xEF ((stampKey okAsid (df d 0 0 16)))) cs 0 (some (asidWord (asid t (df d 0 0 16)))) (some (stampKey okAsid (df d 0 0 16))) 64) ∧
  (∀ (s : State) (cs : Nat) (d : List W64), Presents s cs 0xEF d → enableOf d = false → Fresh s cs 0xEF (stampKey okAsid (df d 0 0 16)) → Answers (.commitAsid cs) s fun t => t = ctlComplete (disableAsid (grantCommit s cs 0xEF (stampKey okAsid (df d 0 0 16))) (df d 0 0 16)) cs 0 (some (asidWord (asid (disableAsid (grantCommit s cs 0xEF (stampKey okAsid (df d 0 0 16))) (df d 0 0 16)) (df d 0 0 16)))) (some (stampKey okAsid (df d 0 0 16))) 64)

/-- Coding tables are stored, installed, released and deleted. TABLE.LOAD STORE keeps a record that passes the checks; INSTALL of a stored table begins to load its next generation, the resident one becoming OLD, or waits while OLD is referenced, and then loads; a loaded generation becomes NEW with the number after the ID's last and the instruction completes; RELEASE drains the resident entry and DELETE also takes the stored record once no reference remains. -/
def Obligations.CodingTableCommands : Prop :=
  (∀ (s : State) (cs status : Nat) (data b : Bytes) (d : List W64), Presents s cs 0x90 d → tabAct d = 0 → Fresh s cs 0x90 (stampKey okTable (tabId d)) → fetchBytes s (wd d 1) 160 status data = some b → tabChecks s (ctl s cs) d false (decide (df d 1 0 60 % 64 ≠ 0) || (!bit (wd d 1) 63 && !pagesInGen s (df d 1 0 60 / 4096 * 4096) (df d 1 0 60 % 4096 + 160))) = 0 → recReason b = 0 → tabOther s d = false → Answers (.tableStore cs status data) s fun t => Completed s t cs 0 ∧ gvStore t (tabId d) = { gvStore s (tabId d) with present := true, record := b, comp := df d 0 32 12, owned := true, enabled := true, reason := 0 } ∧ t = ctlComplete (grantCommit { s with gv := { s.gv with store := tput {} s.gv.store (tabId d) (tget {} t.gv.store (tabId d)) } } cs 0x90 ((stampKey okTable (tabId d)))) cs 0 none (some (stampKey okTable (tabId d))) 192) ∧
  (∀ (s : State) (cs status : Nat) (data b : Bytes) (d : List W64), Presents s cs 0x90 d → tabAct d = 0 → Fresh s cs 0x90 (stampKey okTable (tabId d)) → fetchBytes s (wd d 1) 160 status data = some b → tabChecks s (ctl s cs) d false (decide (df d 1 0 60 % 64 ≠ 0) || (!bit (wd d 1) 63 && !pagesInGen s (df d 1 0 60 / 4096 * 4096) (df d 1 0 60 % 4096 + 160))) = 0 → recReason b ≠ 0 → Answers (.tableStore cs status data) s fun t => Completed s t cs (recReason b) ∧ gvStore t (tabId d) = { gvStore s (tabId d) with reason := recReason b } ∧ t = ctlComplete (grantCommit { s with gv := { s.gv with store := tput {} s.gv.store (tabId d) (tget {} t.gv.store (tabId d)) } } cs 0x90 ((stampKey okTable (tabId d)))) cs (recReason b) none none 192) ∧
  (∀ (s : State) (cs k : Nat) (d : List W64) (x : GvRes), Presents s cs 0x90 d → tabAct d = 1 → Fresh s cs 0x90 (stampKey okTable (tabId d)) → tabChecks s (ctl s cs) d false false = 0 → tabOther s d = false → (gvStore s (tabId d)).present = true → resOf s (tabId d) = some (k, x) → tget {} s.gv.res k = x → x.oldLive = false ∨ x.oldRefs = 0 → Answers (.tableInstall cs) s fun t => (ctl t cs).wait = .resident k ∧ tget {} t.gv.res k = { x with oldLive := decide (x.newGen ≠ 0), oldGen := x.newGen, oldRec := x.newRec, oldRefs := x.newRefs, newGen := 0, newRec := [], newRefs := 0, closing := false, pend := none, loading := true, retired := if x.oldLive then some (x.oldGen, x.oldRec) else none } ∧ t = setCtl (beginLoad (setStore (grantCommit s cs 0x90 (stampKey okTable (tabId d))) (tabId d) { gvStore s (tabId d) with reason := 0 }) k) cs { ctl s cs with wait := .resident k }) ∧
  (∀ (s : State) (cs k : Nat) (d : List W64), Presents s cs 0x90 d → tabAct d = 1 → Fresh s cs 0x90 (stampKey okTable (tabId d)) → tabChecks s (ctl s cs) d false false = 0 → tabOther s d = false → (gvStore s (tabId d)).present = true → resOf s (tabId d) = none → freeRes s = some k → Answers (.tableInstall cs) s fun t => (ctl t cs).wait = .resident k ∧ tget {} t.gv.res k = { valid := true, table := tabId d, comp := (gvStore s (tabId d)).comp, loading := true } ∧ gvStore t (tabId d) = { gvStore s (tabId d) with reason := 0, res := some k } ∧ t = setCtl (grantCommit { s with gv := { s.gv with store := tput {} s.gv.store (tabId d) (tget {} t.gv.store (tabId d)), res := tput {} s.gv.res (k) (tget {} t.gv.res (k)) } } cs 0x90 (stampKey okTable (tabId d))) cs { ctl s cs with wait := .resident k }) ∧
  (∀ (s : State) (cs k : Nat) (d : List W64) (x : GvRes), Presents s cs 0x90 d → tabAct d = 1 → Fresh s cs 0x90 (stampKey okTable (tabId d)) → tabChecks s (ctl s cs) d false false = 0 → tabOther s d = false → (gvStore s (tabId d)).present = true → resOf s (tabId d) = some (k, x) → x.oldLive = true → x.oldRefs ≠ 0 → Answers (.tableInstall cs) s fun t => (ctl t cs).wait = .install k ∧ tget {} t.gv.res k = { x with closing := true, pend := some cs, waitT := s.now } ∧ t = setCtl (setRes (setStore (grantCommit s cs 0x90 (stampKey okTable (tabId d))) (tabId d) { gvStore s (tabId d) with reason := 0 }) k (tget {} t.gv.res k)) cs { ctl s cs with wait := .install k }) ∧
  (∀ (s : State) (id k cs : Nat) (x : GvRes), working s = true → resOf s id = some (k, x) → tget {} s.gv.res k = x → x.pend = some cs → x.oldRefs = 0 → Answers (.installWaitEnd id) s fun t => (ctl t cs).wait = .resident k ∧ (tget {} t.gv.res k).oldGen = x.newGen ∧ (tget {} t.gv.res k).loading = true ∧ (tget {} t.gv.res k).pend = none ∧ t = setCtl (beginLoad (gvCount s 6 ((s.now - x.waitT) * 7 / 4)) k) cs { ctl s cs with wait := .resident k }) ∧
  (∀ (s : State) (id k cs : Nat) (x : GvRes), working s = true → stagingWaits s = false → resOf s id = some (k, x) → x.loading = true → loadWaiter s k = some cs → (ctl s cs).wait = .resident k → x.retired = none → Answers (.installResident id) s fun t => Completed s t cs 0 ∧ (gvStore t id).lastGen = nextGen (gvStore s id).lastGen ∧ tget {} t.gv.res k = { x with loading := false, retired := none, newGen := nextGen (gvStore s id).lastGen, newRec := (gvStore s id).record, newRefs := 0 } ∧ t = ctlComplete (digestNote { s with gv := { s.gv with res := tput {} s.gv.res (k) (tget {} t.gv.res (k)), store := tput {} s.gv.store (id) { tget {} s.gv.store (id) with lastGen := (tget {} t.gv.store (id)).lastGen } } } (3 * 65536 + id) true (recDigest (gvStore s id).record)) cs 0 none (some (stampKey okTable id)) 192) ∧
  (∀ (s : State) (id k cs g : Nat) (b : Bytes) (x : GvRes), working s = true → stagingWaits s = false → resOf s id = some (k, x) → x.loading = true → loadWaiter s k = some cs → (ctl s cs).wait = .resident k → x.retired = some (g, b) → Answers (.installResident id) s fun t => Completed s t cs 0 ∧ tget {} t.gv.res k = { x with loading := false, retired := none, newGen := nextGen (gvStore s id).lastGen, newRec := (gvStore s id).record, newRefs := 0 } ∧ (gvStore t id).lastGen = nextGen (gvStore s id).lastGen ∧ t = ctlComplete (digestNote (digestNote { s with gv := { s.gv with res := tput {} s.gv.res (k) (tget {} t.gv.res (k)), store := tput {} s.gv.store (id) { tget {} s.gv.store (id) with lastGen := (tget {} t.gv.store (id)).lastGen } } } (3 * 65536 + id) true (recDigest (gvStore s id).record)) (3 * 65536 + id) false (recDigest b)) cs 0 none (some (stampKey okTable id)) 192) ∧
  (∀ (s : State) (cs k : Nat) (d : List W64) (x : GvRes), Presents s cs 0x90 d → tabAct d = 2 → Fresh s cs 0x90 (stampKey okTable (tabId d)) → tabChecks s (ctl s cs) d false false = 0 → tabOther s d = false → (gvStore s (tabId d)).present = true → resOf s (tabId d) = some (k, x) → Answers (.tableRelease cs) s fun t => Completed s t cs 0 ∧ tget {} t.gv.res k = { x with draining := true, deleting := x.deleting, pend := none, closing := false, loading := false } ∧ (gvStore t (tabId d)).reason = 0 ∧ t = ctlComplete (grantCommit { s with gv := { s.gv with store := tput {} s.gv.store (tabId d) { tget {} s.gv.store (tabId d) with reason := (tget {} t.gv.store (tabId d)).reason }, res := tput {} s.gv.res (k) (tget {} t.gv.res (k)) } } cs 0x90 ((stampKey okTable (tabId d)))) cs 0 none (some (stampKey okTable (tabId d))) 192) ∧
  (∀ (s : State) (cs k : Nat) (d : List W64) (x : GvRes), Presents s cs 0x90 d → tabAct d = 3 → Fresh s cs 0x90 (stampKey okTable (tabId d)) → tabChecks s (ctl s cs) d false false = 0 → tabOther s d = false → (gvStore s (tabId d)).present = true → resOf s (tabId d) = some (k, x) → Answers (.tableDelete cs) s fun t => Completed s t cs 0 ∧ tget {} t.gv.res k = { x with draining := true, deleting := true, pend := none, closing := false, loading := false } ∧ (gvStore t (tabId d)).reason = 0 ∧ t = ctlComplete (grantCommit { s with gv := { s.gv with store := tput {} s.gv.store (tabId d) { tget {} s.gv.store (tabId d) with reason := (tget {} t.gv.store (tabId d)).reason }, res := tput {} s.gv.res (k) (tget {} t.gv.res (k)) } } cs 0x90 ((stampKey okTable (tabId d)))) cs 0 none (some (stampKey okTable (tabId d))) 192) ∧
  (∀ (s : State) (cs : Nat) (d : List W64), Presents s cs 0x90 d → tabAct d = 3 → Fresh s cs 0x90 (stampKey okTable (tabId d)) → tabChecks s (ctl s cs) d false false = 0 → tabOther s d = false → (gvStore s (tabId d)).present = true → resOf s (tabId d) = none → Answers (.tableDelete cs) s fun t => Completed s t cs 0 ∧ gvStore t (tabId d) = { lastGen := (gvStore s (tabId d)).lastGen } ∧ t = ctlComplete (grantCommit { s with gv := { s.gv with store := tput {} s.gv.store (tabId d) (tget {} t.gv.store (tabId d)) } } cs 0x90 ((stampKey okTable (tabId d)))) cs 0 none (some (stampKey okTable (tabId d))) 192) ∧
  (∀ (s : State) (id k : Nat) (x : GvRes), working s = true → resOf s id = some (k, x) → x.draining = true → x.newRefs + x.oldRefs = 0 → Answers (.tableDrainEnd id) s fun t => tget {} t.gv.res k = {} ∧ gvStore t id = (if x.deleting then ({ lastGen := (gvStore s id).lastGen } : GvStore) else { gvStore s id with res := none }) ∧ t = stateRecord (setStore ((resDigests x).foldl (fun s d => digestNote s (3 * 65536 + id) false d) (setRes s k {})) id (gvStore t id)) 192)

/-- Patterns are enabled, disabled and drained. A COMMIT PATTERN whose checks pass keeps the image under the slot's next generation and raises the digest count; one that fails leaves the slot with its reason; disabling a slot keeps its image and drains while a running job uses it; it has drained once none does. -/
def Obligations.PatternStoreCommands : Prop :=
  (∀ (s : State) (cs status : Nat) (data b : Bytes) (d : List W64), Presents s cs 0xE0 d → enableOf d = true → Fresh s cs 0xE0 (stampKey okPattern (df d 0 0 12)) → patImage s d status data = some b → patReason s (ctl s cs) d (some b) = 0 → df d 0 48 1 = 1 → Answers (.commitPattern cs status data) s fun t => Committed s t cs 0 (patWord t (df d 0 0 12)) ∧ pat t (df d 0 0 12) = { status := { enabled := true }, gen := ((pat s (df d 0 0 12)).gen + 1) % 16, ever := true, pwide := true, part := (ctl s cs).part, image := b, digest := imgDigest b } ∧ t = ctlComplete (grantCommit (digestNote { s with sa := { s.sa with pats := tput {} s.sa.pats (df d 0 0 12) (tget {} t.sa.pats (df d 0 0 12)) } } (65536 + patHandle (df d 0 0 12) (pat t (df d 0 0 12))) true (pat t (df d 0 0 12)).digest) cs 0xE0 ((stampKey okPattern (df d 0 0 12)))) cs 0 (some (patWord t (df d 0 0 12))) (some (stampKey okPattern (df d 0 0 12))) b.length) ∧
  (∀ (s : State) (cs status : Nat) (data b : Bytes) (d : List W64), Presents s cs 0xE0 d → enableOf d = true → Fresh s cs 0xE0 (stampKey okPattern (df d 0 0 12)) → patImage s d status data = some b → patReason s (ctl s cs) d (some b) ≠ 0 → Answers (.commitPattern cs status data) s fun t => Completed s t cs (patReason s (ctl s cs) d (some b)) ∧ pat t (df d 0 0 12) = { pat s (df d 0 0 12) with status := refused (pat s (df d 0 0 12)).status (patReason s (ctl s cs) d (some b)) } ∧ t = ctlComplete (grantCommit { s with sa := { s.sa with pats := tput {} s.sa.pats (df d 0 0 12) (tget {} t.sa.pats (df d 0 0 12)) } } cs 0xE0 ((stampKey okPattern (df d 0 0 12)))) cs (patReason s (ctl s cs) d (some b)) (some (patWord t (df d 0 0 12))) none 64) ∧
  (∀ (s : State) (cs : Nat) (d : List W64), Presents s cs 0xE0 d → enableOf d = false → Fresh s cs 0xE0 (stampKey okPattern (df d 0 0 12)) → patReached (ctl s cs) (pat s (df d 0 0 12)) = true → (pat s (df d 0 0 12)).status.enabled = true → patNamed (ctl s cs) d = true → Answers (.commitPatternDisable cs) s fun t => Completed s t cs 0 ∧ pat t (df d 0 0 12) = { pat s (df d 0 0 12) with status := { (pat s (df d 0 0 12)).status with enabled := false, reason := 0, draining := patUsed s (df d 0 0 12) } } ∧ t = ctlComplete (grantCommit ((if patUsed s (df d 0 0 12) then { s with sa := { s.sa with pats := tput {} s.sa.pats (df d 0 0 12) (tget {} t.sa.pats (df d 0 0 12)) } } else dropPatDigest { s with sa := { s.sa with pats := tput {} s.sa.pats (df d 0 0 12) (tget {} t.sa.pats (df d 0 0 12)) } } (df d 0 0 12) (pat s (df d 0 0 12)))) cs 0xE0 ((stampKey okPattern (df d 0 0 12)))) cs 0 (some (patWord t (df d 0 0 12))) (some (stampKey okPattern (df d 0 0 12))) 64) ∧
  (∀ (s : State) (n : Nat), working s = true → (pat s n).status.draining = true → patUsed s n = false → Answers (.patternDrainEnd n) s fun t => pat t n = { pat s n with status := { (pat s n).status with draining := false } } ∧ t = dropPatDigest { s with sa := { s.sa with pats := tput {} s.sa.pats (n) (tget {} t.sa.pats (n)) } } n (pat s n))

/-- Slices, unit maps and partition run limits are committed, and the power-on test ends. A COMMIT SA_SLICE, SA_UNITMAP or SA_PARTCFG whose checks pass applies its layout, moves the named units to the partition, or sets the partition's run limit, and completes with the accepted status word; with ENABLE zero nothing is changed. The first power-on test makes the array ready with every unit and sequencer at its initial logical number. -/
def Obligations.SeamArrayConfigurationCommands : Prop :=
  (∀ (s : State) (cs : Nat) (d : List W64), Presents s cs 0xE1 d → enableOf d = true → Fresh s cs 0xE1 (stampKey okSlice (df d 0 0 2)) → sliceReason s d = 0 → Answers (.commitSaSlice cs) s fun t => Completed s t cs 0 ∧ (∀ q : Fin 68, seam t q = seam (applySlices s d) q) ∧ tget {} t.sa.sliceSt (df d 0 0 2) = accepted (tget {} s.sa.sliceSt (df d 0 0 2)) ∧ t = ctlComplete (grantCommit (applySlices { s with sa := { s.sa with sliceSt := tput {} s.sa.sliceSt (df d 0 0 2) (tget {} t.sa.sliceSt (df d 0 0 2)) } } d) cs 0xE1 ((stampKey okSlice (df d 0 0 2)))) cs 0 (some (sGet (ctl t cs).s 30)) (some (stampKey okSlice (df d 0 0 2))) 64) ∧
  (∀ (s : State) (cs : Nat) (d : List W64), Presents s cs 0xE2 d → enableOf d = true → Fresh s cs 0xE2 (stampKey okUnitMap (df d 0 0 4)) → unitmapReason s d = 0 → 1 ≤ df d 0 8 3 → Answers (.commitSaUnitmap cs) s fun t => Completed s t cs 0 ∧ ((mapUnits d).all (fun u => match physOf s (df d 0 8 3) u with | none => true | some p => decide ((unitAt t (df d 0 8 3) p).part = df d 0 0 4)) = true) ∧ tget {} t.sa.mapSt (df d 0 0 4) = accepted (tget {} s.sa.mapSt (df d 0 0 4)) ∧ t = ctlComplete (grantCommit (applyUnitmap { s with sa := { s.sa with mapSt := tput {} s.sa.mapSt (df d 0 0 4) (tget {} t.sa.mapSt (df d 0 0 4)) } } d) cs 0xE2 ((stampKey okUnitMap (df d 0 0 4)))) cs 0 (some (sGet (ctl t cs).s 30)) (some (stampKey okUnitMap (df d 0 0 4))) 64) ∧
  (∀ (s : State) (cs : Nat) (d : List W64), Presents s cs 0xE2 d → enableOf d = true → Fresh s cs 0xE2 (stampKey okUnitMap (df d 0 0 4)) → unitmapReason s d = 0 → df d 0 8 3 = 0 → Answers (.commitSaUnitmap cs) s fun t => Completed s t cs 0 ∧ ((mapUnits d).all (fun u => match physOf s 0 u with | none => true | some p => decide ((seam t p).part = df d 0 0 4)) = true) ∧ tget {} t.sa.mapSt (df d 0 0 4) = accepted (tget {} s.sa.mapSt (df d 0 0 4)) ∧ t = ctlComplete (grantCommit (applyUnitmap { s with sa := { s.sa with mapSt := tput {} s.sa.mapSt (df d 0 0 4) (tget {} t.sa.mapSt (df d 0 0 4)) } } d) cs 0xE2 ((stampKey okUnitMap (df d 0 0 4)))) cs 0 (some (sGet (ctl t cs).s 30)) (some (stampKey okUnitMap (df d 0 0 4))) 64) ∧
  (∀ (s : State) (cs : Nat) (d : List W64), Presents s cs 0xE3 d → enableOf d = true → Fresh s cs 0xE3 (stampKey okPartCfg (df d 0 0 4)) → reservedSet d [fmask 0 4, fmask 0 32, 0, 1] = false → 1000 ≤ df d 1 0 32 → df d 1 0 32 ≤ 10000000 → Answers (.commitSaPartcfg cs) s fun t => Completed s t cs 0 ∧ runLimit t (df d 0 0 4) = df d 1 0 32 * 1000 ∧ tget {} t.sa.cfgSt (df d 0 0 4) = accepted (tget {} s.sa.cfgSt (df d 0 0 4)) ∧ t = ctlComplete (grantCommit { s with sa := { s.sa with runLim := (tput 100000 s.sa.runLim (df d 0 0 4) (df d 1 0 32)), cfgSt := tput {} s.sa.cfgSt (df d 0 0 4) (tget {} t.sa.cfgSt (df d 0 0 4)) } } cs 0xE3 ((stampKey okPartCfg (df d 0 0 4)))) cs 0 (some (sGet (ctl t cs).s 30)) (some (stampKey okPartCfg (df d 0 0 4))) 64) ∧
  (∀ (s : State) (cs : Nat) (d : List W64), Presents s cs 0xE3 d → enableOf d = true → Fresh s cs 0xE3 (stampKey okPartCfg (df d 0 0 4)) → reservedSet d [fmask 0 4, fmask 0 32, 0, 1] = false → df d 1 0 32 < 1000 ∨ 10000000 < df d 1 0 32 → Answers (.commitSaPartcfg cs) s fun t => Completed s t cs 4 ∧ tget {} t.sa.cfgSt (df d 0 0 4) = refused (tget {} s.sa.cfgSt (df d 0 0 4)) 4 ∧ t = ctlComplete (grantCommit { s with sa := { s.sa with cfgSt := tput {} s.sa.cfgSt (df d 0 0 4) (tget {} t.sa.cfgSt (df d 0 0 4)) } } cs 0xE3 ((stampKey okPartCfg (df d 0 0 4)))) cs 4 (some (sGet (ctl t cs).s 30)) none 64) ∧
  (∀ (s : State), s.cc.stage = 4 → s.sa.ready = false → s.sa.seqs = [] → s.variant = .a1 → Answers (.powerOnTestEnd) s fun t => t.sa.ready = true ∧ (∀ q : Fin 68, seam t q = seamInit q) ∧ (∀ ty p, 1 ≤ ty → ty ≤ 7 → p < physCount ty → unitAt t ty p = unitInit ty p) ∧ t = initArray { s with sa := { s.sa with ready := true } }) ∧
  (∀ (s : State), s.cc.stage = 4 → s.sa.ready = false → s.sa.seqs ≠ [] → Answers (.powerOnTestEnd) s fun t => t = { s with sa := { s.sa with ready := true } })

/-- Copy engines and synchronisation objects: rings, chunks, and their commits. A ring message of the bound endpoint that moves the producer forward by at most the ring sets it and is answered OK; one behind is answered and ignored; one past the ring is answered and raises an event record; one from another endpoint is refused with RIGHTS; the end of a chunk's write sends its ARRIVE and the chunk leaves, or stops the transfer; a COMMIT SYNCOBJ or COPYENG whose checks pass sets up the object or the engine, and with ENABLE zero disables it. -/
def Obligations.CopyEngineCommands : Prop :=
  (∀ (s : State) (f : Frame) (e : Nat) (p : W32), atTarget s f = true → f.op = 0x07 → leAt f.data 0 1 = 0x43 → formOk f = true → (epochFence s f).1 = 0 → leAt f.data 1 1 = e → e < 32 → (copyEng s e).status.enabled = true → (copyEng s e).ep = f.src → (copyEng s e).comp = f.comp → (copyEng s e).comp = f.comp → w32 (leAt f.data 4 4) = p → (p - (copyEng s e).cons).toNat ≤ 2 ^ (copyEng s e).log2 → (p - (copyEng s e).prod).toNat ≤ 2 ^ (copyEng s e).log2 → Answers (.copyRing f) s fun t => t = copyGo (setCopy (answer s f 0) e { copyEng s e with prod := p }) e) ∧
  (∀ (s : State) (f : Frame) (e : Nat) (p : W32), atTarget s f = true → f.op = 0x07 → leAt f.data 0 1 = 0x43 → formOk f = true → (epochFence s f).1 = 0 → leAt f.data 1 1 = e → e < 32 → (copyEng s e).status.enabled = true → (copyEng s e).ep = f.src → (copyEng s e).comp = f.comp → w32 (leAt f.data 4 4) = p → ((p - (copyEng s e).cons).toNat ≤ 2 ^ (copyEng s e).log2 ∧ 2 ^ (copyEng s e).log2 < (p - (copyEng s e).prod).toNat) ∨ (2 ^ (copyEng s e).log2 < (p - (copyEng s e).cons).toNat ∧ 2 ^ 31 ≤ (p - (copyEng s e).cons).toNat) → exec (.copyRing f) s = .next (answer s f 0)) ∧
  (∀ (s : State) (f : Frame) (e : Nat) (p : W32), atTarget s f = true → f.op = 0x07 → leAt f.data 0 1 = 0x43 → formOk f = true → (epochFence s f).1 = 0 → leAt f.data 1 1 = e → e < 32 → (copyEng s e).status.enabled = true → (copyEng s e).ep = f.src → (copyEng s e).comp = f.comp → w32 (leAt f.data 4 4) = p → 2 ^ (copyEng s e).log2 < (p - (copyEng s e).cons).toNat → (p - (copyEng s e).cons).toNat < 2 ^ 31 → Answers (.copyRing f) s fun t => copyEng t e = copyEng s e ∧ t = faultRecord (answer s f 0) (comp s (copyEng s e).comp).part 2 [w64 (0x800 + e), w64 (place 0 32 (copyEng s e).cons.toNat + place 32 32 p.toNat)]) ∧
  (∀ (s : State) (f : Frame) (e : Nat), atTarget s f = true → f.op = 0x07 → leAt f.data 0 1 = 0x43 → formOk f = true → (epochFence s f).1 = 0 → leAt f.data 1 1 = e → 32 ≤ e ∨ (copyEng s e).status.enabled = false ∨ (copyEng s e).ep ≠ f.src ∨ (copyEng s e).comp ≠ f.comp → Answers (.copyRing f) s fun t => t.te.out = s.te.out ++ [{ f := mkCpl f 3 [] }] ∧ copyEng t e = copyEng s e ∧ t = answer s f 3) ∧
  (∀ (s : State) (e i off : Nat) (u : Transfer) (k : Chunk), working s = true → k.status = 0 → (copyEng s e).xfers.find? (fun t => decide (t.index = i) && decide (t.st = 2)) = some u → u.chunks.find? (fun c => decide (c.off = off) && decide (c.st = 4)) = some k → copyOut s e < 512 → Answers (.copyChunkDone e i off) s fun t => t = copyGo (popXfers (editXfer (copyArrive s e u k.len) e i fun t => { t with chunks := t.chunks.filter (fun c => decide (c.off ≠ off)), st := if (t.chunks.filter fun c => decide (c.off ≠ off)).isEmpty ∧ t.length ≤ t.next then 4 else t.st }) e) e) ∧
  (∀ (s : State) (e i off : Nat) (u : Transfer) (k : Chunk), working s = true → (copyEng s e).xfers.find? (fun t => decide (t.index = i) && decide (t.st = 2)) = some u → u.chunks.find? (fun c => decide (c.off = off) && decide (c.st = 4)) = some k → k.status ≠ 0 → Answers (.copyChunkDone e i off) s fun t => t = copyGo (stopXfer s e i k.status off) e) ∧
  (∀ (s : State) (cs : Nat) (d : List W64), Presents s cs 0xE6 d → enableOf d = true → Fresh s cs 0xE6 (stampKey okSync (df d 0 0 14)) → syncReason s (ctl s cs) d = 0 → Answers (.commitSyncobj cs) s fun t => Committed s t cs 0 1 ∧ objAt t (df d 0 0 14) = { status := { enabled := true }, kind := df d 0 16 2, comp := df d 0 32 12, thr := df d 1 0 64, n := df d 2 0 32, notify := decide (df d 2 48 1 = 1), ep := df d 2 32 16 } ∧ t = ctlComplete (grantCommit { s with te := { s.te with sync := tput {} s.te.sync (df d 0 0 14) (tget {} t.te.sync (df d 0 0 14)) } } cs 0xE6 ((stampKey okSync (df d 0 0 14)))) cs 0 (some (statusWord (objAt t (df d 0 0 14)).status)) (some (stampKey okSync (df d 0 0 14))) 64) ∧
  (∀ (s : State) (cs : Nat) (d : List W64), Presents s cs 0xE6 d → enableOf d = false → Fresh s cs 0xE6 (stampKey okSync (df d 0 0 14)) → reaches (ctl s cs) (df d 0 32 12) = true → (objAt s (df d 0 0 14)).status.enabled = false ∨ reaches (ctl s cs) (objAt s (df d 0 0 14)).comp = true → Answers (.commitSyncobj cs) s fun t => Completed s t cs 0 ∧ objAt t (df d 0 0 14) = { objAt s (df d 0 0 14) with status := { (objAt s (df d 0 0 14)).status with enabled := false, reason := 0 } } ∧ t = ctlComplete (grantCommit { s with te := { s.te with sync := tput {} s.te.sync (df d 0 0 14) (tget {} t.te.sync (df d 0 0 14)) } } cs 0xE6 ((stampKey okSync (df d 0 0 14)))) cs 0 (some (statusWord (objAt t (df d 0 0 14)).status)) (some (stampKey okSync (df d 0 0 14))) 64) ∧
  (∀ (s : State) (cs : Nat) (d : List W64), Presents s cs 0xE7 d → enableOf d = true → Fresh s cs 0xE7 (stampKey okCopyEng (df d 2 32 5)) → copyReason s (ctl s cs) d = 0 → Answers (.commitCopyeng cs) s fun t => Committed s t cs 0 1 ∧ copyEng t (df d 2 32 5) = { status := { enabled := true }, ep := df d 0 48 16, comp := df d 0 32 12, ctx := df d 0 16 10, log2 := df d 0 0 4, base := df d 1 0 56, count := (copyEng s (df d 2 32 5)).count } ∧ tget [] t.tu.micro (896 + df d 2 32 5) = [] ∧ t = ctlComplete (grantCommit (setCopy (microClear s (896 + df d 2 32 5)) (df d 2 32 5) (copyEng t (df d 2 32 5))) cs 0xE7 ((stampKey okCopyEng (df d 2 32 5)))) cs 0 (some (copyWord (copyEng t (df d 2 32 5)))) (some (stampKey okCopyEng (df d 2 32 5))) 64) ∧
  (∀ (s : State) (cs : Nat) (d : List W64), Presents s cs 0xE7 d → enableOf d = false → Fresh s cs 0xE7 (stampKey okCopyEng (df d 2 32 5)) → reaches (ctl s cs) (df d 0 32 12) = true → (copyEng s (df d 2 32 5)).status.enabled = false ∨ reaches (ctl s cs) (copyEng s (df d 2 32 5)).comp = true → Answers (.commitCopyeng cs) s fun t => Completed s t cs 0 ∧ (copyEng t (df d 2 32 5)).status.enabled = false ∧ (copyEng t (df d 2 32 5)).xfers = [] ∧ t = ctlComplete (grantCommit (copyOff (microClear s (896 + df d 2 32 5)) (df d 2 32 5)) cs 0xE7 ((stampKey okCopyEng (df d 2 32 5)))) cs 0 (some (copyWord (copyEng t (df d 2 32 5)))) (some (stampKey okCopyEng (df d 2 32 5))) 64)

/-- Doorbells, descriptors and job queues. A doorbell of the bound endpoint to an idle queue opens and begins to read the next slot; one that fails the checks of R62 is answered with its status; one to a queue with a doorbell in acceptance waits behind it; the descriptor read is staged, or acceptance ends with the read's status, with RIGHTS for a queue disabled meanwhile, or with RETRY_LATER for want of room; a staged descriptor is accepted with the next sequence number, the accept pointer moving past it, and the last one of a doorbell is answered OK. A COMMIT JOBQ sets up a queue, or disables it, and a drained queue stops draining. -/
def Obligations.JobQueueCommands : Prop :=
  (∀ (s : State) (f : Frame), atTarget s f = true → f.op = 0x07 → (jobq s (bellQueue f)).bells = [] → (bellCheck (setJobq s (bellQueue f) { jobq s (bellQueue f) with bells := [{ f := f }] }) f).1 = 0 → 0 < (bellIndex f - (jobq s (bellQueue f)).accept).toNat → (bellIndex f - (jobq s (bellQueue f)).accept).toNat ≤ 2 ^ (jobq s (bellQueue f)).log2 → (jobq s (bellQueue f)).log2 ≤ 16 → Answers (.doorbell f) s fun t => jobq t (bellQueue f) = { jobq s (bellQueue f) with bells := [{ f := f, open_ := true, reading := true }] } ∧ t = { s with cc := { s.cc with jq := tput {} s.cc.jq (bellQueue f) (tget {} t.cc.jq (bellQueue f)) } }) ∧
  (∀ (s : State) (f : Frame), atTarget s f = true → f.op = 0x07 → (jobq s (bellQueue f)).bells = [] → (jobq s (bellQueue f)).endpoint ≠ f.src → Answers (.doorbell f) s fun t => t.te.out = s.te.out ++ [{ f := mkCpl f 3 (bytesLE 8 (place 0 12 (bellQueue f) + place 16 32 (jobq s (bellQueue f)).accept.toNat) ++ bytesLE 8 (jobq s (bellQueue f)).lastSeq) }] ∧ jobq t (bellQueue f) = jobq s (bellQueue f) ∧ t = { s with te := { s.te with out := t.te.out }, cc := { s.cc with jq := tput {} s.cc.jq (bellQueue f) (tget {} t.cc.jq (bellQueue f)) } }) ∧
  (∀ (s : State) (f : Frame) (b : Bell) (l : List Bell), atTarget s f = true → f.op = 0x07 → (jobq s (bellQueue f)).bells = b :: l → b.open_ = true → Answers (.doorbell f) s fun t => jobq t (bellQueue f) = { jobq s (bellQueue f) with bells := b :: (l ++ [{ f := f }]) } ∧ t = { s with cc := { s.cc with jq := tput {} s.cc.jq (bellQueue f) (tget {} t.cc.jq (bellQueue f)) } }) ∧
  (∀ (s : State) (f : Frame), atTarget s f = true → f.op = 0x07 → Answers (.doorbell f) s fun t => t = bellsGo (bellQueue f) ((jobq s (bellQueue f)).bells.length + 1) (setJobq s (bellQueue f) { jobq s (bellQueue f) with bells := (jobq s (bellQueue f)).bells ++ [{ f := f }] })) ∧
  (∀ (s : State) (n status : Nat) (data bs : Bytes) (b : Bell) (l : List Bell), working s = true → (jobq s n).bells = b :: l → b.reading = true → ownRead s (slotFa (jobq s n) (jobq s n).accept) 64 status data = (0, bs) → (jobq s n).status.enabled = true → acceptStopped s = false → journalRoom s (stagedEntries s + 2) = true → b.cut = false → Answers (.descriptorReadDone n status data) s fun t => jobq t n = { jobq s n with bells := { b with reading := false, staged := some (fitTo 64 bs) } :: l } ∧ t = { s with cc := { s.cc with jq := tput {} s.cc.jq (n) (tget {} t.cc.jq (n)) } }) ∧
  (∀ (s : State) (n status r : Nat) (data bs : Bytes) (b : Bell) (l : List Bell), working s = true → (jobq s n).bells = b :: l → b.reading = true → r ≠ 0 → ownRead s (slotFa (jobq s n) (jobq s n).accept) 64 status data = (r, bs) → Answers (.descriptorReadDone n status data) s fun t => t = bellEnd s n r) ∧
  (∀ (s : State) (n status : Nat) (data bs : Bytes) (b : Bell) (l : List Bell), working s = true → (jobq s n).bells = b :: l → b.reading = true → ownRead s (slotFa (jobq s n) (jobq s n).accept) 64 status data = (0, bs) → (jobq s n).status.enabled = false ∨ b.cut = true → Answers (.descriptorReadDone n status data) s fun t => t = bellEnd s n 3) ∧
  (∀ (s : State) (n status : Nat) (data bs : Bytes) (b : Bell) (l : List Bell), working s = true → (jobq s n).bells = b :: l → b.reading = true → ownRead s (slotFa (jobq s n) (jobq s n).accept) 64 status data = (0, bs) → (jobq s n).status.enabled = true → b.cut = false → acceptStopped s = true ∨ journalRoom s (stagedEntries s + 2) = false → Answers (.descriptorReadDone n status data) s fun t => t = bellEnd s n 1) ∧
  (∀ (s : State) (n : Nat) (b : Bell) (l : List Bell) (d : Bytes), working s = true → (jobq s n).bells = b :: l → b.staged = some d → (jobq s n).accept + 1 ≠ bellIndex b.f → b.cut = false → Answers (.descriptorAccept n) s fun t => jobq t n = { jobq s n with accept := (jobq s n).accept + 1, lastSeq := s.lv.nextSeq, bells := { b with accepted := b.accepted + 1, reading := true, staged := none } :: l } ∧ t.lv.recs = s.lv.recs ++ [{ seq := s.lv.nextSeq, seg := t.lv.openSeg, kind := .job, entries := 2, part := (comp s (jobq s n).comp).part, comp := (jobq s n).comp, queue := n, slot := (jobq s n).accept.toNat, length := 64, accepted := s.now, body := d }] ∧ t.lv.nextSeq = s.lv.nextSeq + 1 ∧ t = setJobq (stageRecord s { kind := .job, entries := 2, part := (comp s (jobq s n).comp).part, comp := (jobq s n).comp, queue := n, slot := (jobq s n).accept.toNat, length := 64, body := d }) n (jobq t n)) ∧
  (∀ (s : State) (n : Nat) (b : Bell) (l : List Bell) (d : Bytes), working s = true → (jobq s n).bells = b :: l → b.staged = some d → (jobq s n).accept + 1 = bellIndex b.f ∨ b.cut = true → Answers (.descriptorAccept n) s fun t => t = bellEnd (setJobq (stageRecord s { kind := .job, entries := 2, part := (comp s (jobq s n).comp).part, comp := (jobq s n).comp, queue := n, slot := (jobq s n).accept.toNat, length := 64, body := d }) n { jobq s n with accept := (jobq s n).accept + 1, lastSeq := s.lv.nextSeq, bells := { b with accepted := b.accepted + 1, reading := false, staged := none } :: l }) n 0) ∧
  (∀ (s : State) (cs : Nat) (d : List W64), Presents s cs 0xE4 d → enableOf d = true → Fresh s cs 0xE4 (stampKey okJobq (df d 0 0 12)) → jobqReason s (ctl s cs) d = 0 → Answers (.commitJobqEnable cs) s fun t => Committed s t cs 0 1 ∧ jobq t (df d 0 0 12) = { jobq s (df d 0 0 12) with base := df d 1 0 60, endpoint := df d 0 48 16, comp := df d 0 32 12, log2 := df d 2 0 5, accept := 0, lastSeq := 0, status := { enabled := true } } ∧ t = ctlComplete (grantCommit { s with cc := { s.cc with jq := tput {} s.cc.jq (df d 0 0 12) (tget {} t.cc.jq (df d 0 0 12)) } } cs 0xE4 ((stampKey okJobq (df d 0 0 12)))) cs 0 (some (jobqWord t (df d 0 0 12))) (some (stampKey okJobq (df d 0 0 12))) 64) ∧
  (∀ (s : State) (cs : Nat) (d : List W64), Presents s cs 0xE4 d → enableOf d = false → Fresh s cs 0xE4 (stampKey okJobq (df d 0 0 12)) → reaches (ctl s cs) (df d 0 32 12) = true → ((jobq s (df d 0 0 12)).status.enabled = false ∧ (jobq s (df d 0 0 12)).status.draining = false) ∨ reaches (ctl s cs) (jobq s (df d 0 0 12)).comp = true → Answers (.commitJobqDisable cs) s fun t => Completed s t cs 0 ∧ (jobq t (df d 0 0 12)).status.enabled = false ∧ (jobq t (df d 0 0 12)).status.draining = (((jobq s (df d 0 0 12)).status.enabled || (jobq s (df d 0 0 12)).status.draining) && queueBusy s (df d 0 0 12)) ∧ t = ctlComplete (grantCommit (disableJobq s (df d 0 0 12)) cs 0xE4 ((stampKey okJobq (df d 0 0 12)))) cs 0 (some (jobqWord t (df d 0 0 12))) (some (stampKey okJobq (df d 0 0 12))) 64) ∧
  (∀ (s : State) (n : Nat), working s = true → (jobq s n).status.draining = true → queueBusy s n = false → Answers (.jobqDrainEnd n) s fun t => jobq t n = { jobq s n with status := { (jobq s n).status with draining := false } } ∧ t = { s with cc := { s.cc with jq := tput {} s.cc.jq (n) (tget {} t.cc.jq (n)) } })

/-- Jobs are taken, placed, started, stopped, restarted and retired. An idle sequencer takes the oldest job it may, or first scrubs; a job that fails its checks ends at once with their status; a placed job's units are claimed; a placed seam that is awake starts with the registers of R108; a job past its run limit stops with TIMEOUT; a stopped one without stages retires with its completion record staged; a completion written retires the entry; a job whose bank row fails runs again, elsewhere when no spare row is left. -/
def Obligations.JobCommands : Prop :=
  (∀ (s : State) (q : Nat) (r : JRec), working s = true → s.sa.ready = true → s.cc.bootDone = true → q < 68 → (seam s q).state = 0 → (seam s q).banks ≠ 0 → partStopped s (seam s q).part = false → startsBarred s = false → oldest (nextJobs s (seam s q).part) = some r → (seam s q).scrubDue = false → jobCheck s r = none → (jobRunOf s r).charge = 0 → (seam s q).ran = false ∨ (seam s q).tenant = (comp s r.comp).tenant → Answers (.jobTake q) s fun t => (seam t q).state = 1 ∧ (seam t q).seqNo = r.seq ∧ (seam t q).tenant = (jobRunOf s r).tenant ∧ (seam t q).job = some { jobRunOf s r with usesPat := true, waitT := s.now } ∧ (seam t q).restarts = tget 0 s.sa.reruns r.seq ∧ t = takeJob s q r) ∧
  (∀ (s : State) (q : Nat) (r : JRec), working s = true → s.sa.ready = true → s.cc.bootDone = true → q < 68 → (seam s q).state = 0 → (seam s q).banks ≠ 0 → partStopped s (seam s q).part = false → startsBarred s = false → oldest (nextJobs s (seam s q).part) = some r → (seam s q).scrubDue = false → (seam s q).ran = false ∨ (seam s q).tenant = (comp s r.comp).tenant → jobCheck s r = none → (jobRunOf s r).charge ≠ 0 → Answers (.jobTake q) s fun t => (seam t q).state = 1 ∧ (seam t q).wait = 1 ∧ (seam t q).restarts = tget 0 s.sa.reruns r.seq ∧ (flow t (seam s q).part).queue = (flow s (seam s q).part).queue ++ [{ who := .job q, charge := (jobRunOf s r).charge, since := s.now }] ∧ t = takeJob s q r) ∧
  (∀ (s : State) (q st : Nat) (r : JRec), working s = true → s.sa.ready = true → s.cc.bootDone = true → q < 68 → (seam s q).state = 0 → (seam s q).banks ≠ 0 → partStopped s (seam s q).part = false → startsBarred s = false → oldest (nextJobs s (seam s q).part) = some r → (seam s q).scrubDue = false → jobCheck s r = some st → (seam s q).ran = false ∨ (seam s q).tenant = (comp s r.comp).tenant → Answers (.jobTake q) s fun t => (seam t q).state = 8 ∧ (seam t q).job = some { jobRunOf s r with endStatus := some st } ∧ t = takeJob s q r) ∧
  (∀ (s : State) (q : Nat) (r : JRec), working s = true → s.sa.ready = true → s.cc.bootDone = true → q < 68 → (seam s q).state = 0 → (seam s q).banks ≠ 0 → partStopped s (seam s q).part = false → startsBarred s = false → oldest (nextJobs s (seam s q).part) = some r → (seam s q).scrubDue = true ∨ ((seam s q).ran = true ∧ (seam s q).tenant ≠ (comp s r.comp).tenant) → Answers (.jobTake q) s fun t => seam t q = { seam s q with state := 4 } ∧ t = { s with sa := { s.sa with seqs := tput {} s.sa.seqs (q) (tget {} t.sa.seqs (q)) } }) ∧
  (∀ (s : State) (q : Nat) (bad : List Nat), working s = true → (seam s q).state = 4 → bad.filter (sliceBanks s q).contains = [] → Answers (.sequencerScrubEnd q bad) s fun t => seam t q = { seam s q with state := 0, s := [], p := 1, pc := 0, loops := [], code := [], mem := [], ran := false, scrubDue := false } ∧ t = { s with sa := { s.sa with seqs := tput {} s.sa.seqs (q) (tget {} t.sa.seqs (q)) } }) ∧
  (∀ (s : State) (q b : Nat), working s = true → (seam s q).state = 4 → (sliceBanks s q).contains b = true → Answers (.sequencerScrubEnd q [b]) s fun t => t = if rowsOut s (unitDie 0 q) then failBank (setSeam s q { seam s q with state := 0, s := [], p := 1, pc := 0, loops := [], code := [], mem := [], ran := false, scrubDue := false }) q (unitDie 0 q) b else remapRow (setSeam s q { seam s q with state := 0, s := [], p := 1, pc := 0, loops := [], code := [], mem := [], ran := false, scrubDue := false }) (unitDie 0 q)) ∧
  (∀ (s : State) (q : Nat) (bad : List Nat), working s = true → (seam s q).state = 4 → Answers (.sequencerScrubEnd q bad) s fun t => t = (bad.filter (sliceBanks s q).contains).foldl (fun s b => if (seam s q).state = 7 then s else if rowsOut s (unitDie 0 q) then failBank s q (unitDie 0 q) b else remapRow s (unitDie 0 q)) (setSeam s q { seam s q with state := 0, s := [], p := 1, pc := 0, loops := [], code := [], mem := [], ran := false, scrubDue := false })) ∧
  (∀ (s : State) (q : Nat) (j : JobRun) (plan : List (Nat × Nat)), working s = true → placeable s q = some j → (seam s q).wait = 0 → planFor s q { j with waitT := s.now } = .placed plan → Answers (.placement q) s fun t => (seam t q).state = 2 ∧ (plan.all (fun u => decide ((unitAt t u.1 u.2).state = 1)) = true) ∧ (seam t q).chans = planChans (imgLaceMap (pat s j.pat).image) plan ∧ (seam t q).wait = 0 ∧ t = placeJob s q { j with waitT := s.now }) ∧
  (∀ (s : State) (q w : Nat) (j : JobRun), working s = true → placeable s q = some j → (seam s q).wait = 0 → planFor s q { j with waitT := s.now } = .waits w → Answers (.placement q) s fun t => seam t q = { seam s q with wait := w, job := some { j with waitT := s.now } } ∧ t = { s with sa := { s.sa with seqs := tput {} s.sa.seqs (q) (tget {} t.sa.seqs (q)) } }) ∧
  (∀ (s : State) (q : Nat) (j : JobRun), working s = true → placeable s q = some j → (seam s q).wait = 0 → j.endStatus = none → planFor s q { j with waitT := s.now } = .absent → Answers (.placement q) s fun t => (seam t q).state = 8 ∧ (seam t q).job = some { j with endStatus := some 0x0C } ∧ t = stopJob s q 0x0C) ∧
  (∀ (s : State) (part q : Nat) (j : JobRun) (plan : List (Nat × Nat)), working s = true → q < 68 → (List.range 68).all (fun k => decide (k = q) || (placeable s k).isNone) = true → placeable s q = some j → (seam s q).part = part → (seam s q).wait ≠ 0 → planFor s q j = .placed plan → Answers (.placementRetry part) s fun t => (seam t q).state = 2 ∧ tget 0 t.sa.rrSeq part = (q + 1) % 68 ∧ t = retryPlace part s q) ∧
  (∀ (s : State) (part : Nat), working s = true → Answers (.placementRetry part) s fun t => t = (List.range 68).foldl (fun s1 k => retryPlace part s1 ((tget 0 s.sa.rrSeq part + k) % 68)) s) ∧
  (∀ (s : State) (d : Nat), mainUp s = true → (die s d).pll = 1 → (die s d).lockT ≤ s.now → exec (.pllLock d) s = .next (setDie s d { die s d with pll := 2 })) ∧
  (∀ (s : State) (q : Nat) (j : JobRun) (set : Option Nat) (wire : List (Nat × Nat)), working s = true → (seam s q).job = some j → (seam s q).state = 2 → seamAwake s q = true → stagingWaits s = false → staleSet s j.comp set = false → Answers (.jobStart q set wire) s fun t => (seam t q).state = 3 ∧ (seam t q).s = startRegs j ∧ (seam t q).p = 1 ∧ (seam t q).pc = 0 ∧ (seam t q).halted = false ∧ (seam t q).job = some { j with began := true, startT := s.now, wset := set.map (· % 4096), wire := wire, wired := [] } ∧ (ctx t j.ctx).resident = true ∧ t = startJob s q j set wire) ∧
  (∀ (s : State) (q : Nat) (j : JobRun) (set : Option Nat) (wire : List (Nat × Nat)), working s = true → (seam s q).job = some j → (seam s q).state = 2 → seamAwake s q = true → stagingWaits s = false → staleSet s j.comp set = true → j.endStatus = none → Answers (.jobStart q set wire) s fun t => (seam t q).state = 8 ∧ (seam t q).job.map (·.endStatus) = some (some 5) ∧ t = stopJob s q 5) ∧
  (∀ (s : State) (q : Nat) (j : JobRun) (r : JRec), working s = true → stagingWaits s = false → seamBusy s q = false → (seam s q).job = some j → (seam s q).state = 8 → (seam s q).stages = [] → j.leaveHeld = false → findRec s j.seq = some r → r.exported = false → s.lv.removeStopped = false → findCompl s r.seq = none → (health s 0 q).swapDue = false → (List.range 9).all (fun cs => decide ((ctl s cs).wait ≠ .spareUnit 0 q)) = true → Answers (.jobRetire q) s fun t => (seam t q).state = 0 ∧ (seam t q).job = none ∧ (findCompl t r.seq).map (·.word1) = some (w64 (place 0 8 (jobStatus j) + place 8 12 j.queue + place 20 32 j.slot)) ∧ t.lv.nextSeq = s.lv.nextSeq + 1 ∧ t = retireJob s q j) ∧
  (∀ (s : State) (q : Nat) (j : JobRun), working s = true → stagingWaits s = false → seamBusy s q = false → (seam s q).job = some j → ((seam s q).state = 3 ∧ seamHalted (seam s q) = true) ∨ (seam s q).state = 8 → Answers (.jobRetire q) s fun t => t = retireJob s q j) ∧
  (∀ (s : State) (n status : Nat) (r c : JRec), working s = true → stagingWaits s = false → queueHead s n = some r → findCompl s r.seq = some c → (ownWrite s (fld (jobWord r 6) 0 60) (complBytes r c) status).1 ≠ 1 → Answers (.completionWriteDone n status) s fun t => (findRec t r.seq).isNone = true ∧ (findCompl t r.seq).isNone = true ∧ t = deliverCompl s r c status) ∧
  (∀ (s : State) (n status : Nat) (r c : JRec), working s = true → stagingWaits s = false → queueHead s n = some r → findCompl s r.seq = some c → (ownWrite s (fld (jobWord r 6) 0 60) (complBytes r c) status).1 = 1 → exec (.completionWriteDone n status) s = .next (s)) ∧
  (∀ (s : State) (q : Nat) (j : JobRun), working s = true → (seam s q).state = 3 → (seam s q).job = some j → j.endStatus = none → j.startT + runLimit s (seam s q).part ≤ s.now → Answers (.jobRunLimit q) s fun t => (seam t q).state = 8 ∧ (seam t q).job.map (·.endStatus) = some (some 0x0E) ∧ (seam t q).stopT = some s.now ∧ t = stopJob (setSeam s q { seam s q with stopT := some s.now }) q 0x0E) ∧
  (∀ (s : State) (q a b : Nat) (j : JobRun), working s = true → (seam s q).job = some j → (seam s q).state = 3 → errIn s q (.row a b) = true → seamBusy s q = false → Answers (.jobRestart q (.row a b)) s fun t => (rowsOut s a = false → (seam t q).state = 1) ∧ (rowsOut s a = false → (seam t q).restarts = (seam s q).restarts + 1) ∧ (rowsOut s a = false → (seam t q).stages = []) ∧ (rowsOut s a = false → (seam t q).job.map (·.seq) = some j.seq) ∧ (rowsOut s a = false → tget 0 t.sa.rowsUsed a = tget 0 s.sa.rowsUsed a + 1) ∧ (rowsOut s a = true → bankFailed t a b = true ∧ tget 0 t.sa.reruns j.seq = (seam s q).restarts + 1) ∧ t = ctxLeft (if rowsOut s a then restartElsewhere (saCount s 3 1) q a b j else rerunJob (remapRow (saCount s 3 1) a) q j) j.ctx) ∧
  (∀ (s : State) (q : Nat) (err : ErrPart) (j : JobRun), working s = true → (seam s q).job = some j → (seam s q).state = 3 ∨ (seam s q).state = 5 → errIn s q err = true → seamBusy s q = false → (match err with | .row _ _ => true | _ => false) = false → Answers (.jobRestart q err) s fun t => t = ctxLeft (rerunJob (dropPart (saCount s 3 1) q err) q j) j.ctx) ∧
  (∀ (s : State) (q : Nat) (err : ErrPart) (j : JobRun), working s = true → (seam s q).job = some j → (seam s q).state = 3 → errIn s q err = true → seamBusy s q = true → (seam s q).stopT = none → Answers (.jobRestart q err) s fun t => seam t q = { seam s q with state := 5, wait := 0, stopT := some s.now } ∧ t = { s with sa := { s.sa with seqs := tput {} s.sa.seqs (q) (tget {} t.sa.seqs (q)) } }) ∧
  (∀ (s : State) (ty p : Nat), mainUp s = true → 1 ≤ ty → ty < 8 → p < physCount ty → (unitAt s ty p).gated = false → (unitAt s ty p).state ≠ 1 → (unitAt s ty p).state ≠ 5 → (unitAt s ty p).idleT + s.ph.unitIdle * 1000 ≤ s.now → Answers (.unitIdleGate ty p) s fun t => unitAt t ty p = { unitAt s ty p with gated := true } ∧ t = dieGated (setUnit s ty p { unitAt s ty p with gated := true }) (unitDie ty p)) ∧
  (∀ (s : State) (p : Nat), mainUp s = true → p < 68 → (seam s p).gated = false → (seam s p).job = none → (seam s p).idleT + s.ph.unitIdle * 1000 ≤ s.now → Answers (.unitIdleGate 0 p) s fun t => seam t p = { seam s p with gated := true } ∧ t = dieGated (setSeam s p { seam s p with gated := true }) (unitDie 0 p)) ∧
  (∀ (s : State) (d : Nat), mainUp s = true → d < 4 → (die s d).pll = 2 → dieIdle s d = true → (die s d).idleT + s.ph.pllIdle * 1000 ≤ s.now → exec (.pllIdleStop d) s = .next (setDie s d { die s d with pll := 0 })) ∧
  (∀ (s : State) (base p q : Nat) (r : LeaveReq) (l : List LeaveReq), working s = true → bestFlow { s with ph := { s.ph with base := base } } = some p → (flow s p).queue = r :: l → r.who = .job q → leaveFits { s with ph := { s.ph with base := base } } r.charge base = true → Answers (.leaveGrant base) s fun t => (seam t q).wait = 0 ∧ (seam t q).job = ((seam s q).job.map fun j => { j with leaveHeld := true }) ∧ (flow t p).queue = l ∧ (flow t p).held = (flow s p).held + r.charge ∧ t = leaveGranted (takeFront { s with ph := { s.ph with base := base } } p r l) r)

/-- HALT, LOOP, ENDL and BR of control sequencers, seam sequencers and stages. On a unit that executes with its guard on, HALT of a stage whose streams have delivered halts it and closes its output laces, HALT of a seam sequencer halts it, and HALT of a control sequencer ends its program; LOOP with an immediate count enters its body under a new loop frame, and one whose register counts 0 goes past its ENDL; ENDL goes back while iterations remain, advancing the induction register, and else leaves the loop; BR goes to its target and drops the loops it leaves. With the guard off an instruction only advances the pc. -/
def Obligations.FlowInstructions : Prop :=
  (∀ (s : State) (q n : Nat), StageReady s q n 0 → (stage s q n).pieces = [] → Answers (.halt (.stage q n)) s fun t => (stage t q n).halted = true ∧ ((laceList (stage s q n).outL).all (fun l => (laceOf (seam t q) l).closed) = true) ∧ (stage t q n).t = (stage s q n).t ∧ t = haltStage s q n) ∧
  (∀ (s : State) (q n : Nat), StageReady s q n 0 → (stage s q n).pieces ≠ [] → exec (.halt (.stage q n)) s = .next (s)) ∧
  (∀ (s : State) (q : Nat), SeqReady s q 0 → exec (.halt (.seq q)) s = .next (setSeam s q { seam s q with halted := true })) ∧
  (∀ (s : State) (cs : Nat), CtlReady s cs 0 → stagingWaits s = false → (ctl s cs).leave = false → s.ph.partDue = [] → (mbx s (ctl s cs).mailbox).outFull = false → Answers (.halt (.ctl cs)) s fun t => (ctl t cs).state = 0 ∧ (mbx t (ctl s cs).mailbox).outQ = [replyHead 0x82 (ctl s cs).tag, w64 (ctl s cs).seqNo, statusReason 0 (fld (sGet (ctl s cs).s 31) 0 16), w64 s.now] ∧ t = progEnd s cs 0 (fld (sGet (ctl s cs).s 31) 0 16)) ∧
  (∀ (s : State) (cs : Nat), CtlReady s cs 0 → stagingWaits s = false → Answers (.halt (.ctl cs)) s fun t => t = progEnd s cs 0 (fld (sGet (ctl s cs).s 31) 0 16)) ∧
  (∀ (s : State) (q n : Nat) (i : Ins), StageReady s q n 1 → stageIns s q n = i → i.f 32 5 = 0 → exec (.loop (.stage q n)) s = .next (setStage s q n { stage s q n with pc := (stage s q n).pc + 1, loops := { body := (stage s q n).pc + 1, endl := findEndl (stage s q n).code ((stage s q n).code.length / 8) ((stage s q n).pc + 1) 0, bounded := decide (i.f 0 16 ≠ 0), left := i.f 0 16, ind := i.f 41 7, stride := i.f 16 16 } :: keepLoops (stage s q n).loops (stage s q n).pc })) ∧
  (∀ (s : State) (q : Nat) (i : Ins), SeqReady s q 1 → seqIns s q = i → i.f 32 5 ≠ 0 → fld (sGet (seam s q).s (i.f 32 5)) 0 32 ≠ 0 → exec (.loop (.seq q)) s = .next (setSeam s q { seam s q with pc := (seam s q).pc + 1, loops := { body := (seam s q).pc + 1, endl := findEndl (seam s q).code ((seam s q).code.length / 8) ((seam s q).pc + 1) 0, bounded := true, left := fld (sGet (seam s q).s (i.f 32 5)) 0 32, ind := i.f 41 7, stride := i.f 16 16 } :: keepLoops (seam s q).loops (seam s q).pc })) ∧
  (∀ (s : State) (q n : Nat) (i : Ins), StageReady s q n 1 → stageIns s q n = i → i.f 32 5 ≠ 0 → fld (sGet (seam s q).s (i.f 32 5)) 0 32 = 0 → exec (.loop (.stage q n)) s = .next (setStage s q n { stage s q n with pc := findEndl (stage s q n).code ((stage s q n).code.length / 8) ((stage s q n).pc + 1) 0 + 1, loops := keepLoops (stage s q n).loops (stage s q n).pc })) ∧
  (∀ (s : State) (cs : Nat) (i : Ins), CtlReady s cs 1 → ctlIns s cs = i → i.f 32 5 = 0 → exec (.loop (.ctl cs)) s = .next (setCtl s cs { ctl s cs with pc := (ctl s cs).pc + 1, loops := { body := (ctl s cs).pc + 1, endl := findEndl (ctl s cs).image ((ctl s cs).image.length / 8) ((ctl s cs).pc + 1) 0, bounded := decide (i.f 0 16 ≠ 0), left := i.f 0 16, ind := i.f 41 7, stride := i.f 16 16 } :: keepLoops (ctl s cs).loops (ctl s cs).pc })) ∧
  (∀ (s : State) (q n : Nat) (i : Ins) (p : Place), StageReady s q n 1 → stageIns s q n = i → loopPlace (stage s q n).code { pc := (stage s q n).pc, loops := (stage s q n).loops } i (sGet (seam s q).s (i.f 32 5)) = p → exec (.loop (.stage q n)) s = .next (setStage s q n { stage s q n with pc := p.pc, loops := p.loops })) ∧
  (∀ (s : State) (q : Nat) (i : Ins) (p : Place), SeqReady s q 1 → seqIns s q = i → loopPlace (seam s q).code { pc := (seam s q).pc, loops := (seam s q).loops } i (sGet (seam s q).s (i.f 32 5)) = p → exec (.loop (.seq q)) s = .next (setSeam s q { seam s q with pc := p.pc, loops := p.loops })) ∧
  (∀ (s : State) (cs : Nat) (i : Ins) (p : Place), CtlReady s cs 1 → ctlIns s cs = i → loopPlace (ctl s cs).image { pc := (ctl s cs).pc, loops := (ctl s cs).loops } i (sGet (ctl s cs).s (i.f 32 5)) = p → exec (.loop (.ctl cs)) s = .next (setCtl s cs { ctl s cs with pc := p.pc, loops := p.loops })) ∧
  (∀ (s : State) (q n : Nat) (f : LoopFrame) (l : List LoopFrame), StageReady s q n 2 → (stage s q n).loops = f :: l → f.endl = (stage s q n).pc → f.bounded = false ∨ 2 ≤ f.left → Answers (.endl (.stage q n)) s fun t => (stage t q n).pc = f.body ∧ (stage t q n).loops.head? = some { f with left := f.left - 1 } ∧ (stage t q n).a = indA (stage s q n).a f ∧ (stage t q n).t = (stage s q n).t ∧ t = setStage s q n { stage s q n with pc := f.body, loops := (endlPlace { pc := (stage s q n).pc, loops := (stage s q n).loops }).loops, a := indA (stage s q n).a f }) ∧
  (∀ (s : State) (q n : Nat) (f : LoopFrame) (l : List LoopFrame), StageReady s q n 2 → (stage s q n).loops = f :: l → f.endl = (stage s q n).pc → f.bounded = true → f.left ≤ 1 → Answers (.endl (.stage q n)) s fun t => (stage t q n).pc = (stage s q n).pc + 1 ∧ ((stage t q n).loops.all (fun g => decide (g.endl ≠ f.endl)) = true) ∧ (stage t q n).a = indA (stage s q n).a f ∧ t = setStage s q n { stage s q n with pc := (stage s q n).pc + 1, loops := (endlPlace { pc := (stage s q n).pc, loops := (stage s q n).loops }).loops, a := indA (stage s q n).a f }) ∧
  (∀ (s : State) (q n : Nat), StageReady s q n 2 → (stage s q n).loops = [] → exec (.endl (.stage q n)) s = .next (setStage s q n { stage s q n with pc := (stage s q n).pc + 1 })) ∧
  (∀ (s : State) (q : Nat) (f : LoopFrame) (l : List LoopFrame), SeqReady s q 2 → (seam s q).loops = f :: l → f.endl = (seam s q).pc → f.bounded = false ∨ 2 ≤ f.left → Answers (.endl (.seq q)) s fun t => (seam t q).pc = f.body ∧ (seam t q).loops.head? = some { f with left := f.left - 1 } ∧ (seam t q).s = indS (seam s q).s f ∧ t = setSeam s q { seam s q with pc := f.body, loops := (endlPlace { pc := (seam s q).pc, loops := (seam s q).loops }).loops, s := indS (seam s q).s f }) ∧
  (∀ (s : State) (cs : Nat) (f : LoopFrame) (l : List LoopFrame), CtlReady s cs 2 → (ctl s cs).loops = f :: l → f.endl = (ctl s cs).pc → f.bounded = true → f.left ≤ 1 → Answers (.endl (.ctl cs)) s fun t => (ctl t cs).pc = (ctl s cs).pc + 1 ∧ (ctl t cs).s = indS (ctl s cs).s f ∧ t = setCtl s cs { ctl s cs with pc := (ctl s cs).pc + 1, loops := (endlPlace { pc := (ctl s cs).pc, loops := (ctl s cs).loops }).loops, s := indS (ctl s cs).s f }) ∧
  (∀ (s : State) (q : Nat), SeqReady s q 2 → exec (.endl (.seq q)) s = .next (setSeam s q { seam s q with pc := (endlPlace { pc := (seam s q).pc, loops := (seam s q).loops }).pc, loops := (endlPlace { pc := (seam s q).pc, loops := (seam s q).loops }).loops, s := endlS (seam s q).s { pc := (seam s q).pc, loops := (seam s q).loops } })) ∧
  (∀ (s : State) (cs : Nat), CtlReady s cs 2 → exec (.endl (.ctl cs)) s = .next (setCtl s cs { ctl s cs with pc := (endlPlace { pc := (ctl s cs).pc, loops := (ctl s cs).loops }).pc, loops := (endlPlace { pc := (ctl s cs).pc, loops := (ctl s cs).loops }).loops, s := endlS (ctl s cs).s { pc := (ctl s cs).pc, loops := (ctl s cs).loops } })) ∧
  (∀ (s : State) (q n : Nat) (i : Ins), StageReady s q n 3 → stageIns s q n = i → exec (.br (.stage q n)) s = .next (setStage s q n { stage s q n with pc := (brTarget (stage s q n).pc i).toNat, loops := keepLoops (stage s q n).loops (brTarget (stage s q n).pc i).toNat })) ∧
  (∀ (s : State) (q : Nat) (i : Ins), SeqReady s q 3 → seqIns s q = i → exec (.br (.seq q)) s = .next (setSeam s q { seam s q with pc := (brTarget (seam s q).pc i).toNat, loops := keepLoops (seam s q).loops (brTarget (seam s q).pc i).toNat })) ∧
  (∀ (s : State) (cs : Nat) (i : Ins), CtlReady s cs 3 → ctlIns s cs = i → exec (.br (.ctl cs)) s = .next (setCtl s cs { ctl s cs with pc := (brTarget (ctl s cs).pc i).toNat, loops := keepLoops (ctl s cs).loops (brTarget (ctl s cs).pc i).toNat })) ∧
  (∀ (s : State) (q n : Nat), stageLive s q n = true → (stageIns s q n).opc = 3 → guardOn (stage s q n).p (stageIns s q n) = false → exec (.br (.stage q n)) s = .next (setStage s q n { stage s q n with pc := (stage s q n).pc + (stageIns s q n).len })) ∧
  (∀ (s : State) (q : Nat), seqLive s q = true → (seqIns s q).opc = 3 → guardOn (seam s q).p (seqIns s q) = false → exec (.br (.seq q)) s = .next (setSeam s q { seam s q with pc := (seam s q).pc + (seqIns s q).len })) ∧
  (∀ (s : State) (cs : Nat), ctlActive s cs = true → (ctlIns s cs).opc = 3 → guardOn (ctl s cs).p (ctlIns s cs) = false → exec (.br (.ctl cs)) s = .next (setCtl s cs { ctl s cs with pc := (ctl s cs).pc + (ctlIns s cs).len }))

/-- ARRIVE, SIGNAL and WAITCNT of sequencers. ARRIVE and SIGNAL on an object of this switch that admits the update write its value through the reply cache and advance; on another switch they issue a tagged request and wait. WAITCNT on an object of its composition completes at once with predicate 1 when its test holds and else waits; its wait ends with 1 when the test comes to hold, and at its timeout with the test's truth. -/
def Obligations.SynchronisationInstructions : Prop :=
  (∀ (s : State) (q v obj : Nat) (i : Ins) (j : JobRun) (f : Frame), SeqReady s q 0x70 → seqIns s q = i → (seam s q).job = some j → (seam s q).updates < 16777216 → i.x 28 1 = 0 → i.x 0 14 = obj → updFrame s 0x09 s.swNum obj j.comp (updValue 0x09 i (sGet (seam s q).s (i.f 34 5))) j.seq 31 (seam s q).updates = f → updateValue s obj j.comp false (leAt f.data 0 8) = some v → cacheStep s f = .fresh → rcFull s f = false → f.dst % 16384 = obj → (objAt s obj).notify = false → Answers (.arrive (.seq q)) s fun t => objAt t obj = { objAt s obj with value := w64 v } ∧ (seam t q).pc = (seam s q).pc + i.len ∧ (seam t q).updates = (seam s q).updates + 1 ∧ (seam t q).job = some { j with sent := true } ∧ t = seqUpdate s q 0x09 i) ∧
  (∀ (s : State) (q : Nat) (i : Ins) (j : JobRun), SeqReady s q 0x70 → seqIns s q = i → (seam s q).job = some j → (seam s q).updates < 16777216 → i.x 28 1 = 1 → i.x 16 12 ≠ s.swNum → Answers (.arrive (.seq q)) s fun t => (seam t q).cwait = .update ∧ (seam t q).pc = (seam s q).pc ∧ (seam t q).updates = (seam s q).updates + 1 ∧ (t.te.outst.map (·.what)) = (s.te.outst.map (·.what)) ++ [.seqUpdate q] ∧ (t.te.out.map (·.f)) = (s.te.out.map (·.f)) ++ [updFrame s 0x09 (i.x 16 12) (i.x 0 14) j.comp (updValue 0x09 i (sGet (seam s q).s (i.f 34 5))) j.seq 31 (seam s q).updates] ∧ t = seqUpdate s q 0x09 i) ∧
  (∀ (s : State) (cs v obj : Nat) (i : Ins) (f : Frame), CtlReady s cs 0x70 → ctlIns s cs = i → (ctl s cs).priv = 2 → i.x 28 1 = 0 → i.x 0 14 = obj → updFrame s 0x09 s.swNum obj (ctl s cs).comp (updValue 0x09 i (sGet (ctl s cs).s (i.f 34 5))) (ctl s cs).seqNo 30 (ctl s cs).updates = f → updateValue s obj (ctl s cs).comp false (leAt f.data 0 8) = some v → cacheStep s f = .fresh → rcFull s f = false → f.dst % 16384 = obj → (objAt s obj).notify = false → Answers (.arrive (.ctl cs)) s fun t => objAt t obj = { objAt s obj with value := w64 v } ∧ ctl t cs = { ctl s cs with pc := (ctl s cs).pc + i.len, updates := (ctl s cs).updates + 1 } ∧ t = ctlUpdate s cs 0x09 i) ∧
  (∀ (s : State) (q obj : Nat) (i : Ins) (j : JobRun) (f : Frame), SeqReady s q 0x72 → seqIns s q = i → (seam s q).job = some j → (seam s q).updates < 16777216 → i.x 28 1 = 0 → i.x 0 14 = obj → updFrame s 0x0A s.swNum obj j.comp (sGet (seam s q).s (i.f 34 5)).toNat j.seq 31 (seam s q).updates = f → updateValue s obj j.comp true (leAt f.data 0 8) = some (sGet (seam s q).s (i.f 34 5)).toNat → cacheStep s f = .fresh → rcFull s f = false → f.dst % 16384 = obj → (objAt s obj).notify = false → Answers (.signal (.seq q)) s fun t => objAt t obj = { objAt s obj with value := sGet (seam s q).s (i.f 34 5) } ∧ (seam t q).pc = (seam s q).pc + i.len ∧ t = seqUpdate s q 0x0A i) ∧
  (∀ (s : State) (cs obj : Nat) (i : Ins) (f : Frame), CtlReady s cs 0x72 → ctlIns s cs = i → (ctl s cs).priv = 2 → i.x 28 1 = 0 → i.x 0 14 = obj → updFrame s 0x0A s.swNum obj (ctl s cs).comp (sGet (ctl s cs).s (i.f 34 5)).toNat (ctl s cs).seqNo 30 (ctl s cs).updates = f → updateValue s obj (ctl s cs).comp true (leAt f.data 0 8) = some (sGet (ctl s cs).s (i.f 34 5)).toNat → cacheStep s f = .fresh → rcFull s f = false → f.dst % 16384 = obj → (objAt s obj).notify = false → Answers (.signal (.ctl cs)) s fun t => objAt t obj = { objAt s obj with value := sGet (ctl s cs).s (i.f 34 5) } ∧ ctl t cs = { ctl s cs with pc := (ctl s cs).pc + i.len, updates := (ctl s cs).updates + 1 } ∧ t = ctlUpdate s cs 0x0A i) ∧
  (∀ (s : State) (cs : Nat) (i : Ins), CtlReady s cs 0x72 → ctlIns s cs = i → i.x 28 1 = 1 → i.x 16 12 ≠ s.swNum → Answers (.signal (.ctl cs)) s fun t => ctl t cs = { ctl s cs with wait := .update, updates := (ctl s cs).updates + 1 } ∧ (t.te.outst.map (·.what)) = (s.te.outst.map (·.what)) ++ [.ctlUpdate cs] ∧ t = ctlUpdate s cs 0x0A i) ∧
  (∀ (s : State) (q : Nat) (i : Ins), SeqReady s q 0x72 → seqIns s q = i → Answers (.signal (.seq q)) s fun t => t = seqUpdate s q 0x0A i) ∧
  (∀ (s : State) (cs : Nat) (i : Ins), CtlReady s cs 0x72 → ctlIns s cs = i → Answers (.signal (.ctl cs)) s fun t => t = ctlUpdate s cs 0x0A i) ∧
  (∀ (s : State) (q : Nat) (i : Ins), SeqReady s q 0x70 → seqIns s q = i → Answers (.arrive (.seq q)) s fun t => t = seqUpdate s q 0x09 i) ∧
  (∀ (s : State) (cs : Nat) (i : Ins), CtlReady s cs 0x70 → ctlIns s cs = i → Answers (.arrive (.ctl cs)) s fun t => t = ctlUpdate s cs 0x09 i) ∧
  (∀ (s : State) (q obj thr rd dl : Nat) (eq : Bool) (j : JobRun), SeqReady s q 0x71 → (seam s q).job = some j → countWait s (seqIns s q) (seam s q).s = .count obj thr eq rd dl false → countReach s obj (some j.comp) = true → countMet s obj thr eq = true → exec (.waitcnt (.seq q)) s = .next (setSeam s q { seam s q with p := pPut (seam s q).p (rd % 32) true, pc := (seam s q).pc + 1, cwait := .none })) ∧
  (∀ (s : State) (q obj thr rd dl : Nat) (eq : Bool) (j : JobRun), SeqReady s q 0x71 → (seam s q).job = some j → countWait s (seqIns s q) (seam s q).s = .count obj thr eq rd dl false → countReach s obj (some j.comp) = true → countMet s obj thr eq = false → exec (.waitcnt (.seq q)) s = .next (setSeam s q { seam s q with cwait := .count obj thr eq rd dl false })) ∧
  (∀ (s : State) (q obj thr rd dl : Nat) (eq : Bool) (j : JobRun), SeqReady s q 0x71 → (seam s q).job = some j → j.endStatus = none → countWait s (seqIns s q) (seam s q).s = .count obj thr eq rd dl false → countReach s obj (some j.comp) = false → Answers (.waitcnt (.seq q)) s fun t => (seam t q).state = 8 ∧ (seam t q).job.map (·.endStatus) = some (some 3) ∧ t = stopJob s q 3) ∧
  (∀ (s : State) (cs obj thr rd dl : Nat) (eq : Bool), CtlReady s cs 0x71 → countWait s (ctlIns s cs) (ctl s cs).s = .count obj thr eq rd dl false → countReach s obj (if (ctl s cs).priv = 2 then some (ctl s cs).comp else none) = true → countMet s obj thr eq = true → exec (.waitcnt (.ctl cs)) s = .next (setCtl s cs { ctl s cs with p := pPut (ctl s cs).p (rd % 32) true, pc := (ctl s cs).pc + 1, wait := .none })) ∧
  (∀ (s : State) (cs obj thr rd dl : Nat) (eq : Bool), CtlReady s cs 0x71 → countWait s (ctlIns s cs) (ctl s cs).s = .count obj thr eq rd dl false → countReach s obj (if (ctl s cs).priv = 2 then some (ctl s cs).comp else none) = true → countMet s obj thr eq = false → exec (.waitcnt (.ctl cs)) s = .next (setCtl s cs { ctl s cs with wait := .count obj thr eq rd dl false })) ∧
  (∀ (s : State) (cs obj thr rd dl : Nat) (eq : Bool), CtlReady s cs 0x71 → countWait s (ctlIns s cs) (ctl s cs).s = .count obj thr eq rd dl false → countReach s obj (if (ctl s cs).priv = 2 then some (ctl s cs).comp else none) = false → exec (.waitcnt (.ctl cs)) s = .next (endProg s cs 3 0)) ∧
  (∀ (s : State) (q obj thr rd dl : Nat) (eq met : Bool), waitOf s (.seq q) = .count obj thr eq rd dl met → met = true ∨ countMet s obj thr eq = true → exec (.waitcntSatisfied (.seq q)) s = .next (setSeam s q { seam s q with p := pPut (seam s q).p (rd % 32) true, pc := (seam s q).pc + 1, cwait := .none })) ∧
  (∀ (s : State) (cs obj thr rd dl : Nat) (eq met : Bool), waitOf s (.ctl cs) = .count obj thr eq rd dl met → met = true ∨ countMet s obj thr eq = true → exec (.waitcntSatisfied (.ctl cs)) s = .next (setCtl s cs { ctl s cs with p := pPut (ctl s cs).p (rd % 32) true, pc := (ctl s cs).pc + 1, wait := .none })) ∧
  (∀ (s : State) (q obj thr rd dl : Nat) (eq met : Bool), waitOf s (.seq q) = .count obj thr eq rd dl met → dl ≠ 0 → dl ≤ s.now → exec (.waitcntTimeout (.seq q)) s = .next (setSeam s q { seam s q with p := pPut (seam s q).p (rd % 32) (met || countMet s obj thr eq), pc := (seam s q).pc + 1, cwait := .none })) ∧
  (∀ (s : State) (cs obj thr rd dl : Nat) (eq met : Bool), waitOf s (.ctl cs) = .count obj thr eq rd dl met → dl ≠ 0 → dl ≤ s.now → exec (.waitcntTimeout (.ctl cs)) s = .next (setCtl s cs { ctl s cs with p := pPut (ctl s cs).p (rd % 32) (met || countMet s obj thr eq), pc := (ctl s cs).pc + 1, wait := .none }))

/-- Tile arithmetic writes its results, flags and rows and changes nothing else. Each tile instruction of an executing stage whose guard is on and that no held sample delays goes past its instruction with its destination registers, exception flags and row state written as its rule computes them from the registers before it; every other register of the stage, every other stage, lace and seam, and everything outside the seam array is as before, but for the counts of Proof samples and a checker lent to one. -/
def Obligations.TileInstructions : Prop :=
  (∀ (s : State) (q n : Nat), TileReady s q n 0x30 → Answers (.mma q n) s fun t => Wrote s t q n (mmaOut (stage s q n) (stageIns s q n)) ∧ StageOnly s t q n ∧ t = tileDone (setStage s q n (stageNext (writeTiles (stage s q n) (mmaOut (stage s q n) (stageIns s q n))))) q n (holdTiles (mmaOut (stage s q n) (stageIns s q n)))) ∧
  (∀ (s : State) (q n : Nat), TileReady s q n 0x31 → Answers (.dot q n) s fun t => Wrote s t q n (dotOut (stage s q n) (stageIns s q n)) ∧ StageOnly s t q n ∧ t = tileDone (setStage s q n (stageNext (writeTiles (stage s q n) (dotOut (stage s q n) (stageIns s q n))))) q n (holdTiles (dotOut (stage s q n) (stageIns s q n)))) ∧
  (∀ (s : State) (q n : Nat), TileReady s q n 0x32 → Answers (.scale q n) s fun t => Wrote s t q n (scaleOut (stage s q n) (stageIns s q n)) ∧ StageOnly s t q n ∧ t = tileDone (setStage s q n (stageNext (writeTiles (stage s q n) (scaleOut (stage s q n) (stageIns s q n))))) q n (holdTiles (scaleOut (stage s q n) (stageIns s q n)))) ∧
  (∀ (s : State) (q n : Nat), TileReady s q n 0x33 → Answers (.quant q n) s fun t => Wrote s t q n (quantOut (stage s q n) (stageIns s q n)) ∧ StageOnly s t q n ∧ t = tileDone (setStage s q n (stageNext (writeTiles (stage s q n) (quantOut (stage s q n) (stageIns s q n))))) q n (holdTiles (quantOut (stage s q n) (stageIns s q n)))) ∧
  (∀ (s : State) (q n : Nat), TileReady s q n 0x34 → Answers (.dequant q n) s fun t => Wrote s t q n (dequantOut (stage s q n) (stageIns s q n)) ∧ StageOnly s t q n ∧ t = tileDone (setStage s q n (stageNext (writeTiles (stage s q n) (dequantOut (stage s q n) (stageIns s q n))))) q n (holdTiles (dequantOut (stage s q n) (stageIns s q n)))) ∧
  (∀ (s : State) (q n : Nat), TileReady s q n 0x40 → (stageIns s q n).f 8 2 = 0 → Answers (.smaxReset q n) s fun t => tget row0 (stage t q n).rows ((stageIns s q n).f 0 8) = (0xFF800000, 0) ∧ Wrote s t q n ({ row := some ((stageIns s q n).f 0 8, row0) }) ∧ StageOnly s t q n ∧ t = tileDone (setStage s q n (stageNext (writeTiles (stage s q n) ({ row := some ((stageIns s q n).f 0 8, row0) })))) q n (holdTiles ({ row := some ((stageIns s q n).f 0 8, row0) }))) ∧
  (∀ (s : State) (q n : Nat), TileReady s q n 0x40 → (stageIns s q n).f 8 2 = 1 → Answers (.smaxBlock q n) s fun t => Wrote s t q n (smaxOut (stage s q n) (stageIns s q n)) ∧ StageOnly s t q n ∧ t = tileDone (setStage s q n (stageNext (writeTiles (stage s q n) (smaxOut (stage s q n) (stageIns s q n))))) q n (holdTiles (smaxOut (stage s q n) (stageIns s q n)))) ∧
  (∀ (s : State) (q n : Nat), TileReady s q n 0x40 → (stageIns s q n).f 8 2 = 2 → Answers (.smaxEnd q n) s fun t => tileFld (tGet (stage t q n) ((stageIns s q n).f 41 7)) 0 32 = (rowState (stage s q n) (stageIns s q n)).1 % 2 ^ 32 ∧ tileFld (tGet (stage t q n) ((stageIns s q n).f 41 7)) 32 32 = (rowState (stage s q n) (stageIns s q n)).2 % 2 ^ 32 ∧ Wrote s t q n ({ rds := regsFrom ((stageIns s q n).f 41 7) 1, tiles := [tileSet 32 (tGet (stage s q n) ((stageIns s q n).f 41 7)) [(rowState (stage s q n) (stageIns s q n)).1, (rowState (stage s q n) (stageIns s q n)).2]] }) ∧ StageOnly s t q n ∧ t = tileDone (setStage s q n (stageNext (writeTiles (stage s q n) ({ rds := regsFrom ((stageIns s q n).f 41 7) 1, tiles := [tileSet 32 (tGet (stage s q n) ((stageIns s q n).f 41 7)) [(rowState (stage s q n) (stageIns s q n)).1, (rowState (stage s q n) (stageIns s q n)).2]] })))) q n (holdTiles ({ rds := regsFrom ((stageIns s q n).f 41 7) 1, tiles := [tileSet 32 (tGet (stage s q n) ((stageIns s q n).f 41 7)) [(rowState (stage s q n) (stageIns s q n)).1, (rowState (stage s q n) (stageIns s q n)).2]] }))) ∧
  (∀ (s : State) (q n : Nat), TileReady s q n 0x41 → Answers (.exp q n) s fun t => Wrote s t q n (expOut (stage s q n) (stageIns s q n)) ∧ StageOnly s t q n ∧ t = tileDone (setStage s q n (stageNext (writeTiles (stage s q n) (expOut (stage s q n) (stageIns s q n))))) q n (holdTiles (expOut (stage s q n) (stageIns s q n)))) ∧
  (∀ (s : State) (q n : Nat), TileReady s q n 0x42 → Answers (.lsemerge q n) s fun t => Wrote s t q n (lseOut (stage s q n) (stageIns s q n)) ∧ StageOnly s t q n ∧ t = tileDone (setStage s q n (stageNext (writeTiles (stage s q n) (lseOut (stage s q n) (stageIns s q n))))) q n (holdTiles (lseOut (stage s q n) (stageIns s q n)))) ∧
  (∀ (s : State) (q n : Nat), TileReady s q n 0x50 → (stageIns s q n).f 3 2 = 0 → Answers (.cmpSet q n) s fun t => Wrote s t q n (cmpMask (fun b _ => b) (stage s q n) (stageIns s q n)) ∧ StageOnly s t q n ∧ t = tileDone (setStage s q n (stageNext (writeTiles (stage s q n) (cmpMask (fun b _ => b) (stage s q n) (stageIns s q n))))) q n (holdTiles (cmpMask (fun b _ => b) (stage s q n) (stageIns s q n)))) ∧
  (∀ (s : State) (q n : Nat), TileReady s q n 0x50 → (stageIns s q n).f 3 2 = 1 → Answers (.cmpAnd q n) s fun t => Wrote s t q n (cmpMask (fun b x => b && x) (stage s q n) (stageIns s q n)) ∧ StageOnly s t q n ∧ t = tileDone (setStage s q n (stageNext (writeTiles (stage s q n) (cmpMask (fun b x => b && x) (stage s q n) (stageIns s q n))))) q n (holdTiles (cmpMask (fun b x => b && x) (stage s q n) (stageIns s q n)))) ∧
  (∀ (s : State) (q n : Nat), TileReady s q n 0x50 → (stageIns s q n).f 3 2 = 2 → Answers (.cmpOr q n) s fun t => Wrote s t q n (cmpMask (fun b x => b || x) (stage s q n) (stageIns s q n)) ∧ StageOnly s t q n ∧ t = tileDone (setStage s q n (stageNext (writeTiles (stage s q n) (cmpMask (fun b x => b || x) (stage s q n) (stageIns s q n))))) q n (holdTiles (cmpMask (fun b x => b || x) (stage s q n) (stageIns s q n)))) ∧
  (∀ (s : State) (q n : Nat), TileReady s q n 0x50 → (stageIns s q n).f 3 2 = 3 → Answers (.cmpBound q n) s fun t => Wrote s t q n (boundOut s.freeCtr (stage s q n) (stageIns s q n)) ∧ StageOnly s t q n ∧ t = tileDone (setStage { s with freeCtr := s.freeCtr + (boundOut s.freeCtr (stage s q n) (stageIns s q n)).draws } q n (stageNext (writeTiles (stage s q n) (boundOut s.freeCtr (stage s q n) (stageIns s q n))))) q n (holdTiles (boundOut s.freeCtr (stage s q n) (stageIns s q n)))) ∧
  (∀ (s : State) (q n : Nat), TileReady s q n 0x52 → Answers (.select q n) s fun t => Wrote s t q n (selectOut (stage s q n) (stageIns s q n)) ∧ StageOnly s t q n ∧ t = tileDone (setStage s q n (stageNext (writeTiles (stage s q n) (selectOut (stage s q n) (stageIns s q n))))) q n (holdTiles (selectOut (stage s q n) (stageIns s q n)))) ∧
  (∀ (s : State) (q n : Nat), TileReady s q n 0x60 → (stageIns s q n).f 0 1 = 0 → Answers (.redTile q n) s fun t => Wrote s t q n (redOut (stage s q n) (stageIns s q n)) ∧ StageOnly s t q n ∧ t = tileDone (setStage s q n (stageNext (writeTiles (stage s q n) (redOut (stage s q n) (stageIns s q n))))) q n (holdTiles (redOut (stage s q n) (stageIns s q n)))) ∧
  (∀ (s : State) (q n : Nat), stageLive s q n = true → (stageIns s q n).opc = 0x30 → guardOn (stage s q n).p (stageIns s q n) = false → exec (.mma q n) s = .next (setStage s q n { stage s q n with pc := (stage s q n).pc + (stageIns s q n).len })) ∧
  (∀ (s : State) (q n : Nat), StageReady s q n 0x30 → tileWaits s (stage s q n) = true → exec (.mma q n) s = .next (s))

/-- STREAM, GATHER and SCATTER move records between laces, the slice and memory. One presentation of STREAM on a stage that executes moves one record of the slice onto its lace, one record of its lace into the slice, or issues one read of memory; at its count it ends. GATHER and SCATTER take one index from the index lace for each record. Nothing else changes. -/
def Obligations.StreamInstructions : Prop :=
  (∀ (s : State) (q n a : Nat) (i : Ins) (b : Bytes), StageReady s q n 0x10 → stageIns s q n = i → i.f 38 1 = 0 → i.f 34 4 ≠ 0xF → aSpace (aGet (stage s q n) (i.f 44 4)) = 0 → laceShut s q (recLace i) = false → (stage s q n).prog.have_ = false → (stage s q n).pieces = [] → (stage s q n).prog.count < recCount s q i → recCount s q i < 2 ^ 32 → wrapInt 56 (aAddr (aGet (stage s q n) (i.f 44 4)) + (stage s q n).prog.count * recStride i : Nat) = a → sliceRead (seam s q) a (recLen i) = some b → laceRoom (seam s q) (recLace i) = true → Answers (.stream q n) s fun t => laceOf (seam t q) (recLace i) = { laceOf (seam s q) (recLace i) with q := (laceOf (seam s q) (recLace i)).q ++ b } ∧ stage t q n = { stage s q n with prog := { (stage s q n).prog with have_ := false, count := (stage s q n).prog.count + 1, addr := a, passed := 0, rec_ := s.te.nextId } } ∧ t = streamStep s q n i) ∧
  (∀ (s : State) (q n a : Nat) (i : Ins), StageReady s q n 0x10 → stageIns s q n = i → i.f 38 1 = 1 → aSpace (aGet (stage s q n) (i.f 44 4)) = 0 → (stage s q n).prog.have_ = false → (stage s q n).prog.count < recCount s q i → recCount s q i < 2 ^ 32 → wrapInt 56 (aAddr (aGet (stage s q n) (i.f 44 4)) + (stage s q n).prog.count * recStride i : Nat) = a → recLen i ≤ (laceOf (seam s q) (recLace i)).q.length → 0 < recLen i → a + recLen i ≤ sliceBytes (seam s q) → Answers (.stream q n) s fun t => (seam t q).mem = memWrite (seam s q).mem a ((laceOf (seam s q) (recLace i)).q.take (recLen i)) ∧ laceOf (seam t q) (recLace i) = { laceOf (seam s q) (recLace i) with q := (laceOf (seam s q) (recLace i)).q.drop (recLen i) } ∧ stage t q n = { stage s q n with prog := { (stage s q n).prog with have_ := false, count := (stage s q n).prog.count + 1, addr := a, passed := 0, took := true, rec_ := s.te.nextId } } ∧ SameOutside (seam s q).mem (seam t q).mem a (recLen i) ∧ t = streamStep s q n i) ∧
  (∀ (s : State) (q n a fa r k : Nat) (i : Ins) (u : State), StageReady s q n 0x10 → stageIns s q n = i → i.f 38 1 = 0 → i.f 34 4 ≠ 0xF → aSpace (aGet (stage s q n) (i.f 44 4)) = 1 → aAddr (aGet (stage s q n) (i.f 44 4)) % 32 = 0 → laceShut s q (recLace i) = false → (stage s q n).prog.have_ = true → (stage s q n).prog.addr = a → (stage s q n).prog.passed = 0 → recCount s q i < 2 ^ 32 → recLen i ≤ 4096 - a % 4096 → a < 2 ^ 56 → stageRoom s q n = true → translate s (stageAcc s q n a 0) = (u, .ok fa r k) → recCount s q i ≠ 0 → laceRoom (seam s q) (recLace i) = true → Answers (.stream q n) s fun t => (t.te.outst.map (·.what)) = (u.te.outst.map (·.what)) ++ [.piece q n u.te.nextId] ∧ (t.te.out.map (fun o => (o.f.op, o.f.dst, o.f.len, o.f.region))) = (u.te.out.map (fun o => (o.f.op, o.f.dst, o.f.len, o.f.region))) ++ [(1, fa / 32 * 32, ceilDiv (a % 32 + recLen i) 32 * 32, r)] ∧ (stage t q n).pieces.map (fun p => (p.id, p.va, p.len, p.st)) = (stage u q n).pieces.map (fun p => (p.id, p.va, p.len, p.st)) ++ [(u.te.nextId, a, recLen i, 2)] ∧ (stage t q n).prog.count = (stage u q n).prog.count + 1 ∧ t.te.nextId = u.te.nextId + 1 ∧ t = streamStep s q n i) ∧
  (∀ (s : State) (q n : Nat) (i : Ins), StageReady s q n 0x10 → stageIns s q n = i → i.f 38 1 = 0 → aSpace (aGet (stage s q n) (i.f 44 4)) = 0 → laceShut s q (recLace i) = false → (stage s q n).prog.have_ = false → recCount s q i ≤ (stage s q n).prog.count → recCount s q i < 2 ^ 32 → exec (.stream q n) s = .next (setStage s q n { stageNext (stage s q n) with prog := {} })) ∧
  (∀ (s : State) (q n : Nat) (i : Ins), StageReady s q n 0x10 → stageIns s q n = i → recCount s q i = 0 → i.f 38 1 = 1 → exec (.stream q n) s = .next (setStage s q n { stageNext (stage s q n) with prog := {}, p := pPut (stage s q n).p 6 true })) ∧
  (∀ (s : State) (q n : Nat) (i : Ins), StageReady s q n 0x10 → stageIns s q n = i → Answers (.stream q n) s fun t => t = streamStep s q n i) ∧
  (∀ (s : State) (q n a : Nat) (i : Ins) (b : Bytes), StageReady s q n 0x11 → stageIns s q n = i → i.f 38 1 = 0 → i.f 34 4 ≠ 0xF → aSpace (aGet (stage s q n) (i.f 44 4)) = 0 → laceShut s q (recLace i) = false → firstLace (stage s q n).inL ≠ recLace i → (stage s q n).prog.have_ = false → (stage s q n).pieces = [] → (stage s q n).prog.count < recCount s q i → recCount s q i < 2 ^ 32 → 4 ≤ (laceOf (seam s q) (firstLace (stage s q n).inL)).q.length → 0 ≤ signed 32 (leAt (laceOf (seam s q) (firstLace (stage s q n).inL)).q 0 4) → wrapInt 56 ((aAddr (aGet (stage s q n) (i.f 44 4)) : Int) + signed 32 (leAt (laceOf (seam s q) (firstLace (stage s q n).inL)).q 0 4) * recStride i) = a → sliceRead (seam s q) a (recLen i) = some b → laceRoom (seam s q) (recLace i) = true → Answers (.gather q n) s fun t => (laceOf (seam t q) (recLace i)).q = (laceOf (seam s q) (recLace i)).q ++ b ∧ (laceOf (seam t q) (firstLace (stage s q n).inL)).q = (laceOf (seam s q) (firstLace (stage s q n).inL)).q.drop 4 ∧ (stage t q n).prog.count = (stage s q n).prog.count + 1 ∧ (stage t q n).prog.took = true ∧ (stage t q n).pc = (stage s q n).pc ∧ t = streamStep s q n i) ∧
  (∀ (s : State) (q n : Nat) (i : Ins), StageReady s q n 0x11 → stageIns s q n = i → i.f 38 1 = 0 → aSpace (aGet (stage s q n) (i.f 44 4)) = 0 → laceShut s q (recLace i) = false → (stage s q n).prog.have_ = false → (stage s q n).prog.count < recCount s q i → recCount s q i < 2 ^ 32 → (laceOf (seam s q) (firstLace (stage s q n).inL)).q = [] → (laceOf (seam s q) (firstLace (stage s q n).inL)).closed = true → exec (.gather q n) s = .next (setStage s q n { stageNext (stage s q n) with prog := {}, p := pPut (stage s q n).p 6 (stage s q n).prog.took })) ∧
  (∀ (s : State) (q n : Nat) (i : Ins), StageReady s q n 0x11 → stageIns s q n = i → Answers (.gather q n) s fun t => t = streamStep s q n i) ∧
  (∀ (s : State) (q n l a : Nat) (i : Ins), StageReady s q n 0x12 → stageIns s q n = i → i.f 38 1 = 1 → aSpace (aGet (stage s q n) (i.f 44 4)) = 0 → indexLace (stage s q n) i = l → l ≠ recLace i → (stage s q n).prog.have_ = false → (stage s q n).prog.count < recCount s q i → recCount s q i < 2 ^ 32 → 4 ≤ (laceOf (seam s q) l).q.length → 0 ≤ signed 32 (leAt (laceOf (seam s q) l).q 0 4) → wrapInt 56 ((aAddr (aGet (stage s q n) (i.f 44 4)) : Int) + signed 32 (leAt (laceOf (seam s q) l).q 0 4) * recStride i) = a → recLen i ≤ (laceOf (seam s q) (recLace i)).q.length → 0 < recLen i → a + recLen i ≤ sliceBytes (seam s q) → Answers (.scatter q n) s fun t => (seam t q).mem = memWrite (seam s q).mem a ((laceOf (seam s q) (recLace i)).q.take (recLen i)) ∧ (laceOf (seam t q) (recLace i)).q = (laceOf (seam s q) (recLace i)).q.drop (recLen i) ∧ (laceOf (seam t q) l).q = (laceOf (seam s q) l).q.drop 4 ∧ (stage t q n).prog.count = (stage s q n).prog.count + 1 ∧ SameOutside (seam s q).mem (seam t q).mem a (recLen i) ∧ t = streamStep s q n i) ∧
  (∀ (s : State) (q n : Nat) (i : Ins), StageReady s q n 0x12 → stageIns s q n = i → Answers (.scatter q n) s fun t => t = streamStep s q n i)

/-- EMIT's modes move tiles and addresses between laces, registers and the slice. PUT puts the tiles on its lace; TAKE takes tiles from its lace and sets p6, or clears it at end-of-stream; SETA and LDA write an address register, LDA from memory by one translated read; LDT loads tiles from the slice and STT stores them; SETP writes a predicate. Each advances by its own length and changes nothing else. -/
def Obligations.EmitInstructions : Prop :=
  (∀ (s : State) (q n : Nat) (i : Ins), StageReady s q n 0x13 → stageIns s q n = i → i.f 0 3 = 0 → laceShut s q (i.f 3 5) = false → i.x 0 4 = i.f 23 4 → laceRoom (seam s q) (i.f 3 5) = true → Answers (.emitPut q n) s fun t => (laceOf (seam t q) (i.f 3 5)).q = (laceOf (seam s q) (i.f 3 5)).q ++ ((List.range (i.f 8 4 + 1)).map fun k => tileToLace (i.f 23 4) (tGet (stage s q n) (i.f 34 7 + k))).flatten ∧ stage t q n = stageNext (stage s q n) ∧ seam t q = { seam s q with stages := (seam t q).stages, laces := (seam t q).laces } ∧ SeamOnly s t q ∧ t = setSeam (setStage s q n (stageNext (stageFlags (stage s q n) (emitBytes (stage s q n) i).f))) q (lacePut (seam (setStage s q n (stageNext (stageFlags (stage s q n) (emitBytes (stage s q n) i).f))) q) (i.f 3 5) (emitBytes (stage s q n) i).v)) ∧
  (∀ (s : State) (q n : Nat) (i : Ins), StageReady s q n 0x13 → stageIns s q n = i → i.f 0 3 = 0 → laceShut s q (i.f 3 5) = false → laceRoom (seam s q) (i.f 3 5) = true → Answers (.emitPut q n) s fun t => t = setSeam (setStage s q n (stageNext (stageFlags (stage s q n) (emitBytes (stage s q n) i).f))) q (lacePut (seam (setStage s q n (stageNext (stageFlags (stage s q n) (emitBytes (stage s q n) i).f))) q) (i.f 3 5) (emitBytes (stage s q n) i).v)) ∧
  (∀ (s : State) (q n : Nat) (i : Ins), StageReady s q n 0x13 → stageIns s q n = i → i.f 0 3 = 0 → laceShut s q (i.f 3 5) = true → Answers (.emitPut q n) s fun t => t = stopJob s q 3) ∧
  (∀ (s : State) (q n : Nat) (i : Ins), StageReady s q n 0x13 → stageIns s q n = i → i.f 0 3 = 1 → i.f 8 4 = 0 → laceSize (i.f 23 4) ≤ (laceOf (seam s q) (i.f 3 5)).q.length → Answers (.emitTake q n) s fun t => tGet (stage t q n) (i.f 41 7) = tileFromLace (i.f 23 4) (tGet (stage s q n) (i.f 41 7)) ((laceOf (seam s q) (i.f 3 5)).q.take (laceSize (i.f 23 4))) ∧ (laceOf (seam t q) (i.f 3 5)).q = (laceOf (seam s q) (i.f 3 5)).q.drop (laceSize (i.f 23 4)) ∧ { stage t q n with t := (stage s q n).t } = { stageNext (stage s q n) with p := pPut (stage s q n).p 6 true } ∧ ∀ k, k % 16 ≠ i.f 41 7 % 16 → tGet (stage t q n) k = tGet (stage s q n) k ∧ SeamOnly s t q ∧ t = setStage (setSeam s q (laceDrop (seam s q) (i.f 3 5) ((i.f 8 4 + 1) * laceSize (i.f 23 4)))) q n (setP6 (stageNext (takeTiles (stage s q n) i ((laceOf (seam s q) (i.f 3 5)).q.take ((i.f 8 4 + 1) * laceSize (i.f 23 4))))) true)) ∧
  (∀ (s : State) (q n : Nat) (i : Ins) (b : Bytes), StageReady s q n 0x13 → stageIns s q n = i → i.f 0 3 = 1 → (laceOf (seam s q) (i.f 3 5)).q.take ((i.f 8 4 + 1) * laceSize (i.f 23 4)) = b → b ≠ [] → (i.f 8 4 + 1) * laceSize (i.f 23 4) ≤ (laceOf (seam s q) (i.f 3 5)).q.length ∨ (laceOf (seam s q) (i.f 3 5)).closed = true → Answers (.emitTake q n) s fun t => t = setStage (setSeam s q (laceDrop (seam s q) (i.f 3 5) ((i.f 8 4 + 1) * laceSize (i.f 23 4)))) q n (setP6 (stageNext (takeTiles (stage s q n) i b)) true)) ∧
  (∀ (s : State) (q n : Nat) (i : Ins), StageReady s q n 0x13 → stageIns s q n = i → i.f 0 3 = 1 → (laceOf (seam s q) (i.f 3 5)).q = [] → (laceOf (seam s q) (i.f 3 5)).closed = true → Answers (.emitTake q n) s fun t => stage t q n = { stageNext (stage s q n) with p := pPut (stage s q n).p 6 false } ∧ t = setStage (setSeam s q (laceDrop (seam s q) (i.f 3 5) ((i.f 8 4 + 1) * laceSize (i.f 23 4)))) q n (setP6 (stageNext (stage s q n)) false)) ∧
  (∀ (s : State) (q n : Nat) (i : Ins), StageReady s q n 0x13 → stageIns s q n = i → i.f 0 3 = 2 → Answers (.emitSeta q n) s fun t => aGet (stage t q n) (i.f 41 7) = w64 (place 0 56 (fld (regVal s q (stage s q n) (i.f 34 7)) 0 56 + i.x 0 56) + place 62 2 (i.f 18 2)) ∧ { stage t q n with a := (stage s q n).a } = stageNext (stage s q n) ∧ ∀ k, k % 16 ≠ i.f 41 7 % 16 → aGet (stage t q n) k = aGet (stage s q n) k ∧ t = setStage s q n (stageNext (aPut (stage s q n) (i.f 41 7) (w64 (place 0 56 (fld (regVal s q (stage s q n) (i.f 34 7)) 0 56 + i.x 0 56) + place 62 2 (i.f 18 2)))))) ∧
  (∀ (s : State) (q n a : Nat) (i : Ins) (b : Bytes), StageReady s q n 0x13 → stageIns s q n = i → i.f 0 3 = 3 → aSpace (aGet (stage s q n) (i.f 34 7)) = 0 → (aAddr (aGet (stage s q n) (i.f 34 7)) + i.x 0 32) % 2 ^ 56 = a → a % 8 = 0 → sliceRead (seam s q) a 8 = some b → Answers (.emitLda q n) s fun t => aGet (stage t q n) (i.f 41 7) = w64 (place 0 56 (leAt b 0 8) + place 62 2 (i.f 18 2)) ∧ { stage t q n with a := (stage s q n).a } = stageNext { stage s q n with prog := {} } ∧ ∀ k, k % 16 ≠ i.f 41 7 % 16 → aGet (stage t q n) k = aGet (stage s q n) k ∧ t = ldaPut s q n i b) ∧
  (∀ (s : State) (q n a fa r k : Nat) (i : Ins) (u : State), StageReady s q n 0x13 → stageIns s q n = i → i.f 0 3 = 3 → aSpace (aGet (stage s q n) (i.f 34 7)) = 1 → (aAddr (aGet (stage s q n) (i.f 34 7)) + i.x 0 32) % 2 ^ 56 = a → a % 8 = 0 → (stage s q n).prog.active = false → stageRoom s q n = true → translate s (stageAcc s q n a 0) = (u, .ok fa r k) → Answers (.emitLda q n) s fun t => (t.te.outst.map (·.what)) = (u.te.outst.map (·.what)) ++ [.piece q n u.te.nextId] ∧ (t.te.out.map (fun o => (o.f.op, o.f.dst, o.f.region))) = (u.te.out.map (fun o => (o.f.op, o.f.dst, o.f.region))) ++ [(1, fa / 32 * 32, r)] ∧ (stage t q n).pc = (stage u q n).pc ∧ (stage t q n).prog.active = true ∧ t.te.nextId = u.te.nextId + 1 ∧ t = issueNew (setStage u q n { stage u q n with pieces := (stage u q n).pieces ++ [{ id := u.te.nextId, va := a, len := 8, st := 2, lace := 32 }], prog := { (stage u q n).prog with active := true } }) (pieceReq u q { id := u.te.nextId, va := a, len := 8, st := 2, lace := 32 } fa r k) (.piece q n u.te.nextId)) ∧
  (∀ (s : State) (q n : Nat) (i : Ins) (p : Piece), StageReady s q n 0x13 → stageIns s q n = i → i.f 0 3 = 3 → aSpace (aGet (stage s q n) (i.f 34 7)) = 1 → (aAddr (aGet (stage s q n) (i.f 34 7)) + i.x 0 32) % 8 = 0 → (stage s q n).prog.active = true → (stage s q n).pieces.find? (fun p => decide (p.lace = 32) && decide (p.st = 3)) = some p → Answers (.emitLda q n) s fun t => aGet (stage t q n) (i.f 41 7) = w64 (place 0 56 (leAt p.data 0 8) + place 62 2 (i.f 18 2)) ∧ (stage t q n).pc = (stageNext (stage s q n)).pc ∧ t = ldaPut (setStage s q n { stage s q n with pieces := (stage s q n).pieces.filter fun p => decide (p.lace ≠ 32) }) q n i p.data) ∧
  (∀ (s : State) (q n a : Nat) (i : Ins) (b : Bytes), StageReady s q n 0x13 → stageIns s q n = i → i.f 0 3 = 4 → i.f 8 4 = 0 → i.f 14 1 = 0 → aSpace (aGet (stage s q n) (i.f 34 7)) = 0 → (aAddr (aGet (stage s q n) (i.f 34 7)) + i.x 0 32) % 2 ^ 56 = a → a % 64 = 0 → sliceRead (seam s q) a 1024 = some b → Answers (.emitLdt q n) s fun t => tGet (stage t q n) (i.f 41 7) = { data := BitVec.ofNat 8192 (ofLE b), scale := (tGet (stage s q n) (i.f 41 7)).scale } ∧ { stage t q n with t := (stage s q n).t } = stageNext (stage s q n) ∧ ∀ k, k % 16 ≠ i.f 41 7 % 16 → tGet (stage t q n) k = tGet (stage s q n) k ∧ StageOnly s t q n ∧ t = setStage s q n (stageNext (loadTiles (stage s q n) i b))) ∧
  (∀ (s : State) (q n a : Nat) (i : Ins) (b : Bytes), StageReady s q n 0x13 → stageIns s q n = i → i.f 0 3 = 4 → aSpace (aGet (stage s q n) (i.f 34 7)) = 0 → (aAddr (aGet (stage s q n) (i.f 34 7)) + i.x 0 32) % 2 ^ 56 = a → a % 64 = 0 → sliceRead (seam s q) a ((i.f 8 4 + 1) * slotSize i) = some b → Answers (.emitLdt q n) s fun t => t = setStage s q n (stageNext (loadTiles (stage s q n) i b))) ∧
  (∀ (s : State) (q n a : Nat) (i : Ins), StageReady s q n 0x13 → stageIns s q n = i → i.f 0 3 = 5 → i.f 8 4 = 0 → i.f 14 1 = 0 → aSpace (aGet (stage s q n) (i.f 27 7)) = 0 → (aAddr (aGet (stage s q n) (i.f 27 7)) + i.x 0 32) % 2 ^ 56 = a → a % 64 = 0 → a + 1024 ≤ sliceBytes (seam s q) → Answers (.emitStt q n) s fun t => (seam t q).mem = memWrite (seam s q).mem a (tileBytes (tGet (stage s q n) (i.f 34 7))) ∧ SameOutside (seam s q).mem (seam t q).mem a 1024 ∧ stage t q n = stageNext (stage s q n) ∧ seam t q = { seam s q with stages := (seam t q).stages, mem := (seam t q).mem } ∧ SeamOnly s t q ∧ t = setStage (setSeam s q { seam s q with mem := memWrite (seam s q).mem a (sttBytes (stage s q n) i) }) q n (stageNext (stage s q n))) ∧
  (∀ (s : State) (q n a : Nat) (i : Ins), StageReady s q n 0x13 → stageIns s q n = i → i.f 0 3 = 5 → aSpace (aGet (stage s q n) (i.f 27 7)) = 0 → (aAddr (aGet (stage s q n) (i.f 27 7)) + i.x 0 32) % 2 ^ 56 = a → a % 64 = 0 → a + (sttBytes (stage s q n) i).length ≤ sliceBytes (seam s q) → Answers (.emitStt q n) s fun t => SameOutside (seam s q).mem (seam t q).mem a (sttBytes (stage s q n) i).length ∧ t = setStage (setSeam s q { seam s q with mem := memWrite (seam s q).mem a (sttBytes (stage s q n) i) }) q n (stageNext (stage s q n))) ∧
  (∀ (s : State) (q n : Nat) (i : Ins), StageReady s q n 0x13 → stageIns s q n = i → i.f 0 3 = 6 → Answers (.emitSetp q n) s fun t => stage t q n = { stageNext (stage s q n) with p := pPut (stage s q n).p (i.f 41 7 % 32) (relHolds (i.f 15 3) (((regVal s q (stage s q n) (i.f 34 7)).toNat : Int) - (i.ext.toNat : Int))) } ∧ t = setStage s q n (stage t q n))

/-- REDW and MCAST send a record of their lace each, and end with the stream. REDW sends the next record of its lace as a tagged REDW request to the translated address under the key of the stage's update count; MCAST sends it as an MSTORE of its group. The record leaves the lace and the count of records rises. At end-of-stream both instructions end. -/
def Obligations.RecordSendingInstructions : Prop :=
  (∀ (s : State) (q n va fa r k : Nat) (i : Ins) (b : Bytes) (u : State), StageReady s q n 0x61 → stageIns s q n = i → aSpace (aGet (stage s q n) (i.f 34 7)) = 1 → i.f 5 1 = 0 → i.x 0 9 ≤ (laceOf (seam s q) (i.f 0 5)).q.length → 0 < i.x 0 9 → (laceOf (seam s q) (i.f 0 5)).q.take (i.x 0 9) = b → (stage s q n).updates < 16777216 → stageRoom s q n = true → wrapInt 56 ((aAddr (aGet (stage s q n) (i.f 34 7)) : Int) + ((stage s q n).prog.count * 256 : Nat)) = va → translate s (stageAcc s q n va 2) = (u, .ok fa r k) → Answers (.redw q n) s fun t => (t.te.outst.map (·.what)) = (u.te.outst.map (·.what)) ++ [.stageUpdate q n] ∧ (t.te.out.map (fun o => (o.f.op, o.f.dst, o.f.region, o.f.data, o.f.tag))) = (u.te.out.map (fun o => (o.f.op, o.f.dst, o.f.region, o.f.data, o.f.tag))) ++ [(5, fa, r, b, (stage s q n).updates % 65536)] ∧ (stage t q n).updates = (stage s q n).updates + 1 ∧ (stage t q n).prog.count = (stage s q n).prog.count + 1 ∧ (laceOf (seam t q) (i.f 0 5)).q = (laceOf (seam s q) (i.f 0 5)).q.drop (i.x 0 9) ∧ t = redwSend s q n i b) ∧
  (∀ (s : State) (q n : Nat) (i : Ins), StageReady s q n 0x61 → stageIns s q n = i → aSpace (aGet (stage s q n) (i.f 34 7)) = 1 → (laceOf (seam s q) (i.f 0 5)).q = [] → (laceOf (seam s q) (i.f 0 5)).closed = true → Answers (.redw q n) s fun t => stage t q n = { stageNext (stage s q n) with prog := {}, p := pPut (stage s q n).p 6 (stage s q n).prog.took } ∧ t = setStage (setSeam s q (laceDrop (seam s q) (i.f 0 5) (i.x 0 9 + 32 * i.f 5 1))) q n (stage t q n)) ∧
  (∀ (s : State) (q n : Nat) (i : Ins), StageReady s q n 0x61 → stageIns s q n = i → aSpace (aGet (stage s q n) (i.f 34 7)) = 1 → Answers (.redw q n) s fun t => t = lineStep s q n i (i.x 0 9) fun b _ => redwSend s q n i b) ∧
  (∀ (s : State) (q n : Nat) (i : Ins), StageReady s q n 0x61 → stageIns s q n = i → aSpace (aGet (stage s q n) (i.f 34 7)) ≠ 1 → Answers (.redw q n) s fun t => t = stopJob s q 3) ∧
  (∀ (s : State) (q n va fa r k : Nat) (i : Ins) (b : Bytes) (u : State), StageReady s q n 0x62 → stageIns s q n = i → aSpace (aGet (stage s q n) (i.f 34 7)) = 1 → (group s (i.x 0 14)).status.enabled = true → (group s (i.x 0 14)).comp = (jobOf s q).comp → i.f 5 1 = 0 → i.x 16 13 ≤ (laceOf (seam s q) (i.f 0 5)).q.length → 0 < i.x 16 13 → (laceOf (seam s q) (i.f 0 5)).q.take (i.x 16 13) = b → stageRoom s q n = true → wrapInt 56 ((aAddr (aGet (stage s q n) (i.f 34 7)) : Int) + ((stage s q n).prog.count * i.x 16 13 : Nat)) = va → translate s (stageAcc s q n va 1) = (u, .ok fa r k) → wireAddr s q n = none → Answers (.mcast q n) s fun t => (t.te.outst.map (·.what)) = (u.te.outst.map (·.what)) ++ [.piece q n u.te.nextId] ∧ (t.te.out.map (fun o => (o.f.op, o.f.dst, o.f.group, o.f.data))) = (u.te.out.map (fun o => (o.f.op, o.f.dst, o.f.group, o.f.data))) ++ [(6, s.swNum * 2 ^ 48 + faOff fa, i.x 0 14, b)] ∧ (stage t q n).prog.count = (stage s q n).prog.count + 1 ∧ (laceOf (seam t q) (i.f 0 5)).q = (laceOf (seam s q) (i.f 0 5)).q.drop (i.x 16 13) ∧ t = mcastSend s q n i b) ∧
  (∀ (s : State) (q n : Nat) (i : Ins), StageReady s q n 0x62 → stageIns s q n = i → aSpace (aGet (stage s q n) (i.f 34 7)) = 1 → (group s (i.x 0 14)).status.enabled = true → (group s (i.x 0 14)).comp = (jobOf s q).comp → (laceOf (seam s q) (i.f 0 5)).q = [] → (laceOf (seam s q) (i.f 0 5)).closed = true → Answers (.mcast q n) s fun t => stage t q n = { stageNext (stage s q n) with prog := {}, p := pPut (stage s q n).p 6 (stage s q n).prog.took } ∧ t = setStage (setSeam s q (laceDrop (seam s q) (i.f 0 5) (i.x 16 13 + 32 * i.f 5 1))) q n (stage t q n)) ∧
  (∀ (s : State) (q n : Nat) (i : Ins), StageReady s q n 0x62 → stageIns s q n = i → aSpace (aGet (stage s q n) (i.f 34 7)) = 1 → (group s (i.x 0 14)).status.enabled = true → (group s (i.x 0 14)).comp = (jobOf s q).comp → Answers (.mcast q n) s fun t => t = lineStep s q n i (i.x 16 13) fun b _ => mcastSend s q n i b) ∧
  (∀ (s : State) (q n : Nat) (i : Ins), StageReady s q n 0x62 → stageIns s q n = i → aSpace (aGet (stage s q n) (i.f 34 7)) ≠ 1 ∨ (group s (i.x 0 14)).status.enabled = false ∨ (group s (i.x 0 14)).comp ≠ (jobOf s q).comp → Answers (.mcast q n) s fun t => t = stopJob s q 3)

/-- DECODE, ENCODE, BUILDTAB and their block events. DECODE takes the next block of its lace into the unit's buffer and ends with the stream; a buffered block whose checks pass puts its values, rounded to the output type, on the output lace, and one that fails ends the job with its status. ENCODE ends with the stream; a raw block becomes a slot record, or a stub with its raw block on the spill lace when it does not fit or holds a symbol without a code. BUILDTAB counts the values of one block at a time, then notes encoded sizes, and at the end emits the table record. -/
def Obligations.CodecInstructions : Prop :=
  (∀ (s : State) (q n need : Nat) (i : Ins), StageReady s q n 0x20 → stageIns s q n = i → (stage s q n).buf.held = false → (laceOf (seam s q) (i.f 0 5)).q ≠ [] → (if blkKind (laceOf (seam s q) (i.f 0 5)).q = 1 then 4128 else blkSlot (laceOf (seam s q) (i.f 0 5)).q) = need → (laceOf (seam s q) (i.f 0 5)).closed = true ∨ (32 ≤ (laceOf (seam s q) (i.f 0 5)).q.length ∧ need ≤ (laceOf (seam s q) (i.f 0 5)).q.length) → (stage s q n).fill.held = false → Answers (.decode q n) s fun t => (stage t q n).buf.held = true ∧ (stage t q n).buf.bytes = (laceOf (seam s q) (i.f 0 5)).q.take need ∧ (stage t q n).pc = (stage s q n).pc ∧ (laceOf (seam t q) (i.f 0 5)).q = (laceOf (seam s q) (i.f 0 5)).q.drop need ∧ t = bufferBlock s q n (i.f 0 5) need) ∧
  (∀ (s : State) (q n need : Nat) (i : Ins), StageReady s q n 0x20 → stageIns s q n = i → (stage s q n).buf.held = true → (stage s q n).fill.held = false → (laceOf (seam s q) (i.f 0 5)).q ≠ [] → (if blkKind (laceOf (seam s q) (i.f 0 5)).q = 1 then 4128 else blkSlot (laceOf (seam s q) (i.f 0 5)).q) = need → (laceOf (seam s q) (i.f 0 5)).closed = true ∨ (32 ≤ (laceOf (seam s q) (i.f 0 5)).q.length ∧ need ≤ (laceOf (seam s q) (i.f 0 5)).q.length) → Answers (.decode q n) s fun t => (stage t q n).buf = (stage s q n).buf ∧ (stage t q n).fill.bytes = (laceOf (seam s q) (i.f 0 5)).q.take need ∧ t = bufferBlock s q n (i.f 0 5) need) ∧
  (∀ (s : State) (q n : Nat) (i : Ins), StageReady s q n 0x20 → stageIns s q n = i → (stage s q n).fill.held = true ∨ ((laceOf (seam s q) (i.f 0 5)).q = [] ∧ (laceOf (seam s q) (i.f 0 5)).closed = false) → exec (.decode q n) s = .next (s)) ∧
  (∀ (s : State) (q n : Nat) (i : Ins), StageReady s q n 0x20 → stageIns s q n = i → (stage s q n).buf.held = false → (laceOf (seam s q) (i.f 0 5)).q = [] → (laceOf (seam s q) (i.f 0 5)).closed = true → (stage s q n).fill.held = false → Answers (.decode q n) s fun t => stage t q n = { stageNext (stage s q n) with prog := {}, p := pPut (stage s q n).p 6 (stage s q n).prog.took } ∧ t = ioEnd s q n true true) ∧
  (∀ (s : State) (q n : Nat) (i : Ins) (l : List Nat), StageReady s q n 0x20 → stageIns s q n = i → (stage s q n).buf.held = true → (stage s q n).buf.ref = false → (stage s q n).hold = none → tileWaits s (stage s q n) = false → sampleDue (gvCount s 0 1) (stage s q n).ty (stage s q n).phys = false → judgeBlock s (jobOf s q).comp (i.f 10 4) (stage s q n).buf = .vals l → laceRoom (seam s q) (i.f 5 5) = true → Answers (.decodeBlock q n) s fun t => (laceOf (seam t q) (i.f 5 5)).q = (laceOf (seam s q) (i.f 5 5)).q ++ (codecOut (i.f 10 4) (i.f 23 4) (i.f 14 2) l).v ∧ stage t q n = { stageFlags (stage s q n) (codecOut (i.f 10 4) (i.f 23 4) (i.f 14 2) l).f with buf := (stage s q n).fill, fill := {} } ∧ seam t q = { seam s q with stages := (seam t q).stages, laces := (seam t q).laces } ∧ SeamOnly s t q ∧ t = blockOut s q n (i.f 5 5) (codecOut (i.f 10 4) (i.f 23 4) (i.f 14 2) l)) ∧
  (∀ (s : State) (q n : Nat) (i : Ins) (l : List Nat), StageReady s q n 0x20 → stageIns s q n = i → (stage s q n).buf.held = true → tileWaits s (stage s q n) = false → laceRoom (seam s q) (i.f 5 5) = true → judgeBlock s (jobOf s q).comp (i.f 10 4) (stage s q n).buf = .vals l → Answers (.decodeBlock q n) s fun t => t = blockOut s q n (i.f 5 5) (codecOut (i.f 10 4) (i.f 23 4) (i.f 14 2) l)) ∧
  (∀ (s : State) (q n st : Nat) (stale : Bool) (i : Ins) (j : JobRun), StageReady s q n 0x20 → stageIns s q n = i → (stage s q n).buf.held = true → tileWaits s (stage s q n) = false → (seam s q).job = some j → j.endStatus = none → judgeBlock s (jobOf s q).comp (i.f 10 4) (stage s q n).buf = .fails st stale → laceRoom (seam s q) (i.f 5 5) = true → Answers (.decodeBlock q n) s fun t => (seam t q).job.map (·.endStatus) = some (some st) ∧ (seam t q).state = 8 ∧ t = stopJob (gvCount s (if stale then 2 else 3) 1) q st) ∧
  (∀ (s : State) (q n : Nat) (i : Ins), StageReady s q n 0x21 → stageIns s q n = i → (encTable s q (stage s q n) i).isSome = true → (laceOf (seam s q) (i.f 0 5)).q = [] → (laceOf (seam s q) (i.f 0 5)).closed = true → Answers (.encode q n) s fun t => stage t q n = { stageNext (stage s q n) with prog := {}, p := pPut (stage s q n).p 6 (stage s q n).prog.took } ∧ t = ioEnd s q n true true) ∧
  (∀ (s : State) (q n : Nat) (i : Ins) (j : JobRun), StageReady s q n 0x21 → stageIns s q n = i → (encTable s q (stage s q n) i).isSome = true → (laceOf (seam s q) (i.f 0 5)).q ≠ [] → (laceOf (seam s q) (i.f 0 5)).q.length < 4096 → (laceOf (seam s q) (i.f 0 5)).closed = true → (seam s q).job = some j → j.endStatus = none → Answers (.encode q n) s fun t => (seam t q).job.map (·.endStatus) = some (some 3) ∧ (seam t q).state = 8 ∧ t = stopJob s q 3) ∧
  (∀ (s : State) (q n gen : Nat) (i : Ins) (r : Bytes) (j : JobRun) (e : Option Bytes), StageReady s q n 0x21 → stageIns s q n = i → encTable s q (stage s q n) i = some (gen, r) → 4096 ≤ (laceOf (seam s q) (i.f 0 5)).q.length → i.f 0 5 ≠ i.f 5 5 → i.f 0 5 ≠ i.f 10 5 → i.f 5 5 ≠ i.f 10 5 → encodeBlock (i.f 23 4) (i.x 0 16) gen (i.x 16 16) r (gvUnpack (i.f 23 4) ((laceOf (seam s q) (i.f 0 5)).q.take 4096)) = e → (seam s q).job = some j → j.spills < i.x 32 32 → laceRoom (seam s q) (i.f 5 5) = true → laceRoom (seam s q) (i.f 10 5) = true → Answers (.encodeBlock q n) s fun t => ∀ b, e = some b → (laceOf (seam t q) (i.f 5 5)).q = (laceOf (seam s q) (i.f 5 5)).q ++ b ∧ (seam t q).job = some j ∧ e = none → (laceOf (seam t q) (i.f 10 5)).q = (laceOf (seam s q) (i.f 10 5)).q ++ (laceOf (seam s q) (i.f 0 5)).q.take 4096 ∧ (seam t q).job = some { j with spills := j.spills + 1 } ∧ e = none → (laceOf (seam t q) (i.f 5 5)).q = (laceOf (seam s q) (i.f 5 5)).q ++ stubRec (i.f 23 4) (i.x 0 16) gen (i.x 16 16) ((aAddr (aGet (stage s q n) (i.f 27 7)) + j.spills * 4096 : Nat) - ((aAddr (aGet (stage s q n) (i.f 34 7)) + (stage s q n).prog.count * i.x 16 16 : Nat) : Int)) ∧ (laceOf (seam t q) (i.f 0 5)).q = (laceOf (seam s q) (i.f 0 5)).q.drop 4096 ∧ (stage t q n).prog.count = (stage s q n).prog.count + 1 ∧ SeamOnly s t q ∧ t = encodeRaw s q n i gen r) ∧
  (∀ (s : State) (q n gen : Nat) (i : Ins) (r : Bytes), StageReady s q n 0x21 → stageIns s q n = i → encTable s q (stage s q n) i = some (gen, r) → 4096 ≤ (laceOf (seam s q) (i.f 0 5)).q.length → laceRoom (seam s q) (i.f 5 5) = true → laceRoom (seam s q) (i.f 10 5) = true → Answers (.encodeBlock q n) s fun t => t = encodeRaw s q n i gen r) ∧
  (∀ (s : State) (q n : Nat) (i : Ins), StageReady s q n 0x21 → stageIns s q n = i → encTable s q (stage s q n) i = none → Answers (.encodeBlock q n) s fun t => t = stopJob s q 3) ∧
  (∀ (s : State) (q n : Nat) (i : Ins), StageReady s q n 0x22 → stageIns s q n = i → (stage s q n).prog.phase = 0 → (stage s q n).prog.counts ≠ [] → 4096 ≤ (laceOf (seam s q) (i.f 32 5)).q.length → Answers (.buildtab q n) s fun t => (stage t q n).prog.counts = countValues (i.f 37 4) (stage s q n).prog.counts (gvUnpack (i.f 37 4) ((laceOf (seam s q) (i.f 32 5)).q.take 4096)) ∧ (stage t q n).prog.count = (stage s q n).prog.count + 1 ∧ (laceOf (seam t q) (i.f 32 5)).q = (laceOf (seam s q) (i.f 32 5)).q.drop 4096 ∧ SeamOnly s t q ∧ t = sweepTaken s q n (i.f 37 4) (i.f 32 5) false ((laceOf (seam s q) (i.f 32 5)).q.take 4096)) ∧
  (∀ (s : State) (q n : Nat) (i : Ins), StageReady s q n 0x22 → stageIns s q n = i → (stage s q n).prog.phase = 1 → 4096 ≤ (laceOf (seam s q) (i.f 0 5)).q.length → Answers (.buildtab q n) s fun t => (stage t q n).prog.sizes.length = (stage s q n).prog.sizes.length + 1 ∧ (laceOf (seam t q) (i.f 0 5)).q = (laceOf (seam s q) (i.f 0 5)).q.drop 4096 ∧ t = sweepTaken s q n (i.f 37 4) (i.f 0 5) true ((laceOf (seam s q) (i.f 0 5)).q.take 4096)) ∧
  (∀ (s : State) (q n l : Nat) (i : Ins), StageReady s q n 0x22 → stageIns s q n = i → (if (stage s q n).prog.phase = 1 then i.f 0 5 else i.f 32 5) = l → (laceOf (seam s q) l).closed = true → ((laceOf (seam s q) l).q ≠ [] ∧ (laceOf (seam s q) l).q.length < 4096) ∨ ((laceOf (seam s q) l).q = [] ∧ (stage s q n).prog.phase ≠ 1 ∧ (stage s q n).prog.count = 0) → Answers (.buildtab q n) s fun t => t = stopJob s q 3) ∧
  (∀ (s : State) (q n : Nat) (i : Ins), StageReady s q n 0x22 → stageIns s q n = i → (stage s q n).prog.phase = 0 → (stage s q n).prog.count ≠ 0 → (laceOf (seam s q) (i.f 32 5)).q = [] → (laceOf (seam s q) (i.f 32 5)).closed = true → exec (.buildtab q n) s = .next (setStage s q n { stage s q n with prog := { (stage s q n).prog with phase := 1 } })) ∧
  (∀ (s : State) (q n : Nat) (i : Ins), StageReady s q n 0x22 → stageIns s q n = i → (stage s q n).prog.phase = 1 → (laceOf (seam s q) (i.f 0 5)).q = [] → (laceOf (seam s q) (i.f 0 5)).closed = true → laceRoom (seam s q) (i.f 5 5) = true → Answers (.buildtab q n) s fun t => (laceOf (seam t q) (i.f 5 5)).q = (laceOf (seam s q) (i.f 5 5)).q ++ tableRecord (i.f 37 4) (if i.f 10 10 = 0 then 990 else i.f 10 10) (progLens (stage s q n)) (stage s q n).prog.sizes ∧ stage t q n = { stageNext (stage s q n) with prog := {}, p := pPut (stage s q n).p 6 (stage s q n).prog.took } ∧ SeamOnly s t q ∧ t = ioEnd (setSeam s q (lacePut (seam s q) (i.f 5 5) (tableRecord (i.f 37 4) (if i.f 10 10 = 0 then 990 else i.f 10 10) (progLens (stage s q n)) (stage s q n).prog.sizes))) q n true true)

/-- TOPK, COMPACT, the welt RED with its contributions, and its timeout. TOPK emits the highest keys of its ended input in ranked order and closes its output; COMPACT passes one record at a time by its mask and at the end emits the count; a stage joins its welt, which opens when its last server has joined with every line's state zeroed, and the instruction completes when the welt has closed; a contribution from the lace raises its line's count; a welt past its timeout ends the job with TIMEOUT. -/
def Obligations.FilterAndWeltInstructions : Prop :=
  (∀ (s : State) (q n k : Nat) (i : Ins), StageReady s q n 0x51 → stageIns s q n = i → (if i.f 19 1 = 1 then (sGet (seam s q).s (i.f 20 5)).toNat else i.f 0 12 + 1) = k → 1 ≤ k → k ≤ 4096 → laceShut s q (i.f 12 5) = false → (laceOf (seam s q) (i.f 32 5)).closed = true → (laceOf (seam s q) (i.f 32 5)).q.length % (if i.f 17 1 = 1 then 8 else elemBytes (i.f 37 4)) = 0 → laceRoom (seam s q) (i.f 12 5) = true → Answers (.topk q n) s fun t => (laceOf (seam t q) (i.f 12 5)).q = (laceOf (seam s q) (i.f 12 5)).q ++ ((topKeys k (topInput i (fld (sGet (seam s q).s (i.f 25 5)) 0 32) (laceOf (seam s q) (i.f 32 5)).q)).flatMap fun x => if i.f 18 1 = 1 then bytesLE 4 x.pat ++ bytesLE 4 x.ix else bytesLE 4 x.ix) ∧ (laceOf (seam t q) (i.f 12 5)).closed = true ∧ (laceOf (seam t q) (i.f 32 5)).q = [] ∧ stage t q n = { stageNext (stage s q n) with p := pPut (stage s q n).p 6 !(laceOf (seam s q) (i.f 32 5)).q.isEmpty } ∧ t = topkEmit s q n i k) ∧
  (∀ (s : State) (q n k : Nat) (i : Ins), StageReady s q n 0x51 → stageIns s q n = i → (if i.f 19 1 = 1 then (sGet (seam s q).s (i.f 20 5)).toNat else i.f 0 12 + 1) = k → k = 0 ∨ 4096 < k ∨ laceShut s q (i.f 12 5) = true → Answers (.topk q n) s fun t => t = stopJob s q 3) ∧
  (∀ (s : State) (q n : Nat) (i : Ins), StageReady s q n 0x53 → stageIns s q n = i → laceShut s q (i.f 10 5) = false → laceShut s q (i.f 15 5) = false → i.f 0 5 ≠ i.f 5 5 → i.f 10 5 ≠ i.f 0 5 → i.f 10 5 ≠ i.f 5 5 → i.x 0 12 * 32 ≤ (laceOf (seam s q) (i.f 0 5)).q.length → 4 ≤ (laceOf (seam s q) (i.f 5 5)).q.length → laceRoom (seam s q) (i.f 10 5) = true → laceRoom (seam s q) (i.f 15 5) = true → Answers (.compact q n) s fun t => (laceOf (seam t q) (i.f 10 5)).q = (laceOf (seam s q) (i.f 10 5)).q ++ (if leAt (laceOf (seam s q) (i.f 5 5)).q 0 4 ≠ 0 ∧ (i.x 32 32 = 0 ∨ (stage s q n).prog.count < i.x 32 32) then (laceOf (seam s q) (i.f 0 5)).q.take (i.x 0 12 * 32) else []) ∧ (laceOf (seam t q) (i.f 0 5)).q = (laceOf (seam s q) (i.f 0 5)).q.drop (i.x 0 12 * 32) ∧ (laceOf (seam t q) (i.f 5 5)).q = (laceOf (seam s q) (i.f 5 5)).q.drop 4 ∧ (stage t q n).prog.count = (stage s q n).prog.count + (if leAt (laceOf (seam s q) (i.f 5 5)).q 0 4 ≠ 0 then 1 else 0) ∧ (stage t q n).pc = (stage s q n).pc ∧ t = compactRec s q n i ((laceOf (seam s q) (i.f 0 5)).q.take (i.x 0 12 * 32)) (leAt (laceOf (seam s q) (i.f 5 5)).q 0 4)) ∧
  (∀ (s : State) (q n : Nat) (i : Ins), StageReady s q n 0x53 → stageIns s q n = i → laceShut s q (i.f 10 5) = false → laceShut s q (i.f 15 5) = false → (laceOf (seam s q) (i.f 0 5)).q = [] → (laceOf (seam s q) (i.f 0 5)).closed = true → (laceOf (seam s q) (i.f 5 5)).q = [] → (laceOf (seam s q) (i.f 5 5)).closed = true → laceRoom (seam s q) (i.f 10 5) = true → laceRoom (seam s q) (i.f 15 5) = true → Answers (.compact q n) s fun t => (laceOf (seam t q) (i.f 15 5)).q = (laceOf (seam s q) (i.f 15 5)).q ++ bytesLE 8 (stage s q n).prog.count ++ List.replicate 24 0 ∧ stage t q n = { stageNext (stage s q n) with prog := {}, p := pPut (stage s q n).p 6 (stage s q n).prog.took } ∧ t = ioEnd (setSeam s q (lacePut (seam s q) (i.f 15 5) (bytesLE 8 (stage s q n).prog.count ++ List.replicate 24 0))) q n true true) ∧
  (∀ (s : State) (q n : Nat) (i : Ins), StageReady s q n 0x53 → stageIns s q n = i → laceShut s q (i.f 10 5) = false → laceShut s q (i.f 15 5) = false → laceRoom (seam s q) (i.f 10 5) = true → laceRoom (seam s q) (i.f 15 5) = true → i.x 0 12 * 32 ≤ (laceOf (seam s q) (i.f 0 5)).q.length → 4 ≤ (laceOf (seam s q) (i.f 5 5)).q.length → Answers (.compact q n) s fun t => t = compactRec s q n i ((laceOf (seam s q) (i.f 0 5)).q.take (i.x 0 12 * 32)) (leAt (laceOf (seam s q) (i.f 5 5)).q 0 4)) ∧
  (∀ (s : State) (q n a : Nat) (b : Bytes) (j : JobRun), StageReady s q n 0x60 → (stageIns s q n).f 0 1 = 1 → (stage s q n).weltWait = false → aSpace (aGet (stage s q n) ((stageIns s q n).f 34 7)) = 0 → aAddr (aGet (stage s q n) ((stageIns s q n).f 34 7)) = a → sliceRead (seam s q) a 32 = some b → (seam s q).job = some j → jobWelt s q = none → weltRanges (weltOf q j.seq j.comp a b) b = true → 1 < (weltOf q j.seq j.comp a b).servers → Answers (.redWelt q n) s fun t => stage t q n = { stage s q n with weltWait := true } ∧ t.sa.welts.getLast? = some { weltOf q j.seq j.comp a b with joined := [n] } ∧ t = weltJoin s q n { weltOf q j.seq j.comp a b with joined := [n] }) ∧
  (∀ (s : State) (q n a fa r k : Nat) (b : Bytes) (j : JobRun) (u : State) (w : Welt), StageReady s q n 0x60 → (stageIns s q n).f 0 1 = 1 → (stage s q n).weltWait = false → aSpace (aGet (stage s q n) ((stageIns s q n).f 34 7)) = 0 → aAddr (aGet (stage s q n) ((stageIns s q n).f 34 7)) = a → sliceRead (seam s q) a 32 = some b → (seam s q).job = some j → jobWelt s q = none → weltRanges (weltOf q j.seq j.comp a b) b = true → (weltOf q j.seq j.comp a b).servers = 1 → translate s (stageAcc s q n (weltOf q j.seq j.comp a b).base 2) = (u, .ok fa r k) → { weltOf q j.seq j.comp a b with joined := [n], base := fa } = w → weltFits u q w r = true → Answers (.redWelt q n) s fun t => (stage t q n).weltWait = true ∧ t.sa.welts.getLast? = some { w with opened := true, deadline := s.now + w.timeout * 1000 } ∧ (seam t q).mem = weltZeroAll w (seam s q).mem ∧ t = weltOpen s q n { weltOf q j.seq j.comp a b with joined := [n] }) ∧
  (∀ (s : State) (q n : Nat) (w : Welt), StageReady s q n 0x60 → (stageIns s q n).f 0 1 = 1 → (stage s q n).weltWait = true → jobWelt s q = some w → w.closedAt ≠ none → Answers (.redWelt q n) s fun t => (stage t q n).pc = (stage s q n).pc + (stageIns s q n).len ∧ (stage t q n).weltWait = false ∧ (stage t q n).p = (if (stage s q n).inL = 0 then (stage s q n).p else pPut (stage s q n).p 6 ((stage s q n).prog.took || !((laceOf (seam s q) (firstLace (stage s q n).inL)).closed && (laceOf (seam s q) (firstLace (stage s q n).inL)).q.isEmpty))) ∧ t = setStage s q n (weltDone s q (stage s q n))) ∧
  (∀ (s : State) (q n : Nat), StageReady s q n 0x60 → (stageIns s q n).f 0 1 = 1 → (stage s q n).weltWait = false → aSpace (aGet (stage s q n) ((stageIns s q n).f 34 7)) = 0 → Answers (.redWelt q n) s fun t => t = weltEnter s q n (aAddr (aGet (stage s q n) ((stageIns s q n).f 34 7)))) ∧
  (∀ (s : State) (q n : Nat), StageReady s q n 0x60 → (stageIns s q n).f 0 1 = 1 → (stage s q n).weltWait = true → (jobWelt s q).any (fun w => w.closedAt.isSome) = false → exec (.redWelt q n) s = .next (s)) ∧
  (∀ (s : State) (q n l k c : Nat) (w : Welt), stageLive s q n = true → (stage s q n).weltWait = true → jobWelt s q = some w → w.seam = q → w.opened = true → (stage s q n).inL ≠ 0 → firstLace (stage s q n).inL = l → 32 + weltInB w ≤ (laceOf (seam s q) l).q.length → leAt (laceOf (seam s q) l).q 0 4 = k → k < w.lines → weltCount (seam s q).mem w k = c → c + 1 < w.expect → w.expect < 2 ^ 16 → (stage s q n).outL = 0 ∨ laceRoom (seam s q) (firstLace (stage s q n).outL) = true → Answers (.weltLaceContribution q n) s fun t => (laceOf (seam t q) l).q = (laceOf (seam s q) l).q.drop (32 + weltInB w) ∧ (stage t q n).prog.took = true ∧ (seam t q).mem = memWrite (seam s q).mem (weltAt w k) ((weltCombine w (memRead (seam s q).mem (weltAt w k) (weltLineB w - 4)) (((laceOf (seam s q) l).q.drop 32).take (weltInB w))).v ++ bytesLE 4 (c + 1)) ∧ seam t q = { seam s q with stages := (seam t q).stages, laces := (seam t q).laces, mem := (seam t q).mem } ∧ SeamOnly s t q ∧ t = weltTake s q n l w) ∧
  (∀ (s : State) (q n l : Nat) (w : Welt), stageLive s q n = true → (stage s q n).weltWait = true → jobWelt s q = some w → w.opened = true → (stage s q n).inL ≠ 0 → firstLace (stage s q n).inL = l → 32 + weltInB w ≤ (laceOf (seam s q) l).q.length → leAt (laceOf (seam s q) l).q 0 4 < w.lines → (stage s q n).outL = 0 ∨ laceRoom (seam s q) (firstLace (stage s q n).outL) = true → Answers (.weltLaceContribution q n) s fun t => t = weltTake s q n l w) ∧
  (∀ (s : State) (q n l : Nat) (w : Welt), stageLive s q n = true → (stage s q n).weltWait = true → jobWelt s q = some w → w.opened = true → (stage s q n).inL ≠ 0 → firstLace (stage s q n).inL = l → 32 + weltInB w ≤ (laceOf (seam s q) l).q.length → w.lines ≤ leAt (laceOf (seam s q) l).q 0 4 → (stage s q n).outL = 0 ∨ laceRoom (seam s q) (firstLace (stage s q n).outL) = true → Answers (.weltLaceContribution q n) s fun t => t = stopJob s q 3) ∧
  (∀ (s : State) (q : Nat) (w : Welt) (j : JobRun), working s = true → jobWelt s q = some w → w.opened = true → w.deadline ≤ s.now → (seam s q).job = some j → j.endStatus = none → Answers (.weltTimeout q) s fun t => (seam t q).job.map (·.endStatus) = some (some 0x0E) ∧ (seam t q).state = 8 ∧ (t.sa.welts.all (fun x => decide (x.seam ≠ q) || !x.opened) = true) ∧ t = stopJob s q 0x0E)

/-- Held tiles find a checker, are released by its result or judged by a repeat, and escalation lapses. A held tile takes a spare that has come free as its checker; without one for 256 cycles the sample is skipped and the next tile owed. A checker's equal result releases the tile and its checker, a different one starts a repeat; a repeat equal to the unit's result charges the checker and releases the tile; 24 h without a charged mismatch end an escalation, and older counts leave their bin. -/
def Obligations.ProofCommands : Prop :=
  (∀ (s : State) (q n c : Nat) (h : ProofHold), holdOf s q n = some h → h.checker = none → spareFor s (stage s q n).ty (stage s q n).phys = some c → Answers (.proofCheckerWait q n) s fun t => (stage t q n).hold = some { h with checker := some c } ∧ (unitAt t (stage s q n).ty c).state = 5 ∧ (health t (stage s q n).ty c).chkTenant = (jobOf s q).tenant ∧ t = setStage (lendChecker s (stage s q n).ty c (jobOf s q).tenant) q n { (stage s q n) with hold := some { h with checker := some c } }) ∧
  (∀ (s : State) (q n : Nat) (h : ProofHold), holdOf s q n = some h → h.checker = none → h.lace = none → spareFor s (stage s q n).ty (stage s q n).phys = none → h.time + 147 ≤ s.now → Answers (.proofCheckerWait q n) s fun t => stage t q n = { stage s q n with hold := none } ∧ health t (stage s q n).ty (stage s q n).phys = { health s (stage s q n).ty (stage s q n).phys with owed := true, unseen := true } ∧ t = skipSample s q n h) ∧
  (∀ (s : State) (q n : Nat) (h : ProofHold), holdOf s q n = some h → h.checker = none → spareFor s (stage s q n).ty (stage s q n).phys = none → h.time + 147 ≤ s.now → Answers (.proofCheckerWait q n) s fun t => (stage t q n).hold = none ∧ t = skipSample s q n h) ∧
  (∀ (s : State) (q n c : Nat) (res : ProofRes) (h : ProofHold), holdOf s q n = some h → h.checker = some c → h.differs = false → h.lace = none → h.row = none → h.rds = [] → res.tiles = h.tiles → res.bytes = h.bytes → Answers (.proofVerdict q n res) s fun t => stage t q n = { stage s q n with hold := none } ∧ (unitAt t (stage s q n).ty c).state ≠ 5 ∧ (health t (stage s q n).ty (stage s q n).phys).unseen = false ∧ t = agreed (phCount s 3 1) q n h) ∧
  (∀ (s : State) (q n c rd : Nat) (x : Tile) (res : ProofRes) (h : ProofHold), holdOf s q n = some h → h.checker = some c → h.differs = false → h.lace = none → h.row = none → h.rds = [rd] → h.tiles = [x] → res.tiles = [x] → res.bytes = h.bytes → Answers (.proofVerdict q n res) s fun t => tGet (stage t q n) rd = x ∧ (stage t q n).hold = none ∧ ∀ k, k % 16 ≠ rd % 16 → tGet (stage t q n) k = tGet (stage s q n) k ∧ StageOnly s t q n ∧ t = agreed (phCount s 3 1) q n h) ∧
  (∀ (s : State) (q n c : Nat) (res : ProofRes) (h : ProofHold), holdOf s q n = some h → h.checker = some c → h.differs = false → res.tiles = h.tiles → res.bytes = h.bytes → Answers (.proofVerdict q n res) s fun t => (stage t q n).hold = none ∧ t = agreed (phCount s 3 1) q n h) ∧
  (∀ (s : State) (q n c : Nat) (res : ProofRes) (h : ProofHold), holdOf s q n = some h → h.checker = some c → h.differs = false → res.tiles ≠ h.tiles ∨ res.bytes ≠ h.bytes → Answers (.proofVerdict q n res) s fun t => stage t q n = { stage s q n with hold := some { h with differs := true, chkTiles := res.tiles, chkBytes := res.bytes } } ∧ t = setStage (phCount s 3 1) q n (stage t q n)) ∧
  (∀ (s : State) (q n c : Nat) (res : ProofRes) (cond : ProofCond) (h : ProofHold), holdOf s q n = some h → h.checker = some c → h.differs = true → h.lace = none → h.row = none → h.rds = [] → res.tiles = h.tiles → res.bytes = h.bytes → res.bytes ≠ h.chkBytes → c ≠ (stage s q n).phys → (tget [] (health s (stage s q n).ty c).bins (4 * tempBin (die s (unitDie (stage s q n).ty c)).tj + loadClass s (stage s q n).ty c h.time cond)) = [] → Answers (.proofRepeatVerdict q n res cond) s fun t => stage t q n = { stage s q n with hold := none } ∧ (health t (stage s q n).ty c).escal = true ∧ (health t (stage s q n).ty c).lastMis = s.now ∧ (health t (stage s q n).ty (stage s q n).phys) = health s (stage s q n).ty (stage s q n).phys ∧ SeamOnly s t q ∧ t = repeatOver s q n h c true false false cond) ∧
  (∀ (s : State) (q n c : Nat) (res : ProofRes) (cond : ProofCond) (h : ProofHold) (asUnit asChk again : Bool), holdOf s q n = some h → h.checker = some c → h.differs = true → asUnit = decide (res.tiles = h.tiles ∧ res.bytes = h.bytes) → asChk = decide (res.tiles = h.chkTiles ∧ res.bytes = h.chkBytes) → again = ((asChk && mustRestart s (stage s q n).ty (stage s q n).phys cond h.time) || (!asChk && !asUnit)) → again = false ∨ seamBusy s q = false → Answers (.proofRepeatVerdict q n res cond) s fun t => t = repeatOver s q n h c asUnit asChk again cond) ∧
  (∀ (s : State) (q n c : Nat) (res : ProofRes) (cond : ProofCond) (h : ProofHold), holdOf s q n = some h → h.checker = some c → h.differs = true → res.tiles ≠ h.tiles ∨ res.bytes ≠ h.bytes → res.tiles ≠ h.chkTiles ∨ res.bytes ≠ h.chkBytes → seamBusy s q = true → exec (.proofRepeatVerdict q n res cond) s = .next (setSeam s q { seam s q with state := 5, wait := 0 })) ∧
  (∀ (s : State) (ty p : Nat), mainUp s = true → (health s ty p).escal = true → (health s ty p).lastMis + 86400000000000 ≤ s.now → exec (.escalationEnd ty p) s = .next (setHealth s ty p { health s ty p with escal := false })) ∧
  (∀ (s : State) (ty p bin : Nat), mainUp s = true → bin < 32 → Answers (.proofBinLapse ty p bin) s fun t => tget [] (health t ty p).bins bin = (tget [] (health s ty p).bins bin).filter (fun x => decide (s.now < x + 86400000000000)) ∧ { health t ty p with bins := (health s ty p).bins } = health s ty p ∧ ∀ k, k ≠ bin → tget [] (health t ty p).bins k = tget [] (health s ty p).bins k ∧ t = setHealth s ty p (health t ty p))

/-- Commits of multicast groups, meters, queues, gates, mirror sessions, ports and windows. A COMMIT of a switch-core or port object whose checks all pass completes with OK, leaves the object as its descriptor says, with its status word in s30, stamps it, and writes its state record; one that disables returns it to its reset values or clears ENABLED; an entry or list whose checks fail keeps its contents and records the reason. Nothing else changes. -/
def Obligations.SwitchObjectCommands : Prop :=
  (∀ (s : State) (cs : Nat) (d : List W64), Presents s cs 0xE8 d → df d 0 0 2 = 0 → enableOf d = true → Fresh s cs 0xE8 (stampKey okMcGroup (df d 0 16 14)) → groupReason s (ctl s cs) d = 0 → Answers (.commitMcgroupGroup cs) s fun t => Committed s t cs 0 (statusWord (accepted (group s (df d 0 16 14)).status)) ∧ group t (df d 0 16 14) = { group s (df d 0 16 14) with status := accepted (group s (df d 0 16 14)).status, owned := true, comp := df d 0 48 12, count := df d 2 0 7, senders := df d 2 8 2, sender := df d 2 32 16 } ∧ t = ctlComplete (grantCommit { s with sw := { s.sw with groups := tput {} s.sw.groups (df d 0 16 14) (tget {} t.sw.groups (df d 0 16 14)) } } cs 0xE8 ((stampKey okMcGroup (df d 0 16 14)))) cs 0 (some (statusWord (accepted (group s (df d 0 16 14)).status))) (some (stampKey okMcGroup (df d 0 16 14))) 64) ∧
  (∀ (s : State) (cs : Nat) (d : List W64), Presents s cs 0xE8 d → df d 0 0 2 = 0 → enableOf d = false → Fresh s cs 0xE8 (stampKey okMcGroup (df d 0 16 14)) → reaches (ctl s cs) (df d 0 48 12) = true → groupKept s (ctl s cs) (group s (df d 0 16 14)) = false → Answers (.commitMcgroupGroup cs) s fun t => t = ctlComplete (grantCommit (setGroup s (df d 0 16 14) { group s (df d 0 16 14) with status := { (group s (df d 0 16 14)).status with enabled := false, reason := 0 } }) cs 0xE8 ((stampKey okMcGroup (df d 0 16 14)))) cs 0 (some (statusWord (group t (df d 0 16 14)).status)) (some (stampKey okMcGroup (df d 0 16 14))) 64) ∧
  (∀ (s : State) (cs : Nat) (d : List W64), Presents s cs 0xE8 d → df d 0 0 2 = 1 → enableOf d = true → Fresh s cs 0xE8 (stampKey okMcGroup (df d 0 16 14 + 2 ^ 14 * (df d 0 32 7 + 1))) → memberReason s (ctl s cs) d = 0 → Answers (.commitMcgroupMember cs) s fun t => Completed s t cs 0 ∧ tget none (group t (df d 0 16 14)).members (df d 0 32 7) = some (df d 1 0 60) ∧ { group t (df d 0 16 14) with members := (group s (df d 0 16 14)).members } = { group s (df d 0 16 14) with status := { (group s (df d 0 16 14)).status with reason := 0 } } ∧ ∀ k, k ≠ df d 0 32 7 → tget none (group t (df d 0 16 14)).members k = tget none (group s (df d 0 16 14)).members k ∧ t = ctlComplete (grantCommit { s with sw := { s.sw with groups := tput {} s.sw.groups (df d 0 16 14) (tget {} t.sw.groups (df d 0 16 14)) } } cs 0xE8 ((stampKey okMcGroup (df d 0 16 14 + 2 ^ 14 * (df d 0 32 7 + 1))))) cs 0 (some (statusWord (group t (df d 0 16 14)).status)) (some (stampKey okMcGroup (df d 0 16 14 + 2 ^ 14 * (df d 0 32 7 + 1)))) 64) ∧
  (∀ (s : State) (cs : Nat) (d : List W64), Presents s cs 0xE8 d → df d 0 0 2 = 1 → enableOf d = false → Fresh s cs 0xE8 (stampKey okMcGroup (df d 0 16 14 + 2 ^ 14 * (df d 0 32 7 + 1))) → memberReason s (ctl s cs) d = 0 → Answers (.commitMcgroupMember cs) s fun t => t = ctlComplete (grantCommit (setGroup s (df d 0 16 14) { group s (df d 0 16 14) with status := { (group s (df d 0 16 14)).status with reason := 0 }, members := tput none (group s (df d 0 16 14)).members (df d 0 32 7) none }) cs 0xE8 ((stampKey okMcGroup (df d 0 16 14 + 2 ^ 14 * (df d 0 32 7 + 1))))) cs 0 (some (statusWord (group t (df d 0 16 14)).status)) (some (stampKey okMcGroup (df d 0 16 14 + 2 ^ 14 * (df d 0 32 7 + 1)))) 64) ∧
  (∀ (s : State) (cs : Nat) (d : List W64), Presents s cs 0xE8 d → df d 0 0 2 = 1 → Fresh s cs 0xE8 (stampKey okMcGroup (df d 0 16 14 + 2 ^ 14 * (df d 0 32 7 + 1))) → (ctl s cs).priv = 1 → (group s (df d 0 16 14)).status.enabled = true → Answers (.commitMcgroupMember cs) s fun t => Completed s t cs 1 ∧ group t (df d 0 16 14) = { group s (df d 0 16 14) with status := { (group s (df d 0 16 14)).status with reason := 1 } } ∧ t = ctlComplete (grantCommit { s with sw := { s.sw with groups := tput {} s.sw.groups (df d 0 16 14) (tget {} t.sw.groups (df d 0 16 14)) } } cs 0xE8 ((stampKey okMcGroup (df d 0 16 14 + 2 ^ 14 * (df d 0 32 7 + 1))))) cs 1 (some (statusWord (group t (df d 0 16 14)).status)) none 64) ∧
  (∀ (s : State) (cs : Nat) (d : List W64), Presents s cs 0xE9 d → enableOf d = true → Fresh s cs 0xE9 (stampKey okMeter (df d 0 0 14)) → meterReason s d = 0 → Answers (.commitMeter cs) s fun t => Committed s t cs 0 (statusWord (accepted (meter s (df d 0 0 14)).status)) ∧ meter t (df d 0 0 14) = { meter s (df d 0 0 14) with status := accepted (meter s (df d 0 0 14)).status, aware := bit (wd d 0) 15, port := df d 0 16 8, comp := df d 0 32 12, anyComp := bit (wd d 0) 44, tcMask := df d 0 48 8, red := df d 0 56 2, cir := df d 1 0 24, pir := df d 1 32 24, cbs := df d 2 0 24, pbs := df d 2 32 24, tc := df d 2 0 24 * 8000, tp := df d 2 32 24 * 8000, last := s.now } ∧ t = ctlComplete (grantCommit { s with sw := { s.sw with meters := tput {} s.sw.meters (df d 0 0 14) (tget {} t.sw.meters (df d 0 0 14)) } } cs 0xE9 ((stampKey okMeter (df d 0 0 14)))) cs 0 (some (statusWord (accepted (meter s (df d 0 0 14)).status))) (some (stampKey okMeter (df d 0 0 14))) 64) ∧
  (∀ (s : State) (cs : Nat) (d : List W64), Presents s cs 0xE9 d → enableOf d = false → Fresh s cs 0xE9 (stampKey okMeter (df d 0 0 14)) → Answers (.commitMeter cs) s fun t => t = ctlComplete (grantCommit (setMeter s (df d 0 0 14) { meter s (df d 0 0 14) with status := { (meter s (df d 0 0 14)).status with enabled := false, reason := 0 } }) cs 0xE9 ((stampKey okMeter (df d 0 0 14)))) cs 0 (some (statusWord (meter t (df d 0 0 14)).status)) (some (stampKey okMeter (df d 0 0 14))) 64) ∧
  (∀ (s : State) (cs : Nat) (d : List W64), Presents s cs 0xEA d → df d 0 0 2 = 0 → enableOf d = true → Fresh s cs 0xEA (stampKey okSched (df d 0 8 8 * 64 + df d 0 16 6)) → reservedSet d schedMasks = false → df d 0 8 8 ≤ 199 → 1 ≤ df d 1 0 13 → df d 1 0 13 ≤ 4096 → Answers (.commitSchedQueue cs) s fun t => Committed s t cs 0 (statusWord (accepted (queue s (df d 0 8 8) (df d 0 16 6)).status)) ∧ queue t (df d 0 8 8) (df d 0 16 6) = { queue s (df d 0 8 8) (df d 0 16 6) with status := accepted (queue s (df d 0 8 8) (df d 0 16 6)).status, weight := df d 1 0 13, alpha := df d 1 16 3 } ∧ t = ctlComplete (grantCommit { s with sw := { s.sw with queues := tput {} s.sw.queues (df d 0 8 8 * 64 + df d 0 16 6) (tget {} t.sw.queues (df d 0 8 8 * 64 + df d 0 16 6)) } } cs 0xEA ((stampKey okSched (df d 0 8 8 * 64 + df d 0 16 6)))) cs 0 (some (statusWord (accepted (queue s (df d 0 8 8) (df d 0 16 6)).status))) (some (stampKey okSched (df d 0 8 8 * 64 + df d 0 16 6))) 64) ∧
  (∀ (s : State) (cs : Nat) (d : List W64), Presents s cs 0xEA d → df d 0 0 2 = 0 → df d 0 8 8 ≤ 199 → enableOf d = false → Fresh s cs 0xEA (stampKey okSched (df d 0 8 8 * 64 + df d 0 16 6)) → Answers (.commitSchedQueue cs) s fun t => t = ctlComplete (grantCommit (setQueue s (df d 0 8 8) (df d 0 16 6) { (queue s (df d 0 8 8) (df d 0 16 6)) with status := { (queue s (df d 0 8 8) (df d 0 16 6)).status with enabled := true, reason := 0 }, disabled := false, weight := 256, alpha := 5 }) cs 0xEA ((stampKey okSched (df d 0 8 8 * 64 + df d 0 16 6)))) cs 0 (some (statusWord (queue t (df d 0 8 8) (df d 0 16 6)).status)) (some (stampKey okSched (df d 0 8 8 * 64 + df d 0 16 6))) 64) ∧
  (∀ (s : State) (cs : Nat) (d : List W64), Presents s cs 0xEA d → df d 0 0 2 = 0 → enableOf d = true → Fresh s cs 0xEA (stampKey okSched (df d 0 8 8 * 64 + df d 0 16 6)) → reservedSet d schedMasks = false → df d 0 8 8 ≤ 199 → df d 1 0 13 = 0 ∨ 4096 < df d 1 0 13 → Answers (.commitSchedQueue cs) s fun t => Completed s t cs 4 ∧ queue t (df d 0 8 8) (df d 0 16 6) = { (queue s (df d 0 8 8) (df d 0 16 6)) with status := refused (queue s (df d 0 8 8) (df d 0 16 6)).status 4 } ∧ t = ctlComplete (grantCommit { s with sw := { s.sw with queues := tput {} s.sw.queues (df d 0 8 8 * 64 + df d 0 16 6) (tget {} t.sw.queues (df d 0 8 8 * 64 + df d 0 16 6)) } } cs 0xEA ((stampKey okSched (df d 0 8 8 * 64 + df d 0 16 6)))) cs 4 (some (statusWord (queue t (df d 0 8 8) (df d 0 16 6)).status)) none 64) ∧
  (∀ (s : State) (cs : Nat) (d : List W64), Presents s cs 0xEA d → df d 0 0 2 = 1 → enableOf d = true → Fresh s cs 0xEA (stampKey okSched (2 ^ 20 + df d 0 8 8)) → reservedSet d schedMasks = false → df d 0 8 8 < 192 → 100 ≤ df d 2 0 32 → df d 2 0 32 ≤ 100000 → 1 ≤ df d 2 32 10 → df d 2 32 10 ≤ 1000 → 64 ≤ df d 2 48 16 → df d 2 48 16 ≤ 4096 → 262144 ≤ sharedWith s (df d 0 8 8) (df d 2 48 16) → Answers (.commitSchedPort cs) s fun t => Committed s t cs 0 (statusWord (accepted (swPort s (df d 0 8 8)).status)) ∧ swPort t (df d 0 8 8) = { swPort s (df d 0 8 8) with status := accepted (swPort s (df d 0 8 8)).status, ageLimit := df d 2 0 32, admWait := df d 2 32 10, reserve := df d 2 48 16 } ∧ t = ctlComplete (grantCommit ([0, 1, 2, 3, 5].foldl (fun s tc => regrant s (df d 0 8 8) tc) (setSwPort s (df d 0 8 8) { swPort s (df d 0 8 8) with status := accepted (swPort s (df d 0 8 8)).status, ageLimit := df d 2 0 32, admWait := df d 2 32 10, reserve := df d 2 48 16 })) cs 0xEA ((stampKey okSched (2 ^ 20 + df d 0 8 8)))) cs 0 (some (statusWord (accepted (swPort s (df d 0 8 8)).status))) (some (stampKey okSched (2 ^ 20 + df d 0 8 8))) 64) ∧
  (∀ (s : State) (cs : Nat) (d : List W64), Presents s cs 0xEA d → df d 0 0 2 = 1 → df d 0 8 8 ≤ 199 → enableOf d = false → Fresh s cs 0xEA (stampKey okSched (2 ^ 20 + df d 0 8 8)) → Answers (.commitSchedPort cs) s fun t => t = ctlComplete (grantCommit ([0, 1, 2, 3, 5].foldl (fun s tc => regrant s (df d 0 8 8) tc) (setSwPort s (df d 0 8 8) { swPort s (df d 0 8 8) with status := { (swPort s (df d 0 8 8)).status with enabled := false, reason := 0 }, ageLimit := 2000, admWait := 8, reserve := resetReserve s (df d 0 8 8) })) cs 0xEA ((stampKey okSched (2 ^ 20 + df d 0 8 8)))) cs 0 (some (statusWord (swPort t (df d 0 8 8)).status)) (some (stampKey okSched (2 ^ 20 + df d 0 8 8))) 64) ∧
  (∀ (s : State) (cs : Nat) (d : List W64), Presents s cs 0xEA d → df d 0 0 2 = 2 → enableOf d = true → Fresh s cs 0xEA (stampKey okSched (2 ^ 21 + df d 0 32 12)) → (comp s (df d 0 32 12)).state ≠ 0 → reservedSet d schedMasks = false → Answers (.commitSchedShare cs) s fun t => Committed s t cs 0 (statusWord (accepted (tget {} s.sw.shareSt (df d 0 32 12)))) ∧ tget 0 t.sw.share (df d 0 32 12) = df d 1 32 3 ∧ tget {} t.sw.shareSt (df d 0 32 12) = accepted (tget {} s.sw.shareSt (df d 0 32 12)) ∧ t = ctlComplete (grantCommit { s with sw := { s.sw with share := tput 0 s.sw.share (df d 0 32 12) (tget 0 t.sw.share (df d 0 32 12)), shareSt := tput {} s.sw.shareSt (df d 0 32 12) (tget {} t.sw.shareSt (df d 0 32 12)) } } cs 0xEA ((stampKey okSched (2 ^ 21 + df d 0 32 12)))) cs 0 (some (statusWord (accepted (tget {} s.sw.shareSt (df d 0 32 12))))) (some (stampKey okSched (2 ^ 21 + df d 0 32 12))) 64) ∧
  (∀ (s : State) (cs : Nat) (d : List W64), Presents s cs 0xEA d → df d 0 0 2 = 2 → enableOf d = false → Fresh s cs 0xEA (stampKey okSched (2 ^ 21 + df d 0 32 12)) → Answers (.commitSchedShare cs) s fun t => t = ctlComplete (grantCommit ({ s with sw := { s.sw with share := (tput 0 s.sw.share (df d 0 32 12) 0), shareSt := (tput {} s.sw.shareSt (df d 0 32 12) { tget {} s.sw.shareSt (df d 0 32 12) with enabled := false, reason := 0 }) } }) cs 0xEA ((stampKey okSched (2 ^ 21 + df d 0 32 12)))) cs 0 (some (statusWord (tget {} t.sw.shareSt (df d 0 32 12)))) (some (stampKey okSched (2 ^ 21 + df d 0 32 12))) 64) ∧
  (∀ (s : State) (cs : Nat) (d : List W64), Presents s cs 0xEB d → df d 0 0 2 = 0 → enableOf d = true → Fresh s cs 0xEB (gateKey d true) → reservedSet d gateMasks = false → df d 0 8 8 ≤ 191 → 64 ≤ df d 1 0 24 → df d 1 0 24 ≤ 16000000 → (swPort s (df d 0 8 8)).active ≠ gateSel d → Answers (.commitGateEntry cs) s fun t => Completed s t cs 0 ∧ tget {} (gateList (swPort t (df d 0 8 8)) (gateSel d)).ents (df d 0 24 8) = { dur := df d 1 0 24, open_ := wd d 2 } ∧ (swPort t (df d 0 8 8)).active = (swPort s (df d 0 8 8)).active ∧ t = ctlComplete (grantCommit (setSwPort s (df d 0 8 8) (setGateList (swPort s (df d 0 8 8)) (gateSel d) { (gateList (swPort s (df d 0 8 8)) (gateSel d)) with ents := tput {} (gateList (swPort s (df d 0 8 8)) (gateSel d)).ents (df d 0 24 8) { dur := df d 1 0 24, open_ := wd d 2 }, status := { (gateList (swPort s (df d 0 8 8)) (gateSel d)).status with reason := 0 } })) cs 0xEB ((gateKey d true))) cs 0 (some (statusWord (gateList (swPort t (df d 0 8 8)) (gateSel d)).status)) (some (gateKey d true)) 64) ∧
  (∀ (s : State) (cs : Nat) (d : List W64), Presents s cs 0xEB d → df d 0 0 2 = 1 → enableOf d = true → Fresh s cs 0xEB (gateKey d false) → listReason s d = 0 → Answers (.commitGateList cs) s fun t => Committed s t cs 0 (statusWord (accepted (gateList (swPort s (df d 0 8 8)) (gateSel d)).status)) ∧ (swPort t (df d 0 8 8)).next.map (fun n => (n.list, n.cycle, n.count, n.base)) = some (gateSel d, df d 1 0 24, df d 1 32 8, (wd d 2).toNat) ∧ (swPort t (df d 0 8 8)).active = (swPort s (df d 0 8 8)).active ∧ t = ctlComplete (grantCommit (setSwPort s (df d 0 8 8) (setGateList { swPort s (df d 0 8 8) with next := some { list := gateSel d, start := if cycleOff (df d 1 0 24) (wd d 2).toNat s.now = 0 then s.now else s.now + (df d 1 0 24 - cycleOff (df d 1 0 24) (wd d 2).toNat s.now), cycle := df d 1 0 24, count := df d 1 32 8, base := (wd d 2).toNat } } (gateSel d) { (gateList (swPort s (df d 0 8 8)) (gateSel d)) with status := accepted (gateList (swPort s (df d 0 8 8)) (gateSel d)).status })) cs 0xEB ((gateKey d false))) cs 0 (some (statusWord (accepted (gateList (swPort s (df d 0 8 8)) (gateSel d)).status))) (some (gateKey d false)) 64) ∧
  (∀ (s : State) (cs : Nat) (d : List W64), Presents s cs 0xEB d → df d 0 0 2 = 1 → df d 0 8 8 ≤ 191 → (swPort s (df d 0 8 8)).active = gateSel d → (swPort s (df d 0 8 8)).next = none → enableOf d = false → Fresh s cs 0xEB (gateKey d false) → Answers (.commitGateList cs) s fun t => t = ctlComplete (grantCommit (setSwPort s (df d 0 8 8) { setGateList (swPort s (df d 0 8 8)) (gateSel d) { (gateList (swPort s (df d 0 8 8)) (gateSel d)) with status := { (gateList (swPort s (df d 0 8 8)) (gateSel d)).status with enabled := false, reason := 0 } } with stop := some (s.now + ((gateList (swPort s (df d 0 8 8)) (gateSel d)).cycle - cycleOff (gateList (swPort s (df d 0 8 8)) (gateSel d)).cycle (gateList (swPort s (df d 0 8 8)) (gateSel d)).base s.now)) }) cs 0xEB ((gateKey d false))) cs 0 (some (statusWord (gateList (swPort t (df d 0 8 8)) (gateSel d)).status)) (some (gateKey d false)) 64) ∧
  (∀ (s : State) (cs : Nat) (d : List W64), Presents s cs 0xEC d → df d 0 0 2 = 0 → enableOf d = true → Fresh s cs 0xEC (stampKey okMirror (df d 0 4 4)) → partsDiffer s (df d 0 16 8) (df d 0 32 12) (bit (wd d 0) 10) = false → bit (wd d 0) 10 = true ∨ (comp s (df d 0 32 12)).state ≠ 0 → reservedSet d mirrorMasks = false → df d 0 16 8 < 200 ∨ df d 0 16 8 = 255 → Answers (.commitMirrorSession cs) s fun t => Committed s t cs 0 (statusWord (accepted (mirror s (df d 0 4 4)).status)) ∧ mirror t (df d 0 4 4) = { status := accepted (mirror s (df d 0 4 4)).status, dir := df d 0 8 1, payload := bit (wd d 0) 9, anyComp := bit (wd d 0) 10, port := df d 0 16 8, comp := df d 0 32 12, tcMask := df d 0 48 8, n := df d 1 0 20 + 1 } ∧ t = ctlComplete (grantCommit { s with sw := { s.sw with mirrors := tput {} s.sw.mirrors (df d 0 4 4) (tget {} t.sw.mirrors (df d 0 4 4)) } } cs 0xEC ((stampKey okMirror (df d 0 4 4)))) cs 0 (some (statusWord (accepted (mirror s (df d 0 4 4)).status))) (some (stampKey okMirror (df d 0 4 4))) 64) ∧
  (∀ (s : State) (cs : Nat) (d : List W64), Presents s cs 0xEC d → df d 0 0 2 = 0 → enableOf d = false → Fresh s cs 0xEC (stampKey okMirror (df d 0 4 4)) → Answers (.commitMirrorSession cs) s fun t => t = ctlComplete (grantCommit (setMirror s (df d 0 4 4) { mirror s (df d 0 4 4) with status := { (mirror s (df d 0 4 4)).status with enabled := false, reason := 0 } }) cs 0xEC ((stampKey okMirror (df d 0 4 4)))) cs 0 (some (statusWord (mirror t (df d 0 4 4)).status)) (some (stampKey okMirror (df d 0 4 4))) 64) ∧
  (∀ (s : State) (cs : Nat) (d : List W64), Presents s cs 0xEC d → df d 0 0 2 = 1 → enableOf d = true → Fresh s cs 0xEC (stampKey okMirror (16 + df d 0 16 8)) → reservedSet d mirrorMasks = false → df d 0 16 8 ≤ 199 → 64 ≤ df d 1 0 32 → df d 1 0 32 ≤ 1000000 → Answers (.commitMirrorSampler cs) s fun t => Committed s t cs 0 (statusWord (accepted (swPort s (df d 0 16 8)).smpSt)) ∧ swPort t (df d 0 16 8) = { swPort s (df d 0 16 8) with smpSt := accepted (swPort s (df d 0 16 8)).smpSt, smpOn := true, smpPeriod := df d 1 0 32, smpRecord := bit (wd d 1) 32, smpMask := wd d 2 } ∧ t = ctlComplete (grantCommit { s with sw := { s.sw with ports := tput {} s.sw.ports (df d 0 16 8) (tget {} t.sw.ports (df d 0 16 8)) } } cs 0xEC ((stampKey okMirror (16 + df d 0 16 8)))) cs 0 (some (statusWord (accepted (swPort s (df d 0 16 8)).smpSt))) (some (stampKey okMirror (16 + df d 0 16 8))) 64) ∧
  (∀ (s : State) (cs : Nat) (d : List W64), Presents s cs 0xEC d → df d 0 0 2 = 1 → df d 0 16 8 ≤ 199 → enableOf d = false → Fresh s cs 0xEC (stampKey okMirror (16 + df d 0 16 8)) → Answers (.commitMirrorSampler cs) s fun t => t = ctlComplete (grantCommit (setSwPort s (df d 0 16 8) { swPort s (df d 0 16 8) with smpSt := { (swPort s (df d 0 16 8)).smpSt with enabled := false, reason := 0 }, smpOn := false }) cs 0xEC ((stampKey okMirror (16 + df d 0 16 8)))) cs 0 (some (statusWord (swPort t (df d 0 16 8)).smpSt)) (some (stampKey okMirror (16 + df d 0 16 8))) 64) ∧
  (∀ (s : State) (cs : Nat) (d : List W64), Presents s cs 0xED d → df d 0 0 1 = 0 → enableOf d = true → Fresh s cs 0xED (stampKey okPort (df d 0 8 8)) → portReason s d = 0 → Answers (.commitPort cs) s fun t => t = ctlComplete (grantCommit (applyPort s (df d 0 8 8) d) cs 0xED ((stampKey okPort (df d 0 8 8)))) cs 0 (some (statusWord (port (applyPort s (df d 0 8 8) d) (df d 0 8 8)).status)) (some (stampKey okPort (df d 0 8 8))) 64) ∧
  (∀ (s : State) (cs : Nat) (d : List W64), Presents s cs 0xED d → df d 0 0 1 = 0 → enableOf d = true → Fresh s cs 0xED (stampKey okPort (df d 0 8 8)) → portReason s d = 0 → (port s (df d 0 8 8)).state = 0 → df d 0 19 3 = 0 → s.pc.tState = 1 → timeSource (setPort s (df d 0 8 8) { port s (df d 0 8 8) with timeRole := df d 0 22 2 }) = true → Answers (.commitPort cs) s fun t => Committed s t cs 0 (statusWord (accepted (port s (df d 0 8 8)).status)) ∧ port t (df d 0 8 8) = { port s (df d 0 8 8) with mode := df d 0 17 1, prot := decide (df d 0 18 1 = 1), test := 0, timeRole := df d 0 22 2, doze := df d 1 0 16, asym := df d 1 16 16, epBase := df d 1 32 16, epCount := df d 1 48 5, status := accepted (port s (df d 0 8 8)).status, state := 1, stateT := s.now } ∧ t = ctlComplete (grantCommit (applyPort s (df d 0 8 8) d) cs 0xED ((stampKey okPort (df d 0 8 8)))) cs 0 (some (statusWord (port t (df d 0 8 8)).status)) (some (stampKey okPort (df d 0 8 8))) 64) ∧
  (∀ (s : State) (cs : Nat) (d : List W64), Presents s cs 0xED d → df d 0 0 1 = 0 → enableOf d = false → Fresh s cs 0xED (stampKey okPort (df d 0 8 8)) → df d 0 8 8 ≤ 191 → portUp s (df d 0 8 8) = false → Answers (.commitPort cs) s fun t => Completed s t cs 0 ∧ (port t (df d 0 8 8)).state = 0 ∧ (port t (df d 0 8 8)).status.enabled = false ∧ t = ctlComplete (grantCommit (setPort (portGoesDown s (df d 0 8 8) 0) (df d 0 8 8) { port (portGoesDown s (df d 0 8 8) 0) (df d 0 8 8) with status := { (port (portGoesDown s (df d 0 8 8) 0) (df d 0 8 8)).status with enabled := false, reason := 0 } }) cs 0xED ((stampKey okPort (df d 0 8 8)))) cs 0 (some (statusWord (port t (df d 0 8 8)).status)) (some (stampKey okPort (df d 0 8 8))) 64) ∧
  (∀ (s : State) (cs : Nat) (d : List W64), Presents s cs 0xED d → df d 0 0 1 = 0 → enableOf d = false → Fresh s cs 0xED (stampKey okPort (df d 0 8 8)) → df d 0 8 8 ≤ 191 → Answers (.commitPort cs) s fun t => t = ctlComplete (grantCommit (setPort (portGoesDown s (df d 0 8 8) 0) (df d 0 8 8) { port (portGoesDown s (df d 0 8 8) 0) (df d 0 8 8) with status := { (port (portGoesDown s (df d 0 8 8) 0) (df d 0 8 8)).status with enabled := false, reason := 0 } }) cs 0xED ((stampKey okPort (df d 0 8 8)))) cs 0 (some (statusWord { (port (portGoesDown s (df d 0 8 8) 0) (df d 0 8 8)).status with enabled := false, reason := 0 })) (some (stampKey okPort (df d 0 8 8))) 64) ∧
  (∀ (s : State) (cs : Nat) (d : List W64), Presents s cs 0xED d → df d 0 0 1 = 1 → enableOf d = true → Fresh s cs 0xED (stampKey okPort (256 + df d 0 8 8)) → df d 0 8 8 < 48 → ((List.range 4).all fun i => !portNamed s (4 * df d 0 8 8 + i) || decide ((port s (4 * df d 0 8 8 + i)).state = 0)) = true → reservedSet d portMasks = false → (pair s (df d 0 8 8)).split = false → df d 0 16 1 = 1 → Answers (.commitPortPair cs) s fun t => Committed s t cs 0 1 ∧ pair t (df d 0 8 8) = { pair s (df d 0 8 8) with split := true, status := { enabled := true } } ∧ ((List.range 4).all (fun i => decide ((swPort t (4 * df d 0 8 8 + i)).reserve = 192)) = true) ∧ t = ctlComplete (grantCommit (((List.range 4).map (4 * df d 0 8 8 + ·)).foldl (fun s p => setSwPort s p { swPort s p with reserve := 192 }) (setPair s (df d 0 8 8) (pair t (df d 0 8 8)))) cs 0xED ((stampKey okPort (256 + df d 0 8 8)))) cs 0 (some 1) (some (stampKey okPort (256 + df d 0 8 8))) 64) ∧
  (∀ (s : State) (cs : Nat) (d : List W64), Presents s cs 0xEE d → enableOf d = true → Fresh s cs 0xEE (stampKey okWindow (df d 0 0 16)) → windowReason s d = 0 → Answers (.commitWindow cs) s fun t => Committed s t cs 0 (statusWord (accepted (window s (df d 0 0 8) (df d 0 8 8)).status)) ∧ window t (df d 0 0 8) (df d 0 8 8) = { status := accepted (window s (df d 0 0 8) (df d 0 8 8)).status, base := df d 0 16 40, log2 := df d 2 0 6, fa := df d 1 0 60, rights := df d 2 6 3, comp := df d 2 16 12, region := df d 2 32 16, srcId := df d 2 48 16, rkey := df d 3 32 32 } ∧ t = ctlComplete (grantCommit { s with pc := { s.pc with wins := tput {} s.pc.wins (df d 0 0 8 * 256 + df d 0 8 8) (tget {} t.pc.wins (df d 0 0 8 * 256 + df d 0 8 8)) } } cs 0xEE ((stampKey okWindow (df d 0 0 16)))) cs 0 (some (statusWord (accepted (window s (df d 0 0 8) (df d 0 8 8)).status))) (some (stampKey okWindow (df d 0 0 16))) 64) ∧
  (∀ (s : State) (cs : Nat) (d : List W64), Presents s cs 0xEE d → df d 0 0 8 ≤ 191 → enableOf d = false → Fresh s cs 0xEE (stampKey okWindow (df d 0 0 16)) → Answers (.commitWindow cs) s fun t => t = ctlComplete (grantCommit (setWindow s (df d 0 0 8) (df d 0 8 8) { window s (df d 0 0 8) (df d 0 8 8) with status := { (window s (df d 0 0 8) (df d 0 8 8)).status with enabled := false, reason := 0 } }) cs 0xEE ((stampKey okWindow (df d 0 0 16)))) cs 0 (some (statusWord (window t (df d 0 0 8) (df d 0 8 8)).status)) (some (stampKey okWindow (df d 0 0 16))) 64)

/-- Frames arrive, are admitted, leave and age; gates, samples, route holds and lost ports. A lossless frame that its port does not refuse lands in the port's reserve; a window miss is answered RIGHTS; a frame first in the reserve whose queue has room joins its egress queue and its cells return; one that waits past ADM_WAIT ends with RETRY_LATER; the queue of the lowest finish tag loses its head frame to the link; gates change only which queues are eligible; a sample counts each masked queue; drained routes release their held requests, a held request past its time ends with PATH_LOST, and a port that is lost leaves service. -/
def Obligations.FrameCommands : Prop :=
  (∀ (s : State) (p : Nat) (f : Frame), working s = true → portUp s p = true → s.cc.fenceAll = false → (port s p).mode = 0 → (port s p).profile = 0 → ingressRefusal s p f = 0 → meterFor s p f = none → lossless f.tc = true → s.sw.mirrors = [] → fifoFull (port s p) = false → Answers (.frameIngress f p) s fun t => (swPort t p).waiting = (swPort s p).waiting ++ [{ f := f, inPort := p, cells := frameCells f, since := s.now }] ∧ tget 0 (port t p).granted f.tc = tget 0 (port s p).granted f.tc - frameCells f ∧ (port t p).rxFrames = (port s p).rxFrames.erase f ∧ t = ingressSeen (judgeFrame (leaveFifo s p f) p f).1 p (judgeFrame (leaveFifo s p f) p f).2.1 f (judgeFrame (leaveFifo s p f) p f).2.2) ∧
  (∀ (s : State) (p : Nat) (f : Frame), working s = true → portUp s p = true → s.cc.fenceAll = false → (port s p).mode = 1 → f.op = 1 → f.dst / 2 ^ 40 = 0 → f.comp = 0 → f.region = 0 → f.rkey = 0 → f.stream = 0 → f.tag = 0 → f.issueT = 0 → windowAt s p f.dst = none → s.sw.mirrors = [] → f.rsw = 0 → Answers (.frameIngress f p) s fun t => t.te.out = s.te.out ++ [{ f := mkCpl f 3 [], via := some p }] ∧ tget 0 (port t p).ctr 7 = satInc (tget 0 (port s p).ctr 7) 1 ∧ t = ingressSeen (judgeFrame (leaveFifo s p f) p f).1 p (judgeFrame (leaveFifo s p f) p f).2.1 f (judgeFrame (leaveFifo s p f) p f).2.2) ∧
  (∀ (s : State) (p : Nat) (f : Frame), working s = true → portUp s p = true → s.cc.fenceAll = false → Answers (.frameIngress f p) s fun t => t = ingressSeen (judgeFrame (leaveFifo s p f) p f).1 p (judgeFrame (leaveFifo s p f) p f).2.1 f (judgeFrame (leaveFifo s p f) p f).2.2) ∧
  (∀ (s : State) (p : Nat) (f : Frame), working s = true → portUp s p = true → s.cc.fenceAll = true → Answers (.frameIngress f p) s fun t => t = ingressSeen (fenceFrame (leaveFifo s p f) p f) p f f true) ∧
  (∀ (s : State) (p i e q : Nat) (w : QFrame), working s = true → p < 192 → (swPort s p).waiting[i]? = some w → firstInReserve (swPort s p).waiting i w.f = true → w.f.op = 0x0F → egressPort (egressOf s { f := w.f }) = some e → queueOf s e w.f = q → alphaOk s e q (frameCells w.f) false = true → Answers (.frameAdmit p i) s fun t => (queue t e q).frames = (queue s e q).frames ++ [{ f := w.f, inPort := p, cells := frameCells w.f, since := w.since, ord := s.sw.nextOrd }] ∧ (swPort t p).waiting = (swPort s p).waiting.eraseIdx i ∧ t.sw.nextOrd = s.sw.nextOrd + 1 ∧ t = leaveReserve (enqueue (portOutDone s w.f) e w.f p w.since) p i) ∧
  (∀ (s : State) (p i : Nat) (w : QFrame) (u : State), working s = true → p < 192 → (swPort s p).waiting[i]? = some w → firstInReserve (swPort s p).waiting i w.f = true → admitFrame s p { f := w.f } w.since = some u → Answers (.frameAdmit p i) s fun t => t = leaveReserve u p i) ∧
  (∀ (s : State) (p i : Nat) (w : QFrame), working s = true → p < 192 → (swPort s p).waiting[i]? = some w → firstInReserve (swPort s p).waiting i w.f = false ∨ admitFrame s p { f := w.f } w.since = none → exec (.frameAdmit p i) s = .next (s)) ∧
  (∀ (s : State) (i e q : Nat) (o : OutFrame), working s = true → s.te.out[i]? = some o → (s.te.out.take i).any (fun x => decide (x.f.tc = o.f.tc)) = false → o.f.op = 0x0F → egressPort (egressOf { s with te := { s.te with out := s.te.out.eraseIdx i } } o) = some e → queueOf s e o.f = q → alphaOk s e q (frameCells o.f) false = true → s.sw.mirrors = [] → Answers (.frameAdmit 192 i) s fun t => (queue t e q).frames = (queue s e q).frames ++ [{ f := o.f, inPort := 192, cells := frameCells o.f, since := s.now, ord := s.sw.nextOrd }] ∧ t.te.out = s.te.out.eraseIdx i ∧ t.sw.nextOrd = s.sw.nextOrd + 1 ∧ t = ingressSeen (enqueue (portOutDone { s with te := { s.te with out := s.te.out.eraseIdx i } } o.f) e (if o.via.isSome then o.f else stampRoute s o.f) 192 s.now) 192 o.f o.f false) ∧
  (∀ (s : State) (p i : Nat) (o : OutFrame) (u : State), working s = true → 192 ≤ p → p < 200 → s.te.out[i]? = some o → (s.te.out.take i).any (fun x => decide (x.f.tc = o.f.tc)) = false → admitFrame { s with te := { s.te with out := s.te.out.eraseIdx i } } p { o with f := ownRsw s o.f } s.now = some u → Answers (.frameAdmit p i) s fun t => t = ingressSeen u p (ownRsw s o.f) (ownRsw s o.f) false) ∧
  (∀ (s : State) (p i : Nat) (w : QFrame), working s = true → p < 192 → (swPort s p).waiting[i]? = some w → requestOp w.f.op = true → w.since + (swPort s p).admWait * 1000 ≤ s.now → Answers (.admissionTimeout p i) s fun t => t.te.out = s.te.out ++ [{ f := { mkCpl w.f 1 [] with tag := if w.f.op = 0x03 then 0xFFFF else w.f.tag }, via := backBy s p }] ∧ (swPort t p).waiting = (swPort s p).waiting.eraseIdx i ∧ tget 0 (swPort t p).ctr 2 = satInc (tget 0 (swPort s p).ctr 2) 1 ∧ t = endRequest (swCount (leaveReserve s p i) p 2 1) w.f 1 (backBy s p)) ∧
  (∀ (s : State) (p q : Nat) (w : QFrame), working s = true → portNamed s p = true ∨ (192 ≤ p ∧ p < 200) → bestQueue (wakeAll s p) p (List.range 64) = some q → (queue (wakeAll s p) p q).frames.head? = some w → 192 ≤ p ∨ ((port s p).dozeTx = false ∧ replayRoom (port s p) (groupFlits (port s p) (frameLen w.f)) = true) → Answers (.egressSelect p) s fun t => t = depart (wakeAll s p) p q w) ∧
  (∀ (s : State) (p q : Nat) (w : QFrame), working s = true → portNamed s p = true ∨ (192 ≤ p ∧ p < 200) → bestQueue (wakeAll s p) p (List.range 64) = some q → (queue (wakeAll s p) p q).frames.head? = some w → 192 ≤ p ∨ ((port s p).dozeTx = false ∧ replayRoom (port s p) (groupFlits (port s p) (frameLen w.f)) = true) → s.sw.mirrors = [] → Answers (.egressSelect p) s fun t => (queue t p q).frames.map (·.f) = (queue (wakeAll s p) p q).frames.tail.map (·.f) ∧ (queue t p q).fTag = finishTag (queue (wakeAll s p) p q) ∧ t = depart (wakeAll s p) p q w) ∧
  (∀ (s : State) (p q : Nat) (w : QFrame), working s = true → portNamed s p = true → p < 192 → bestQueue (wakeAll s p) p (List.range 64) = some q → (queue (wakeAll s p) p q).frames.head? = some w → (port s p).dozeTx = true → Answers (.egressSelect p) s fun t => t = startWake (wakeAll s p) p) ∧
  (∀ (s : State) (p : Nat), working s = true → portNamed s p = true ∨ (192 ≤ p ∧ p < 200) → bestQueue (wakeAll s p) p (List.range 64) = none → exec (.egressSelect p) s = .next (wakeAll s p)) ∧
  (∀ (s : State) (p : Nat), working s = true → p < 192 → (swPort s p).active ≠ 0 → Answers (.gateEntryBoundary p) s fun t => ((listedQueues s p).all (fun q => decide ((queue t p q).awake = eligible t p q)) = true) ∧ ∀ p' q', (queue t p' q').frames.map (·.f) = (queue s p' q').frames.map (·.f) ∧ t = wakeAll s p) ∧
  (∀ (s : State) (p : Nat) (n : GateNext), working s = true → p < 192 → (swPort s p).next = some n → n.start ≤ s.now → n.list = 1 ∨ n.list = 2 → Answers (.gateCycleStart p) s fun t => (swPort t p).active = n.list ∧ (swPort t p).next = none ∧ (gateList (swPort t p) n.list).cycle = n.cycle ∧ (gateList (swPort t p) n.list).ents = (gateList (swPort s p) n.list).ents ∧ t = if (startGates (stopGates (swPort s p) s.now) s.now).active ≠ 0 then startWake (wakeAll (setSwPort s p (startGates (stopGates (swPort s p) s.now) s.now)) p) p else wakeAll (setSwPort s p (startGates (stopGates (swPort s p) s.now) s.now)) p) ∧
  (∀ (s : State) (p : Nat) (x : SwPort), working s = true → p < 192 → (startGates (stopGates (swPort s p) s.now) s.now) = x → x ≠ swPort s p → Answers (.gateCycleStart p) s fun t => t = if x.active ≠ 0 then startWake (wakeAll (setSwPort s p x) p) p else wakeAll (setSwPort s p x) p) ∧
  (∀ (s : State) (p : Nat), working s = true → (swPort s p).smpOn = true → s.now % (swPort s p).smpPeriod = 0 → (swPort s p).smpRecord = false → Answers (.queueSample p) s fun t => ∀ q : Fin 64, bit (swPort s p).smpMask q.val = true → tget 0 t.sw.hist ((p * 64 + q.val) * 16 + delayBucket (match (queue s p q.val).frames.head? with | none => 0 | some w => s.now - w.since)) = satInc (tget 0 s.sw.hist ((p * 64 + q.val) * 16 + delayBucket (match (queue s p q.val).frames.head? with | none => 0 | some w => s.now - w.since))) 1 ∧ t = (List.range 64).foldl (fun s q => if bit (swPort s p).smpMask q then sampleQueue s p q else s) s) ∧
  (∀ (s : State) (p : Nat), working s = true → (swPort s p).smpOn = true → s.now % (swPort s p).smpPeriod = 0 → Answers (.queueSample p) s fun t => t = (List.range 64).foldl (fun s q => if bit (swPort s p).smpMask q then sampleQueue s p q else s) s) ∧
  (∀ (s : State) (p q i : Nat) (w : QFrame), mainUp s = true → agingMode s p = true → q < 64 → ((queue s p q).frames.findIdx? fun w => decide (w.since + (swPort s p).ageLimit * 1000 < s.now)) = some i → (queue s p q).frames[i]? = some w → w.f.op = 0x01 → w.f.tc ≤ 5 → Answers (.frameAgeOut p q) s fun t => (queue t p q).frames.map (·.f) = ((queue s p q).frames.eraseIdx i).map (·.f) ∧ t.te.out = s.te.out ++ [{ f := { mkCpl w.f 6 [] with tag := w.f.tag } }] ∧ tget 0 (swPort t p).ctr 4 = satInc (tget 0 (swPort s p).ctr 4) 1 ∧ t = flushOne (wakeAll (swCount (setQueue s p q { queue s p q with frames := (queue s p q).frames.eraseIdx i }) p 4 1) p) w.f) ∧
  (∀ (s : State) (p q i : Nat) (w : QFrame), mainUp s = true → agingMode s p = true → q < 64 → ((queue s p q).frames.findIdx? fun w => decide (w.since + (swPort s p).ageLimit * 1000 < s.now)) = some i → (queue s p q).frames[i]? = some w → Answers (.frameAgeOut p q) s fun t => t = flushOne (wakeAll (swCount (setQueue s p q { queue s p q with frames := (queue s p q).frames.eraseIdx i }) p 4 1) p) w.f) ∧
  (∀ (s : State) (p : Nat), mainUp s = true → portNamed s p = true → portUp s p = false → agingMode s p = false → Answers (.agingToService p) s fun t => ∀ q : Fin 64, (queue t p q.val).frames = [] ∧ ∀ p' q, p' ≠ p → q < 64 → queue t p' q = queue s p' q ∧ t = flushPort s p) ∧
  (∀ (s : State) (sw : Nat), working s = true → (route s sw).draining = [] → Answers (.routeDrainAck sw) s fun t => t.te.holds = s.te.holds.filter (fun o => decide (faSwitch o.frame.dst ≠ sw)) ∧ t.te.out = (s.te.holds.filter (fun o => decide (faSwitch o.frame.dst = sw))).map (fun o => { f := o.frame }) ++ s.te.out ∧ t = { s with te := { s.te with holds := t.te.holds, out := t.te.out, outst := (s.te.outst.map fun o => if (s.te.holds.filter fun o => decide (faSwitch o.frame.dst = sw)).any (fun x => decide (x.frame.stream = o.frame.stream) && decide (x.frame.tag = o.frame.tag) && decide (x.frame.src = o.frame.src)) then { o with held := false } else o) } }) ∧
  (∀ (s : State) (i : Nat) (h : OutReq), working s = true → s.te.holds[i]? = some h → h.issued + ctoNs s h.frame.comp ≤ s.now → outEnds { s with te := { s.te with holds := s.te.holds.eraseIdx i } } h.frame = none → h.frame.op = 0x01 → Answers (.routeHoldTimeout i) s fun t => t.te.holds = s.te.holds.eraseIdx i ∧ t.te.out = s.te.out ++ [{ f := { mkCpl h.frame 6 [] with tag := h.frame.tag } }] ∧ t = endRequest { s with te := { s.te with holds := s.te.holds.eraseIdx i } } h.frame 6 none) ∧
  (∀ (s : State) (i : Nat) (h o : OutReq), working s = true → s.te.holds[i]? = some h → h.issued + ctoNs s h.frame.comp ≤ s.now → outEnds { s with te := { s.te with holds := s.te.holds.eraseIdx i } } h.frame = some o → Answers (.routeHoldTimeout i) s fun t => t = reqDone (outDrop { s with te := { s.te with holds := s.te.holds.eraseIdx i } } o) o 6 false false []) ∧
  (∀ (s : State) (i : Nat) (h : OutReq), working s = true → s.te.holds[i]? = some h → h.issued + ctoNs s h.frame.comp ≤ s.now → outEnds { s with te := { s.te with holds := s.te.holds.eraseIdx i } } h.frame = none → Answers (.routeHoldTimeout i) s fun t => t = endRequest { s with te := { s.te with holds := s.te.holds.eraseIdx i } } h.frame 6 none) ∧
  (∀ (s : State) (p : Nat), mainUp s = true → portUp s p = true → peersAt s p true = [] → s.sw.routes = [] → (pair s (p / 4)).swap = 0 → Answers (.portDown p) s fun t => (port t p).state = 1 ∧ (port t p).stateT = s.now ∧ (port t p).replay = [] ∧ (port t p).mode = (port s p).mode ∧ (sess t (16 + p)).opened = false ∧ ∀ k, k ≠ p → port t k = port s k ∧ t = portGoesDown s p 1) ∧
  (∀ (s : State) (p : Nat), mainUp s = true → portUp s p = true → Answers (.portDown p) s fun t => t = portGoesDown s p 1)

/-- Flits, credits, doze, keys and time on a link. A flit whose CRC fails sets NAK and nothing is taken from it; one that verifies acknowledges flits, and a PAYLOAD flit in order advances the expected SEQ. CREDIT adds the cells returned; DOZE and WAKE set the directions' widths; KEY_SWITCH, LINK_KEY and the rekey timer change the key slots they name; MAC frames release or discard their group; time frames answer, adjust or lose the upstream. Everything outside the port and the link time is unchanged. -/
def Obligations.LinkFrameCommands : Prop :=
  (∀ (s : State) (p : Nat) (b : Bytes), mainUp s = true → portNamed s p = true → 3 ≤ (port s p).state → (port s p).state ≤ 5 → b.length = 256 → leAt (fecDecode b).1 242 8 ≠ (crc64 ((fecDecode b).1.take 242)).toNat → Answers (.flitReceive p b) s fun t => (port t p).nak = true ∧ (port t p).rxSeq = (port s p).rxSeq ∧ (port t p).replay = (port s p).replay ∧ tget 0 (port t p).ctr 1 = satInc (tget 0 (port s p).ctr 1) 1 ∧ t = setPort (pcCount (if (fecDecode b).2 then pcCount s p 0 1 else s) p 1 1) p (wireNop { port (pcCount (if (fecDecode b).2 then pcCount s p 0 1 else s) p 1 1) p with nak := true })) ∧
  (∀ (s : State) (p : Nat) (b : Bytes), mainUp s = true → portNamed s p = true → 3 ≤ (port s p).state → (port s p).state ≤ 5 → b.length = 256 → leAt (fecDecode b).1 242 8 = (crc64 ((fecDecode b).1.take 242)).toNat → fldN (leAt (fecDecode b).1 236 6) 24 1 = 0 → fldN (leAt (fecDecode b).1 236 6) 0 4 ≠ 1 → Answers (.flitReceive p b) s fun t => (port t p).rxSeq = (port s p).rxSeq ∧ t = (ackNak (if (fecDecode b).2 then pcCount s p 0 1 else s) p (fldN (leAt (fecDecode b).1 236 6) 14 10) (decide (fldN (leAt (fecDecode b).1 236 6) 24 1 = 1)))) ∧
  (∀ (s : State) (p : Nat) (b : Bytes), mainUp s = true → portNamed s p = true → 3 ≤ (port s p).state → (port s p).state ≤ 5 → b.length = 256 → leAt (fecDecode b).1 242 8 = (crc64 ((fecDecode b).1.take 242)).toNat → fldN (leAt (fecDecode b).1 236 6) 24 1 = 0 → fldN (leAt (fecDecode b).1 236 6) 0 4 = 1 → fldN (leAt (fecDecode b).1 236 6) 25 1 = 0 → fldN (leAt (fecDecode b).1 236 6) 4 10 = (port s p).rxSeq → Answers (.flitReceive p b) s fun t => (port t p).rxSeq = ((port s p).rxSeq + 1) % 1024 ∧ (port t p).nak = false ∧ t = setPort (payload (ackNak (if (fecDecode b).2 then pcCount s p 0 1 else s) p (fldN (leAt (fecDecode b).1 236 6) 14 10) (decide (fldN (leAt (fecDecode b).1 236 6) 24 1 = 1))) p (fldN (leAt (fecDecode b).1 236 6) 4 10) (leAt (fecDecode b).1 236 6) ((fecDecode b).1.take 236)) p (wireNop (port (payload (ackNak (if (fecDecode b).2 then pcCount s p 0 1 else s) p (fldN (leAt (fecDecode b).1 236 6) 14 10) (decide (fldN (leAt (fecDecode b).1 236 6) 24 1 = 1))) p (fldN (leAt (fecDecode b).1 236 6) 4 10) (leAt (fecDecode b).1 236 6) ((fecDecode b).1.take 236)) p))) ∧
  (∀ (s : State) (p : Nat) (b : Bytes), mainUp s = true → portNamed s p = true → 3 ≤ (port s p).state → (port s p).state ≤ 5 → b.length = 256 → leAt (fecDecode b).1 242 8 = (crc64 ((fecDecode b).1.take 242)).toNat → fldN (leAt (fecDecode b).1 236 6) 0 4 ≠ 1 → Answers (.flitReceive p b) s fun t => t = ackNak (if (fecDecode b).2 then pcCount s p 0 1 else s) p (fldN (leAt (fecDecode b).1 236 6) 14 10) (decide (fldN (leAt (fecDecode b).1 236 6) 24 1 = 1))) ∧
  (∀ (s : State) (p : Nat) (b : Bytes), mainUp s = true → portNamed s p = true → 3 ≤ (port s p).state → (port s p).state ≤ 5 → b.length = 256 → leAt (fecDecode b).1 242 8 = (crc64 ((fecDecode b).1.take 242)).toNat → fldN (leAt (fecDecode b).1 236 6) 0 4 = 1 → Answers (.flitReceive p b) s fun t => t = setPort (if (fldN (leAt (fecDecode b).1 236 6) 4 10) = (port (ackNak (if (fecDecode b).2 then pcCount s p 0 1 else s) p (fldN (leAt (fecDecode b).1 236 6) 14 10) (decide (fldN (leAt (fecDecode b).1 236 6) 24 1 = 1))) p).rxSeq then (payload (ackNak (if (fecDecode b).2 then pcCount s p 0 1 else s) p (fldN (leAt (fecDecode b).1 236 6) 14 10) (decide (fldN (leAt (fecDecode b).1 236 6) 24 1 = 1))) p (fldN (leAt (fecDecode b).1 236 6) 4 10) (leAt (fecDecode b).1 236 6) ((fecDecode b).1.take 236)) else (ackNak (if (fecDecode b).2 then pcCount s p 0 1 else s) p (fldN (leAt (fecDecode b).1 236 6) 14 10) (decide (fldN (leAt (fecDecode b).1 236 6) 24 1 = 1)))) p (wireNop (port (if (fldN (leAt (fecDecode b).1 236 6) 4 10) = (port (ackNak (if (fecDecode b).2 then pcCount s p 0 1 else s) p (fldN (leAt (fecDecode b).1 236 6) 14 10) (decide (fldN (leAt (fecDecode b).1 236 6) 24 1 = 1))) p).rxSeq then (payload (ackNak (if (fecDecode b).2 then pcCount s p 0 1 else s) p (fldN (leAt (fecDecode b).1 236 6) 14 10) (decide (fldN (leAt (fecDecode b).1 236 6) 24 1 = 1))) p (fldN (leAt (fecDecode b).1 236 6) 4 10) (leAt (fecDecode b).1 236 6) ((fecDecode b).1.take 236)) else (ackNak (if (fecDecode b).2 then pcCount s p 0 1 else s) p (fldN (leAt (fecDecode b).1 236 6) 14 10) (decide (fldN (leAt (fecDecode b).1 236 6) 24 1 = 1)))) p))) ∧
  (∀ (s : State) (p tc : Nat) (f : LinkFrame), mainUp s = true → portNamed s p = true → 3 ≤ (port s p).state → (port s p).state ≤ 5 → f.op = 0x20 → lfAt f 2 1 = tc → lossless tc = true → Answers (.creditFrame p f) s fun t => tget 0 (port t p).credit tc = tget 0 (port s p).credit tc + (lfAt f 4 4 + 2 ^ 32 - tget 0 (port s p).seenRet tc) % 2 ^ 32 ∧ tget 0 (port t p).seenRet tc = lfAt f 4 4 ∧ t = wakeAll (setPort (takeLink s p f) p { port (takeLink s p f) p with credit := tmod 0 (port (takeLink s p f) p).credit tc (· + (lfAt f 4 4 + 2 ^ 32 - tget 0 (port (takeLink s p f) p).seenRet tc) % 2 ^ 32), seenRet := tput 0 (port (takeLink s p f) p).seenRet tc (lfAt f 4 4) }) p) ∧
  (∀ (s : State) (p : Nat) (f : LinkFrame), mainUp s = true → portNamed s p = true → 3 ≤ (port s p).state → (port s p).state ≤ 5 → f.op = 0x20 → lossless (lfAt f 2 1) = false → exec (.creditFrame p f) s = .next (takeLink s p f)) ∧
  (∀ (s : State) (p : Nat), working s = true → portNamed s p = true → (port s p).state = 4 → (port s p).dozeTx = false → (port s p).doze ≠ 0 → (swPort s p).active = 0 → (port s p).lastTx + (port s p).doze * 1000 ≤ s.now → ((List.range 64).all fun q => (queue s p q).frames.isEmpty) = true → Answers (.dozeIdleTimeout p) s fun t => (port t p).dozeTx = true ∧ (port t p).state = 4 ∧ t = dozeLanes (setPort (sendLink s p { op := 0x23, body := linkBody 1 [] }) p { port (sendLink s p { op := 0x23, body := linkBody 1 [] }) p with dozeTx := true }) p true) ∧
  (∀ (s : State) (p : Nat) (f : LinkFrame), mainUp s = true → portNamed s p = true → 3 ≤ (port s p).state → (port s p).state ≤ 5 → f.op = 0x23 → exec (.dozeFrame p f) s = .next (setPort (takeLink s p f) p { port (takeLink s p f) p with dozeRx := true })) ∧
  (∀ (s : State) (p : Nat) (f : LinkFrame), mainUp s = true → portNamed s p = true → 3 ≤ (port s p).state → (port s p).state ≤ 5 → f.op = 0x24 → exec (.wakeFrame p f) s = .next (setPort (takeLink s p f) p { port (takeLink s p f) p with dozeRx := false })) ∧
  (∀ (s : State) (p u : Nat), mainUp s = true → (port s p).wakeAt = some u → u ≤ s.now → Answers (.wakeDelayEnd p) s fun t => ((t.pc.lanes.all fun l => decide (l.2.port ≠ p) || decide (l.2.logical = 0) || decide (l.2.state ≠ 5)) = true) ∧ (port t p).dozeTx = false ∧ (port t p).wakeAt = none ∧ t = pumpPort (wakePort s p) p) ∧
  (∀ (s : State) (p k : Nat) (f : LinkFrame), mainUp s = true → portNamed s p = true → (port s p).state ≤ 5 → f.op = 0x25 → lfAt f 2 1 = k → k < 2 → (sess s (16 + p)).secured = true → ((port s p).rxKey.any fun y => decide (y.1 = k)) = true → 3 ≤ (port s p).state → exec (.keySwitchFrame p f) s = .next (tryActive (setPort (takeLink s p f) p { port (takeLink s p f) p with rxKeySel := k, rxGroup := lfAt f 8 8, rxReady := true }) p)) ∧
  (∀ (s : State) (p : Nat) (f : LinkFrame), mainUp s = true → portNamed s p = true → 3 ≤ (port s p).state → (port s p).state ≤ 5 → f.op = 0x25 → ((sess s (16 + p)).secured && decide (lfAt f 2 1 < 2) && ((port s p).rxKey.any fun y => decide (y.1 = lfAt f 2 1))) = false → exec (.keySwitchFrame p f) s = .next (takeLink s p f)) ∧
  (∀ (s : State) (p : Nat) (f : LinkFrame) (h : RxFlit) (l : List RxFlit), mainUp s = true → portNamed s p = true → 3 ≤ (port s p).state → (port s p).state ≤ 5 → f.op = 0x26 → (port s p).rxSealed = h :: l → (port s p).macFails < 2 → ((openGroup (tget (0, 0) (port s p).rxKey (fldN h.hdr 26 1)).1 (tget (0, 0) (port s p).rxKey (fldN h.hdr 26 1)).2 (port s p).rxGroup (h :: l)).2 && decide (lfAt f 8 8 = (port s p).rxGroup)) = false → Answers (.macFrame p f) s fun t => (port t p).rxSealed = [] ∧ (port t p).rxSeq = h.seq ∧ (port t p).nak = true ∧ (port t p).macFails = (port s p).macFails + 1 ∧ t = setPort (takeLink s p f) p (wireNop { port (takeLink s p f) p with rxSealed := [], rxSeq := h.seq, nak := true, macFails := (port (takeLink s p f) p).macFails + 1 })) ∧
  (∀ (s : State) (p : Nat) (f : LinkFrame) (h : RxFlit) (l : List RxFlit), mainUp s = true → portNamed s p = true → 3 ≤ (port s p).state → (port s p).state ≤ 5 → f.op = 0x26 → (port s p).rxSealed = h :: l → ((openGroup (tget (0, 0) (port s p).rxKey (fldN h.hdr 26 1)).1 (tget (0, 0) (port s p).rxKey (fldN h.hdr 26 1)).2 (port s p).rxGroup (h :: l)).2 && decide (lfAt f 8 8 = (port s p).rxGroup)) = false → 2 ≤ (port s p).macFails → Answers (.macFrame p f) s fun t => t = raiseEvent (pcCount (portGoesDown (takeLink s p f) p 1) p 4 1) 0) ∧
  (∀ (s : State) (p : Nat) (f : LinkFrame), mainUp s = true → portNamed s p = true → 3 ≤ (port s p).state → (port s p).state ≤ 5 → f.op = 0x26 → (port s p).rxSealed = [] → exec (.macFrame p f) s = .next (takeLink s p f)) ∧
  (∀ (s : State) (p : Nat) (f : LinkFrame) (h : RxFlit) (l : List RxFlit), mainUp s = true → portNamed s p = true → 3 ≤ (port s p).state → (port s p).state ≤ 5 → f.op = 0x26 → (port s p).rxSealed = h :: l → lfAt f 8 8 = (port s p).rxGroup → (openGroup (tget (0, 0) (port s p).rxKey (fldN h.hdr 26 1)).1 (tget (0, 0) (port s p).rxKey (fldN h.hdr 26 1)).2 (port s p).rxGroup (h :: l)).2 = true → Answers (.macFrame p f) s fun t => t = (openGroup (tget (0, 0) (port s p).rxKey (fldN h.hdr 26 1)).1 (tget (0, 0) (port s p).rxKey (fldN h.hdr 26 1)).2 (port s p).rxGroup (h :: l)).1.foldl (fun s a => takeArea s p a) (setPort (takeLink s p f) p { port (takeLink s p f) p with rxSealed := [], rxGroup := (port (takeLink s p f) p).rxGroup + 1, macFails := 0 })) ∧
  (∀ (s : State) (p slot : Nat) (b : Bytes), mainUp s = true → portNamed s p = true → 3 ≤ (port s p).state → (port s p).state ≤ 5 → (sess s (16 + p)).secured = true → b.length = 21 → leAt b 0 1 = slot → slot < 2 → (port s p).rxReady = false ∨ slot ≠ (port s p).rxKeySel → Answers (.linkKey p b) s fun t => tget (0, 0) (port t p).rxKey slot = (ofBE ((b.drop 1).take 16), leAt b 17 4) ∧ (port t p).rxKeySel = (port s p).rxKeySel ∧ t = sendKeymsg (setPort s p { port s p with rxKey := tput (0, 0) (port s p).rxKey slot (ofBE ((b.drop 1).take 16), leAt b 17 4) }) p (spdmMsg 0x7E 0)) ∧
  (∀ (s : State) (p : Nat) (b : Bytes), mainUp s = true → portNamed s p = true → 3 ≤ (port s p).state → (port s p).state ≤ 5 → (sess s (16 + p)).secured = true → b.length ≠ 21 ∨ 1 < leAt b 0 1 ∨ ((port s p).rxReady = true ∧ leAt b 0 1 = (port s p).rxKeySel) → exec (.linkKey p b) s = .next (sendKeymsg s p (spdmMsg 0x7F 0x01))) ∧
  (∀ (s : State) (p : Nat), mainUp s = true → portUp s p = true → (port s p).protActive = true → (port s p).keyOut = none → (sess s (16 + p)).secured = true → (decide ((port s p).lastRekey + 600000000000 ≤ s.now) || decide (2 ^ 32 - 2 ^ 16 ≤ (port s p).txGroup)) = true → Answers (.rekeyTimer p) s fun t => (port t p).keyOut = some (1 - (port s p).keySel) ∧ (port t p).keySel = (port s p).keySel ∧ (port t p).lastRekey = s.now ∧ t.freeCtr = s.freeCtr + 2 ∧ t = offerKey s p) ∧
  (∀ (s : State) (p : Nat) (f : LinkFrame), mainUp s = true → portNamed s p = true → 3 ≤ (port s p).state → (port s p).state ≤ 5 → f.op = 0x29 → s.cc.stage = 6 → leAt f.body 0 1 = 0x12 → leAt f.body 1 1 = 0xE1 → (sess s (16 + p)).phase = 1 → linkUnits f ≠ 14 → (port s p).keyPart = [] → Answers (.keymsgFrame p f) s fun t => sess t (16 + p) = { sess s (16 + p) with opened := true, phase := 2, missed := 0, lastBeat := s.now } ∧ t = sendKeymsg (setSess (setPort (takeLink s p f) p { port (takeLink s p f) p with keyPart := [] }) (16 + p) { sess (setPort (takeLink s p f) p { port (takeLink s p f) p with keyPart := [] }) (16 + p) with opened := true, phase := 2, missed := 0, lastBeat := s.now }) p (spdmMsg 0x61 0)) ∧
  (∀ (s : State) (p : Nat) (f : LinkFrame), mainUp s = true → portNamed s p = true → 3 ≤ (port s p).state → (port s p).state ≤ 5 → f.op = 0x29 → leAt f.body 1 1 = 0x61 → (sess s (16 + p)).phase = 1 → linkUnits f ≠ 14 → (port s p).keyPart = [] → Answers (.keymsgFrame p f) s fun t => sess t (16 + p) = { sess s (16 + p) with opened := true, phase := 2, lastBeat := s.now } ∧ t = sendKeymsg (setSess (setPort (takeLink s p f) p { port (takeLink s p f) p with keyPart := [] }) (16 + p) { sess (setPort (takeLink s p f) p { port (takeLink s p f) p with keyPart := [] }) (16 + p) with opened := true, phase := 2, lastBeat := s.now }) p (spdmMsg 0xE3 0)) ∧
  (∀ (s : State) (p : Nat) (f : LinkFrame), mainUp s = true → portNamed s p = true → 3 ≤ (port s p).state → (port s p).state ≤ 5 → f.op = 0x29 → linkUnits f = 14 → exec (.keymsgFrame p f) s = .next (setPort (takeLink s p f) p { port (takeLink s p f) p with keyPart := (port (takeLink s p f) p).keyPart ++ f.body })) ∧
  (∀ (s : State) (p : Nat) (f : LinkFrame), mainUp s = true → portNamed s p = true → 3 ≤ (port s p).state → (port s p).state ≤ 5 → f.op = 0x29 → linkUnits f ≠ 14 → Answers (.keymsgFrame p f) s fun t => t = linkMessage (setPort (takeLink s p f) p { port (takeLink s p f) p with keyPart := [] }) p ((port (takeLink s p f) p).keyPart ++ f.body)) ∧
  (∀ (s : State), mainUp s = true → s.pc.lastSync + 125000 ≤ s.now → syncPorts s ≠ [] → Answers (.timeSyncPeriod) s fun t => t.pc.exch = s.pc.exch + 1 ∧ t.pc.lastSync = s.now ∧ t = (syncPorts { s with pc := { s.pc with exch := s.pc.exch + 1, lastSync := s.now } }).foldl (fun u p => sendLink u p { op := 0x21, body := linkBody 2 [(16, 8, s.pc.exch)] }) { s with pc := { s.pc with exch := s.pc.exch + 1, lastSync := s.now } }) ∧
  (∀ (s : State) (p : Nat) (f : LinkFrame), mainUp s = true → portNamed s p = true → 3 ≤ (port s p).state → (port s p).state ≤ 5 → f.op = 0x21 → (port s p).timeRole = 1 → exec (.timeSyncFrame p f) s = .next (sendLink (takeLink s p f) p { op := 0x22, body := linkBody 2 [(8, 8, s.now), (24, 8, lfAt f 16 8)] })) ∧
  (∀ (s : State) (p : Nat) (f : LinkFrame), mainUp s = true → portNamed s p = true → 3 ≤ (port s p).state → (port s p).state ≤ 5 → f.op = 0x21 → (port s p).timeRole ≠ 1 → exec (.timeSyncFrame p f) s = .next (takeLink s p f)) ∧
  (∀ (s : State) (p n t1 : Nat) (f : LinkFrame) (o : Int), mainUp s = true → portNamed s p = true → (port s p).state ≤ 5 → f.op = 0x22 → (port s p).timeX = some (n, t1) → lfAt f 24 8 = n → 2 ≤ (port s p).timeRole → followed s = p → exchOffset (port s p) t1 (lfAt f 8 8) (lfAt f 16 8) s.now = o → s.pc.haveEst = false → s.pc.timeSet = true → 3 ≤ (port s p).state → Answers (.timeReplyFrame p f) s fun t => t.pc.upstream = p ∧ t.pc.tState = 2 ∧ t.pc.lastAcc = s.now ∧ t.pc.estimate = o ∧ t.pc.slew = o / 20 ∧ t = tryActive { (setPort (takeLink s p f) p { port (takeLink s p f) p with timeX := none }) with pc := { (setPort (takeLink s p f) p { port (takeLink s p f) p with timeX := none }).pc with upstream := p, tState := 2, lastAcc := s.now, estimate := o, haveEst := true, slew := o / 20 } } p) ∧
  (∀ (s : State) (p n t1 : Nat) (f : LinkFrame) (o : Int), mainUp s = true → portNamed s p = true → 3 ≤ (port s p).state → (port s p).state ≤ 5 → f.op = 0x22 → (port s p).timeX = some (n, t1) → lfAt f 24 8 = n → 2 ≤ (port s p).timeRole → followed s = p → exchOffset (port s p) t1 (lfAt f 8 8) (lfAt f 16 8) s.now = o → s.pc.haveEst = true → (o - s.pc.estimate).natAbs ≤ 2000 → s.pc.timeSet = true → Answers (.timeReplyFrame p f) s fun t => t = tryActive { (setPort (takeLink s p f) p { port (takeLink s p f) p with timeX := none }) with pc := { (setPort (takeLink s p f) p { port (takeLink s p f) p with timeX := none }).pc with upstream := p, tState := 2, lastAcc := s.now, estimate := Config.timeFilter s.pc.estimate o, haveEst := true, slew := Config.timeFilter s.pc.estimate o / 20 } } p) ∧
  (∀ (s : State) (p n t1 u : Nat) (f : LinkFrame), mainUp s = true → portNamed s p = true → 3 ≤ (port s p).state → (port s p).state ≤ 5 → f.op = 0x22 → (port s p).timeX = some (n, t1) → lfAt f 24 8 = n → 2 ≤ (port s p).timeRole → followed s = p → s.pc.haveEst = false → s.pc.timeSet = false → ((s.now : Int) + exchOffset (port s p) t1 (lfAt f 8 8) (lfAt f 16 8) s.now / 20).toNat = u → Answers (.timeReplyFrame p f) s fun t => t = setTime { (setPort (takeLink s p f) p { port (takeLink s p f) p with timeX := none }) with pc := { (setPort (takeLink s p f) p { port (takeLink s p f) p with timeX := none }).pc with upstream := p, tState := 2, lastAcc := u, estimate := 0, haveEst := true, lastSync := u } } u) ∧
  (∀ (s : State) (p n t1 : Nat) (f : LinkFrame), mainUp s = true → portNamed s p = true → 3 ≤ (port s p).state → (port s p).state ≤ 5 → f.op = 0x22 → (port s p).timeX = some (n, t1) → lfAt f 24 8 ≠ n ∨ (port s p).timeRole < 2 ∨ followed s ≠ p → exec (.timeReplyFrame p f) s = .next (takeLink s p f)) ∧
  (∀ (s : State) (p : Nat) (f : LinkFrame), mainUp s = true → portNamed s p = true → 3 ≤ (port s p).state → (port s p).state ≤ 5 → f.op = 0x22 → (port s p).timeX = none → exec (.timeReplyFrame p f) s = .next (takeLink s p f)) ∧
  (∀ (s : State) (p n t1 : Nat) (f : LinkFrame), mainUp s = true → portNamed s p = true → 3 ≤ (port s p).state → (port s p).state ≤ 5 → f.op = 0x22 → (port s p).timeX = some (n, t1) → lfAt f 24 8 = n → 2 ≤ (port s p).timeRole → followed s = p → s.pc.haveEst = true → 2000 < (exchOffset (port s p) t1 (lfAt f 8 8) (lfAt f 16 8) s.now - s.pc.estimate).natAbs → Answers (.timeReplyFrame p f) s fun t => tget 0 (port t p).ctr 6 = satInc (tget 0 (port s p).ctr 6) 1 ∧ t.pc.estimate = s.pc.estimate ∧ t = pcCount (setPort (takeLink s p f) p { port (takeLink s p f) p with timeX := none }) p 6 1) ∧
  (∀ (s : State), mainUp s = true → s.pc.tState = 2 → s.pc.lastAcc + 20000000 ≤ s.now → ((syncPorts s).find? fun p => decide (p ≠ s.pc.upstream)) = none → exec (.timeUpstreamTimeout) s = .next ({ s with pc := { s.pc with upstream := 0xFF, tState := 3, holdT := s.now, haveEst := false, slew := 0 } })) ∧
  (∀ (s : State) (p : Nat), mainUp s = true → s.pc.tState = 2 → s.pc.lastAcc + 20000000 ≤ s.now → ((syncPorts s).find? fun p => decide (p ≠ s.pc.upstream)) = some p → exec (.timeUpstreamTimeout) s = .next ({ s with pc := { s.pc with upstream := p, lastAcc := s.now, haveEst := false, slew := 0 } })) ∧
  (∀ (s : State), mainUp s = true → s.pc.tState = 3 → s.pc.holdT + 40000000 ≤ s.now → exec (.holdoverTimeout) s = .next (raiseEvent { s with pc := { s.pc with tState := 4 } } 0))

/-- Ports train, retrain and lose lanes, and spare lanes take their place. A port in DETECT that finds a partner enters TRAIN; when enough lanes lock it enters CONFIG at their width, and the partner's CAPS record is taken; a lane in service that loses lock brings the port into RETRAIN, from which it returns with the pair's spare in the lane's place, or falls to DETECT after 2 ms; a lane swap goes through training, duplication, announcement and switch, and then the lane reads failed and the spare carries its number. -/
def Obligations.TrainingAndSpareLaneCommands : Prop :=
  (∀ (s : State) (p : Nat), mainUp s = true → portNamed s p = true → (port s p).state = 1 → exec (.partnerDetect p) s = .next (setPort s p { port s p with state := 2, stateT := s.now })) ∧
  (∀ (s : State) (p w : Nat) (l ls : List Nat), mainUp s = true → portNamed s p = true → (port s p).state = 2 → chooseWidth s p l = some (w, ls, none) → Answers (.trainingComplete p l) s fun t => (port t p).state = 3 ∧ (port t p).width = w ∧ (port t p).stateT = s.now ∧ ((ls.all fun i => decide ((lane t (physLane s p i)).port = p) && decide ((lane t (physLane s p i)).logical = i % w) && decide ((lane t (physLane s p i)).state = 0)) = true) ∧ t = sendLink (setPort (lanesUp s p w ls none) p { port (lanesUp s p w ls none) p with state := 3, stateT := s.now, width := w, linkVer := 0, capsSeen := false }) p (ownCaps (setPort (lanesUp s p w ls none) p { port (lanesUp s p w ls none) p with state := 3, stateT := s.now, width := w, linkVer := 0, capsSeen := false }) (port (setPort (lanesUp s p w ls none) p { port (lanesUp s p w ls none) p with state := 3, stateT := s.now, width := w, linkVer := 0, capsSeen := false }) p))) ∧
  (∀ (s : State) (p w i : Nat) (l ls : List Nat), mainUp s = true → portNamed s p = true → (port s p).state = 2 → chooseWidth s p l = some (w, ls, some i) → Answers (.trainingComplete p l) s fun t => (port t p).state = 3 ∧ (port t p).width = w ∧ (pair t (p / 4)).used = true ∧ (lane t (spareLane (p / 4))).state = 3 ∧ (lane t (spareLane (p / 4))).logical = i % w ∧ (lane t (physLane s p i)).state = 4 ∧ t = sendLink (setPort (setLane (setPair (lanesUp s p w ls (some i)) (p / 4) { pair (lanesUp s p w ls (some i)) (p / 4) with used := true }) (physLane (lanesUp s p w ls (some i)) p i) { lane (setPair (lanesUp s p w ls (some i)) (p / 4) { pair (lanesUp s p w ls (some i)) (p / 4) with used := true }) (physLane (setPair (lanesUp s p w ls (some i)) (p / 4) { pair (lanesUp s p w ls (some i)) (p / 4) with used := true }) p i) with state := 4 }) p { port (setLane (setPair (lanesUp s p w ls (some i)) (p / 4) { pair (lanesUp s p w ls (some i)) (p / 4) with used := true }) (physLane (lanesUp s p w ls (some i)) p i) { lane (setPair (lanesUp s p w ls (some i)) (p / 4) { pair (lanesUp s p w ls (some i)) (p / 4) with used := true }) (physLane (setPair (lanesUp s p w ls (some i)) (p / 4) { pair (lanesUp s p w ls (some i)) (p / 4) with used := true }) p i) with state := 4 }) p with state := 3, stateT := s.now, width := w, linkVer := 0, capsSeen := false }) p (ownCaps (setPort (setLane (setPair (lanesUp s p w ls (some i)) (p / 4) { pair (lanesUp s p w ls (some i)) (p / 4) with used := true }) (physLane (lanesUp s p w ls (some i)) p i) { lane (setPair (lanesUp s p w ls (some i)) (p / 4) { pair (lanesUp s p w ls (some i)) (p / 4) with used := true }) (physLane (setPair (lanesUp s p w ls (some i)) (p / 4) { pair (lanesUp s p w ls (some i)) (p / 4) with used := true }) p i) with state := 4 }) p { port (setLane (setPair (lanesUp s p w ls (some i)) (p / 4) { pair (lanesUp s p w ls (some i)) (p / 4) with used := true }) (physLane (lanesUp s p w ls (some i)) p i) { lane (setPair (lanesUp s p w ls (some i)) (p / 4) { pair (lanesUp s p w ls (some i)) (p / 4) with used := true }) (physLane (setPair (lanesUp s p w ls (some i)) (p / 4) { pair (lanesUp s p w ls (some i)) (p / 4) with used := true }) p i) with state := 4 }) p with state := 3, stateT := s.now, width := w, linkVer := 0, capsSeen := false }) (port (setPort (setLane (setPair (lanesUp s p w ls (some i)) (p / 4) { pair (lanesUp s p w ls (some i)) (p / 4) with used := true }) (physLane (lanesUp s p w ls (some i)) p i) { lane (setPair (lanesUp s p w ls (some i)) (p / 4) { pair (lanesUp s p w ls (some i)) (p / 4) with used := true }) (physLane (setPair (lanesUp s p w ls (some i)) (p / 4) { pair (lanesUp s p w ls (some i)) (p / 4) with used := true }) p i) with state := 4 }) p { port (setLane (setPair (lanesUp s p w ls (some i)) (p / 4) { pair (lanesUp s p w ls (some i)) (p / 4) with used := true }) (physLane (lanesUp s p w ls (some i)) p i) { lane (setPair (lanesUp s p w ls (some i)) (p / 4) { pair (lanesUp s p w ls (some i)) (p / 4) with used := true }) (physLane (setPair (lanesUp s p w ls (some i)) (p / 4) { pair (lanesUp s p w ls (some i)) (p / 4) with used := true }) p i) with state := 4 }) p with state := 3, stateT := s.now, width := w, linkVer := 0, capsSeen := false }) p))) ∧
  (∀ (s : State) (p : Nat) (l : List Nat), mainUp s = true → portNamed s p = true → (port s p).state = 2 → chooseWidth s p l = none → exec (.trainingComplete p l) s = .next (s)) ∧
  (∀ (s : State) (p : Nat), mainUp s = true → portNamed s p = true → (port s p).state = 2 → (port s p).stateT + 1000000 ≤ s.now → exec (.trainRetry p) s = .next (setPort s p { port s p with stateT := s.now })) ∧
  (∀ (s : State) (p : Nat) (f : LinkFrame), mainUp s = true → portNamed s p = true → (port s p).state = 3 → (port s p).capsSeen = false → (port s p).prot = false → f.op = 0x27 → lfAt f 18 1 % 2 = 0 → lfAt f 2 1 % 16 = 1 → ¬((port s p).epBase ≤ lfAt f 4 2 ∧ 1 ≤ lfAt f 6 1 ∧ lfAt f 4 2 + lfAt f 6 1 ≤ (port s p).epBase + (port s p).epCount) → Answers (.capsFrame p f) s fun t => (port t p).profile = 1 ∧ (port t p).peerId = lfAt f 4 2 ∧ (port t p).peerCount = lfAt f 6 1 ∧ (port t p).epMismatch = true ∧ (port t p).state = 3 ∧ t = setPort (takeLink s p f) p (takeCaps (port (takeLink s p f) p) f)) ∧
  (∀ (s : State) (p : Nat) (f : LinkFrame), mainUp s = true → portNamed s p = true → (port s p).state = 3 → (port s p).capsSeen = false → (port s p).prot = false → f.op = 0x27 → lfAt f 18 1 % 2 = 0 → lfAt f 2 1 % 16 = 0 → s.pc.timeSet = true → s.sw.routes = [] → s.te.peers = [] → Answers (.capsFrame p f) s fun t => (port t p).state = 4 ∧ (port t p).profile = 0 ∧ (port t p).peerId = lfAt f 4 2 ∧ (port t p).credit = firstCredit (port s p) ∧ t = enterActive (setPort (takeLink s p f) p (takeCaps (port (takeLink s p f) p) f)) p) ∧
  (∀ (s : State) (p : Nat) (f : LinkFrame), mainUp s = true → portNamed s p = true → (port s p).state = 3 → (port s p).capsSeen = false → f.op = 0x27 → wantsProt (takeCaps (port s p) f) = false → Answers (.capsFrame p f) s fun t => t = tryActive (setPort (takeLink s p f) p (takeCaps (port (takeLink s p f) p) f)) p) ∧
  (∀ (s : State) (p : Nat) (f : LinkFrame), mainUp s = true → portNamed s p = true → (port s p).state = 3 → (port s p).capsSeen = false → f.op = 0x27 → wantsProt (takeCaps (port s p) f) = true → spdmRequester (setPort (takeLink s p f) p (takeCaps (port (takeLink s p f) p) f)) p = true → Answers (.capsFrame p f) s fun t => t = sendKeymsg (setPort (takeLink s p f) p (takeCaps (port (takeLink s p f) p) f)) p (spdmMsg 0x84 0)) ∧
  (∀ (s : State) (p : Nat) (f : LinkFrame), mainUp s = true → portNamed s p = true → (port s p).state = 3 → (port s p).capsSeen = false → f.op = 0x27 → wantsProt (takeCaps (port s p) f) = true → spdmRequester (setPort (takeLink s p f) p (takeCaps (port (takeLink s p f) p) f)) p = false → exec (.capsFrame p f) s = .next (setPort (takeLink s p f) p (takeCaps (port (takeLink s p f) p) f))) ∧
  (∀ (s : State) (p : Nat) (f : LinkFrame), mainUp s = true → portNamed s p = true → 3 ≤ (port s p).state → (port s p).state ≤ 5 → f.op = 0x27 → (port s p).state ≠ 3 ∨ (port s p).capsSeen = true → exec (.capsFrame p f) s = .next (takeLink s p f)) ∧
  (∀ (s : State) (p l : Nat), mainUp s = true → portNamed s p = true → (port s p).state = 4 → (lane s l).port = p → (lane s l).state = 0 ∨ (lane s l).state = 3 ∨ (lane s l).state = 5 → swapsLane s (p / 4) l p = false ∨ (pair s (p / 4)).swap < 2 → Answers (.laneLockLoss p (some l)) s fun t => (port t p).state = 5 ∧ (port t p).lost = some l ∧ (port t p).replay = (port s p).replay ∧ tget 0 (port t p).ctr 3 = satInc (tget 0 (port s p).ctr 3) 1 ∧ ∀ q, (queue t p q).frames.map (·.f) = (queue s p q).frames.map (·.f) ∧ t = enterRetrain s p (some l)) ∧
  (∀ (s : State) (p : Nat), mainUp s = true → portNamed s p = true → (port s p).state = 4 → ((port s p).replay.any fun x => decide (8 ≤ x.count)) = true → Answers (.laneLockLoss p none) s fun t => (port t p).state = 5 ∧ (port t p).lost = none ∧ (port t p).replay = (port s p).replay ∧ t = enterRetrain s p none) ∧
  (∀ (s : State) (p l : Nat), mainUp s = true → portNamed s p = true → (port s p).state = 4 → l < 816 → (lane s l).port = p → (lane s l).state = 0 ∨ (lane s l).state = 3 ∨ (lane s l).state = 5 → swapsLane s (p / 4) l p = true → 2 ≤ (pair s (p / 4)).swap → Answers (.laneLockLoss p (some l)) s fun t => (pair t (p / 4)).swap = 0 ∧ (pair t (p / 4)).used = true ∧ t = finishSwap s (p / 4) l) ∧
  (∀ (s : State) (p l : Nat), mainUp s = true → (lane s l).port ≠ p ∨ ¬((lane s l).state = 0 ∨ (lane s l).state = 3 ∨ (lane s l).state = 5) → exec (.laneLockLoss p (some l)) s = .next (s)) ∧
  (∀ (s : State) (p : Nat), mainUp s = true → portNamed s p = true → (port s p).state = 5 → (port s p).lost = none → Answers (.retrainComplete p) s fun t => (port t p).state = 4 ∧ (port t p).stateT = s.now ∧ (port t p).width = (port s p).width ∧ t = backActive s p (port s p).width) ∧
  (∀ (s : State) (p l : Nat), mainUp s = true → portNamed s p = true → (port s p).state = 5 → (port s p).lost = some l → l ≠ spareLane (p / 4) → swapsLane s (p / 4) l p = false → spareFree s (p / 4) = true → Answers (.retrainComplete p) s fun t => (port t p).state = 4 ∧ (lane t l).state = 4 ∧ (lane t (spareLane (p / 4))).state = 3 ∧ (lane t (spareLane (p / 4))).logical = (lane s l).logical ∧ (pair t (p / 4)).used = true ∧ t = backActive (spareTakes s (p / 4) l) p (port s p).width) ∧
  (∀ (s : State) (p l : Nat), mainUp s = true → portNamed s p = true → (port s p).state = 5 → (port s p).lost = some l → l < 816 → swapsLane s (p / 4) l p = true → Answers (.retrainComplete p) s fun t => t = backActive (finishSwap s (p / 4) l) p (port s p).width) ∧
  (∀ (s : State) (p l : Nat), mainUp s = true → portNamed s p = true → (port s p).state = 5 → (port s p).lost = some l → swapsLane s (p / 4) l p = false → spareFree s (p / 4) = false → (port s p).width = 8 → Answers (.retrainComplete p) s fun t => (port t p).state = 4 ∧ (port t p).width = 4 ∧ t = backActive (narrow s p l) p 4) ∧
  (∀ (s : State) (p l : Nat), mainUp s = true → portNamed s p = true → (port s p).state = 5 → (port s p).lost = some l → swapsLane s (p / 4) l p = false → spareFree s (p / 4) = false → (port s p).width ≠ 8 → exec (.retrainComplete p) s = .next (s)) ∧
  (∀ (s : State) (p : Nat), mainUp s = true → portNamed s p = true → (port s p).state = 5 → (port s p).stateT + 2000000 ≤ s.now → peersAt s p true = [] → s.sw.routes = [] → (pair s (p / 4)).swap = 0 → Answers (.retrainTimeout p) s fun t => (port t p).state = 1 ∧ (port t p).replay = [] ∧ ∀ k, k ≠ p → port t k = port s k ∧ t = portGoesDown s p 1) ∧
  (∀ (s : State) (p : Nat), mainUp s = true → portNamed s p = true → (port s p).state = 5 → (port s p).stateT + 2000000 ≤ s.now → Answers (.retrainTimeout p) s fun t => t = portGoesDown s p 1) ∧
  (∀ (s : State) (l : Nat), mainUp s = true → s.ph.laneDue.contains l = true → laneReason s l = 0 → Answers (.laneSwapStart l) s fun t => (pair t (lanePair l)).swap = 1 ∧ (pair t (lanePair l)).lane = l ∧ (pair t (lanePair l)).port = (lane s l).port ∧ (lane t (spareLane (lanePair l))).state = 2 ∧ (lane t (spareLane (lanePair l))).logical = (lane s l).logical ∧ t = startSwap s l none) ∧
  (∀ (s : State) (k : Nat), mainUp s = true → k < 48 → (pair s k).swap = 1 → exec (.spareLock k) s = .next (setPair s k { pair s k with swap := 2 })) ∧
  (∀ (s : State) (k : Nat), mainUp s = true → k < 48 → (pair s k).swap = 2 → Answers (.spareDeskewDone k) s fun t => (pair t k).swap = 3 ∧ (pair t k).mySeq = ((port s (pair s k).port).txSeq + 1) % 1024 ∧ t = sendLink (setPair s k { pair s k with swap := 3, mySeq := ((port s (pair s k).port).txSeq + 1) % 1024 }) (pair s k).port { op := 0x28, body := linkBody 1 [(2, 1, k), (3, 1, 1), (4, 2, ((port s (pair s k).port).txSeq + 1) % 1024)] }) ∧
  (∀ (s : State) (p : Nat) (f : LinkFrame), mainUp s = true → portNamed s p = true → 3 ≤ (port s p).state → (port s p).state ≤ 5 → f.op = 0x28 → lfAt f 3 1 = 0 → (pair s (p / 4)).swap = 0 → (pair s (p / 4)).used = false → Answers (.spareFrame p f) s fun t => (pair t (p / 4)).swap = 1 ∧ (pair t (p / 4)).port = p ∧ (lane t (spareLane (p / 4))).state = 2 ∧ t = setLane (setPair (takeLink s p f) (p / 4) { pair (takeLink s p f) (p / 4) with swap := 1, lane := 816, port := p, peerSeq := none, reqCs := none }) (spareLane (p / 4)) { lane (setPair (takeLink s p f) (p / 4) { pair (takeLink s p f) (p / 4) with swap := 1, lane := 816, port := p, peerSeq := none, reqCs := none }) (spareLane (p / 4)) with port := p, state := 2 }) ∧
  (∀ (s : State) (p : Nat) (f : LinkFrame), mainUp s = true → portNamed s p = true → 3 ≤ (port s p).state → (port s p).state ≤ 5 → f.op = 0x28 → lfAt f 3 1 = 1 → (pair s (p / 4)).swap ≠ 0 → (pair s (p / 4)).port = p → exec (.spareFrame p f) s = .next (setPair (takeLink s p f) (p / 4) { pair (takeLink s p f) (p / 4) with peerSeq := some (lfAt f 4 2) })) ∧
  (∀ (s : State) (p : Nat) (f : LinkFrame), mainUp s = true → portNamed s p = true → 3 ≤ (port s p).state → (port s p).state ≤ 5 → f.op = 0x28 → lfAt f 3 1 = 0 → (pair s (p / 4)).swap = 0 → (pair s (p / 4)).used = true → exec (.spareFrame p f) s = .next (sendLink (takeLink s p f) p { op := 0x28, body := linkBody 1 [(2, 1, p / 4), (3, 1, 2)] })) ∧
  (∀ (s : State) (p : Nat) (f : LinkFrame), mainUp s = true → portNamed s p = true → 3 ≤ (port s p).state → (port s p).state ≤ 5 → f.op = 0x28 → lfAt f 3 1 = 2 → (pair s (p / 4)).swap ≠ 0 → (pair s (p / 4)).port = p → Answers (.spareFrame p f) s fun t => (pair t (p / 4)).swap = 0 ∧ (lane t (spareLane (p / 4))).state = 1 ∧ t = swapEnds (setLane (takeLink s p f) (spareLane (p / 4)) { lane (takeLink s p f) (spareLane (p / 4)) with port := 0xFF, logical := 0xF, state := 1 }) (p / 4) 0x0707) ∧
  (∀ (s : State) (p : Nat) (f : LinkFrame), mainUp s = true → portNamed s p = true → 3 ≤ (port s p).state → (port s p).state ≤ 5 → f.op = 0x28 → (lfAt f 3 1 = 0 ∧ (pair s (p / 4)).swap ≠ 0) ∨ (1 ≤ lfAt f 3 1 ∧ ((pair s (p / 4)).swap = 0 ∨ (pair s (p / 4)).port ≠ p)) ∨ 3 ≤ lfAt f 3 1 → exec (.spareFrame p f) s = .next (takeLink s p f)) ∧
  (∀ (s : State) (k : Nat), mainUp s = true → k < 48 → (pair s k).swap = 3 → (pair s k).peerSeq ≠ none → (pair s k).reqCs = none → (pair s k).lane < 816 → (pair s k).lane ≠ spareLane k → Answers (.spareSwitch k) s fun t => (pair t k).swap = 0 ∧ (pair t k).used = true ∧ (lane t (pair s k).lane).state = 4 ∧ (lane t (spareLane k)).state = 3 ∧ (lane t (spareLane k)).logical = (lane s (pair s k).lane).logical ∧ t.ph.laneDue = s.ph.laneDue.filter (· ≠ (pair s k).lane) ∧ t = swapDone s k) ∧
  (∀ (s : State) (k : Nat), mainUp s = true → k < 48 → (pair s k).swap = 3 → (pair s k).peerSeq ≠ none → Answers (.spareSwitch k) s fun t => t = swapDone s k)

/-- SPDM requests over DOE, heartbeats, certificates, measurements and IDE keys. Before stage READY a DOE request is answered with ResponseNotReady. Each answer of DOE makes vector 21 pending, which is the model's reading (log entry 104). At READY each request outside a session, or inside one that is open, is answered by the state of its connection: KEY_EXCHANGE takes a free session or finds none, FINISH secures it or ends it with the count of failures, END_SESSION ends it, other requests restart the heartbeat time. The third missed heartbeat ends a session. A certificate is taken from the owner only, and only for the OwnerID key; a certificate request and measurements are returned; IDE keys of either stream are taken, put in use and stopped inside a secured session of DOE. On the connection of a native link the answer goes to the link, without the vector. Which error each refusal carries, and the answers' bytes, are the model's choice (log entries 49 and 53). -/
def Obligations.SpdmCommands : Prop :=
  (∀ (s : State) (k : Nat) (m : Bytes), k ≤ 4 → s.hw.perstLow = false → unpowered s = false → s.cc.stage ≠ 6 → exec (.spdmRequest k m) s = .next (raiseEvent { s with resp := .bytes (spdmMsg 0x7F 0x42) } 21)) ∧
  (∀ (s : State) (k : Nat) (m : Bytes), s.hw.perstLow = false → unpowered s = false → s.cc.stage = 6 → 1 ≤ k → k ≤ 4 → (sess s k).opened = false → exec (.spdmRequest k m) s = .next (raiseEvent { s with resp := .bytes (spdmMsg 0x7F 0x02) } 21)) ∧
  (∀ (s : State) (k : Nat) (m : Bytes), k ≤ 4 → s.hw.perstLow = true → exec (.spdmRequest k m) s = .next ({ s with resp := .none })) ∧
  (∀ (s : State) (m : Bytes), s.hw.perstLow = false → unpowered s = false → s.cc.stage = 6 → ¬ (leAt m 0 1 = 0x12 ∧ leAt m 1 1 = 0xE4 ∧ (sess s 0).phase = 3) → Answers (.spdmRequest 0 m) s fun t => t.resp = .bytes (spdmReply (sess s 0).phase m).1 ∧ sess t 0 = { sess s 0 with opened := true, phase := (spdmReply (sess s 0).phase m).2 } ∧ bit t.cc.intStatus 21 = true ∧ t = raiseEvent (sayBack (setSess s 0 { sess s 0 with opened := true, phase := (spdmReply (sess s 0).phase m).2 }) 0 (spdmReply (sess s 0).phase m).1) 21) ∧
  (∀ (s : State) (m : Bytes) (k : Nat), s.hw.perstLow = false → unpowered s = false → s.cc.stage = 6 → leAt m 0 1 = 0x12 → leAt m 1 1 = 0xE4 → (sess s 0).phase = 3 → freeSession s = some k → Answers (.spdmRequest 0 m) s fun t => t.resp = .bytes (spdmMsg 0x64 k) ∧ sess t k = { opened := true, phase := 4, lastBeat := s.now } ∧ bit t.cc.intStatus 21 = true ∧ t = raiseEvent (sayBack (setSess s k { opened := true, phase := 4, lastBeat := s.now }) 0 (spdmMsg 0x64 k)) 21) ∧
  (∀ (s : State) (m : Bytes), s.hw.perstLow = false → unpowered s = false → s.cc.stage = 6 → leAt m 0 1 = 0x12 → leAt m 1 1 = 0xE4 → (sess s 0).phase = 3 → freeSession s = none → exec (.spdmRequest 0 m) s = .next (raiseEvent { s with resp := .bytes (spdmMsg 0x7F 0x0A) } 21)) ∧
  (∀ (s : State) (k : Nat) (m : Bytes), s.hw.perstLow = false → unpowered s = false → s.cc.stage = 6 → 1 ≤ k → k ≤ 4 → (sess s k).opened = true → (sess s k).secured = false → leAt m 1 1 = 0xE5 → Answers (.spdmRequest k m) s fun t => t = raiseEvent (match Config.spdmRoot k m with | none => sayBack (setSess (taCount s 1 1) k {}) k (spdmMsg 0x7F 0x06) | some r => sayBack (setSess s k { sess s k with secured := true, root := r, lastBeat := s.now }) k (spdmMsg 0x65 0)) 21) ∧
  (∀ (s : State) (k : Nat) (m : Bytes), s.hw.perstLow = false → unpowered s = false → s.cc.stage = 6 → 1 ≤ k → k ≤ 4 → (sess s k).opened = true → (leAt m 1 1 = 0xE5 ∧ (sess s k).secured = true) ∨ (leAt m 1 1 = 0xEC ∧ (sess s k).secured = false) → exec (.spdmRequest k m) s = .next (raiseEvent { s with resp := .bytes (spdmMsg 0x7F 0x04) } 21)) ∧
  (∀ (s : State) (k : Nat) (m : Bytes), s.hw.perstLow = false → unpowered s = false → s.cc.stage = 6 → 1 ≤ k → k ≤ 4 → (sess s k).opened = true → (sess s k).secured = true → leAt m 1 1 = 0xEC → Answers (.spdmRequest k m) s fun t => t.resp = .bytes (spdmMsg 0x6C 0) ∧ sess t k = {} ∧ bit t.cc.intStatus 21 = true ∧ t = raiseEvent (sayBack (setSess s k {}) k (spdmMsg 0x6C 0)) 21) ∧
  (∀ (s : State) (k : Nat) (m : Bytes), s.hw.perstLow = false → unpowered s = false → s.cc.stage = 6 → 1 ≤ k → k ≤ 4 → (sess s k).opened = true → leAt m 1 1 ≠ 0xE5 → leAt m 1 1 ≠ 0xEC → Answers (.spdmRequest k m) s fun t => t.resp = .bytes (spdmReply (sess s k).phase m).1 ∧ sess t k = { sess s k with missed := 0, lastBeat := s.now } ∧ bit t.cc.intStatus 21 = true ∧ t = raiseEvent (sayBack (setSess s k { sess s k with missed := 0, lastBeat := s.now }) k (spdmReply (sess s k).phase m).1) 21) ∧
  (∀ (s : State) (k : Nat), mainUp s = true → (sess s k).opened = true → (sess s k).secured = true → (sess s k).lastBeat + 60000000000 * ((sess s k).missed + 1) ≤ s.now → (sess s k).missed < 2 → Answers (.spdmHeartbeatMiss k) s fun t => sess t k = { sess s k with missed := (sess s k).missed + 1 } ∧ t = setSess s k { sess s k with missed := (sess s k).missed + 1 }) ∧
  (∀ (s : State) (k : Nat), mainUp s = true → k ≤ 4 → (sess s k).opened = true → (sess s k).secured = true → (sess s k).lastBeat + 60000000000 * ((sess s k).missed + 1) ≤ s.now → 2 ≤ (sess s k).missed → Answers (.spdmHeartbeatMiss k) s fun t => sess t k = {} ∧ t = setSess s k {}) ∧
  (∀ (s : State) (k : Nat), mainUp s = true → 4 < k → (sess s k).opened = true → (sess s k).secured = true → (sess s k).lastBeat + 60000000000 * ((sess s k).missed + 1) ≤ s.now → 2 ≤ (sess s k).missed → Answers (.spdmHeartbeatMiss k) s fun t => t = portGoesDown (setSess s k {}) (k - 16) 1) ∧
  (∀ (s : State) (k : Nat) (c : Bytes), s.hw.perstLow = false → unpowered s = false → s.cc.stage = 6 → ownerOn s k = true → Answers (.setCertificate k 1 c) s fun t => t = raiseEvent (sayBack (if Config.chainLeaf c = Config.keyDigest (ownerSeed s) then { s with ta := { s.ta with chain1 := c } } else s) k (if Config.chainLeaf c = Config.keyDigest (ownerSeed s) then spdmMsg 0x6E 1 else spdmMsg 0x7F 0x04)) 21) ∧
  (∀ (s : State) (k n : Nat) (c : Bytes), s.hw.perstLow = false → unpowered s = false → s.cc.stage = 6 → k ≤ 4 → n ≠ 1 ∨ ownerOn s k = false → k = 0 ∨ (sess s k).opened = true → exec (.setCertificate k n c) s = .next (raiseEvent { s with resp := .bytes (spdmMsg 0x7F 0x04) } 21)) ∧
  (∀ (s : State) (k n : Nat) (c : Bytes), mainUp s = true → 16 ≤ k → portNamed s (k - 16) = true → 3 ≤ (port s (k - 16)).state → (port s (k - 16)).state ≤ 5 → exec (.setCertificate k n c) s = .next (sayBack s k (spdmMsg 0x7F 0x04))) ∧
  (∀ (s : State) (k : Nat), s.hw.perstLow = false → unpowered s = false → s.cc.stage = 6 → k ≤ 4 → k = 0 ∨ (sess s k).opened = true → Answers (.getCsr k) s fun t => t = raiseEvent { s with resp := .bytes (spdmMsg 0x6D 0 ++ Config.certRequest (ownerSeed s)) } 21) ∧
  (∀ (s : State) (k : Nat), mainUp s = true → 16 ≤ k → portNamed s (k - 16) = true → 3 ≤ (port s (k - 16)).state → (port s (k - 16)).state ≤ 5 → Answers (.getCsr k) s fun t => t = sayBack s k (spdmMsg 0x6D 0 ++ Config.certRequest (ownerSeed s))) ∧
  (∀ (s : State) (k : Nat) (sign : Bool) (nonce : Bytes), s.hw.perstLow = false → unpowered s = false → s.cc.stage = 6 → k ≤ 4 → k = 0 ∨ (sess s k).opened = true → Answers (.getMeasurements k 0 sign nonce) s fun t => t = raiseEvent { s with resp := .bytes (if sign then (spdmMsg 0x60 7 ++ [] ++ fitTo 32 nonce) ++ fitTo 64 (Config.sm2Sign (cdi1 s) (spdmMsg 0x60 7 ++ [] ++ fitTo 32 nonce)) else (spdmMsg 0x60 7 ++ [] ++ fitTo 32 nonce)) } 21) ∧
  (∀ (s : State) (k i : Nat) (sign : Bool) (nonce : Bytes), s.hw.perstLow = false → unpowered s = false → s.cc.stage = 6 → k ≤ 4 → k = 0 ∨ (sess s k).opened = true → 1 ≤ i → i ≤ 7 → Answers (.getMeasurements k i sign nonce) s fun t => t = raiseEvent { s with resp := .bytes (if sign then (spdmMsg 0x60 0 ++ measBlock s i ++ fitTo 32 nonce) ++ fitTo 64 (Config.sm2Sign (cdi1 s) (spdmMsg 0x60 0 ++ measBlock s i ++ fitTo 32 nonce)) else (spdmMsg 0x60 0 ++ measBlock s i ++ fitTo 32 nonce)) } 21) ∧
  (∀ (s : State) (k : Nat) (sign : Bool) (nonce : Bytes), s.hw.perstLow = false → unpowered s = false → s.cc.stage = 6 → k ≤ 4 → k = 0 ∨ (sess s k).opened = true → Answers (.getMeasurements k 255 sign nonce) s fun t => t = raiseEvent { s with resp := .bytes (if sign then (spdmMsg 0x60 0 ++ [1, 2, 3, 4, 5, 6, 7].flatMap (measBlock s) ++ fitTo 32 nonce) ++ fitTo 64 (Config.sm2Sign (cdi1 s) (spdmMsg 0x60 0 ++ [1, 2, 3, 4, 5, 6, 7].flatMap (measBlock s) ++ fitTo 32 nonce)) else (spdmMsg 0x60 0 ++ [1, 2, 3, 4, 5, 6, 7].flatMap (measBlock s) ++ fitTo 32 nonce)) } 21) ∧
  (∀ (s : State) (k i : Nat) (sign : Bool) (nonce : Bytes), mainUp s = true → 16 ≤ k → portNamed s (k - 16) = true → 3 ≤ (port s (k - 16)).state → (port s (k - 16)).state ≤ 5 → 1 ≤ i → i ≤ 7 → Answers (.getMeasurements k i sign nonce) s fun t => t = sayBack s k (if sign then (spdmMsg 0x60 0 ++ measBlock s i ++ fitTo 32 nonce) ++ fitTo 64 (Config.sm2Sign (cdi1 s) (spdmMsg 0x60 0 ++ measBlock s i ++ fitTo 32 nonce)) else (spdmMsg 0x60 0 ++ measBlock s i ++ fitTo 32 nonce))) ∧
  (∀ (s : State) (k i : Nat) (sign : Bool) (nonce : Bytes), mainUp s = true → 16 ≤ k → portNamed s (k - 16) = true → 3 ≤ (port s (k - 16)).state → (port s (k - 16)).state ≤ 5 → 7 < i → i ≠ 255 → exec (.getMeasurements k i sign nonce) s = .next (sayBack s k (spdmMsg 0x7F 0x01))) ∧
  (∀ (s : State) (k i : Nat) (sign : Bool) (nonce : Bytes), s.hw.perstLow = false → unpowered s = false → s.cc.stage = 6 → k ≤ 4 → k = 0 ∨ (sess s k).opened = true → 7 < i → i ≠ 255 → exec (.getMeasurements k i sign nonce) s = .next (raiseEvent { s with resp := .bytes (spdmMsg 0x7F 0x01) } 21)) ∧
  (∀ (s : State) (k : Nat) (m : Bytes), s.hw.perstLow = false → unpowered s = false → s.cc.stage = 6 → securedDoe s k = true → leAt m 0 1 ≤ 1 → leAt m 1 1 = 2 → exec (.ideKmMessage k m) s = .next (raiseEvent { setIdeStream s (decide (leAt m 0 1 = 1)) { ideStream s (decide (leAt m 0 1 = 1)) with keys := (leAt m 6 1 % 4) :: (ideStream s (decide (leAt m 0 1 = 1))).keys.filter (· ≠ leAt m 6 1 % 4) } with resp := .bytes [BitVec.ofNat 8 (leAt m 0 1), 3] } 21)) ∧
  (∀ (s : State) (k : Nat) (m : Bytes), s.hw.perstLow = false → unpowered s = false → s.cc.stage = 6 → securedDoe s k = true → leAt m 0 1 ≤ 1 → leAt m 1 1 = 4 → (ideStream s (decide (leAt m 0 1 = 1))).keys.contains (leAt m 6 1 % 4) = true → exec (.ideKmMessage k m) s = .next (raiseEvent { setIdeStream s (decide (leAt m 0 1 = 1)) { ideStream s (decide (leAt m 0 1 = 1)) with go := (leAt m 6 1 % 4) :: (ideStream s (decide (leAt m 0 1 = 1))).go.filter (· ≠ leAt m 6 1 % 4) } with resp := .bytes [BitVec.ofNat 8 (leAt m 0 1), 6] } 21)) ∧
  (∀ (s : State) (k : Nat) (m : Bytes), s.hw.perstLow = false → unpowered s = false → s.cc.stage = 6 → securedDoe s k = true → leAt m 0 1 ≤ 1 → leAt m 1 1 = 5 → exec (.ideKmMessage k m) s = .next (raiseEvent { setIdeStream s (decide (leAt m 0 1 = 1)) { ideStream s (decide (leAt m 0 1 = 1)) with go := (ideStream s (decide (leAt m 0 1 = 1))).go.filter (· ≠ leAt m 6 1 % 4) } with resp := .bytes [BitVec.ofNat 8 (leAt m 0 1), 6] } 21)) ∧
  (∀ (s : State) (k : Nat) (m : Bytes), s.hw.perstLow = false → unpowered s = false → s.cc.stage = 6 → securedDoe s k = true → 1 < leAt m 0 1 ∨ ideKm (ideStream s (decide (leAt m 0 1 = 1))) (leAt m 1 1) (leAt m 6 1 % 4) = none → exec (.ideKmMessage k m) s = .next (raiseEvent { s with resp := .bytes (spdmMsg 0x7F 0x01) } 21)) ∧
  (∀ (s : State) (k : Nat) (m : Bytes), s.hw.perstLow = false → unpowered s = false → s.cc.stage = 6 → k ≤ 4 → k = 0 ∨ (sess s k).opened = true → securedDoe s k = false → exec (.ideKmMessage k m) s = .next (raiseEvent { s with resp := .bytes (spdmMsg 0x7F 0x04) } 21))

/-- The limited-change record, the owner, delivered keys and reports. SET_OWNER takes the anchor once, inside a secured session. RAISE_FLOOR, RAISE_EPOCH, SEAL and DEBUG_UNLOCK, by the owner while their count remains, change the record in force and log the change; otherwise they are refused with their code, count the refusal and change nothing else. An epoch raise clears the anchor, slot 1, the delivered keys and every key slot. DELIVER_KEY takes the lowest free entry, bound to who authenticated; DISCARD_KEY frees it for the session that delivered it, and expiry after 60 s. GET_LC and GET_REPORT answer and change no setting. A signature's verdict is a free value: both outcomes are stated. The order of the refusal codes is the model's (log entry 73). -/
def Obligations.KilharMessages : Prop :=
  (∀ (s : State) (k : Nat) (d : Bytes), s.hw.perstLow = false → unpowered s = false → s.cc.stage = 6 → s.ta.anchor = [] → securedDoe s k = true → exec (.setOwner k d) s = .next (raiseEvent { s with resp := .bytes (bytesLE 2 0), ta := { s.ta with anchor := if (fitTo 32 d).all (· = 0) then [] else fitTo 32 d } } 21)) ∧
  (∀ (s : State) (k : Nat) (d : Bytes), s.hw.perstLow = false → unpowered s = false → s.cc.stage = 6 → s.ta.anchor ≠ [] → k ≤ 4 → k = 0 ∨ (sess s k).opened = true → exec (.setOwner k d) s = .next (raiseEvent { s with resp := .bytes (bytesLE 2 0x0B05) } 21)) ∧
  (∀ (s : State) (k : Nat) (d : Bytes), s.hw.perstLow = false → unpowered s = false → s.cc.stage = 6 → k ≤ 4 → k = 0 ∨ (sess s k).opened = true → s.ta.anchor = [] → securedDoe s k = false → exec (.setOwner k d) s = .next (raiseEvent { s with resp := .bytes (bytesLE 2 0x0B09) } 21)) ∧
  (∀ (s : State) (k : Nat) (d : Bytes), mainUp s = true → 16 ≤ k → portNamed s (k - 16) = true → 3 ≤ (port s (k - 16)).state → (port s (k - 16)).state ≤ 5 → exec (.setOwner k d) s = .next (kilhar s k (if s.ta.anchor = [] then 0x0B09 else 0x0B05) [])) ∧
  (∀ (s : State) (k f : Nat), s.hw.perstLow = false → unpowered s = false → s.cc.stage = 6 → ownerOn s k = true → (lcNow s).floorLeft ≠ 0 → (lcNow s).floor < f → [1, 2, 3, 4].all (fun l => decide (f ≤ svnOf s l)) = true → lcTaken s 0 = false → Answers (.raiseFloor k f) s fun t => lcNow t = { lcNow s with floor := f, floorLeft := (lcNow s).floorLeft - 1 } ∧ t.resp = .bytes (bytesLE 2 0 ++ lcBytes t) ∧ bit t.cc.intStatus 21 = true ∧ t = raiseEvent (kilhar ((writeLc s 0 f { lcNow s with floor := f, floorLeft := (lcNow s).floorLeft - 1 })) k 0 (lcBytes ((writeLc s 0 f { lcNow s with floor := f, floorLeft := (lcNow s).floorLeft - 1 })))) 21) ∧
  (∀ (s : State) (k f : Nat), s.hw.perstLow = false → unpowered s = false → s.cc.stage = 6 → (lcNow s).floorLeft ≠ 0 → k ≤ 4 → k = 0 ∨ (sess s k).opened = true → (decide (f ≤ (lcNow s).floor) || [1, 2, 3, 4].any fun l => decide (svnOf s l < f)) = true → lcTaken s 0 = false → Answers (.raiseFloor k f) s fun t => t.resp = .bytes (bytesLE 2 0x0B04) ∧ tget 0 t.ta.ctr 4 = satInc (tget 0 s.ta.ctr 4) 1 ∧ bit t.cc.intStatus 21 = true ∧ t = raiseEvent (kilhar (taCount s 4 1) k 0x0B04 []) 21) ∧
  (∀ (s : State) (k f : Nat), s.hw.perstLow = false → unpowered s = false → s.cc.stage = 6 → k ≤ 4 → k = 0 ∨ (sess s k).opened = true → (lcNow s).floorLeft = 0 → lcTaken s 0 = false → Answers (.raiseFloor k f) s fun t => t = raiseEvent (kilhar (taCount s 4 1) k 0x0B03 []) 21) ∧
  (∀ (s : State) (k f : Nat), s.hw.perstLow = false → unpowered s = false → s.cc.stage = 6 → k ≤ 4 → k = 0 ∨ (sess s k).opened = true → (lcNow s).floorLeft ≠ 0 → (lcNow s).floor < f → [1, 2, 3, 4].all (fun l => decide (f ≤ svnOf s l)) = true → ownerOn s k = false → lcTaken s 0 = false → Answers (.raiseFloor k f) s fun t => t = raiseEvent (kilhar (taCount s 4 1) k 0x0B05 []) 21) ∧
  (∀ (s : State) (k f : Nat), mainUp s = true → 16 ≤ k → portNamed s (k - 16) = true → 3 ≤ (port s (k - 16)).state → (port s (k - 16)).state ≤ 5 → lcTaken s 0 = false → Answers (.raiseFloor k f) s fun t => t = kilhar (taCount s 4 1) k (if (lcNow s).floorLeft = 0 then 0x0B03 else if (decide (f ≤ (lcNow s).floor) || [1, 2, 3, 4].any fun l => decide (svnOf s l < f)) then 0x0B04 else 0x0B05) []) ∧
  (∀ (s : State) (k f : Nat), s.hw.perstLow = false → unpowered s = false → s.cc.stage = 6 → k ≤ 4 → k = 0 ∨ (sess s k).opened = true → lcTaken s 0 = true → Answers (.raiseFloor k f) s fun t => t = raiseEvent (kilhar (taCount s 4 1) k 1 []) 21) ∧
  (∀ (s : State) (k f : Nat), mainUp s = true → 16 ≤ k → portNamed s (k - 16) = true → 3 ≤ (port s (k - 16)).state → (port s (k - 16)).state ≤ 5 → lcTaken s 0 = true → Answers (.raiseFloor k f) s fun t => t = kilhar (taCount s 4 1) k 1 []) ∧
  (∀ (s : State) (k : Nat), s.hw.perstLow = false → unpowered s = false → s.cc.stage = 6 → ownerOn s k = true → (lcNow s).epochLeft ≠ 0 → lcTaken s 1 = false → Answers (.raiseEpoch k) s fun t => lcNow t = { lcNow s with idepoch := (lcNow s).idepoch + 1, epochLeft := (lcNow s).epochLeft - 1 } ∧ t.ta.anchor = [] ∧ t.ta.chain1 = [] ∧ t.ta.deliv = [] ∧ t.ta.sealedUnder = ((lcNow s).idepoch + 1, s.ta.debug) ∧ t.resp = .bytes (bytesLE 2 0 ++ lcBytes t) ∧ bit t.cc.intStatus 21 = true ∧ t = raiseEvent (kilhar (zeroiseAll (clearDelivered { (writeLc s 1 ((lcNow s).idepoch + 1) { lcNow s with idepoch := (lcNow s).idepoch + 1, epochLeft := (lcNow s).epochLeft - 1 }) with ta := { (writeLc s 1 ((lcNow s).idepoch + 1) { lcNow s with idepoch := (lcNow s).idepoch + 1, epochLeft := (lcNow s).epochLeft - 1 }).ta with anchor := [], chain1 := [], sealedUnder := ((lcNow s).idepoch + 1, (writeLc s 1 ((lcNow s).idepoch + 1) { lcNow s with idepoch := (lcNow s).idepoch + 1, epochLeft := (lcNow s).epochLeft - 1 }).ta.debug) } })) k 0 (lcBytes (zeroiseAll (clearDelivered { (writeLc s 1 ((lcNow s).idepoch + 1) { lcNow s with idepoch := (lcNow s).idepoch + 1, epochLeft := (lcNow s).epochLeft - 1 }) with ta := { (writeLc s 1 ((lcNow s).idepoch + 1) { lcNow s with idepoch := (lcNow s).idepoch + 1, epochLeft := (lcNow s).epochLeft - 1 }).ta with anchor := [], chain1 := [], sealedUnder := ((lcNow s).idepoch + 1, (writeLc s 1 ((lcNow s).idepoch + 1) { lcNow s with idepoch := (lcNow s).idepoch + 1, epochLeft := (lcNow s).epochLeft - 1 }).ta.debug) } })))) 21) ∧
  (∀ (s : State) (k : Nat), s.hw.perstLow = false → unpowered s = false → s.cc.stage = 6 → k ≤ 4 → ownerOn s k = false → (lcNow s).epochLeft ≠ 0 → k = 0 ∨ (sess s k).opened = true → lcTaken s 1 = false → Answers (.raiseEpoch k) s fun t => t.resp = .bytes (bytesLE 2 0x0B05) ∧ tget 0 t.ta.ctr 4 = satInc (tget 0 s.ta.ctr 4) 1 ∧ bit t.cc.intStatus 21 = true ∧ t = raiseEvent (kilhar (taCount s 4 1) k 0x0B05 []) 21) ∧
  (∀ (s : State) (k : Nat), s.hw.perstLow = false → unpowered s = false → s.cc.stage = 6 → k ≤ 4 → k = 0 ∨ (sess s k).opened = true → (lcNow s).epochLeft = 0 → lcTaken s 1 = false → Answers (.raiseEpoch k) s fun t => t = raiseEvent (kilhar (taCount s 4 1) k 0x0B03 []) 21) ∧
  (∀ (s : State) (k : Nat), mainUp s = true → 16 ≤ k → portNamed s (k - 16) = true → 3 ≤ (port s (k - 16)).state → (port s (k - 16)).state ≤ 5 → lcTaken s 1 = false → Answers (.raiseEpoch k) s fun t => t = kilhar (taCount s 4 1) k (if (lcNow s).epochLeft = 0 then 0x0B03 else 0x0B05) []) ∧
  (∀ (s : State) (k : Nat), s.hw.perstLow = false → unpowered s = false → s.cc.stage = 6 → k ≤ 4 → k = 0 ∨ (sess s k).opened = true → lcTaken s 1 = true → Answers (.raiseEpoch k) s fun t => t = raiseEvent (kilhar (taCount s 4 1) k 1 []) 21) ∧
  (∀ (s : State) (k : Nat), mainUp s = true → 16 ≤ k → portNamed s (k - 16) = true → 3 ≤ (port s (k - 16)).state → (port s (k - 16)).state ≤ 5 → lcTaken s 1 = true → Answers (.raiseEpoch k) s fun t => t = kilhar (taCount s 4 1) k 1 []) ∧
  (∀ (s : State) (k : Nat) (on : Bool), s.hw.perstLow = false → unpowered s = false → s.cc.stage = 6 → ownerOn s k = true → (lcNow s).sealLeft ≠ 0 → lcTaken s 2 = false → Answers (.seal k on) s fun t => (lcNow t).sealed = on ∧ (lcNow t).sealLeft = (lcNow s).sealLeft - 1 ∧ bit t.cc.intStatus 21 = true ∧ (lcNow t).layout = (if on then sm3 (layoutRecord s) else (lcNow s).layout) ∧ t = raiseEvent (kilhar ((writeLc s 2 (b2n on) { lcNow s with sealed := on, sealLeft := (lcNow s).sealLeft - 1, layout := if on then sm3 (layoutRecord s) else (lcNow s).layout })) k 0 (lcBytes ((writeLc s 2 (b2n on) { lcNow s with sealed := on, sealLeft := (lcNow s).sealLeft - 1, layout := if on then sm3 (layoutRecord s) else (lcNow s).layout })))) 21) ∧
  (∀ (s : State) (k : Nat) (on : Bool), s.hw.perstLow = false → unpowered s = false → s.cc.stage = 6 → k ≤ 4 → (lcNow s).sealLeft = 0 → k = 0 ∨ (sess s k).opened = true → lcTaken s 2 = false → Answers (.seal k on) s fun t => t.resp = .bytes (bytesLE 2 0x0B03) ∧ tget 0 t.ta.ctr 4 = satInc (tget 0 s.ta.ctr 4) 1 ∧ bit t.cc.intStatus 21 = true ∧ t = raiseEvent (kilhar (taCount s 4 1) k 0x0B03 []) 21) ∧
  (∀ (s : State) (k : Nat) (on : Bool), s.hw.perstLow = false → unpowered s = false → s.cc.stage = 6 → k ≤ 4 → k = 0 ∨ (sess s k).opened = true → (lcNow s).sealLeft ≠ 0 → ownerOn s k = false → lcTaken s 2 = false → Answers (.seal k on) s fun t => t = raiseEvent (kilhar (taCount s 4 1) k 0x0B05 []) 21) ∧
  (∀ (s : State) (k : Nat) (on : Bool), mainUp s = true → 16 ≤ k → portNamed s (k - 16) = true → 3 ≤ (port s (k - 16)).state → (port s (k - 16)).state ≤ 5 → lcTaken s 2 = false → Answers (.seal k on) s fun t => t = kilhar (taCount s 4 1) k (if (lcNow s).sealLeft = 0 then 0x0B03 else 0x0B05) []) ∧
  (∀ (s : State) (k : Nat) (on : Bool), s.hw.perstLow = false → unpowered s = false → s.cc.stage = 6 → k ≤ 4 → k = 0 ∨ (sess s k).opened = true → lcTaken s 2 = true → Answers (.seal k on) s fun t => t = raiseEvent (kilhar (taCount s 4 1) k 1 []) 21) ∧
  (∀ (s : State) (k : Nat) (on : Bool), mainUp s = true → 16 ≤ k → portNamed s (k - 16) = true → 3 ≤ (port s (k - 16)).state → (port s (k - 16)).state ≤ 5 → lcTaken s 2 = true → Answers (.seal k on) s fun t => t = kilhar (taCount s 4 1) k 1 []) ∧
  (∀ (s : State) (k : Nat) (tok n : Bytes), s.hw.perstLow = false → unpowered s = false → s.cc.stage = 6 → ownerOn s k = true → (lcNow s).debugLeft ≠ 0 → s.tr.comps.all (fun x => decide (x.2.state = 0)) = true → lcTaken s 3 = false → Answers (.debugUnlock k tok n) s fun t => t = if tokenOk s tok n then raiseEvent (kilhar ((writeLc s 3 1 { lcNow s with debugNext := true, debugLeft := (lcNow s).debugLeft - 1 })) k 0 (lcBytes ((writeLc s 3 1 { lcNow s with debugNext := true, debugLeft := (lcNow s).debugLeft - 1 })))) 21 else raiseEvent (kilhar (taCount s 4 1) k 0x0B07 []) 21) ∧
  (∀ (s : State) (k : Nat) (tok n : Bytes), s.hw.perstLow = false → unpowered s = false → s.cc.stage = 6 → ownerOn s k = true → (lcNow s).debugLeft ≠ 0 → s.tr.comps.any (fun x => decide (x.2.state ≠ 0)) = true → lcTaken s 3 = false → Answers (.debugUnlock k tok n) s fun t => t.resp = .bytes (bytesLE 2 0x0B07) ∧ tget 0 t.ta.ctr 4 = satInc (tget 0 s.ta.ctr 4) 1 ∧ bit t.cc.intStatus 21 = true ∧ t = raiseEvent (kilhar (taCount s 4 1) k 0x0B07 []) 21) ∧
  (∀ (s : State) (k : Nat) (tok n : Bytes), s.hw.perstLow = false → unpowered s = false → s.cc.stage = 6 → k ≤ 4 → k = 0 ∨ (sess s k).opened = true → (lcNow s).debugLeft = 0 ∨ ownerOn s k = false → lcTaken s 3 = false → Answers (.debugUnlock k tok n) s fun t => t = raiseEvent (kilhar (taCount s 4 1) k (if (lcNow s).debugLeft = 0 then 0x0B03 else 0x0B05) []) 21) ∧
  (∀ (s : State) (k : Nat) (tok n : Bytes), mainUp s = true → 16 ≤ k → portNamed s (k - 16) = true → 3 ≤ (port s (k - 16)).state → (port s (k - 16)).state ≤ 5 → lcTaken s 3 = false → Answers (.debugUnlock k tok n) s fun t => t = kilhar (taCount s 4 1) k (if (lcNow s).debugLeft = 0 then 0x0B03 else 0x0B05) []) ∧
  (∀ (s : State) (k : Nat) (tok n : Bytes), s.hw.perstLow = false → unpowered s = false → s.cc.stage = 6 → k ≤ 4 → k = 0 ∨ (sess s k).opened = true → lcTaken s 3 = true → Answers (.debugUnlock k tok n) s fun t => t = raiseEvent (kilhar (taCount s 4 1) k 1 []) 21) ∧
  (∀ (s : State) (k : Nat) (tok n : Bytes), mainUp s = true → 16 ≤ k → portNamed s (k - 16) = true → 3 ≤ (port s (k - 16)).state → (port s (k - 16)).state ≤ 5 → lcTaken s 3 = true → Answers (.debugUnlock k tok n) s fun t => t = kilhar (taCount s 4 1) k 1 []) ∧
  (∀ (s : State) (k : Nat), s.hw.perstLow = false → unpowered s = false → s.cc.stage = 6 → k ≤ 4 → k = 0 ∨ (sess s k).opened = true → exec (.getLc k) s = .next (raiseEvent { s with resp := .bytes (bytesLE 2 0 ++ lcBytes s) } 21)) ∧
  (∀ (s : State) (k : Nat), mainUp s = true → 16 ≤ k → portNamed s (k - 16) = true → 3 ≤ (port s (k - 16)).state → (port s (k - 16)).state ≤ 5 → exec (.getLc k) s = .next (kilhar s k 0 (lcBytes s))) ∧
  (∀ (s : State) (k c mode e : Nat) (m : Bytes), s.hw.perstLow = false → unpowered s = false → s.cc.stage = 6 → k ≤ 4 → securedOn s k = true → c ≤ 65535 → mode ≤ 1 → m.length = (if mode = 1 then 48 else 32) → (List.range 256).find? (fun e => !(tget {} s.ta.deliv e).used) = some e → Answers (.deliverKey k c mode m) s fun t => tget {} t.ta.deliv e = { used := true, tenant := c, sealedMode := decide (mode = 1), owner := 0xFFFF, material := m, serial := (s.ta.serial + 1) % 2 ^ 24, session := k, time := s.now } ∧ t.ta.serial = (s.ta.serial + 1) % 2 ^ 24 ∧ t.resp = .bytes (bytesLE 2 0 ++ bytesLE 4 (e + t.ta.serial * 256)) ∧ tget 0 t.ta.ctr 2 = satInc (tget 0 s.ta.ctr 2) 1 ∧ bit t.cc.intStatus 21 = true ∧ t = raiseEvent (kilhar (taCount { s with ta := { s.ta with deliv := tput {} s.ta.deliv e { used := true, tenant := c, sealedMode := decide (mode = 1), owner := 0xFFFF, material := m, serial := (s.ta.serial + 1) % 2 ^ 24, session := k, time := s.now }, serial := (s.ta.serial + 1) % 2 ^ 24 } } 2 1) k 0 (bytesLE 4 (e + (s.ta.serial + 1) % 2 ^ 24 * 256))) 21) ∧
  (∀ (s : State) (k c mode : Nat) (m : Bytes), s.hw.perstLow = false → unpowered s = false → s.cc.stage = 6 → c ≤ 65535 → mode ≤ 1 → m.length = (if mode = 1 then 48 else 32) → k ≤ 4 → k = 0 ∨ (sess s k).opened = true → securedOn s k = false → ((List.range 256).find? (fun e => !(tget {} s.ta.deliv e).used)).isSome = true → exec (.deliverKey k c mode m) s = .next (raiseEvent { s with resp := .bytes (bytesLE 2 0x0B09) } 21)) ∧
  (∀ (s : State) (k c mode : Nat) (m : Bytes), s.hw.perstLow = false → unpowered s = false → s.cc.stage = 6 → k ≤ 4 → k = 0 ∨ (sess s k).opened = true → 1 < mode ∨ 65535 < c ∨ m.length ≠ (if mode = 1 then 48 else 32) → exec (.deliverKey k c mode m) s = .next (raiseEvent { s with resp := .bytes (bytesLE 2 4) } 21)) ∧
  (∀ (s : State) (k c mode : Nat) (m : Bytes), s.hw.perstLow = false → unpowered s = false → s.cc.stage = 6 → k ≤ 4 → k = 0 ∨ (sess s k).opened = true → ¬ (1 < mode ∨ 65535 < c ∨ m.length ≠ (if mode = 1 then 48 else 32)) → (List.range 256).find? (fun e => !(tget {} s.ta.deliv e).used) = none → exec (.deliverKey k c mode m) s = .next (raiseEvent { s with resp := .bytes (bytesLE 2 0x0B08) } 21)) ∧
  (∀ (s : State) (k c mode e : Nat) (m : Bytes), mainUp s = true → 16 ≤ k → portNamed s (k - 16) = true → 3 ≤ (port s (k - 16)).state → (port s (k - 16)).state ≤ 5 → securedOn s k = true → c ≤ 65535 → mode ≤ 1 → m.length = (if mode = 1 then 48 else 32) → (List.range 256).find? (fun e => !(tget {} s.ta.deliv e).used) = some e → Answers (.deliverKey k c mode m) s fun t => (tget {} t.ta.deliv e).owner = (port s (k - 16)).peerId ∧ t = kilhar (taCount { s with ta := { s.ta with deliv := tput {} s.ta.deliv e { used := true, tenant := c, sealedMode := decide (mode = 1), owner := (port s (k - 16)).peerId, material := m, serial := (s.ta.serial + 1) % 2 ^ 24, session := k, time := s.now }, serial := (s.ta.serial + 1) % 2 ^ 24 } } 2 1) k 0 (bytesLE 4 (e + (s.ta.serial + 1) % 2 ^ 24 * 256))) ∧
  (∀ (s : State) (k c mode : Nat) (m : Bytes), mainUp s = true → 16 ≤ k → portNamed s (k - 16) = true → 3 ≤ (port s (k - 16)).state → (port s (k - 16)).state ≤ 5 → securedOn s k = false ∨ 1 < mode ∨ 65535 < c ∨ m.length ≠ (if mode = 1 then 48 else 32) ∨ ((List.range 256).find? fun e => !(tget {} s.ta.deliv e).used) = none → Answers (.deliverKey k c mode m) s fun t => t = kilhar s k (if 1 < mode ∨ 65535 < c ∨ m.length ≠ (if mode = 1 then 48 else 32) then 4 else if ((List.range 256).find? fun e => !(tget {} s.ta.deliv e).used) = none then 0x0B08 else 0x0B09) []) ∧
  (∀ (s : State) (k ref : Nat), s.hw.perstLow = false → unpowered s = false → s.cc.stage = 6 → k ≤ 4 → securedOn s k = true → (deliveredOf s ref).used = true → (deliveredOf s ref).serial = ref / 256 → (deliveredOf s ref).session = k → Answers (.discardKey k ref) s fun t => t.resp = .bytes (bytesLE 2 0) ∧ tget {} t.ta.deliv (ref % 256) = {} ∧ bit t.cc.intStatus 21 = true ∧ t = raiseEvent (kilhar ({ s with ta := { s.ta with deliv := tput {} s.ta.deliv (ref % 256) {} } }) k 0 []) 21) ∧
  (∀ (s : State) (k ref : Nat), s.hw.perstLow = false → unpowered s = false → s.cc.stage = 6 → k ≤ 4 → k = 0 ∨ (sess s k).opened = true → (deliveredOf s ref).used = false ∨ (deliveredOf s ref).serial ≠ ref / 256 → exec (.discardKey k ref) s = .next (raiseEvent { s with resp := .bytes (bytesLE 2 0x0B01) } 21)) ∧
  (∀ (s : State) (k ref : Nat), s.hw.perstLow = false → unpowered s = false → s.cc.stage = 6 → k ≤ 4 → k = 0 ∨ (sess s k).opened = true → (deliveredOf s ref).used = true → (deliveredOf s ref).serial = ref / 256 → securedOn s k = false ∨ (deliveredOf s ref).session ≠ k → exec (.discardKey k ref) s = .next (raiseEvent { s with resp := .bytes (bytesLE 2 0x0B09) } 21)) ∧
  (∀ (s : State) (k ref : Nat), mainUp s = true → 16 ≤ k → portNamed s (k - 16) = true → 3 ≤ (port s (k - 16)).state → (port s (k - 16)).state ≤ 5 → securedOn s k = true → (deliveredOf s ref).used = true → (deliveredOf s ref).serial = ref / 256 → (deliveredOf s ref).session = k → Answers (.discardKey k ref) s fun t => tget {} t.ta.deliv (ref % 256) = {} ∧ t = kilhar { s with ta := { s.ta with deliv := tput {} s.ta.deliv (ref % 256) {} } } k 0 []) ∧
  (∀ (s : State) (k ref : Nat), mainUp s = true → 16 ≤ k → portNamed s (k - 16) = true → 3 ≤ (port s (k - 16)).state → (port s (k - 16)).state ≤ 5 → (deliveredOf s ref).used = false ∨ (deliveredOf s ref).serial ≠ ref / 256 ∨ securedOn s k = false ∨ (deliveredOf s ref).session ≠ k → Answers (.discardKey k ref) s fun t => t = kilhar s k (if (deliveredOf s ref).used = false ∨ (deliveredOf s ref).serial ≠ ref / 256 then 0x0B01 else 0x0B09) []) ∧
  (∀ (s : State) (e : Nat), (tget {} s.ta.deliv e).used = true → (tget {} s.ta.deliv e).time + 60000000000 ≤ s.now → Answers (.deliveredKeyExpiry e) s fun t => tget {} t.ta.deliv e = {} ∧ tget 0 t.ta.ctr 3 = satInc (tget 0 s.ta.ctr 3) 1 ∧ t = taCount { s with ta := { s.ta with deliv := tput {} s.ta.deliv e {} } } 3 1) ∧
  (∀ (s : State) (e : Nat), (tget {} s.ta.deliv e).used = false ∨ s.now < (tget {} s.ta.deliv e).time + 60000000000 → exec (.deliveredKeyExpiry e) s = .next (s)) ∧
  (∀ (s : State) (k c start : Nat) (nonce : Bytes), s.hw.perstLow = false → unpowered s = false → s.cc.stage = 6 → k ≤ 4 → k = 0 ∨ (sess s k).opened = true → c = 0xFFFF ∨ (c < 4096 ∧ (comp s c).state ≠ 0) → start ≤ 65535 → Answers (.getReport k nonce c start) s fun t => t = raiseEvent (kilhar (taCount s 0 1) k 0 (report (taCount s 0 1) c start nonce)) 21) ∧
  (∀ (s : State) (k c start : Nat) (nonce : Bytes), s.hw.perstLow = false → unpowered s = false → s.cc.stage = 6 → k ≤ 4 → k = 0 ∨ (sess s k).opened = true → c < 4096 → (comp s c).state = 0 → exec (.getReport k nonce c start) s = .next (raiseEvent { s with resp := .bytes (bytesLE 2 8) } 21)) ∧
  (∀ (s : State) (k c start : Nat) (nonce : Bytes), s.hw.perstLow = false → unpowered s = false → s.cc.stage = 6 → k ≤ 4 → k = 0 ∨ (sess s k).opened = true → ¬ (c < 4096 ∧ (comp s c).state = 0) → (c ≠ 0xFFFF ∧ 4095 < c) ∨ 65535 < start → exec (.getReport k nonce c start) s = .next (raiseEvent { s with resp := .bytes (bytesLE 2 4) } 21)) ∧
  (∀ (s : State) (k c start : Nat) (nonce : Bytes), mainUp s = true → 16 ≤ k → portNamed s (k - 16) = true → 3 ≤ (port s (k - 16)).state → (port s (k - 16)).state ≤ 5 → c < 4096 → (comp s c).state ≠ 0 → start ≤ 65535 → memberOf s c (port s (k - 16)).peerId = true → Answers (.getReport k nonce c start) s fun t => t = kilhar (taCount s 0 1) k 0 (report (taCount s 0 1) c start nonce)) ∧
  (∀ (s : State) (k c start : Nat) (nonce : Bytes), mainUp s = true → 16 ≤ k → portNamed s (k - 16) = true → 3 ≤ (port s (k - 16)).state → (port s (k - 16)).state ≤ 5 → start ≤ 65535 → c = 0xFFFF ∨ (c < 4096 ∧ (comp s c).state ≠ 0 ∧ memberOf s c (port s (k - 16)).peerId = false) → Answers (.getReport k nonce c start) s fun t => t = kilhar s k 0x0B05 [])

/-- Drain, cleaning, wear levelling, page rewrites, failed packages and the hold-up bank. A drain takes bytes from dirty staging and counts them. Relocated records cost dirty staging and are counted. A wear-levelling move counts, sets the erase counts of the pair's packages in service and retires a worn block. A page read counts its retries, its mirror and its cache miss, and an old or weak page is stamped anew; a read whose retries or whose miss do not fit the state changes nothing. A failed package is out of service and its pair degraded. A new measurement of the bank, and its first full charge, set the effective limit, what it needs and the low flag. -/
def Obligations.VaultServiceCommands : Prop :=
  (∀ (s : State) (n : Nat), mainUp s = true → s.lv.flushCause = 0 → Answers (.dirtyDrain n) s fun t => t.lv.dirty = s.lv.dirty - n ∧ tget 0 t.lv.ctr 4 = satInc (tget 0 s.lv.ctr 4) (min n s.lv.dirty) ∧ t = freeSegs (lvCount { s with lv := { s.lv with dirty := s.lv.dirty - min n s.lv.dirty } } 4 (min n s.lv.dirty))) ∧
  (∀ (s : State) (r : JRec) (l : List Nat), mainUp s = true → s.lv.flushCause = 0 → l.head?.bind (findRec s) = some r → relocatable s r.seg l = true → Answers (.segmentRelocate l) s fun t => t.lv.dirty = s.lv.dirty + 64 * recEntries (segRecs s r.seg) ∧ tget 0 t.lv.ctr 9 = satInc (tget 0 s.lv.ctr 9) l.length ∧ t = lvCount (moveSeg s r.seg) 9 l.length) ∧
  (∀ (s : State) (l : List Nat), mainUp s = true → s.lv.flushCause = 0 → l.head?.bind (findRec s) = none → exec (.segmentRelocate l) s = .next (s)) ∧
  (∀ (s : State) (r : JRec) (l : List Nat), l.head?.bind (findRec s) = some r → relocatable s r.seg l = false → exec (.segmentRelocate l) s = .next (s)) ∧
  (∀ (s : State) (k a b : Nat), mainUp s = true → s.lv.flushCause = 0 → k < 8 → s.lv.imgWriting = none → (nandPkg s k).state = 0 → (nandPkg s k).eMin + s.lv.wlSpread < (nandPkg s k).eMax → Answers (.wearLevelMove k a b) s fun t => (nandPkg t k).eMin = min a 65535 ∧ (nandPkg t k).eMax = min b 65535 ∧ tget 0 t.lv.ctr 7 = satInc (tget 0 s.lv.ctr 7) 1 ∧ t = lvCount (wearPackage (wearPackage s (k % 4) a b) (k % 4 + 4) a b) 7 1) ∧
  (∀ (s : State) (k a b : Nat), 8 ≤ k ∨ s.lv.imgWriting ≠ none ∨ (nandPkg s k).state ≠ 0 ∨ (nandPkg s k).eMax ≤ (nandPkg s k).eMin + s.lv.wlSpread → exec (.wearLevelMove k a b) s = .next (s)) ∧
  (∀ (s : State) (k a b : Nat), mainUp s = true → s.lv.flushCause = 0 → k < 8 → s.lv.imgWriting = none → (nandPkg s k).state = 0 → (nandPkg s k).eMin + s.lv.wlSpread < (nandPkg s k).eMax → 60000 ≤ b → (nandPkg s k).spare = 0 → Answers (.wearLevelMove k a b) s fun t => (nandPkg t k).state = 1 ∧ s.lv.nandDegraded ||| 2 ^ (k % 4) ||| t.lv.nandDegraded = t.lv.nandDegraded ∧ t = lvCount (wearPackage (wearPackage s (k % 4) a b) (k % 4 + 4) a b) 7 1) ∧
  (∀ (s : State) (p temp r : Nat) (weak mi ms : Bool), mainUp s = true → s.lv.flushCause = 0 → p < 25165824 → r ≤ (retryBins (pageAge s p)).length → mi = false ∨ r = (retryBins (pageAge s p)).length → weak = true ∨ 13 ≤ pageAge s p → ms = mapMisses s p → Answers (.pageRewrite p temp weak r mi ms) s fun t => (tget (0, 0) t.lv.pages p).2 = temp ∧ tget 0 t.lv.ctr 5 = satInc (tget 0 s.lv.ctr 5) (if r = 0 then 0 else 1) ∧ tget 0 t.lv.ctr 6 = satInc (tget 0 s.lv.ctr 6) (b2n mi) ∧ t = rewritePage (readPage s p r mi) p temp) ∧
  (∀ (s : State) (p temp r : Nat) (mi ms : Bool), mainUp s = true → s.lv.flushCause = 0 → p < 25165824 → r ≤ (retryBins (pageAge s p)).length → mi = false ∨ r = (retryBins (pageAge s p)).length → pageAge s p ≤ 12 → ms = mapMisses s p → Answers (.pageRewrite p temp false r mi ms) s fun t => t.lv.pages = s.lv.pages ∧ tget 0 t.lv.ctr 5 = satInc (tget 0 s.lv.ctr 5) (if r = 0 then 0 else 1) ∧ t = readPage s p r mi) ∧
  (∀ (s : State) (p temp r : Nat) (weak mi ms : Bool), 25165824 ≤ p ∨ ms ≠ mapMisses s p ∨ (retryBins (pageAge s p)).length < r ∨ (mi = true ∧ r ≠ (retryBins (pageAge s p)).length) → exec (.pageRewrite p temp weak r mi ms) s = .next (s)) ∧
  (∀ (s : State) (n : Nat), n < 2 → Answers (.lpddrPackageFail n) s fun t => t.lv.lpddrFail = s.lv.lpddrFail ||| 2 ^ n ∧ t = unpend { s with lv := { s.lv with lpddrFail := s.lv.lpddrFail ||| 2 ^ n } } (10 * 256 + n)) ∧
  (∀ (s : State) (k : Nat), k < 8 → Answers (.nandPackageFail k) s fun t => nandPkg t k = { nandPkg s k with state := 1 } ∧ t.lv.nandDegraded = s.lv.nandDegraded ||| 2 ^ (k % 4) ∧ t = nandOut s k) ∧
  (∀ (s : State) (u : Nat), Answers (.holdupMeasure u) s fun t => t.lv.usable = u ∧ t.lv.dirtyEff = effOf u s.lv.dirtyMax ∧ t.lv.need = needOf t.lv.dirtyEff ∧ t.lv.holdupLow = (s.lv.charging || flushExceeds 64 u) ∧ t = applyHoldup { s with lv := { s.lv with usable := u } }) ∧
  (∀ (s : State), s.lv.charging = true → flushExceeds 64 s.lv.usable = false → Answers (.holdupCharged) s fun t => t.lv.charging = false ∧ t.lv.dirtyEff = effOf s.lv.usable s.lv.dirtyMax ∧ t.lv.need = needOf t.lv.dirtyEff ∧ t.lv.holdupLow = false ∧ t = applyHoldup { s with lv := { s.lv with charging := false } }) ∧
  (∀ (s : State), s.lv.charging = false ∨ flushExceeds 64 s.lv.usable = true → exec (.holdupCharged) s = .next (s))

/-- LV_POLICY of each form, and the writes it starts. A COMMIT of LV_POLICY whose checks pass writes the limits, the record table, or starts the firmware image write or the export, shown by state 1 of its status word; an image of a bad header, limits out of range, above what the bank covers or crossed are refused with their code. The image write's end frees the pages' owner and puts the image into the inactive slot, named in the boot record when it verifies; the export's end writes its records, or keeps the failure's code. A signature's verdict is a free value, so both outcomes of it are stated. -/
def Obligations.VaultPolicyCommands : Prop :=
  (∀ (s : State) (cs : Nat) (d : List W64), Presents s cs 0xF6 d → df d 0 0 2 = 0 → enableOf d = true → Fresh s cs 0xF6 (stampKey okLvPolicy 0) → (ctl s cs).priv = 1 → reservedSet d lvMasks = false → 64 ≤ df d 1 0 16 → df d 1 0 16 < df d 1 16 16 → df d 1 16 16 ≤ 1024 → 16 ≤ df d 1 32 16 → df d 1 32 16 ≤ 4096 → flushExceeds (df d 1 16 16) s.lv.usable = false → Answers (.commitLvLimits cs) s fun t => Committed s t cs 0 (statusWord (lvStatus t 0)) ∧ lvStatus t 0 = accepted (lvStatus s 0) ∧ t.lv.dirtyHigh = df d 1 0 16 ∧ t.lv.dirtyMax = df d 1 16 16 ∧ t.lv.wlSpread = df d 1 32 16 ∧ t.lv.dirtyEff = effOf s.lv.usable t.lv.dirtyMax ∧ t.lv.need = needOf t.lv.dirtyEff ∧ t = ctlComplete (grantCommit (applyHoldup { (setLvStatus s 0 (accepted (lvStatus s 0))) with lv := { (setLvStatus s 0 (accepted (lvStatus s 0))).lv with dirtyHigh := df d 1 0 16, dirtyMax := df d 1 16 16, wlSpread := df d 1 32 16 } }) cs 0xF6 ((stampKey okLvPolicy 0))) cs 0 (some (statusWord (lvStatus t 0))) (some (stampKey okLvPolicy 0)) 64) ∧
  (∀ (s : State) (cs : Nat) (d : List W64), Presents s cs 0xF6 d → df d 0 0 2 = 0 → enableOf d = false → Fresh s cs 0xF6 (stampKey okLvPolicy 0) → Answers (.commitLvLimits cs) s fun t => Completed s t cs 0 ∧ t = ctlComplete (grantCommit s cs 0xF6 ((stampKey okLvPolicy 0))) cs 0 (some (statusWord (lvStatus s 0))) none 64) ∧
  (∀ (s : State) (cs : Nat) (d : List W64), Presents s cs 0xF6 d → df d 0 0 2 = 0 → enableOf d = true → Fresh s cs 0xF6 (stampKey okLvPolicy 0) → (ctl s cs).priv = 1 → reservedSet d lvMasks = false → 64 ≤ df d 1 0 16 → df d 1 0 16 ≤ 1024 → 64 ≤ df d 1 16 16 → df d 1 16 16 ≤ 1024 → 16 ≤ df d 1 32 16 → df d 1 32 16 ≤ 4096 → flushExceeds (df d 1 16 16) s.lv.usable = true → Answers (.commitLvLimits cs) s fun t => Completed s t cs 0x0C01 ∧ lvStatus t 0 = refused (lvStatus s 0) 0x0C01 ∧ t = ctlComplete (grantCommit (setLvStatus s 0 (refused (lvStatus s 0) 0x0C01)) cs 0xF6 ((stampKey okLvPolicy 0))) cs 0x0C01 (some (statusWord (refused (lvStatus s 0) 0x0C01))) none 64) ∧
  (∀ (s : State) (cs : Nat) (d : List W64), Presents s cs 0xF6 d → df d 0 0 2 = 0 → enableOf d = true → Fresh s cs 0xF6 (stampKey okLvPolicy 0) → (ctl s cs).priv = 1 → reservedSet d lvMasks = false → 64 ≤ df d 1 16 16 → df d 1 16 16 ≤ df d 1 0 16 → df d 1 0 16 ≤ 1024 → 16 ≤ df d 1 32 16 → df d 1 32 16 ≤ 4096 → flushExceeds (df d 1 16 16) s.lv.usable = false → Answers (.commitLvLimits cs) s fun t => Completed s t cs 0x0C02 ∧ lvStatus t 0 = refused (lvStatus s 0) 0x0C02 ∧ t = ctlComplete (grantCommit (setLvStatus s 0 (refused (lvStatus s 0) 0x0C02)) cs 0xF6 ((stampKey okLvPolicy 0))) cs 0x0C02 (some (statusWord (refused (lvStatus s 0) 0x0C02))) none 64) ∧
  (∀ (s : State) (cs : Nat) (d : List W64), Presents s cs 0xF6 d → df d 0 0 2 = 0 → enableOf d = true → Fresh s cs 0xF6 (stampKey okLvPolicy 0) → (ctl s cs).priv = 1 → reservedSet d lvMasks = false → ¬ ((64 ≤ df d 1 0 16 ∧ df d 1 0 16 ≤ 1024) ∧ (64 ≤ df d 1 16 16 ∧ df d 1 16 16 ≤ 1024) ∧ 16 ≤ df d 1 32 16 ∧ df d 1 32 16 ≤ 4096) → Answers (.commitLvLimits cs) s fun t => Completed s t cs 4 ∧ t = ctlComplete (grantCommit (setLvStatus s 0 (refused (lvStatus s 0) 4)) cs 0xF6 ((stampKey okLvPolicy 0))) cs 4 (some (statusWord (refused (lvStatus s 0) 4))) none 64) ∧
  (∀ (s : State) (cs : Nat) (d : List W64), Presents s cs 0xF6 d → df d 0 0 2 = 0 → enableOf d = true → Fresh s cs 0xF6 (stampKey okLvPolicy 0) → (ctl s cs).priv = 1 → reservedSet d lvMasks = true → Answers (.commitLvLimits cs) s fun t => Completed s t cs 9 ∧ t = ctlComplete (grantCommit (setLvStatus s 0 (refused (lvStatus s 0) 9)) cs 0xF6 ((stampKey okLvPolicy 0))) cs 9 (some (statusWord (refused (lvStatus s 0) 9))) none 64) ∧
  (∀ (s : State) (cs : Nat) (d : List W64), Presents s cs 0xF6 d → df d 0 0 2 = 0 → enableOf d = true → Fresh s cs 0xF6 (stampKey okLvPolicy 0) → (ctl s cs).priv ≠ 1 → Answers (.commitLvLimits cs) s fun t => Completed s t cs 3 ∧ t = ctlComplete (grantCommit (setLvStatus s 0 (refused (lvStatus s 0) 3)) cs 0xF6 ((stampKey okLvPolicy 0))) cs 3 (some (statusWord (refused (lvStatus s 0) 3))) none 64) ∧
  (∀ (s : State) (cs : Nat) (d : List W64), Presents s cs 0xF6 d → df d 0 0 2 = 1 → enableOf d = true → Fresh s cs 0xF6 (stampKey okLvPolicy 1) → (ctl s cs).priv = 1 → s.lv.imgWriting = none → reservedSet d lvMasks = false → 1 ≤ df d 0 8 3 → df d 0 8 3 ≤ 4 → df d 1 0 60 % 4096 = 0 → df d 2 0 32 ≤ 67108864 → headerOk s (df d 0 8 3) (bulkRead s (df d 1 0 60) (df d 2 0 32)) = true → sourceOk s (df d 1 0 60) (df d 2 0 32) = true → Answers (.commitLvImage cs) s fun t => Committed s t cs 0 (statusWord (lvStatus t 1)) ∧ lvStatus t 1 = { enabled := true, checking := (lvStatus s 1).checking, draining := (lvStatus s 1).draining, owner := writeState 1 0 } ∧ t.lv.imgWriting = some (df d 0 8 3, df d 1 0 60, df d 2 0 32) ∧ t = ctlComplete (grantCommit ({ (setLvStatus (setLvStatus s 1 (accepted (lvStatus s 1))) 1 { lvStatus (setLvStatus s 1 (accepted (lvStatus s 1))) 1 with owner := writeState 1 0 }) with lv := { (setLvStatus (setLvStatus s 1 (accepted (lvStatus s 1))) 1 { lvStatus (setLvStatus s 1 (accepted (lvStatus s 1))) 1 with owner := writeState 1 0 }).lv with imgWriting := some (df d 0 8 3, df d 1 0 60, df d 2 0 32) } }) cs 0xF6 ((stampKey okLvPolicy 1))) cs 0 (some (statusWord (lvStatus t 1))) (some (stampKey okLvPolicy 1)) 64) ∧
  (∀ (s : State) (cs : Nat) (d : List W64), Presents s cs 0xF6 d → df d 0 0 2 = 1 → enableOf d = false → Fresh s cs 0xF6 (stampKey okLvPolicy 1) → Answers (.commitLvImage cs) s fun t => Completed s t cs 0 ∧ t = ctlComplete (grantCommit s cs 0xF6 ((stampKey okLvPolicy 1))) cs 0 (some (statusWord (lvStatus s 1))) none 64) ∧
  (∀ (s : State) (cs : Nat) (d : List W64), Presents s cs 0xF6 d → df d 0 0 2 = 1 → enableOf d = true → Fresh s cs 0xF6 (stampKey okLvPolicy 1) → (ctl s cs).priv = 1 → s.lv.imgWriting = none → reservedSet d lvMasks = false → 1 ≤ df d 0 8 3 → df d 0 8 3 ≤ 4 → df d 1 0 60 % 4096 = 0 → df d 2 0 32 ≤ 67108864 → headerOk s (df d 0 8 3) (bulkRead s (df d 1 0 60) (df d 2 0 32)) = false → Answers (.commitLvImage cs) s fun t => Completed s t cs 0x0C03 ∧ lvStatus t 1 = refused (lvStatus s 1) 0x0C03 ∧ t = ctlComplete (grantCommit (setLvStatus s 1 (refused (lvStatus s 1) 0x0C03)) cs 0xF6 ((stampKey okLvPolicy 1))) cs 0x0C03 (some (statusWord (refused (lvStatus s 1) 0x0C03))) none 64) ∧
  (∀ (s : State) (cs : Nat) (d : List W64), Presents s cs 0xF6 d → df d 0 0 2 = 1 → enableOf d = true → Fresh s cs 0xF6 (stampKey okLvPolicy 1) → (ctl s cs).priv = 1 → s.lv.imgWriting = none → reservedSet d lvMasks = false → ¬ (1 ≤ df d 0 8 3 ∧ df d 0 8 3 ≤ 4) ∨ df d 1 0 60 % 4096 ≠ 0 ∨ 67108864 < df d 2 0 32 → Answers (.commitLvImage cs) s fun t => Completed s t cs 4 ∧ t = ctlComplete (grantCommit (setLvStatus s 1 (refused (lvStatus s 1) 4)) cs 0xF6 ((stampKey okLvPolicy 1))) cs 4 (some (statusWord (refused (lvStatus s 1) 4))) none 64) ∧
  (∀ (s : State) (cs : Nat) (d : List W64), Presents s cs 0xF6 d → df d 0 0 2 = 1 → enableOf d = true → Fresh s cs 0xF6 (stampKey okLvPolicy 1) → (ctl s cs).priv = 1 → s.lv.imgWriting ≠ none → Answers (.commitLvImage cs) s fun t => Completed s t cs 1 ∧ t = ctlComplete (grantCommit (setLvStatus s 1 (refused (lvStatus s 1) 1)) cs 0xF6 ((stampKey okLvPolicy 1))) cs 1 (some (statusWord (refused (lvStatus s 1) 1))) none 64) ∧
  (∀ (s : State) (cs : Nat) (d : List W64), Presents s cs 0xF6 d → df d 0 0 2 = 1 → enableOf d = true → Fresh s cs 0xF6 (stampKey okLvPolicy 1) → (ctl s cs).priv = 1 → s.lv.imgWriting = none → reservedSet d lvMasks = false → 1 ≤ df d 0 8 3 → df d 0 8 3 ≤ 4 → df d 1 0 60 % 4096 = 0 → df d 2 0 32 ≤ 67108864 → headerOk s (df d 0 8 3) (bulkRead s (df d 1 0 60) (df d 2 0 32)) = true → sourceOk s (df d 1 0 60) (df d 2 0 32) = false → Answers (.commitLvImage cs) s fun t => Completed s t cs 0x0C04 ∧ t = ctlComplete (grantCommit (setLvStatus s 1 (refused (lvStatus s 1) 0x0C04)) cs 0xF6 ((stampKey okLvPolicy 1))) cs 0x0C04 (some (statusWord (refused (lvStatus s 1) 0x0C04))) none 64) ∧
  (∀ (s : State) (layer off len : Nat), mainUp s = true → s.lv.flushCause = 0 → s.lv.imgWriting = some (layer, off, len) → Answers (.lvImageWriteEnd) s fun t => t = flipPages (setLvStatus (writeImage { s with lv := { s.lv with imgWriting := none } } layer (bulkRead s off len)) 1 { lvStatus (writeImage { s with lv := { s.lv with imgWriting := none } } layer (bulkRead s off len)) 1 with owner := if (headerOk s layer (bulkRead s off len) && imageVerifies (bulkRead s off len)) then writeState 2 0 else writeState 3 0x06 }) off len) ∧
  (∀ (s : State), s.lv.imgWriting = none → exec (.lvImageWriteEnd) s = .next (s)) ∧
  (∀ (s : State) (cs : Nat) (d : List W64), Presents s cs 0xF6 d → df d 0 0 2 = 2 → enableOf d = true → Fresh s cs 0xF6 (stampKey okLvPolicy 2) → (ctl s cs).priv = 1 → reservedSet d lvMasks = false → df d 1 0 60 % 4096 = 0 → sourceOk s (df d 1 0 60) 128 = true → Answers (.commitLvRtable cs) s fun t => Committed s t cs 0 (statusWord (lvStatus t 2)) ∧ ∀ a : Fin 16, tget 0 t.lv.rtable a.val = wd (bytesWords 16 (bulkRead s (df d 1 0 60) 128)) a.val ∧ t = ctlComplete (grantCommit ({ (setLvStatus s 2 (accepted (lvStatus s 2))) with lv := { (setLvStatus s 2 (accepted (lvStatus s 2))).lv with rtable := (List.range 16).foldl (fun r a => tput 0 r a (wd (bytesWords 16 (bulkRead s (df d 1 0 60) 128)) a)) s.lv.rtable } }) cs 0xF6 ((stampKey okLvPolicy 2))) cs 0 (some (statusWord (lvStatus t 2))) (some (stampKey okLvPolicy 2)) 64) ∧
  (∀ (s : State) (cs : Nat) (d : List W64), Presents s cs 0xF6 d → df d 0 0 2 = 2 → enableOf d = false → Fresh s cs 0xF6 (stampKey okLvPolicy 2) → Answers (.commitLvRtable cs) s fun t => Completed s t cs 0 ∧ t = ctlComplete (grantCommit s cs 0xF6 ((stampKey okLvPolicy 2))) cs 0 (some (statusWord (lvStatus s 2))) none 64) ∧
  (∀ (s : State) (cs : Nat) (d : List W64), Presents s cs 0xF6 d → df d 0 0 2 = 2 → enableOf d = true → Fresh s cs 0xF6 (stampKey okLvPolicy 2) → (ctl s cs).priv = 1 → reservedSet d lvMasks = false → df d 1 0 60 % 4096 = 0 → sourceOk s (df d 1 0 60) 128 = false → Answers (.commitLvRtable cs) s fun t => Completed s t cs 0x0C04 ∧ lvStatus t 2 = refused (lvStatus s 2) 0x0C04 ∧ t = ctlComplete (grantCommit (setLvStatus s 2 (refused (lvStatus s 2) 0x0C04)) cs 0xF6 ((stampKey okLvPolicy 2))) cs 0x0C04 (some (statusWord (refused (lvStatus s 2) 0x0C04))) none 64) ∧
  (∀ (s : State) (cs : Nat) (d : List W64), Presents s cs 0xF6 d → df d 0 0 2 = 2 → enableOf d = true → Fresh s cs 0xF6 (stampKey okLvPolicy 2) → (ctl s cs).priv = 1 → reservedSet d lvMasks = false → df d 1 0 60 % 4096 ≠ 0 → Answers (.commitLvRtable cs) s fun t => Completed s t cs 4 ∧ t = ctlComplete (grantCommit (setLvStatus s 2 (refused (lvStatus s 2) 4)) cs 0xF6 ((stampKey okLvPolicy 2))) cs 4 (some (statusWord (refused (lvStatus s 2) 4))) none 64) ∧
  (∀ (s : State) (cs : Nat) (d : List W64), Presents s cs 0xF6 d → df d 0 0 2 = 3 → enableOf d = true → Fresh s cs 0xF6 (stampKey okLvPolicy 3) → (ctl s cs).priv = 1 → s.lv.exporting = none → reservedSet d lvMasks = false → df d 0 16 2 ≤ 2 → df d 1 0 60 % 4096 = 0 → df d 2 0 32 + df d 2 32 32 ≤ areaRecords (df d 0 16 2) → pagesInGen s (df d 1 0 60) (exportLen s (df d 0 16 2) (df d 2 32 32)) = true → Answers (.commitLvExport cs) s fun t => Committed s t cs 0 (statusWord (lvStatus t 3)) ∧ (lvStatus t 3).owner = writeState 1 0 ∧ t.lv.exporting = some (df d 0 16 2, df d 1 0 60, df d 2 0 32, df d 2 32 32) ∧ t = ctlComplete (grantCommit ({ (setLvStatus (setLvStatus s 3 (accepted (lvStatus s 3))) 3 { lvStatus (setLvStatus s 3 (accepted (lvStatus s 3))) 3 with owner := writeState 1 0 }) with lv := { (setLvStatus (setLvStatus s 3 (accepted (lvStatus s 3))) 3 { lvStatus (setLvStatus s 3 (accepted (lvStatus s 3))) 3 with owner := writeState 1 0 }).lv with exporting := some (df d 0 16 2, df d 1 0 60, df d 2 0 32, df d 2 32 32) } }) cs 0xF6 ((stampKey okLvPolicy 3))) cs 0 (some (statusWord (lvStatus t 3))) (some (stampKey okLvPolicy 3)) 64) ∧
  (∀ (s : State) (cs : Nat) (d : List W64), Presents s cs 0xF6 d → df d 0 0 2 = 3 → enableOf d = false → Fresh s cs 0xF6 (stampKey okLvPolicy 3) → Answers (.commitLvExport cs) s fun t => Completed s t cs 0 ∧ t = ctlComplete (grantCommit s cs 0xF6 ((stampKey okLvPolicy 3))) cs 0 (some (statusWord (lvStatus s 3))) none 64) ∧
  (∀ (s : State) (cs : Nat) (d : List W64), Presents s cs 0xF6 d → df d 0 0 2 = 3 → enableOf d = true → Fresh s cs 0xF6 (stampKey okLvPolicy 3) → (ctl s cs).priv = 1 → s.lv.exporting = none → reservedSet d lvMasks = false → df d 0 16 2 ≤ 2 → df d 1 0 60 % 4096 = 0 → (decide (areaRecords (df d 0 16 2) < df d 2 0 32 + df d 2 32 32) || !pagesInGen s (df d 1 0 60) (exportLen s (df d 0 16 2) (df d 2 32 32))) = true → Answers (.commitLvExport cs) s fun t => Completed s t cs 0x0C05 ∧ lvStatus t 3 = refused (lvStatus s 3) 0x0C05 ∧ t = ctlComplete (grantCommit (setLvStatus s 3 (refused (lvStatus s 3) 0x0C05)) cs 0xF6 ((stampKey okLvPolicy 3))) cs 0x0C05 (some (statusWord (refused (lvStatus s 3) 0x0C05))) none 64) ∧
  (∀ (s : State) (cs : Nat) (d : List W64), Presents s cs 0xF6 d → df d 0 0 2 = 3 → enableOf d = true → Fresh s cs 0xF6 (stampKey okLvPolicy 3) → (ctl s cs).priv = 1 → s.lv.exporting = none → reservedSet d lvMasks = false → df d 0 16 2 = 3 ∨ df d 1 0 60 % 4096 ≠ 0 → Answers (.commitLvExport cs) s fun t => Completed s t cs 4 ∧ t = ctlComplete (grantCommit (setLvStatus s 3 (refused (lvStatus s 3) 4)) cs 0xF6 ((stampKey okLvPolicy 3))) cs 4 (some (statusWord (refused (lvStatus s 3) 4))) none 64) ∧
  (∀ (s : State) (cs : Nat) (d : List W64), Presents s cs 0xF6 d → df d 0 0 2 = 3 → enableOf d = true → Fresh s cs 0xF6 (stampKey okLvPolicy 3) → (ctl s cs).priv = 1 → s.lv.exporting ≠ none → Answers (.commitLvExport cs) s fun t => Completed s t cs 1 ∧ t = ctlComplete (grantCommit (setLvStatus s 3 (refused (lvStatus s 3) 1)) cs 0xF6 ((stampKey okLvPolicy 3))) cs 1 (some (statusWord (refused (lvStatus s 3) 1))) none 64) ∧
  (∀ (s : State) (area dest first n : Nat), mainUp s = true → s.lv.flushCause = 0 → s.lv.exporting = some (area, dest, first, n) → Answers (.lvExportWriteEnd none) s fun t => t.lv.exporting = none ∧ (lvStatus t 3).owner = writeState 2 0 ∧ t.cc.bulk = memWrite s.cc.bulk dest ((List.range n).flatMap fun i => areaRecord s area (first + i)) ∧ t = setLvStatus { s with lv := { s.lv with exporting := none }, cc := { s.cc with bulk := memWrite s.cc.bulk dest ((List.range n).flatMap fun i => areaRecord s area (first + i)) } } 3 { lvStatus { s with lv := { s.lv with exporting := none }, cc := { s.cc with bulk := memWrite s.cc.bulk dest ((List.range n).flatMap fun i => areaRecord s area (first + i)) } } 3 with owner := writeState 2 0 }) ∧
  (∀ (s : State) (c : Nat) (x : Nat × Nat × Nat × Nat), mainUp s = true → s.lv.flushCause = 0 → s.lv.exporting = some x → Answers (.lvExportWriteEnd (some c)) s fun t => t.lv.exporting = none ∧ (lvStatus t 3).owner = writeState 3 c ∧ t = setLvStatus { s with lv := { s.lv with exporting := none } } 3 { lvStatus { s with lv := { s.lv with exporting := none } } 3 with owner := writeState 3 c }) ∧
  (∀ (s : State) (c : Option Nat), s.lv.exporting = none → exec (.lvExportWriteEnd c) s = .next (s))

/-- The eight operations of CC_AON_OP. A write of CC_AON_OP with its key and an operation that may run starts it, over either path. SNAPSHOT, FENCE_ALL and KEY_ZEROISE are done at once: the 32 words are taken, the fence stands, or every key slot is free, and vector 22 is pending. JOURNAL_FLUSH, WARM_RESET, COLD_RESET and POWER_OFF start a flush with its cause and what follows it; the volatile image is taken and staging programs and waiting doorbells are dropped. REMOVE stops acceptance, and hands over at once when nothing runs. A write without the key changes nothing, and an operation that may not run is refused. REMOVE_STOP_DEADLINE stops what still runs 10 ms after a removal began, and hands over. -/
def Obligations.WedgeProofOperations : Prop :=
  (∀ (s : State) (p : Path) (v : W64), access s p 0x2000 8 = .served → fld v 48 16 = 0xA5C3 → fld v 0 8 = 1 → s.cc.aonRun = 0 → Answers (.snapshot p v) s fun t => ∀ i : Fin 32, tget 0 t.cc.snap i.val = snapWord s i.val ∧ t.cc.aonOp = 1 ∧ t.cc.aonState = 2 ∧ bit t.cc.intStatus 22 = true ∧ t = aonDone (takeSnapshot { s with resp := .ok, cc := { s.cc with aonOp := 1, aonState := 1, aonRun := 1 } }) 1) ∧
  (∀ (s : State) (p : Path) (v : W64), access s p 0x2000 8 = .served → fld v 48 16 = 0xA5C3 → fld v 0 8 = 1 → s.cc.aonRun ≠ 0 → exec (.snapshot p v) s = .next ({ s with resp := .ok, cc := { s.cc with aonOp := 1, aonState := 3 } })) ∧
  (∀ (s : State) (p : Path) (v : W64), access s p 0x2000 8 = .served → fld v 48 16 = 0xA5C3 → fld v 0 8 = 2 → s.cc.aonRun = 0 → exec (.fenceAll p v) s = .next (raiseEvent { s with resp := .ok, cc := { s.cc with aonOp := 2, aonState := 2, fenceAll := true } } 22)) ∧
  (∀ (s : State) (p : Path) (v : W64), access s p 0x2000 8 = .served → fld v 48 16 = 0xA5C3 → fld v 0 8 = 2 → s.cc.aonRun ≠ 0 → exec (.fenceAll p v) s = .next ({ s with resp := .ok, cc := { s.cc with aonOp := 2, aonState := 3 } })) ∧
  (∀ (s : State) (p : Path) (v : W64), access s p 0x2000 8 = .served → fld v 48 16 ≠ 0xA5C3 → fld v 0 8 = 2 → exec (.fenceAll p v) s = .next ({ s with resp := .ok })) ∧
  (∀ (s : State) (p : Path) (v : W64), access s p 0x2000 8 = .served → fld v 48 16 = 0xA5C3 → fld v 0 8 = 3 → s.cc.aonRun = 0 → Answers (.keyZeroise p v) s fun t => t.cc.aonState = 2 ∧ t.cc.aonOp = 3 ∧ bit t.cc.intStatus 22 = true ∧ t.resp = .ok ∧ t = aonDone (zeroiseAll { s with resp := .ok, cc := { s.cc with aonOp := 3, aonState := 1, aonRun := 3 } }) 3) ∧
  (∀ (s : State) (p : Path) (v : W64), access s p 0x2000 8 = .served → fld v 48 16 = 0xA5C3 → fld v 0 8 = 3 → s.cc.aonRun ≠ 0 → exec (.keyZeroise p v) s = .next ({ s with resp := .ok, cc := { s.cc with aonOp := 3, aonState := 3 } })) ∧
  (∀ (s : State) (p : Path) (v : W64), access s p 0x2000 8 = .served → fld v 48 16 = 0xA5C3 → fld v 0 8 = 4 → s.cc.aonRun = 0 → s.hw.off = false → s.lv.flushCause = 0 → imageDue s = true → Answers (.journalFlush p v) s fun t => t.cc.aonState = 1 ∧ t.cc.aonRun = 4 ∧ t.cc.staged = [] ∧ t.lv = { s.lv with flushCause := 4, flushThen := 0, flushRecovery := false, flushReset := 0, flushStart := s.now, inputBack := false, state := t.lv.state } ∧ t.lv.state = (if s.lv.state = 6 then 6 else 2) ∧ t.hw.safe = 1 ∧ t.vimg.prev = s.vimg.cur ∧ t.vimg.cur = volImage s 4 ∧ ∀ n, (jobq t n).bells = [] ∧ t = startFlush { s with resp := .ok, cc := { s.cc with aonOp := 4, aonState := 1, aonRun := 4 } } 4 0 0 false) ∧
  (∀ (s : State) (p : Path) (v : W64), access s p 0x2000 8 = .served → fld v 48 16 = 0xA5C3 → fld v 0 8 = 4 → s.cc.aonRun = 0 → s.hw.off = false → Answers (.journalFlush p v) s fun t => t = startFlush { s with resp := .ok, cc := { s.cc with aonOp := 4, aonState := 1, aonRun := 4 } } 4 0 0 false) ∧
  (∀ (s : State) (p : Path) (v : W64), access s p 0x2000 8 = .served → fld v 48 16 = 0xA5C3 → fld v 0 8 = 4 → s.cc.aonRun ≠ 0 ∨ s.hw.off = true → exec (.journalFlush p v) s = .next ({ s with resp := .ok, cc := { s.cc with aonOp := 4, aonState := 3 } })) ∧
  (∀ (s : State) (p : Path) (v : W64), access s p 0x2000 8 = .served → fld v 48 16 = 0xA5C3 → fld v 0 8 = 5 → s.cc.aonRun = 0 → s.hw.off = false → s.lv.flushCause = 0 → Answers (.warmReset p v) s fun t => t.cc.aonState = 1 ∧ t.cc.aonRun = 5 ∧ t.lv = { s.lv with flushCause := 2, flushThen := 1, flushRecovery := bit v 8, flushReset := 2, flushStart := s.now, inputBack := false, state := t.lv.state } ∧ t.hw.safe = 1 ∧ t = startFlush { s with resp := .ok, cc := { s.cc with aonOp := 5, aonState := 1, aonRun := 5 } } 2 1 2 (bit v 8)) ∧
  (∀ (s : State) (p : Path) (v : W64), access s p 0x2000 8 = .served → fld v 48 16 = 0xA5C3 → fld v 0 8 = 5 → s.cc.aonRun = 0 → s.hw.off = false → Answers (.warmReset p v) s fun t => t = startFlush { s with resp := .ok, cc := { s.cc with aonOp := 5, aonState := 1, aonRun := 5 } } 2 1 2 (bit v 8)) ∧
  (∀ (s : State) (p : Path) (v : W64), access s p 0x2000 8 = .served → fld v 48 16 = 0xA5C3 → fld v 0 8 = 5 → s.cc.aonRun ≠ 0 ∨ s.hw.off = true → exec (.warmReset p v) s = .next ({ s with resp := .ok, cc := { s.cc with aonOp := 5, aonState := 3 } })) ∧
  (∀ (s : State) (p : Path) (v : W64), access s p 0x2000 8 = .served → fld v 48 16 = 0xA5C3 → fld v 0 8 = 6 → s.hw.off = false → s.lv.flushCause = 0 → Answers (.coldReset p v) s fun t => t.cc.aonRun = 6 ∧ t.lv = { s.lv with flushCause := 3, flushThen := 2, flushRecovery := bit v 8, flushReset := 3, flushStart := s.now, inputBack := false, state := t.lv.state } ∧ t.hw.safe = 1 ∧ t = startFlush { takeOver { s with resp := .ok } 6 with cc := { s.cc with aonOp := 6, aonState := 1, aonRun := 6 } } 3 2 3 (bit v 8)) ∧
  (∀ (s : State) (p : Path) (v : W64), access s p 0x2000 8 = .served → fld v 48 16 = 0xA5C3 → fld v 0 8 = 6 → s.hw.off = false → Answers (.coldReset p v) s fun t => t = startFlush { takeOver { s with resp := .ok } 6 with cc := { s.cc with aonOp := 6, aonState := 1, aonRun := 6 } } 3 2 3 (bit v 8)) ∧
  (∀ (s : State) (p : Path) (v : W64), access s p 0x2000 8 = .served → fld v 48 16 = 0xA5C3 → fld v 0 8 = 6 → s.hw.off = true → Answers (.coldReset p v) s fun t => t.hw.off = false ∧ t.cc.resetCause = 3 ∧ t.cc.recReq = bit v 8 ∧ t.cc.stage = 0 ∧ t.cc.aonOp = 6 ∧ t.cc.aonState = 1 ∧ t.cc.aonRun = 6 ∧ t.lv.flushCause = 0 ∧ t.now = 0 ∧ t = resetNow { takeOver { s with resp := .ok } 6 with cc := { s.cc with aonOp := 6, aonState := 1, aonRun := 6 } } true 3 (bit v 8)) ∧
  (∀ (s : State) (p : Path) (v : W64), access s p 0x2000 8 = .served → fld v 48 16 = 0xA5C3 → fld v 0 8 = 7 → s.hw.off = false → s.lv.flushCause = 0 → Answers (.powerOff p v) s fun t => t.cc.aonRun = 7 ∧ t.lv = { s.lv with flushCause := 5, flushThen := 3, flushRecovery := false, flushReset := 0, flushStart := s.now, inputBack := false, state := t.lv.state } ∧ t = startFlush { s with resp := .ok, cc := { s.cc with aonOp := 7, aonState := 1, aonRun := 7 } } 5 3 0 false) ∧
  (∀ (s : State) (p : Path) (v : W64), access s p 0x2000 8 = .served → fld v 48 16 = 0xA5C3 → fld v 0 8 = 7 → s.hw.off = false → Answers (.powerOff p v) s fun t => t = startFlush { s with resp := .ok, cc := { s.cc with aonOp := 7, aonState := 1, aonRun := 7 } } 5 3 0 false) ∧
  (∀ (s : State) (p : Path) (v : W64), access s p 0x2000 8 = .served → fld v 48 16 = 0xA5C3 → fld v 0 8 = 7 → s.hw.off = true → exec (.powerOff p v) s = .next (raiseEvent { s with resp := .ok, cc := { s.cc with aonOp := 7, aonState := 2, aonRun := 0 } } 22)) ∧
  (∀ (s : State) (p : Path) (v : W64), access s p 0x2000 8 = .served → fld v 48 16 = 0xA5C3 → fld v 0 8 = 8 → s.cc.aonRun = 0 → working s = true → s.lv.state < 5 → s.hw.off = false → s.cc.staged = [] → s.cc.jq.all (fun x => x.2.bells.isEmpty) = true → allStopped s = true → Answers (.remove p v) s fun t => t.lv.state = 5 ∧ t.lv.handover = handoverBytes s (s.lv.nextSeq - 1) ∧ t.cc.bulk = memWrite s.cc.bulk s.cc.hoBase t.lv.handover ∧ t.lv.recs = s.lv.recs.map (fun r => if ((handoverRecs s).map (·.seq)).contains r.seq then { r with exported := true } else r) ∧ t.lv.removeStart = none ∧ t.lv.flushCause = 6 ∧ t.lv.flushThen = 4 ∧ t.cc.aonRun = 8 ∧ t.hw.safe = 1 ∧ t = startRemove { s with resp := .ok, cc := { s.cc with aonOp := 8, aonState := 1, aonRun := 8 } }) ∧
  (∀ (s : State) (p : Path) (v : W64), access s p 0x2000 8 = .served → fld v 48 16 = 0xA5C3 → fld v 0 8 = 8 → s.cc.aonRun = 0 → working s = true → s.lv.state < 5 → s.hw.off = false → s.cc.staged = [] → s.cc.jq.all (fun x => x.2.bells.isEmpty) = true → s.sa.seqs.all (fun x => x.2.job.isNone) = true → s.cc.seqs.any (fun x => decide (x.2.state = 1)) = true → Answers (.remove p v) s fun t => t.lv = { s.lv with state := 5, removeStart := some (s.now, s.lv.nextSeq - 1), removeStopped := false } ∧ t.cc = { s.cc with aonOp := 8, aonState := 1, aonRun := 8 } ∧ t = startRemove { s with resp := .ok, cc := { s.cc with aonOp := 8, aonState := 1, aonRun := 8 } }) ∧
  (∀ (s : State) (p : Path) (v : W64), access s p 0x2000 8 = .served → fld v 48 16 = 0xA5C3 → fld v 0 8 = 8 → s.cc.aonRun = 0 → s.hw.off = false → removeOk s = true → Answers (.remove p v) s fun t => t = startRemove { s with resp := .ok, cc := { s.cc with aonOp := 8, aonState := 1, aonRun := 8 } }) ∧
  (∀ (s : State) (p : Path) (v : W64), access s p 0x2000 8 = .served → fld v 48 16 = 0xA5C3 → fld v 0 8 = 8 → s.cc.aonRun ≠ 0 ∨ s.hw.off = true ∨ removeOk s = false → exec (.remove p v) s = .next ({ s with resp := .ok, cc := { s.cc with aonOp := 8, aonState := 3 } })) ∧
  (∀ (s : State) (x last : Nat), s.lv.removeStart = some (x, last) → working s = true → s.lv.removeStopped = false → x + 10000000 ≤ s.now → s.sa.seqs.all (fun x => x.2.job.isNone) = true → s.cc.seqs.all (fun x => decide (x.1 < 9)) = true → tabWf {} s.cc.seqs = true → Answers (.removeStopDeadline) s fun t => t.lv.removeStopped = true ∧ t.lv.removeStart = none ∧ t.lv.flushCause = 6 ∧ t.lv.flushThen = 4 ∧ ∀ cs : Fin 9, (ctl t cs.val).state ≠ 1 ∧ t = tryHandover (stopRunning s)) ∧
  (∀ (s : State) (x last : Nat), s.lv.removeStart = some (x, last) → working s = true → s.lv.removeStopped = false → x + 10000000 ≤ s.now → Answers (.removeStopDeadline) s fun t => t = tryHandover (stopRunning s)) ∧
  (∀ (s : State) (x last : Nat), s.lv.removeStart = some (x, last) → working s = false ∨ s.lv.removeStopped = true ∨ s.now < x + 10000000 → exec (.removeStopDeadline) s = .next (s)) ∧
  (∀ (s : State), s.lv.removeStart = none → exec (.removeStopDeadline) s = .next (s))

/-- What follows a flush, by what started it. FLUSH_COMPLETE ends the flush: nothing is dirty, its cause is shown, its image is marked, a wedge-proof operation that ends with it is done with vector 22 pending, and service goes on with SAFE off; or the export is done; or the module is off with SAFE green; or the module goes dark, or resets when its input is back; or a warm or a cold reset takes effect. A reset goes to boot stage RESET with its cause; objects, live records and images stay, volatile state goes; a warm reset keeps the always-on domain and device time, a cold one does not. -/
def Obligations.FlushEnds : Prop :=
  (∀ (s : State), s.lv.flushCause ≠ 0 → s.lv.flushThen = 0 → imageDue s = true → s.cc.aonRun ≠ 4 → Answers (.flushComplete) s fun t => t.lv.dirty = 0 ∧ t.lv.lastCause = s.lv.flushCause ∧ t.lv.flushCause = 0 ∧ t.lv.state = (if s.lv.state = 2 then 0 else s.lv.state) ∧ t.vimg = { s.vimg with cur := { s.vimg.cur with marked := true } } ∧ t.hw = { s.hw with safe := if s.lv.state = 6 then 2 else 0 } ∧ tget 0 t.lv.ctr 2 = satInc (tget 0 s.lv.ctr 2) 1 ∧ t = { (flushEnded s) with hw := { (flushEnded s).hw with safe := if (flushEnded s).lv.state = 6 then 2 else 0 } }) ∧
  (∀ (s : State), s.lv.flushCause = 4 → s.lv.flushThen = 0 → s.cc.aonRun = 4 → Answers (.flushComplete) s fun t => t.lv.flushCause = 0 ∧ t.lv.dirty = 0 ∧ t.cc.aonRun = 0 ∧ t.cc.aonState = 2 ∧ t.cc.aonOp = 4 ∧ bit t.cc.intStatus 22 = true ∧ t = { (flushEnded s) with hw := { (flushEnded s).hw with safe := if (flushEnded s).lv.state = 6 then 2 else 0 } }) ∧
  (∀ (s : State), s.lv.flushCause = 6 → s.lv.flushThen = 4 → s.cc.aonRun ≠ 4 → Answers (.flushComplete) s fun t => t.lv.state = 6 ∧ t.lv.lastCause = 6 ∧ t.hw.safe = 2 ∧ t.cc.aonRun = (if s.cc.aonRun = 8 then 0 else s.cc.aonRun) ∧ s.cc.aonRun = 8 → t.cc.aonState = 2 ∧ bit t.cc.intStatus 22 = true ∧ t = aonDone { (flushEnded s) with lv := { (flushEnded s).lv with state := 6 }, hw := { (flushEnded s).hw with safe := 2 } } 8) ∧
  (∀ (s : State), s.lv.flushCause = 5 → s.lv.flushThen = 3 → s.lv.flushReset ≠ 6 → s.cc.aonRun = 7 → Answers (.flushComplete) s fun t => t.hw = { s.hw with off := true, mainOn := false, pwrgd := false, safe := 2 } ∧ t.lv.lastCause = 5 ∧ t.cc.aonRun = 0 ∧ t.cc.aonState = 2 ∧ t.cc.aonOp = 7 ∧ bit t.cc.intStatus 22 = true ∧ t = aonDone { (flushEnded s) with hw := { (flushEnded s).hw with off := true, mainOn := false, pwrgd := false, safe := 2 } } 7) ∧
  (∀ (s : State), s.lv.flushCause = 5 → s.lv.flushThen = 3 → s.lv.flushReset = 6 → s.cc.aonRun = 7 → Answers (.flushComplete) s fun t => t.hw.off = true ∧ t.cc.resetCause = 6 ∧ t = aonDone { { (flushEnded s) with hw := { (flushEnded s).hw with off := true, mainOn := false, pwrgd := false, safe := 2 } } with cc := { (flushEnded s).cc with resetCause := 6 } } 7) ∧
  (∀ (s : State), s.lv.flushCause = 1 → s.lv.flushThen = 5 → s.lv.inputBack = false → s.cc.aonRun ≠ 4 → Answers (.flushComplete) s fun t => t.hw = { s.hw with mainOn := false, pwrgd := false, safe := 0 } ∧ t.lv.charging = true ∧ t.lv.holdupLow = true ∧ t.lv.lastCause = 1 ∧ t = goDark (applyHoldup { (flushEnded s) with lv := { (flushEnded s).lv with charging := true } })) ∧
  (∀ (s : State), s.lv.flushCause = 1 → s.lv.flushThen = 5 → s.lv.inputBack = true → Answers (.flushComplete) s fun t => t.hw.inputLost = false ∧ t.cc.stage = 0 ∧ t.cc.resetCause = 1 ∧ t.cc.coldBoot = true ∧ t.now = 0 ∧ t.lv.charging = true ∧ t = resetNow { (applyHoldup { (flushEnded s) with lv := { (flushEnded s).lv with charging := true } }) with hw := { (applyHoldup { (flushEnded s) with lv := { (flushEnded s).lv with charging := true } }).hw with inputLost := false } } true 1 false) ∧
  (∀ (s : State), s.lv.flushCause ≠ 0 → s.lv.flushThen = 1 → imageDue s = true → Answers (.flushComplete) s fun t => t.cc.stage = 0 ∧ t.cc.bootDone = false ∧ t.cc.resetCause = s.lv.flushReset ∧ t.cc.recReq = s.lv.flushRecovery ∧ t.cc.warmCount = min 65535 (s.cc.warmCount + 1) ∧ t.cc.coldBoot = false ∧ t.cc.intMask = s.cc.intMask ∧ t.now = s.now ∧ t.pc.timeSet = s.pc.timeSet ∧ t.lv.recs = s.lv.recs ∧ t.lv.nextSeq = s.lv.nextSeq ∧ t.lv.flushCause = 0 ∧ t.tr.exts = s.tr.exts ∧ t.tr.regions = s.tr.regions ∧ t.tr.hbm = [] ∧ t.te.rc = [] ∧ t.ta.sess = [] ∧ t.ta.lcA = s.ta.lcA ∧ t.ta.anchor = s.ta.anchor ∧ t.sa.pats = s.sa.pats ∧ t.vimg = { s.vimg with cur := { s.vimg.cur with marked := true } } ∧ t.lv.lastCause = 0 ∧ t = resetNow (flushEnded s) false s.lv.flushReset s.lv.flushRecovery) ∧
  (∀ (s : State), s.lv.flushCause ≠ 0 → s.lv.flushThen = 2 → Answers (.flushComplete) s fun t => t.cc.stage = 0 ∧ t.cc.resetCause = s.lv.flushReset ∧ t.cc.recReq = s.lv.flushRecovery ∧ t.cc.warmCount = 0 ∧ t.cc.coldBoot = true ∧ t.cc.intMask = State.reset.cc.intMask ∧ t.now = 0 ∧ t.pc.timeSet = false ∧ t.ta.devId = [] ∧ t.ta.lcA = s.ta.lcA ∧ t.ta.lcB = s.ta.lcB ∧ t.lv.recs = s.lv.recs ∧ t.tr.exts = s.tr.exts ∧ t.te.rc = [] ∧ t = resetNow (flushEnded s) true s.lv.flushReset s.lv.flushRecovery) ∧
  (∀ (s : State), s.lv.flushCause ≠ 0 → s.lv.flushThen = 0 → Answers (.flushComplete) s fun t => t = { (flushEnded s) with hw := { (flushEnded s).hw with safe := if (flushEnded s).lv.state = 6 then 2 else 0 } }) ∧
  (∀ (s : State), s.lv.flushCause ≠ 0 → s.lv.flushThen = 4 → Answers (.flushComplete) s fun t => t = aonDone { (flushEnded s) with lv := { (flushEnded s).lv with state := 6 }, hw := { (flushEnded s).hw with safe := 2 } } 8) ∧
  (∀ (s : State), s.lv.flushCause ≠ 0 → s.lv.flushThen = 1 → Answers (.flushComplete) s fun t => t = resetNow (flushEnded s) false s.lv.flushReset s.lv.flushRecovery) ∧
  (∀ (s : State), s.lv.flushCause ≠ 0 → s.lv.flushThen = 3 → s.lv.flushReset ≠ 6 → Answers (.flushComplete) s fun t => t = aonDone { (flushEnded s) with hw := { (flushEnded s).hw with off := true, mainOn := false, pwrgd := false, safe := 2 } } 7) ∧
  (∀ (s : State), s.lv.flushCause ≠ 0 → s.lv.flushThen = 3 → s.lv.flushReset = 6 → Answers (.flushComplete) s fun t => t = aonDone { { (flushEnded s) with hw := { (flushEnded s).hw with off := true, mainOn := false, pwrgd := false, safe := 2 } } with cc := { (flushEnded s).cc with resetCause := 6 } } 7) ∧
  (∀ (s : State), s.lv.flushCause ≠ 0 → s.lv.flushThen = 5 → s.lv.inputBack = false → Answers (.flushComplete) s fun t => t = goDark (applyHoldup { (flushEnded s) with lv := { (flushEnded s).lv with charging := true } })) ∧
  (∀ (s : State), s.lv.flushCause = 0 → exec (.flushComplete) s = .next (s)) ∧
  (∀ (s : State), s.hw.off = false → unpowered s = false → s.lv.flushCause = 0 → s.cc.stage = 4 ∨ s.cc.stage = 5 ∨ s.cc.stage = 6 → Answers (.firmwareSilent) s fun t => t.lv.crash = s.lv.crash ++ [(s.now, 4)] ∧ t.cc.crashIdx = s.lv.crash.length % 1024 ∧ t.lv.flushCause = 2 ∧ t.lv.flushThen = 1 ∧ t.lv.flushReset = 4 ∧ t = startFlush (crashRecord s 4) 2 1 4 false) ∧
  (∀ (s : State), s.hw.off = false → unpowered s = false → s.cc.stage = 4 ∨ s.cc.stage = 5 ∨ s.cc.stage = 6 → Answers (.firmwareSilent) s fun t => t = startFlush (crashRecord s 4) 2 1 4 false) ∧
  (∀ (s : State), s.hw.off = true ∨ unpowered s = true ∨ s.cc.stage < 4 ∨ 6 < s.cc.stage → exec (.firmwareSilent) s = .next (s))

/-- Input power, EN, RESET_N, ATTN_N, PERST_N, PWRGD and the sideband's address. The loss of input, an overvoltage and a break of EN start the flush of input loss, and the latter two open the input switch; a module switched off just goes dark. An input voltage in range sets its flags. The closing of the switch and the return of the input power the module on, or wait for the flush. PWRGD released resets a module beyond stage RESET; RESET_N low for its time starts a cold reset; ATTN_N starts a removal; PERST_N ends IDE; SMBus fallback and address assignment set the sideband's mode and address. -/
def Obligations.ModulePins : Prop :=
  (∀ (s : State), unpowered s = false → s.hw.off = false → s.lv.flushCause = 0 → Answers (.powerLoss) s fun t => t.lv = { s.lv with flushCause := 1, flushThen := 5, flushRecovery := false, flushReset := 1, flushStart := s.now, inputBack := false, state := t.lv.state } ∧ t.hw = { s.hw with inputLost := true, safe := 1 } ∧ t = startFlush { s with hw := { s.hw with inputLost := true } } 1 5 1 false) ∧
  (∀ (s : State), unpowered s = false → s.hw.off = false → Answers (.powerLoss) s fun t => t = startFlush { s with hw := { s.hw with inputLost := true } } 1 5 1 false) ∧
  (∀ (s : State), unpowered s = true → exec (.powerLoss) s = .next (s)) ∧
  (∀ (s : State), unpowered s = false → s.hw.off = true → exec (.powerLoss) s = .next ({ s with hw := { s.hw with inputLost := true, off := false, safe := 0 } })) ∧
  (∀ (s : State), unpowered s = false → s.hw.off = false → s.lv.flushCause = 0 → Answers (.overvoltage) s fun t => t.lv.flushCause = 1 ∧ t.lv.flushThen = 5 ∧ t.hw = { s.hw with inputLost := true, inputOn := false, safe := 1 } ∧ t = { loseInput s with hw := { (loseInput s).hw with inputOn := false } }) ∧
  (∀ (s : State), unpowered s = false → s.hw.off = false → s.lv.flushCause = 0 → Answers (.enBreak) s fun t => t.lv.flushCause = 1 ∧ t.hw = { s.hw with inputLost := true, inputOn := false, en := false, safe := 1 } ∧ t = { loseInput s with hw := { (loseInput s).hw with en := false, inputOn := false } }) ∧
  (∀ (s : State), unpowered s = false → Answers (.overvoltage) s fun t => t = { loseInput s with hw := { (loseInput s).hw with inputOn := false } }) ∧
  (∀ (s : State), unpowered s = true → exec (.overvoltage) s = .next (s)) ∧
  (∀ (s : State), Answers (.enBreak) s fun t => t = { loseInput s with hw := { (loseInput s).hw with en := false, inputOn := false } }) ∧
  (∀ (s : State) (v : Nat), unpowered s = false → 4700 ≤ v → v ≤ 6300 → exec (.undervoltOvervolt v) s = .next ({ s with ph := { s.ph with volts := v, undervolt := decide (v < 5000), overvolt := decide (6000 < v) } })) ∧
  (∀ (s : State) (v : Nat), unpowered s = true ∨ v < 4700 ∨ 6300 < v → exec (.undervoltOvervolt v) s = .next (s)) ∧
  (∀ (s : State), s.hw.inputOn = false → s.lv.flushCause = 0 → Answers (.inputSwitchClose) s fun t => t.cc.stage = 0 ∧ t.cc.resetCause = (if s.hw.inputLost then 1 else 8) ∧ t.hw = { s.hw with en := true, inputOn := true, inputLost := false, mainOn := false, pwrgd := false, safe := 0, off := false } ∧ t.lv.charging = true ∧ t.ta.lcA = s.ta.lcA ∧ t = powerOn s) ∧
  (∀ (s : State), s.hw.inputOn = false → s.lv.flushCause ≠ 0 → exec (.inputSwitchClose) s = .next ({ s with hw := { s.hw with inputOn := true, en := true }, lv := { s.lv with inputBack := true } })) ∧
  (∀ (s : State), s.hw.inputOn = true → exec (.inputSwitchClose) s = .next (s)) ∧
  (∀ (s : State), s.hw.inputLost = true → s.hw.inputOn = true → s.lv.flushCause ≠ 0 → exec (.inputPowerRestored) s = .next ({ s with lv := { s.lv with inputBack := true } })) ∧
  (∀ (s : State), s.hw.inputLost = true → s.hw.inputOn = true → s.lv.flushCause = 0 → Answers (.inputPowerRestored) s fun t => t.cc.stage = 0 ∧ t.cc.resetCause = 1 ∧ t.hw.inputLost = false ∧ t.hw.pwrgd = false ∧ t.lv.charging = true ∧ t = powerOn s) ∧
  (∀ (s : State), s.hw.inputLost = false ∨ s.hw.inputOn = false → exec (.inputPowerRestored) s = .next (s)) ∧
  (∀ (s : State), exec (.converterRegulationLoss) s = .next ({ s with hw := { s.hw with pwrgd := false } })) ∧
  (∀ (s : State), s.hw.pwrgd = false → unpowered s = false → s.hw.off = false → s.lv.flushCause = 0 → s.cc.stage = 0 → exec (.powerGood) s = .next ({ s with hw := { s.hw with pwrgd := true, mainOn := true } })) ∧
  (∀ (s : State), s.hw.pwrgd = false → unpowered s = false → s.hw.off = false → s.lv.flushCause = 0 → s.cc.stage ≠ 0 → Answers (.powerGood) s fun t => t.cc.stage = 0 ∧ t.cc.resetCause = 8 ∧ t.hw.pwrgd = true ∧ t.hw.mainOn = true ∧ t = resetNow { s with hw := { s.hw with pwrgd := true, mainOn := true } } true 8 false) ∧
  (∀ (s : State), s.hw.pwrgd = true ∨ unpowered s = true ∨ s.hw.off = true ∨ s.lv.flushCause ≠ 0 → exec (.powerGood) s = .next (s)) ∧
  (∀ (s : State), unpowered s = false → s.hw.resetLow = false → s.hw.off = false → s.lv.flushCause = 0 → Answers (.resetNAssert) s fun t => t.lv = { s.lv with flushCause := 3, flushThen := 2, flushRecovery := false, flushReset := 7, flushStart := s.now, inputBack := false, state := t.lv.state } ∧ t.cc.aonOp = 6 ∧ t.cc.aonState = 1 ∧ t.cc.aonRun = 6 ∧ t.hw = { s.hw with resetLow := true, safe := 1 } ∧ t = { startCold { takeOver s 6 with cc := { (takeOver s 6).cc with aonOp := 6, aonState := 1, aonRun := 6 } } 7 false with hw := { (startCold { takeOver s 6 with cc := { (takeOver s 6).cc with aonOp := 6, aonState := 1, aonRun := 6 } } 7 false).hw with resetLow := true } }) ∧
  (∀ (s : State), unpowered s = false → s.hw.resetLow = false → Answers (.resetNAssert) s fun t => t = { startCold { takeOver s 6 with cc := { (takeOver s 6).cc with aonOp := 6, aonState := 1, aonRun := 6 } } 7 false with hw := { (startCold { takeOver s 6 with cc := { (takeOver s 6).cc with aonOp := 6, aonState := 1, aonRun := 6 } } 7 false).hw with resetLow := true } }) ∧
  (∀ (s : State), unpowered s = true → exec (.resetNAssert) s = .next ({ s with hw := { s.hw with resetLow := true } })) ∧
  (∀ (s : State), s.hw.resetLow = true → unpowered s = false → exec (.resetNAssert) s = .next (s)) ∧
  (∀ (s : State), exec (.resetNRelease) s = .next ({ s with hw := { s.hw with resetLow := false } })) ∧
  (∀ (s : State), unpowered s = false → s.hw.resetLow = false → s.cc.aonRun = 0 → working s = true → s.lv.state < 5 → s.cc.staged = [] → s.cc.jq.all (fun x => x.2.bells.isEmpty) = true → s.sa.seqs.all (fun x => x.2.job.isNone) = true → s.cc.seqs.any (fun x => decide (x.2.state = 1)) = true → exec (.attnNAssert) s = .next ({ s with lv := { s.lv with state := 5, removeStart := some (s.now, s.lv.nextSeq - 1), removeStopped := false }, cc := { s.cc with aonOp := 8, aonState := 1, aonRun := 8 } })) ∧
  (∀ (s : State), unpowered s = false → s.hw.resetLow = false → s.cc.aonRun = 0 → removeOk s = true → Answers (.attnNAssert) s fun t => t = startRemove { s with cc := { s.cc with aonOp := 8, aonState := 1, aonRun := 8 } }) ∧
  (∀ (s : State), unpowered s = true ∨ s.hw.resetLow = true ∨ s.cc.aonRun ≠ 0 ∨ removeOk s = false → exec (.attnNAssert) s = .next (s)) ∧
  (∀ (s : State), exec (.perstNChange true) s = .next ({ s with hw := { s.hw with perstLow := true }, cc := { s.cc with ideIo := {}, ideMem := {} } })) ∧
  (∀ (s : State), exec (.perstNChange false) s = .next ({ s with hw := { s.hw with perstLow := false } })) ∧
  (∀ (s : State), exec (.smbusFallback) s = .next ({ s with cc := { s.cc with sbSmbus := true } })) ∧
  (∀ (s : State) (a : Nat), s.cc.sbSmbus = false → unpowered s = false → a < 128 → exec (.dynamicAddressAssignment a) s = .next ({ s with cc := { s.cc with sbAddr := a } }))

/-- Boot from identity to READY, recovery mode, and the loss of an HBM stack. Layer 0 needs a valid limited-change record and, on a cold boot, the device secret; a granted debug unlock takes effect then and is used up. Every layer runs its valid slot, or boot stops with its layer shown. Restore puts back the volatile image and re-enters the live records, or boot goes on in recovery mode on request or after a lost image. READY makes the spare control sequencer stand by. In recovery mode an image with a bad header is answered with its code. A lost stack's channels go and, with the device area, a warm reset follows. A lost line of a device-area table loses the reply cache, reverts the copies it maps, or reloads its objects in a free time of at most 1 ms. Fetched digests are free values. -/
def Obligations.BootStages : Prop :=
  (∀ (s : State), bootRuns s = true → s.cc.stage = 0 → s.ta.lcA.valid = true ∨ s.ta.lcB.valid = true → s.cc.coldBoot = true → s.ta.pufBad = false → (lcNow s).debugNext = false → Answers (.bootIdentity) s fun t => t.cc = { s.cc with stage := 2 } ∧ t.ta.debug = false ∧ t = bootStage { bootDebug s with ta := { (bootDebug s).ta with devId := Config.keyDigest devidSeed, meas := tput [] (bootDebug s).ta.meas 0 (Config.factoryDigest 0) } } 2) ∧
  (∀ (s : State), bootRuns s = true → s.cc.stage = 0 → s.ta.lcA.valid = true ∨ s.ta.lcB.valid = true → s.cc.coldBoot = true → s.ta.pufBad = false → (lcNow s).debugNext = true → Answers (.bootIdentity) s fun t => t.cc.stage = 2 ∧ t.ta.debug = true ∧ t.ta.deliv = [] ∧ lcNow t = { lcNow s with debugNext := false } ∧ t = bootStage { bootDebug s with ta := { (bootDebug s).ta with devId := Config.keyDigest devidSeed, meas := tput [] (bootDebug s).ta.meas 0 (Config.factoryDigest 0) } } 2) ∧
  (∀ (s : State), bootRuns s = true → s.cc.stage = 0 → s.ta.lcA.valid = true ∨ s.ta.lcB.valid = true → s.cc.coldBoot = false → Answers (.bootIdentity) s fun t => t = bootStage { s with ta := { (s).ta with devId := Config.keyDigest devidSeed, meas := tput [] (s).ta.meas 0 (Config.factoryDigest 0) } } 2) ∧
  (∀ (s : State), bootRuns s = false ∨ s.cc.stage ≠ 0 → exec (.bootIdentity) s = .next (s)) ∧
  (∀ (s : State), bootRuns s = true → s.cc.stage = 0 → s.ta.lcA.valid = false → s.ta.lcB.valid = false → exec (.bootIdentity) s = .next ({ s with cc := { s.cc with stage := 0xE3 } })) ∧
  (∀ (s : State), bootRuns s = true → s.cc.stage = 0 → s.cc.coldBoot = true → s.ta.pufBad = true → s.ta.lcA.valid = true ∨ s.ta.lcB.valid = true → exec (.bootIdentity) s = .next ({ s with cc := { s.cc with stage := 0xE2 } })) ∧
  (∀ (s : State) (a b c d : Nat), bootRuns s = true → s.cc.stage = 2 → bootSlotOf s 1 = some a → bootSlotOf s 2 = some b → bootSlotOf s 3 = some c → bootSlotOf s 4 = some d → Answers (.firmwareLoad) s fun t => t.cc = { s.cc with stage := 4 } ∧ t.lv.state = (if s.lv.state = 6 then 6 else 3) ∧ t.ta.imageB = a * 2 + b * 4 + c * 8 + d * 16 ∧ tget 0 t.lv.bootSlot 1 = a ∧ tget 0 t.lv.bootSlot 2 = b ∧ tget 0 t.lv.bootSlot 3 = c ∧ tget 0 t.lv.bootSlot 4 = d ∧ svnOf t 1 = (tget {} s.lv.fw (2 + a)).svn ∧ svnOf t 4 = (tget {} s.lv.fw (8 + d)).svn ∧ measOf t 1 = imageDigest 1 (tget {} s.lv.fw (2 + a)).bytes ∧ t = bootLv (bootStage (attest ([1, 2, 3, 4].foldl runLayer (noteFallback { s with ta := { s.ta with imageB := 0 } })) 1 0 ([1, 2, 3, 4].foldl runLayer (noteFallback { s with ta := { s.ta with imageB := 0 } })).ta.imageB (measOf ([1, 2, 3, 4].foldl runLayer (noteFallback { s with ta := { s.ta with imageB := 0 } })) 1)) 4) 3) ∧
  (∀ (s : State) (a b : Nat), bootRuns s = true → s.cc.stage = 2 → bootSlotOf s 1 = some a → bootSlotOf s 2 = some b → bootSlotOf s 3 = none → exec (.firmwareLoad) s = .next ({ s with cc := { s.cc with stage := 0xE1, recovery := true, recCause := 1, recLayer := 3 } })) ∧
  (∀ (s : State) (l : Nat), bootRuns s = true → s.cc.stage = 2 → ([1, 2, 3, 4].find? fun l => (bootSlotOf s l).isNone) = some l → exec (.firmwareLoad) s = .next ({ s with cc := { s.cc with stage := 0xE1, recovery := true, recCause := 1, recLayer := l } })) ∧
  (∀ (s : State), bootRuns s = false ∨ s.cc.stage ≠ 2 → exec (.firmwareLoad) s = .next (s)) ∧
  (∀ (s : State), bootRuns s = true → s.cc.stage = 4 → s.cc.recReq = false → imageLost s = false → s.sa.ready = true → s.vimg.cur.present = true → s.vimg.cur.marked = true → s.lv.recs.all (fun r => decide (r.kind ≠ .completion)) = true → s.ta.sealedUnder = ((lcNow s).idepoch, s.ta.debug) → s.tr.tmap.all (fun x => decide (x.2.dirty = 0)) = true → Answers (.restore) s fun t => t.cc.stage = 5 ∧ t.lv.state = (if s.lv.state = 6 then 6 else 4) ∧ t.lv.recs = s.lv.recs.filter (fun r => !r.exported) ∧ t.lv.nextSeq = (if s.lv.everStaged then s.lv.nextSeq else 1) ∧ t.te.marks = s.vimg.cur.marks ∧ t.te.rc = moveHolds s.vimg.cur.rc s.vimg.cur.time s.now ∧ t.tr.frames = [] ∧ t.tr.lframes = [] ∧ tget 0 t.lv.ctr 3 = satInc (tget 0 s.lv.ctr 3) (s.lv.recs.filter (fun r => !r.exported)).length ∧ ∀ g, (tier t g).loc ≠ 2 ∧ (tier t g).loc ≠ 3 ∧ t = restoreAll s) ∧
  (∀ (s : State), bootRuns s = true → s.cc.stage = 4 → s.cc.recReq = false → imageLost s = false → s.sa.ready = true → Answers (.restore) s fun t => t = restoreAll s) ∧
  (∀ (s : State), bootRuns s = false ∨ s.cc.stage ≠ 4 ∨ (s.cc.recReq = false ∧ imageLost s = false ∧ s.sa.ready = false) → exec (.restore) s = .next (s)) ∧
  (∀ (s : State), bootRuns s = true → s.cc.stage = 4 → s.cc.recReq = true → exec (.restore) s = .next ({ s with cc := { s.cc with recovery := true, recCause := 3, recLayer := 0, stage := 5 }, lv := { s.lv with state := if s.lv.state = 6 then 6 else 3 } })) ∧
  (∀ (s : State), bootRuns s = true → s.cc.stage = 4 → s.cc.recReq = false → imageLost s = true → exec (.restore) s = .next ({ s with cc := { s.cc with recovery := true, recCause := 2, recLayer := 0, stage := 5 }, lv := { s.lv with state := if s.lv.state = 6 then 6 else 3 } })) ∧
  (∀ (s : State), bootRuns s = true → s.cc.stage = 5 → s.cc.recovery = false → timeSource s = false → (ctl s 8).state = 0 → Answers (.bootReady) s fun t => t.cc.stage = 6 ∧ t.lv = { s.lv with state := if s.lv.state = 6 then 6 else 0 } ∧ (ctl t 8).state = 2 ∧ t.cc.aonRun = (if s.cc.aonRun = 5 ∨ s.cc.aonRun = 6 then 0 else s.cc.aonRun) ∧ ∀ cs, cs ≠ 8 → ctl t cs = ctl s cs ∧ ∀ p, (port t p) = startPort s.now (port s p) ∧ t = aonDone (aonDone (startService (setCtl (bootLv (bootStage s 6) 0) 8 { ctl (bootLv (bootStage s 6) 0) 8 with state := 2 })) 5) 6) ∧
  (∀ (s : State), bootRuns s = true → s.cc.stage = 5 → s.cc.recovery = true → (ctl s 8).state ≠ 0 → Answers (.bootReady) s fun t => t.cc.stage = 6 ∧ t.cc.aonRun = (if s.cc.aonRun = 5 ∨ s.cc.aonRun = 6 then 0 else s.cc.aonRun) ∧ t = aonDone (aonDone (bootLv (bootStage s 6) 0) 5) 6) ∧
  (∀ (s : State), bootRuns s = true → s.cc.stage = 5 → Answers (.bootReady) s fun t => t = aonDone (aonDone (if s.cc.recovery then (if (ctl s 8).state = 0 then (setCtl (bootLv (bootStage s 6) 0) 8 { ctl (bootLv (bootStage s 6) 0) 8 with state := 2 }) else (bootLv (bootStage s 6) 0)) else startService (if (ctl s 8).state = 0 then (setCtl (bootLv (bootStage s 6) 0) 8 { ctl (bootLv (bootStage s 6) 0) 8 with state := 2 }) else (bootLv (bootStage s 6) 0))) 5) 6) ∧
  (∀ (s : State), bootRuns s = false ∨ s.cc.stage ≠ 5 → exec (.bootReady) s = .next (s)) ∧
  (∀ (s : State), s.cc.recovery = true → msgReady s 0 5 = true → (mbx s 0).outFull = false → headerOk s (fld (inMsg s 0 2) 0 8) (bulkRead s (fld (inMsg s 0 1) 0 60) (fld (inMsg s 0 2) 32 32)) = false → Answers (.recoveryImage) s fun t => (mbx t 0).inFull = false ∧ (mbx t 0).outFull = true ∧ (mbx t 0).outQ = [replyHead 0x82 (msgTag s 0), 0, statusReason 0 0x0C03, w64 s.now] ∧ t = cpDone (takeMsg s 0) 0 (msgTag s 0) 0 0 0x0C03) ∧
  (∀ (s : State) (layer off len : Nat), s.cc.recovery = true → msgReady s 0 5 = true → (mbx s 0).outFull = false → fld (inMsg s 0 2) 0 8 = layer → fld (inMsg s 0 1) 0 60 = off → fld (inMsg s 0 2) 32 32 = len → 1 ≤ layer → layer ≤ 4 → headerOk s layer (bulkRead s off len) = true → off % 4096 = 0 → sourceOk s off len = true → Answers (.recoveryImage) s fun t => t = cpDone (if (recoveryReason s (fld (inMsg s 0 2) 0 8) (fld (inMsg s 0 1) 0 60) (fld (inMsg s 0 2) 32 32)) = 0 ∨ (recoveryReason s (fld (inMsg s 0 2) 0 8) (fld (inMsg s 0 1) 0 60) (fld (inMsg s 0 2) 32 32)) = 0x0C06 then (flipPages (writeImage (takeMsg s 0) (fld (inMsg s 0 2) 0 8) (bulkRead (takeMsg s 0) (fld (inMsg s 0 1) 0 60) (fld (inMsg s 0 2) 32 32))) (fld (inMsg s 0 1) 0 60) (fld (inMsg s 0 2) 32 32)) else takeMsg s 0) 0 (msgTag s 0) 0 0 (recoveryReason s (fld (inMsg s 0 2) 0 8) (fld (inMsg s 0 1) 0 60) (fld (inMsg s 0 2) 32 32))) ∧
  (∀ (s : State), s.cc.recovery = true → msgReady s 0 5 = true → Answers (.recoveryImage) s fun t => t = cpDone (if (recoveryReason s (fld (inMsg s 0 2) 0 8) (fld (inMsg s 0 1) 0 60) (fld (inMsg s 0 2) 32 32)) = 0 ∨ (recoveryReason s (fld (inMsg s 0 2) 0 8) (fld (inMsg s 0 1) 0 60) (fld (inMsg s 0 2) 32 32)) = 0x0C06 then (flipPages (writeImage (takeMsg s 0) (fld (inMsg s 0 2) 0 8) (bulkRead (takeMsg s 0) (fld (inMsg s 0 1) 0 60) (fld (inMsg s 0 2) 32 32))) (fld (inMsg s 0 1) 0 60) (fld (inMsg s 0 2) 32 32)) else takeMsg s 0) 0 (msgTag s 0) 0 0 (recoveryReason s (fld (inMsg s 0 2) 0 8) (fld (inMsg s 0 1) 0 60) (fld (inMsg s 0 2) 32 32))) ∧
  (∀ (s : State), s.cc.recovery = false ∨ msgReady s 0 5 = false → exec (.recoveryImage) s = .next (s)) ∧
  (∀ (s : State) (n : Nat), mainUp s = true → n < hbmStacks s → 0 < n → s.ph.hbmFail.testBit n = false → (List.range 32).all (fun i => decide ((pch s (32 * n + i)).state ≠ 0)) = true → Answers (.hbmStackFail n) s fun t => t.ph.hbmFail = s.ph.hbmFail ||| 2 ^ n ∧ ∀ i : Fin 32, (pch t (32 * n + i.val)).state = 5 ∧ (pch t (32 * n + i.val)).tenant = 0 ∧ t.lv.flushCause = s.lv.flushCause ∧ t = stackGone s n) ∧
  (∀ (s : State), mainUp s = true → s.lv.flushCause = 0 → s.ph.hbmFail.testBit 0 = false → Answers (.hbmStackFail 0) s fun t => t.ph.hbmFail = s.ph.hbmFail ||| 1 ∧ ∀ i : Fin 32, (pch t i.val).state = 5 ∧ t.te.rc = [] ∧ t.te.tLost = some s.now ∧ t.lv.crash = s.lv.crash ++ [(s.now, 5)] ∧ t.lv.flushCause = 2 ∧ t.lv.flushThen = 1 ∧ t.lv.flushReset = 5 ∧ t = startFlush (crashRecord (loseReplies (stackGone s 0)) 5) 2 1 5 false) ∧
  (∀ (s : State) (n : Nat), mainUp s = true → n < hbmStacks s → s.ph.hbmFail.testBit n = false → holdsArea s n = true → Answers (.hbmStackFail n) s fun t => t = startFlush (crashRecord (loseReplies (stackGone s n)) 5) 2 1 5 false) ∧
  (∀ (s : State) (n : Nat), mainUp s = true → n < hbmStacks s → s.ph.hbmFail.testBit n = false → holdsArea s n = false → Answers (.hbmStackFail n) s fun t => t = stackGone s n) ∧
  (∀ (s : State) (n : Nat), hbmStacks s ≤ n ∨ s.ph.hbmFail.testBit n = true → exec (.hbmStackFail n) s = .next (s)) ∧
  (∀ (s : State), mainUp s = true → exec (.deviceAreaUe .replyCache) s = .next ({ s with te := { s.te with rc := [], tLost := some s.now } })) ∧
  (∀ (s : State) (a n : Nat), mainUp s = true → s.tr.moves = [] → s.tr.tmap.all (fun x => decide (x.2.dirty = 0)) = true → Answers (.deviceAreaUe (.tierMap a n)) s fun t => ∀ i : Fin 8, i.val < n → (tier t (a + i.val)).loc ≠ 2 ∧ ∀ g, a ≤ g → g < a + n → (tier t g).loc ≠ 2 ∧ (tier t g).loc ≠ 3 ∧ ∀ g, g < a ∨ a + n ≤ g → tier t g = tier s g ∧ t = (tkeys (s.tr.tmap.filter fun t => decide (a ≤ t.1 ∧ t.1 < a + n) && decide (t.2.loc = 2 ∨ t.2.loc = 3))).foldl (fun s g => loseCopy (dropMove s g) g 5) s) ∧
  (∀ (s : State) (a n : Nat), mainUp s = true → Answers (.deviceAreaUe (.tierMap a n)) s fun t => t = (tkeys (s.tr.tmap.filter fun t => decide (a ≤ t.1 ∧ t.1 < a + n) && decide (t.2.loc = 2 ∨ t.2.loc = 3))).foldl (fun s g => loseCopy (dropMove s g) g 5) s) ∧
  (∀ (s : State) (k : AreaObj) (a n : Nat), mainUp s = true → Answers (.deviceAreaUe (.objects k a n)) s fun t => t.freeCtr = s.freeCtr + 1 ∧ t = { draw s with tr := { s.tr with reload := { kind := k, first := a, count := n, till := s.now + (Config.freeWord s.freeCtr).toNat % 1000001 } :: s.tr.reload.filter fun r => decide (s.now < r.till) } })

/-- Leave asked for and released by programs, and spare swaps they order. POWER_REQ, which gives back leave the program still holds, joins the flow of its partition and waits; its release gives the charge back, or is refused without one. SPARE_SWAP of a unit with no job retires it at once, of a lane starts the lane's swap, of a management core or a package takes it out of service; one that names no live part, no spare or a number out of range is refused with its code and changes nothing else. -/
def Obligations.PowerLeave : Prop :=
  (∀ (s : State) (cs : Nat) (d : List W64), Presents s cs 0x91 d → bit (wd d 0) 16 = false → stampPast s (stampKey okPower cs) (ctl s cs) = false → reservedSet d [fmask 0 17, 0, 0, 0] = false → 1 ≤ df d 0 0 16 → df d 0 0 16 ≤ 60000 → (ctl s cs).leave = false → Answers (.powerReq cs) s fun t => (ctl t cs).wait = .leave ∧ (ctl t cs).pc = (ctl s cs).pc ∧ (flow t (ctl s cs).part).queue = (flow s (ctl s cs).part).queue ++ [{ who := .prog cs, charge := df d 0 0 16, since := s.now }] ∧ ∀ p, p ≠ (ctl s cs).part → flow t p = flow s p ∧ t = setCtl (askLeave s (ctl s cs).part (.prog cs) (df d 0 0 16)) cs { ctl s cs with wait := .leave }) ∧
  (∀ (s : State) (cs : Nat) (d : List W64), Presents s cs 0x91 d → bit (wd d 0) 16 = false → stampPast s (stampKey okPower cs) (ctl s cs) = false → reservedSet d [fmask 0 17, 0, 0, 0] = false → 1 ≤ df d 0 0 16 → df d 0 0 16 ≤ 60000 → Answers (.powerReq cs) s fun t => (ctl t cs).wait = .leave ∧ t = setCtl (askLeave (dropProgLeave s cs) (ctl (dropProgLeave s cs) cs).part (.prog cs) (df d 0 0 16)) cs { ctl (askLeave (dropProgLeave s cs) (ctl (dropProgLeave s cs) cs).part (.prog cs) (df d 0 0 16)) cs with wait := .leave }) ∧
  (∀ (s : State) (cs : Nat) (d : List W64), Presents s cs 0x91 d → stampPast s (stampKey okPower cs) (ctl s cs) = false → bit (wd d 0) 16 = false → reservedSet d [fmask 0 17, 0, 0, 0] = true → Answers (.powerReq cs) s fun t => Completed s t cs 9 ∧ t = ctlComplete s cs 9 none none 64) ∧
  (∀ (s : State) (cs : Nat) (d : List W64), Presents s cs 0x91 d → bit (wd d 0) 16 = false → stampPast s (stampKey okPower cs) (ctl s cs) = false → reservedSet d [fmask 0 17, 0, 0, 0] = false → 60000 < df d 0 0 16 ∨ df d 0 0 16 = 0 → Answers (.powerReq cs) s fun t => Completed s t cs 4 ∧ t = ctlComplete s cs 4 none none 64) ∧
  (∀ (s : State) (cs : Nat) (d : List W64), Presents s cs 0x91 d → bit (wd d 0) 16 = true → stampPast s (stampKey okPower cs) (ctl s cs) = false → reservedSet d [fmask 0 17, 0, 0, 0] = false → (ctl s cs).leave = true → Answers (.powerReqRelease cs) s fun t => Completed s t cs 0 ∧ (ctl t cs).leave = false ∧ (flow t (ctl s cs).part).held = (flow s (ctl s cs).part).held - (ctl s cs).leaveW ∧ ∀ p, p ≠ (ctl s cs).part → flow t p = flow s p ∧ t = ctlComplete (dropProgLeave s cs) cs 0 none none 64) ∧
  (∀ (s : State) (cs : Nat) (d : List W64), Presents s cs 0x91 d → bit (wd d 0) 16 = true → stampPast s (stampKey okPower cs) (ctl s cs) = false → reservedSet d [fmask 0 17, 0, 0, 0] = false → (ctl s cs).leave = false → Answers (.powerReqRelease cs) s fun t => Completed s t cs 0x0D04 ∧ t = ctlComplete s cs 0x0D04 none none 64) ∧
  (∀ (s : State) (cs : Nat) (d : List W64) (q : Nat), Presents s cs 0x92 d → stampPast s (stampKey okSwap (swapObj d)) (ctl s cs) = false → swapReason s (ctl s cs) d = 0 → df d 0 0 3 = 0 → holdsJob s (df d 0 4 3) (df d 0 16 16) = false → spareFor s (df d 0 4 3) (df d 0 16 16) = some q → Answers (.spareSwap cs) s fun t => Completed s t cs 0 ∧ (unitAt t (df d 0 4 3) (df d 0 16 16)).state = 4 ∧ (unitAt t (df d 0 4 3) q) = { unitAt s (df d 0 4 3) q with state := 0, logical := (unitAt s (df d 0 4 3) (df d 0 16 16)).logical, part := (unitAt s (df d 0 4 3) (df d 0 16 16)).part } ∧ (health t (df d 0 4 3) (df d 0 16 16)).retired = true ∧ tget 0 t.ph.ctr 7 = satInc (tget 0 s.ph.ctr 7) 1 ∧ t = ctlComplete (swapNow (unpend s (swapKey d)) (df d 0 4 3) (df d 0 16 16)) cs 0 none (some (stampKey okSwap (swapObj d))) 64) ∧
  (∀ (s : State) (cs : Nat) (d : List W64), Presents s cs 0x92 d → stampPast s (stampKey okSwap (swapObj d)) (ctl s cs) = false → swapReason s (ctl s cs) d = 0 → df d 0 0 3 = 0 → holdsJob s (df d 0 4 3) (df d 0 16 16) = true → Answers (.spareSwap cs) s fun t => (health t (df d 0 4 3) (df d 0 16 16)).swapDue = true ∧ (ctl t cs).wait = .spareUnit (df d 0 4 3) (df d 0 16 16) ∧ t = setCtl (swapUnit (unpend s (swapKey d)) (df d 0 4 3) (df d 0 16 16)) cs { ctl (swapUnit (unpend s (swapKey d)) (df d 0 4 3) (df d 0 16 16)) cs with wait := .spareUnit (df d 0 4 3) (df d 0 16 16) }) ∧
  (∀ (s : State) (cs : Nat) (d : List W64), Presents s cs 0x92 d → stampPast s (stampKey okSwap (swapObj d)) (ctl s cs) = false → swapReason s (ctl s cs) d = 0 → df d 0 0 3 = 1 → holdsJob s 0 (df d 0 16 16) = true → Answers (.spareSwap cs) s fun t => (ctl t cs).wait = .spareUnit 0 (df d 0 16 16) ∧ t = setCtl (swapUnit (unpend s (swapKey d)) 0 (df d 0 16 16)) cs { ctl (swapUnit (unpend s (swapKey d)) 0 (df d 0 16 16)) cs with wait := .spareUnit 0 (df d 0 16 16) }) ∧
  (∀ (s : State) (cs : Nat) (d : List W64), Presents s cs 0x92 d → stampPast s (stampKey okSwap (swapObj d)) (ctl s cs) = false → swapReason s (ctl s cs) d = 0 → df d 0 0 3 = 1 → holdsJob s 0 (df d 0 16 16) = false → Answers (.spareSwap cs) s fun t => Completed s t cs 0 ∧ t = ctlComplete (swapNow (unpend s (swapKey d)) 0 (df d 0 16 16)) cs 0 none (some (stampKey okSwap (swapObj d))) 64) ∧
  (∀ (s : State) (cs : Nat) (d : List W64), Presents s cs 0x92 d → stampPast s (stampKey okSwap (swapObj d)) (ctl s cs) = false → swapReason s (ctl s cs) d = 0 → df d 0 0 3 = 4 → (ctl s (df d 0 16 16)).state ≠ 1 → Answers (.spareSwap cs) s fun t => t = ctlComplete (swapPart (unpend s (swapKey d)) (swapKey d)) cs 0 none (some (stampKey okSwap (swapObj d))) 64) ∧
  (∀ (s : State) (cs : Nat) (d : List W64), Presents s cs 0x92 d → stampPast s (stampKey okSwap (swapObj d)) (ctl s cs) = false → swapReason s (ctl s cs) d = 0 → df d 0 0 3 = 4 → (ctl s (df d 0 16 16)).state = 1 → Answers (.spareSwap cs) s fun t => (ctl t cs).wait = .spareUnit 9 (df d 0 16 16) ∧ t = setCtl (swapPart (unpend s (swapKey d)) (swapKey d)) cs { ctl (swapPart (unpend s (swapKey d)) (swapKey d)) cs with wait := .spareUnit 9 (df d 0 16 16) }) ∧
  (∀ (s : State) (cs : Nat) (d : List W64), Presents s cs 0x92 d → stampPast s (stampKey okSwap (swapObj d)) (ctl s cs) = false → swapReason s (ctl s cs) d = 0 → df d 0 0 3 = 3 → Answers (.spareSwap cs) s fun t => Completed s t cs 0 ∧ t.cc.mgmtFailed = 2 ^ df d 0 16 16 ∧ tget 0 t.ph.ctr 7 = satInc (tget 0 s.ph.ctr 7) 1 ∧ t = ctlComplete (swapPart (unpend s (swapKey d)) (swapKey d)) cs 0 none (some (stampKey okSwap (swapObj d))) 64) ∧
  (∀ (s : State) (cs : Nat) (d : List W64), Presents s cs 0x92 d → stampPast s (stampKey okSwap (swapObj d)) (ctl s cs) = false → swapReason s (ctl s cs) d = 0 → df d 0 0 3 = 5 → df d 0 16 16 < 8 → Answers (.spareSwap cs) s fun t => Completed s t cs 0 ∧ (nandPkg t (df d 0 16 16)).state = 1 ∧ t.lv.nandDegraded = s.lv.nandDegraded ||| 2 ^ (df d 0 16 16 % 4) ∧ t = ctlComplete (swapPart (unpend s (swapKey d)) (swapKey d)) cs 0 none (some (stampKey okSwap (swapObj d))) 64) ∧
  (∀ (s : State) (cs : Nat) (d : List W64), Presents s cs 0x92 d → stampPast s (stampKey okSwap (swapObj d)) (ctl s cs) = false → swapReason s (ctl s cs) d = 0 → df d 0 0 3 = 2 → Answers (.spareSwap cs) s fun t => (ctl t cs).wait = .spare (lane s (df d 0 16 16)).port ∧ (pair t (lanePair (df d 0 16 16))).swap = 1 ∧ (pair t (lanePair (df d 0 16 16))).lane = df d 0 16 16 ∧ (pair t (lanePair (df d 0 16 16))).reqCs = some cs ∧ (lane t (spareLane (lanePair (df d 0 16 16)))).state = 2 ∧ t = setCtl (startSwap { s with ph := { s.ph with laneWait := s.ph.laneWait.filter (· ≠ df d 0 16 16) } } (df d 0 16 16) (some cs)) cs { ctl (startSwap { s with ph := { s.ph with laneWait := s.ph.laneWait.filter (· ≠ df d 0 16 16) } } (df d 0 16 16) (some cs)) cs with wait := .spare (lane s (df d 0 16 16)).port }) ∧
  (∀ (s : State) (cs : Nat) (d : List W64), Presents s cs 0x92 d → stampPast s (stampKey okSwap (swapObj d)) (ctl s cs) = false → swapReason s (ctl s cs) d ≠ 0 → Answers (.spareSwap cs) s fun t => Completed s t cs (swapReason s (ctl s cs) d) ∧ t = ctlComplete s cs (swapReason s (ctl s cs) d) none none 64)

/-- PH_POLICY of each form. A COMMIT of PH_POLICY in range writes the budget and idle times, the swap policy with its limits and maintenance window, the Proof rates of a unit type, or the weight of a leave flow, and completes with its status word; a number out of range, a window that fills its period or an escalation above the rate is refused with its code, shown in the form's status word, and changes nothing else. -/
def Obligations.PowerPolicyCommands : Prop :=
  (∀ (s : State) (cs : Nat) (d : List W64), Presents s cs 0xF5 d → df d 0 0 2 = 0 → enableOf d = true → Fresh s cs 0xF5 (stampKey okPhPolicy 0) → (ctl s cs).priv = 1 → reservedSet d phMasks = false → 300 ≤ df d 1 0 16 → df d 1 0 16 ≤ 1500 → 1 ≤ df d 1 16 16 → df d 1 16 16 ≤ 1000 → 10 ≤ df d 1 32 16 → Answers (.commitPhBudget cs) s fun t => Committed s t cs 0 (statusWord (phStatus t 0)) ∧ phStatus t 0 = accepted (phStatus s 0) ∧ t.ph.budget = df d 1 0 16 ∧ t.ph.unitIdle = df d 1 16 16 ∧ t.ph.pllIdle = df d 1 32 16 ∧ t = ctlComplete (grantCommit ({ (setPhStatus s 0 (accepted (phStatus s 0))) with ph := { (setPhStatus s 0 (accepted (phStatus s 0))).ph with budget := df d 1 0 16, unitIdle := df d 1 16 16, pllIdle := df d 1 32 16 } }) cs 0xF5 ((stampKey okPhPolicy 0))) cs 0 (some (statusWord (phStatus t 0))) (some (stampKey okPhPolicy 0)) 64) ∧
  (∀ (s : State) (cs : Nat) (d : List W64), Presents s cs 0xF5 d → df d 0 0 2 = 0 → enableOf d = false → Fresh s cs 0xF5 (stampKey okPhPolicy 0) → Answers (.commitPhBudget cs) s fun t => Completed s t cs 0 ∧ t = ctlComplete (grantCommit s cs 0xF5 ((stampKey okPhPolicy 0))) cs 0 (some (statusWord (phStatus s 0))) none 64) ∧
  (∀ (s : State) (cs : Nat) (d : List W64), Presents s cs 0xF5 d → df d 0 0 2 = 0 → enableOf d = true → Fresh s cs 0xF5 (stampKey okPhPolicy 0) → (ctl s cs).priv = 1 → reservedSet d phMasks = false → ¬ ((300 ≤ df d 1 0 16 ∧ df d 1 0 16 ≤ 1500) ∧ (1 ≤ df d 1 16 16 ∧ df d 1 16 16 ≤ 1000) ∧ 10 ≤ df d 1 32 16) → Answers (.commitPhBudget cs) s fun t => Completed s t cs 4 ∧ phStatus t 0 = refused (phStatus s 0) 4 ∧ t = ctlComplete (grantCommit (setPhStatus s 0 (refused (phStatus s 0) 4)) cs 0xF5 ((stampKey okPhPolicy 0))) cs 4 (some (statusWord (refused (phStatus s 0) 4))) none 64) ∧
  (∀ (s : State) (cs : Nat) (d : List W64), Presents s cs 0xF5 d → df d 0 0 2 = 0 → enableOf d = true → Fresh s cs 0xF5 (stampKey okPhPolicy 0) → (ctl s cs).priv = 1 → reservedSet d phMasks = true → Answers (.commitPhBudget cs) s fun t => Completed s t cs 9 ∧ t = ctlComplete (grantCommit (setPhStatus s 0 (refused (phStatus s 0) 9)) cs 0xF5 ((stampKey okPhPolicy 0))) cs 9 (some (statusWord (refused (phStatus s 0) 9))) none 64) ∧
  (∀ (s : State) (cs : Nat) (d : List W64), Presents s cs 0xF5 d → df d 0 0 2 = 0 → enableOf d = true → Fresh s cs 0xF5 (stampKey okPhPolicy 0) → (ctl s cs).priv ≠ 1 → Answers (.commitPhBudget cs) s fun t => Completed s t cs 3 ∧ t = ctlComplete (grantCommit (setPhStatus s 0 (refused (phStatus s 0) 3)) cs 0xF5 ((stampKey okPhPolicy 0))) cs 3 (some (statusWord (refused (phStatus s 0) 3))) none 64) ∧
  (∀ (s : State) (cs : Nat) (d : List W64), Presents s cs 0xF5 d → df d 0 0 2 = 1 → enableOf d = true → Fresh s cs 0xF5 (stampKey okPhPolicy 1) → (ctl s cs).priv = 1 → reservedSet d phMasks = false → df d 1 0 2 ≤ 2 → 10 ≤ df d 1 16 16 → df d 1 16 16 ≤ 2000 → 1 ≤ df d 1 32 16 → 1 ≤ df d 1 48 8 → df d 1 48 8 ≤ 100 → 60 ≤ df d 3 1 31 → df d 3 1 31 ≤ 86400 → 3600 ≤ df d 3 32 31 → df d 3 32 31 ≤ 2592000 → df d 3 1 31 < df d 3 32 31 → Answers (.commitPhSwap cs) s fun t => Committed s t cs 0 (statusWord (phStatus t 1)) ∧ t.ph.policy = df d 1 0 2 ∧ t.ph.ageLimit = df d 1 16 16 ∧ t.ph.ceLimit = df d 1 32 16 ∧ t.ph.eyeMin = df d 1 48 8 ∧ t.ph.wstart = (wd d 2).toNat ∧ t.ph.wlen = df d 3 1 31 ∧ t.ph.wperiod = df d 3 32 31 ∧ t = ctlComplete (grantCommit ({ (setPhStatus s 1 (accepted (phStatus s 1))) with ph := { (setPhStatus s 1 (accepted (phStatus s 1))).ph with policy := df d 1 0 2, ageLimit := df d 1 16 16, ceLimit := df d 1 32 16, eyeMin := df d 1 48 8, wstart := (wd d 2).toNat, wlen := df d 3 1 31, wperiod := df d 3 32 31 } }) cs 0xF5 ((stampKey okPhPolicy 1))) cs 0 (some (statusWord (phStatus t 1))) (some (stampKey okPhPolicy 1)) 64) ∧
  (∀ (s : State) (cs : Nat) (d : List W64), Presents s cs 0xF5 d → df d 0 0 2 = 1 → enableOf d = false → Fresh s cs 0xF5 (stampKey okPhPolicy 1) → Answers (.commitPhSwap cs) s fun t => Completed s t cs 0 ∧ t = ctlComplete (grantCommit s cs 0xF5 ((stampKey okPhPolicy 1))) cs 0 (some (statusWord (phStatus s 1))) none 64) ∧
  (∀ (s : State) (cs : Nat) (d : List W64), Presents s cs 0xF5 d → df d 0 0 2 = 1 → enableOf d = true → Fresh s cs 0xF5 (stampKey okPhPolicy 1) → (ctl s cs).priv = 1 → reservedSet d phMasks = false → df d 1 0 2 ≤ 2 → 10 ≤ df d 1 16 16 → df d 1 16 16 ≤ 2000 → 1 ≤ df d 1 32 16 → 1 ≤ df d 1 48 8 → df d 1 48 8 ≤ 100 → df d 3 1 31 ≤ 86400 → 3600 ≤ df d 3 32 31 → df d 3 32 31 ≤ df d 3 1 31 → 60 ≤ df d 3 1 31 → df d 3 32 31 ≤ 2592000 → Answers (.commitPhSwap cs) s fun t => Completed s t cs 0x0D03 ∧ phStatus t 1 = refused (phStatus s 1) 0x0D03 ∧ t = ctlComplete (grantCommit (setPhStatus s 1 (refused (phStatus s 1) 0x0D03)) cs 0xF5 ((stampKey okPhPolicy 1))) cs 0x0D03 (some (statusWord (refused (phStatus s 1) 0x0D03))) none 64) ∧
  (∀ (s : State) (cs : Nat) (d : List W64), Presents s cs 0xF5 d → df d 0 0 2 = 1 → enableOf d = true → Fresh s cs 0xF5 (stampKey okPhPolicy 1) → (ctl s cs).priv = 1 → reservedSet d phMasks = false → ¬ (df d 1 0 2 ≤ 2 ∧ (10 ≤ df d 1 16 16 ∧ df d 1 16 16 ≤ 2000) ∧ 1 ≤ df d 1 32 16 ∧ (1 ≤ df d 1 48 8 ∧ df d 1 48 8 ≤ 100) ∧ (60 ≤ df d 3 1 31 ∧ df d 3 1 31 ≤ 86400) ∧ 3600 ≤ df d 3 32 31 ∧ df d 3 32 31 ≤ 2592000) → Answers (.commitPhSwap cs) s fun t => Completed s t cs 4 ∧ t = ctlComplete (grantCommit (setPhStatus s 1 (refused (phStatus s 1) 4)) cs 0xF5 ((stampKey okPhPolicy 1))) cs 4 (some (statusWord (refused (phStatus s 1) 4))) none 64) ∧
  (∀ (s : State) (cs : Nat) (d : List W64), Presents s cs 0xF5 d → df d 0 0 2 = 2 → enableOf d = true → Fresh s cs 0xF5 (stampKey okPhPolicy 2) → (ctl s cs).priv = 1 → reservedSet d phMasks = false → proofType (df d 0 8 8) = true → typePresent s.variant (df d 0 8 8) = true → activeCount s (df d 0 8 8) ≠ 0 → df d 1 0 4 ≤ 12 → df d 1 4 4 ≤ df d 1 0 4 → Answers (.commitPhProof cs) s fun t => Committed s t cs 0 (statusWord (phStatus t 2)) ∧ tget 0 t.ph.log2n (df d 0 8 8) = df d 1 0 4 ∧ tget 0 t.ph.log2esc (df d 0 8 8) = df d 1 4 4 ∧ t = ctlComplete (grantCommit ({ (setPhStatus s 2 (accepted (phStatus s 2))) with ph := { (setPhStatus s 2 (accepted (phStatus s 2))).ph with log2n := tput 0 s.ph.log2n (df d 0 8 8) (df d 1 0 4), log2esc := tput 0 s.ph.log2esc (df d 0 8 8) (df d 1 4 4) } }) cs 0xF5 ((stampKey okPhPolicy 2))) cs 0 (some (statusWord (phStatus t 2))) (some (stampKey okPhPolicy 2)) 64) ∧
  (∀ (s : State) (cs : Nat) (d : List W64), Presents s cs 0xF5 d → df d 0 0 2 = 2 → enableOf d = false → Fresh s cs 0xF5 (stampKey okPhPolicy 2) → Answers (.commitPhProof cs) s fun t => Completed s t cs 0 ∧ t = ctlComplete (grantCommit s cs 0xF5 ((stampKey okPhPolicy 2))) cs 0 (some (statusWord (phStatus s 2))) none 64) ∧
  (∀ (s : State) (cs : Nat) (d : List W64), Presents s cs 0xF5 d → df d 0 0 2 = 2 → enableOf d = true → Fresh s cs 0xF5 (stampKey okPhPolicy 2) → (ctl s cs).priv = 1 → reservedSet d phMasks = false → proofType (df d 0 8 8) = true → typePresent s.variant (df d 0 8 8) = true → activeCount s (df d 0 8 8) ≠ 0 → df d 1 4 4 ≤ 12 → df d 1 0 4 < df d 1 4 4 → Answers (.commitPhProof cs) s fun t => Completed s t cs 0x0D05 ∧ phStatus t 2 = refused (phStatus s 2) 0x0D05 ∧ t = ctlComplete (grantCommit (setPhStatus s 2 (refused (phStatus s 2) 0x0D05)) cs 0xF5 ((stampKey okPhPolicy 2))) cs 0x0D05 (some (statusWord (refused (phStatus s 2) 0x0D05))) none 64) ∧
  (∀ (s : State) (cs : Nat) (d : List W64), Presents s cs 0xF5 d → df d 0 0 2 = 2 → enableOf d = true → Fresh s cs 0xF5 (stampKey okPhPolicy 2) → (ctl s cs).priv = 1 → (proofType (df d 0 8 8) && (!typePresent s.variant (df d 0 8 8) || decide (activeCount s (df d 0 8 8) = 0))) = true → Answers (.commitPhProof cs) s fun t => Completed s t cs 2 ∧ t = ctlComplete (grantCommit (setPhStatus s 2 (refused (phStatus s 2) 2)) cs 0xF5 ((stampKey okPhPolicy 2))) cs 2 (some (statusWord (refused (phStatus s 2) 2))) none 64) ∧
  (∀ (s : State) (cs : Nat) (d : List W64), Presents s cs 0xF5 d → df d 0 0 2 = 2 → enableOf d = true → Fresh s cs 0xF5 (stampKey okPhPolicy 2) → (ctl s cs).priv = 1 → (proofType (df d 0 8 8) && (!typePresent s.variant (df d 0 8 8) || decide (activeCount s (df d 0 8 8) = 0))) = false → reservedSet d phMasks = false → proofType (df d 0 8 8) = false ∨ 12 < df d 1 0 4 ∨ 12 < df d 1 4 4 → Answers (.commitPhProof cs) s fun t => Completed s t cs 4 ∧ t = ctlComplete (grantCommit (setPhStatus s 2 (refused (phStatus s 2) 4)) cs 0xF5 ((stampKey okPhPolicy 2))) cs 4 (some (statusWord (refused (phStatus s 2) 4))) none 64) ∧
  (∀ (s : State) (cs : Nat) (d : List W64), Presents s cs 0xF5 d → df d 0 0 2 = 3 → enableOf d = true → Fresh s cs 0xF5 (stampKey okPhPolicy 3) → (ctl s cs).priv = 1 → reservedSet d phMasks = false → df d 0 8 8 ≤ 16 → 1 ≤ df d 1 0 13 → df d 1 0 13 ≤ 4096 → Answers (.commitPhWeight cs) s fun t => Committed s t cs 0 (statusWord (phStatus t 3)) ∧ flow t (df d 0 8 8) = { flow s (df d 0 8 8) with weight := df d 1 0 13 } ∧ t = ctlComplete (grantCommit (setFlow (setPhStatus s 3 (accepted (phStatus s 3))) (df d 0 8 8) { flow (setPhStatus s 3 (accepted (phStatus s 3))) (df d 0 8 8) with weight := df d 1 0 13 }) cs 0xF5 ((stampKey okPhPolicy 3))) cs 0 (some (statusWord (phStatus t 3))) (some (stampKey okPhPolicy 3)) 64) ∧
  (∀ (s : State) (cs : Nat) (d : List W64), Presents s cs 0xF5 d → df d 0 0 2 = 3 → enableOf d = false → Fresh s cs 0xF5 (stampKey okPhPolicy 3) → Answers (.commitPhWeight cs) s fun t => Completed s t cs 0 ∧ t = ctlComplete (grantCommit s cs 0xF5 ((stampKey okPhPolicy 3))) cs 0 (some (statusWord (phStatus s 3))) none 64) ∧
  (∀ (s : State) (cs : Nat) (d : List W64), Presents s cs 0xF5 d → df d 0 0 2 = 3 → enableOf d = true → Fresh s cs 0xF5 (stampKey okPhPolicy 3) → (ctl s cs).priv = 1 → reservedSet d phMasks = false → 16 < df d 0 8 8 ∨ df d 1 0 13 = 0 ∨ 4096 < df d 1 0 13 → Answers (.commitPhWeight cs) s fun t => Completed s t cs 4 ∧ t = ctlComplete (grantCommit (setPhStatus s 3 (refused (phStatus s 3) 4)) cs 0xF5 ((stampKey okPhPolicy 3))) cs 4 (some (statusWord (refused (phStatus s 3) 4))) none 64)

/-- Throttles, samples of age, errors and eyes, and maintenance windows. The input throttle sets above 102 % of the budget and lifts below 95 % of it. A die's temperature sets its throttle with the hysteresis, and at 115 °C starts POWER_OFF for reset cause 6. A sample within its limit only shows; one beyond it swaps the part at once, or keeps it for the next window, or leaves it to SPARE.SWAP, as the policy says. A window that opens makes the swaps that waited. -/
def Obligations.HealthCommands : Prop :=
  (∀ (s : State) (d tj : Nat), unpowered s = false → d < 11 → tj < 115 → Answers (.dieTemperature d tj) s fun t => die t d = { die s d with tj := tj, throttle := throttleOf d (die s d).throttle tj } ∧ t.ph.thrSince = (if throttled s = false ∧ throttled t = true then s.now else s.ph.thrSince) ∧ t = withThrottle s fun s => setDie s d { die s d with tj := min tj 255, throttle := throttleOf d (die s d).throttle tj }) ∧
  (∀ (s : State) (d tj : Nat), unpowered s = false → d < 11 → 115 ≤ tj → s.hw.off = false → s.lv.flushCause = 0 → Answers (.dieTemperature d tj) s fun t => (die t d).tj = min tj 255 ∧ t.cc.aonOp = 7 ∧ t.cc.aonRun = 7 ∧ t.cc.aonState = 1 ∧ t.lv.flushCause = 5 ∧ t.lv.flushThen = 3 ∧ t.lv.flushReset = 6 ∧ t = startPowerOff { (withThrottle s fun s => setDie s d { die s d with tj := min tj 255, throttle := throttleOf d (die s d).throttle tj }) with cc := { (withThrottle s fun s => setDie s d { die s d with tj := min tj 255, throttle := throttleOf d (die s d).throttle tj }).cc with aonOp := 7, aonState := 1, aonRun := 7 } } 6) ∧
  (∀ (s : State) (d tj : Nat), unpowered s = false → d < 11 → 115 ≤ tj → s.hw.off = false → Answers (.dieTemperature d tj) s fun t => t = startPowerOff { (withThrottle s fun s => setDie s d { die s d with tj := min tj 255, throttle := throttleOf d (die s d).throttle tj }) with cc := { (withThrottle s fun s => setDie s d { die s d with tj := min tj 255, throttle := throttleOf d (die s d).throttle tj }).cc with aonOp := 7, aonState := 1, aonRun := 7 } } 6) ∧
  (∀ (s : State) (d tj : Nat), unpowered s = false → d < 11 → s.hw.off = true → Answers (.dieTemperature d tj) s fun t => t = withThrottle s fun s => setDie s d { die s d with tj := min tj 255, throttle := throttleOf d (die s d).throttle tj }) ∧
  (∀ (s : State) (d tj : Nat), unpowered s = true ∨ 11 ≤ d → exec (.dieTemperature d tj) s = .next (s)) ∧
  (∀ (s : State) (w : Nat), mainUp s = true → 102 * effBudget s < 100 * w → Answers (.budgetThrottleSet w) s fun t => t.ph.watts = w ∧ t.ph.budgetThr = true ∧ t.ph.thrSince = (if throttled s = true then s.ph.thrSince else s.now) ∧ t = withThrottle { s with ph := { s.ph with watts := w } } fun s => { s with ph := { s.ph with budgetThr := true } }) ∧
  (∀ (s : State) (w : Nat), mainUp s = true → 100 * w ≤ 102 * effBudget s → exec (.budgetThrottleSet w) s = .next ({ s with ph := { s.ph with watts := w } })) ∧
  (∀ (s : State) (w : Nat), mainUp s = true → 100 * w < 95 * effBudget s → exec (.budgetThrottleLift w) s = .next ({ s with ph := { s.ph with watts := w, budgetThr := false } })) ∧
  (∀ (s : State) (w : Nat), mainUp s = true → 95 * effBudget s ≤ 100 * w → exec (.budgetThrottleLift w) s = .next ({ s with ph := { s.ph with watts := w } })) ∧
  (∀ (s : State) (ty p age : Nat), mainUp s = true → age ≤ s.ph.ageLimit → Answers (.ageMonitorSample (.unit ty p) age) s fun t => (health t ty p) = { health s ty p with age := min age 65535 } ∧ t = setHealth s ty p { health s ty p with age := min age 65535 }) ∧
  (∀ (s : State) (q age : Nat), mainUp s = true → age ≤ s.ph.ageLimit → Answers (.ageMonitorSample (.seq q) age) s fun t => t = setHealth s 0 q { health s 0 q with age := min age 65535 }) ∧
  (∀ (s : State) (h : HealthPart) (age : Nat), mainUp s = true → healthUnit h = none → age ≤ s.ph.ageLimit ∨ partKey h = none → exec (.ageMonitorSample h age) s = .next (s)) ∧
  (∀ (s : State) (ty p age q : Nat), mainUp s = true → s.ph.ageLimit < age → s.ph.policy = 0 → 1 ≤ ty → ty < 8 → p < 256 → inService s ty p = true → holdsJob s ty p = false → spareFor s ty p = some q → Answers (.ageMonitorSample (.unit ty p) age) s fun t => (unitAt t ty p).state = 4 ∧ (unitAt t ty q).state = 0 ∧ (unitAt t ty q).logical = (unitAt s ty p).logical ∧ (health t ty p).retired = true ∧ (health t ty p).age = min age 65535 ∧ tget 0 t.ph.ctr 7 = satInc (tget 0 s.ph.ctr 7) 1 ∧ t = crossed (setHealth s ty p { health s ty p with age := min age 65535 }) (ty * 256 + p)) ∧
  (∀ (s : State) (ty p age : Nat), mainUp s = true → s.ph.ageLimit < age → ty < 8 → Answers (.ageMonitorSample (.unit ty p) age) s fun t => t = crossed (setHealth s ty p { health s ty p with age := min age 65535 }) (ty * 256 + p)) ∧
  (∀ (s : State) (q age : Nat), mainUp s = true → s.ph.ageLimit < age → Answers (.ageMonitorSample (.seq q) age) s fun t => t = crossed (setHealth s 0 q { health s 0 q with age := min age 65535 }) q) ∧
  (∀ (s : State) (h : HealthPart) (k age : Nat), mainUp s = true → healthUnit h = none → partKey h = some k → s.ph.ageLimit < age → Answers (.ageMonitorSample h age) s fun t => t = crossed s k) ∧
  (∀ (s : State) (c age : Nat), mainUp s = true → s.ph.ageLimit < age → s.ph.policy = 1 → windowOpen s = false → c < 4 → s.cc.mgmtFailed.testBit c = false → Answers (.ageMonitorSample (.core c) age) s fun t => t.ph.partWait = s.ph.partWait.filter (· ≠ 8 * 256 + c) ++ [8 * 256 + c] ∧ t = crossed s (8 * 256 + c)) ∧
  (∀ (s : State) (c age : Nat), mainUp s = true → s.ph.policy = 2 → c < 4 → s.cc.mgmtFailed.testBit c = false → s.ph.ageLimit < age → exec (.ageMonitorSample (.core c) age) s = .next ({ s with ph := { s.ph with partWait := s.ph.partWait.filter (· ≠ 8 * 256 + c) ++ [8 * 256 + c] } })) ∧
  (∀ (s : State) (ty p n m : Nat), mainUp s = true → n ≤ s.ph.ceLimit → ty ≠ 0 → Answers (.ceSample (.unit ty p) n m) s fun t => health t ty p = { health s ty p with ceHour := min n 65535 } ∧ unitAt t ty p = { unitAt s ty p with ce := min ((unitAt s ty p).ce + m) 4095 } ∧ t = setUnit (setHealth s ty p { health s ty p with ceHour := min n 65535 }) ty p { unitAt (setHealth s ty p { health s ty p with ceHour := min n 65535 }) ty p with ce := min ((unitAt (setHealth s ty p { health s ty p with ceHour := min n 65535 }) ty p).ce + m) 4095 }) ∧
  (∀ (s : State) (ty p n m : Nat), mainUp s = true → s.ph.ceLimit < n → ty ≠ 0 → ty < 8 → Answers (.ceSample (.unit ty p) n m) s fun t => t = crossed (setUnit (setHealth s ty p { health s ty p with ceHour := min n 65535 }) ty p { unitAt (setHealth s ty p { health s ty p with ceHour := min n 65535 }) ty p with ce := min ((unitAt (setHealth s ty p { health s ty p with ceHour := min n 65535 }) ty p).ce + m) 4095 }) (ty * 256 + p)) ∧
  (∀ (s : State) (q n m : Nat), mainUp s = true → Answers (.ceSample (.seq q) n m) s fun t => t = if s.ph.ceLimit < n then crossed (setHealth s 0 q { health s 0 q with ceHour := min n 65535 }) q else (setHealth s 0 q { health s 0 q with ceHour := min n 65535 })) ∧
  (∀ (s : State) (a b n m : Nat), mainUp s = true → Answers (.ceSample (.bank a b) n m) s fun t => tget 0 t.sa.ctr 2 = satInc (tget 0 s.sa.ctr 2) m ∧ t = saCount s 2 m) ∧
  (∀ (s : State) (h : HealthPart) (k n m : Nat), mainUp s = true → healthUnit h = none → partKey h = some k → Answers (.ceSample h n m) s fun t => t = if s.ph.ceLimit < n then crossed s k else s) ∧
  (∀ (s : State) (a n m : Nat), mainUp s = true → exec (.ceSample (.hbm a) n m) s = .next (s)) ∧
  (∀ (s : State) (k n m : Nat), mainUp s = true → s.ph.ceLimit < n → s.ph.policy = 0 → k < 8 → (nandPkg s k).state = 0 → (nandPkg s ((k + 4) % 8)).state = 0 → Answers (.ceSample (.nand k) n m) s fun t => nandPkg t k = { nandPkg s k with state := 1 } ∧ t.lv.nandDegraded = s.lv.nandDegraded ||| 2 ^ (k % 4) ∧ tget 0 t.ph.ctr 7 = satInc (tget 0 s.ph.ctr 7) 1 ∧ t = crossed s (11 * 256 + k)) ∧
  (∀ (s : State) (l e n : Nat), mainUp s = true → l < 816 → s.ph.eyeMin ≤ e → Answers (.eyeSample l e n) s fun t => lane t l = { lane s l with eye := min e 255, corr := min n 65535 } ∧ t = setLane s l { lane s l with eye := min e 255, corr := min n 65535 }) ∧
  (∀ (s : State) (l e n : Nat), mainUp s = true → l < 816 → e < s.ph.eyeMin → e < 256 → laneReason s l = 0 → s.ph.policy = 0 → Answers (.eyeSample l e n) s fun t => (lane t l).eye = e ∧ t.ph.laneDue = s.ph.laneDue.filter (· ≠ l) ++ [l] ∧ t = { (setLane s l { lane s l with eye := min e 255, corr := min n 65535 }) with ph := { s.ph with laneDue := s.ph.laneDue.filter (· ≠ l) ++ [l] } }) ∧
  (∀ (s : State) (l e n : Nat), mainUp s = true → l < 816 → e < s.ph.eyeMin → laneReason s l = 0 → s.ph.policy = 1 → windowOpen s = true → Answers (.eyeSample l e n) s fun t => t = { (setLane s l { lane s l with eye := min e 255, corr := min n 65535 }) with ph := { s.ph with laneDue := s.ph.laneDue.filter (· ≠ l) ++ [l] } }) ∧
  (∀ (s : State) (l e n : Nat), mainUp s = true → l < 816 → e < s.ph.eyeMin → laneReason s l = 0 → s.ph.policy ≠ 0 → s.ph.policy ≠ 1 ∨ windowOpen s = false → Answers (.eyeSample l e n) s fun t => t = { (setLane s l { lane s l with eye := min e 255, corr := min n 65535 }) with ph := { s.ph with laneWait := s.ph.laneWait.filter (· ≠ l) ++ [l] } }) ∧
  (∀ (s : State) (l e n : Nat), mainUp s = true → l < 816 → laneReason s l ≠ 0 → Answers (.eyeSample l e n) s fun t => t = setLane s l { lane s l with eye := min e 255, corr := min n 65535 }) ∧
  (∀ (s : State) (l e n : Nat), 816 ≤ l → exec (.eyeSample l e n) s = .next (s)) ∧
  (∀ (s : State) (k : Nat), mainUp s = true → s.ph.policy = 1 → windowOpen s = true → s.ph.partWait = [8 * 256 + k] → k < 4 → s.cc.mgmtFailed = 0 → Answers (.swapWindowOpen) s fun t => t.cc.mgmtFailed = 2 ^ k ∧ t.ph.partWait = [] ∧ t.ph.laneWait = [] ∧ t.ph.laneDue = s.ph.laneDue.filter (fun l => !s.ph.laneWait.contains l) ++ s.ph.laneWait ∧ tget 0 t.ph.ctr 7 = satInc (tget 0 s.ph.ctr 7) 1 ∧ t = s.ph.partWait.foldl swapPart { s with ph := { s.ph with laneDue := s.ph.laneDue.filter (fun l => !s.ph.laneWait.contains l) ++ s.ph.laneWait, laneWait := [], partWait := [] } }) ∧
  (∀ (s : State), mainUp s = true → s.ph.policy = 1 → windowOpen s = true → Answers (.swapWindowOpen) s fun t => t = s.ph.partWait.foldl swapPart { s with ph := { s.ph with laneDue := s.ph.laneDue.filter (fun l => !s.ph.laneWait.contains l) ++ s.ph.laneWait, laneWait := [], partWait := [] } }) ∧
  (∀ (s : State), s.ph.policy ≠ 1 ∨ windowOpen s = false → exec (.swapWindowOpen) s = .next (s))

/-- While FULL is set writes to a mailbox half are ignored and set OVERRUN; a bad LEN sets MALFORMED. For every mailbox: while FULL of its inbound half is set, a served write of any of its 16 queue words or of IN_HEAD sets OVERRUN and changes nothing else; while it is clear, an IN_HEAD write with LEN 0 or above 16 sets MALFORMED and changes nothing else. Mailbox 79 lies within the sideband's reach, and the same holds of writes to it over that path. -/
def Obligations.FullHalfIgnoresWrites : Prop :=
  (∀ (s : State) (m i : Nat) (v : W64), m < 80 → i < 16 → access s .cxl (0x10000 + m * 0x200 + 8 * i) 8 = .served → (mbx s m).inFull = true → exec (.registerWrite .cxl (0x10000 + m * 0x200 + 8 * i) 8 v) s = .next (setMbx { s with resp := .ok } m { mbx s m with overrun := true })) ∧
  (∀ (s : State) (i : Nat) (v : W64), i < 16 → access s .sideband (0x19E00 + 8 * i) 8 = .served → (mbx s 79).inFull = true → exec (.registerWrite .sideband (0x19E00 + 8 * i) 8 v) s = .next (setMbx { s with resp := .ok } 79 { mbx s 79 with overrun := true })) ∧
  (∀ (s : State) (m : Nat) (v : W64), m < 80 → access s .cxl (0x10000 + m * 0x200 + 0x80) 8 = .served → (mbx s m).inFull = true → exec (.inHeadWrite .cxl m v) s = .next (setMbx { s with resp := .ok } m { mbx s m with overrun := true })) ∧
  (∀ (s : State) (m : Nat) (v : W64), m < 80 → access s .cxl (0x10000 + m * 0x200 + 0x80) 8 = .served → (mbx s m).inFull = false → fld v 0 5 = 0 ∨ 16 < fld v 0 5 → exec (.inHeadWrite .cxl m v) s = .next (setMbx { s with resp := .ok } m { mbx s m with malformed := true }))

/-- A raise of the floor, and that no operation lowers FLOOR or IDEPOCH. While a raise remains, the owner's raise of the floor to a value above FLOOR and no higher than the security version of any of the four running images takes effect, and a raise to any other value is refused with 0x0B04 and leaves the record. No command, in any state, lowers FLOOR or IDEPOCH of the record in force, and so no step does. -/
def Obligations.FloorAndEpochNeverFall : Prop :=
  (∀ (s : State) (k f : Nat), s.hw.perstLow = false → unpowered s = false → s.cc.stage = 6 → ownerOn s k = true → (lcNow s).floorLeft ≠ 0 → (lcNow s).floor < f → f ≤ svnOf s 1 → f ≤ svnOf s 2 → f ≤ svnOf s 3 → f ≤ svnOf s 4 → lcTaken s 0 = false → Answers (.raiseFloor k f) s fun t => (lcNow t).floor = f ∧ (lcNow t).idepoch = (lcNow s).idepoch) ∧
  (∀ (s : State) (k f : Nat), s.hw.perstLow = false → unpowered s = false → s.cc.stage = 6 → k ≤ 4 → k = 0 ∨ (sess s k).opened = true → (lcNow s).floorLeft ≠ 0 → f ≤ (lcNow s).floor ∨ svnOf s 1 < f ∨ svnOf s 2 < f ∨ svnOf s 3 < f ∨ svnOf s 4 < f → lcTaken s 0 = false → Answers (.raiseFloor k f) s fun t => t.resp = .bytes (bytesLE 2 0x0B04) ∧ lcNow t = lcNow s) ∧
  (∀ (c : Instr) (s t : State), exec c s = .next t → (lcNow s).floor ≤ (lcNow t).floor ∧ (lcNow s).idepoch ≤ (lcNow t).idepoch) ∧
  (∀ (s t : State), step s = .next t → (lcNow s).floor ≤ (lcNow t).floor ∧ (lcNow s).idepoch ≤ (lcNow t).idepoch)

/-- Every step keeps the byte memories in canonical form. From every state in which the bulk window's data, its ownership flags and module HBM are in canonical form (addresses strictly rising, no listed byte equal to what an unlisted one reads), every command and every step answers a state in which they are. The canonical form is the model's own way of holding memory (log entry 14). -/
def Obligations.MemoriesStayCanonical : Prop :=
   (∀ (c : Instr) (s t : State), MemoriesCanonical s → exec c s = .next t → MemoriesCanonical t) ∧
   (∀ s t : State, MemoriesCanonical s → step s = .next t → MemoriesCanonical t)

/-- No command touches the queue, and none changes the module's variant. Whatever a command does, the commands waiting behind it stay as they are, and the variant that its capability registers show stays. The queue is the model's own (log entry 1). -/
def Obligations.QueueIsLeftToStep : Prop :=
   ∀ (c : Instr) (s t : State), exec c s = .next t → t.pending = s.pending ∧ t.variant = s.variant

/-- The byte memories are in canonical form at reset. After reset the bulk window's data, its ownership flags and module HBM list nothing and are in canonical form. -/
def Obligations.MemoriesCanonicalAtReset : Prop :=
   MemoriesCanonical State.reset ∧ State.reset.cc.bulk = [] ∧ State.reset.cc.flags = [] ∧ State.reset.tr.hbm = []

/-- A step with a command at the front of the queue is that command on the state with the queue's rest. For every command c and state s whose queue is c followed by l, step of s is exec of c on s with queue l, and exec answers a next state: no command faults or is refused. -/
def Obligations.StepRunsTheFrontCommand : Prop :=
   (∀ (c : Instr) (l : List Instr) (s : State), s.pending = c :: l → step s = exec c { s with pending := l }) ∧
   (∀ (c : Instr) (s : State), ∃ t, exec c s = .next t)

/-- A step on an empty queue lets one nanosecond pass. On an empty queue a module without power stands still; a powered one whose time is not being corrected, with no composition, no throttle and no removal under way, shows device time 1 ns later and changes nothing else. What a step does on an empty queue is the model's choice (log entry 3). -/
def Obligations.IdleStep : Prop :=
   (∀ s : State, s.pending = [] → unpowered s = true → step s = .next s) ∧
   (∀ s : State, s.pending = [] → unpowered s = false → s.pc.slew = 0 → s.tr.comps = [] → throttled s = false → s.lv.removeStart = none →
     step s = .next { s with now := s.now + 1 })

/-- The registers right after a power-on reset. After reset the boot stage is RESET, the bootstrap is not done, the reset cause is 8, the interrupt masks are all set, nothing is accepted and the first sequence number is 0, the limits of LV_LIMITS and PH_BUDGET and the rings stand at their reset columns, the journal, staging, reply cache and every table of objects are empty, every flow weighs 256 and device time is 0. Device time, the variant and the valid images are the model's choice (log entries 15 and 16). -/
def Obligations.ResetState : Prop :=
   State.reset.cc.stage = 0 ∧ State.reset.cc.bootDone = false ∧ State.reset.cc.resetCause = 8 ∧ State.reset.cc.intMask = 0x0000FFFF00FFFFFF ∧
   State.reset.cc.mbxMask = 0xFFFFFFFF ∧ State.reset.lv.nextSeq = 0 ∧ State.reset.lv.dirtyHigh = 256 ∧ State.reset.lv.dirtyMax = 512 ∧
   State.reset.lv.wlSpread = 256 ∧ State.reset.ph.budget = 1500 ∧ State.reset.ph.sbCap = 1500 ∧ State.reset.lv.recs = [] ∧ State.reset.lv.dirty = 0 ∧
   State.reset.te.rc = [] ∧ State.reset.tr.exts = [] ∧ State.reset.tr.regions = [] ∧ State.reset.tr.comps = [] ∧ State.reset.te.sync = [] ∧
   (∀ n, (flow State.reset n).weight = 256) ∧ (∀ n, n < 16 → (ring State.reset n).base = 0x400000 + n * 0x40000 ∧ (ring State.reset n).size = 12) ∧
   (mbx State.reset 0).priv = 1 ∧ (∀ m, m ≠ 0 → mbx State.reset m = {}) ∧ State.reset.now = 0 ∧ State.reset.pending = []
end

