-- ==== Sys2Proof/Laws/Tables.lean ====
section
/-! SUPPORT. The laws of sparse tables and byte memories: what a read after a write gives, that a write leaves
every other entry alone, and that every operation keeps the canonical form. -/

namespace Sys2Proof.Machine

section Read
variable {α : Type} [DecidableEq α] (d : α)

/-- An inserted entry reads back. -/
theorem tget_tins_same {α : Type} (d : α) (t : Tab α) (i : Nat) (v : α) : tget d (tins t i v) i = v := by
  induction t with
  | nil => simp [tins, tget]
  | cons h t ih =>
    obtain ⟨k, w⟩ := h
    simp only [tins]
    split
    · simp [tget]
    · split
      · simp [tget]
      · simp_all [tget]

/-- An insertion leaves every other key alone. -/
theorem tget_tins_ne {α : Type} (d : α) (t : Tab α) {i j : Nat} (v : α) (h : j ≠ i) : tget d (tins t i v) j = tget d t j := by
  induction t with
  | nil => simp [tins, tget, h]
  | cons e t ih =>
    obtain ⟨k, w⟩ := e
    simp only [tins]
    split
    · simp [tget, h]
    · split
      · simp_all [tget]
      · simp [tget, ih]

omit [DecidableEq α] in
/-- A key whose entries are removed reads as the default. -/
theorem tget_remove_same (t : Tab α) (i : Nat) : tget d (t.filter (fun e => e.1 ≠ i)) i = d := by
  induction t with
  | nil => rfl
  | cons e t ih =>
    obtain ⟨k, w⟩ := e
    by_cases hk : k = i
    · simp [List.filter, hk] at ih ⊢; exact ih
    · have : i ≠ k := fun h => hk h.symm
      simp [List.filter, hk, tget, this] at ih ⊢; exact ih

omit [DecidableEq α] in
/-- A removal leaves every other key alone. -/
theorem tget_remove_ne (t : Tab α) {i j : Nat} (h : j ≠ i) : tget d (t.filter (fun e => e.1 ≠ i)) j = tget d t j := by
  induction t with
  | nil => rfl
  | cons e t ih =>
    obtain ⟨k, w⟩ := e
    by_cases hk : k = i
    · have : j ≠ k := fun hj => h (hj.trans hk)
      simp [List.filter, hk, tget, h] at ih ⊢; exact ih
    · simp [List.filter, hk, tget] at ih ⊢; rw [ih]

/-- A written entry reads back. -/
@[simp] theorem tget_tput_same (t : Tab α) (i : Nat) (v : α) : tget d (tput d t i v) i = v := by
  unfold tput
  split
  · next h => rw [h]; exact tget_remove_same d t i
  · exact tget_tins_same d t i v

/-- A write leaves every other key alone. -/
theorem tget_tput_ne (t : Tab α) {i j : Nat} (v : α) (h : j ≠ i) : tget d (tput d t i v) j = tget d t j := by
  unfold tput
  split
  · exact tget_remove_ne d t h
  · exact tget_tins_ne d t v h

/-- What a key reads after a write. -/
theorem tget_tput (t : Tab α) (i j : Nat) (v : α) : tget d (tput d t i v) j = if j = i then v else tget d t j := by
  split
  · next h => rw [h, tget_tput_same]
  · next h => exact tget_tput_ne d t v h

/-- A changed entry reads as changed. -/
@[simp] theorem tget_tmod_same (t : Tab α) (i : Nat) (f : α → α) : tget d (tmod d t i f) i = f (tget d t i) :=
  tget_tput_same d t i _

/-- A change leaves every other key alone. -/
theorem tget_tmod_ne (t : Tab α) {i j : Nat} (f : α → α) (h : j ≠ i) : tget d (tmod d t i f) j = tget d t j :=
  tget_tput_ne d t _ h

end Read

section Canonical
variable {α : Type} [DecidableEq α] (d : α)

/-- A canonical table may start lower. -/
theorem tabWfFrom_mono {lo lo' : Nat} (t : Tab α) (h : lo' ≤ lo) (w : tabWfFrom d lo t = true) : tabWfFrom d lo' t = true := by
  cases t with
  | nil => rfl
  | cons e t =>
    obtain ⟨k, v⟩ := e
    simp only [tabWfFrom, Bool.and_eq_true, decide_eq_true_eq] at w ⊢
    exact ⟨⟨Nat.le_trans h w.1.1, w.1.2⟩, w.2⟩

/-- Filtering by any test keeps the canonical form. -/
theorem tabWfFrom_filter (p : Nat × α → Bool) (t : Tab α) : ∀ lo, tabWfFrom d lo t = true → tabWfFrom d lo (t.filter p) = true := by
  induction t with
  | nil => intro lo _; rfl
  | cons e t ih =>
    obtain ⟨k, v⟩ := e
    intro lo w
    simp only [tabWfFrom, Bool.and_eq_true, decide_eq_true_eq] at w
    rw [List.filter_cons]
    split
    · simp only [tabWfFrom, Bool.and_eq_true, decide_eq_true_eq]
      exact ⟨w.1, ih _ w.2⟩
    · exact tabWfFrom_mono d _ (Nat.le_succ_of_le w.1.1) (ih _ w.2)

/-- Inserting an entry other than the default keeps the canonical form. -/
theorem tabWfFrom_tins (i : Nat) {v : α} (hv : v ≠ d) (t : Tab α) :
    ∀ lo, lo ≤ i → tabWfFrom d lo t = true → tabWfFrom d lo (tins t i v) = true := by
  induction t with
  | nil => intro lo hl _; simp [tins, tabWfFrom, hl, hv]
  | cons e t ih =>
    obtain ⟨k, w⟩ := e
    intro lo hl hw
    simp only [tabWfFrom, Bool.and_eq_true, decide_eq_true_eq] at hw
    simp only [tins]
    split
    · next hk =>
      simp only [tabWfFrom, Bool.and_eq_true, decide_eq_true_eq]
      exact ⟨⟨hl, hv⟩, ⟨hk, hw.1.2⟩, hw.2⟩
    · split
      · next hk =>
        subst hk
        simp only [tabWfFrom, Bool.and_eq_true, decide_eq_true_eq]
        exact ⟨⟨hl, hv⟩, hw.2⟩
      · next h1 h2 =>
        simp only [tabWfFrom, Bool.and_eq_true, decide_eq_true_eq]
        exact ⟨hw.1, ih _ (by omega) hw.2⟩

/-- A write keeps the canonical form. -/
theorem tabWf_tput (t : Tab α) (i : Nat) (v : α) (w : tabWf d t = true) : tabWf d (tput d t i v) = true := by
  unfold tput
  split
  · exact tabWfFrom_filter d _ t 0 w
  · next h => exact tabWfFrom_tins d i h t 0 (Nat.zero_le i) w

/-- A change keeps the canonical form. -/
theorem tabWf_tmod (t : Tab α) (i : Nat) (f : α → α) (w : tabWf d t = true) : tabWf d (tmod d t i f) = true :=
  tabWf_tput d t i _ w

/-- A table made by changing every entry has the canonical form. -/
theorem tabWf_tmap (t : Tab α) (f : Nat → α → α) : tabWf d (tmap d t f) = true := by
  unfold tmap
  induction t with
  | nil => rfl
  | cons e t ih => exact tabWf_tput d _ _ _ ih

/-- A table filtered by a test has the canonical form. -/
theorem tabWf_filter (p : Nat × α → Bool) (t : Tab α) (w : tabWf d t = true) : tabWf d (t.filter p) = true :=
  tabWfFrom_filter d p t 0 w

end Canonical

/-! ### Byte memories -/

/-- A written byte reads back. -/
@[simp] theorem memGet_memPut_same (m : Mem) (a : Nat) (b : Byte) : memGet (memPut m a b) a = b := tget_tput_same 0 m a b

/-- A byte write leaves every other byte alone. -/
theorem memGet_memPut_ne (m : Mem) {a x : Nat} (b : Byte) (h : x ≠ a) : memGet (memPut m a b) x = memGet m x :=
  tget_tput_ne 0 m b h

/-- A write of bytes leaves every byte outside its range alone. -/
theorem memGet_memWrite_outside (bs : Bytes) : ∀ (m : Mem) (a x : Nat), (x < a ∨ a + bs.length ≤ x) → memGet (memWrite m a bs) x = memGet m x := by
  induction bs with
  | nil => intros; rfl
  | cons b t ih =>
    intro m a x h
    simp only [memWrite, List.length_cons] at h ⊢
    rw [ih _ _ _ (by omega), memGet_memPut_ne m b (by omega)]

/-- A written byte string reads back. -/
theorem memRead_memWrite (bs : Bytes) : ∀ (m : Mem) (a : Nat), memRead (memWrite m a bs) a bs.length = bs := by
  induction bs with
  | nil => intros; rfl
  | cons b t ih =>
    intro m a
    simp only [memWrite, memRead, List.length_cons]
    rw [memGet_memWrite_outside _ _ _ _ (by omega), memGet_memPut_same, ih]

/-- A read of bytes sees only the bytes of its range. -/
theorem memRead_congr (m m' : Mem) : ∀ (n a : Nat), (∀ x, a ≤ x → x < a + n → memGet m x = memGet m' x) → memRead m a n = memRead m' a n := by
  intro n
  induction n with
  | zero => intros; rfl
  | succ n ih =>
    intro a h
    simp only [memRead]
    rw [h a (by omega) (by omega), ih (a + 1) (fun x h1 h2 => h x (by omega) (by omega))]

/-- A write of bytes leaves a read of a range apart from it as it was. -/
theorem memRead_memWrite_apart (m : Mem) (a n b : Nat) (bs : Bytes) (h : a + n ≤ b ∨ b + bs.length ≤ a) :
    memRead (memWrite m b bs) a n = memRead m a n :=
  memRead_congr _ _ n a fun x h1 h2 => memGet_memWrite_outside bs m b x (by omega)

/-- A read gives as many bytes as it names. -/
@[simp] theorem memRead_length (m : Mem) : ∀ (n a : Nat), (memRead m a n).length = n := by
  intro n
  induction n with
  | zero => intros; rfl
  | succ n ih => intro a; simp [memRead, ih]

/-- A write under byte enables leaves every byte outside its range alone. -/
theorem memGet_memWriteBE_outside (l : List (Option Byte)) :
    ∀ (m : Mem) (a x : Nat), (x < a ∨ a + l.length ≤ x) → memGet (memWriteBE m a l) x = memGet m x := by
  induction l with
  | nil => intros; rfl
  | cons o t ih =>
    intro m a x h
    simp only [List.length_cons] at h
    cases o with
    | none => simp only [memWriteBE]; exact ih _ _ _ (by omega)
    | some b => simp only [memWriteBE]; rw [ih _ _ _ (by omega), memGet_memPut_ne m b (by omega)]

/-- A byte write keeps the canonical form. -/
theorem wf_memPut (m : Mem) (a : Nat) (b : Byte) (w : Memory.wf m = true) : Memory.wf (memPut m a b) = true := tabWf_tput 0 m a b w

/-- A write of bytes keeps the canonical form. -/
theorem wf_memWrite (bs : Bytes) : ∀ (m : Mem) (a : Nat), Memory.wf m = true → Memory.wf (memWrite m a bs) = true := by
  induction bs with
  | nil => intro m a w; exact w
  | cons b t ih => intro m a w; exact ih _ _ (wf_memPut m a b w)

/-- A write under byte enables keeps the canonical form. -/
theorem wf_memWriteBE (l : List (Option Byte)) : ∀ (m : Mem) (a : Nat), Memory.wf m = true → Memory.wf (memWriteBE m a l) = true := by
  induction l with
  | nil => intro m a w; exact w
  | cons o t ih =>
    intro m a w
    cases o with
    | none => exact ih _ _ w
    | some b => exact ih _ _ (wf_memPut m a b w)

/-- Clearing a range keeps the canonical form. -/
theorem wf_memClear (m : Mem) (a n : Nat) (w : Memory.wf m = true) : Memory.wf (memClear m a n) = true :=
  tabWf_filter 0 _ m w

end Sys2Proof.Machine
end

