-- ==== Sys2Proof/Laws/State.lean ====
section
/-! SUPPORT. What each named update of the state leaves unchanged, one lemma per update and field of `State`, and
what the reader of a table gives after its writer. -/

namespace Sys2Proof.Machine

/-! `bootStage` -/
@[simp] theorem bootStage_variant (s : State) (n : Nat) : (bootStage s n).variant = s.variant := rfl
@[simp] theorem bootStage_swNum (s : State) (n : Nat) : (bootStage s n).swNum = s.swNum := rfl
@[simp] theorem bootStage_now (s : State) (n : Nat) : (bootStage s n).now = s.now := rfl
@[simp] theorem bootStage_lv (s : State) (n : Nat) : (bootStage s n).lv = s.lv := rfl
@[simp] theorem bootStage_sa (s : State) (n : Nat) : (bootStage s n).sa = s.sa := rfl
@[simp] theorem bootStage_gv (s : State) (n : Nat) : (bootStage s n).gv = s.gv := rfl
@[simp] theorem bootStage_te (s : State) (n : Nat) : (bootStage s n).te = s.te := rfl
@[simp] theorem bootStage_sw (s : State) (n : Nat) : (bootStage s n).sw = s.sw := rfl
@[simp] theorem bootStage_pc (s : State) (n : Nat) : (bootStage s n).pc = s.pc := rfl
@[simp] theorem bootStage_tu (s : State) (n : Nat) : (bootStage s n).tu = s.tu := rfl
@[simp] theorem bootStage_tr (s : State) (n : Nat) : (bootStage s n).tr = s.tr := rfl
@[simp] theorem bootStage_ie (s : State) (n : Nat) : (bootStage s n).ie = s.ie := rfl
@[simp] theorem bootStage_ta (s : State) (n : Nat) : (bootStage s n).ta = s.ta := rfl
@[simp] theorem bootStage_ph (s : State) (n : Nat) : (bootStage s n).ph = s.ph := rfl
@[simp] theorem bootStage_hw (s : State) (n : Nat) : (bootStage s n).hw = s.hw := rfl
@[simp] theorem bootStage_vimg (s : State) (n : Nat) : (bootStage s n).vimg = s.vimg := rfl
@[simp] theorem bootStage_stamps (s : State) (n : Nat) : (bootStage s n).stamps = s.stamps := rfl
@[simp] theorem bootStage_resp (s : State) (n : Nat) : (bootStage s n).resp = s.resp := rfl
@[simp] theorem bootStage_msix (s : State) (n : Nat) : (bootStage s n).msix = s.msix := rfl
@[simp] theorem bootStage_freeCtr (s : State) (n : Nat) : (bootStage s n).freeCtr = s.freeCtr := rfl
@[simp] theorem bootStage_pending (s : State) (n : Nat) : (bootStage s n).pending = s.pending := rfl

/-! `bootLv` -/
@[simp] theorem bootLv_variant (s : State) (n : Nat) : (bootLv s n).variant = s.variant := rfl
@[simp] theorem bootLv_swNum (s : State) (n : Nat) : (bootLv s n).swNum = s.swNum := rfl
@[simp] theorem bootLv_now (s : State) (n : Nat) : (bootLv s n).now = s.now := rfl
@[simp] theorem bootLv_cc (s : State) (n : Nat) : (bootLv s n).cc = s.cc := rfl
@[simp] theorem bootLv_sa (s : State) (n : Nat) : (bootLv s n).sa = s.sa := rfl
@[simp] theorem bootLv_gv (s : State) (n : Nat) : (bootLv s n).gv = s.gv := rfl
@[simp] theorem bootLv_te (s : State) (n : Nat) : (bootLv s n).te = s.te := rfl
@[simp] theorem bootLv_sw (s : State) (n : Nat) : (bootLv s n).sw = s.sw := rfl
@[simp] theorem bootLv_pc (s : State) (n : Nat) : (bootLv s n).pc = s.pc := rfl
@[simp] theorem bootLv_tu (s : State) (n : Nat) : (bootLv s n).tu = s.tu := rfl
@[simp] theorem bootLv_tr (s : State) (n : Nat) : (bootLv s n).tr = s.tr := rfl
@[simp] theorem bootLv_ie (s : State) (n : Nat) : (bootLv s n).ie = s.ie := rfl
@[simp] theorem bootLv_ta (s : State) (n : Nat) : (bootLv s n).ta = s.ta := rfl
@[simp] theorem bootLv_ph (s : State) (n : Nat) : (bootLv s n).ph = s.ph := rfl
@[simp] theorem bootLv_hw (s : State) (n : Nat) : (bootLv s n).hw = s.hw := rfl
@[simp] theorem bootLv_vimg (s : State) (n : Nat) : (bootLv s n).vimg = s.vimg := rfl
@[simp] theorem bootLv_stamps (s : State) (n : Nat) : (bootLv s n).stamps = s.stamps := rfl
@[simp] theorem bootLv_resp (s : State) (n : Nat) : (bootLv s n).resp = s.resp := rfl
@[simp] theorem bootLv_msix (s : State) (n : Nat) : (bootLv s n).msix = s.msix := rfl
@[simp] theorem bootLv_freeCtr (s : State) (n : Nat) : (bootLv s n).freeCtr = s.freeCtr := rfl
@[simp] theorem bootLv_pending (s : State) (n : Nat) : (bootLv s n).pending = s.pending := rfl

/-! `loseReplies` -/
@[simp] theorem loseReplies_variant (s : State) : (loseReplies s).variant = s.variant := rfl
@[simp] theorem loseReplies_swNum (s : State) : (loseReplies s).swNum = s.swNum := rfl
@[simp] theorem loseReplies_now (s : State) : (loseReplies s).now = s.now := rfl
@[simp] theorem loseReplies_cc (s : State) : (loseReplies s).cc = s.cc := rfl
@[simp] theorem loseReplies_lv (s : State) : (loseReplies s).lv = s.lv := rfl
@[simp] theorem loseReplies_sa (s : State) : (loseReplies s).sa = s.sa := rfl
@[simp] theorem loseReplies_gv (s : State) : (loseReplies s).gv = s.gv := rfl
@[simp] theorem loseReplies_sw (s : State) : (loseReplies s).sw = s.sw := rfl
@[simp] theorem loseReplies_pc (s : State) : (loseReplies s).pc = s.pc := rfl
@[simp] theorem loseReplies_tu (s : State) : (loseReplies s).tu = s.tu := rfl
@[simp] theorem loseReplies_tr (s : State) : (loseReplies s).tr = s.tr := rfl
@[simp] theorem loseReplies_ie (s : State) : (loseReplies s).ie = s.ie := rfl
@[simp] theorem loseReplies_ta (s : State) : (loseReplies s).ta = s.ta := rfl
@[simp] theorem loseReplies_ph (s : State) : (loseReplies s).ph = s.ph := rfl
@[simp] theorem loseReplies_hw (s : State) : (loseReplies s).hw = s.hw := rfl
@[simp] theorem loseReplies_vimg (s : State) : (loseReplies s).vimg = s.vimg := rfl
@[simp] theorem loseReplies_stamps (s : State) : (loseReplies s).stamps = s.stamps := rfl
@[simp] theorem loseReplies_resp (s : State) : (loseReplies s).resp = s.resp := rfl
@[simp] theorem loseReplies_msix (s : State) : (loseReplies s).msix = s.msix := rfl
@[simp] theorem loseReplies_freeCtr (s : State) : (loseReplies s).freeCtr = s.freeCtr := rfl
@[simp] theorem loseReplies_pending (s : State) : (loseReplies s).pending = s.pending := rfl

/-! `setCtl` -/
@[simp] theorem setCtl_variant (s : State) (cs : Nat) (x : CtlSeq) : (setCtl s cs x).variant = s.variant := rfl
@[simp] theorem setCtl_swNum (s : State) (cs : Nat) (x : CtlSeq) : (setCtl s cs x).swNum = s.swNum := rfl
@[simp] theorem setCtl_now (s : State) (cs : Nat) (x : CtlSeq) : (setCtl s cs x).now = s.now := rfl
@[simp] theorem setCtl_lv (s : State) (cs : Nat) (x : CtlSeq) : (setCtl s cs x).lv = s.lv := rfl
@[simp] theorem setCtl_sa (s : State) (cs : Nat) (x : CtlSeq) : (setCtl s cs x).sa = s.sa := rfl
@[simp] theorem setCtl_gv (s : State) (cs : Nat) (x : CtlSeq) : (setCtl s cs x).gv = s.gv := rfl
@[simp] theorem setCtl_te (s : State) (cs : Nat) (x : CtlSeq) : (setCtl s cs x).te = s.te := rfl
@[simp] theorem setCtl_sw (s : State) (cs : Nat) (x : CtlSeq) : (setCtl s cs x).sw = s.sw := rfl
@[simp] theorem setCtl_pc (s : State) (cs : Nat) (x : CtlSeq) : (setCtl s cs x).pc = s.pc := rfl
@[simp] theorem setCtl_tu (s : State) (cs : Nat) (x : CtlSeq) : (setCtl s cs x).tu = s.tu := rfl
@[simp] theorem setCtl_tr (s : State) (cs : Nat) (x : CtlSeq) : (setCtl s cs x).tr = s.tr := rfl
@[simp] theorem setCtl_ie (s : State) (cs : Nat) (x : CtlSeq) : (setCtl s cs x).ie = s.ie := rfl
@[simp] theorem setCtl_ta (s : State) (cs : Nat) (x : CtlSeq) : (setCtl s cs x).ta = s.ta := rfl
@[simp] theorem setCtl_ph (s : State) (cs : Nat) (x : CtlSeq) : (setCtl s cs x).ph = s.ph := rfl
@[simp] theorem setCtl_hw (s : State) (cs : Nat) (x : CtlSeq) : (setCtl s cs x).hw = s.hw := rfl
@[simp] theorem setCtl_vimg (s : State) (cs : Nat) (x : CtlSeq) : (setCtl s cs x).vimg = s.vimg := rfl
@[simp] theorem setCtl_stamps (s : State) (cs : Nat) (x : CtlSeq) : (setCtl s cs x).stamps = s.stamps := rfl
@[simp] theorem setCtl_resp (s : State) (cs : Nat) (x : CtlSeq) : (setCtl s cs x).resp = s.resp := rfl
@[simp] theorem setCtl_msix (s : State) (cs : Nat) (x : CtlSeq) : (setCtl s cs x).msix = s.msix := rfl
@[simp] theorem setCtl_freeCtr (s : State) (cs : Nat) (x : CtlSeq) : (setCtl s cs x).freeCtr = s.freeCtr := rfl
@[simp] theorem setCtl_pending (s : State) (cs : Nat) (x : CtlSeq) : (setCtl s cs x).pending = s.pending := rfl

/-! `markIssued` -/
@[simp] theorem markIssued_variant (s : State) (seq issuer n : Nat) : (markIssued s seq issuer n).variant = s.variant := rfl
@[simp] theorem markIssued_swNum (s : State) (seq issuer n : Nat) : (markIssued s seq issuer n).swNum = s.swNum := rfl
@[simp] theorem markIssued_now (s : State) (seq issuer n : Nat) : (markIssued s seq issuer n).now = s.now := rfl
@[simp] theorem markIssued_cc (s : State) (seq issuer n : Nat) : (markIssued s seq issuer n).cc = s.cc := rfl
@[simp] theorem markIssued_lv (s : State) (seq issuer n : Nat) : (markIssued s seq issuer n).lv = s.lv := rfl
@[simp] theorem markIssued_sa (s : State) (seq issuer n : Nat) : (markIssued s seq issuer n).sa = s.sa := rfl
@[simp] theorem markIssued_gv (s : State) (seq issuer n : Nat) : (markIssued s seq issuer n).gv = s.gv := rfl
@[simp] theorem markIssued_sw (s : State) (seq issuer n : Nat) : (markIssued s seq issuer n).sw = s.sw := rfl
@[simp] theorem markIssued_pc (s : State) (seq issuer n : Nat) : (markIssued s seq issuer n).pc = s.pc := rfl
@[simp] theorem markIssued_tu (s : State) (seq issuer n : Nat) : (markIssued s seq issuer n).tu = s.tu := rfl
@[simp] theorem markIssued_tr (s : State) (seq issuer n : Nat) : (markIssued s seq issuer n).tr = s.tr := rfl
@[simp] theorem markIssued_ie (s : State) (seq issuer n : Nat) : (markIssued s seq issuer n).ie = s.ie := rfl
@[simp] theorem markIssued_ta (s : State) (seq issuer n : Nat) : (markIssued s seq issuer n).ta = s.ta := rfl
@[simp] theorem markIssued_ph (s : State) (seq issuer n : Nat) : (markIssued s seq issuer n).ph = s.ph := rfl
@[simp] theorem markIssued_hw (s : State) (seq issuer n : Nat) : (markIssued s seq issuer n).hw = s.hw := rfl
@[simp] theorem markIssued_vimg (s : State) (seq issuer n : Nat) : (markIssued s seq issuer n).vimg = s.vimg := rfl
@[simp] theorem markIssued_stamps (s : State) (seq issuer n : Nat) : (markIssued s seq issuer n).stamps = s.stamps := rfl
@[simp] theorem markIssued_resp (s : State) (seq issuer n : Nat) : (markIssued s seq issuer n).resp = s.resp := rfl
@[simp] theorem markIssued_msix (s : State) (seq issuer n : Nat) : (markIssued s seq issuer n).msix = s.msix := rfl
@[simp] theorem markIssued_freeCtr (s : State) (seq issuer n : Nat) : (markIssued s seq issuer n).freeCtr = s.freeCtr := rfl
@[simp] theorem markIssued_pending (s : State) (seq issuer n : Nat) : (markIssued s seq issuer n).pending = s.pending := rfl

/-! `setCopy` -/
@[simp] theorem setCopy_variant (s : State) (e : Nat) (x : CopyEng) : (setCopy s e x).variant = s.variant := rfl
@[simp] theorem setCopy_swNum (s : State) (e : Nat) (x : CopyEng) : (setCopy s e x).swNum = s.swNum := rfl
@[simp] theorem setCopy_now (s : State) (e : Nat) (x : CopyEng) : (setCopy s e x).now = s.now := rfl
@[simp] theorem setCopy_cc (s : State) (e : Nat) (x : CopyEng) : (setCopy s e x).cc = s.cc := rfl
@[simp] theorem setCopy_lv (s : State) (e : Nat) (x : CopyEng) : (setCopy s e x).lv = s.lv := rfl
@[simp] theorem setCopy_sa (s : State) (e : Nat) (x : CopyEng) : (setCopy s e x).sa = s.sa := rfl
@[simp] theorem setCopy_gv (s : State) (e : Nat) (x : CopyEng) : (setCopy s e x).gv = s.gv := rfl
@[simp] theorem setCopy_sw (s : State) (e : Nat) (x : CopyEng) : (setCopy s e x).sw = s.sw := rfl
@[simp] theorem setCopy_pc (s : State) (e : Nat) (x : CopyEng) : (setCopy s e x).pc = s.pc := rfl
@[simp] theorem setCopy_tu (s : State) (e : Nat) (x : CopyEng) : (setCopy s e x).tu = s.tu := rfl
@[simp] theorem setCopy_tr (s : State) (e : Nat) (x : CopyEng) : (setCopy s e x).tr = s.tr := rfl
@[simp] theorem setCopy_ie (s : State) (e : Nat) (x : CopyEng) : (setCopy s e x).ie = s.ie := rfl
@[simp] theorem setCopy_ta (s : State) (e : Nat) (x : CopyEng) : (setCopy s e x).ta = s.ta := rfl
@[simp] theorem setCopy_ph (s : State) (e : Nat) (x : CopyEng) : (setCopy s e x).ph = s.ph := rfl
@[simp] theorem setCopy_hw (s : State) (e : Nat) (x : CopyEng) : (setCopy s e x).hw = s.hw := rfl
@[simp] theorem setCopy_vimg (s : State) (e : Nat) (x : CopyEng) : (setCopy s e x).vimg = s.vimg := rfl
@[simp] theorem setCopy_stamps (s : State) (e : Nat) (x : CopyEng) : (setCopy s e x).stamps = s.stamps := rfl
@[simp] theorem setCopy_resp (s : State) (e : Nat) (x : CopyEng) : (setCopy s e x).resp = s.resp := rfl
@[simp] theorem setCopy_msix (s : State) (e : Nat) (x : CopyEng) : (setCopy s e x).msix = s.msix := rfl
@[simp] theorem setCopy_freeCtr (s : State) (e : Nat) (x : CopyEng) : (setCopy s e x).freeCtr = s.freeCtr := rfl
@[simp] theorem setCopy_pending (s : State) (e : Nat) (x : CopyEng) : (setCopy s e x).pending = s.pending := rfl

/-! `setColl` -/
@[simp] theorem setColl_variant (s : State) (k : Nat) (x : FenceColl) : (setColl s k x).variant = s.variant := rfl
@[simp] theorem setColl_swNum (s : State) (k : Nat) (x : FenceColl) : (setColl s k x).swNum = s.swNum := rfl
@[simp] theorem setColl_now (s : State) (k : Nat) (x : FenceColl) : (setColl s k x).now = s.now := rfl
@[simp] theorem setColl_cc (s : State) (k : Nat) (x : FenceColl) : (setColl s k x).cc = s.cc := rfl
@[simp] theorem setColl_lv (s : State) (k : Nat) (x : FenceColl) : (setColl s k x).lv = s.lv := rfl
@[simp] theorem setColl_sa (s : State) (k : Nat) (x : FenceColl) : (setColl s k x).sa = s.sa := rfl
@[simp] theorem setColl_gv (s : State) (k : Nat) (x : FenceColl) : (setColl s k x).gv = s.gv := rfl
@[simp] theorem setColl_sw (s : State) (k : Nat) (x : FenceColl) : (setColl s k x).sw = s.sw := rfl
@[simp] theorem setColl_pc (s : State) (k : Nat) (x : FenceColl) : (setColl s k x).pc = s.pc := rfl
@[simp] theorem setColl_tu (s : State) (k : Nat) (x : FenceColl) : (setColl s k x).tu = s.tu := rfl
@[simp] theorem setColl_tr (s : State) (k : Nat) (x : FenceColl) : (setColl s k x).tr = s.tr := rfl
@[simp] theorem setColl_ie (s : State) (k : Nat) (x : FenceColl) : (setColl s k x).ie = s.ie := rfl
@[simp] theorem setColl_ta (s : State) (k : Nat) (x : FenceColl) : (setColl s k x).ta = s.ta := rfl
@[simp] theorem setColl_ph (s : State) (k : Nat) (x : FenceColl) : (setColl s k x).ph = s.ph := rfl
@[simp] theorem setColl_hw (s : State) (k : Nat) (x : FenceColl) : (setColl s k x).hw = s.hw := rfl
@[simp] theorem setColl_vimg (s : State) (k : Nat) (x : FenceColl) : (setColl s k x).vimg = s.vimg := rfl
@[simp] theorem setColl_stamps (s : State) (k : Nat) (x : FenceColl) : (setColl s k x).stamps = s.stamps := rfl
@[simp] theorem setColl_resp (s : State) (k : Nat) (x : FenceColl) : (setColl s k x).resp = s.resp := rfl
@[simp] theorem setColl_msix (s : State) (k : Nat) (x : FenceColl) : (setColl s k x).msix = s.msix := rfl
@[simp] theorem setColl_freeCtr (s : State) (k : Nat) (x : FenceColl) : (setColl s k x).freeCtr = s.freeCtr := rfl
@[simp] theorem setColl_pending (s : State) (k : Nat) (x : FenceColl) : (setColl s k x).pending = s.pending := rfl

/-! `setLock` -/
@[simp] theorem setLock_variant (s : State) (k n : Nat) : (setLock s k n).variant = s.variant := rfl
@[simp] theorem setLock_swNum (s : State) (k n : Nat) : (setLock s k n).swNum = s.swNum := rfl
@[simp] theorem setLock_now (s : State) (k n : Nat) : (setLock s k n).now = s.now := rfl
@[simp] theorem setLock_lv (s : State) (k n : Nat) : (setLock s k n).lv = s.lv := rfl
@[simp] theorem setLock_sa (s : State) (k n : Nat) : (setLock s k n).sa = s.sa := rfl
@[simp] theorem setLock_gv (s : State) (k n : Nat) : (setLock s k n).gv = s.gv := rfl
@[simp] theorem setLock_te (s : State) (k n : Nat) : (setLock s k n).te = s.te := rfl
@[simp] theorem setLock_sw (s : State) (k n : Nat) : (setLock s k n).sw = s.sw := rfl
@[simp] theorem setLock_pc (s : State) (k n : Nat) : (setLock s k n).pc = s.pc := rfl
@[simp] theorem setLock_tu (s : State) (k n : Nat) : (setLock s k n).tu = s.tu := rfl
@[simp] theorem setLock_tr (s : State) (k n : Nat) : (setLock s k n).tr = s.tr := rfl
@[simp] theorem setLock_ie (s : State) (k n : Nat) : (setLock s k n).ie = s.ie := rfl
@[simp] theorem setLock_ta (s : State) (k n : Nat) : (setLock s k n).ta = s.ta := rfl
@[simp] theorem setLock_ph (s : State) (k n : Nat) : (setLock s k n).ph = s.ph := rfl
@[simp] theorem setLock_hw (s : State) (k n : Nat) : (setLock s k n).hw = s.hw := rfl
@[simp] theorem setLock_vimg (s : State) (k n : Nat) : (setLock s k n).vimg = s.vimg := rfl
@[simp] theorem setLock_stamps (s : State) (k n : Nat) : (setLock s k n).stamps = s.stamps := rfl
@[simp] theorem setLock_resp (s : State) (k n : Nat) : (setLock s k n).resp = s.resp := rfl
@[simp] theorem setLock_msix (s : State) (k n : Nat) : (setLock s k n).msix = s.msix := rfl
@[simp] theorem setLock_freeCtr (s : State) (k n : Nat) : (setLock s k n).freeCtr = s.freeCtr := rfl
@[simp] theorem setLock_pending (s : State) (k n : Nat) : (setLock s k n).pending = s.pending := rfl

/-! `bulkViolation` -/
@[simp] theorem bulkViolation_variant (s : State) (n : Nat) : (bulkViolation s n).variant = s.variant := rfl
@[simp] theorem bulkViolation_swNum (s : State) (n : Nat) : (bulkViolation s n).swNum = s.swNum := rfl
@[simp] theorem bulkViolation_now (s : State) (n : Nat) : (bulkViolation s n).now = s.now := rfl
@[simp] theorem bulkViolation_lv (s : State) (n : Nat) : (bulkViolation s n).lv = s.lv := rfl
@[simp] theorem bulkViolation_sa (s : State) (n : Nat) : (bulkViolation s n).sa = s.sa := rfl
@[simp] theorem bulkViolation_gv (s : State) (n : Nat) : (bulkViolation s n).gv = s.gv := rfl
@[simp] theorem bulkViolation_te (s : State) (n : Nat) : (bulkViolation s n).te = s.te := rfl
@[simp] theorem bulkViolation_sw (s : State) (n : Nat) : (bulkViolation s n).sw = s.sw := rfl
@[simp] theorem bulkViolation_pc (s : State) (n : Nat) : (bulkViolation s n).pc = s.pc := rfl
@[simp] theorem bulkViolation_tu (s : State) (n : Nat) : (bulkViolation s n).tu = s.tu := rfl
@[simp] theorem bulkViolation_tr (s : State) (n : Nat) : (bulkViolation s n).tr = s.tr := rfl
@[simp] theorem bulkViolation_ie (s : State) (n : Nat) : (bulkViolation s n).ie = s.ie := rfl
@[simp] theorem bulkViolation_ta (s : State) (n : Nat) : (bulkViolation s n).ta = s.ta := rfl
@[simp] theorem bulkViolation_ph (s : State) (n : Nat) : (bulkViolation s n).ph = s.ph := rfl
@[simp] theorem bulkViolation_hw (s : State) (n : Nat) : (bulkViolation s n).hw = s.hw := rfl
@[simp] theorem bulkViolation_vimg (s : State) (n : Nat) : (bulkViolation s n).vimg = s.vimg := rfl
@[simp] theorem bulkViolation_stamps (s : State) (n : Nat) : (bulkViolation s n).stamps = s.stamps := rfl
@[simp] theorem bulkViolation_resp (s : State) (n : Nat) : (bulkViolation s n).resp = s.resp := rfl
@[simp] theorem bulkViolation_msix (s : State) (n : Nat) : (bulkViolation s n).msix = s.msix := rfl
@[simp] theorem bulkViolation_freeCtr (s : State) (n : Nat) : (bulkViolation s n).freeCtr = s.freeCtr := rfl
@[simp] theorem bulkViolation_pending (s : State) (n : Nat) : (bulkViolation s n).pending = s.pending := rfl

/-! `sbCapWrite` -/
@[simp] theorem sbCapWrite_variant (s : State) (v : W64) : (sbCapWrite s v).variant = s.variant := rfl
@[simp] theorem sbCapWrite_swNum (s : State) (v : W64) : (sbCapWrite s v).swNum = s.swNum := rfl
@[simp] theorem sbCapWrite_now (s : State) (v : W64) : (sbCapWrite s v).now = s.now := rfl
@[simp] theorem sbCapWrite_cc (s : State) (v : W64) : (sbCapWrite s v).cc = s.cc := rfl
@[simp] theorem sbCapWrite_lv (s : State) (v : W64) : (sbCapWrite s v).lv = s.lv := rfl
@[simp] theorem sbCapWrite_sa (s : State) (v : W64) : (sbCapWrite s v).sa = s.sa := rfl
@[simp] theorem sbCapWrite_gv (s : State) (v : W64) : (sbCapWrite s v).gv = s.gv := rfl
@[simp] theorem sbCapWrite_te (s : State) (v : W64) : (sbCapWrite s v).te = s.te := rfl
@[simp] theorem sbCapWrite_sw (s : State) (v : W64) : (sbCapWrite s v).sw = s.sw := rfl
@[simp] theorem sbCapWrite_pc (s : State) (v : W64) : (sbCapWrite s v).pc = s.pc := rfl
@[simp] theorem sbCapWrite_tu (s : State) (v : W64) : (sbCapWrite s v).tu = s.tu := rfl
@[simp] theorem sbCapWrite_tr (s : State) (v : W64) : (sbCapWrite s v).tr = s.tr := rfl
@[simp] theorem sbCapWrite_ie (s : State) (v : W64) : (sbCapWrite s v).ie = s.ie := rfl
@[simp] theorem sbCapWrite_ta (s : State) (v : W64) : (sbCapWrite s v).ta = s.ta := rfl
@[simp] theorem sbCapWrite_hw (s : State) (v : W64) : (sbCapWrite s v).hw = s.hw := rfl
@[simp] theorem sbCapWrite_vimg (s : State) (v : W64) : (sbCapWrite s v).vimg = s.vimg := rfl
@[simp] theorem sbCapWrite_stamps (s : State) (v : W64) : (sbCapWrite s v).stamps = s.stamps := rfl
@[simp] theorem sbCapWrite_resp (s : State) (v : W64) : (sbCapWrite s v).resp = s.resp := rfl
@[simp] theorem sbCapWrite_msix (s : State) (v : W64) : (sbCapWrite s v).msix = s.msix := rfl
@[simp] theorem sbCapWrite_freeCtr (s : State) (v : W64) : (sbCapWrite s v).freeCtr = s.freeCtr := rfl
@[simp] theorem sbCapWrite_pending (s : State) (v : W64) : (sbCapWrite s v).pending = s.pending := rfl

/-! `setTenant` -/
@[simp] theorem setTenant_variant (s : State) (e : Nat) (t : Tenant) : (setTenant s e t).variant = s.variant := rfl
@[simp] theorem setTenant_swNum (s : State) (e : Nat) (t : Tenant) : (setTenant s e t).swNum = s.swNum := rfl
@[simp] theorem setTenant_now (s : State) (e : Nat) (t : Tenant) : (setTenant s e t).now = s.now := rfl
@[simp] theorem setTenant_cc (s : State) (e : Nat) (t : Tenant) : (setTenant s e t).cc = s.cc := rfl
@[simp] theorem setTenant_lv (s : State) (e : Nat) (t : Tenant) : (setTenant s e t).lv = s.lv := rfl
@[simp] theorem setTenant_sa (s : State) (e : Nat) (t : Tenant) : (setTenant s e t).sa = s.sa := rfl
@[simp] theorem setTenant_gv (s : State) (e : Nat) (t : Tenant) : (setTenant s e t).gv = s.gv := rfl
@[simp] theorem setTenant_te (s : State) (e : Nat) (t : Tenant) : (setTenant s e t).te = s.te := rfl
@[simp] theorem setTenant_sw (s : State) (e : Nat) (t : Tenant) : (setTenant s e t).sw = s.sw := rfl
@[simp] theorem setTenant_pc (s : State) (e : Nat) (t : Tenant) : (setTenant s e t).pc = s.pc := rfl
@[simp] theorem setTenant_tu (s : State) (e : Nat) (t : Tenant) : (setTenant s e t).tu = s.tu := rfl
@[simp] theorem setTenant_tr (s : State) (e : Nat) (t : Tenant) : (setTenant s e t).tr = s.tr := rfl
@[simp] theorem setTenant_ta (s : State) (e : Nat) (t : Tenant) : (setTenant s e t).ta = s.ta := rfl
@[simp] theorem setTenant_ph (s : State) (e : Nat) (t : Tenant) : (setTenant s e t).ph = s.ph := rfl
@[simp] theorem setTenant_hw (s : State) (e : Nat) (t : Tenant) : (setTenant s e t).hw = s.hw := rfl
@[simp] theorem setTenant_vimg (s : State) (e : Nat) (t : Tenant) : (setTenant s e t).vimg = s.vimg := rfl
@[simp] theorem setTenant_stamps (s : State) (e : Nat) (t : Tenant) : (setTenant s e t).stamps = s.stamps := rfl
@[simp] theorem setTenant_resp (s : State) (e : Nat) (t : Tenant) : (setTenant s e t).resp = s.resp := rfl
@[simp] theorem setTenant_msix (s : State) (e : Nat) (t : Tenant) : (setTenant s e t).msix = s.msix := rfl
@[simp] theorem setTenant_freeCtr (s : State) (e : Nat) (t : Tenant) : (setTenant s e t).freeCtr = s.freeCtr := rfl
@[simp] theorem setTenant_pending (s : State) (e : Nat) (t : Tenant) : (setTenant s e t).pending = s.pending := rfl

/-! `setPch` -/
@[simp] theorem setPch_variant (s : State) (p : Nat) (x : Pch) : (setPch s p x).variant = s.variant := rfl
@[simp] theorem setPch_swNum (s : State) (p : Nat) (x : Pch) : (setPch s p x).swNum = s.swNum := rfl
@[simp] theorem setPch_now (s : State) (p : Nat) (x : Pch) : (setPch s p x).now = s.now := rfl
@[simp] theorem setPch_cc (s : State) (p : Nat) (x : Pch) : (setPch s p x).cc = s.cc := rfl
@[simp] theorem setPch_lv (s : State) (p : Nat) (x : Pch) : (setPch s p x).lv = s.lv := rfl
@[simp] theorem setPch_sa (s : State) (p : Nat) (x : Pch) : (setPch s p x).sa = s.sa := rfl
@[simp] theorem setPch_gv (s : State) (p : Nat) (x : Pch) : (setPch s p x).gv = s.gv := rfl
@[simp] theorem setPch_te (s : State) (p : Nat) (x : Pch) : (setPch s p x).te = s.te := rfl
@[simp] theorem setPch_sw (s : State) (p : Nat) (x : Pch) : (setPch s p x).sw = s.sw := rfl
@[simp] theorem setPch_pc (s : State) (p : Nat) (x : Pch) : (setPch s p x).pc = s.pc := rfl
@[simp] theorem setPch_tu (s : State) (p : Nat) (x : Pch) : (setPch s p x).tu = s.tu := rfl
@[simp] theorem setPch_tr (s : State) (p : Nat) (x : Pch) : (setPch s p x).tr = s.tr := rfl
@[simp] theorem setPch_ta (s : State) (p : Nat) (x : Pch) : (setPch s p x).ta = s.ta := rfl
@[simp] theorem setPch_ph (s : State) (p : Nat) (x : Pch) : (setPch s p x).ph = s.ph := rfl
@[simp] theorem setPch_hw (s : State) (p : Nat) (x : Pch) : (setPch s p x).hw = s.hw := rfl
@[simp] theorem setPch_vimg (s : State) (p : Nat) (x : Pch) : (setPch s p x).vimg = s.vimg := rfl
@[simp] theorem setPch_stamps (s : State) (p : Nat) (x : Pch) : (setPch s p x).stamps = s.stamps := rfl
@[simp] theorem setPch_resp (s : State) (p : Nat) (x : Pch) : (setPch s p x).resp = s.resp := rfl
@[simp] theorem setPch_msix (s : State) (p : Nat) (x : Pch) : (setPch s p x).msix = s.msix := rfl
@[simp] theorem setPch_freeCtr (s : State) (p : Nat) (x : Pch) : (setPch s p x).freeCtr = s.freeCtr := rfl
@[simp] theorem setPch_pending (s : State) (p : Nat) (x : Pch) : (setPch s p x).pending = s.pending := rfl

/-! `dropWays` -/
@[simp] theorem dropWays_variant (s : State) (m : Nat) : (dropWays s m).variant = s.variant := rfl
@[simp] theorem dropWays_swNum (s : State) (m : Nat) : (dropWays s m).swNum = s.swNum := rfl
@[simp] theorem dropWays_now (s : State) (m : Nat) : (dropWays s m).now = s.now := rfl
@[simp] theorem dropWays_cc (s : State) (m : Nat) : (dropWays s m).cc = s.cc := rfl
@[simp] theorem dropWays_lv (s : State) (m : Nat) : (dropWays s m).lv = s.lv := rfl
@[simp] theorem dropWays_sa (s : State) (m : Nat) : (dropWays s m).sa = s.sa := rfl
@[simp] theorem dropWays_gv (s : State) (m : Nat) : (dropWays s m).gv = s.gv := rfl
@[simp] theorem dropWays_te (s : State) (m : Nat) : (dropWays s m).te = s.te := rfl
@[simp] theorem dropWays_sw (s : State) (m : Nat) : (dropWays s m).sw = s.sw := rfl
@[simp] theorem dropWays_pc (s : State) (m : Nat) : (dropWays s m).pc = s.pc := rfl
@[simp] theorem dropWays_tr (s : State) (m : Nat) : (dropWays s m).tr = s.tr := rfl
@[simp] theorem dropWays_ie (s : State) (m : Nat) : (dropWays s m).ie = s.ie := rfl
@[simp] theorem dropWays_ta (s : State) (m : Nat) : (dropWays s m).ta = s.ta := rfl
@[simp] theorem dropWays_ph (s : State) (m : Nat) : (dropWays s m).ph = s.ph := rfl
@[simp] theorem dropWays_hw (s : State) (m : Nat) : (dropWays s m).hw = s.hw := rfl
@[simp] theorem dropWays_vimg (s : State) (m : Nat) : (dropWays s m).vimg = s.vimg := rfl
@[simp] theorem dropWays_stamps (s : State) (m : Nat) : (dropWays s m).stamps = s.stamps := rfl
@[simp] theorem dropWays_resp (s : State) (m : Nat) : (dropWays s m).resp = s.resp := rfl
@[simp] theorem dropWays_msix (s : State) (m : Nat) : (dropWays s m).msix = s.msix := rfl
@[simp] theorem dropWays_freeCtr (s : State) (m : Nat) : (dropWays s m).freeCtr = s.freeCtr := rfl
@[simp] theorem dropWays_pending (s : State) (m : Nat) : (dropWays s m).pending = s.pending := rfl

/-! `dropTmc` -/
@[simp] theorem dropTmc_variant (s : State) (m : Nat) : (dropTmc s m).variant = s.variant := rfl
@[simp] theorem dropTmc_swNum (s : State) (m : Nat) : (dropTmc s m).swNum = s.swNum := rfl
@[simp] theorem dropTmc_now (s : State) (m : Nat) : (dropTmc s m).now = s.now := rfl
@[simp] theorem dropTmc_cc (s : State) (m : Nat) : (dropTmc s m).cc = s.cc := rfl
@[simp] theorem dropTmc_lv (s : State) (m : Nat) : (dropTmc s m).lv = s.lv := rfl
@[simp] theorem dropTmc_sa (s : State) (m : Nat) : (dropTmc s m).sa = s.sa := rfl
@[simp] theorem dropTmc_gv (s : State) (m : Nat) : (dropTmc s m).gv = s.gv := rfl
@[simp] theorem dropTmc_te (s : State) (m : Nat) : (dropTmc s m).te = s.te := rfl
@[simp] theorem dropTmc_sw (s : State) (m : Nat) : (dropTmc s m).sw = s.sw := rfl
@[simp] theorem dropTmc_pc (s : State) (m : Nat) : (dropTmc s m).pc = s.pc := rfl
@[simp] theorem dropTmc_tu (s : State) (m : Nat) : (dropTmc s m).tu = s.tu := rfl
@[simp] theorem dropTmc_tr (s : State) (m : Nat) : (dropTmc s m).tr = s.tr := rfl
@[simp] theorem dropTmc_ta (s : State) (m : Nat) : (dropTmc s m).ta = s.ta := rfl
@[simp] theorem dropTmc_ph (s : State) (m : Nat) : (dropTmc s m).ph = s.ph := rfl
@[simp] theorem dropTmc_hw (s : State) (m : Nat) : (dropTmc s m).hw = s.hw := rfl
@[simp] theorem dropTmc_vimg (s : State) (m : Nat) : (dropTmc s m).vimg = s.vimg := rfl
@[simp] theorem dropTmc_stamps (s : State) (m : Nat) : (dropTmc s m).stamps = s.stamps := rfl
@[simp] theorem dropTmc_resp (s : State) (m : Nat) : (dropTmc s m).resp = s.resp := rfl
@[simp] theorem dropTmc_msix (s : State) (m : Nat) : (dropTmc s m).msix = s.msix := rfl
@[simp] theorem dropTmc_freeCtr (s : State) (m : Nat) : (dropTmc s m).freeCtr = s.freeCtr := rfl
@[simp] theorem dropTmc_pending (s : State) (m : Nat) : (dropTmc s m).pending = s.pending := rfl

/-! `setCtx` -/
@[simp] theorem setCtx_variant (s : State) (c : Nat) (x : Ctx) : (setCtx s c x).variant = s.variant := rfl
@[simp] theorem setCtx_swNum (s : State) (c : Nat) (x : Ctx) : (setCtx s c x).swNum = s.swNum := rfl
@[simp] theorem setCtx_now (s : State) (c : Nat) (x : Ctx) : (setCtx s c x).now = s.now := rfl
@[simp] theorem setCtx_cc (s : State) (c : Nat) (x : Ctx) : (setCtx s c x).cc = s.cc := rfl
@[simp] theorem setCtx_lv (s : State) (c : Nat) (x : Ctx) : (setCtx s c x).lv = s.lv := rfl
@[simp] theorem setCtx_sa (s : State) (c : Nat) (x : Ctx) : (setCtx s c x).sa = s.sa := rfl
@[simp] theorem setCtx_gv (s : State) (c : Nat) (x : Ctx) : (setCtx s c x).gv = s.gv := rfl
@[simp] theorem setCtx_te (s : State) (c : Nat) (x : Ctx) : (setCtx s c x).te = s.te := rfl
@[simp] theorem setCtx_sw (s : State) (c : Nat) (x : Ctx) : (setCtx s c x).sw = s.sw := rfl
@[simp] theorem setCtx_pc (s : State) (c : Nat) (x : Ctx) : (setCtx s c x).pc = s.pc := rfl
@[simp] theorem setCtx_tu (s : State) (c : Nat) (x : Ctx) : (setCtx s c x).tu = s.tu := rfl
@[simp] theorem setCtx_tr (s : State) (c : Nat) (x : Ctx) : (setCtx s c x).tr = s.tr := rfl
@[simp] theorem setCtx_ta (s : State) (c : Nat) (x : Ctx) : (setCtx s c x).ta = s.ta := rfl
@[simp] theorem setCtx_ph (s : State) (c : Nat) (x : Ctx) : (setCtx s c x).ph = s.ph := rfl
@[simp] theorem setCtx_hw (s : State) (c : Nat) (x : Ctx) : (setCtx s c x).hw = s.hw := rfl
@[simp] theorem setCtx_vimg (s : State) (c : Nat) (x : Ctx) : (setCtx s c x).vimg = s.vimg := rfl
@[simp] theorem setCtx_stamps (s : State) (c : Nat) (x : Ctx) : (setCtx s c x).stamps = s.stamps := rfl
@[simp] theorem setCtx_resp (s : State) (c : Nat) (x : Ctx) : (setCtx s c x).resp = s.resp := rfl
@[simp] theorem setCtx_msix (s : State) (c : Nat) (x : Ctx) : (setCtx s c x).msix = s.msix := rfl
@[simp] theorem setCtx_freeCtr (s : State) (c : Nat) (x : Ctx) : (setCtx s c x).freeCtr = s.freeCtr := rfl
@[simp] theorem setCtx_pending (s : State) (c : Nat) (x : Ctx) : (setCtx s c x).pending = s.pending := rfl

/-! `setScrub` -/
@[simp] theorem setScrub_variant (s : State) (d : Nat) (e : ScrubEng) : (setScrub s d e).variant = s.variant := rfl
@[simp] theorem setScrub_swNum (s : State) (d : Nat) (e : ScrubEng) : (setScrub s d e).swNum = s.swNum := rfl
@[simp] theorem setScrub_now (s : State) (d : Nat) (e : ScrubEng) : (setScrub s d e).now = s.now := rfl
@[simp] theorem setScrub_cc (s : State) (d : Nat) (e : ScrubEng) : (setScrub s d e).cc = s.cc := rfl
@[simp] theorem setScrub_lv (s : State) (d : Nat) (e : ScrubEng) : (setScrub s d e).lv = s.lv := rfl
@[simp] theorem setScrub_sa (s : State) (d : Nat) (e : ScrubEng) : (setScrub s d e).sa = s.sa := rfl
@[simp] theorem setScrub_gv (s : State) (d : Nat) (e : ScrubEng) : (setScrub s d e).gv = s.gv := rfl
@[simp] theorem setScrub_te (s : State) (d : Nat) (e : ScrubEng) : (setScrub s d e).te = s.te := rfl
@[simp] theorem setScrub_sw (s : State) (d : Nat) (e : ScrubEng) : (setScrub s d e).sw = s.sw := rfl
@[simp] theorem setScrub_pc (s : State) (d : Nat) (e : ScrubEng) : (setScrub s d e).pc = s.pc := rfl
@[simp] theorem setScrub_tu (s : State) (d : Nat) (e : ScrubEng) : (setScrub s d e).tu = s.tu := rfl
@[simp] theorem setScrub_tr (s : State) (d : Nat) (e : ScrubEng) : (setScrub s d e).tr = s.tr := rfl
@[simp] theorem setScrub_ta (s : State) (d : Nat) (e : ScrubEng) : (setScrub s d e).ta = s.ta := rfl
@[simp] theorem setScrub_ph (s : State) (d : Nat) (e : ScrubEng) : (setScrub s d e).ph = s.ph := rfl
@[simp] theorem setScrub_hw (s : State) (d : Nat) (e : ScrubEng) : (setScrub s d e).hw = s.hw := rfl
@[simp] theorem setScrub_vimg (s : State) (d : Nat) (e : ScrubEng) : (setScrub s d e).vimg = s.vimg := rfl
@[simp] theorem setScrub_stamps (s : State) (d : Nat) (e : ScrubEng) : (setScrub s d e).stamps = s.stamps := rfl
@[simp] theorem setScrub_resp (s : State) (d : Nat) (e : ScrubEng) : (setScrub s d e).resp = s.resp := rfl
@[simp] theorem setScrub_msix (s : State) (d : Nat) (e : ScrubEng) : (setScrub s d e).msix = s.msix := rfl
@[simp] theorem setScrub_freeCtr (s : State) (d : Nat) (e : ScrubEng) : (setScrub s d e).freeCtr = s.freeCtr := rfl
@[simp] theorem setScrub_pending (s : State) (d : Nat) (e : ScrubEng) : (setScrub s d e).pending = s.pending := rfl

/-! `setJobq` -/
@[simp] theorem setJobq_variant (s : State) (n : Nat) (x : JobQueue) : (setJobq s n x).variant = s.variant := rfl
@[simp] theorem setJobq_swNum (s : State) (n : Nat) (x : JobQueue) : (setJobq s n x).swNum = s.swNum := rfl
@[simp] theorem setJobq_now (s : State) (n : Nat) (x : JobQueue) : (setJobq s n x).now = s.now := rfl
@[simp] theorem setJobq_lv (s : State) (n : Nat) (x : JobQueue) : (setJobq s n x).lv = s.lv := rfl
@[simp] theorem setJobq_sa (s : State) (n : Nat) (x : JobQueue) : (setJobq s n x).sa = s.sa := rfl
@[simp] theorem setJobq_gv (s : State) (n : Nat) (x : JobQueue) : (setJobq s n x).gv = s.gv := rfl
@[simp] theorem setJobq_te (s : State) (n : Nat) (x : JobQueue) : (setJobq s n x).te = s.te := rfl
@[simp] theorem setJobq_sw (s : State) (n : Nat) (x : JobQueue) : (setJobq s n x).sw = s.sw := rfl
@[simp] theorem setJobq_pc (s : State) (n : Nat) (x : JobQueue) : (setJobq s n x).pc = s.pc := rfl
@[simp] theorem setJobq_tu (s : State) (n : Nat) (x : JobQueue) : (setJobq s n x).tu = s.tu := rfl
@[simp] theorem setJobq_tr (s : State) (n : Nat) (x : JobQueue) : (setJobq s n x).tr = s.tr := rfl
@[simp] theorem setJobq_ie (s : State) (n : Nat) (x : JobQueue) : (setJobq s n x).ie = s.ie := rfl
@[simp] theorem setJobq_ta (s : State) (n : Nat) (x : JobQueue) : (setJobq s n x).ta = s.ta := rfl
@[simp] theorem setJobq_ph (s : State) (n : Nat) (x : JobQueue) : (setJobq s n x).ph = s.ph := rfl
@[simp] theorem setJobq_hw (s : State) (n : Nat) (x : JobQueue) : (setJobq s n x).hw = s.hw := rfl
@[simp] theorem setJobq_vimg (s : State) (n : Nat) (x : JobQueue) : (setJobq s n x).vimg = s.vimg := rfl
@[simp] theorem setJobq_stamps (s : State) (n : Nat) (x : JobQueue) : (setJobq s n x).stamps = s.stamps := rfl
@[simp] theorem setJobq_resp (s : State) (n : Nat) (x : JobQueue) : (setJobq s n x).resp = s.resp := rfl
@[simp] theorem setJobq_msix (s : State) (n : Nat) (x : JobQueue) : (setJobq s n x).msix = s.msix := rfl
@[simp] theorem setJobq_freeCtr (s : State) (n : Nat) (x : JobQueue) : (setJobq s n x).freeCtr = s.freeCtr := rfl
@[simp] theorem setJobq_pending (s : State) (n : Nat) (x : JobQueue) : (setJobq s n x).pending = s.pending := rfl

/-! `setDie` -/
@[simp] theorem setDie_variant (s : State) (d : Nat) (x : Die) : (setDie s d x).variant = s.variant := rfl
@[simp] theorem setDie_swNum (s : State) (d : Nat) (x : Die) : (setDie s d x).swNum = s.swNum := rfl
@[simp] theorem setDie_now (s : State) (d : Nat) (x : Die) : (setDie s d x).now = s.now := rfl
@[simp] theorem setDie_cc (s : State) (d : Nat) (x : Die) : (setDie s d x).cc = s.cc := rfl
@[simp] theorem setDie_lv (s : State) (d : Nat) (x : Die) : (setDie s d x).lv = s.lv := rfl
@[simp] theorem setDie_sa (s : State) (d : Nat) (x : Die) : (setDie s d x).sa = s.sa := rfl
@[simp] theorem setDie_gv (s : State) (d : Nat) (x : Die) : (setDie s d x).gv = s.gv := rfl
@[simp] theorem setDie_te (s : State) (d : Nat) (x : Die) : (setDie s d x).te = s.te := rfl
@[simp] theorem setDie_sw (s : State) (d : Nat) (x : Die) : (setDie s d x).sw = s.sw := rfl
@[simp] theorem setDie_pc (s : State) (d : Nat) (x : Die) : (setDie s d x).pc = s.pc := rfl
@[simp] theorem setDie_tu (s : State) (d : Nat) (x : Die) : (setDie s d x).tu = s.tu := rfl
@[simp] theorem setDie_tr (s : State) (d : Nat) (x : Die) : (setDie s d x).tr = s.tr := rfl
@[simp] theorem setDie_ie (s : State) (d : Nat) (x : Die) : (setDie s d x).ie = s.ie := rfl
@[simp] theorem setDie_ta (s : State) (d : Nat) (x : Die) : (setDie s d x).ta = s.ta := rfl
@[simp] theorem setDie_hw (s : State) (d : Nat) (x : Die) : (setDie s d x).hw = s.hw := rfl
@[simp] theorem setDie_vimg (s : State) (d : Nat) (x : Die) : (setDie s d x).vimg = s.vimg := rfl
@[simp] theorem setDie_stamps (s : State) (d : Nat) (x : Die) : (setDie s d x).stamps = s.stamps := rfl
@[simp] theorem setDie_resp (s : State) (d : Nat) (x : Die) : (setDie s d x).resp = s.resp := rfl
@[simp] theorem setDie_msix (s : State) (d : Nat) (x : Die) : (setDie s d x).msix = s.msix := rfl
@[simp] theorem setDie_freeCtr (s : State) (d : Nat) (x : Die) : (setDie s d x).freeCtr = s.freeCtr := rfl
@[simp] theorem setDie_pending (s : State) (d : Nat) (x : Die) : (setDie s d x).pending = s.pending := rfl

/-! `setWset` -/
@[simp] theorem setWset_variant (s : State) (w : Nat) (x : WSet) : (setWset s w x).variant = s.variant := rfl
@[simp] theorem setWset_swNum (s : State) (w : Nat) (x : WSet) : (setWset s w x).swNum = s.swNum := rfl
@[simp] theorem setWset_now (s : State) (w : Nat) (x : WSet) : (setWset s w x).now = s.now := rfl
@[simp] theorem setWset_cc (s : State) (w : Nat) (x : WSet) : (setWset s w x).cc = s.cc := rfl
@[simp] theorem setWset_lv (s : State) (w : Nat) (x : WSet) : (setWset s w x).lv = s.lv := rfl
@[simp] theorem setWset_sa (s : State) (w : Nat) (x : WSet) : (setWset s w x).sa = s.sa := rfl
@[simp] theorem setWset_gv (s : State) (w : Nat) (x : WSet) : (setWset s w x).gv = s.gv := rfl
@[simp] theorem setWset_te (s : State) (w : Nat) (x : WSet) : (setWset s w x).te = s.te := rfl
@[simp] theorem setWset_sw (s : State) (w : Nat) (x : WSet) : (setWset s w x).sw = s.sw := rfl
@[simp] theorem setWset_pc (s : State) (w : Nat) (x : WSet) : (setWset s w x).pc = s.pc := rfl
@[simp] theorem setWset_tu (s : State) (w : Nat) (x : WSet) : (setWset s w x).tu = s.tu := rfl
@[simp] theorem setWset_ie (s : State) (w : Nat) (x : WSet) : (setWset s w x).ie = s.ie := rfl
@[simp] theorem setWset_ta (s : State) (w : Nat) (x : WSet) : (setWset s w x).ta = s.ta := rfl
@[simp] theorem setWset_ph (s : State) (w : Nat) (x : WSet) : (setWset s w x).ph = s.ph := rfl
@[simp] theorem setWset_hw (s : State) (w : Nat) (x : WSet) : (setWset s w x).hw = s.hw := rfl
@[simp] theorem setWset_vimg (s : State) (w : Nat) (x : WSet) : (setWset s w x).vimg = s.vimg := rfl
@[simp] theorem setWset_stamps (s : State) (w : Nat) (x : WSet) : (setWset s w x).stamps = s.stamps := rfl
@[simp] theorem setWset_resp (s : State) (w : Nat) (x : WSet) : (setWset s w x).resp = s.resp := rfl
@[simp] theorem setWset_msix (s : State) (w : Nat) (x : WSet) : (setWset s w x).msix = s.msix := rfl
@[simp] theorem setWset_freeCtr (s : State) (w : Nat) (x : WSet) : (setWset s w x).freeCtr = s.freeCtr := rfl
@[simp] theorem setWset_pending (s : State) (w : Nat) (x : WSet) : (setWset s w x).pending = s.pending := rfl

/-! `setMove` -/
@[simp] theorem setMove_variant (s : State) (n : Nat) (m : Move) : (setMove s n m).variant = s.variant := rfl
@[simp] theorem setMove_swNum (s : State) (n : Nat) (m : Move) : (setMove s n m).swNum = s.swNum := rfl
@[simp] theorem setMove_now (s : State) (n : Nat) (m : Move) : (setMove s n m).now = s.now := rfl
@[simp] theorem setMove_cc (s : State) (n : Nat) (m : Move) : (setMove s n m).cc = s.cc := rfl
@[simp] theorem setMove_lv (s : State) (n : Nat) (m : Move) : (setMove s n m).lv = s.lv := rfl
@[simp] theorem setMove_sa (s : State) (n : Nat) (m : Move) : (setMove s n m).sa = s.sa := rfl
@[simp] theorem setMove_gv (s : State) (n : Nat) (m : Move) : (setMove s n m).gv = s.gv := rfl
@[simp] theorem setMove_te (s : State) (n : Nat) (m : Move) : (setMove s n m).te = s.te := rfl
@[simp] theorem setMove_sw (s : State) (n : Nat) (m : Move) : (setMove s n m).sw = s.sw := rfl
@[simp] theorem setMove_pc (s : State) (n : Nat) (m : Move) : (setMove s n m).pc = s.pc := rfl
@[simp] theorem setMove_tu (s : State) (n : Nat) (m : Move) : (setMove s n m).tu = s.tu := rfl
@[simp] theorem setMove_ie (s : State) (n : Nat) (m : Move) : (setMove s n m).ie = s.ie := rfl
@[simp] theorem setMove_ta (s : State) (n : Nat) (m : Move) : (setMove s n m).ta = s.ta := rfl
@[simp] theorem setMove_ph (s : State) (n : Nat) (m : Move) : (setMove s n m).ph = s.ph := rfl
@[simp] theorem setMove_hw (s : State) (n : Nat) (m : Move) : (setMove s n m).hw = s.hw := rfl
@[simp] theorem setMove_vimg (s : State) (n : Nat) (m : Move) : (setMove s n m).vimg = s.vimg := rfl
@[simp] theorem setMove_stamps (s : State) (n : Nat) (m : Move) : (setMove s n m).stamps = s.stamps := rfl
@[simp] theorem setMove_resp (s : State) (n : Nat) (m : Move) : (setMove s n m).resp = s.resp := rfl
@[simp] theorem setMove_msix (s : State) (n : Nat) (m : Move) : (setMove s n m).msix = s.msix := rfl
@[simp] theorem setMove_freeCtr (s : State) (n : Nat) (m : Move) : (setMove s n m).freeCtr = s.freeCtr := rfl
@[simp] theorem setMove_pending (s : State) (n : Nat) (m : Move) : (setMove s n m).pending = s.pending := rfl

/-! `setSess` -/
@[simp] theorem setSess_variant (s : State) (k : Nat) (x : Session) : (setSess s k x).variant = s.variant := rfl
@[simp] theorem setSess_swNum (s : State) (k : Nat) (x : Session) : (setSess s k x).swNum = s.swNum := rfl
@[simp] theorem setSess_now (s : State) (k : Nat) (x : Session) : (setSess s k x).now = s.now := rfl
@[simp] theorem setSess_cc (s : State) (k : Nat) (x : Session) : (setSess s k x).cc = s.cc := rfl
@[simp] theorem setSess_lv (s : State) (k : Nat) (x : Session) : (setSess s k x).lv = s.lv := rfl
@[simp] theorem setSess_sa (s : State) (k : Nat) (x : Session) : (setSess s k x).sa = s.sa := rfl
@[simp] theorem setSess_gv (s : State) (k : Nat) (x : Session) : (setSess s k x).gv = s.gv := rfl
@[simp] theorem setSess_te (s : State) (k : Nat) (x : Session) : (setSess s k x).te = s.te := rfl
@[simp] theorem setSess_sw (s : State) (k : Nat) (x : Session) : (setSess s k x).sw = s.sw := rfl
@[simp] theorem setSess_pc (s : State) (k : Nat) (x : Session) : (setSess s k x).pc = s.pc := rfl
@[simp] theorem setSess_tu (s : State) (k : Nat) (x : Session) : (setSess s k x).tu = s.tu := rfl
@[simp] theorem setSess_tr (s : State) (k : Nat) (x : Session) : (setSess s k x).tr = s.tr := rfl
@[simp] theorem setSess_ie (s : State) (k : Nat) (x : Session) : (setSess s k x).ie = s.ie := rfl
@[simp] theorem setSess_ph (s : State) (k : Nat) (x : Session) : (setSess s k x).ph = s.ph := rfl
@[simp] theorem setSess_hw (s : State) (k : Nat) (x : Session) : (setSess s k x).hw = s.hw := rfl
@[simp] theorem setSess_vimg (s : State) (k : Nat) (x : Session) : (setSess s k x).vimg = s.vimg := rfl
@[simp] theorem setSess_stamps (s : State) (k : Nat) (x : Session) : (setSess s k x).stamps = s.stamps := rfl
@[simp] theorem setSess_resp (s : State) (k : Nat) (x : Session) : (setSess s k x).resp = s.resp := rfl
@[simp] theorem setSess_msix (s : State) (k : Nat) (x : Session) : (setSess s k x).msix = s.msix := rfl
@[simp] theorem setSess_freeCtr (s : State) (k : Nat) (x : Session) : (setSess s k x).freeCtr = s.freeCtr := rfl
@[simp] theorem setSess_pending (s : State) (k : Nat) (x : Session) : (setSess s k x).pending = s.pending := rfl

/-! `dozeLanes` -/
@[simp] theorem dozeLanes_variant (s : State) (p : Nat) (on : Bool) : (dozeLanes s p on).variant = s.variant := rfl
@[simp] theorem dozeLanes_swNum (s : State) (p : Nat) (on : Bool) : (dozeLanes s p on).swNum = s.swNum := rfl
@[simp] theorem dozeLanes_now (s : State) (p : Nat) (on : Bool) : (dozeLanes s p on).now = s.now := rfl
@[simp] theorem dozeLanes_cc (s : State) (p : Nat) (on : Bool) : (dozeLanes s p on).cc = s.cc := rfl
@[simp] theorem dozeLanes_lv (s : State) (p : Nat) (on : Bool) : (dozeLanes s p on).lv = s.lv := rfl
@[simp] theorem dozeLanes_sa (s : State) (p : Nat) (on : Bool) : (dozeLanes s p on).sa = s.sa := rfl
@[simp] theorem dozeLanes_gv (s : State) (p : Nat) (on : Bool) : (dozeLanes s p on).gv = s.gv := rfl
@[simp] theorem dozeLanes_te (s : State) (p : Nat) (on : Bool) : (dozeLanes s p on).te = s.te := rfl
@[simp] theorem dozeLanes_sw (s : State) (p : Nat) (on : Bool) : (dozeLanes s p on).sw = s.sw := rfl
@[simp] theorem dozeLanes_tu (s : State) (p : Nat) (on : Bool) : (dozeLanes s p on).tu = s.tu := rfl
@[simp] theorem dozeLanes_tr (s : State) (p : Nat) (on : Bool) : (dozeLanes s p on).tr = s.tr := rfl
@[simp] theorem dozeLanes_ie (s : State) (p : Nat) (on : Bool) : (dozeLanes s p on).ie = s.ie := rfl
@[simp] theorem dozeLanes_ta (s : State) (p : Nat) (on : Bool) : (dozeLanes s p on).ta = s.ta := rfl
@[simp] theorem dozeLanes_ph (s : State) (p : Nat) (on : Bool) : (dozeLanes s p on).ph = s.ph := rfl
@[simp] theorem dozeLanes_hw (s : State) (p : Nat) (on : Bool) : (dozeLanes s p on).hw = s.hw := rfl
@[simp] theorem dozeLanes_vimg (s : State) (p : Nat) (on : Bool) : (dozeLanes s p on).vimg = s.vimg := rfl
@[simp] theorem dozeLanes_stamps (s : State) (p : Nat) (on : Bool) : (dozeLanes s p on).stamps = s.stamps := rfl
@[simp] theorem dozeLanes_resp (s : State) (p : Nat) (on : Bool) : (dozeLanes s p on).resp = s.resp := rfl
@[simp] theorem dozeLanes_msix (s : State) (p : Nat) (on : Bool) : (dozeLanes s p on).msix = s.msix := rfl
@[simp] theorem dozeLanes_freeCtr (s : State) (p : Nat) (on : Bool) : (dozeLanes s p on).freeCtr = s.freeCtr := rfl
@[simp] theorem dozeLanes_pending (s : State) (p : Nat) (on : Bool) : (dozeLanes s p on).pending = s.pending := rfl

/-! `setGroup` -/
@[simp] theorem setGroup_variant (s : State) (g : Nat) (x : McGroup) : (setGroup s g x).variant = s.variant := rfl
@[simp] theorem setGroup_swNum (s : State) (g : Nat) (x : McGroup) : (setGroup s g x).swNum = s.swNum := rfl
@[simp] theorem setGroup_now (s : State) (g : Nat) (x : McGroup) : (setGroup s g x).now = s.now := rfl
@[simp] theorem setGroup_cc (s : State) (g : Nat) (x : McGroup) : (setGroup s g x).cc = s.cc := rfl
@[simp] theorem setGroup_lv (s : State) (g : Nat) (x : McGroup) : (setGroup s g x).lv = s.lv := rfl
@[simp] theorem setGroup_sa (s : State) (g : Nat) (x : McGroup) : (setGroup s g x).sa = s.sa := rfl
@[simp] theorem setGroup_gv (s : State) (g : Nat) (x : McGroup) : (setGroup s g x).gv = s.gv := rfl
@[simp] theorem setGroup_te (s : State) (g : Nat) (x : McGroup) : (setGroup s g x).te = s.te := rfl
@[simp] theorem setGroup_pc (s : State) (g : Nat) (x : McGroup) : (setGroup s g x).pc = s.pc := rfl
@[simp] theorem setGroup_tu (s : State) (g : Nat) (x : McGroup) : (setGroup s g x).tu = s.tu := rfl
@[simp] theorem setGroup_tr (s : State) (g : Nat) (x : McGroup) : (setGroup s g x).tr = s.tr := rfl
@[simp] theorem setGroup_ie (s : State) (g : Nat) (x : McGroup) : (setGroup s g x).ie = s.ie := rfl
@[simp] theorem setGroup_ta (s : State) (g : Nat) (x : McGroup) : (setGroup s g x).ta = s.ta := rfl
@[simp] theorem setGroup_ph (s : State) (g : Nat) (x : McGroup) : (setGroup s g x).ph = s.ph := rfl
@[simp] theorem setGroup_hw (s : State) (g : Nat) (x : McGroup) : (setGroup s g x).hw = s.hw := rfl
@[simp] theorem setGroup_vimg (s : State) (g : Nat) (x : McGroup) : (setGroup s g x).vimg = s.vimg := rfl
@[simp] theorem setGroup_stamps (s : State) (g : Nat) (x : McGroup) : (setGroup s g x).stamps = s.stamps := rfl
@[simp] theorem setGroup_resp (s : State) (g : Nat) (x : McGroup) : (setGroup s g x).resp = s.resp := rfl
@[simp] theorem setGroup_msix (s : State) (g : Nat) (x : McGroup) : (setGroup s g x).msix = s.msix := rfl
@[simp] theorem setGroup_freeCtr (s : State) (g : Nat) (x : McGroup) : (setGroup s g x).freeCtr = s.freeCtr := rfl
@[simp] theorem setGroup_pending (s : State) (g : Nat) (x : McGroup) : (setGroup s g x).pending = s.pending := rfl

/-! `setMeter` -/
@[simp] theorem setMeter_variant (s : State) (m : Nat) (x : Meter) : (setMeter s m x).variant = s.variant := rfl
@[simp] theorem setMeter_swNum (s : State) (m : Nat) (x : Meter) : (setMeter s m x).swNum = s.swNum := rfl
@[simp] theorem setMeter_now (s : State) (m : Nat) (x : Meter) : (setMeter s m x).now = s.now := rfl
@[simp] theorem setMeter_cc (s : State) (m : Nat) (x : Meter) : (setMeter s m x).cc = s.cc := rfl
@[simp] theorem setMeter_lv (s : State) (m : Nat) (x : Meter) : (setMeter s m x).lv = s.lv := rfl
@[simp] theorem setMeter_sa (s : State) (m : Nat) (x : Meter) : (setMeter s m x).sa = s.sa := rfl
@[simp] theorem setMeter_gv (s : State) (m : Nat) (x : Meter) : (setMeter s m x).gv = s.gv := rfl
@[simp] theorem setMeter_te (s : State) (m : Nat) (x : Meter) : (setMeter s m x).te = s.te := rfl
@[simp] theorem setMeter_pc (s : State) (m : Nat) (x : Meter) : (setMeter s m x).pc = s.pc := rfl
@[simp] theorem setMeter_tu (s : State) (m : Nat) (x : Meter) : (setMeter s m x).tu = s.tu := rfl
@[simp] theorem setMeter_tr (s : State) (m : Nat) (x : Meter) : (setMeter s m x).tr = s.tr := rfl
@[simp] theorem setMeter_ie (s : State) (m : Nat) (x : Meter) : (setMeter s m x).ie = s.ie := rfl
@[simp] theorem setMeter_ta (s : State) (m : Nat) (x : Meter) : (setMeter s m x).ta = s.ta := rfl
@[simp] theorem setMeter_ph (s : State) (m : Nat) (x : Meter) : (setMeter s m x).ph = s.ph := rfl
@[simp] theorem setMeter_hw (s : State) (m : Nat) (x : Meter) : (setMeter s m x).hw = s.hw := rfl
@[simp] theorem setMeter_vimg (s : State) (m : Nat) (x : Meter) : (setMeter s m x).vimg = s.vimg := rfl
@[simp] theorem setMeter_stamps (s : State) (m : Nat) (x : Meter) : (setMeter s m x).stamps = s.stamps := rfl
@[simp] theorem setMeter_resp (s : State) (m : Nat) (x : Meter) : (setMeter s m x).resp = s.resp := rfl
@[simp] theorem setMeter_msix (s : State) (m : Nat) (x : Meter) : (setMeter s m x).msix = s.msix := rfl
@[simp] theorem setMeter_freeCtr (s : State) (m : Nat) (x : Meter) : (setMeter s m x).freeCtr = s.freeCtr := rfl
@[simp] theorem setMeter_pending (s : State) (m : Nat) (x : Meter) : (setMeter s m x).pending = s.pending := rfl

/-! `setMirror` -/
@[simp] theorem setMirror_variant (s : State) (n : Nat) (x : Mirror) : (setMirror s n x).variant = s.variant := rfl
@[simp] theorem setMirror_swNum (s : State) (n : Nat) (x : Mirror) : (setMirror s n x).swNum = s.swNum := rfl
@[simp] theorem setMirror_now (s : State) (n : Nat) (x : Mirror) : (setMirror s n x).now = s.now := rfl
@[simp] theorem setMirror_cc (s : State) (n : Nat) (x : Mirror) : (setMirror s n x).cc = s.cc := rfl
@[simp] theorem setMirror_lv (s : State) (n : Nat) (x : Mirror) : (setMirror s n x).lv = s.lv := rfl
@[simp] theorem setMirror_sa (s : State) (n : Nat) (x : Mirror) : (setMirror s n x).sa = s.sa := rfl
@[simp] theorem setMirror_gv (s : State) (n : Nat) (x : Mirror) : (setMirror s n x).gv = s.gv := rfl
@[simp] theorem setMirror_te (s : State) (n : Nat) (x : Mirror) : (setMirror s n x).te = s.te := rfl
@[simp] theorem setMirror_pc (s : State) (n : Nat) (x : Mirror) : (setMirror s n x).pc = s.pc := rfl
@[simp] theorem setMirror_tu (s : State) (n : Nat) (x : Mirror) : (setMirror s n x).tu = s.tu := rfl
@[simp] theorem setMirror_tr (s : State) (n : Nat) (x : Mirror) : (setMirror s n x).tr = s.tr := rfl
@[simp] theorem setMirror_ie (s : State) (n : Nat) (x : Mirror) : (setMirror s n x).ie = s.ie := rfl
@[simp] theorem setMirror_ta (s : State) (n : Nat) (x : Mirror) : (setMirror s n x).ta = s.ta := rfl
@[simp] theorem setMirror_ph (s : State) (n : Nat) (x : Mirror) : (setMirror s n x).ph = s.ph := rfl
@[simp] theorem setMirror_hw (s : State) (n : Nat) (x : Mirror) : (setMirror s n x).hw = s.hw := rfl
@[simp] theorem setMirror_vimg (s : State) (n : Nat) (x : Mirror) : (setMirror s n x).vimg = s.vimg := rfl
@[simp] theorem setMirror_stamps (s : State) (n : Nat) (x : Mirror) : (setMirror s n x).stamps = s.stamps := rfl
@[simp] theorem setMirror_resp (s : State) (n : Nat) (x : Mirror) : (setMirror s n x).resp = s.resp := rfl
@[simp] theorem setMirror_msix (s : State) (n : Nat) (x : Mirror) : (setMirror s n x).msix = s.msix := rfl
@[simp] theorem setMirror_freeCtr (s : State) (n : Nat) (x : Mirror) : (setMirror s n x).freeCtr = s.freeCtr := rfl
@[simp] theorem setMirror_pending (s : State) (n : Nat) (x : Mirror) : (setMirror s n x).pending = s.pending := rfl

/-! `draw` -/
@[simp] theorem draw_variant (s : State) : (draw s).variant = s.variant := rfl
@[simp] theorem draw_swNum (s : State) : (draw s).swNum = s.swNum := rfl
@[simp] theorem draw_now (s : State) : (draw s).now = s.now := rfl
@[simp] theorem draw_cc (s : State) : (draw s).cc = s.cc := rfl
@[simp] theorem draw_lv (s : State) : (draw s).lv = s.lv := rfl
@[simp] theorem draw_sa (s : State) : (draw s).sa = s.sa := rfl
@[simp] theorem draw_gv (s : State) : (draw s).gv = s.gv := rfl
@[simp] theorem draw_te (s : State) : (draw s).te = s.te := rfl
@[simp] theorem draw_sw (s : State) : (draw s).sw = s.sw := rfl
@[simp] theorem draw_pc (s : State) : (draw s).pc = s.pc := rfl
@[simp] theorem draw_tu (s : State) : (draw s).tu = s.tu := rfl
@[simp] theorem draw_tr (s : State) : (draw s).tr = s.tr := rfl
@[simp] theorem draw_ie (s : State) : (draw s).ie = s.ie := rfl
@[simp] theorem draw_ta (s : State) : (draw s).ta = s.ta := rfl
@[simp] theorem draw_ph (s : State) : (draw s).ph = s.ph := rfl
@[simp] theorem draw_hw (s : State) : (draw s).hw = s.hw := rfl
@[simp] theorem draw_vimg (s : State) : (draw s).vimg = s.vimg := rfl
@[simp] theorem draw_stamps (s : State) : (draw s).stamps = s.stamps := rfl
@[simp] theorem draw_resp (s : State) : (draw s).resp = s.resp := rfl
@[simp] theorem draw_msix (s : State) : (draw s).msix = s.msix := rfl
@[simp] theorem draw_pending (s : State) : (draw s).pending = s.pending := rfl

/-! `setMbx` -/
@[simp] theorem setMbx_variant (s : State) (m : Nat) (x : Mailbox) : (setMbx s m x).variant = s.variant := rfl
@[simp] theorem setMbx_swNum (s : State) (m : Nat) (x : Mailbox) : (setMbx s m x).swNum = s.swNum := rfl
@[simp] theorem setMbx_now (s : State) (m : Nat) (x : Mailbox) : (setMbx s m x).now = s.now := rfl
@[simp] theorem setMbx_lv (s : State) (m : Nat) (x : Mailbox) : (setMbx s m x).lv = s.lv := rfl
@[simp] theorem setMbx_sa (s : State) (m : Nat) (x : Mailbox) : (setMbx s m x).sa = s.sa := rfl
@[simp] theorem setMbx_gv (s : State) (m : Nat) (x : Mailbox) : (setMbx s m x).gv = s.gv := rfl
@[simp] theorem setMbx_te (s : State) (m : Nat) (x : Mailbox) : (setMbx s m x).te = s.te := rfl
@[simp] theorem setMbx_sw (s : State) (m : Nat) (x : Mailbox) : (setMbx s m x).sw = s.sw := rfl
@[simp] theorem setMbx_pc (s : State) (m : Nat) (x : Mailbox) : (setMbx s m x).pc = s.pc := rfl
@[simp] theorem setMbx_tu (s : State) (m : Nat) (x : Mailbox) : (setMbx s m x).tu = s.tu := rfl
@[simp] theorem setMbx_tr (s : State) (m : Nat) (x : Mailbox) : (setMbx s m x).tr = s.tr := rfl
@[simp] theorem setMbx_ie (s : State) (m : Nat) (x : Mailbox) : (setMbx s m x).ie = s.ie := rfl
@[simp] theorem setMbx_ta (s : State) (m : Nat) (x : Mailbox) : (setMbx s m x).ta = s.ta := rfl
@[simp] theorem setMbx_ph (s : State) (m : Nat) (x : Mailbox) : (setMbx s m x).ph = s.ph := rfl
@[simp] theorem setMbx_hw (s : State) (m : Nat) (x : Mailbox) : (setMbx s m x).hw = s.hw := rfl
@[simp] theorem setMbx_vimg (s : State) (m : Nat) (x : Mailbox) : (setMbx s m x).vimg = s.vimg := rfl
@[simp] theorem setMbx_stamps (s : State) (m : Nat) (x : Mailbox) : (setMbx s m x).stamps = s.stamps := rfl
@[simp] theorem setMbx_resp (s : State) (m : Nat) (x : Mailbox) : (setMbx s m x).resp = s.resp := rfl
@[simp] theorem setMbx_msix (s : State) (m : Nat) (x : Mailbox) : (setMbx s m x).msix = s.msix := rfl
@[simp] theorem setMbx_freeCtr (s : State) (m : Nat) (x : Mailbox) : (setMbx s m x).freeCtr = s.freeCtr := rfl
@[simp] theorem setMbx_pending (s : State) (m : Nat) (x : Mailbox) : (setMbx s m x).pending = s.pending := rfl

/-! `setRing` -/
@[simp] theorem setRing_variant (s : State) (n : Nat) (r : Ring) : (setRing s n r).variant = s.variant := rfl
@[simp] theorem setRing_swNum (s : State) (n : Nat) (r : Ring) : (setRing s n r).swNum = s.swNum := rfl
@[simp] theorem setRing_now (s : State) (n : Nat) (r : Ring) : (setRing s n r).now = s.now := rfl
@[simp] theorem setRing_lv (s : State) (n : Nat) (r : Ring) : (setRing s n r).lv = s.lv := rfl
@[simp] theorem setRing_sa (s : State) (n : Nat) (r : Ring) : (setRing s n r).sa = s.sa := rfl
@[simp] theorem setRing_gv (s : State) (n : Nat) (r : Ring) : (setRing s n r).gv = s.gv := rfl
@[simp] theorem setRing_te (s : State) (n : Nat) (r : Ring) : (setRing s n r).te = s.te := rfl
@[simp] theorem setRing_sw (s : State) (n : Nat) (r : Ring) : (setRing s n r).sw = s.sw := rfl
@[simp] theorem setRing_pc (s : State) (n : Nat) (r : Ring) : (setRing s n r).pc = s.pc := rfl
@[simp] theorem setRing_tu (s : State) (n : Nat) (r : Ring) : (setRing s n r).tu = s.tu := rfl
@[simp] theorem setRing_tr (s : State) (n : Nat) (r : Ring) : (setRing s n r).tr = s.tr := rfl
@[simp] theorem setRing_ie (s : State) (n : Nat) (r : Ring) : (setRing s n r).ie = s.ie := rfl
@[simp] theorem setRing_ta (s : State) (n : Nat) (r : Ring) : (setRing s n r).ta = s.ta := rfl
@[simp] theorem setRing_ph (s : State) (n : Nat) (r : Ring) : (setRing s n r).ph = s.ph := rfl
@[simp] theorem setRing_hw (s : State) (n : Nat) (r : Ring) : (setRing s n r).hw = s.hw := rfl
@[simp] theorem setRing_vimg (s : State) (n : Nat) (r : Ring) : (setRing s n r).vimg = s.vimg := rfl
@[simp] theorem setRing_stamps (s : State) (n : Nat) (r : Ring) : (setRing s n r).stamps = s.stamps := rfl
@[simp] theorem setRing_resp (s : State) (n : Nat) (r : Ring) : (setRing s n r).resp = s.resp := rfl
@[simp] theorem setRing_msix (s : State) (n : Nat) (r : Ring) : (setRing s n r).msix = s.msix := rfl
@[simp] theorem setRing_freeCtr (s : State) (n : Nat) (r : Ring) : (setRing s n r).freeCtr = s.freeCtr := rfl
@[simp] theorem setRing_pending (s : State) (n : Nat) (r : Ring) : (setRing s n r).pending = s.pending := rfl

/-! `addDirty` -/
@[simp] theorem addDirty_variant (s : State) (n : Nat) : (addDirty s n).variant = s.variant := rfl
@[simp] theorem addDirty_swNum (s : State) (n : Nat) : (addDirty s n).swNum = s.swNum := rfl
@[simp] theorem addDirty_now (s : State) (n : Nat) : (addDirty s n).now = s.now := rfl
@[simp] theorem addDirty_cc (s : State) (n : Nat) : (addDirty s n).cc = s.cc := rfl
@[simp] theorem addDirty_sa (s : State) (n : Nat) : (addDirty s n).sa = s.sa := rfl
@[simp] theorem addDirty_gv (s : State) (n : Nat) : (addDirty s n).gv = s.gv := rfl
@[simp] theorem addDirty_te (s : State) (n : Nat) : (addDirty s n).te = s.te := rfl
@[simp] theorem addDirty_sw (s : State) (n : Nat) : (addDirty s n).sw = s.sw := rfl
@[simp] theorem addDirty_pc (s : State) (n : Nat) : (addDirty s n).pc = s.pc := rfl
@[simp] theorem addDirty_tu (s : State) (n : Nat) : (addDirty s n).tu = s.tu := rfl
@[simp] theorem addDirty_tr (s : State) (n : Nat) : (addDirty s n).tr = s.tr := rfl
@[simp] theorem addDirty_ie (s : State) (n : Nat) : (addDirty s n).ie = s.ie := rfl
@[simp] theorem addDirty_ta (s : State) (n : Nat) : (addDirty s n).ta = s.ta := rfl
@[simp] theorem addDirty_ph (s : State) (n : Nat) : (addDirty s n).ph = s.ph := rfl
@[simp] theorem addDirty_hw (s : State) (n : Nat) : (addDirty s n).hw = s.hw := rfl
@[simp] theorem addDirty_vimg (s : State) (n : Nat) : (addDirty s n).vimg = s.vimg := rfl
@[simp] theorem addDirty_stamps (s : State) (n : Nat) : (addDirty s n).stamps = s.stamps := rfl
@[simp] theorem addDirty_resp (s : State) (n : Nat) : (addDirty s n).resp = s.resp := rfl
@[simp] theorem addDirty_msix (s : State) (n : Nat) : (addDirty s n).msix = s.msix := rfl
@[simp] theorem addDirty_freeCtr (s : State) (n : Nat) : (addDirty s n).freeCtr = s.freeCtr := rfl
@[simp] theorem addDirty_pending (s : State) (n : Nat) : (addDirty s n).pending = s.pending := rfl

/-! `lvCount` -/
@[simp] theorem lvCount_variant (s : State) (i n : Nat) : (lvCount s i n).variant = s.variant := rfl
@[simp] theorem lvCount_swNum (s : State) (i n : Nat) : (lvCount s i n).swNum = s.swNum := rfl
@[simp] theorem lvCount_now (s : State) (i n : Nat) : (lvCount s i n).now = s.now := rfl
@[simp] theorem lvCount_cc (s : State) (i n : Nat) : (lvCount s i n).cc = s.cc := rfl
@[simp] theorem lvCount_sa (s : State) (i n : Nat) : (lvCount s i n).sa = s.sa := rfl
@[simp] theorem lvCount_gv (s : State) (i n : Nat) : (lvCount s i n).gv = s.gv := rfl
@[simp] theorem lvCount_te (s : State) (i n : Nat) : (lvCount s i n).te = s.te := rfl
@[simp] theorem lvCount_sw (s : State) (i n : Nat) : (lvCount s i n).sw = s.sw := rfl
@[simp] theorem lvCount_pc (s : State) (i n : Nat) : (lvCount s i n).pc = s.pc := rfl
@[simp] theorem lvCount_tu (s : State) (i n : Nat) : (lvCount s i n).tu = s.tu := rfl
@[simp] theorem lvCount_tr (s : State) (i n : Nat) : (lvCount s i n).tr = s.tr := rfl
@[simp] theorem lvCount_ie (s : State) (i n : Nat) : (lvCount s i n).ie = s.ie := rfl
@[simp] theorem lvCount_ta (s : State) (i n : Nat) : (lvCount s i n).ta = s.ta := rfl
@[simp] theorem lvCount_ph (s : State) (i n : Nat) : (lvCount s i n).ph = s.ph := rfl
@[simp] theorem lvCount_hw (s : State) (i n : Nat) : (lvCount s i n).hw = s.hw := rfl
@[simp] theorem lvCount_vimg (s : State) (i n : Nat) : (lvCount s i n).vimg = s.vimg := rfl
@[simp] theorem lvCount_stamps (s : State) (i n : Nat) : (lvCount s i n).stamps = s.stamps := rfl
@[simp] theorem lvCount_resp (s : State) (i n : Nat) : (lvCount s i n).resp = s.resp := rfl
@[simp] theorem lvCount_msix (s : State) (i n : Nat) : (lvCount s i n).msix = s.msix := rfl
@[simp] theorem lvCount_freeCtr (s : State) (i n : Nat) : (lvCount s i n).freeCtr = s.freeCtr := rfl
@[simp] theorem lvCount_pending (s : State) (i n : Nat) : (lvCount s i n).pending = s.pending := rfl

/-! `mapRecs` -/
@[simp] theorem mapRecs_variant (s : State) (f : JRec → JRec) : (mapRecs s f).variant = s.variant := rfl
@[simp] theorem mapRecs_swNum (s : State) (f : JRec → JRec) : (mapRecs s f).swNum = s.swNum := rfl
@[simp] theorem mapRecs_now (s : State) (f : JRec → JRec) : (mapRecs s f).now = s.now := rfl
@[simp] theorem mapRecs_cc (s : State) (f : JRec → JRec) : (mapRecs s f).cc = s.cc := rfl
@[simp] theorem mapRecs_sa (s : State) (f : JRec → JRec) : (mapRecs s f).sa = s.sa := rfl
@[simp] theorem mapRecs_gv (s : State) (f : JRec → JRec) : (mapRecs s f).gv = s.gv := rfl
@[simp] theorem mapRecs_te (s : State) (f : JRec → JRec) : (mapRecs s f).te = s.te := rfl
@[simp] theorem mapRecs_sw (s : State) (f : JRec → JRec) : (mapRecs s f).sw = s.sw := rfl
@[simp] theorem mapRecs_pc (s : State) (f : JRec → JRec) : (mapRecs s f).pc = s.pc := rfl
@[simp] theorem mapRecs_tu (s : State) (f : JRec → JRec) : (mapRecs s f).tu = s.tu := rfl
@[simp] theorem mapRecs_tr (s : State) (f : JRec → JRec) : (mapRecs s f).tr = s.tr := rfl
@[simp] theorem mapRecs_ie (s : State) (f : JRec → JRec) : (mapRecs s f).ie = s.ie := rfl
@[simp] theorem mapRecs_ta (s : State) (f : JRec → JRec) : (mapRecs s f).ta = s.ta := rfl
@[simp] theorem mapRecs_ph (s : State) (f : JRec → JRec) : (mapRecs s f).ph = s.ph := rfl
@[simp] theorem mapRecs_hw (s : State) (f : JRec → JRec) : (mapRecs s f).hw = s.hw := rfl
@[simp] theorem mapRecs_vimg (s : State) (f : JRec → JRec) : (mapRecs s f).vimg = s.vimg := rfl
@[simp] theorem mapRecs_stamps (s : State) (f : JRec → JRec) : (mapRecs s f).stamps = s.stamps := rfl
@[simp] theorem mapRecs_resp (s : State) (f : JRec → JRec) : (mapRecs s f).resp = s.resp := rfl
@[simp] theorem mapRecs_msix (s : State) (f : JRec → JRec) : (mapRecs s f).msix = s.msix := rfl
@[simp] theorem mapRecs_freeCtr (s : State) (f : JRec → JRec) : (mapRecs s f).freeCtr = s.freeCtr := rfl
@[simp] theorem mapRecs_pending (s : State) (f : JRec → JRec) : (mapRecs s f).pending = s.pending := rfl

/-! `attest` -/
@[simp] theorem attest_variant (s : State) (kind object value : Nat) (digest : Bytes) : (attest s kind object value digest).variant = s.variant := rfl
@[simp] theorem attest_swNum (s : State) (kind object value : Nat) (digest : Bytes) : (attest s kind object value digest).swNum = s.swNum := rfl
@[simp] theorem attest_now (s : State) (kind object value : Nat) (digest : Bytes) : (attest s kind object value digest).now = s.now := rfl
@[simp] theorem attest_cc (s : State) (kind object value : Nat) (digest : Bytes) : (attest s kind object value digest).cc = s.cc := rfl
@[simp] theorem attest_sa (s : State) (kind object value : Nat) (digest : Bytes) : (attest s kind object value digest).sa = s.sa := rfl
@[simp] theorem attest_gv (s : State) (kind object value : Nat) (digest : Bytes) : (attest s kind object value digest).gv = s.gv := rfl
@[simp] theorem attest_te (s : State) (kind object value : Nat) (digest : Bytes) : (attest s kind object value digest).te = s.te := rfl
@[simp] theorem attest_sw (s : State) (kind object value : Nat) (digest : Bytes) : (attest s kind object value digest).sw = s.sw := rfl
@[simp] theorem attest_pc (s : State) (kind object value : Nat) (digest : Bytes) : (attest s kind object value digest).pc = s.pc := rfl
@[simp] theorem attest_tu (s : State) (kind object value : Nat) (digest : Bytes) : (attest s kind object value digest).tu = s.tu := rfl
@[simp] theorem attest_tr (s : State) (kind object value : Nat) (digest : Bytes) : (attest s kind object value digest).tr = s.tr := rfl
@[simp] theorem attest_ie (s : State) (kind object value : Nat) (digest : Bytes) : (attest s kind object value digest).ie = s.ie := rfl
@[simp] theorem attest_ta (s : State) (kind object value : Nat) (digest : Bytes) : (attest s kind object value digest).ta = s.ta := rfl
@[simp] theorem attest_ph (s : State) (kind object value : Nat) (digest : Bytes) : (attest s kind object value digest).ph = s.ph := rfl
@[simp] theorem attest_hw (s : State) (kind object value : Nat) (digest : Bytes) : (attest s kind object value digest).hw = s.hw := rfl
@[simp] theorem attest_vimg (s : State) (kind object value : Nat) (digest : Bytes) : (attest s kind object value digest).vimg = s.vimg := rfl
@[simp] theorem attest_stamps (s : State) (kind object value : Nat) (digest : Bytes) : (attest s kind object value digest).stamps = s.stamps := rfl
@[simp] theorem attest_resp (s : State) (kind object value : Nat) (digest : Bytes) : (attest s kind object value digest).resp = s.resp := rfl
@[simp] theorem attest_msix (s : State) (kind object value : Nat) (digest : Bytes) : (attest s kind object value digest).msix = s.msix := rfl
@[simp] theorem attest_freeCtr (s : State) (kind object value : Nat) (digest : Bytes) : (attest s kind object value digest).freeCtr = s.freeCtr := rfl
@[simp] theorem attest_pending (s : State) (kind object value : Nat) (digest : Bytes) : (attest s kind object value digest).pending = s.pending := rfl

/-! `crashRecord` -/
@[simp] theorem crashRecord_variant (s : State) (cause : Nat) : (crashRecord s cause).variant = s.variant := rfl
@[simp] theorem crashRecord_swNum (s : State) (cause : Nat) : (crashRecord s cause).swNum = s.swNum := rfl
@[simp] theorem crashRecord_now (s : State) (cause : Nat) : (crashRecord s cause).now = s.now := rfl
@[simp] theorem crashRecord_sa (s : State) (cause : Nat) : (crashRecord s cause).sa = s.sa := rfl
@[simp] theorem crashRecord_gv (s : State) (cause : Nat) : (crashRecord s cause).gv = s.gv := rfl
@[simp] theorem crashRecord_te (s : State) (cause : Nat) : (crashRecord s cause).te = s.te := rfl
@[simp] theorem crashRecord_sw (s : State) (cause : Nat) : (crashRecord s cause).sw = s.sw := rfl
@[simp] theorem crashRecord_pc (s : State) (cause : Nat) : (crashRecord s cause).pc = s.pc := rfl
@[simp] theorem crashRecord_tu (s : State) (cause : Nat) : (crashRecord s cause).tu = s.tu := rfl
@[simp] theorem crashRecord_tr (s : State) (cause : Nat) : (crashRecord s cause).tr = s.tr := rfl
@[simp] theorem crashRecord_ie (s : State) (cause : Nat) : (crashRecord s cause).ie = s.ie := rfl
@[simp] theorem crashRecord_ta (s : State) (cause : Nat) : (crashRecord s cause).ta = s.ta := rfl
@[simp] theorem crashRecord_ph (s : State) (cause : Nat) : (crashRecord s cause).ph = s.ph := rfl
@[simp] theorem crashRecord_hw (s : State) (cause : Nat) : (crashRecord s cause).hw = s.hw := rfl
@[simp] theorem crashRecord_vimg (s : State) (cause : Nat) : (crashRecord s cause).vimg = s.vimg := rfl
@[simp] theorem crashRecord_stamps (s : State) (cause : Nat) : (crashRecord s cause).stamps = s.stamps := rfl
@[simp] theorem crashRecord_resp (s : State) (cause : Nat) : (crashRecord s cause).resp = s.resp := rfl
@[simp] theorem crashRecord_msix (s : State) (cause : Nat) : (crashRecord s cause).msix = s.msix := rfl
@[simp] theorem crashRecord_freeCtr (s : State) (cause : Nat) : (crashRecord s cause).freeCtr = s.freeCtr := rfl
@[simp] theorem crashRecord_pending (s : State) (cause : Nat) : (crashRecord s cause).pending = s.pending := rfl

/-! `setPat` -/
@[simp] theorem setPat_variant (s : State) (n : Nat) (x : PatSlot) : (setPat s n x).variant = s.variant := rfl
@[simp] theorem setPat_swNum (s : State) (n : Nat) (x : PatSlot) : (setPat s n x).swNum = s.swNum := rfl
@[simp] theorem setPat_now (s : State) (n : Nat) (x : PatSlot) : (setPat s n x).now = s.now := rfl
@[simp] theorem setPat_cc (s : State) (n : Nat) (x : PatSlot) : (setPat s n x).cc = s.cc := rfl
@[simp] theorem setPat_lv (s : State) (n : Nat) (x : PatSlot) : (setPat s n x).lv = s.lv := rfl
@[simp] theorem setPat_gv (s : State) (n : Nat) (x : PatSlot) : (setPat s n x).gv = s.gv := rfl
@[simp] theorem setPat_te (s : State) (n : Nat) (x : PatSlot) : (setPat s n x).te = s.te := rfl
@[simp] theorem setPat_sw (s : State) (n : Nat) (x : PatSlot) : (setPat s n x).sw = s.sw := rfl
@[simp] theorem setPat_pc (s : State) (n : Nat) (x : PatSlot) : (setPat s n x).pc = s.pc := rfl
@[simp] theorem setPat_tu (s : State) (n : Nat) (x : PatSlot) : (setPat s n x).tu = s.tu := rfl
@[simp] theorem setPat_tr (s : State) (n : Nat) (x : PatSlot) : (setPat s n x).tr = s.tr := rfl
@[simp] theorem setPat_ie (s : State) (n : Nat) (x : PatSlot) : (setPat s n x).ie = s.ie := rfl
@[simp] theorem setPat_ta (s : State) (n : Nat) (x : PatSlot) : (setPat s n x).ta = s.ta := rfl
@[simp] theorem setPat_ph (s : State) (n : Nat) (x : PatSlot) : (setPat s n x).ph = s.ph := rfl
@[simp] theorem setPat_hw (s : State) (n : Nat) (x : PatSlot) : (setPat s n x).hw = s.hw := rfl
@[simp] theorem setPat_vimg (s : State) (n : Nat) (x : PatSlot) : (setPat s n x).vimg = s.vimg := rfl
@[simp] theorem setPat_stamps (s : State) (n : Nat) (x : PatSlot) : (setPat s n x).stamps = s.stamps := rfl
@[simp] theorem setPat_resp (s : State) (n : Nat) (x : PatSlot) : (setPat s n x).resp = s.resp := rfl
@[simp] theorem setPat_msix (s : State) (n : Nat) (x : PatSlot) : (setPat s n x).msix = s.msix := rfl
@[simp] theorem setPat_freeCtr (s : State) (n : Nat) (x : PatSlot) : (setPat s n x).freeCtr = s.freeCtr := rfl
@[simp] theorem setPat_pending (s : State) (n : Nat) (x : PatSlot) : (setPat s n x).pending = s.pending := rfl

/-! `setTier` -/
@[simp] theorem setTier_variant (s : State) (g : Nat) (e : TierEnt) : (setTier s g e).variant = s.variant := rfl
@[simp] theorem setTier_swNum (s : State) (g : Nat) (e : TierEnt) : (setTier s g e).swNum = s.swNum := rfl
@[simp] theorem setTier_now (s : State) (g : Nat) (e : TierEnt) : (setTier s g e).now = s.now := rfl
@[simp] theorem setTier_cc (s : State) (g : Nat) (e : TierEnt) : (setTier s g e).cc = s.cc := rfl
@[simp] theorem setTier_lv (s : State) (g : Nat) (e : TierEnt) : (setTier s g e).lv = s.lv := rfl
@[simp] theorem setTier_sa (s : State) (g : Nat) (e : TierEnt) : (setTier s g e).sa = s.sa := rfl
@[simp] theorem setTier_gv (s : State) (g : Nat) (e : TierEnt) : (setTier s g e).gv = s.gv := rfl
@[simp] theorem setTier_te (s : State) (g : Nat) (e : TierEnt) : (setTier s g e).te = s.te := rfl
@[simp] theorem setTier_sw (s : State) (g : Nat) (e : TierEnt) : (setTier s g e).sw = s.sw := rfl
@[simp] theorem setTier_pc (s : State) (g : Nat) (e : TierEnt) : (setTier s g e).pc = s.pc := rfl
@[simp] theorem setTier_tu (s : State) (g : Nat) (e : TierEnt) : (setTier s g e).tu = s.tu := rfl
@[simp] theorem setTier_ie (s : State) (g : Nat) (e : TierEnt) : (setTier s g e).ie = s.ie := rfl
@[simp] theorem setTier_ta (s : State) (g : Nat) (e : TierEnt) : (setTier s g e).ta = s.ta := rfl
@[simp] theorem setTier_ph (s : State) (g : Nat) (e : TierEnt) : (setTier s g e).ph = s.ph := rfl
@[simp] theorem setTier_hw (s : State) (g : Nat) (e : TierEnt) : (setTier s g e).hw = s.hw := rfl
@[simp] theorem setTier_vimg (s : State) (g : Nat) (e : TierEnt) : (setTier s g e).vimg = s.vimg := rfl
@[simp] theorem setTier_stamps (s : State) (g : Nat) (e : TierEnt) : (setTier s g e).stamps = s.stamps := rfl
@[simp] theorem setTier_resp (s : State) (g : Nat) (e : TierEnt) : (setTier s g e).resp = s.resp := rfl
@[simp] theorem setTier_msix (s : State) (g : Nat) (e : TierEnt) : (setTier s g e).msix = s.msix := rfl
@[simp] theorem setTier_freeCtr (s : State) (g : Nat) (e : TierEnt) : (setTier s g e).freeCtr = s.freeCtr := rfl
@[simp] theorem setTier_pending (s : State) (g : Nat) (e : TierEnt) : (setTier s g e).pending = s.pending := rfl

/-! `setExt` -/
@[simp] theorem setExt_variant (s : State) (x : Nat) (e : Extent) : (setExt s x e).variant = s.variant := rfl
@[simp] theorem setExt_swNum (s : State) (x : Nat) (e : Extent) : (setExt s x e).swNum = s.swNum := rfl
@[simp] theorem setExt_now (s : State) (x : Nat) (e : Extent) : (setExt s x e).now = s.now := rfl
@[simp] theorem setExt_cc (s : State) (x : Nat) (e : Extent) : (setExt s x e).cc = s.cc := rfl
@[simp] theorem setExt_lv (s : State) (x : Nat) (e : Extent) : (setExt s x e).lv = s.lv := rfl
@[simp] theorem setExt_sa (s : State) (x : Nat) (e : Extent) : (setExt s x e).sa = s.sa := rfl
@[simp] theorem setExt_gv (s : State) (x : Nat) (e : Extent) : (setExt s x e).gv = s.gv := rfl
@[simp] theorem setExt_te (s : State) (x : Nat) (e : Extent) : (setExt s x e).te = s.te := rfl
@[simp] theorem setExt_sw (s : State) (x : Nat) (e : Extent) : (setExt s x e).sw = s.sw := rfl
@[simp] theorem setExt_pc (s : State) (x : Nat) (e : Extent) : (setExt s x e).pc = s.pc := rfl
@[simp] theorem setExt_tu (s : State) (x : Nat) (e : Extent) : (setExt s x e).tu = s.tu := rfl
@[simp] theorem setExt_ie (s : State) (x : Nat) (e : Extent) : (setExt s x e).ie = s.ie := rfl
@[simp] theorem setExt_ta (s : State) (x : Nat) (e : Extent) : (setExt s x e).ta = s.ta := rfl
@[simp] theorem setExt_ph (s : State) (x : Nat) (e : Extent) : (setExt s x e).ph = s.ph := rfl
@[simp] theorem setExt_hw (s : State) (x : Nat) (e : Extent) : (setExt s x e).hw = s.hw := rfl
@[simp] theorem setExt_vimg (s : State) (x : Nat) (e : Extent) : (setExt s x e).vimg = s.vimg := rfl
@[simp] theorem setExt_stamps (s : State) (x : Nat) (e : Extent) : (setExt s x e).stamps = s.stamps := rfl
@[simp] theorem setExt_resp (s : State) (x : Nat) (e : Extent) : (setExt s x e).resp = s.resp := rfl
@[simp] theorem setExt_msix (s : State) (x : Nat) (e : Extent) : (setExt s x e).msix = s.msix := rfl
@[simp] theorem setExt_freeCtr (s : State) (x : Nat) (e : Extent) : (setExt s x e).freeCtr = s.freeCtr := rfl
@[simp] theorem setExt_pending (s : State) (x : Nat) (e : Extent) : (setExt s x e).pending = s.pending := rfl

/-! `setLease` -/
@[simp] theorem setLease_variant (s : State) (l : Nat) (x : Lease) : (setLease s l x).variant = s.variant := rfl
@[simp] theorem setLease_swNum (s : State) (l : Nat) (x : Lease) : (setLease s l x).swNum = s.swNum := rfl
@[simp] theorem setLease_now (s : State) (l : Nat) (x : Lease) : (setLease s l x).now = s.now := rfl
@[simp] theorem setLease_cc (s : State) (l : Nat) (x : Lease) : (setLease s l x).cc = s.cc := rfl
@[simp] theorem setLease_lv (s : State) (l : Nat) (x : Lease) : (setLease s l x).lv = s.lv := rfl
@[simp] theorem setLease_sa (s : State) (l : Nat) (x : Lease) : (setLease s l x).sa = s.sa := rfl
@[simp] theorem setLease_gv (s : State) (l : Nat) (x : Lease) : (setLease s l x).gv = s.gv := rfl
@[simp] theorem setLease_te (s : State) (l : Nat) (x : Lease) : (setLease s l x).te = s.te := rfl
@[simp] theorem setLease_sw (s : State) (l : Nat) (x : Lease) : (setLease s l x).sw = s.sw := rfl
@[simp] theorem setLease_pc (s : State) (l : Nat) (x : Lease) : (setLease s l x).pc = s.pc := rfl
@[simp] theorem setLease_tu (s : State) (l : Nat) (x : Lease) : (setLease s l x).tu = s.tu := rfl
@[simp] theorem setLease_ie (s : State) (l : Nat) (x : Lease) : (setLease s l x).ie = s.ie := rfl
@[simp] theorem setLease_ta (s : State) (l : Nat) (x : Lease) : (setLease s l x).ta = s.ta := rfl
@[simp] theorem setLease_ph (s : State) (l : Nat) (x : Lease) : (setLease s l x).ph = s.ph := rfl
@[simp] theorem setLease_hw (s : State) (l : Nat) (x : Lease) : (setLease s l x).hw = s.hw := rfl
@[simp] theorem setLease_vimg (s : State) (l : Nat) (x : Lease) : (setLease s l x).vimg = s.vimg := rfl
@[simp] theorem setLease_stamps (s : State) (l : Nat) (x : Lease) : (setLease s l x).stamps = s.stamps := rfl
@[simp] theorem setLease_resp (s : State) (l : Nat) (x : Lease) : (setLease s l x).resp = s.resp := rfl
@[simp] theorem setLease_msix (s : State) (l : Nat) (x : Lease) : (setLease s l x).msix = s.msix := rfl
@[simp] theorem setLease_freeCtr (s : State) (l : Nat) (x : Lease) : (setLease s l x).freeCtr = s.freeCtr := rfl
@[simp] theorem setLease_pending (s : State) (l : Nat) (x : Lease) : (setLease s l x).pending = s.pending := rfl

/-! `setSlot` -/
@[simp] theorem setSlot_variant (s : State) (k : Nat) (x : KeySlot) : (setSlot s k x).variant = s.variant := rfl
@[simp] theorem setSlot_swNum (s : State) (k : Nat) (x : KeySlot) : (setSlot s k x).swNum = s.swNum := rfl
@[simp] theorem setSlot_now (s : State) (k : Nat) (x : KeySlot) : (setSlot s k x).now = s.now := rfl
@[simp] theorem setSlot_cc (s : State) (k : Nat) (x : KeySlot) : (setSlot s k x).cc = s.cc := rfl
@[simp] theorem setSlot_lv (s : State) (k : Nat) (x : KeySlot) : (setSlot s k x).lv = s.lv := rfl
@[simp] theorem setSlot_sa (s : State) (k : Nat) (x : KeySlot) : (setSlot s k x).sa = s.sa := rfl
@[simp] theorem setSlot_gv (s : State) (k : Nat) (x : KeySlot) : (setSlot s k x).gv = s.gv := rfl
@[simp] theorem setSlot_te (s : State) (k : Nat) (x : KeySlot) : (setSlot s k x).te = s.te := rfl
@[simp] theorem setSlot_sw (s : State) (k : Nat) (x : KeySlot) : (setSlot s k x).sw = s.sw := rfl
@[simp] theorem setSlot_pc (s : State) (k : Nat) (x : KeySlot) : (setSlot s k x).pc = s.pc := rfl
@[simp] theorem setSlot_tu (s : State) (k : Nat) (x : KeySlot) : (setSlot s k x).tu = s.tu := rfl
@[simp] theorem setSlot_tr (s : State) (k : Nat) (x : KeySlot) : (setSlot s k x).tr = s.tr := rfl
@[simp] theorem setSlot_ta (s : State) (k : Nat) (x : KeySlot) : (setSlot s k x).ta = s.ta := rfl
@[simp] theorem setSlot_ph (s : State) (k : Nat) (x : KeySlot) : (setSlot s k x).ph = s.ph := rfl
@[simp] theorem setSlot_hw (s : State) (k : Nat) (x : KeySlot) : (setSlot s k x).hw = s.hw := rfl
@[simp] theorem setSlot_vimg (s : State) (k : Nat) (x : KeySlot) : (setSlot s k x).vimg = s.vimg := rfl
@[simp] theorem setSlot_stamps (s : State) (k : Nat) (x : KeySlot) : (setSlot s k x).stamps = s.stamps := rfl
@[simp] theorem setSlot_resp (s : State) (k : Nat) (x : KeySlot) : (setSlot s k x).resp = s.resp := rfl
@[simp] theorem setSlot_msix (s : State) (k : Nat) (x : KeySlot) : (setSlot s k x).msix = s.msix := rfl
@[simp] theorem setSlot_freeCtr (s : State) (k : Nat) (x : KeySlot) : (setSlot s k x).freeCtr = s.freeCtr := rfl
@[simp] theorem setSlot_pending (s : State) (k : Nat) (x : KeySlot) : (setSlot s k x).pending = s.pending := rfl

/-! `trCount` -/
@[simp] theorem trCount_variant (s : State) (i n : Nat) : (trCount s i n).variant = s.variant := rfl
@[simp] theorem trCount_swNum (s : State) (i n : Nat) : (trCount s i n).swNum = s.swNum := rfl
@[simp] theorem trCount_now (s : State) (i n : Nat) : (trCount s i n).now = s.now := rfl
@[simp] theorem trCount_cc (s : State) (i n : Nat) : (trCount s i n).cc = s.cc := rfl
@[simp] theorem trCount_lv (s : State) (i n : Nat) : (trCount s i n).lv = s.lv := rfl
@[simp] theorem trCount_sa (s : State) (i n : Nat) : (trCount s i n).sa = s.sa := rfl
@[simp] theorem trCount_gv (s : State) (i n : Nat) : (trCount s i n).gv = s.gv := rfl
@[simp] theorem trCount_te (s : State) (i n : Nat) : (trCount s i n).te = s.te := rfl
@[simp] theorem trCount_sw (s : State) (i n : Nat) : (trCount s i n).sw = s.sw := rfl
@[simp] theorem trCount_pc (s : State) (i n : Nat) : (trCount s i n).pc = s.pc := rfl
@[simp] theorem trCount_tu (s : State) (i n : Nat) : (trCount s i n).tu = s.tu := rfl
@[simp] theorem trCount_ie (s : State) (i n : Nat) : (trCount s i n).ie = s.ie := rfl
@[simp] theorem trCount_ta (s : State) (i n : Nat) : (trCount s i n).ta = s.ta := rfl
@[simp] theorem trCount_ph (s : State) (i n : Nat) : (trCount s i n).ph = s.ph := rfl
@[simp] theorem trCount_hw (s : State) (i n : Nat) : (trCount s i n).hw = s.hw := rfl
@[simp] theorem trCount_vimg (s : State) (i n : Nat) : (trCount s i n).vimg = s.vimg := rfl
@[simp] theorem trCount_stamps (s : State) (i n : Nat) : (trCount s i n).stamps = s.stamps := rfl
@[simp] theorem trCount_resp (s : State) (i n : Nat) : (trCount s i n).resp = s.resp := rfl
@[simp] theorem trCount_msix (s : State) (i n : Nat) : (trCount s i n).msix = s.msix := rfl
@[simp] theorem trCount_freeCtr (s : State) (i n : Nat) : (trCount s i n).freeCtr = s.freeCtr := rfl
@[simp] theorem trCount_pending (s : State) (i n : Nat) : (trCount s i n).pending = s.pending := rfl

/-! `ieCount` -/
@[simp] theorem ieCount_variant (s : State) (i n : Nat) : (ieCount s i n).variant = s.variant := rfl
@[simp] theorem ieCount_swNum (s : State) (i n : Nat) : (ieCount s i n).swNum = s.swNum := rfl
@[simp] theorem ieCount_now (s : State) (i n : Nat) : (ieCount s i n).now = s.now := rfl
@[simp] theorem ieCount_cc (s : State) (i n : Nat) : (ieCount s i n).cc = s.cc := rfl
@[simp] theorem ieCount_lv (s : State) (i n : Nat) : (ieCount s i n).lv = s.lv := rfl
@[simp] theorem ieCount_sa (s : State) (i n : Nat) : (ieCount s i n).sa = s.sa := rfl
@[simp] theorem ieCount_gv (s : State) (i n : Nat) : (ieCount s i n).gv = s.gv := rfl
@[simp] theorem ieCount_te (s : State) (i n : Nat) : (ieCount s i n).te = s.te := rfl
@[simp] theorem ieCount_sw (s : State) (i n : Nat) : (ieCount s i n).sw = s.sw := rfl
@[simp] theorem ieCount_pc (s : State) (i n : Nat) : (ieCount s i n).pc = s.pc := rfl
@[simp] theorem ieCount_tu (s : State) (i n : Nat) : (ieCount s i n).tu = s.tu := rfl
@[simp] theorem ieCount_tr (s : State) (i n : Nat) : (ieCount s i n).tr = s.tr := rfl
@[simp] theorem ieCount_ta (s : State) (i n : Nat) : (ieCount s i n).ta = s.ta := rfl
@[simp] theorem ieCount_ph (s : State) (i n : Nat) : (ieCount s i n).ph = s.ph := rfl
@[simp] theorem ieCount_hw (s : State) (i n : Nat) : (ieCount s i n).hw = s.hw := rfl
@[simp] theorem ieCount_vimg (s : State) (i n : Nat) : (ieCount s i n).vimg = s.vimg := rfl
@[simp] theorem ieCount_stamps (s : State) (i n : Nat) : (ieCount s i n).stamps = s.stamps := rfl
@[simp] theorem ieCount_resp (s : State) (i n : Nat) : (ieCount s i n).resp = s.resp := rfl
@[simp] theorem ieCount_msix (s : State) (i n : Nat) : (ieCount s i n).msix = s.msix := rfl
@[simp] theorem ieCount_freeCtr (s : State) (i n : Nat) : (ieCount s i n).freeCtr = s.freeCtr := rfl
@[simp] theorem ieCount_pending (s : State) (i n : Nat) : (ieCount s i n).pending = s.pending := rfl

/-! `takeFrame` -/
@[simp] theorem takeFrame_variant (s : State) (f g : Nat) : (takeFrame s f g).variant = s.variant := rfl
@[simp] theorem takeFrame_swNum (s : State) (f g : Nat) : (takeFrame s f g).swNum = s.swNum := rfl
@[simp] theorem takeFrame_now (s : State) (f g : Nat) : (takeFrame s f g).now = s.now := rfl
@[simp] theorem takeFrame_cc (s : State) (f g : Nat) : (takeFrame s f g).cc = s.cc := rfl
@[simp] theorem takeFrame_lv (s : State) (f g : Nat) : (takeFrame s f g).lv = s.lv := rfl
@[simp] theorem takeFrame_sa (s : State) (f g : Nat) : (takeFrame s f g).sa = s.sa := rfl
@[simp] theorem takeFrame_gv (s : State) (f g : Nat) : (takeFrame s f g).gv = s.gv := rfl
@[simp] theorem takeFrame_te (s : State) (f g : Nat) : (takeFrame s f g).te = s.te := rfl
@[simp] theorem takeFrame_sw (s : State) (f g : Nat) : (takeFrame s f g).sw = s.sw := rfl
@[simp] theorem takeFrame_pc (s : State) (f g : Nat) : (takeFrame s f g).pc = s.pc := rfl
@[simp] theorem takeFrame_tu (s : State) (f g : Nat) : (takeFrame s f g).tu = s.tu := rfl
@[simp] theorem takeFrame_ie (s : State) (f g : Nat) : (takeFrame s f g).ie = s.ie := rfl
@[simp] theorem takeFrame_ta (s : State) (f g : Nat) : (takeFrame s f g).ta = s.ta := rfl
@[simp] theorem takeFrame_ph (s : State) (f g : Nat) : (takeFrame s f g).ph = s.ph := rfl
@[simp] theorem takeFrame_hw (s : State) (f g : Nat) : (takeFrame s f g).hw = s.hw := rfl
@[simp] theorem takeFrame_vimg (s : State) (f g : Nat) : (takeFrame s f g).vimg = s.vimg := rfl
@[simp] theorem takeFrame_stamps (s : State) (f g : Nat) : (takeFrame s f g).stamps = s.stamps := rfl
@[simp] theorem takeFrame_resp (s : State) (f g : Nat) : (takeFrame s f g).resp = s.resp := rfl
@[simp] theorem takeFrame_msix (s : State) (f g : Nat) : (takeFrame s f g).msix = s.msix := rfl
@[simp] theorem takeFrame_freeCtr (s : State) (f g : Nat) : (takeFrame s f g).freeCtr = s.freeCtr := rfl
@[simp] theorem takeFrame_pending (s : State) (f g : Nat) : (takeFrame s f g).pending = s.pending := rfl

/-! `freeFrame` -/
@[simp] theorem freeFrame_variant (s : State) (f : Nat) : (freeFrame s f).variant = s.variant := rfl
@[simp] theorem freeFrame_swNum (s : State) (f : Nat) : (freeFrame s f).swNum = s.swNum := rfl
@[simp] theorem freeFrame_now (s : State) (f : Nat) : (freeFrame s f).now = s.now := rfl
@[simp] theorem freeFrame_cc (s : State) (f : Nat) : (freeFrame s f).cc = s.cc := rfl
@[simp] theorem freeFrame_lv (s : State) (f : Nat) : (freeFrame s f).lv = s.lv := rfl
@[simp] theorem freeFrame_sa (s : State) (f : Nat) : (freeFrame s f).sa = s.sa := rfl
@[simp] theorem freeFrame_gv (s : State) (f : Nat) : (freeFrame s f).gv = s.gv := rfl
@[simp] theorem freeFrame_te (s : State) (f : Nat) : (freeFrame s f).te = s.te := rfl
@[simp] theorem freeFrame_sw (s : State) (f : Nat) : (freeFrame s f).sw = s.sw := rfl
@[simp] theorem freeFrame_pc (s : State) (f : Nat) : (freeFrame s f).pc = s.pc := rfl
@[simp] theorem freeFrame_tu (s : State) (f : Nat) : (freeFrame s f).tu = s.tu := rfl
@[simp] theorem freeFrame_ie (s : State) (f : Nat) : (freeFrame s f).ie = s.ie := rfl
@[simp] theorem freeFrame_ta (s : State) (f : Nat) : (freeFrame s f).ta = s.ta := rfl
@[simp] theorem freeFrame_ph (s : State) (f : Nat) : (freeFrame s f).ph = s.ph := rfl
@[simp] theorem freeFrame_hw (s : State) (f : Nat) : (freeFrame s f).hw = s.hw := rfl
@[simp] theorem freeFrame_vimg (s : State) (f : Nat) : (freeFrame s f).vimg = s.vimg := rfl
@[simp] theorem freeFrame_stamps (s : State) (f : Nat) : (freeFrame s f).stamps = s.stamps := rfl
@[simp] theorem freeFrame_resp (s : State) (f : Nat) : (freeFrame s f).resp = s.resp := rfl
@[simp] theorem freeFrame_msix (s : State) (f : Nat) : (freeFrame s f).msix = s.msix := rfl
@[simp] theorem freeFrame_freeCtr (s : State) (f : Nat) : (freeFrame s f).freeCtr = s.freeCtr := rfl
@[simp] theorem freeFrame_pending (s : State) (f : Nat) : (freeFrame s f).pending = s.pending := rfl

/-! `setPend` -/
@[simp] theorem setPend_variant (s : State) (n : Nat) (p : PendReq) : (setPend s n p).variant = s.variant := rfl
@[simp] theorem setPend_swNum (s : State) (n : Nat) (p : PendReq) : (setPend s n p).swNum = s.swNum := rfl
@[simp] theorem setPend_now (s : State) (n : Nat) (p : PendReq) : (setPend s n p).now = s.now := rfl
@[simp] theorem setPend_cc (s : State) (n : Nat) (p : PendReq) : (setPend s n p).cc = s.cc := rfl
@[simp] theorem setPend_lv (s : State) (n : Nat) (p : PendReq) : (setPend s n p).lv = s.lv := rfl
@[simp] theorem setPend_sa (s : State) (n : Nat) (p : PendReq) : (setPend s n p).sa = s.sa := rfl
@[simp] theorem setPend_gv (s : State) (n : Nat) (p : PendReq) : (setPend s n p).gv = s.gv := rfl
@[simp] theorem setPend_te (s : State) (n : Nat) (p : PendReq) : (setPend s n p).te = s.te := rfl
@[simp] theorem setPend_sw (s : State) (n : Nat) (p : PendReq) : (setPend s n p).sw = s.sw := rfl
@[simp] theorem setPend_pc (s : State) (n : Nat) (p : PendReq) : (setPend s n p).pc = s.pc := rfl
@[simp] theorem setPend_tu (s : State) (n : Nat) (p : PendReq) : (setPend s n p).tu = s.tu := rfl
@[simp] theorem setPend_ie (s : State) (n : Nat) (p : PendReq) : (setPend s n p).ie = s.ie := rfl
@[simp] theorem setPend_ta (s : State) (n : Nat) (p : PendReq) : (setPend s n p).ta = s.ta := rfl
@[simp] theorem setPend_ph (s : State) (n : Nat) (p : PendReq) : (setPend s n p).ph = s.ph := rfl
@[simp] theorem setPend_hw (s : State) (n : Nat) (p : PendReq) : (setPend s n p).hw = s.hw := rfl
@[simp] theorem setPend_vimg (s : State) (n : Nat) (p : PendReq) : (setPend s n p).vimg = s.vimg := rfl
@[simp] theorem setPend_stamps (s : State) (n : Nat) (p : PendReq) : (setPend s n p).stamps = s.stamps := rfl
@[simp] theorem setPend_resp (s : State) (n : Nat) (p : PendReq) : (setPend s n p).resp = s.resp := rfl
@[simp] theorem setPend_msix (s : State) (n : Nat) (p : PendReq) : (setPend s n p).msix = s.msix := rfl
@[simp] theorem setPend_freeCtr (s : State) (n : Nat) (p : PendReq) : (setPend s n p).freeCtr = s.freeCtr := rfl
@[simp] theorem setPend_pending (s : State) (n : Nat) (p : PendReq) : (setPend s n p).pending = s.pending := rfl

/-! `heatUp` -/
@[simp] theorem heatUp_variant (s : State) (g : Nat) : (heatUp s g).variant = s.variant := rfl
@[simp] theorem heatUp_swNum (s : State) (g : Nat) : (heatUp s g).swNum = s.swNum := rfl
@[simp] theorem heatUp_now (s : State) (g : Nat) : (heatUp s g).now = s.now := rfl
@[simp] theorem heatUp_cc (s : State) (g : Nat) : (heatUp s g).cc = s.cc := rfl
@[simp] theorem heatUp_lv (s : State) (g : Nat) : (heatUp s g).lv = s.lv := rfl
@[simp] theorem heatUp_sa (s : State) (g : Nat) : (heatUp s g).sa = s.sa := rfl
@[simp] theorem heatUp_gv (s : State) (g : Nat) : (heatUp s g).gv = s.gv := rfl
@[simp] theorem heatUp_te (s : State) (g : Nat) : (heatUp s g).te = s.te := rfl
@[simp] theorem heatUp_sw (s : State) (g : Nat) : (heatUp s g).sw = s.sw := rfl
@[simp] theorem heatUp_pc (s : State) (g : Nat) : (heatUp s g).pc = s.pc := rfl
@[simp] theorem heatUp_tu (s : State) (g : Nat) : (heatUp s g).tu = s.tu := rfl
@[simp] theorem heatUp_ie (s : State) (g : Nat) : (heatUp s g).ie = s.ie := rfl
@[simp] theorem heatUp_ta (s : State) (g : Nat) : (heatUp s g).ta = s.ta := rfl
@[simp] theorem heatUp_ph (s : State) (g : Nat) : (heatUp s g).ph = s.ph := rfl
@[simp] theorem heatUp_hw (s : State) (g : Nat) : (heatUp s g).hw = s.hw := rfl
@[simp] theorem heatUp_vimg (s : State) (g : Nat) : (heatUp s g).vimg = s.vimg := rfl
@[simp] theorem heatUp_stamps (s : State) (g : Nat) : (heatUp s g).stamps = s.stamps := rfl
@[simp] theorem heatUp_resp (s : State) (g : Nat) : (heatUp s g).resp = s.resp := rfl
@[simp] theorem heatUp_msix (s : State) (g : Nat) : (heatUp s g).msix = s.msix := rfl
@[simp] theorem heatUp_freeCtr (s : State) (g : Nat) : (heatUp s g).freeCtr = s.freeCtr := rfl
@[simp] theorem heatUp_pending (s : State) (g : Nat) : (heatUp s g).pending = s.pending := rfl

/-! `setWindow` -/
@[simp] theorem setWindow_variant (s : State) (p w : Nat) (x : Window) : (setWindow s p w x).variant = s.variant := rfl
@[simp] theorem setWindow_swNum (s : State) (p w : Nat) (x : Window) : (setWindow s p w x).swNum = s.swNum := rfl
@[simp] theorem setWindow_now (s : State) (p w : Nat) (x : Window) : (setWindow s p w x).now = s.now := rfl
@[simp] theorem setWindow_cc (s : State) (p w : Nat) (x : Window) : (setWindow s p w x).cc = s.cc := rfl
@[simp] theorem setWindow_lv (s : State) (p w : Nat) (x : Window) : (setWindow s p w x).lv = s.lv := rfl
@[simp] theorem setWindow_sa (s : State) (p w : Nat) (x : Window) : (setWindow s p w x).sa = s.sa := rfl
@[simp] theorem setWindow_gv (s : State) (p w : Nat) (x : Window) : (setWindow s p w x).gv = s.gv := rfl
@[simp] theorem setWindow_te (s : State) (p w : Nat) (x : Window) : (setWindow s p w x).te = s.te := rfl
@[simp] theorem setWindow_sw (s : State) (p w : Nat) (x : Window) : (setWindow s p w x).sw = s.sw := rfl
@[simp] theorem setWindow_tu (s : State) (p w : Nat) (x : Window) : (setWindow s p w x).tu = s.tu := rfl
@[simp] theorem setWindow_tr (s : State) (p w : Nat) (x : Window) : (setWindow s p w x).tr = s.tr := rfl
@[simp] theorem setWindow_ie (s : State) (p w : Nat) (x : Window) : (setWindow s p w x).ie = s.ie := rfl
@[simp] theorem setWindow_ta (s : State) (p w : Nat) (x : Window) : (setWindow s p w x).ta = s.ta := rfl
@[simp] theorem setWindow_ph (s : State) (p w : Nat) (x : Window) : (setWindow s p w x).ph = s.ph := rfl
@[simp] theorem setWindow_hw (s : State) (p w : Nat) (x : Window) : (setWindow s p w x).hw = s.hw := rfl
@[simp] theorem setWindow_vimg (s : State) (p w : Nat) (x : Window) : (setWindow s p w x).vimg = s.vimg := rfl
@[simp] theorem setWindow_stamps (s : State) (p w : Nat) (x : Window) : (setWindow s p w x).stamps = s.stamps := rfl
@[simp] theorem setWindow_resp (s : State) (p w : Nat) (x : Window) : (setWindow s p w x).resp = s.resp := rfl
@[simp] theorem setWindow_msix (s : State) (p w : Nat) (x : Window) : (setWindow s p w x).msix = s.msix := rfl
@[simp] theorem setWindow_freeCtr (s : State) (p w : Nat) (x : Window) : (setWindow s p w x).freeCtr = s.freeCtr := rfl
@[simp] theorem setWindow_pending (s : State) (p w : Nat) (x : Window) : (setWindow s p w x).pending = s.pending := rfl

/-! `setPhStatus` -/
@[simp] theorem setPhStatus_variant (s : State) (f : Nat) (o : ObjStatus) : (setPhStatus s f o).variant = s.variant := rfl
@[simp] theorem setPhStatus_swNum (s : State) (f : Nat) (o : ObjStatus) : (setPhStatus s f o).swNum = s.swNum := rfl
@[simp] theorem setPhStatus_now (s : State) (f : Nat) (o : ObjStatus) : (setPhStatus s f o).now = s.now := rfl
@[simp] theorem setPhStatus_cc (s : State) (f : Nat) (o : ObjStatus) : (setPhStatus s f o).cc = s.cc := rfl
@[simp] theorem setPhStatus_lv (s : State) (f : Nat) (o : ObjStatus) : (setPhStatus s f o).lv = s.lv := rfl
@[simp] theorem setPhStatus_sa (s : State) (f : Nat) (o : ObjStatus) : (setPhStatus s f o).sa = s.sa := rfl
@[simp] theorem setPhStatus_gv (s : State) (f : Nat) (o : ObjStatus) : (setPhStatus s f o).gv = s.gv := rfl
@[simp] theorem setPhStatus_te (s : State) (f : Nat) (o : ObjStatus) : (setPhStatus s f o).te = s.te := rfl
@[simp] theorem setPhStatus_sw (s : State) (f : Nat) (o : ObjStatus) : (setPhStatus s f o).sw = s.sw := rfl
@[simp] theorem setPhStatus_pc (s : State) (f : Nat) (o : ObjStatus) : (setPhStatus s f o).pc = s.pc := rfl
@[simp] theorem setPhStatus_tu (s : State) (f : Nat) (o : ObjStatus) : (setPhStatus s f o).tu = s.tu := rfl
@[simp] theorem setPhStatus_tr (s : State) (f : Nat) (o : ObjStatus) : (setPhStatus s f o).tr = s.tr := rfl
@[simp] theorem setPhStatus_ie (s : State) (f : Nat) (o : ObjStatus) : (setPhStatus s f o).ie = s.ie := rfl
@[simp] theorem setPhStatus_ta (s : State) (f : Nat) (o : ObjStatus) : (setPhStatus s f o).ta = s.ta := rfl
@[simp] theorem setPhStatus_hw (s : State) (f : Nat) (o : ObjStatus) : (setPhStatus s f o).hw = s.hw := rfl
@[simp] theorem setPhStatus_vimg (s : State) (f : Nat) (o : ObjStatus) : (setPhStatus s f o).vimg = s.vimg := rfl
@[simp] theorem setPhStatus_stamps (s : State) (f : Nat) (o : ObjStatus) : (setPhStatus s f o).stamps = s.stamps := rfl
@[simp] theorem setPhStatus_resp (s : State) (f : Nat) (o : ObjStatus) : (setPhStatus s f o).resp = s.resp := rfl
@[simp] theorem setPhStatus_msix (s : State) (f : Nat) (o : ObjStatus) : (setPhStatus s f o).msix = s.msix := rfl
@[simp] theorem setPhStatus_freeCtr (s : State) (f : Nat) (o : ObjStatus) : (setPhStatus s f o).freeCtr = s.freeCtr := rfl
@[simp] theorem setPhStatus_pending (s : State) (f : Nat) (o : ObjStatus) : (setPhStatus s f o).pending = s.pending := rfl

/-! `setSwPort` -/
@[simp] theorem setSwPort_variant (s : State) (p : Nat) (x : SwPort) : (setSwPort s p x).variant = s.variant := rfl
@[simp] theorem setSwPort_swNum (s : State) (p : Nat) (x : SwPort) : (setSwPort s p x).swNum = s.swNum := rfl
@[simp] theorem setSwPort_now (s : State) (p : Nat) (x : SwPort) : (setSwPort s p x).now = s.now := rfl
@[simp] theorem setSwPort_cc (s : State) (p : Nat) (x : SwPort) : (setSwPort s p x).cc = s.cc := rfl
@[simp] theorem setSwPort_lv (s : State) (p : Nat) (x : SwPort) : (setSwPort s p x).lv = s.lv := rfl
@[simp] theorem setSwPort_sa (s : State) (p : Nat) (x : SwPort) : (setSwPort s p x).sa = s.sa := rfl
@[simp] theorem setSwPort_gv (s : State) (p : Nat) (x : SwPort) : (setSwPort s p x).gv = s.gv := rfl
@[simp] theorem setSwPort_te (s : State) (p : Nat) (x : SwPort) : (setSwPort s p x).te = s.te := rfl
@[simp] theorem setSwPort_pc (s : State) (p : Nat) (x : SwPort) : (setSwPort s p x).pc = s.pc := rfl
@[simp] theorem setSwPort_tu (s : State) (p : Nat) (x : SwPort) : (setSwPort s p x).tu = s.tu := rfl
@[simp] theorem setSwPort_tr (s : State) (p : Nat) (x : SwPort) : (setSwPort s p x).tr = s.tr := rfl
@[simp] theorem setSwPort_ie (s : State) (p : Nat) (x : SwPort) : (setSwPort s p x).ie = s.ie := rfl
@[simp] theorem setSwPort_ta (s : State) (p : Nat) (x : SwPort) : (setSwPort s p x).ta = s.ta := rfl
@[simp] theorem setSwPort_ph (s : State) (p : Nat) (x : SwPort) : (setSwPort s p x).ph = s.ph := rfl
@[simp] theorem setSwPort_hw (s : State) (p : Nat) (x : SwPort) : (setSwPort s p x).hw = s.hw := rfl
@[simp] theorem setSwPort_vimg (s : State) (p : Nat) (x : SwPort) : (setSwPort s p x).vimg = s.vimg := rfl
@[simp] theorem setSwPort_stamps (s : State) (p : Nat) (x : SwPort) : (setSwPort s p x).stamps = s.stamps := rfl
@[simp] theorem setSwPort_resp (s : State) (p : Nat) (x : SwPort) : (setSwPort s p x).resp = s.resp := rfl
@[simp] theorem setSwPort_msix (s : State) (p : Nat) (x : SwPort) : (setSwPort s p x).msix = s.msix := rfl
@[simp] theorem setSwPort_freeCtr (s : State) (p : Nat) (x : SwPort) : (setSwPort s p x).freeCtr = s.freeCtr := rfl
@[simp] theorem setSwPort_pending (s : State) (p : Nat) (x : SwPort) : (setSwPort s p x).pending = s.pending := rfl

/-! `setQueue` -/
@[simp] theorem setQueue_variant (s : State) (p q : Nat) (x : EQueue) : (setQueue s p q x).variant = s.variant := rfl
@[simp] theorem setQueue_swNum (s : State) (p q : Nat) (x : EQueue) : (setQueue s p q x).swNum = s.swNum := rfl
@[simp] theorem setQueue_now (s : State) (p q : Nat) (x : EQueue) : (setQueue s p q x).now = s.now := rfl
@[simp] theorem setQueue_cc (s : State) (p q : Nat) (x : EQueue) : (setQueue s p q x).cc = s.cc := rfl
@[simp] theorem setQueue_lv (s : State) (p q : Nat) (x : EQueue) : (setQueue s p q x).lv = s.lv := rfl
@[simp] theorem setQueue_sa (s : State) (p q : Nat) (x : EQueue) : (setQueue s p q x).sa = s.sa := rfl
@[simp] theorem setQueue_gv (s : State) (p q : Nat) (x : EQueue) : (setQueue s p q x).gv = s.gv := rfl
@[simp] theorem setQueue_te (s : State) (p q : Nat) (x : EQueue) : (setQueue s p q x).te = s.te := rfl
@[simp] theorem setQueue_pc (s : State) (p q : Nat) (x : EQueue) : (setQueue s p q x).pc = s.pc := rfl
@[simp] theorem setQueue_tu (s : State) (p q : Nat) (x : EQueue) : (setQueue s p q x).tu = s.tu := rfl
@[simp] theorem setQueue_tr (s : State) (p q : Nat) (x : EQueue) : (setQueue s p q x).tr = s.tr := rfl
@[simp] theorem setQueue_ie (s : State) (p q : Nat) (x : EQueue) : (setQueue s p q x).ie = s.ie := rfl
@[simp] theorem setQueue_ta (s : State) (p q : Nat) (x : EQueue) : (setQueue s p q x).ta = s.ta := rfl
@[simp] theorem setQueue_ph (s : State) (p q : Nat) (x : EQueue) : (setQueue s p q x).ph = s.ph := rfl
@[simp] theorem setQueue_hw (s : State) (p q : Nat) (x : EQueue) : (setQueue s p q x).hw = s.hw := rfl
@[simp] theorem setQueue_vimg (s : State) (p q : Nat) (x : EQueue) : (setQueue s p q x).vimg = s.vimg := rfl
@[simp] theorem setQueue_stamps (s : State) (p q : Nat) (x : EQueue) : (setQueue s p q x).stamps = s.stamps := rfl
@[simp] theorem setQueue_resp (s : State) (p q : Nat) (x : EQueue) : (setQueue s p q x).resp = s.resp := rfl
@[simp] theorem setQueue_msix (s : State) (p q : Nat) (x : EQueue) : (setQueue s p q x).msix = s.msix := rfl
@[simp] theorem setQueue_freeCtr (s : State) (p q : Nat) (x : EQueue) : (setQueue s p q x).freeCtr = s.freeCtr := rfl
@[simp] theorem setQueue_pending (s : State) (p q : Nat) (x : EQueue) : (setQueue s p q x).pending = s.pending := rfl

/-! `setAsid` -/
@[simp] theorem setAsid_variant (s : State) (a : Nat) (x : Asid) : (setAsid s a x).variant = s.variant := rfl
@[simp] theorem setAsid_swNum (s : State) (a : Nat) (x : Asid) : (setAsid s a x).swNum = s.swNum := rfl
@[simp] theorem setAsid_now (s : State) (a : Nat) (x : Asid) : (setAsid s a x).now = s.now := rfl
@[simp] theorem setAsid_cc (s : State) (a : Nat) (x : Asid) : (setAsid s a x).cc = s.cc := rfl
@[simp] theorem setAsid_lv (s : State) (a : Nat) (x : Asid) : (setAsid s a x).lv = s.lv := rfl
@[simp] theorem setAsid_sa (s : State) (a : Nat) (x : Asid) : (setAsid s a x).sa = s.sa := rfl
@[simp] theorem setAsid_gv (s : State) (a : Nat) (x : Asid) : (setAsid s a x).gv = s.gv := rfl
@[simp] theorem setAsid_te (s : State) (a : Nat) (x : Asid) : (setAsid s a x).te = s.te := rfl
@[simp] theorem setAsid_sw (s : State) (a : Nat) (x : Asid) : (setAsid s a x).sw = s.sw := rfl
@[simp] theorem setAsid_pc (s : State) (a : Nat) (x : Asid) : (setAsid s a x).pc = s.pc := rfl
@[simp] theorem setAsid_tr (s : State) (a : Nat) (x : Asid) : (setAsid s a x).tr = s.tr := rfl
@[simp] theorem setAsid_ie (s : State) (a : Nat) (x : Asid) : (setAsid s a x).ie = s.ie := rfl
@[simp] theorem setAsid_ta (s : State) (a : Nat) (x : Asid) : (setAsid s a x).ta = s.ta := rfl
@[simp] theorem setAsid_ph (s : State) (a : Nat) (x : Asid) : (setAsid s a x).ph = s.ph := rfl
@[simp] theorem setAsid_hw (s : State) (a : Nat) (x : Asid) : (setAsid s a x).hw = s.hw := rfl
@[simp] theorem setAsid_vimg (s : State) (a : Nat) (x : Asid) : (setAsid s a x).vimg = s.vimg := rfl
@[simp] theorem setAsid_stamps (s : State) (a : Nat) (x : Asid) : (setAsid s a x).stamps = s.stamps := rfl
@[simp] theorem setAsid_resp (s : State) (a : Nat) (x : Asid) : (setAsid s a x).resp = s.resp := rfl
@[simp] theorem setAsid_msix (s : State) (a : Nat) (x : Asid) : (setAsid s a x).msix = s.msix := rfl
@[simp] theorem setAsid_freeCtr (s : State) (a : Nat) (x : Asid) : (setAsid s a x).freeCtr = s.freeCtr := rfl
@[simp] theorem setAsid_pending (s : State) (a : Nat) (x : Asid) : (setAsid s a x).pending = s.pending := rfl

/-! `setPeer` -/
@[simp] theorem setPeer_variant (s : State) (k : Nat) (x : Peer) : (setPeer s k x).variant = s.variant := rfl
@[simp] theorem setPeer_swNum (s : State) (k : Nat) (x : Peer) : (setPeer s k x).swNum = s.swNum := rfl
@[simp] theorem setPeer_now (s : State) (k : Nat) (x : Peer) : (setPeer s k x).now = s.now := rfl
@[simp] theorem setPeer_cc (s : State) (k : Nat) (x : Peer) : (setPeer s k x).cc = s.cc := rfl
@[simp] theorem setPeer_lv (s : State) (k : Nat) (x : Peer) : (setPeer s k x).lv = s.lv := rfl
@[simp] theorem setPeer_sa (s : State) (k : Nat) (x : Peer) : (setPeer s k x).sa = s.sa := rfl
@[simp] theorem setPeer_gv (s : State) (k : Nat) (x : Peer) : (setPeer s k x).gv = s.gv := rfl
@[simp] theorem setPeer_sw (s : State) (k : Nat) (x : Peer) : (setPeer s k x).sw = s.sw := rfl
@[simp] theorem setPeer_pc (s : State) (k : Nat) (x : Peer) : (setPeer s k x).pc = s.pc := rfl
@[simp] theorem setPeer_tu (s : State) (k : Nat) (x : Peer) : (setPeer s k x).tu = s.tu := rfl
@[simp] theorem setPeer_tr (s : State) (k : Nat) (x : Peer) : (setPeer s k x).tr = s.tr := rfl
@[simp] theorem setPeer_ie (s : State) (k : Nat) (x : Peer) : (setPeer s k x).ie = s.ie := rfl
@[simp] theorem setPeer_ta (s : State) (k : Nat) (x : Peer) : (setPeer s k x).ta = s.ta := rfl
@[simp] theorem setPeer_ph (s : State) (k : Nat) (x : Peer) : (setPeer s k x).ph = s.ph := rfl
@[simp] theorem setPeer_hw (s : State) (k : Nat) (x : Peer) : (setPeer s k x).hw = s.hw := rfl
@[simp] theorem setPeer_vimg (s : State) (k : Nat) (x : Peer) : (setPeer s k x).vimg = s.vimg := rfl
@[simp] theorem setPeer_stamps (s : State) (k : Nat) (x : Peer) : (setPeer s k x).stamps = s.stamps := rfl
@[simp] theorem setPeer_resp (s : State) (k : Nat) (x : Peer) : (setPeer s k x).resp = s.resp := rfl
@[simp] theorem setPeer_msix (s : State) (k : Nat) (x : Peer) : (setPeer s k x).msix = s.msix := rfl
@[simp] theorem setPeer_freeCtr (s : State) (k : Nat) (x : Peer) : (setPeer s k x).freeCtr = s.freeCtr := rfl
@[simp] theorem setPeer_pending (s : State) (k : Nat) (x : Peer) : (setPeer s k x).pending = s.pending := rfl

/-! `outDrop` -/
@[simp] theorem outDrop_variant (s : State) (o : OutReq) : (outDrop s o).variant = s.variant := rfl
@[simp] theorem outDrop_swNum (s : State) (o : OutReq) : (outDrop s o).swNum = s.swNum := rfl
@[simp] theorem outDrop_now (s : State) (o : OutReq) : (outDrop s o).now = s.now := rfl
@[simp] theorem outDrop_cc (s : State) (o : OutReq) : (outDrop s o).cc = s.cc := rfl
@[simp] theorem outDrop_lv (s : State) (o : OutReq) : (outDrop s o).lv = s.lv := rfl
@[simp] theorem outDrop_sa (s : State) (o : OutReq) : (outDrop s o).sa = s.sa := rfl
@[simp] theorem outDrop_gv (s : State) (o : OutReq) : (outDrop s o).gv = s.gv := rfl
@[simp] theorem outDrop_sw (s : State) (o : OutReq) : (outDrop s o).sw = s.sw := rfl
@[simp] theorem outDrop_pc (s : State) (o : OutReq) : (outDrop s o).pc = s.pc := rfl
@[simp] theorem outDrop_tu (s : State) (o : OutReq) : (outDrop s o).tu = s.tu := rfl
@[simp] theorem outDrop_tr (s : State) (o : OutReq) : (outDrop s o).tr = s.tr := rfl
@[simp] theorem outDrop_ie (s : State) (o : OutReq) : (outDrop s o).ie = s.ie := rfl
@[simp] theorem outDrop_ta (s : State) (o : OutReq) : (outDrop s o).ta = s.ta := rfl
@[simp] theorem outDrop_ph (s : State) (o : OutReq) : (outDrop s o).ph = s.ph := rfl
@[simp] theorem outDrop_hw (s : State) (o : OutReq) : (outDrop s o).hw = s.hw := rfl
@[simp] theorem outDrop_vimg (s : State) (o : OutReq) : (outDrop s o).vimg = s.vimg := rfl
@[simp] theorem outDrop_stamps (s : State) (o : OutReq) : (outDrop s o).stamps = s.stamps := rfl
@[simp] theorem outDrop_resp (s : State) (o : OutReq) : (outDrop s o).resp = s.resp := rfl
@[simp] theorem outDrop_msix (s : State) (o : OutReq) : (outDrop s o).msix = s.msix := rfl
@[simp] theorem outDrop_freeCtr (s : State) (o : OutReq) : (outDrop s o).freeCtr = s.freeCtr := rfl
@[simp] theorem outDrop_pending (s : State) (o : OutReq) : (outDrop s o).pending = s.pending := rfl

/-! `dropBells` -/
@[simp] theorem dropBells_variant (s : State) : (dropBells s).variant = s.variant := rfl
@[simp] theorem dropBells_swNum (s : State) : (dropBells s).swNum = s.swNum := rfl
@[simp] theorem dropBells_now (s : State) : (dropBells s).now = s.now := rfl
@[simp] theorem dropBells_lv (s : State) : (dropBells s).lv = s.lv := rfl
@[simp] theorem dropBells_sa (s : State) : (dropBells s).sa = s.sa := rfl
@[simp] theorem dropBells_gv (s : State) : (dropBells s).gv = s.gv := rfl
@[simp] theorem dropBells_te (s : State) : (dropBells s).te = s.te := rfl
@[simp] theorem dropBells_sw (s : State) : (dropBells s).sw = s.sw := rfl
@[simp] theorem dropBells_pc (s : State) : (dropBells s).pc = s.pc := rfl
@[simp] theorem dropBells_tu (s : State) : (dropBells s).tu = s.tu := rfl
@[simp] theorem dropBells_tr (s : State) : (dropBells s).tr = s.tr := rfl
@[simp] theorem dropBells_ie (s : State) : (dropBells s).ie = s.ie := rfl
@[simp] theorem dropBells_ta (s : State) : (dropBells s).ta = s.ta := rfl
@[simp] theorem dropBells_ph (s : State) : (dropBells s).ph = s.ph := rfl
@[simp] theorem dropBells_hw (s : State) : (dropBells s).hw = s.hw := rfl
@[simp] theorem dropBells_vimg (s : State) : (dropBells s).vimg = s.vimg := rfl
@[simp] theorem dropBells_stamps (s : State) : (dropBells s).stamps = s.stamps := rfl
@[simp] theorem dropBells_resp (s : State) : (dropBells s).resp = s.resp := rfl
@[simp] theorem dropBells_msix (s : State) : (dropBells s).msix = s.msix := rfl
@[simp] theorem dropBells_freeCtr (s : State) : (dropBells s).freeCtr = s.freeCtr := rfl
@[simp] theorem dropBells_pending (s : State) : (dropBells s).pending = s.pending := rfl

/-! `aonRefused` -/
@[simp] theorem aonRefused_variant (s : State) (op : Nat) : (aonRefused s op).variant = s.variant := rfl
@[simp] theorem aonRefused_swNum (s : State) (op : Nat) : (aonRefused s op).swNum = s.swNum := rfl
@[simp] theorem aonRefused_now (s : State) (op : Nat) : (aonRefused s op).now = s.now := rfl
@[simp] theorem aonRefused_lv (s : State) (op : Nat) : (aonRefused s op).lv = s.lv := rfl
@[simp] theorem aonRefused_sa (s : State) (op : Nat) : (aonRefused s op).sa = s.sa := rfl
@[simp] theorem aonRefused_gv (s : State) (op : Nat) : (aonRefused s op).gv = s.gv := rfl
@[simp] theorem aonRefused_te (s : State) (op : Nat) : (aonRefused s op).te = s.te := rfl
@[simp] theorem aonRefused_sw (s : State) (op : Nat) : (aonRefused s op).sw = s.sw := rfl
@[simp] theorem aonRefused_pc (s : State) (op : Nat) : (aonRefused s op).pc = s.pc := rfl
@[simp] theorem aonRefused_tu (s : State) (op : Nat) : (aonRefused s op).tu = s.tu := rfl
@[simp] theorem aonRefused_tr (s : State) (op : Nat) : (aonRefused s op).tr = s.tr := rfl
@[simp] theorem aonRefused_ie (s : State) (op : Nat) : (aonRefused s op).ie = s.ie := rfl
@[simp] theorem aonRefused_ta (s : State) (op : Nat) : (aonRefused s op).ta = s.ta := rfl
@[simp] theorem aonRefused_ph (s : State) (op : Nat) : (aonRefused s op).ph = s.ph := rfl
@[simp] theorem aonRefused_hw (s : State) (op : Nat) : (aonRefused s op).hw = s.hw := rfl
@[simp] theorem aonRefused_vimg (s : State) (op : Nat) : (aonRefused s op).vimg = s.vimg := rfl
@[simp] theorem aonRefused_stamps (s : State) (op : Nat) : (aonRefused s op).stamps = s.stamps := rfl
@[simp] theorem aonRefused_resp (s : State) (op : Nat) : (aonRefused s op).resp = s.resp := rfl
@[simp] theorem aonRefused_msix (s : State) (op : Nat) : (aonRefused s op).msix = s.msix := rfl
@[simp] theorem aonRefused_freeCtr (s : State) (op : Nat) : (aonRefused s op).freeCtr = s.freeCtr := rfl
@[simp] theorem aonRefused_pending (s : State) (op : Nat) : (aonRefused s op).pending = s.pending := rfl

/-! `takeSnapshot` -/
@[simp] theorem takeSnapshot_variant (s : State) : (takeSnapshot s).variant = s.variant := rfl
@[simp] theorem takeSnapshot_swNum (s : State) : (takeSnapshot s).swNum = s.swNum := rfl
@[simp] theorem takeSnapshot_now (s : State) : (takeSnapshot s).now = s.now := rfl
@[simp] theorem takeSnapshot_lv (s : State) : (takeSnapshot s).lv = s.lv := rfl
@[simp] theorem takeSnapshot_sa (s : State) : (takeSnapshot s).sa = s.sa := rfl
@[simp] theorem takeSnapshot_gv (s : State) : (takeSnapshot s).gv = s.gv := rfl
@[simp] theorem takeSnapshot_te (s : State) : (takeSnapshot s).te = s.te := rfl
@[simp] theorem takeSnapshot_sw (s : State) : (takeSnapshot s).sw = s.sw := rfl
@[simp] theorem takeSnapshot_pc (s : State) : (takeSnapshot s).pc = s.pc := rfl
@[simp] theorem takeSnapshot_tu (s : State) : (takeSnapshot s).tu = s.tu := rfl
@[simp] theorem takeSnapshot_tr (s : State) : (takeSnapshot s).tr = s.tr := rfl
@[simp] theorem takeSnapshot_ie (s : State) : (takeSnapshot s).ie = s.ie := rfl
@[simp] theorem takeSnapshot_ta (s : State) : (takeSnapshot s).ta = s.ta := rfl
@[simp] theorem takeSnapshot_ph (s : State) : (takeSnapshot s).ph = s.ph := rfl
@[simp] theorem takeSnapshot_hw (s : State) : (takeSnapshot s).hw = s.hw := rfl
@[simp] theorem takeSnapshot_vimg (s : State) : (takeSnapshot s).vimg = s.vimg := rfl
@[simp] theorem takeSnapshot_stamps (s : State) : (takeSnapshot s).stamps = s.stamps := rfl
@[simp] theorem takeSnapshot_resp (s : State) : (takeSnapshot s).resp = s.resp := rfl
@[simp] theorem takeSnapshot_msix (s : State) : (takeSnapshot s).msix = s.msix := rfl
@[simp] theorem takeSnapshot_freeCtr (s : State) : (takeSnapshot s).freeCtr = s.freeCtr := rfl
@[simp] theorem takeSnapshot_pending (s : State) : (takeSnapshot s).pending = s.pending := rfl

/-! `goDark` -/
@[simp] theorem goDark_variant (s : State) : (goDark s).variant = s.variant := rfl
@[simp] theorem goDark_swNum (s : State) : (goDark s).swNum = s.swNum := rfl
@[simp] theorem goDark_now (s : State) : (goDark s).now = s.now := rfl
@[simp] theorem goDark_cc (s : State) : (goDark s).cc = s.cc := rfl
@[simp] theorem goDark_lv (s : State) : (goDark s).lv = s.lv := rfl
@[simp] theorem goDark_sa (s : State) : (goDark s).sa = s.sa := rfl
@[simp] theorem goDark_gv (s : State) : (goDark s).gv = s.gv := rfl
@[simp] theorem goDark_te (s : State) : (goDark s).te = s.te := rfl
@[simp] theorem goDark_sw (s : State) : (goDark s).sw = s.sw := rfl
@[simp] theorem goDark_pc (s : State) : (goDark s).pc = s.pc := rfl
@[simp] theorem goDark_tu (s : State) : (goDark s).tu = s.tu := rfl
@[simp] theorem goDark_tr (s : State) : (goDark s).tr = s.tr := rfl
@[simp] theorem goDark_ie (s : State) : (goDark s).ie = s.ie := rfl
@[simp] theorem goDark_ta (s : State) : (goDark s).ta = s.ta := rfl
@[simp] theorem goDark_ph (s : State) : (goDark s).ph = s.ph := rfl
@[simp] theorem goDark_vimg (s : State) : (goDark s).vimg = s.vimg := rfl
@[simp] theorem goDark_stamps (s : State) : (goDark s).stamps = s.stamps := rfl
@[simp] theorem goDark_resp (s : State) : (goDark s).resp = s.resp := rfl
@[simp] theorem goDark_msix (s : State) : (goDark s).msix = s.msix := rfl
@[simp] theorem goDark_freeCtr (s : State) : (goDark s).freeCtr = s.freeCtr := rfl
@[simp] theorem goDark_pending (s : State) : (goDark s).pending = s.pending := rfl

/-! `setIdeStream` -/
@[simp] theorem setIdeStream_variant (s : State) (mem : Bool) (x : IdeStream) : (setIdeStream s mem x).variant = s.variant := rfl
@[simp] theorem setIdeStream_swNum (s : State) (mem : Bool) (x : IdeStream) : (setIdeStream s mem x).swNum = s.swNum := rfl
@[simp] theorem setIdeStream_now (s : State) (mem : Bool) (x : IdeStream) : (setIdeStream s mem x).now = s.now := rfl
@[simp] theorem setIdeStream_lv (s : State) (mem : Bool) (x : IdeStream) : (setIdeStream s mem x).lv = s.lv := rfl
@[simp] theorem setIdeStream_sa (s : State) (mem : Bool) (x : IdeStream) : (setIdeStream s mem x).sa = s.sa := rfl
@[simp] theorem setIdeStream_gv (s : State) (mem : Bool) (x : IdeStream) : (setIdeStream s mem x).gv = s.gv := rfl
@[simp] theorem setIdeStream_te (s : State) (mem : Bool) (x : IdeStream) : (setIdeStream s mem x).te = s.te := rfl
@[simp] theorem setIdeStream_sw (s : State) (mem : Bool) (x : IdeStream) : (setIdeStream s mem x).sw = s.sw := rfl
@[simp] theorem setIdeStream_pc (s : State) (mem : Bool) (x : IdeStream) : (setIdeStream s mem x).pc = s.pc := rfl
@[simp] theorem setIdeStream_tu (s : State) (mem : Bool) (x : IdeStream) : (setIdeStream s mem x).tu = s.tu := rfl
@[simp] theorem setIdeStream_tr (s : State) (mem : Bool) (x : IdeStream) : (setIdeStream s mem x).tr = s.tr := rfl
@[simp] theorem setIdeStream_ie (s : State) (mem : Bool) (x : IdeStream) : (setIdeStream s mem x).ie = s.ie := rfl
@[simp] theorem setIdeStream_ta (s : State) (mem : Bool) (x : IdeStream) : (setIdeStream s mem x).ta = s.ta := rfl
@[simp] theorem setIdeStream_ph (s : State) (mem : Bool) (x : IdeStream) : (setIdeStream s mem x).ph = s.ph := rfl
@[simp] theorem setIdeStream_hw (s : State) (mem : Bool) (x : IdeStream) : (setIdeStream s mem x).hw = s.hw := rfl
@[simp] theorem setIdeStream_vimg (s : State) (mem : Bool) (x : IdeStream) : (setIdeStream s mem x).vimg = s.vimg := rfl
@[simp] theorem setIdeStream_stamps (s : State) (mem : Bool) (x : IdeStream) : (setIdeStream s mem x).stamps = s.stamps := rfl
@[simp] theorem setIdeStream_resp (s : State) (mem : Bool) (x : IdeStream) : (setIdeStream s mem x).resp = s.resp := rfl
@[simp] theorem setIdeStream_msix (s : State) (mem : Bool) (x : IdeStream) : (setIdeStream s mem x).msix = s.msix := rfl
@[simp] theorem setIdeStream_freeCtr (s : State) (mem : Bool) (x : IdeStream) : (setIdeStream s mem x).freeCtr = s.freeCtr := rfl
@[simp] theorem setIdeStream_pending (s : State) (mem : Bool) (x : IdeStream) : (setIdeStream s mem x).pending = s.pending := rfl

/-! `setPort` -/
@[simp] theorem setPort_variant (s : State) (p : Nat) (x : Port) : (setPort s p x).variant = s.variant := rfl
@[simp] theorem setPort_swNum (s : State) (p : Nat) (x : Port) : (setPort s p x).swNum = s.swNum := rfl
@[simp] theorem setPort_now (s : State) (p : Nat) (x : Port) : (setPort s p x).now = s.now := rfl
@[simp] theorem setPort_cc (s : State) (p : Nat) (x : Port) : (setPort s p x).cc = s.cc := rfl
@[simp] theorem setPort_lv (s : State) (p : Nat) (x : Port) : (setPort s p x).lv = s.lv := rfl
@[simp] theorem setPort_sa (s : State) (p : Nat) (x : Port) : (setPort s p x).sa = s.sa := rfl
@[simp] theorem setPort_gv (s : State) (p : Nat) (x : Port) : (setPort s p x).gv = s.gv := rfl
@[simp] theorem setPort_te (s : State) (p : Nat) (x : Port) : (setPort s p x).te = s.te := rfl
@[simp] theorem setPort_sw (s : State) (p : Nat) (x : Port) : (setPort s p x).sw = s.sw := rfl
@[simp] theorem setPort_tu (s : State) (p : Nat) (x : Port) : (setPort s p x).tu = s.tu := rfl
@[simp] theorem setPort_tr (s : State) (p : Nat) (x : Port) : (setPort s p x).tr = s.tr := rfl
@[simp] theorem setPort_ie (s : State) (p : Nat) (x : Port) : (setPort s p x).ie = s.ie := rfl
@[simp] theorem setPort_ta (s : State) (p : Nat) (x : Port) : (setPort s p x).ta = s.ta := rfl
@[simp] theorem setPort_ph (s : State) (p : Nat) (x : Port) : (setPort s p x).ph = s.ph := rfl
@[simp] theorem setPort_hw (s : State) (p : Nat) (x : Port) : (setPort s p x).hw = s.hw := rfl
@[simp] theorem setPort_vimg (s : State) (p : Nat) (x : Port) : (setPort s p x).vimg = s.vimg := rfl
@[simp] theorem setPort_stamps (s : State) (p : Nat) (x : Port) : (setPort s p x).stamps = s.stamps := rfl
@[simp] theorem setPort_resp (s : State) (p : Nat) (x : Port) : (setPort s p x).resp = s.resp := rfl
@[simp] theorem setPort_msix (s : State) (p : Nat) (x : Port) : (setPort s p x).msix = s.msix := rfl
@[simp] theorem setPort_freeCtr (s : State) (p : Nat) (x : Port) : (setPort s p x).freeCtr = s.freeCtr := rfl
@[simp] theorem setPort_pending (s : State) (p : Nat) (x : Port) : (setPort s p x).pending = s.pending := rfl

/-! `setPair` -/
@[simp] theorem setPair_variant (s : State) (k : Nat) (x : Pair) : (setPair s k x).variant = s.variant := rfl
@[simp] theorem setPair_swNum (s : State) (k : Nat) (x : Pair) : (setPair s k x).swNum = s.swNum := rfl
@[simp] theorem setPair_now (s : State) (k : Nat) (x : Pair) : (setPair s k x).now = s.now := rfl
@[simp] theorem setPair_cc (s : State) (k : Nat) (x : Pair) : (setPair s k x).cc = s.cc := rfl
@[simp] theorem setPair_lv (s : State) (k : Nat) (x : Pair) : (setPair s k x).lv = s.lv := rfl
@[simp] theorem setPair_sa (s : State) (k : Nat) (x : Pair) : (setPair s k x).sa = s.sa := rfl
@[simp] theorem setPair_gv (s : State) (k : Nat) (x : Pair) : (setPair s k x).gv = s.gv := rfl
@[simp] theorem setPair_te (s : State) (k : Nat) (x : Pair) : (setPair s k x).te = s.te := rfl
@[simp] theorem setPair_sw (s : State) (k : Nat) (x : Pair) : (setPair s k x).sw = s.sw := rfl
@[simp] theorem setPair_tu (s : State) (k : Nat) (x : Pair) : (setPair s k x).tu = s.tu := rfl
@[simp] theorem setPair_tr (s : State) (k : Nat) (x : Pair) : (setPair s k x).tr = s.tr := rfl
@[simp] theorem setPair_ie (s : State) (k : Nat) (x : Pair) : (setPair s k x).ie = s.ie := rfl
@[simp] theorem setPair_ta (s : State) (k : Nat) (x : Pair) : (setPair s k x).ta = s.ta := rfl
@[simp] theorem setPair_ph (s : State) (k : Nat) (x : Pair) : (setPair s k x).ph = s.ph := rfl
@[simp] theorem setPair_hw (s : State) (k : Nat) (x : Pair) : (setPair s k x).hw = s.hw := rfl
@[simp] theorem setPair_vimg (s : State) (k : Nat) (x : Pair) : (setPair s k x).vimg = s.vimg := rfl
@[simp] theorem setPair_stamps (s : State) (k : Nat) (x : Pair) : (setPair s k x).stamps = s.stamps := rfl
@[simp] theorem setPair_resp (s : State) (k : Nat) (x : Pair) : (setPair s k x).resp = s.resp := rfl
@[simp] theorem setPair_msix (s : State) (k : Nat) (x : Pair) : (setPair s k x).msix = s.msix := rfl
@[simp] theorem setPair_freeCtr (s : State) (k : Nat) (x : Pair) : (setPair s k x).freeCtr = s.freeCtr := rfl
@[simp] theorem setPair_pending (s : State) (k : Nat) (x : Pair) : (setPair s k x).pending = s.pending := rfl

/-! `sendOut` -/
@[simp] theorem sendOut_variant (s : State) (f : Frame) (via : Option Nat) : (sendOut s f via).variant = s.variant := rfl
@[simp] theorem sendOut_swNum (s : State) (f : Frame) (via : Option Nat) : (sendOut s f via).swNum = s.swNum := rfl
@[simp] theorem sendOut_now (s : State) (f : Frame) (via : Option Nat) : (sendOut s f via).now = s.now := rfl
@[simp] theorem sendOut_cc (s : State) (f : Frame) (via : Option Nat) : (sendOut s f via).cc = s.cc := rfl
@[simp] theorem sendOut_lv (s : State) (f : Frame) (via : Option Nat) : (sendOut s f via).lv = s.lv := rfl
@[simp] theorem sendOut_sa (s : State) (f : Frame) (via : Option Nat) : (sendOut s f via).sa = s.sa := rfl
@[simp] theorem sendOut_gv (s : State) (f : Frame) (via : Option Nat) : (sendOut s f via).gv = s.gv := rfl
@[simp] theorem sendOut_sw (s : State) (f : Frame) (via : Option Nat) : (sendOut s f via).sw = s.sw := rfl
@[simp] theorem sendOut_pc (s : State) (f : Frame) (via : Option Nat) : (sendOut s f via).pc = s.pc := rfl
@[simp] theorem sendOut_tu (s : State) (f : Frame) (via : Option Nat) : (sendOut s f via).tu = s.tu := rfl
@[simp] theorem sendOut_tr (s : State) (f : Frame) (via : Option Nat) : (sendOut s f via).tr = s.tr := rfl
@[simp] theorem sendOut_ie (s : State) (f : Frame) (via : Option Nat) : (sendOut s f via).ie = s.ie := rfl
@[simp] theorem sendOut_ta (s : State) (f : Frame) (via : Option Nat) : (sendOut s f via).ta = s.ta := rfl
@[simp] theorem sendOut_ph (s : State) (f : Frame) (via : Option Nat) : (sendOut s f via).ph = s.ph := rfl
@[simp] theorem sendOut_hw (s : State) (f : Frame) (via : Option Nat) : (sendOut s f via).hw = s.hw := rfl
@[simp] theorem sendOut_vimg (s : State) (f : Frame) (via : Option Nat) : (sendOut s f via).vimg = s.vimg := rfl
@[simp] theorem sendOut_stamps (s : State) (f : Frame) (via : Option Nat) : (sendOut s f via).stamps = s.stamps := rfl
@[simp] theorem sendOut_resp (s : State) (f : Frame) (via : Option Nat) : (sendOut s f via).resp = s.resp := rfl
@[simp] theorem sendOut_msix (s : State) (f : Frame) (via : Option Nat) : (sendOut s f via).msix = s.msix := rfl
@[simp] theorem sendOut_freeCtr (s : State) (f : Frame) (via : Option Nat) : (sendOut s f via).freeCtr = s.freeCtr := rfl
@[simp] theorem sendOut_pending (s : State) (f : Frame) (via : Option Nat) : (sendOut s f via).pending = s.pending := rfl

/-! `teCount` -/
@[simp] theorem teCount_variant (s : State) (i n : Nat) : (teCount s i n).variant = s.variant := rfl
@[simp] theorem teCount_swNum (s : State) (i n : Nat) : (teCount s i n).swNum = s.swNum := rfl
@[simp] theorem teCount_now (s : State) (i n : Nat) : (teCount s i n).now = s.now := rfl
@[simp] theorem teCount_cc (s : State) (i n : Nat) : (teCount s i n).cc = s.cc := rfl
@[simp] theorem teCount_lv (s : State) (i n : Nat) : (teCount s i n).lv = s.lv := rfl
@[simp] theorem teCount_sa (s : State) (i n : Nat) : (teCount s i n).sa = s.sa := rfl
@[simp] theorem teCount_gv (s : State) (i n : Nat) : (teCount s i n).gv = s.gv := rfl
@[simp] theorem teCount_sw (s : State) (i n : Nat) : (teCount s i n).sw = s.sw := rfl
@[simp] theorem teCount_pc (s : State) (i n : Nat) : (teCount s i n).pc = s.pc := rfl
@[simp] theorem teCount_tu (s : State) (i n : Nat) : (teCount s i n).tu = s.tu := rfl
@[simp] theorem teCount_tr (s : State) (i n : Nat) : (teCount s i n).tr = s.tr := rfl
@[simp] theorem teCount_ie (s : State) (i n : Nat) : (teCount s i n).ie = s.ie := rfl
@[simp] theorem teCount_ta (s : State) (i n : Nat) : (teCount s i n).ta = s.ta := rfl
@[simp] theorem teCount_ph (s : State) (i n : Nat) : (teCount s i n).ph = s.ph := rfl
@[simp] theorem teCount_hw (s : State) (i n : Nat) : (teCount s i n).hw = s.hw := rfl
@[simp] theorem teCount_vimg (s : State) (i n : Nat) : (teCount s i n).vimg = s.vimg := rfl
@[simp] theorem teCount_stamps (s : State) (i n : Nat) : (teCount s i n).stamps = s.stamps := rfl
@[simp] theorem teCount_resp (s : State) (i n : Nat) : (teCount s i n).resp = s.resp := rfl
@[simp] theorem teCount_msix (s : State) (i n : Nat) : (teCount s i n).msix = s.msix := rfl
@[simp] theorem teCount_freeCtr (s : State) (i n : Nat) : (teCount s i n).freeCtr = s.freeCtr := rfl
@[simp] theorem teCount_pending (s : State) (i n : Nat) : (teCount s i n).pending = s.pending := rfl

/-! `keepOut` -/
@[simp] theorem keepOut_variant (s : State) (f : Frame) (what : ReqFor) (via : Option Nat) : (keepOut s f what via).variant = s.variant := rfl
@[simp] theorem keepOut_swNum (s : State) (f : Frame) (what : ReqFor) (via : Option Nat) : (keepOut s f what via).swNum = s.swNum := rfl
@[simp] theorem keepOut_now (s : State) (f : Frame) (what : ReqFor) (via : Option Nat) : (keepOut s f what via).now = s.now := rfl
@[simp] theorem keepOut_cc (s : State) (f : Frame) (what : ReqFor) (via : Option Nat) : (keepOut s f what via).cc = s.cc := rfl
@[simp] theorem keepOut_lv (s : State) (f : Frame) (what : ReqFor) (via : Option Nat) : (keepOut s f what via).lv = s.lv := rfl
@[simp] theorem keepOut_sa (s : State) (f : Frame) (what : ReqFor) (via : Option Nat) : (keepOut s f what via).sa = s.sa := rfl
@[simp] theorem keepOut_gv (s : State) (f : Frame) (what : ReqFor) (via : Option Nat) : (keepOut s f what via).gv = s.gv := rfl
@[simp] theorem keepOut_sw (s : State) (f : Frame) (what : ReqFor) (via : Option Nat) : (keepOut s f what via).sw = s.sw := rfl
@[simp] theorem keepOut_pc (s : State) (f : Frame) (what : ReqFor) (via : Option Nat) : (keepOut s f what via).pc = s.pc := rfl
@[simp] theorem keepOut_tu (s : State) (f : Frame) (what : ReqFor) (via : Option Nat) : (keepOut s f what via).tu = s.tu := rfl
@[simp] theorem keepOut_tr (s : State) (f : Frame) (what : ReqFor) (via : Option Nat) : (keepOut s f what via).tr = s.tr := rfl
@[simp] theorem keepOut_ie (s : State) (f : Frame) (what : ReqFor) (via : Option Nat) : (keepOut s f what via).ie = s.ie := rfl
@[simp] theorem keepOut_ta (s : State) (f : Frame) (what : ReqFor) (via : Option Nat) : (keepOut s f what via).ta = s.ta := rfl
@[simp] theorem keepOut_ph (s : State) (f : Frame) (what : ReqFor) (via : Option Nat) : (keepOut s f what via).ph = s.ph := rfl
@[simp] theorem keepOut_hw (s : State) (f : Frame) (what : ReqFor) (via : Option Nat) : (keepOut s f what via).hw = s.hw := rfl
@[simp] theorem keepOut_vimg (s : State) (f : Frame) (what : ReqFor) (via : Option Nat) : (keepOut s f what via).vimg = s.vimg := rfl
@[simp] theorem keepOut_stamps (s : State) (f : Frame) (what : ReqFor) (via : Option Nat) : (keepOut s f what via).stamps = s.stamps := rfl
@[simp] theorem keepOut_resp (s : State) (f : Frame) (what : ReqFor) (via : Option Nat) : (keepOut s f what via).resp = s.resp := rfl
@[simp] theorem keepOut_msix (s : State) (f : Frame) (what : ReqFor) (via : Option Nat) : (keepOut s f what via).msix = s.msix := rfl
@[simp] theorem keepOut_freeCtr (s : State) (f : Frame) (what : ReqFor) (via : Option Nat) : (keepOut s f what via).freeCtr = s.freeCtr := rfl
@[simp] theorem keepOut_pending (s : State) (f : Frame) (what : ReqFor) (via : Option Nat) : (keepOut s f what via).pending = s.pending := rfl

/-! `countSpills` -/
@[simp] theorem countSpills_variant (s : State) (n : Nat) : (countSpills s n).variant = s.variant := rfl
@[simp] theorem countSpills_swNum (s : State) (n : Nat) : (countSpills s n).swNum = s.swNum := rfl
@[simp] theorem countSpills_now (s : State) (n : Nat) : (countSpills s n).now = s.now := rfl
@[simp] theorem countSpills_cc (s : State) (n : Nat) : (countSpills s n).cc = s.cc := rfl
@[simp] theorem countSpills_lv (s : State) (n : Nat) : (countSpills s n).lv = s.lv := rfl
@[simp] theorem countSpills_sa (s : State) (n : Nat) : (countSpills s n).sa = s.sa := rfl
@[simp] theorem countSpills_te (s : State) (n : Nat) : (countSpills s n).te = s.te := rfl
@[simp] theorem countSpills_sw (s : State) (n : Nat) : (countSpills s n).sw = s.sw := rfl
@[simp] theorem countSpills_pc (s : State) (n : Nat) : (countSpills s n).pc = s.pc := rfl
@[simp] theorem countSpills_tu (s : State) (n : Nat) : (countSpills s n).tu = s.tu := rfl
@[simp] theorem countSpills_tr (s : State) (n : Nat) : (countSpills s n).tr = s.tr := rfl
@[simp] theorem countSpills_ie (s : State) (n : Nat) : (countSpills s n).ie = s.ie := rfl
@[simp] theorem countSpills_ta (s : State) (n : Nat) : (countSpills s n).ta = s.ta := rfl
@[simp] theorem countSpills_ph (s : State) (n : Nat) : (countSpills s n).ph = s.ph := rfl
@[simp] theorem countSpills_hw (s : State) (n : Nat) : (countSpills s n).hw = s.hw := rfl
@[simp] theorem countSpills_vimg (s : State) (n : Nat) : (countSpills s n).vimg = s.vimg := rfl
@[simp] theorem countSpills_stamps (s : State) (n : Nat) : (countSpills s n).stamps = s.stamps := rfl
@[simp] theorem countSpills_resp (s : State) (n : Nat) : (countSpills s n).resp = s.resp := rfl
@[simp] theorem countSpills_msix (s : State) (n : Nat) : (countSpills s n).msix = s.msix := rfl
@[simp] theorem countSpills_freeCtr (s : State) (n : Nat) : (countSpills s n).freeCtr = s.freeCtr := rfl
@[simp] theorem countSpills_pending (s : State) (n : Nat) : (countSpills s n).pending = s.pending := rfl

/-! `setLane` -/
@[simp] theorem setLane_variant (s : State) (l : Nat) (x : Lane) : (setLane s l x).variant = s.variant := rfl
@[simp] theorem setLane_swNum (s : State) (l : Nat) (x : Lane) : (setLane s l x).swNum = s.swNum := rfl
@[simp] theorem setLane_now (s : State) (l : Nat) (x : Lane) : (setLane s l x).now = s.now := rfl
@[simp] theorem setLane_cc (s : State) (l : Nat) (x : Lane) : (setLane s l x).cc = s.cc := rfl
@[simp] theorem setLane_lv (s : State) (l : Nat) (x : Lane) : (setLane s l x).lv = s.lv := rfl
@[simp] theorem setLane_sa (s : State) (l : Nat) (x : Lane) : (setLane s l x).sa = s.sa := rfl
@[simp] theorem setLane_gv (s : State) (l : Nat) (x : Lane) : (setLane s l x).gv = s.gv := rfl
@[simp] theorem setLane_te (s : State) (l : Nat) (x : Lane) : (setLane s l x).te = s.te := rfl
@[simp] theorem setLane_sw (s : State) (l : Nat) (x : Lane) : (setLane s l x).sw = s.sw := rfl
@[simp] theorem setLane_tu (s : State) (l : Nat) (x : Lane) : (setLane s l x).tu = s.tu := rfl
@[simp] theorem setLane_tr (s : State) (l : Nat) (x : Lane) : (setLane s l x).tr = s.tr := rfl
@[simp] theorem setLane_ie (s : State) (l : Nat) (x : Lane) : (setLane s l x).ie = s.ie := rfl
@[simp] theorem setLane_ta (s : State) (l : Nat) (x : Lane) : (setLane s l x).ta = s.ta := rfl
@[simp] theorem setLane_ph (s : State) (l : Nat) (x : Lane) : (setLane s l x).ph = s.ph := rfl
@[simp] theorem setLane_hw (s : State) (l : Nat) (x : Lane) : (setLane s l x).hw = s.hw := rfl
@[simp] theorem setLane_vimg (s : State) (l : Nat) (x : Lane) : (setLane s l x).vimg = s.vimg := rfl
@[simp] theorem setLane_stamps (s : State) (l : Nat) (x : Lane) : (setLane s l x).stamps = s.stamps := rfl
@[simp] theorem setLane_resp (s : State) (l : Nat) (x : Lane) : (setLane s l x).resp = s.resp := rfl
@[simp] theorem setLane_msix (s : State) (l : Nat) (x : Lane) : (setLane s l x).msix = s.msix := rfl
@[simp] theorem setLane_freeCtr (s : State) (l : Nat) (x : Lane) : (setLane s l x).freeCtr = s.freeCtr := rfl
@[simp] theorem setLane_pending (s : State) (l : Nat) (x : Lane) : (setLane s l x).pending = s.pending := rfl

/-! `setStore` -/
@[simp] theorem setStore_variant (s : State) (id : Nat) (x : GvStore) : (setStore s id x).variant = s.variant := rfl
@[simp] theorem setStore_swNum (s : State) (id : Nat) (x : GvStore) : (setStore s id x).swNum = s.swNum := rfl
@[simp] theorem setStore_now (s : State) (id : Nat) (x : GvStore) : (setStore s id x).now = s.now := rfl
@[simp] theorem setStore_cc (s : State) (id : Nat) (x : GvStore) : (setStore s id x).cc = s.cc := rfl
@[simp] theorem setStore_lv (s : State) (id : Nat) (x : GvStore) : (setStore s id x).lv = s.lv := rfl
@[simp] theorem setStore_sa (s : State) (id : Nat) (x : GvStore) : (setStore s id x).sa = s.sa := rfl
@[simp] theorem setStore_te (s : State) (id : Nat) (x : GvStore) : (setStore s id x).te = s.te := rfl
@[simp] theorem setStore_sw (s : State) (id : Nat) (x : GvStore) : (setStore s id x).sw = s.sw := rfl
@[simp] theorem setStore_pc (s : State) (id : Nat) (x : GvStore) : (setStore s id x).pc = s.pc := rfl
@[simp] theorem setStore_tu (s : State) (id : Nat) (x : GvStore) : (setStore s id x).tu = s.tu := rfl
@[simp] theorem setStore_tr (s : State) (id : Nat) (x : GvStore) : (setStore s id x).tr = s.tr := rfl
@[simp] theorem setStore_ie (s : State) (id : Nat) (x : GvStore) : (setStore s id x).ie = s.ie := rfl
@[simp] theorem setStore_ta (s : State) (id : Nat) (x : GvStore) : (setStore s id x).ta = s.ta := rfl
@[simp] theorem setStore_ph (s : State) (id : Nat) (x : GvStore) : (setStore s id x).ph = s.ph := rfl
@[simp] theorem setStore_hw (s : State) (id : Nat) (x : GvStore) : (setStore s id x).hw = s.hw := rfl
@[simp] theorem setStore_vimg (s : State) (id : Nat) (x : GvStore) : (setStore s id x).vimg = s.vimg := rfl
@[simp] theorem setStore_stamps (s : State) (id : Nat) (x : GvStore) : (setStore s id x).stamps = s.stamps := rfl
@[simp] theorem setStore_resp (s : State) (id : Nat) (x : GvStore) : (setStore s id x).resp = s.resp := rfl
@[simp] theorem setStore_msix (s : State) (id : Nat) (x : GvStore) : (setStore s id x).msix = s.msix := rfl
@[simp] theorem setStore_freeCtr (s : State) (id : Nat) (x : GvStore) : (setStore s id x).freeCtr = s.freeCtr := rfl
@[simp] theorem setStore_pending (s : State) (id : Nat) (x : GvStore) : (setStore s id x).pending = s.pending := rfl

/-! `setRes` -/
@[simp] theorem setRes_variant (s : State) (r : Nat) (x : GvRes) : (setRes s r x).variant = s.variant := rfl
@[simp] theorem setRes_swNum (s : State) (r : Nat) (x : GvRes) : (setRes s r x).swNum = s.swNum := rfl
@[simp] theorem setRes_now (s : State) (r : Nat) (x : GvRes) : (setRes s r x).now = s.now := rfl
@[simp] theorem setRes_cc (s : State) (r : Nat) (x : GvRes) : (setRes s r x).cc = s.cc := rfl
@[simp] theorem setRes_lv (s : State) (r : Nat) (x : GvRes) : (setRes s r x).lv = s.lv := rfl
@[simp] theorem setRes_sa (s : State) (r : Nat) (x : GvRes) : (setRes s r x).sa = s.sa := rfl
@[simp] theorem setRes_te (s : State) (r : Nat) (x : GvRes) : (setRes s r x).te = s.te := rfl
@[simp] theorem setRes_sw (s : State) (r : Nat) (x : GvRes) : (setRes s r x).sw = s.sw := rfl
@[simp] theorem setRes_pc (s : State) (r : Nat) (x : GvRes) : (setRes s r x).pc = s.pc := rfl
@[simp] theorem setRes_tu (s : State) (r : Nat) (x : GvRes) : (setRes s r x).tu = s.tu := rfl
@[simp] theorem setRes_tr (s : State) (r : Nat) (x : GvRes) : (setRes s r x).tr = s.tr := rfl
@[simp] theorem setRes_ie (s : State) (r : Nat) (x : GvRes) : (setRes s r x).ie = s.ie := rfl
@[simp] theorem setRes_ta (s : State) (r : Nat) (x : GvRes) : (setRes s r x).ta = s.ta := rfl
@[simp] theorem setRes_ph (s : State) (r : Nat) (x : GvRes) : (setRes s r x).ph = s.ph := rfl
@[simp] theorem setRes_hw (s : State) (r : Nat) (x : GvRes) : (setRes s r x).hw = s.hw := rfl
@[simp] theorem setRes_vimg (s : State) (r : Nat) (x : GvRes) : (setRes s r x).vimg = s.vimg := rfl
@[simp] theorem setRes_stamps (s : State) (r : Nat) (x : GvRes) : (setRes s r x).stamps = s.stamps := rfl
@[simp] theorem setRes_resp (s : State) (r : Nat) (x : GvRes) : (setRes s r x).resp = s.resp := rfl
@[simp] theorem setRes_msix (s : State) (r : Nat) (x : GvRes) : (setRes s r x).msix = s.msix := rfl
@[simp] theorem setRes_freeCtr (s : State) (r : Nat) (x : GvRes) : (setRes s r x).freeCtr = s.freeCtr := rfl
@[simp] theorem setRes_pending (s : State) (r : Nat) (x : GvRes) : (setRes s r x).pending = s.pending := rfl

/-! `gvCount` -/
@[simp] theorem gvCount_variant (s : State) (i n : Nat) : (gvCount s i n).variant = s.variant := rfl
@[simp] theorem gvCount_swNum (s : State) (i n : Nat) : (gvCount s i n).swNum = s.swNum := rfl
@[simp] theorem gvCount_now (s : State) (i n : Nat) : (gvCount s i n).now = s.now := rfl
@[simp] theorem gvCount_cc (s : State) (i n : Nat) : (gvCount s i n).cc = s.cc := rfl
@[simp] theorem gvCount_lv (s : State) (i n : Nat) : (gvCount s i n).lv = s.lv := rfl
@[simp] theorem gvCount_sa (s : State) (i n : Nat) : (gvCount s i n).sa = s.sa := rfl
@[simp] theorem gvCount_te (s : State) (i n : Nat) : (gvCount s i n).te = s.te := rfl
@[simp] theorem gvCount_sw (s : State) (i n : Nat) : (gvCount s i n).sw = s.sw := rfl
@[simp] theorem gvCount_pc (s : State) (i n : Nat) : (gvCount s i n).pc = s.pc := rfl
@[simp] theorem gvCount_tu (s : State) (i n : Nat) : (gvCount s i n).tu = s.tu := rfl
@[simp] theorem gvCount_tr (s : State) (i n : Nat) : (gvCount s i n).tr = s.tr := rfl
@[simp] theorem gvCount_ie (s : State) (i n : Nat) : (gvCount s i n).ie = s.ie := rfl
@[simp] theorem gvCount_ta (s : State) (i n : Nat) : (gvCount s i n).ta = s.ta := rfl
@[simp] theorem gvCount_ph (s : State) (i n : Nat) : (gvCount s i n).ph = s.ph := rfl
@[simp] theorem gvCount_hw (s : State) (i n : Nat) : (gvCount s i n).hw = s.hw := rfl
@[simp] theorem gvCount_vimg (s : State) (i n : Nat) : (gvCount s i n).vimg = s.vimg := rfl
@[simp] theorem gvCount_stamps (s : State) (i n : Nat) : (gvCount s i n).stamps = s.stamps := rfl
@[simp] theorem gvCount_resp (s : State) (i n : Nat) : (gvCount s i n).resp = s.resp := rfl
@[simp] theorem gvCount_msix (s : State) (i n : Nat) : (gvCount s i n).msix = s.msix := rfl
@[simp] theorem gvCount_freeCtr (s : State) (i n : Nat) : (gvCount s i n).freeCtr = s.freeCtr := rfl
@[simp] theorem gvCount_pending (s : State) (i n : Nat) : (gvCount s i n).pending = s.pending := rfl

/-! `testWaits` -/
@[simp] theorem testWaits_variant (s : State) (n v : Nat) : (testWaits s n v).variant = s.variant := rfl
@[simp] theorem testWaits_swNum (s : State) (n v : Nat) : (testWaits s n v).swNum = s.swNum := rfl
@[simp] theorem testWaits_now (s : State) (n v : Nat) : (testWaits s n v).now = s.now := rfl
@[simp] theorem testWaits_lv (s : State) (n v : Nat) : (testWaits s n v).lv = s.lv := rfl
@[simp] theorem testWaits_gv (s : State) (n v : Nat) : (testWaits s n v).gv = s.gv := rfl
@[simp] theorem testWaits_te (s : State) (n v : Nat) : (testWaits s n v).te = s.te := rfl
@[simp] theorem testWaits_sw (s : State) (n v : Nat) : (testWaits s n v).sw = s.sw := rfl
@[simp] theorem testWaits_pc (s : State) (n v : Nat) : (testWaits s n v).pc = s.pc := rfl
@[simp] theorem testWaits_tu (s : State) (n v : Nat) : (testWaits s n v).tu = s.tu := rfl
@[simp] theorem testWaits_tr (s : State) (n v : Nat) : (testWaits s n v).tr = s.tr := rfl
@[simp] theorem testWaits_ie (s : State) (n v : Nat) : (testWaits s n v).ie = s.ie := rfl
@[simp] theorem testWaits_ta (s : State) (n v : Nat) : (testWaits s n v).ta = s.ta := rfl
@[simp] theorem testWaits_ph (s : State) (n v : Nat) : (testWaits s n v).ph = s.ph := rfl
@[simp] theorem testWaits_hw (s : State) (n v : Nat) : (testWaits s n v).hw = s.hw := rfl
@[simp] theorem testWaits_vimg (s : State) (n v : Nat) : (testWaits s n v).vimg = s.vimg := rfl
@[simp] theorem testWaits_stamps (s : State) (n v : Nat) : (testWaits s n v).stamps = s.stamps := rfl
@[simp] theorem testWaits_resp (s : State) (n v : Nat) : (testWaits s n v).resp = s.resp := rfl
@[simp] theorem testWaits_msix (s : State) (n v : Nat) : (testWaits s n v).msix = s.msix := rfl
@[simp] theorem testWaits_freeCtr (s : State) (n v : Nat) : (testWaits s n v).freeCtr = s.freeCtr := rfl
@[simp] theorem testWaits_pending (s : State) (n v : Nat) : (testWaits s n v).pending = s.pending := rfl

/-! `setFence` -/
@[simp] theorem setFence_variant (s : State) (c : Nat) (x : FenceSt) : (setFence s c x).variant = s.variant := rfl
@[simp] theorem setFence_swNum (s : State) (c : Nat) (x : FenceSt) : (setFence s c x).swNum = s.swNum := rfl
@[simp] theorem setFence_now (s : State) (c : Nat) (x : FenceSt) : (setFence s c x).now = s.now := rfl
@[simp] theorem setFence_cc (s : State) (c : Nat) (x : FenceSt) : (setFence s c x).cc = s.cc := rfl
@[simp] theorem setFence_lv (s : State) (c : Nat) (x : FenceSt) : (setFence s c x).lv = s.lv := rfl
@[simp] theorem setFence_sa (s : State) (c : Nat) (x : FenceSt) : (setFence s c x).sa = s.sa := rfl
@[simp] theorem setFence_gv (s : State) (c : Nat) (x : FenceSt) : (setFence s c x).gv = s.gv := rfl
@[simp] theorem setFence_sw (s : State) (c : Nat) (x : FenceSt) : (setFence s c x).sw = s.sw := rfl
@[simp] theorem setFence_pc (s : State) (c : Nat) (x : FenceSt) : (setFence s c x).pc = s.pc := rfl
@[simp] theorem setFence_tu (s : State) (c : Nat) (x : FenceSt) : (setFence s c x).tu = s.tu := rfl
@[simp] theorem setFence_tr (s : State) (c : Nat) (x : FenceSt) : (setFence s c x).tr = s.tr := rfl
@[simp] theorem setFence_ie (s : State) (c : Nat) (x : FenceSt) : (setFence s c x).ie = s.ie := rfl
@[simp] theorem setFence_ta (s : State) (c : Nat) (x : FenceSt) : (setFence s c x).ta = s.ta := rfl
@[simp] theorem setFence_ph (s : State) (c : Nat) (x : FenceSt) : (setFence s c x).ph = s.ph := rfl
@[simp] theorem setFence_hw (s : State) (c : Nat) (x : FenceSt) : (setFence s c x).hw = s.hw := rfl
@[simp] theorem setFence_vimg (s : State) (c : Nat) (x : FenceSt) : (setFence s c x).vimg = s.vimg := rfl
@[simp] theorem setFence_stamps (s : State) (c : Nat) (x : FenceSt) : (setFence s c x).stamps = s.stamps := rfl
@[simp] theorem setFence_resp (s : State) (c : Nat) (x : FenceSt) : (setFence s c x).resp = s.resp := rfl
@[simp] theorem setFence_msix (s : State) (c : Nat) (x : FenceSt) : (setFence s c x).msix = s.msix := rfl
@[simp] theorem setFence_freeCtr (s : State) (c : Nat) (x : FenceSt) : (setFence s c x).freeCtr = s.freeCtr := rfl
@[simp] theorem setFence_pending (s : State) (c : Nat) (x : FenceSt) : (setFence s c x).pending = s.pending := rfl

/-! `keepProbe` -/
@[simp] theorem keepProbe_variant (s : State) (p : PendProbe) : (keepProbe s p).variant = s.variant := rfl
@[simp] theorem keepProbe_swNum (s : State) (p : PendProbe) : (keepProbe s p).swNum = s.swNum := rfl
@[simp] theorem keepProbe_now (s : State) (p : PendProbe) : (keepProbe s p).now = s.now := rfl
@[simp] theorem keepProbe_cc (s : State) (p : PendProbe) : (keepProbe s p).cc = s.cc := rfl
@[simp] theorem keepProbe_lv (s : State) (p : PendProbe) : (keepProbe s p).lv = s.lv := rfl
@[simp] theorem keepProbe_sa (s : State) (p : PendProbe) : (keepProbe s p).sa = s.sa := rfl
@[simp] theorem keepProbe_gv (s : State) (p : PendProbe) : (keepProbe s p).gv = s.gv := rfl
@[simp] theorem keepProbe_sw (s : State) (p : PendProbe) : (keepProbe s p).sw = s.sw := rfl
@[simp] theorem keepProbe_pc (s : State) (p : PendProbe) : (keepProbe s p).pc = s.pc := rfl
@[simp] theorem keepProbe_tu (s : State) (p : PendProbe) : (keepProbe s p).tu = s.tu := rfl
@[simp] theorem keepProbe_tr (s : State) (p : PendProbe) : (keepProbe s p).tr = s.tr := rfl
@[simp] theorem keepProbe_ie (s : State) (p : PendProbe) : (keepProbe s p).ie = s.ie := rfl
@[simp] theorem keepProbe_ta (s : State) (p : PendProbe) : (keepProbe s p).ta = s.ta := rfl
@[simp] theorem keepProbe_ph (s : State) (p : PendProbe) : (keepProbe s p).ph = s.ph := rfl
@[simp] theorem keepProbe_hw (s : State) (p : PendProbe) : (keepProbe s p).hw = s.hw := rfl
@[simp] theorem keepProbe_vimg (s : State) (p : PendProbe) : (keepProbe s p).vimg = s.vimg := rfl
@[simp] theorem keepProbe_stamps (s : State) (p : PendProbe) : (keepProbe s p).stamps = s.stamps := rfl
@[simp] theorem keepProbe_resp (s : State) (p : PendProbe) : (keepProbe s p).resp = s.resp := rfl
@[simp] theorem keepProbe_msix (s : State) (p : PendProbe) : (keepProbe s p).msix = s.msix := rfl
@[simp] theorem keepProbe_freeCtr (s : State) (p : PendProbe) : (keepProbe s p).freeCtr = s.freeCtr := rfl
@[simp] theorem keepProbe_pending (s : State) (p : PendProbe) : (keepProbe s p).pending = s.pending := rfl

/-! `dropProbe` -/
@[simp] theorem dropProbe_variant (s : State) (f : Frame) : (dropProbe s f).variant = s.variant := rfl
@[simp] theorem dropProbe_swNum (s : State) (f : Frame) : (dropProbe s f).swNum = s.swNum := rfl
@[simp] theorem dropProbe_now (s : State) (f : Frame) : (dropProbe s f).now = s.now := rfl
@[simp] theorem dropProbe_cc (s : State) (f : Frame) : (dropProbe s f).cc = s.cc := rfl
@[simp] theorem dropProbe_lv (s : State) (f : Frame) : (dropProbe s f).lv = s.lv := rfl
@[simp] theorem dropProbe_sa (s : State) (f : Frame) : (dropProbe s f).sa = s.sa := rfl
@[simp] theorem dropProbe_gv (s : State) (f : Frame) : (dropProbe s f).gv = s.gv := rfl
@[simp] theorem dropProbe_sw (s : State) (f : Frame) : (dropProbe s f).sw = s.sw := rfl
@[simp] theorem dropProbe_pc (s : State) (f : Frame) : (dropProbe s f).pc = s.pc := rfl
@[simp] theorem dropProbe_tu (s : State) (f : Frame) : (dropProbe s f).tu = s.tu := rfl
@[simp] theorem dropProbe_tr (s : State) (f : Frame) : (dropProbe s f).tr = s.tr := rfl
@[simp] theorem dropProbe_ie (s : State) (f : Frame) : (dropProbe s f).ie = s.ie := rfl
@[simp] theorem dropProbe_ta (s : State) (f : Frame) : (dropProbe s f).ta = s.ta := rfl
@[simp] theorem dropProbe_ph (s : State) (f : Frame) : (dropProbe s f).ph = s.ph := rfl
@[simp] theorem dropProbe_hw (s : State) (f : Frame) : (dropProbe s f).hw = s.hw := rfl
@[simp] theorem dropProbe_vimg (s : State) (f : Frame) : (dropProbe s f).vimg = s.vimg := rfl
@[simp] theorem dropProbe_stamps (s : State) (f : Frame) : (dropProbe s f).stamps = s.stamps := rfl
@[simp] theorem dropProbe_resp (s : State) (f : Frame) : (dropProbe s f).resp = s.resp := rfl
@[simp] theorem dropProbe_msix (s : State) (f : Frame) : (dropProbe s f).msix = s.msix := rfl
@[simp] theorem dropProbe_freeCtr (s : State) (f : Frame) : (dropProbe s f).freeCtr = s.freeCtr := rfl
@[simp] theorem dropProbe_pending (s : State) (f : Frame) : (dropProbe s f).pending = s.pending := rfl

/-! `metersTick` -/
@[simp] theorem metersTick_variant (s : State) : (metersTick s).variant = s.variant := rfl
@[simp] theorem metersTick_swNum (s : State) : (metersTick s).swNum = s.swNum := rfl
@[simp] theorem metersTick_now (s : State) : (metersTick s).now = s.now := rfl
@[simp] theorem metersTick_cc (s : State) : (metersTick s).cc = s.cc := rfl
@[simp] theorem metersTick_lv (s : State) : (metersTick s).lv = s.lv := rfl
@[simp] theorem metersTick_sa (s : State) : (metersTick s).sa = s.sa := rfl
@[simp] theorem metersTick_gv (s : State) : (metersTick s).gv = s.gv := rfl
@[simp] theorem metersTick_te (s : State) : (metersTick s).te = s.te := rfl
@[simp] theorem metersTick_sw (s : State) : (metersTick s).sw = s.sw := rfl
@[simp] theorem metersTick_pc (s : State) : (metersTick s).pc = s.pc := rfl
@[simp] theorem metersTick_tu (s : State) : (metersTick s).tu = s.tu := rfl
@[simp] theorem metersTick_ie (s : State) : (metersTick s).ie = s.ie := rfl
@[simp] theorem metersTick_ta (s : State) : (metersTick s).ta = s.ta := rfl
@[simp] theorem metersTick_ph (s : State) : (metersTick s).ph = s.ph := rfl
@[simp] theorem metersTick_hw (s : State) : (metersTick s).hw = s.hw := rfl
@[simp] theorem metersTick_vimg (s : State) : (metersTick s).vimg = s.vimg := rfl
@[simp] theorem metersTick_stamps (s : State) : (metersTick s).stamps = s.stamps := rfl
@[simp] theorem metersTick_resp (s : State) : (metersTick s).resp = s.resp := rfl
@[simp] theorem metersTick_msix (s : State) : (metersTick s).msix = s.msix := rfl
@[simp] theorem metersTick_freeCtr (s : State) : (metersTick s).freeCtr = s.freeCtr := rfl
@[simp] theorem metersTick_pending (s : State) : (metersTick s).pending = s.pending := rfl

/-! `setComp` -/
@[simp] theorem setComp_variant (s : State) (c : Nat) (x : Comp) : (setComp s c x).variant = s.variant := rfl
@[simp] theorem setComp_swNum (s : State) (c : Nat) (x : Comp) : (setComp s c x).swNum = s.swNum := rfl
@[simp] theorem setComp_now (s : State) (c : Nat) (x : Comp) : (setComp s c x).now = s.now := rfl
@[simp] theorem setComp_cc (s : State) (c : Nat) (x : Comp) : (setComp s c x).cc = s.cc := rfl
@[simp] theorem setComp_lv (s : State) (c : Nat) (x : Comp) : (setComp s c x).lv = s.lv := rfl
@[simp] theorem setComp_sa (s : State) (c : Nat) (x : Comp) : (setComp s c x).sa = s.sa := rfl
@[simp] theorem setComp_gv (s : State) (c : Nat) (x : Comp) : (setComp s c x).gv = s.gv := rfl
@[simp] theorem setComp_te (s : State) (c : Nat) (x : Comp) : (setComp s c x).te = s.te := rfl
@[simp] theorem setComp_sw (s : State) (c : Nat) (x : Comp) : (setComp s c x).sw = s.sw := rfl
@[simp] theorem setComp_pc (s : State) (c : Nat) (x : Comp) : (setComp s c x).pc = s.pc := rfl
@[simp] theorem setComp_tu (s : State) (c : Nat) (x : Comp) : (setComp s c x).tu = s.tu := rfl
@[simp] theorem setComp_ie (s : State) (c : Nat) (x : Comp) : (setComp s c x).ie = s.ie := rfl
@[simp] theorem setComp_ta (s : State) (c : Nat) (x : Comp) : (setComp s c x).ta = s.ta := rfl
@[simp] theorem setComp_ph (s : State) (c : Nat) (x : Comp) : (setComp s c x).ph = s.ph := rfl
@[simp] theorem setComp_hw (s : State) (c : Nat) (x : Comp) : (setComp s c x).hw = s.hw := rfl
@[simp] theorem setComp_vimg (s : State) (c : Nat) (x : Comp) : (setComp s c x).vimg = s.vimg := rfl
@[simp] theorem setComp_stamps (s : State) (c : Nat) (x : Comp) : (setComp s c x).stamps = s.stamps := rfl
@[simp] theorem setComp_resp (s : State) (c : Nat) (x : Comp) : (setComp s c x).resp = s.resp := rfl
@[simp] theorem setComp_msix (s : State) (c : Nat) (x : Comp) : (setComp s c x).msix = s.msix := rfl
@[simp] theorem setComp_freeCtr (s : State) (c : Nat) (x : Comp) : (setComp s c x).freeCtr = s.freeCtr := rfl
@[simp] theorem setComp_pending (s : State) (c : Nat) (x : Comp) : (setComp s c x).pending = s.pending := rfl

/-! `setRegion` -/
@[simp] theorem setRegion_variant (s : State) (r : Nat) (x : Region) : (setRegion s r x).variant = s.variant := rfl
@[simp] theorem setRegion_swNum (s : State) (r : Nat) (x : Region) : (setRegion s r x).swNum = s.swNum := rfl
@[simp] theorem setRegion_now (s : State) (r : Nat) (x : Region) : (setRegion s r x).now = s.now := rfl
@[simp] theorem setRegion_cc (s : State) (r : Nat) (x : Region) : (setRegion s r x).cc = s.cc := rfl
@[simp] theorem setRegion_lv (s : State) (r : Nat) (x : Region) : (setRegion s r x).lv = s.lv := rfl
@[simp] theorem setRegion_sa (s : State) (r : Nat) (x : Region) : (setRegion s r x).sa = s.sa := rfl
@[simp] theorem setRegion_gv (s : State) (r : Nat) (x : Region) : (setRegion s r x).gv = s.gv := rfl
@[simp] theorem setRegion_te (s : State) (r : Nat) (x : Region) : (setRegion s r x).te = s.te := rfl
@[simp] theorem setRegion_sw (s : State) (r : Nat) (x : Region) : (setRegion s r x).sw = s.sw := rfl
@[simp] theorem setRegion_pc (s : State) (r : Nat) (x : Region) : (setRegion s r x).pc = s.pc := rfl
@[simp] theorem setRegion_tu (s : State) (r : Nat) (x : Region) : (setRegion s r x).tu = s.tu := rfl
@[simp] theorem setRegion_ie (s : State) (r : Nat) (x : Region) : (setRegion s r x).ie = s.ie := rfl
@[simp] theorem setRegion_ta (s : State) (r : Nat) (x : Region) : (setRegion s r x).ta = s.ta := rfl
@[simp] theorem setRegion_ph (s : State) (r : Nat) (x : Region) : (setRegion s r x).ph = s.ph := rfl
@[simp] theorem setRegion_hw (s : State) (r : Nat) (x : Region) : (setRegion s r x).hw = s.hw := rfl
@[simp] theorem setRegion_vimg (s : State) (r : Nat) (x : Region) : (setRegion s r x).vimg = s.vimg := rfl
@[simp] theorem setRegion_stamps (s : State) (r : Nat) (x : Region) : (setRegion s r x).stamps = s.stamps := rfl
@[simp] theorem setRegion_resp (s : State) (r : Nat) (x : Region) : (setRegion s r x).resp = s.resp := rfl
@[simp] theorem setRegion_msix (s : State) (r : Nat) (x : Region) : (setRegion s r x).msix = s.msix := rfl
@[simp] theorem setRegion_freeCtr (s : State) (r : Nat) (x : Region) : (setRegion s r x).freeCtr = s.freeCtr := rfl
@[simp] theorem setRegion_pending (s : State) (r : Nat) (x : Region) : (setRegion s r x).pending = s.pending := rfl

/-! `unreserve` -/
@[simp] theorem unreserve_variant (s : State) (x : Nat) : (unreserve s x).variant = s.variant := rfl
@[simp] theorem unreserve_swNum (s : State) (x : Nat) : (unreserve s x).swNum = s.swNum := rfl
@[simp] theorem unreserve_now (s : State) (x : Nat) : (unreserve s x).now = s.now := rfl
@[simp] theorem unreserve_cc (s : State) (x : Nat) : (unreserve s x).cc = s.cc := rfl
@[simp] theorem unreserve_lv (s : State) (x : Nat) : (unreserve s x).lv = s.lv := rfl
@[simp] theorem unreserve_sa (s : State) (x : Nat) : (unreserve s x).sa = s.sa := rfl
@[simp] theorem unreserve_gv (s : State) (x : Nat) : (unreserve s x).gv = s.gv := rfl
@[simp] theorem unreserve_te (s : State) (x : Nat) : (unreserve s x).te = s.te := rfl
@[simp] theorem unreserve_sw (s : State) (x : Nat) : (unreserve s x).sw = s.sw := rfl
@[simp] theorem unreserve_pc (s : State) (x : Nat) : (unreserve s x).pc = s.pc := rfl
@[simp] theorem unreserve_tu (s : State) (x : Nat) : (unreserve s x).tu = s.tu := rfl
@[simp] theorem unreserve_ie (s : State) (x : Nat) : (unreserve s x).ie = s.ie := rfl
@[simp] theorem unreserve_ta (s : State) (x : Nat) : (unreserve s x).ta = s.ta := rfl
@[simp] theorem unreserve_ph (s : State) (x : Nat) : (unreserve s x).ph = s.ph := rfl
@[simp] theorem unreserve_hw (s : State) (x : Nat) : (unreserve s x).hw = s.hw := rfl
@[simp] theorem unreserve_vimg (s : State) (x : Nat) : (unreserve s x).vimg = s.vimg := rfl
@[simp] theorem unreserve_stamps (s : State) (x : Nat) : (unreserve s x).stamps = s.stamps := rfl
@[simp] theorem unreserve_resp (s : State) (x : Nat) : (unreserve s x).resp = s.resp := rfl
@[simp] theorem unreserve_msix (s : State) (x : Nat) : (unreserve s x).msix = s.msix := rfl
@[simp] theorem unreserve_freeCtr (s : State) (x : Nat) : (unreserve s x).freeCtr = s.freeCtr := rfl
@[simp] theorem unreserve_pending (s : State) (x : Nat) : (unreserve s x).pending = s.pending := rfl

/-! `tuCount` -/
@[simp] theorem tuCount_variant (s : State) (i n : Nat) : (tuCount s i n).variant = s.variant := rfl
@[simp] theorem tuCount_swNum (s : State) (i n : Nat) : (tuCount s i n).swNum = s.swNum := rfl
@[simp] theorem tuCount_now (s : State) (i n : Nat) : (tuCount s i n).now = s.now := rfl
@[simp] theorem tuCount_cc (s : State) (i n : Nat) : (tuCount s i n).cc = s.cc := rfl
@[simp] theorem tuCount_lv (s : State) (i n : Nat) : (tuCount s i n).lv = s.lv := rfl
@[simp] theorem tuCount_sa (s : State) (i n : Nat) : (tuCount s i n).sa = s.sa := rfl
@[simp] theorem tuCount_gv (s : State) (i n : Nat) : (tuCount s i n).gv = s.gv := rfl
@[simp] theorem tuCount_te (s : State) (i n : Nat) : (tuCount s i n).te = s.te := rfl
@[simp] theorem tuCount_sw (s : State) (i n : Nat) : (tuCount s i n).sw = s.sw := rfl
@[simp] theorem tuCount_pc (s : State) (i n : Nat) : (tuCount s i n).pc = s.pc := rfl
@[simp] theorem tuCount_tr (s : State) (i n : Nat) : (tuCount s i n).tr = s.tr := rfl
@[simp] theorem tuCount_ie (s : State) (i n : Nat) : (tuCount s i n).ie = s.ie := rfl
@[simp] theorem tuCount_ta (s : State) (i n : Nat) : (tuCount s i n).ta = s.ta := rfl
@[simp] theorem tuCount_ph (s : State) (i n : Nat) : (tuCount s i n).ph = s.ph := rfl
@[simp] theorem tuCount_hw (s : State) (i n : Nat) : (tuCount s i n).hw = s.hw := rfl
@[simp] theorem tuCount_vimg (s : State) (i n : Nat) : (tuCount s i n).vimg = s.vimg := rfl
@[simp] theorem tuCount_stamps (s : State) (i n : Nat) : (tuCount s i n).stamps = s.stamps := rfl
@[simp] theorem tuCount_resp (s : State) (i n : Nat) : (tuCount s i n).resp = s.resp := rfl
@[simp] theorem tuCount_msix (s : State) (i n : Nat) : (tuCount s i n).msix = s.msix := rfl
@[simp] theorem tuCount_freeCtr (s : State) (i n : Nat) : (tuCount s i n).freeCtr = s.freeCtr := rfl
@[simp] theorem tuCount_pending (s : State) (i n : Nat) : (tuCount s i n).pending = s.pending := rfl

/-! `useTick` -/
@[simp] theorem useTick_variant (s : State) : (useTick s).variant = s.variant := rfl
@[simp] theorem useTick_swNum (s : State) : (useTick s).swNum = s.swNum := rfl
@[simp] theorem useTick_now (s : State) : (useTick s).now = s.now := rfl
@[simp] theorem useTick_cc (s : State) : (useTick s).cc = s.cc := rfl
@[simp] theorem useTick_lv (s : State) : (useTick s).lv = s.lv := rfl
@[simp] theorem useTick_sa (s : State) : (useTick s).sa = s.sa := rfl
@[simp] theorem useTick_gv (s : State) : (useTick s).gv = s.gv := rfl
@[simp] theorem useTick_te (s : State) : (useTick s).te = s.te := rfl
@[simp] theorem useTick_sw (s : State) : (useTick s).sw = s.sw := rfl
@[simp] theorem useTick_pc (s : State) : (useTick s).pc = s.pc := rfl
@[simp] theorem useTick_tr (s : State) : (useTick s).tr = s.tr := rfl
@[simp] theorem useTick_ie (s : State) : (useTick s).ie = s.ie := rfl
@[simp] theorem useTick_ta (s : State) : (useTick s).ta = s.ta := rfl
@[simp] theorem useTick_ph (s : State) : (useTick s).ph = s.ph := rfl
@[simp] theorem useTick_hw (s : State) : (useTick s).hw = s.hw := rfl
@[simp] theorem useTick_vimg (s : State) : (useTick s).vimg = s.vimg := rfl
@[simp] theorem useTick_stamps (s : State) : (useTick s).stamps = s.stamps := rfl
@[simp] theorem useTick_resp (s : State) : (useTick s).resp = s.resp := rfl
@[simp] theorem useTick_msix (s : State) : (useTick s).msix = s.msix := rfl
@[simp] theorem useTick_freeCtr (s : State) : (useTick s).freeCtr = s.freeCtr := rfl
@[simp] theorem useTick_pending (s : State) : (useTick s).pending = s.pending := rfl

/-! `microClear` -/
@[simp] theorem microClear_variant (s : State) (n : Nat) : (microClear s n).variant = s.variant := rfl
@[simp] theorem microClear_swNum (s : State) (n : Nat) : (microClear s n).swNum = s.swNum := rfl
@[simp] theorem microClear_now (s : State) (n : Nat) : (microClear s n).now = s.now := rfl
@[simp] theorem microClear_cc (s : State) (n : Nat) : (microClear s n).cc = s.cc := rfl
@[simp] theorem microClear_lv (s : State) (n : Nat) : (microClear s n).lv = s.lv := rfl
@[simp] theorem microClear_sa (s : State) (n : Nat) : (microClear s n).sa = s.sa := rfl
@[simp] theorem microClear_gv (s : State) (n : Nat) : (microClear s n).gv = s.gv := rfl
@[simp] theorem microClear_te (s : State) (n : Nat) : (microClear s n).te = s.te := rfl
@[simp] theorem microClear_sw (s : State) (n : Nat) : (microClear s n).sw = s.sw := rfl
@[simp] theorem microClear_pc (s : State) (n : Nat) : (microClear s n).pc = s.pc := rfl
@[simp] theorem microClear_tr (s : State) (n : Nat) : (microClear s n).tr = s.tr := rfl
@[simp] theorem microClear_ie (s : State) (n : Nat) : (microClear s n).ie = s.ie := rfl
@[simp] theorem microClear_ta (s : State) (n : Nat) : (microClear s n).ta = s.ta := rfl
@[simp] theorem microClear_ph (s : State) (n : Nat) : (microClear s n).ph = s.ph := rfl
@[simp] theorem microClear_hw (s : State) (n : Nat) : (microClear s n).hw = s.hw := rfl
@[simp] theorem microClear_vimg (s : State) (n : Nat) : (microClear s n).vimg = s.vimg := rfl
@[simp] theorem microClear_stamps (s : State) (n : Nat) : (microClear s n).stamps = s.stamps := rfl
@[simp] theorem microClear_resp (s : State) (n : Nat) : (microClear s n).resp = s.resp := rfl
@[simp] theorem microClear_msix (s : State) (n : Nat) : (microClear s n).msix = s.msix := rfl
@[simp] theorem microClear_freeCtr (s : State) (n : Nat) : (microClear s n).freeCtr = s.freeCtr := rfl
@[simp] theorem microClear_pending (s : State) (n : Nat) : (microClear s n).pending = s.pending := rfl

/-! `setFault` -/
@[simp] theorem setFault_variant (s : State) (i : Nat) (e : FaultEnt) : (setFault s i e).variant = s.variant := rfl
@[simp] theorem setFault_swNum (s : State) (i : Nat) (e : FaultEnt) : (setFault s i e).swNum = s.swNum := rfl
@[simp] theorem setFault_now (s : State) (i : Nat) (e : FaultEnt) : (setFault s i e).now = s.now := rfl
@[simp] theorem setFault_cc (s : State) (i : Nat) (e : FaultEnt) : (setFault s i e).cc = s.cc := rfl
@[simp] theorem setFault_lv (s : State) (i : Nat) (e : FaultEnt) : (setFault s i e).lv = s.lv := rfl
@[simp] theorem setFault_sa (s : State) (i : Nat) (e : FaultEnt) : (setFault s i e).sa = s.sa := rfl
@[simp] theorem setFault_gv (s : State) (i : Nat) (e : FaultEnt) : (setFault s i e).gv = s.gv := rfl
@[simp] theorem setFault_te (s : State) (i : Nat) (e : FaultEnt) : (setFault s i e).te = s.te := rfl
@[simp] theorem setFault_sw (s : State) (i : Nat) (e : FaultEnt) : (setFault s i e).sw = s.sw := rfl
@[simp] theorem setFault_pc (s : State) (i : Nat) (e : FaultEnt) : (setFault s i e).pc = s.pc := rfl
@[simp] theorem setFault_tr (s : State) (i : Nat) (e : FaultEnt) : (setFault s i e).tr = s.tr := rfl
@[simp] theorem setFault_ie (s : State) (i : Nat) (e : FaultEnt) : (setFault s i e).ie = s.ie := rfl
@[simp] theorem setFault_ta (s : State) (i : Nat) (e : FaultEnt) : (setFault s i e).ta = s.ta := rfl
@[simp] theorem setFault_ph (s : State) (i : Nat) (e : FaultEnt) : (setFault s i e).ph = s.ph := rfl
@[simp] theorem setFault_hw (s : State) (i : Nat) (e : FaultEnt) : (setFault s i e).hw = s.hw := rfl
@[simp] theorem setFault_vimg (s : State) (i : Nat) (e : FaultEnt) : (setFault s i e).vimg = s.vimg := rfl
@[simp] theorem setFault_stamps (s : State) (i : Nat) (e : FaultEnt) : (setFault s i e).stamps = s.stamps := rfl
@[simp] theorem setFault_resp (s : State) (i : Nat) (e : FaultEnt) : (setFault s i e).resp = s.resp := rfl
@[simp] theorem setFault_msix (s : State) (i : Nat) (e : FaultEnt) : (setFault s i e).msix = s.msix := rfl
@[simp] theorem setFault_freeCtr (s : State) (i : Nat) (e : FaultEnt) : (setFault s i e).freeCtr = s.freeCtr := rfl
@[simp] theorem setFault_pending (s : State) (i : Nat) (e : FaultEnt) : (setFault s i e).pending = s.pending := rfl

/-! `setEng` -/
@[simp] theorem setEng_variant (s : State) (n : Nat) (x : EngFault) : (setEng s n x).variant = s.variant := rfl
@[simp] theorem setEng_swNum (s : State) (n : Nat) (x : EngFault) : (setEng s n x).swNum = s.swNum := rfl
@[simp] theorem setEng_now (s : State) (n : Nat) (x : EngFault) : (setEng s n x).now = s.now := rfl
@[simp] theorem setEng_cc (s : State) (n : Nat) (x : EngFault) : (setEng s n x).cc = s.cc := rfl
@[simp] theorem setEng_lv (s : State) (n : Nat) (x : EngFault) : (setEng s n x).lv = s.lv := rfl
@[simp] theorem setEng_sa (s : State) (n : Nat) (x : EngFault) : (setEng s n x).sa = s.sa := rfl
@[simp] theorem setEng_gv (s : State) (n : Nat) (x : EngFault) : (setEng s n x).gv = s.gv := rfl
@[simp] theorem setEng_te (s : State) (n : Nat) (x : EngFault) : (setEng s n x).te = s.te := rfl
@[simp] theorem setEng_sw (s : State) (n : Nat) (x : EngFault) : (setEng s n x).sw = s.sw := rfl
@[simp] theorem setEng_pc (s : State) (n : Nat) (x : EngFault) : (setEng s n x).pc = s.pc := rfl
@[simp] theorem setEng_tr (s : State) (n : Nat) (x : EngFault) : (setEng s n x).tr = s.tr := rfl
@[simp] theorem setEng_ie (s : State) (n : Nat) (x : EngFault) : (setEng s n x).ie = s.ie := rfl
@[simp] theorem setEng_ta (s : State) (n : Nat) (x : EngFault) : (setEng s n x).ta = s.ta := rfl
@[simp] theorem setEng_ph (s : State) (n : Nat) (x : EngFault) : (setEng s n x).ph = s.ph := rfl
@[simp] theorem setEng_hw (s : State) (n : Nat) (x : EngFault) : (setEng s n x).hw = s.hw := rfl
@[simp] theorem setEng_vimg (s : State) (n : Nat) (x : EngFault) : (setEng s n x).vimg = s.vimg := rfl
@[simp] theorem setEng_stamps (s : State) (n : Nat) (x : EngFault) : (setEng s n x).stamps = s.stamps := rfl
@[simp] theorem setEng_resp (s : State) (n : Nat) (x : EngFault) : (setEng s n x).resp = s.resp := rfl
@[simp] theorem setEng_msix (s : State) (n : Nat) (x : EngFault) : (setEng s n x).msix = s.msix := rfl
@[simp] theorem setEng_freeCtr (s : State) (n : Nat) (x : EngFault) : (setEng s n x).freeCtr = s.freeCtr := rfl
@[simp] theorem setEng_pending (s : State) (n : Nat) (x : EngFault) : (setEng s n x).pending = s.pending := rfl

/-! `dropWalk` -/
@[simp] theorem dropWalk_variant (s : State) (n : Nat) : (dropWalk s n).variant = s.variant := rfl
@[simp] theorem dropWalk_swNum (s : State) (n : Nat) : (dropWalk s n).swNum = s.swNum := rfl
@[simp] theorem dropWalk_now (s : State) (n : Nat) : (dropWalk s n).now = s.now := rfl
@[simp] theorem dropWalk_cc (s : State) (n : Nat) : (dropWalk s n).cc = s.cc := rfl
@[simp] theorem dropWalk_lv (s : State) (n : Nat) : (dropWalk s n).lv = s.lv := rfl
@[simp] theorem dropWalk_sa (s : State) (n : Nat) : (dropWalk s n).sa = s.sa := rfl
@[simp] theorem dropWalk_gv (s : State) (n : Nat) : (dropWalk s n).gv = s.gv := rfl
@[simp] theorem dropWalk_te (s : State) (n : Nat) : (dropWalk s n).te = s.te := rfl
@[simp] theorem dropWalk_sw (s : State) (n : Nat) : (dropWalk s n).sw = s.sw := rfl
@[simp] theorem dropWalk_pc (s : State) (n : Nat) : (dropWalk s n).pc = s.pc := rfl
@[simp] theorem dropWalk_tr (s : State) (n : Nat) : (dropWalk s n).tr = s.tr := rfl
@[simp] theorem dropWalk_ie (s : State) (n : Nat) : (dropWalk s n).ie = s.ie := rfl
@[simp] theorem dropWalk_ta (s : State) (n : Nat) : (dropWalk s n).ta = s.ta := rfl
@[simp] theorem dropWalk_ph (s : State) (n : Nat) : (dropWalk s n).ph = s.ph := rfl
@[simp] theorem dropWalk_hw (s : State) (n : Nat) : (dropWalk s n).hw = s.hw := rfl
@[simp] theorem dropWalk_vimg (s : State) (n : Nat) : (dropWalk s n).vimg = s.vimg := rfl
@[simp] theorem dropWalk_stamps (s : State) (n : Nat) : (dropWalk s n).stamps = s.stamps := rfl
@[simp] theorem dropWalk_resp (s : State) (n : Nat) : (dropWalk s n).resp = s.resp := rfl
@[simp] theorem dropWalk_msix (s : State) (n : Nat) : (dropWalk s n).msix = s.msix := rfl
@[simp] theorem dropWalk_freeCtr (s : State) (n : Nat) : (dropWalk s n).freeCtr = s.freeCtr := rfl
@[simp] theorem dropWalk_pending (s : State) (n : Nat) : (dropWalk s n).pending = s.pending := rfl

/-! `dropAsid` -/
@[simp] theorem dropAsid_variant (s : State) (a : Nat) : (dropAsid s a).variant = s.variant := rfl
@[simp] theorem dropAsid_swNum (s : State) (a : Nat) : (dropAsid s a).swNum = s.swNum := rfl
@[simp] theorem dropAsid_now (s : State) (a : Nat) : (dropAsid s a).now = s.now := rfl
@[simp] theorem dropAsid_cc (s : State) (a : Nat) : (dropAsid s a).cc = s.cc := rfl
@[simp] theorem dropAsid_lv (s : State) (a : Nat) : (dropAsid s a).lv = s.lv := rfl
@[simp] theorem dropAsid_sa (s : State) (a : Nat) : (dropAsid s a).sa = s.sa := rfl
@[simp] theorem dropAsid_gv (s : State) (a : Nat) : (dropAsid s a).gv = s.gv := rfl
@[simp] theorem dropAsid_te (s : State) (a : Nat) : (dropAsid s a).te = s.te := rfl
@[simp] theorem dropAsid_sw (s : State) (a : Nat) : (dropAsid s a).sw = s.sw := rfl
@[simp] theorem dropAsid_pc (s : State) (a : Nat) : (dropAsid s a).pc = s.pc := rfl
@[simp] theorem dropAsid_tr (s : State) (a : Nat) : (dropAsid s a).tr = s.tr := rfl
@[simp] theorem dropAsid_ie (s : State) (a : Nat) : (dropAsid s a).ie = s.ie := rfl
@[simp] theorem dropAsid_ta (s : State) (a : Nat) : (dropAsid s a).ta = s.ta := rfl
@[simp] theorem dropAsid_ph (s : State) (a : Nat) : (dropAsid s a).ph = s.ph := rfl
@[simp] theorem dropAsid_hw (s : State) (a : Nat) : (dropAsid s a).hw = s.hw := rfl
@[simp] theorem dropAsid_vimg (s : State) (a : Nat) : (dropAsid s a).vimg = s.vimg := rfl
@[simp] theorem dropAsid_stamps (s : State) (a : Nat) : (dropAsid s a).stamps = s.stamps := rfl
@[simp] theorem dropAsid_resp (s : State) (a : Nat) : (dropAsid s a).resp = s.resp := rfl
@[simp] theorem dropAsid_msix (s : State) (a : Nat) : (dropAsid s a).msix = s.msix := rfl
@[simp] theorem dropAsid_freeCtr (s : State) (a : Nat) : (dropAsid s a).freeCtr = s.freeCtr := rfl
@[simp] theorem dropAsid_pending (s : State) (a : Nat) : (dropAsid s a).pending = s.pending := rfl

/-! `taCount` -/
@[simp] theorem taCount_variant (s : State) (i n : Nat) : (taCount s i n).variant = s.variant := rfl
@[simp] theorem taCount_swNum (s : State) (i n : Nat) : (taCount s i n).swNum = s.swNum := rfl
@[simp] theorem taCount_now (s : State) (i n : Nat) : (taCount s i n).now = s.now := rfl
@[simp] theorem taCount_cc (s : State) (i n : Nat) : (taCount s i n).cc = s.cc := rfl
@[simp] theorem taCount_lv (s : State) (i n : Nat) : (taCount s i n).lv = s.lv := rfl
@[simp] theorem taCount_sa (s : State) (i n : Nat) : (taCount s i n).sa = s.sa := rfl
@[simp] theorem taCount_gv (s : State) (i n : Nat) : (taCount s i n).gv = s.gv := rfl
@[simp] theorem taCount_te (s : State) (i n : Nat) : (taCount s i n).te = s.te := rfl
@[simp] theorem taCount_sw (s : State) (i n : Nat) : (taCount s i n).sw = s.sw := rfl
@[simp] theorem taCount_pc (s : State) (i n : Nat) : (taCount s i n).pc = s.pc := rfl
@[simp] theorem taCount_tu (s : State) (i n : Nat) : (taCount s i n).tu = s.tu := rfl
@[simp] theorem taCount_tr (s : State) (i n : Nat) : (taCount s i n).tr = s.tr := rfl
@[simp] theorem taCount_ie (s : State) (i n : Nat) : (taCount s i n).ie = s.ie := rfl
@[simp] theorem taCount_ph (s : State) (i n : Nat) : (taCount s i n).ph = s.ph := rfl
@[simp] theorem taCount_hw (s : State) (i n : Nat) : (taCount s i n).hw = s.hw := rfl
@[simp] theorem taCount_vimg (s : State) (i n : Nat) : (taCount s i n).vimg = s.vimg := rfl
@[simp] theorem taCount_stamps (s : State) (i n : Nat) : (taCount s i n).stamps = s.stamps := rfl
@[simp] theorem taCount_resp (s : State) (i n : Nat) : (taCount s i n).resp = s.resp := rfl
@[simp] theorem taCount_msix (s : State) (i n : Nat) : (taCount s i n).msix = s.msix := rfl
@[simp] theorem taCount_freeCtr (s : State) (i n : Nat) : (taCount s i n).freeCtr = s.freeCtr := rfl
@[simp] theorem taCount_pending (s : State) (i n : Nat) : (taCount s i n).pending = s.pending := rfl

/-! `clearDelivered` -/
@[simp] theorem clearDelivered_variant (s : State) : (clearDelivered s).variant = s.variant := rfl
@[simp] theorem clearDelivered_swNum (s : State) : (clearDelivered s).swNum = s.swNum := rfl
@[simp] theorem clearDelivered_now (s : State) : (clearDelivered s).now = s.now := rfl
@[simp] theorem clearDelivered_cc (s : State) : (clearDelivered s).cc = s.cc := rfl
@[simp] theorem clearDelivered_lv (s : State) : (clearDelivered s).lv = s.lv := rfl
@[simp] theorem clearDelivered_sa (s : State) : (clearDelivered s).sa = s.sa := rfl
@[simp] theorem clearDelivered_gv (s : State) : (clearDelivered s).gv = s.gv := rfl
@[simp] theorem clearDelivered_te (s : State) : (clearDelivered s).te = s.te := rfl
@[simp] theorem clearDelivered_sw (s : State) : (clearDelivered s).sw = s.sw := rfl
@[simp] theorem clearDelivered_pc (s : State) : (clearDelivered s).pc = s.pc := rfl
@[simp] theorem clearDelivered_tu (s : State) : (clearDelivered s).tu = s.tu := rfl
@[simp] theorem clearDelivered_tr (s : State) : (clearDelivered s).tr = s.tr := rfl
@[simp] theorem clearDelivered_ie (s : State) : (clearDelivered s).ie = s.ie := rfl
@[simp] theorem clearDelivered_ph (s : State) : (clearDelivered s).ph = s.ph := rfl
@[simp] theorem clearDelivered_hw (s : State) : (clearDelivered s).hw = s.hw := rfl
@[simp] theorem clearDelivered_vimg (s : State) : (clearDelivered s).vimg = s.vimg := rfl
@[simp] theorem clearDelivered_stamps (s : State) : (clearDelivered s).stamps = s.stamps := rfl
@[simp] theorem clearDelivered_resp (s : State) : (clearDelivered s).resp = s.resp := rfl
@[simp] theorem clearDelivered_msix (s : State) : (clearDelivered s).msix = s.msix := rfl
@[simp] theorem clearDelivered_freeCtr (s : State) : (clearDelivered s).freeCtr = s.freeCtr := rfl
@[simp] theorem clearDelivered_pending (s : State) : (clearDelivered s).pending = s.pending := rfl

/-! `setUnit` -/
@[simp] theorem setUnit_variant (s : State) (ty p : Nat) (u : SUnit) : (setUnit s ty p u).variant = s.variant := rfl
@[simp] theorem setUnit_swNum (s : State) (ty p : Nat) (u : SUnit) : (setUnit s ty p u).swNum = s.swNum := rfl
@[simp] theorem setUnit_now (s : State) (ty p : Nat) (u : SUnit) : (setUnit s ty p u).now = s.now := rfl
@[simp] theorem setUnit_cc (s : State) (ty p : Nat) (u : SUnit) : (setUnit s ty p u).cc = s.cc := rfl
@[simp] theorem setUnit_lv (s : State) (ty p : Nat) (u : SUnit) : (setUnit s ty p u).lv = s.lv := rfl
@[simp] theorem setUnit_gv (s : State) (ty p : Nat) (u : SUnit) : (setUnit s ty p u).gv = s.gv := rfl
@[simp] theorem setUnit_te (s : State) (ty p : Nat) (u : SUnit) : (setUnit s ty p u).te = s.te := rfl
@[simp] theorem setUnit_sw (s : State) (ty p : Nat) (u : SUnit) : (setUnit s ty p u).sw = s.sw := rfl
@[simp] theorem setUnit_pc (s : State) (ty p : Nat) (u : SUnit) : (setUnit s ty p u).pc = s.pc := rfl
@[simp] theorem setUnit_tu (s : State) (ty p : Nat) (u : SUnit) : (setUnit s ty p u).tu = s.tu := rfl
@[simp] theorem setUnit_tr (s : State) (ty p : Nat) (u : SUnit) : (setUnit s ty p u).tr = s.tr := rfl
@[simp] theorem setUnit_ie (s : State) (ty p : Nat) (u : SUnit) : (setUnit s ty p u).ie = s.ie := rfl
@[simp] theorem setUnit_ta (s : State) (ty p : Nat) (u : SUnit) : (setUnit s ty p u).ta = s.ta := rfl
@[simp] theorem setUnit_ph (s : State) (ty p : Nat) (u : SUnit) : (setUnit s ty p u).ph = s.ph := rfl
@[simp] theorem setUnit_hw (s : State) (ty p : Nat) (u : SUnit) : (setUnit s ty p u).hw = s.hw := rfl
@[simp] theorem setUnit_vimg (s : State) (ty p : Nat) (u : SUnit) : (setUnit s ty p u).vimg = s.vimg := rfl
@[simp] theorem setUnit_stamps (s : State) (ty p : Nat) (u : SUnit) : (setUnit s ty p u).stamps = s.stamps := rfl
@[simp] theorem setUnit_resp (s : State) (ty p : Nat) (u : SUnit) : (setUnit s ty p u).resp = s.resp := rfl
@[simp] theorem setUnit_msix (s : State) (ty p : Nat) (u : SUnit) : (setUnit s ty p u).msix = s.msix := rfl
@[simp] theorem setUnit_freeCtr (s : State) (ty p : Nat) (u : SUnit) : (setUnit s ty p u).freeCtr = s.freeCtr := rfl
@[simp] theorem setUnit_pending (s : State) (ty p : Nat) (u : SUnit) : (setUnit s ty p u).pending = s.pending := rfl

/-! `setSeam` -/
@[simp] theorem setSeam_variant (s : State) (q : Nat) (x : Seam) : (setSeam s q x).variant = s.variant := rfl
@[simp] theorem setSeam_swNum (s : State) (q : Nat) (x : Seam) : (setSeam s q x).swNum = s.swNum := rfl
@[simp] theorem setSeam_now (s : State) (q : Nat) (x : Seam) : (setSeam s q x).now = s.now := rfl
@[simp] theorem setSeam_cc (s : State) (q : Nat) (x : Seam) : (setSeam s q x).cc = s.cc := rfl
@[simp] theorem setSeam_lv (s : State) (q : Nat) (x : Seam) : (setSeam s q x).lv = s.lv := rfl
@[simp] theorem setSeam_gv (s : State) (q : Nat) (x : Seam) : (setSeam s q x).gv = s.gv := rfl
@[simp] theorem setSeam_te (s : State) (q : Nat) (x : Seam) : (setSeam s q x).te = s.te := rfl
@[simp] theorem setSeam_sw (s : State) (q : Nat) (x : Seam) : (setSeam s q x).sw = s.sw := rfl
@[simp] theorem setSeam_pc (s : State) (q : Nat) (x : Seam) : (setSeam s q x).pc = s.pc := rfl
@[simp] theorem setSeam_tu (s : State) (q : Nat) (x : Seam) : (setSeam s q x).tu = s.tu := rfl
@[simp] theorem setSeam_tr (s : State) (q : Nat) (x : Seam) : (setSeam s q x).tr = s.tr := rfl
@[simp] theorem setSeam_ie (s : State) (q : Nat) (x : Seam) : (setSeam s q x).ie = s.ie := rfl
@[simp] theorem setSeam_ta (s : State) (q : Nat) (x : Seam) : (setSeam s q x).ta = s.ta := rfl
@[simp] theorem setSeam_ph (s : State) (q : Nat) (x : Seam) : (setSeam s q x).ph = s.ph := rfl
@[simp] theorem setSeam_hw (s : State) (q : Nat) (x : Seam) : (setSeam s q x).hw = s.hw := rfl
@[simp] theorem setSeam_vimg (s : State) (q : Nat) (x : Seam) : (setSeam s q x).vimg = s.vimg := rfl
@[simp] theorem setSeam_stamps (s : State) (q : Nat) (x : Seam) : (setSeam s q x).stamps = s.stamps := rfl
@[simp] theorem setSeam_resp (s : State) (q : Nat) (x : Seam) : (setSeam s q x).resp = s.resp := rfl
@[simp] theorem setSeam_msix (s : State) (q : Nat) (x : Seam) : (setSeam s q x).msix = s.msix := rfl
@[simp] theorem setSeam_freeCtr (s : State) (q : Nat) (x : Seam) : (setSeam s q x).freeCtr = s.freeCtr := rfl
@[simp] theorem setSeam_pending (s : State) (q : Nat) (x : Seam) : (setSeam s q x).pending = s.pending := rfl

/-! `saCount` -/
@[simp] theorem saCount_variant (s : State) (i n : Nat) : (saCount s i n).variant = s.variant := rfl
@[simp] theorem saCount_swNum (s : State) (i n : Nat) : (saCount s i n).swNum = s.swNum := rfl
@[simp] theorem saCount_now (s : State) (i n : Nat) : (saCount s i n).now = s.now := rfl
@[simp] theorem saCount_cc (s : State) (i n : Nat) : (saCount s i n).cc = s.cc := rfl
@[simp] theorem saCount_lv (s : State) (i n : Nat) : (saCount s i n).lv = s.lv := rfl
@[simp] theorem saCount_gv (s : State) (i n : Nat) : (saCount s i n).gv = s.gv := rfl
@[simp] theorem saCount_te (s : State) (i n : Nat) : (saCount s i n).te = s.te := rfl
@[simp] theorem saCount_sw (s : State) (i n : Nat) : (saCount s i n).sw = s.sw := rfl
@[simp] theorem saCount_pc (s : State) (i n : Nat) : (saCount s i n).pc = s.pc := rfl
@[simp] theorem saCount_tu (s : State) (i n : Nat) : (saCount s i n).tu = s.tu := rfl
@[simp] theorem saCount_tr (s : State) (i n : Nat) : (saCount s i n).tr = s.tr := rfl
@[simp] theorem saCount_ie (s : State) (i n : Nat) : (saCount s i n).ie = s.ie := rfl
@[simp] theorem saCount_ta (s : State) (i n : Nat) : (saCount s i n).ta = s.ta := rfl
@[simp] theorem saCount_ph (s : State) (i n : Nat) : (saCount s i n).ph = s.ph := rfl
@[simp] theorem saCount_hw (s : State) (i n : Nat) : (saCount s i n).hw = s.hw := rfl
@[simp] theorem saCount_vimg (s : State) (i n : Nat) : (saCount s i n).vimg = s.vimg := rfl
@[simp] theorem saCount_stamps (s : State) (i n : Nat) : (saCount s i n).stamps = s.stamps := rfl
@[simp] theorem saCount_resp (s : State) (i n : Nat) : (saCount s i n).resp = s.resp := rfl
@[simp] theorem saCount_msix (s : State) (i n : Nat) : (saCount s i n).msix = s.msix := rfl
@[simp] theorem saCount_freeCtr (s : State) (i n : Nat) : (saCount s i n).freeCtr = s.freeCtr := rfl
@[simp] theorem saCount_pending (s : State) (i n : Nat) : (saCount s i n).pending = s.pending := rfl

/-! `setHealth` -/
@[simp] theorem setHealth_variant (s : State) (ty p : Nat) (h : UHealth) : (setHealth s ty p h).variant = s.variant := rfl
@[simp] theorem setHealth_swNum (s : State) (ty p : Nat) (h : UHealth) : (setHealth s ty p h).swNum = s.swNum := rfl
@[simp] theorem setHealth_now (s : State) (ty p : Nat) (h : UHealth) : (setHealth s ty p h).now = s.now := rfl
@[simp] theorem setHealth_cc (s : State) (ty p : Nat) (h : UHealth) : (setHealth s ty p h).cc = s.cc := rfl
@[simp] theorem setHealth_lv (s : State) (ty p : Nat) (h : UHealth) : (setHealth s ty p h).lv = s.lv := rfl
@[simp] theorem setHealth_sa (s : State) (ty p : Nat) (h : UHealth) : (setHealth s ty p h).sa = s.sa := rfl
@[simp] theorem setHealth_gv (s : State) (ty p : Nat) (h : UHealth) : (setHealth s ty p h).gv = s.gv := rfl
@[simp] theorem setHealth_te (s : State) (ty p : Nat) (h : UHealth) : (setHealth s ty p h).te = s.te := rfl
@[simp] theorem setHealth_sw (s : State) (ty p : Nat) (h : UHealth) : (setHealth s ty p h).sw = s.sw := rfl
@[simp] theorem setHealth_pc (s : State) (ty p : Nat) (h : UHealth) : (setHealth s ty p h).pc = s.pc := rfl
@[simp] theorem setHealth_tu (s : State) (ty p : Nat) (h : UHealth) : (setHealth s ty p h).tu = s.tu := rfl
@[simp] theorem setHealth_tr (s : State) (ty p : Nat) (h : UHealth) : (setHealth s ty p h).tr = s.tr := rfl
@[simp] theorem setHealth_ie (s : State) (ty p : Nat) (h : UHealth) : (setHealth s ty p h).ie = s.ie := rfl
@[simp] theorem setHealth_ta (s : State) (ty p : Nat) (h : UHealth) : (setHealth s ty p h).ta = s.ta := rfl
@[simp] theorem setHealth_hw (s : State) (ty p : Nat) (h : UHealth) : (setHealth s ty p h).hw = s.hw := rfl
@[simp] theorem setHealth_vimg (s : State) (ty p : Nat) (h : UHealth) : (setHealth s ty p h).vimg = s.vimg := rfl
@[simp] theorem setHealth_stamps (s : State) (ty p : Nat) (h : UHealth) : (setHealth s ty p h).stamps = s.stamps := rfl
@[simp] theorem setHealth_resp (s : State) (ty p : Nat) (h : UHealth) : (setHealth s ty p h).resp = s.resp := rfl
@[simp] theorem setHealth_msix (s : State) (ty p : Nat) (h : UHealth) : (setHealth s ty p h).msix = s.msix := rfl
@[simp] theorem setHealth_freeCtr (s : State) (ty p : Nat) (h : UHealth) : (setHealth s ty p h).freeCtr = s.freeCtr := rfl
@[simp] theorem setHealth_pending (s : State) (ty p : Nat) (h : UHealth) : (setHealth s ty p h).pending = s.pending := rfl

/-! `phCount` -/
@[simp] theorem phCount_variant (s : State) (i n : Nat) : (phCount s i n).variant = s.variant := rfl
@[simp] theorem phCount_swNum (s : State) (i n : Nat) : (phCount s i n).swNum = s.swNum := rfl
@[simp] theorem phCount_now (s : State) (i n : Nat) : (phCount s i n).now = s.now := rfl
@[simp] theorem phCount_cc (s : State) (i n : Nat) : (phCount s i n).cc = s.cc := rfl
@[simp] theorem phCount_lv (s : State) (i n : Nat) : (phCount s i n).lv = s.lv := rfl
@[simp] theorem phCount_sa (s : State) (i n : Nat) : (phCount s i n).sa = s.sa := rfl
@[simp] theorem phCount_gv (s : State) (i n : Nat) : (phCount s i n).gv = s.gv := rfl
@[simp] theorem phCount_te (s : State) (i n : Nat) : (phCount s i n).te = s.te := rfl
@[simp] theorem phCount_sw (s : State) (i n : Nat) : (phCount s i n).sw = s.sw := rfl
@[simp] theorem phCount_pc (s : State) (i n : Nat) : (phCount s i n).pc = s.pc := rfl
@[simp] theorem phCount_tu (s : State) (i n : Nat) : (phCount s i n).tu = s.tu := rfl
@[simp] theorem phCount_tr (s : State) (i n : Nat) : (phCount s i n).tr = s.tr := rfl
@[simp] theorem phCount_ie (s : State) (i n : Nat) : (phCount s i n).ie = s.ie := rfl
@[simp] theorem phCount_ta (s : State) (i n : Nat) : (phCount s i n).ta = s.ta := rfl
@[simp] theorem phCount_hw (s : State) (i n : Nat) : (phCount s i n).hw = s.hw := rfl
@[simp] theorem phCount_vimg (s : State) (i n : Nat) : (phCount s i n).vimg = s.vimg := rfl
@[simp] theorem phCount_stamps (s : State) (i n : Nat) : (phCount s i n).stamps = s.stamps := rfl
@[simp] theorem phCount_resp (s : State) (i n : Nat) : (phCount s i n).resp = s.resp := rfl
@[simp] theorem phCount_msix (s : State) (i n : Nat) : (phCount s i n).msix = s.msix := rfl
@[simp] theorem phCount_freeCtr (s : State) (i n : Nat) : (phCount s i n).freeCtr = s.freeCtr := rfl
@[simp] theorem phCount_pending (s : State) (i n : Nat) : (phCount s i n).pending = s.pending := rfl

/-! `unpend` -/
@[simp] theorem unpend_variant (s : State) (k : Nat) : (unpend s k).variant = s.variant := rfl
@[simp] theorem unpend_swNum (s : State) (k : Nat) : (unpend s k).swNum = s.swNum := rfl
@[simp] theorem unpend_now (s : State) (k : Nat) : (unpend s k).now = s.now := rfl
@[simp] theorem unpend_cc (s : State) (k : Nat) : (unpend s k).cc = s.cc := rfl
@[simp] theorem unpend_lv (s : State) (k : Nat) : (unpend s k).lv = s.lv := rfl
@[simp] theorem unpend_sa (s : State) (k : Nat) : (unpend s k).sa = s.sa := rfl
@[simp] theorem unpend_gv (s : State) (k : Nat) : (unpend s k).gv = s.gv := rfl
@[simp] theorem unpend_te (s : State) (k : Nat) : (unpend s k).te = s.te := rfl
@[simp] theorem unpend_sw (s : State) (k : Nat) : (unpend s k).sw = s.sw := rfl
@[simp] theorem unpend_pc (s : State) (k : Nat) : (unpend s k).pc = s.pc := rfl
@[simp] theorem unpend_tu (s : State) (k : Nat) : (unpend s k).tu = s.tu := rfl
@[simp] theorem unpend_tr (s : State) (k : Nat) : (unpend s k).tr = s.tr := rfl
@[simp] theorem unpend_ie (s : State) (k : Nat) : (unpend s k).ie = s.ie := rfl
@[simp] theorem unpend_ta (s : State) (k : Nat) : (unpend s k).ta = s.ta := rfl
@[simp] theorem unpend_hw (s : State) (k : Nat) : (unpend s k).hw = s.hw := rfl
@[simp] theorem unpend_vimg (s : State) (k : Nat) : (unpend s k).vimg = s.vimg := rfl
@[simp] theorem unpend_stamps (s : State) (k : Nat) : (unpend s k).stamps = s.stamps := rfl
@[simp] theorem unpend_resp (s : State) (k : Nat) : (unpend s k).resp = s.resp := rfl
@[simp] theorem unpend_msix (s : State) (k : Nat) : (unpend s k).msix = s.msix := rfl
@[simp] theorem unpend_freeCtr (s : State) (k : Nat) : (unpend s k).freeCtr = s.freeCtr := rfl
@[simp] theorem unpend_pending (s : State) (k : Nat) : (unpend s k).pending = s.pending := rfl

/-! `setFlow` -/
@[simp] theorem setFlow_variant (s : State) (p : Nat) (f : Flow) : (setFlow s p f).variant = s.variant := rfl
@[simp] theorem setFlow_swNum (s : State) (p : Nat) (f : Flow) : (setFlow s p f).swNum = s.swNum := rfl
@[simp] theorem setFlow_now (s : State) (p : Nat) (f : Flow) : (setFlow s p f).now = s.now := rfl
@[simp] theorem setFlow_cc (s : State) (p : Nat) (f : Flow) : (setFlow s p f).cc = s.cc := rfl
@[simp] theorem setFlow_lv (s : State) (p : Nat) (f : Flow) : (setFlow s p f).lv = s.lv := rfl
@[simp] theorem setFlow_sa (s : State) (p : Nat) (f : Flow) : (setFlow s p f).sa = s.sa := rfl
@[simp] theorem setFlow_gv (s : State) (p : Nat) (f : Flow) : (setFlow s p f).gv = s.gv := rfl
@[simp] theorem setFlow_te (s : State) (p : Nat) (f : Flow) : (setFlow s p f).te = s.te := rfl
@[simp] theorem setFlow_sw (s : State) (p : Nat) (f : Flow) : (setFlow s p f).sw = s.sw := rfl
@[simp] theorem setFlow_pc (s : State) (p : Nat) (f : Flow) : (setFlow s p f).pc = s.pc := rfl
@[simp] theorem setFlow_tu (s : State) (p : Nat) (f : Flow) : (setFlow s p f).tu = s.tu := rfl
@[simp] theorem setFlow_tr (s : State) (p : Nat) (f : Flow) : (setFlow s p f).tr = s.tr := rfl
@[simp] theorem setFlow_ie (s : State) (p : Nat) (f : Flow) : (setFlow s p f).ie = s.ie := rfl
@[simp] theorem setFlow_ta (s : State) (p : Nat) (f : Flow) : (setFlow s p f).ta = s.ta := rfl
@[simp] theorem setFlow_hw (s : State) (p : Nat) (f : Flow) : (setFlow s p f).hw = s.hw := rfl
@[simp] theorem setFlow_vimg (s : State) (p : Nat) (f : Flow) : (setFlow s p f).vimg = s.vimg := rfl
@[simp] theorem setFlow_stamps (s : State) (p : Nat) (f : Flow) : (setFlow s p f).stamps = s.stamps := rfl
@[simp] theorem setFlow_resp (s : State) (p : Nat) (f : Flow) : (setFlow s p f).resp = s.resp := rfl
@[simp] theorem setFlow_msix (s : State) (p : Nat) (f : Flow) : (setFlow s p f).msix = s.msix := rfl
@[simp] theorem setFlow_freeCtr (s : State) (p : Nat) (f : Flow) : (setFlow s p f).freeCtr = s.freeCtr := rfl
@[simp] theorem setFlow_pending (s : State) (p : Nat) (f : Flow) : (setFlow s p f).pending = s.pending := rfl

/-! `setNand` -/
@[simp] theorem setNand_variant (s : State) (k : Nat) (x : NandPkg) : (setNand s k x).variant = s.variant := rfl
@[simp] theorem setNand_swNum (s : State) (k : Nat) (x : NandPkg) : (setNand s k x).swNum = s.swNum := rfl
@[simp] theorem setNand_now (s : State) (k : Nat) (x : NandPkg) : (setNand s k x).now = s.now := rfl
@[simp] theorem setNand_cc (s : State) (k : Nat) (x : NandPkg) : (setNand s k x).cc = s.cc := rfl
@[simp] theorem setNand_sa (s : State) (k : Nat) (x : NandPkg) : (setNand s k x).sa = s.sa := rfl
@[simp] theorem setNand_gv (s : State) (k : Nat) (x : NandPkg) : (setNand s k x).gv = s.gv := rfl
@[simp] theorem setNand_te (s : State) (k : Nat) (x : NandPkg) : (setNand s k x).te = s.te := rfl
@[simp] theorem setNand_sw (s : State) (k : Nat) (x : NandPkg) : (setNand s k x).sw = s.sw := rfl
@[simp] theorem setNand_pc (s : State) (k : Nat) (x : NandPkg) : (setNand s k x).pc = s.pc := rfl
@[simp] theorem setNand_tu (s : State) (k : Nat) (x : NandPkg) : (setNand s k x).tu = s.tu := rfl
@[simp] theorem setNand_tr (s : State) (k : Nat) (x : NandPkg) : (setNand s k x).tr = s.tr := rfl
@[simp] theorem setNand_ie (s : State) (k : Nat) (x : NandPkg) : (setNand s k x).ie = s.ie := rfl
@[simp] theorem setNand_ta (s : State) (k : Nat) (x : NandPkg) : (setNand s k x).ta = s.ta := rfl
@[simp] theorem setNand_ph (s : State) (k : Nat) (x : NandPkg) : (setNand s k x).ph = s.ph := rfl
@[simp] theorem setNand_hw (s : State) (k : Nat) (x : NandPkg) : (setNand s k x).hw = s.hw := rfl
@[simp] theorem setNand_vimg (s : State) (k : Nat) (x : NandPkg) : (setNand s k x).vimg = s.vimg := rfl
@[simp] theorem setNand_stamps (s : State) (k : Nat) (x : NandPkg) : (setNand s k x).stamps = s.stamps := rfl
@[simp] theorem setNand_resp (s : State) (k : Nat) (x : NandPkg) : (setNand s k x).resp = s.resp := rfl
@[simp] theorem setNand_msix (s : State) (k : Nat) (x : NandPkg) : (setNand s k x).msix = s.msix := rfl
@[simp] theorem setNand_freeCtr (s : State) (k : Nat) (x : NandPkg) : (setNand s k x).freeCtr = s.freeCtr := rfl
@[simp] theorem setNand_pending (s : State) (k : Nat) (x : NandPkg) : (setNand s k x).pending = s.pending := rfl

/-! `setLvStatus` -/
@[simp] theorem setLvStatus_variant (s : State) (f : Nat) (o : ObjStatus) : (setLvStatus s f o).variant = s.variant := rfl
@[simp] theorem setLvStatus_swNum (s : State) (f : Nat) (o : ObjStatus) : (setLvStatus s f o).swNum = s.swNum := rfl
@[simp] theorem setLvStatus_now (s : State) (f : Nat) (o : ObjStatus) : (setLvStatus s f o).now = s.now := rfl
@[simp] theorem setLvStatus_cc (s : State) (f : Nat) (o : ObjStatus) : (setLvStatus s f o).cc = s.cc := rfl
@[simp] theorem setLvStatus_sa (s : State) (f : Nat) (o : ObjStatus) : (setLvStatus s f o).sa = s.sa := rfl
@[simp] theorem setLvStatus_gv (s : State) (f : Nat) (o : ObjStatus) : (setLvStatus s f o).gv = s.gv := rfl
@[simp] theorem setLvStatus_te (s : State) (f : Nat) (o : ObjStatus) : (setLvStatus s f o).te = s.te := rfl
@[simp] theorem setLvStatus_sw (s : State) (f : Nat) (o : ObjStatus) : (setLvStatus s f o).sw = s.sw := rfl
@[simp] theorem setLvStatus_pc (s : State) (f : Nat) (o : ObjStatus) : (setLvStatus s f o).pc = s.pc := rfl
@[simp] theorem setLvStatus_tu (s : State) (f : Nat) (o : ObjStatus) : (setLvStatus s f o).tu = s.tu := rfl
@[simp] theorem setLvStatus_tr (s : State) (f : Nat) (o : ObjStatus) : (setLvStatus s f o).tr = s.tr := rfl
@[simp] theorem setLvStatus_ie (s : State) (f : Nat) (o : ObjStatus) : (setLvStatus s f o).ie = s.ie := rfl
@[simp] theorem setLvStatus_ta (s : State) (f : Nat) (o : ObjStatus) : (setLvStatus s f o).ta = s.ta := rfl
@[simp] theorem setLvStatus_ph (s : State) (f : Nat) (o : ObjStatus) : (setLvStatus s f o).ph = s.ph := rfl
@[simp] theorem setLvStatus_hw (s : State) (f : Nat) (o : ObjStatus) : (setLvStatus s f o).hw = s.hw := rfl
@[simp] theorem setLvStatus_vimg (s : State) (f : Nat) (o : ObjStatus) : (setLvStatus s f o).vimg = s.vimg := rfl
@[simp] theorem setLvStatus_stamps (s : State) (f : Nat) (o : ObjStatus) : (setLvStatus s f o).stamps = s.stamps := rfl
@[simp] theorem setLvStatus_resp (s : State) (f : Nat) (o : ObjStatus) : (setLvStatus s f o).resp = s.resp := rfl
@[simp] theorem setLvStatus_msix (s : State) (f : Nat) (o : ObjStatus) : (setLvStatus s f o).msix = s.msix := rfl
@[simp] theorem setLvStatus_freeCtr (s : State) (f : Nat) (o : ObjStatus) : (setLvStatus s f o).freeCtr = s.freeCtr := rfl
@[simp] theorem setLvStatus_pending (s : State) (f : Nat) (o : ObjStatus) : (setLvStatus s f o).pending = s.pending := rfl

/-! `setWelt` -/
@[simp] theorem setWelt_variant (s : State) (w w' : Welt) : (setWelt s w w').variant = s.variant := rfl
@[simp] theorem setWelt_swNum (s : State) (w w' : Welt) : (setWelt s w w').swNum = s.swNum := rfl
@[simp] theorem setWelt_now (s : State) (w w' : Welt) : (setWelt s w w').now = s.now := rfl
@[simp] theorem setWelt_cc (s : State) (w w' : Welt) : (setWelt s w w').cc = s.cc := rfl
@[simp] theorem setWelt_lv (s : State) (w w' : Welt) : (setWelt s w w').lv = s.lv := rfl
@[simp] theorem setWelt_gv (s : State) (w w' : Welt) : (setWelt s w w').gv = s.gv := rfl
@[simp] theorem setWelt_te (s : State) (w w' : Welt) : (setWelt s w w').te = s.te := rfl
@[simp] theorem setWelt_sw (s : State) (w w' : Welt) : (setWelt s w w').sw = s.sw := rfl
@[simp] theorem setWelt_pc (s : State) (w w' : Welt) : (setWelt s w w').pc = s.pc := rfl
@[simp] theorem setWelt_tu (s : State) (w w' : Welt) : (setWelt s w w').tu = s.tu := rfl
@[simp] theorem setWelt_tr (s : State) (w w' : Welt) : (setWelt s w w').tr = s.tr := rfl
@[simp] theorem setWelt_ie (s : State) (w w' : Welt) : (setWelt s w w').ie = s.ie := rfl
@[simp] theorem setWelt_ta (s : State) (w w' : Welt) : (setWelt s w w').ta = s.ta := rfl
@[simp] theorem setWelt_ph (s : State) (w w' : Welt) : (setWelt s w w').ph = s.ph := rfl
@[simp] theorem setWelt_hw (s : State) (w w' : Welt) : (setWelt s w w').hw = s.hw := rfl
@[simp] theorem setWelt_vimg (s : State) (w w' : Welt) : (setWelt s w w').vimg = s.vimg := rfl
@[simp] theorem setWelt_stamps (s : State) (w w' : Welt) : (setWelt s w w').stamps = s.stamps := rfl
@[simp] theorem setWelt_resp (s : State) (w w' : Welt) : (setWelt s w w').resp = s.resp := rfl
@[simp] theorem setWelt_msix (s : State) (w w' : Welt) : (setWelt s w w').msix = s.msix := rfl
@[simp] theorem setWelt_freeCtr (s : State) (w w' : Welt) : (setWelt s w w').freeCtr = s.freeCtr := rfl
@[simp] theorem setWelt_pending (s : State) (w w' : Welt) : (setWelt s w w').pending = s.pending := rfl

/-- What `ctl` reads after `setCtl`. -/
@[simp] theorem ctl_setCtl_same (s : State) (cs : Nat) (x : CtlSeq) : ctl (setCtl s cs x) cs = x := tget_tput_same ..
/-- `setCtl` leaves every other key alone. -/
theorem ctl_setCtl_ne (s : State) {cs j : Nat} (x : CtlSeq) (hne : j ≠ cs) : ctl (setCtl s cs x) j = ctl s j := tget_tput_ne _ _ _ hne

/-- What `copyEng` reads after `setCopy`. -/
@[simp] theorem copyEng_setCopy_same (s : State) (e : Nat) (x : CopyEng) : copyEng (setCopy s e x) e = x := tget_tput_same ..
/-- `setCopy` leaves every other key alone. -/
theorem copyEng_setCopy_ne (s : State) {e j : Nat} (x : CopyEng) (hne : j ≠ e) : copyEng (setCopy s e x) j = copyEng s j := tget_tput_ne _ _ _ hne

/-- What `coll` reads after `setColl`. -/
@[simp] theorem coll_setColl_same (s : State) (k : Nat) (x : FenceColl) : coll (setColl s k x) k = x := tget_tput_same ..
/-- `setColl` leaves every other key alone. -/
theorem coll_setColl_ne (s : State) {k j : Nat} (x : FenceColl) (hne : j ≠ k) : coll (setColl s k x) j = coll s j := tget_tput_ne _ _ _ hne

/-- What `lockOwner` reads after `setLock`. -/
@[simp] theorem lockOwner_setLock_same (s : State) (k : Nat) (n : Nat) : lockOwner (setLock s k n) k = n := tget_tput_same ..
/-- `setLock` leaves every other key alone. -/
theorem lockOwner_setLock_ne (s : State) {k j : Nat} (n : Nat) (hne : j ≠ k) : lockOwner (setLock s k n) j = lockOwner s j := tget_tput_ne _ _ _ hne

/-- What `tenant` reads after `setTenant`. -/
@[simp] theorem tenant_setTenant_same (s : State) (e : Nat) (t : Tenant) : tenant (setTenant s e t) e = t := tget_tput_same ..
/-- `setTenant` leaves every other key alone. -/
theorem tenant_setTenant_ne (s : State) {e j : Nat} (t : Tenant) (hne : j ≠ e) : tenant (setTenant s e t) j = tenant s j := tget_tput_ne _ _ _ hne

/-- What `pch` reads after `setPch`. -/
@[simp] theorem pch_setPch_same (s : State) (p : Nat) (x : Pch) : pch (setPch s p x) p = x := tget_tput_same ..
/-- `setPch` leaves every other key alone. -/
theorem pch_setPch_ne (s : State) {p j : Nat} (x : Pch) (hne : j ≠ p) : pch (setPch s p x) j = pch s j := tget_tput_ne _ _ _ hne

/-- What `ctx` reads after `setCtx`. -/
@[simp] theorem ctx_setCtx_same (s : State) (c : Nat) (x : Ctx) : ctx (setCtx s c x) c = x := tget_tput_same ..
/-- `setCtx` leaves every other key alone. -/
theorem ctx_setCtx_ne (s : State) {c j : Nat} (x : Ctx) (hne : j ≠ c) : ctx (setCtx s c x) j = ctx s j := tget_tput_ne _ _ _ hne

/-- What `scrubEng` reads after `setScrub`. -/
@[simp] theorem scrubEng_setScrub_same (s : State) (d : Nat) (e : ScrubEng) : scrubEng (setScrub s d e) d = e := tget_tput_same ..
/-- `setScrub` leaves every other key alone. -/
theorem scrubEng_setScrub_ne (s : State) {d j : Nat} (e : ScrubEng) (hne : j ≠ d) : scrubEng (setScrub s d e) j = scrubEng s j := tget_tput_ne _ _ _ hne

/-- What `jobq` reads after `setJobq`. -/
@[simp] theorem jobq_setJobq_same (s : State) (n : Nat) (x : JobQueue) : jobq (setJobq s n x) n = x := tget_tput_same ..
/-- `setJobq` leaves every other key alone. -/
theorem jobq_setJobq_ne (s : State) {n j : Nat} (x : JobQueue) (hne : j ≠ n) : jobq (setJobq s n x) j = jobq s j := tget_tput_ne _ _ _ hne

/-- What `die` reads after `setDie`. -/
@[simp] theorem die_setDie_same (s : State) (d : Nat) (x : Die) : die (setDie s d x) d = x := tget_tput_same ..
/-- `setDie` leaves every other key alone. -/
theorem die_setDie_ne (s : State) {d j : Nat} (x : Die) (hne : j ≠ d) : die (setDie s d x) j = die s j := tget_tput_ne _ _ _ hne

/-- What `wset` reads after `setWset`. -/
@[simp] theorem wset_setWset_same (s : State) (w : Nat) (x : WSet) : wset (setWset s w x) w = x := tget_tput_same ..
/-- `setWset` leaves every other key alone. -/
theorem wset_setWset_ne (s : State) {w j : Nat} (x : WSet) (hne : j ≠ w) : wset (setWset s w x) j = wset s j := tget_tput_ne _ _ _ hne

/-- What `moveAt` reads after `setMove`. -/
@[simp] theorem moveAt_setMove_same (s : State) (n : Nat) (m : Move) : moveAt (setMove s n m) n = m := tget_tput_same ..
/-- `setMove` leaves every other key alone. -/
theorem moveAt_setMove_ne (s : State) {n j : Nat} (m : Move) (hne : j ≠ n) : moveAt (setMove s n m) j = moveAt s j := tget_tput_ne _ _ _ hne

/-- What `sess` reads after `setSess`. -/
@[simp] theorem sess_setSess_same (s : State) (k : Nat) (x : Session) : sess (setSess s k x) k = x := tget_tput_same ..
/-- `setSess` leaves every other key alone. -/
theorem sess_setSess_ne (s : State) {k j : Nat} (x : Session) (hne : j ≠ k) : sess (setSess s k x) j = sess s j := tget_tput_ne _ _ _ hne

/-- What `group` reads after `setGroup`. -/
@[simp] theorem group_setGroup_same (s : State) (g : Nat) (x : McGroup) : group (setGroup s g x) g = x := tget_tput_same ..
/-- `setGroup` leaves every other key alone. -/
theorem group_setGroup_ne (s : State) {g j : Nat} (x : McGroup) (hne : j ≠ g) : group (setGroup s g x) j = group s j := tget_tput_ne _ _ _ hne

/-- What `meter` reads after `setMeter`. -/
@[simp] theorem meter_setMeter_same (s : State) (m : Nat) (x : Meter) : meter (setMeter s m x) m = x := tget_tput_same ..
/-- `setMeter` leaves every other key alone. -/
theorem meter_setMeter_ne (s : State) {m j : Nat} (x : Meter) (hne : j ≠ m) : meter (setMeter s m x) j = meter s j := tget_tput_ne _ _ _ hne

/-- What `mirror` reads after `setMirror`. -/
@[simp] theorem mirror_setMirror_same (s : State) (n : Nat) (x : Mirror) : mirror (setMirror s n x) n = x := tget_tput_same ..
/-- `setMirror` leaves every other key alone. -/
theorem mirror_setMirror_ne (s : State) {n j : Nat} (x : Mirror) (hne : j ≠ n) : mirror (setMirror s n x) j = mirror s j := tget_tput_ne _ _ _ hne

/-- What `mbx` reads after `setMbx`. -/
@[simp] theorem mbx_setMbx_same (s : State) (m : Nat) (x : Mailbox) : mbx (setMbx s m x) m = x := tget_tput_same ..
/-- `setMbx` leaves every other key alone. -/
theorem mbx_setMbx_ne (s : State) {m j : Nat} (x : Mailbox) (hne : j ≠ m) : mbx (setMbx s m x) j = mbx s j := tget_tput_ne _ _ _ hne

/-- What `ring` reads after `setRing`. -/
@[simp] theorem ring_setRing_same (s : State) (n : Nat) (r : Ring) : ring (setRing s n r) n = r := tget_tput_same ..
/-- `setRing` leaves every other key alone. -/
theorem ring_setRing_ne (s : State) {n j : Nat} (r : Ring) (hne : j ≠ n) : ring (setRing s n r) j = ring s j := tget_tput_ne _ _ _ hne

/-- What `pat` reads after `setPat`. -/
@[simp] theorem pat_setPat_same (s : State) (n : Nat) (x : PatSlot) : pat (setPat s n x) n = x := tget_tput_same ..
/-- `setPat` leaves every other key alone. -/
theorem pat_setPat_ne (s : State) {n j : Nat} (x : PatSlot) (hne : j ≠ n) : pat (setPat s n x) j = pat s j := tget_tput_ne _ _ _ hne

/-- What `tier` reads after `setTier`. -/
@[simp] theorem tier_setTier_same (s : State) (g : Nat) (e : TierEnt) : tier (setTier s g e) g = e := tget_tput_same ..
/-- `setTier` leaves every other key alone. -/
theorem tier_setTier_ne (s : State) {g j : Nat} (e : TierEnt) (hne : j ≠ g) : tier (setTier s g e) j = tier s j := tget_tput_ne _ _ _ hne

/-- What `ext` reads after `setExt`. -/
@[simp] theorem ext_setExt_same (s : State) (x : Nat) (e : Extent) : ext (setExt s x e) x = e := tget_tput_same ..
/-- `setExt` leaves every other key alone. -/
theorem ext_setExt_ne (s : State) {x j : Nat} (e : Extent) (hne : j ≠ x) : ext (setExt s x e) j = ext s j := tget_tput_ne _ _ _ hne

/-- What `lease` reads after `setLease`. -/
@[simp] theorem lease_setLease_same (s : State) (l : Nat) (x : Lease) : lease (setLease s l x) l = x := tget_tput_same ..
/-- `setLease` leaves every other key alone. -/
theorem lease_setLease_ne (s : State) {l j : Nat} (x : Lease) (hne : j ≠ l) : lease (setLease s l x) j = lease s j := tget_tput_ne _ _ _ hne

/-- What `slot` reads after `setSlot`. -/
@[simp] theorem slot_setSlot_same (s : State) (k : Nat) (x : KeySlot) : slot (setSlot s k x) k = x := tget_tput_same ..
/-- `setSlot` leaves every other key alone. -/
theorem slot_setSlot_ne (s : State) {k j : Nat} (x : KeySlot) (hne : j ≠ k) : slot (setSlot s k x) j = slot s j := tget_tput_ne _ _ _ hne

/-- What `pend` reads after `setPend`. -/
@[simp] theorem pend_setPend_same (s : State) (n : Nat) (p : PendReq) : pend (setPend s n p) n = p := tget_tput_same ..
/-- `setPend` leaves every other key alone. -/
theorem pend_setPend_ne (s : State) {n j : Nat} (p : PendReq) (hne : j ≠ n) : pend (setPend s n p) j = pend s j := tget_tput_ne _ _ _ hne

/-- What `window` reads after `setWindow`. -/
@[simp] theorem window_setWindow_same (s : State) (p w : Nat) (x : Window) : window (setWindow s p w x) p w = x := tget_tput_same ..
/-- `setWindow` leaves every other key alone. -/
theorem window_setWindow_ne (s : State) {p w p' w' : Nat} (x : Window) (hne : (p' * 256 + w') ≠ (p * 256 + w)) : window (setWindow s p w x) p' w' = window s p' w' := tget_tput_ne _ _ _ hne

/-- What `phStatus` reads after `setPhStatus`. -/
@[simp] theorem phStatus_setPhStatus_same (s : State) (f : Nat) (o : ObjStatus) : phStatus (setPhStatus s f o) f = o := tget_tput_same ..
/-- `setPhStatus` leaves every other key alone. -/
theorem phStatus_setPhStatus_ne (s : State) {f j : Nat} (o : ObjStatus) (hne : j ≠ f) : phStatus (setPhStatus s f o) j = phStatus s j := tget_tput_ne _ _ _ hne

/-- What `swPort` reads after `setSwPort`. -/
@[simp] theorem swPort_setSwPort_same (s : State) (p : Nat) (x : SwPort) : swPort (setSwPort s p x) p = x := tget_tput_same ..
/-- `setSwPort` leaves every other key alone. -/
theorem swPort_setSwPort_ne (s : State) {p j : Nat} (x : SwPort) (hne : j ≠ p) : swPort (setSwPort s p x) j = swPort s j := tget_tput_ne _ _ _ hne

/-- What `queue` reads after `setQueue`. -/
@[simp] theorem queue_setQueue_same (s : State) (p q : Nat) (x : EQueue) : queue (setQueue s p q x) p q = x := tget_tput_same ..
/-- `setQueue` leaves every other key alone. -/
theorem queue_setQueue_ne (s : State) {p q p' q' : Nat} (x : EQueue) (hne : (p' * 64 + q') ≠ (p * 64 + q)) : queue (setQueue s p q x) p' q' = queue s p' q' := tget_tput_ne _ _ _ hne

/-- What `asid` reads after `setAsid`. -/
@[simp] theorem asid_setAsid_same (s : State) (a : Nat) (x : Asid) : asid (setAsid s a x) a = x := tget_tput_same ..
/-- `setAsid` leaves every other key alone. -/
theorem asid_setAsid_ne (s : State) {a j : Nat} (x : Asid) (hne : j ≠ a) : asid (setAsid s a x) j = asid s j := tget_tput_ne _ _ _ hne

/-- What `peer` reads after `setPeer`. -/
@[simp] theorem peer_setPeer_same (s : State) (k : Nat) (x : Peer) : peer (setPeer s k x) k = x := tget_tput_same ..
/-- `setPeer` leaves every other key alone. -/
theorem peer_setPeer_ne (s : State) {k j : Nat} (x : Peer) (hne : j ≠ k) : peer (setPeer s k x) j = peer s j := tget_tput_ne _ _ _ hne

/-- What `port` reads after `setPort`. -/
@[simp] theorem port_setPort_same (s : State) (p : Nat) (x : Port) : port (setPort s p x) p = x := tget_tput_same ..
/-- `setPort` leaves every other key alone. -/
theorem port_setPort_ne (s : State) {p j : Nat} (x : Port) (hne : j ≠ p) : port (setPort s p x) j = port s j := tget_tput_ne _ _ _ hne

/-- What `pair` reads after `setPair`. -/
@[simp] theorem pair_setPair_same (s : State) (k : Nat) (x : Pair) : pair (setPair s k x) k = x := tget_tput_same ..
/-- `setPair` leaves every other key alone. -/
theorem pair_setPair_ne (s : State) {k j : Nat} (x : Pair) (hne : j ≠ k) : pair (setPair s k x) j = pair s j := tget_tput_ne _ _ _ hne

/-- What `lane` reads after `setLane`. -/
@[simp] theorem lane_setLane_same (s : State) (l : Nat) (x : Lane) : lane (setLane s l x) l = x := tget_tput_same ..
/-- `setLane` leaves every other key alone. -/
theorem lane_setLane_ne (s : State) {l j : Nat} (x : Lane) (hne : j ≠ l) : lane (setLane s l x) j = lane s j := tget_tput_ne _ _ _ hne

/-- What `gvStore` reads after `setStore`. -/
@[simp] theorem gvStore_setStore_same (s : State) (id : Nat) (x : GvStore) : gvStore (setStore s id x) id = x := tget_tput_same ..
/-- `setStore` leaves every other key alone. -/
theorem gvStore_setStore_ne (s : State) {id j : Nat} (x : GvStore) (hne : j ≠ id) : gvStore (setStore s id x) j = gvStore s j := tget_tput_ne _ _ _ hne

/-- What `fenceOf` reads after `setFence`. -/
@[simp] theorem fenceOf_setFence_same (s : State) (c : Nat) (x : FenceSt) : fenceOf (setFence s c x) c = x := tget_tput_same ..
/-- `setFence` leaves every other key alone. -/
theorem fenceOf_setFence_ne (s : State) {c j : Nat} (x : FenceSt) (hne : j ≠ c) : fenceOf (setFence s c x) j = fenceOf s j := tget_tput_ne _ _ _ hne

/-- What `comp` reads after `setComp`. -/
@[simp] theorem comp_setComp_same (s : State) (c : Nat) (x : Comp) : comp (setComp s c x) c = x := tget_tput_same ..
/-- `setComp` leaves every other key alone. -/
theorem comp_setComp_ne (s : State) {c j : Nat} (x : Comp) (hne : j ≠ c) : comp (setComp s c x) j = comp s j := tget_tput_ne _ _ _ hne

/-- What `region` reads after `setRegion`. -/
@[simp] theorem region_setRegion_same (s : State) (r : Nat) (x : Region) : region (setRegion s r x) r = x := tget_tput_same ..
/-- `setRegion` leaves every other key alone. -/
theorem region_setRegion_ne (s : State) {r j : Nat} (x : Region) (hne : j ≠ r) : region (setRegion s r x) j = region s j := tget_tput_ne _ _ _ hne

/-- What `faultEnt` reads after `setFault`. -/
@[simp] theorem faultEnt_setFault_same (s : State) (i : Nat) (e : FaultEnt) : faultEnt (setFault s i e) i = e := tget_tput_same ..
/-- `setFault` leaves every other key alone. -/
theorem faultEnt_setFault_ne (s : State) {i j : Nat} (e : FaultEnt) (hne : j ≠ i) : faultEnt (setFault s i e) j = faultEnt s j := tget_tput_ne _ _ _ hne

/-- What `unitAt` reads after `setUnit`. -/
@[simp] theorem unitAt_setUnit_same (s : State) (ty p : Nat) (u : SUnit) : unitAt (setUnit s ty p u) ty p = u := tget_tput_same ..
/-- `setUnit` leaves every other unit alone. -/
theorem unitAt_setUnit_ne (s : State) {ty p ty' p' : Nat} (u : SUnit) (hne : unitKey ty' p' ≠ unitKey ty p) : unitAt (setUnit s ty p u) ty' p' = unitAt s ty' p' := tget_tput_ne _ _ _ hne

/-- What `seam` reads after `setSeam`. -/
@[simp] theorem seam_setSeam_same (s : State) (q : Nat) (x : Seam) : seam (setSeam s q x) q = x := tget_tput_same ..
/-- `setSeam` leaves every other key alone. -/
theorem seam_setSeam_ne (s : State) {q j : Nat} (x : Seam) (hne : j ≠ q) : seam (setSeam s q x) j = seam s j := tget_tput_ne _ _ _ hne

/-- What `health` reads after `setHealth`. -/
@[simp] theorem health_setHealth_same (s : State) (ty p : Nat) (h : UHealth) : health (setHealth s ty p h) ty p = h := tget_tput_same ..
/-- `setHealth` leaves every other unit alone. -/
theorem health_setHealth_ne (s : State) {ty p ty' p' : Nat} (h : UHealth) (hne : unitKey ty' p' ≠ unitKey ty p) : health (setHealth s ty p h) ty' p' = health s ty' p' := tget_tput_ne _ _ _ hne

/-- What `flow` reads after `setFlow`. -/
@[simp] theorem flow_setFlow_same (s : State) (p : Nat) (f : Flow) : flow (setFlow s p f) p = f := tget_tput_same ..
/-- `setFlow` leaves every other key alone. -/
theorem flow_setFlow_ne (s : State) {p j : Nat} (f : Flow) (hne : j ≠ p) : flow (setFlow s p f) j = flow s j := tget_tput_ne _ _ _ hne

/-- What `nandPkg` reads after `setNand`. -/
@[simp] theorem nandPkg_setNand_same (s : State) (k : Nat) (x : NandPkg) : nandPkg (setNand s k x) k = x := tget_tput_same ..
/-- `setNand` leaves every other key alone. -/
theorem nandPkg_setNand_ne (s : State) {k j : Nat} (x : NandPkg) (hne : j ≠ k) : nandPkg (setNand s k x) j = nandPkg s j := tget_tput_ne _ _ _ hne

/-- What `lvStatus` reads after `setLvStatus`. -/
@[simp] theorem lvStatus_setLvStatus_same (s : State) (f : Nat) (o : ObjStatus) : lvStatus (setLvStatus s f o) f = o := tget_tput_same ..
/-- `setLvStatus` leaves every other key alone. -/
theorem lvStatus_setLvStatus_ne (s : State) {f j : Nat} (o : ObjStatus) (hne : j ≠ f) : lvStatus (setLvStatus s f o) j = lvStatus s j := tget_tput_ne _ _ _ hne

end Sys2Proof.Machine
end

