-- ==== Sys2Proof/Tests/Slice0.lean ====
section
/-! SUPPORT. The model's own tests: for every clause of a statement a concrete state and operands that
meet its hypotheses, with what the command then gives; and a command that `WellFormed` refuses for each
check. -/

namespace Sys2Proof.Tests

open Sys2Proof Sys2Proof.Machine

set_option Elab.async false

/-- A Bool test of the next state. -/
def answered (o : Host.Outcome State Fault Refusal) (p : State → Bool) : Bool :=
  match o with
  | .next t => p t
  | .fault _ => false
  | .refused _ => false

/-- A module at stage READY with the bootstrap set locked, its bank charged and measured. -/
def up : State :=
  { State.reset with
    cc := { State.reset.cc with stage := 6, bootDone := true }
    lv := { State.reset.lv with charging := false, dirtyEff := 512, usable := 1525 } }

/-- A control sequencer's image that holds one instruction of format D and its descriptor. -/
def imageOf (opc : Nat) (d : List W64) : Bytes :=
  wordsBytes ([w64 (opc * 2 ^ 56 + 3 * 2 ^ 52 + 64), 0, 0, 0, 0, 0, 0, 0] ++ d)

/-- A program of the fabric manager on control sequencer 0, at that instruction. -/
def prog (s : State) (opc : Nat) (d : List W64) : State :=
  setCtl s 0 { state := 1, seqNo := 5, priv := 1, image := imageOf opc d }

/-- The same with the program's journal record and a RUNTIME binding. -/
def progRt (s : State) (c opc : Nat) (d : List W64) : State :=
  setCtl s 0 { state := 1, seqNo := 5, priv := 2, comp := c, image := imageOf opc d }

/-- A message in the inbound half of a mailbox. -/
def message (s : State) (m priv : Nat) (ws : List W64) : State :=
  setMbx s m { priv := priv, inFull := true, inLen := ws.length,
               inQ := (List.range ws.length).foldl (fun t i => tput 0 t i (wd ws i)) [] }

/-- A RUNTIME program on control sequencer 2 that began at time 0. -/
def oldProg (s : State) : State :=
  setCtl { s with lv := { s.lv with recs := [{ seq := 9, kind := .program, started := true, mailbox := 4 }], nextSeq := 10 } } 2
    { state := 1, seqNo := 9, priv := 2, mailbox := 4, tag := 3 }

/-- A module with a composition 5, its region 1, extent 2 under key slot 3, and grain 0 in HBM frame 1. -/
def pool : State :=
  { up with
    ie := { up.ie with slots := [(3, { state := 1, owner := 7, comp := 5 })] }
    tr := { up.tr with comps := [(5, { state := 2, curLive := true, tenant := 7, status := { enabled := true } })]
                       exts := [(2, { state := 1, comp := 5, grains := 1, kslot := 3, bport := 0xFF, grantee := 0xFFFF })]
                       tmap := [(0, { loc := 2, frame := 1 })], hbm := [(2 ^ 21 + 6, 9)]
                       regions := [(1, { status := { enabled := true }, comp := 5, rights := 7, pages := 32, extent := 2 })] } }

/-- A request of endpoint 9 in composition 5 to region 1. -/
def req (op tc dst : Nat) (data : Bytes) : Frame :=
  { op := op, tc := tc, src := 9, dst := dst, comp := 5, region := if op ≤ 6 then 1 else 0, stream := 8, tag := 3, len := data.length, data := data }

/-- A pattern image of two stages of type 2 that halt at once, with one lace from the first to the second. -/
def tinyBody : Bytes :=
  bytesLE 4 0x54415056 ++ [0, 1, 0, 0, 2, 1, 0, 0] ++ bytesLE 4 384 ++ [0, 2, 0, 0, 0, 0, 0, 0] ++ bytesLE 8 0 ++ bytesLE 4 128
    ++ bytesLE 4 192 ++ bytesLE 4 320 ++ bytesLE 4 0 ++ bytesLE 4 256 ++ bytesLE 2 8 ++ List.replicate 74 0
    ++ [2, 0, 8, 0] ++ bytesLE 8 0 ++ bytesLE 4 1 ++ [2, 0, 8, 0] ++ bytesLE 4 8 ++ bytesLE 4 1 ++ bytesLE 4 0 ++ List.replicate 32 0
    ++ [0, 1, 32, 0, 2, 0, 0, 0] ++ List.replicate 184 0

/-- The same with its digest. -/
def tinyImage : Bytes := tinyBody.take 0x40 ++ sm3 tinyBody ++ tinyBody.drop 0x60

/-- The module with pattern 0 enabled, context 0 of composition 5, and a job of queue 0 accepted. -/
def jobs (s : State) : State :=
  { s with
    sa := { s.sa with ready := true, seqs := [(3, { banks := 6, logical := 3 })], pats := [(0, { status := { enabled := true }, ever := true, pwide := true, image := tinyBody })] }
    ie := { s.ie with ctxs := [(0, { status := { enabled := true }, comp := 5 })] }
    cc := { s.cc with jq := [(0, { status := { enabled := true }, endpoint := 9, comp := 5, log2 := 6, base := 2 ^ 48 })] }
    lv := { s.lv with recs := [{ seq := 4, kind := .job, entries := 2, comp := 5, length := 64, body := List.replicate 64 0 }], nextSeq := 5 } }
/-- An instruction word of an opcode and format with its operand bits. -/
def ins (opc fmt x : Nat) : Nat := opc * 2 ^ 56 + fmt * 2 ^ 52 + x

/-- Job 4 of composition 5 on seam 3: stage 1 of a type with its code, from lace 0 to lace 1. -/
def work (ty : Nat) (ws : List Nat) : State :=
  { pool with
    sa := { pool.sa with ready := true, seqs := [(3, { state := 3, banks := 6, job := some { seq := 4, comp := 5 }, stages := [(1, { ty := ty, code := wordsBytes (ws.map w64), inL := 1, outL := 2 })], laces := [(0, { q := [7] }), (1, { beat := 32, depth := 32 })] })] } }

/-- Such a stage's state changed. -/
def workSt (ty : Nat) (ws : List Nat) (f : Stage → Stage) : State := setStage (work ty ws) 3 1 (f (stage (work ty ws) 3 1))

/-- Such a seam changed. -/
def workSeam (ty : Nat) (ws : List Nat) (f : Seam → Seam) : State := setSeam (work ty ws) 3 (f (seam (work ty ws) 3))

/-- Such a seam's sequencer at its code, with synchronisation object 9 of its composition. -/
def workSeq (ws : List Nat) : State :=
  let s := workSeam 2 [] fun x => { x with halted := false, code := wordsBytes (ws.map w64), s := [(5, 3), (6, 9)] }
  { s with te := { s.te with sync := [(9, { status := { enabled := true }, comp := 5, value := 4 })] } }

/-- A RUNTIME program of composition 5 on control sequencer 2 at its code, with the same object. -/
def workCtl (ws : List Nat) : State :=
  let s := setCtl pool 2 { state := 1, seqNo := 9, priv := 2, comp := 5, mailbox := 4, tag := 3, image := wordsBytes (ws.map w64), s := [(5, 3), (6, 9)] }
  { s with te := { s.te with sync := [(9, { status := { enabled := true }, comp := 5, value := 4 })] } }

/-- Address space 6 of composition 5, and the stage's engine with a page of it cached: page 2 lies at 128 KiB. -/
def mapped (s : State) : State :=
  let s := setSeam s 3 { seam s 3 with job := some { seq := 4, comp := 5, asid := 6 } }
  { s with tu := { s.tu with asids := [(6, { status := { enabled := true }, comp := 5 })]
                             micro := [(engNo s (.stage 3 1), [{ asid := 6, key := 2, kind := 3, fa := 2 ^ 17, rights := 7, region := 1 }])] } }
/-- Multicast group 9 of composition 5. -/
def grouped (s : State) : State := { s with sw := { s.sw with groups := [(9, { status := { enabled := true }, comp := 5 })] } }
/-- A G stage that encodes under generation 1 of table 9, with that record, from lace 0. -/
def encoding (r : Bytes) (l : Lace) : State :=
  let ws := [ins 0x21 4 (64 * 2 ^ 34 + 65 * 2 ^ 27 + 2 * 2 ^ 10 + 2 ^ 5), 9 + 4096 * 2 ^ 16 + 2 ^ 32]
  let s := setStage (workSeam 7 ws fun x => { x with laces := [(0, l), (1, { beat := 32, depth := 32 }), (2, { beat := 32, depth := 32 })] }) 3 1 { ty := 7, code := wordsBytes (ws.map w64), inL := 1, outL := 6, encRefs := [(9, 1)] }
  { s with gv := { s.gv with res := [(0, { valid := true, table := 9, comp := 5, newGen := 1, newRec := r, newRefs := 1 })] } }

/-- A welt descriptor of one line at address 131072 with a count of servers. -/
def descr (servers : Nat) : Bytes :=
  wordsBytes [w64 (2 ^ 17), w64 (1 + 2 ^ 32), w64 (servers * 2 ^ 16 + 1000 * 2 ^ 32), 64]

/-- A V stage at a welt RED, with the descriptor at slice address 0, and its welt. -/
def welting (g : Stage) (d : Bytes) (w : Option Welt := none) : State :=
  let s := workSeam 2 [] fun x => { x with mem := memWrite [] 0 d, laces := [(0, { q := List.replicate 288 0 }), (1, { beat := 32, depth := 32 })] }
  let s := setStage s 3 1 { g with ty := 2, code := wordsBytes [w64 (ins 0x60 0 (64 * 2 ^ 34 + 1))], outL := 2 }
  { s with sa := { s.sa with welts := w.toList } }

/-- The stage's memory is mapped, and the page lies in a region that may hold welts. -/
def weltMapped (s : State) : State :=
  let s := mapped s
  { s with tr := { s.tr with regions := [(1, { status := { enabled := true }, comp := 5, rights := 7, pages := 32, extent := 2, welt := true })] } }
/-- Port 2 with a link that carries link frames but sends none, unless the given port says otherwise. -/
def linkUp (x : Port) : State := { pool with pc := { pool.pc with ports := [(2, if x.state = 0 then { x with state := 5 } else x)] } }

/-- A flit of a group of its own, sealed under key 0 with counter 0. -/
def sealedFlit : RxFlit :=
  let h := linkHeader 1 0 0 false true 0 0
  { hdr := h, area := sealGroup 0 0 0 [h] (List.replicate 236 0) 0 0 0 }
/-- A secured session 2 whose requester has proved the root [1, 2, 3], the owner's anchor. -/
def owned (s : State) : State := { s with ta := { s.ta with anchor := [1, 2, 3], sess := [(2, { opened := true, secured := true, phase := 4, root := [1, 2, 3] })] } }

/-- The same with nothing of the module's own in service, so that a reset or report stays small. -/
def ownedUp : State := owned up
/-- The header of an empty body for layer 2, at security version 1, in general-area page 0x2C00, which is device-owned. -/
def fwPage (s : State) : State :=
  { s with cc := { s.cc with flags := [(0x2C00, 3)], bulk := memWrite [] 0x2C00000 (bytesLE 4 0x4B465749 ++ [2, 1, 0, 0] ++ bytesLE 4 0) } }

/-- The same with the page host-owned. -/
def fwPage2 (s : State) : State :=
  { s with cc := { s.cc with flags := [(0x2C00, 2)], bulk := memWrite [] 0x2C00000 (bytesLE 4 0x4B465749 ++ [2, 1, 0, 0] ++ bytesLE 4 0) } }
/-- A write of `CC_AON_OP` for an operation, with the key and a flag. -/
def aonCode (op flag : Nat) : W64 := w64 (0xA5C3 * 2 ^ 48 + flag * 2 ^ 8 + op)

/-- The module at a boot stage. -/
def booting (n : Nat) : State := { up with cc := { up.cc with stage := n }, sa := { up.sa with ready := true } }

/-- The module switched off by POWER_OFF. -/
def offNow : State := { up with hw := { up.hw with off := true, mainOn := false, pwrgd := false, safe := 2 } }
/-- All units of a module that has passed its power-on test: physical 0 of type 1 is in service as logical 0, physical 1 a spare. -/
def tested (s : State) : State := { s with sa := { s.sa with ready := true, units := [(unitKey 1 0, { state := 0, logical := 0 }), (unitKey 1 1, { state := 3 })] } }

theorem test_register_write_gen_base : ∃ (s : State) (v : W64), (access s .cxl 0x100400 8 = .served) ∧ (s.cc.bootDone = false) ∧ (s.cc.stage = 6) ∧ answered (exec (.registerWrite .cxl 0x100400 8 v) s) (fun t => decide (t = { s with resp := .ok, cc := { s.cc with genBase := v.toNat % 2 ^ 34 } })) = true :=
  ⟨{ up with cc := { up.cc with bootDone := false } }, 0xFFFFFFFFFFFFFFFF, by decide +kernel⟩

theorem test_register_write_locked : ∃ (s : State) (v : W64), (access s .cxl 0x100400 8 = .served) ∧ (s.cc.bootDone = true) ∧ answered (exec (.registerWrite .cxl 0x100400 8 v) s) (fun t => decide (t = { s with resp := .ok })) = true :=
  ⟨up, 5, by decide +kernel⟩

theorem test_counter_read_clear : ∃ (s : State) (off : Nat) (c : CtrSel), (access s .cxl off 8 = .served) ∧ (ctrSel off = some c) ∧ answered (exec (.counterReadClear .cxl off 8) s) (fun t => decide (t = ctrSet { tallyAll { s with resp := .ok } c with resp := .data (ctrGet (tallyAll { s with resp := .ok } c) c) } c 0)) = true :=
  ⟨{ up with cc := { up.cc with bulkViol := 7 } }, 0x100420, .bulkViol, by decide +kernel⟩

theorem test_counter_read_half : ∃ (s : State) (off : Nat) (c : CtrSel), (access s .cxl off 4 = .served) ∧ (ctrSel (off / 8 * 8) = some c) ∧ answered (exec (.counterReadClear .cxl off 4) s) (fun t => decide (t = ctrSet { (tallyAll { s with resp := .ok } c) with resp := .data (readPart off 4 (ctrGet (tallyAll { s with resp := .ok } c) c)) } c (ctrGet (tallyAll { s with resp := .ok } c) c &&& ~~~(accessMask off 4)))) = true :=
  ⟨{ up with cc := { up.cc with bulkViol := 2 ^ 33 + 7 } }, 0x100424, .bulkViol, by decide +kernel⟩

theorem test_counter_read_waiting : ∃ (s : State) (off : Nat), (access s .cxl off 8 = .served) ∧ (ctrSel off = some (.sa 6)) ∧ answered (exec (.counterReadClear .cxl off 8) s) (fun t => decide (tget 0 t.sa.ctr 6 = 0 ∧ t = ctrSet { tallyAll { s with resp := .ok } (.sa 6) with resp := .data (ctrGet (tallyAll { s with resp := .ok } (.sa 6)) (.sa 6)) } (.sa 6) 0)) = true :=
  ⟨{ up with now := 100, sa := { up.sa with seqs := [(3, { wait := 2, job := some { seq := 4 } })] } }, 0x3806030, by decide +kernel⟩

theorem test_register_read : ∃ (s : State) (off size : Nat), (access s .cxl off size = .served) ∧ (isAlias (off / 8 * 8) = false) ∧ (isOutHead (off / 8 * 8) = false) ∧ (ctrSel (off / 8 * 8) = none) ∧ answered (exec (.counterReadClear .cxl off size) s) (fun t => decide (t = { s with resp := .data (readPart off size (regWord { s with resp := .ok } (off / 8 * 8))) })) = true :=
  ⟨{ up with cc := { up.cc with intMask := 0x7000000003 } }, 0x2C, 4, by decide +kernel⟩

theorem test_register_read_upper_half : ∃ (s : State) (off : Nat), (access s .cxl off 4 = .served) ∧ (off % 8 = 4) ∧ (aliasBarred off = false) ∧ (isAlias (off / 8 * 8) = true ∨ isOutHead (off / 8 * 8) = true) ∧ answered (exec (.counterReadClear .cxl off 4) s) (fun t => decide (t = { s with resp := .data 0 })) = true :=
  ⟨{ up with cc := { up.cc with locks := [(0, 7)] } }, 0x80804, by decide +kernel⟩

theorem test_register_read_lock : ∃ (s : State) (off size : Nat), (access s .cxl off size = .served) ∧ (off % 8 = 0) ∧ (aliasBarred off = false) ∧ (isAlias off = true) ∧ answered (exec (.counterReadClear .cxl off size) s) (fun t => decide (t = lockRead { s with resp := .ok } ((off - 0x80000) / 0x800) (off % 0x800 / 8))) = true :=
  ⟨{ up with cc := { up.cc with locks := [(1, 7)] } }, 0x80800, 4, by decide +kernel⟩

theorem test_register_read_out_head : ∃ (s : State) (off size : Nat), (access s .cxl off size = .served) ∧ (off % 8 = 0) ∧ (isOutHead off = true) ∧ answered (exec (.counterReadClear .cxl off size) s) (fun t => decide (t = outHead { s with resp := .ok } (mbxOf off))) = true :=
  ⟨{ up with cc := { up.cc with mbx := [(5, { outFull := true, outLen := 4 })] } }, 0x10B80, 4, by decide +kernel⟩

theorem test_register_read_unsupported : ∃ (s : State) (off size : Nat), (access s .cxl off size = .unsupported ∨ (access s .cxl off size = .served ∧ aliasBarred off = true)) ∧ answered (exec (.counterReadClear .cxl off size) s) (fun t => decide (t = { s with resp := .unsupported })) = true :=
  ⟨up, 0x80000, 8, by decide +kernel⟩

theorem test_register_read_absent : ∃ (s : State) (off size : Nat), (access s .cxl off size = .absent) ∧ answered (exec (.counterReadClear .cxl off size) s) (fun t => decide (t = { s with resp := .none })) = true :=
  ⟨{ up with hw := { up.hw with perstLow := true } }, 0x20, 8, by decide +kernel⟩

theorem test_sideband_read : ∃ (s : State) (off : Nat), (access s .sideband off 8 = .served) ∧ (sidebandReach off = true) ∧ (isAlias off = false) ∧ (isOutHead off = false) ∧ answered (exec (.counterReadClear .sideband off 8) s) (fun t => decide (t = { s with resp := .data (sidebandWord { s with resp := .ok } off) })) = true :=
  ⟨up, 0x400020, by decide +kernel⟩

theorem test_sideband_read_beyond : ∃ (s : State) (off : Nat), (access s .sideband off 8 = .served) ∧ (sidebandReach off = false) ∧ answered (exec (.counterReadClear .sideband off 8) s) (fun t => decide (t = { s with resp := .data 0 })) = true :=
  ⟨up, 0x800008, by decide +kernel⟩

theorem test_sideband_read_unaligned : ∃ (s : State) (off : Nat), (unpowered s = false) ∧ (off % 8 ≠ 0) ∧ answered (exec (.counterReadClear .sideband off 8) s) (fun t => decide (t = { s with resp := .data 0 })) = true :=
  ⟨up, 0x400024, by decide +kernel⟩

theorem test_sideband_read_lock : ∃ (s : State) (off : Nat), (access s .sideband off 8 = .served) ∧ (sidebandReach off = true) ∧ (isAlias off = true) ∧ answered (exec (.counterReadClear .sideband off 8) s) (fun t => decide (t = lockRead { s with resp := .ok } 254 (off % 0x800 / 8))) = true :=
  ⟨up, 0xFF008, by decide +kernel⟩

theorem test_sideband_read_out_head : ∃ (s : State) (off : Nat), (access s .sideband off 8 = .served) ∧ (sidebandReach off = true) ∧ (isOutHead off = true) ∧ answered (exec (.counterReadClear .sideband off 8) s) (fun t => decide (t = outHead { s with resp := .ok } 79)) = true :=
  ⟨{ up with cc := { up.cc with mbx := [(79, { outFull := true, outLen := 4 })] } }, 0x19F80, by decide +kernel⟩

theorem test_bootstrap_done_locks : ∃ (s : State) (v : W64), (access s .cxl 0x1000 8 = .served) ∧ (s.cc.bootDone = false) ∧ (s.cc.stage = 6) ∧ (bit v 0 = true) ∧ (bootstrapReason s = 0) ∧ answered (exec (.bootstrapDone .cxl v) s) (fun t => decide (t.cc.bootDone = true ∧ t.cc.bootReason = 0 ∧ t.cc.ideRequired = bit v 1 ∧ t = ((List.range 16) ++ [18]).foldl flushHeld { { s with resp := .ok } with cc := { s.cc with ideRequired := bit v 1, bootReason := 0, bootDone := true } })) = true :=
  ⟨{ up with cc := { up.cc with bootDone := false } }, 3, by decide +kernel⟩

theorem test_bootstrap_done_refused : ∃ (s : State) (v : W64), (access s .cxl 0x1000 8 = .served) ∧ (s.cc.bootDone = false) ∧ (s.cc.stage = 6) ∧ (bit v 0 = true) ∧ (bootstrapReason s ≠ 0) ∧ answered (exec (.bootstrapDone .cxl v) s) (fun t => decide (t = { s with resp := .ok, cc := { s.cc with ideRequired := bit v 1, bootReason := bootstrapReason s } })) = true :=
  ⟨{ up with cc := { up.cc with bootDone := false, wdog := 1 } }, 1, by decide +kernel⟩

theorem test_int_pend_clear : ∃ (s : State) (v : W64), (access s .cxl 0x20 8 = .served) ∧ answered (exec (.intPendClear .cxl 0x20 8 v) s) (fun t => decide (t.cc.intStatus = s.cc.intStatus &&& ~~~(v &&& intBits) ∧ (t.cc.ueValid = (s.cc.ueValid && !(bit v 23 && bit s.cc.intStatus 23))) ∧ t = intStatusClear { s with resp := .ok } (accessData 0x20 8 v &&& accessMask 0x20 8))) = true :=
  ⟨{ up with cc := { up.cc with intStatus := 0x800003, sent := 3, ueValid := true } }, 0x800001, by decide +kernel⟩

theorem test_int_mask_write : ∃ (s : State) (v : W64), (access s .cxl 0x28 8 = .served) ∧ answered (exec (.intMaskWrite .cxl 0x28 8 v) s) (fun t => decide (t.cc.intMask = v &&& intBits ∧ t = intMaskWrite { s with resp := .ok } (accessData 0x28 8 v) (accessMask 0x28 8))) = true :=
  ⟨{ up with cc := { up.cc with intStatus := 4 } }, 0, by decide +kernel⟩

theorem test_mbx_pend_clear : ∃ (s : State) (v : W64), (access s .cxl 0x30 8 = .served) ∧ answered (exec (.intPendClear .cxl 0x30 8 v) s) (fun t => decide (t = mbxPendClear { s with resp := .ok } (accessData 0x30 8 v &&& accessMask 0x30 8))) = true :=
  ⟨{ up with cc := { up.cc with mbxPend := 5, sent := 3 } }, 4, by decide +kernel⟩

theorem test_mbx_mask_write : ∃ (s : State) (v : W64), (access s .cxl 0x38 8 = .served) ∧ answered (exec (.intMaskWrite .cxl 0x38 8 v) s) (fun t => decide (t = mbxMaskWrite { s with resp := .ok } (accessData 0x38 8 v) (accessMask 0x38 8))) = true :=
  ⟨{ up with cc := { up.cc with mbxPend := 5 } }, 1, by decide +kernel⟩

theorem test_sb_cap_write : ∃ (s : State) (v : W64), (access s .sideband 0x400020 8 = .served) ∧ answered (exec (.sbCapWrite .sideband v) s) (fun t => decide (t = { s with resp := .ok, ph := { s.ph with sbCap := max 300 (min 1500 (v.toNat % 65536)) } })) = true :=
  ⟨up, 200, by decide +kernel⟩

theorem test_lock_acquire_free : ∃ (s : State) (n k : Nat), (access s .cxl (0x80000 + n * 0x800 + k * 8) 8 = .served) ∧ (1 ≤ n) ∧ (n ≤ 239) ∧ (k < 256) ∧ (lockOwner s k = 0) ∧ answered (exec (.lockAcquire .cxl n k) s) (fun t => decide (lockOwner t k = n ∧ t = { s with resp := .data 0, cc := { s.cc with locks := tput 0 s.cc.locks k n } })) = true :=
  ⟨up, 239, 255, by decide +kernel⟩

theorem test_lock_acquire_owned : ∃ (s : State) (n k : Nat), (access s .cxl (0x80000 + n * 0x800 + k * 8) 8 = .served) ∧ (1 ≤ n) ∧ (n ≤ 239) ∧ (k < 256) ∧ (lockOwner s k ≠ 0) ∧ answered (exec (.lockAcquire .cxl n k) s) (fun t => decide (t = { s with resp := .data (w64 (lockOwner s k)) })) = true :=
  ⟨{ up with cc := { up.cc with locks := [(3, 7)] } }, 1, 3, by decide +kernel⟩

theorem test_lock_release_owner : ∃ (s : State) (n k : Nat) (v : W64), (access s .cxl (0x80000 + n * 0x800 + k * 8) 8 = .served) ∧ (1 ≤ n) ∧ (n ≤ 239) ∧ (k < 256) ∧ (lockOwner s k = n) ∧ (v.toNat = n) ∧ answered (exec (.lockRelease .cxl n k v) s) (fun t => decide (lockOwner t k = 0 ∧ t = { s with resp := .ok, cc := { s.cc with locks := tput 0 s.cc.locks k 0 } })) = true :=
  ⟨{ up with cc := { up.cc with locks := [(3, 7)] } }, 7, 3, 7, by decide +kernel⟩

theorem test_lock_release_other : ∃ (s : State) (n k : Nat) (v : W64), (access s .cxl (0x80000 + n * 0x800 + k * 8) 8 = .served) ∧ (1 ≤ n) ∧ (n ≤ 239) ∧ (k < 256) ∧ (¬(lockOwner s k = n ∧ v.toNat = n)) ∧ answered (exec (.lockRelease .cxl n k v) s) (fun t => decide (t = { s with resp := .ok })) = true :=
  ⟨{ up with cc := { up.cc with locks := [(3, 7)] } }, 1, 3, 7, by decide +kernel⟩

theorem test_lock_force : ∃ (s : State) (v : W64), (access s .cxl 0x2010 8 = .served) ∧ (v.toNat < 256) ∧ answered (exec (.lockForce .cxl v) s) (fun t => decide (lockOwner t v.toNat = 0 ∧ t = { s with resp := .ok, cc := { s.cc with locks := tput 0 s.cc.locks v.toNat 0 } })) = true :=
  ⟨{ up with cc := { up.cc with locks := [(3, 7)] } }, 3, by decide +kernel⟩

theorem test_in_head_write : ∃ (s : State) (m : Nat) (v : W64), (access s .cxl (0x10000 + m * 0x200 + 0x80) 8 = .served) ∧ (m < 79) ∧ ((mbx s m).inFull = false) ∧ (1 ≤ fld v 0 5) ∧ (fld v 0 5 ≤ 16) ∧ answered (exec (.inHeadWrite .cxl m v) s) (fun t => decide (t = setMbx { s with resp := .ok } m { mbx s m with inFull := true, inLen := fld v 0 5 })) = true :=
  ⟨up, 63, 16, by decide +kernel⟩

theorem test_in_head_malformed : ∃ (s : State) (m : Nat) (v : W64), (access s .cxl (0x10000 + m * 0x200 + 0x80) 8 = .served) ∧ (m < 79) ∧ ((mbx s m).inFull = false) ∧ (fld v 0 5 = 0 ∨ 16 < fld v 0 5) ∧ answered (exec (.inHeadWrite .cxl m v) s) (fun t => decide (t = setMbx { s with resp := .ok } m { mbx s m with malformed := true })) = true :=
  ⟨up, 0, 17, by decide +kernel⟩

theorem test_in_head_overrun : ∃ (s : State) (m : Nat) (v : W64), (access s .cxl (0x10000 + m * 0x200 + 0x80) 8 = .served) ∧ (m < 80) ∧ ((mbx s m).inFull = true) ∧ answered (exec (.inHeadWrite .cxl m v) s) (fun t => decide (t = setMbx { s with resp := .ok } m { mbx s m with overrun := true })) = true :=
  ⟨{ up with cc := { up.cc with mbx := [(5, { inFull := true, inLen := 2 })] } }, 5, 3, by decide +kernel⟩

theorem test_out_head_read : ∃ (s : State) (m : Nat), (access s .cxl (0x10000 + m * 0x200 + 0x180) 8 = .served) ∧ (m < 80) ∧ ((mbx s m).outFull = true) ∧ ((mbx s m).outWait = []) ∧ answered (exec (.outHeadRead .cxl m) s) (fun t => decide (t = setMbx { s with resp := .data (headWord true (mbx s m).outLen) } m { mbx s m with outFull := false })) = true :=
  ⟨{ up with cc := { up.cc with mbx := [(5, { outFull := true, outLen := 4 })] } }, 5, by decide +kernel⟩

theorem test_out_head_next : ∃ (s : State) (m : Nat) (w : List W64) (l : List (List W64)), (access s .cxl (0x10000 + m * 0x200 + 0x180) 8 = .served) ∧ (m < 80) ∧ ((mbx s m).outFull = true) ∧ ((mbx s m).outWait = w :: l) ∧ answered (exec (.outHeadRead .cxl m) s) (fun t => decide (t = putOut (setMbx { s with resp := .data (headWord true (mbx s m).outLen) } m { mbx s m with outFull := false, outWait := l }) m w)) = true :=
  ⟨{ up with cc := { up.cc with mbx := [(5, { outFull := true, outLen := 4, outWait := [[7], [8]] })] } }, 5, [7], [[8]], by decide +kernel⟩

theorem test_out_head_empty : ∃ (s : State) (m : Nat), (access s .cxl (0x10000 + m * 0x200 + 0x180) 8 = .served) ∧ (m < 80) ∧ ((mbx s m).outFull = false) ∧ answered (exec (.outHeadRead .cxl m) s) (fun t => decide (t = { s with resp := .data (headWord false (mbx s m).outLen) })) = true :=
  ⟨{ up with cc := { up.cc with mbx := [(5, { outLen := 4 })] } }, 5, by decide +kernel⟩

theorem test_out_head_none : ∃ (s : State) (m : Nat), (access s .cxl (0x10000 + m * 0x200 + 0x180) 8 = .served) ∧ (80 ≤ m) ∧ answered (exec (.outHeadRead .cxl m) s) (fun t => decide (t = { s with resp := .data 0 })) = true :=
  ⟨up, 81, by decide +kernel⟩

theorem test_ring_cons_write : ∃ (s : State) (n : Nat) (v : W64), (access s .cxl (0x100000 + n * 0x20 + 0x18) 8 = .served) ∧ (n < 19) ∧ (((ring s n).prod - w32 v.toNat).toNat ≤ 2 ^ (ring s n).size) ∧ answered (exec (.ringConsWrite n v) s) (fun t => decide ((ring t n).cons = w32 v.toNat ∧ (ring t n).prod = (ring s n).prod ∧ t = ringCons { s with resp := .ok } n v)) = true :=
  ⟨{ up with cc := { up.cc with rings := [(18, { prod := 9, cons := 4 })] } }, 18, 9, by decide +kernel⟩

theorem test_ring_cons_ignored : ∃ (s : State) (n : Nat) (v : W64), (access s .cxl (0x100000 + n * 0x20 + 0x18) 8 = .served) ∧ (n < 19) ∧ (2 ^ (ring s n).size < ((ring s n).prod - w32 v.toNat).toNat) ∧ answered (exec (.ringConsWrite n v) s) (fun t => decide (t = { s with resp := .ok })) = true :=
  ⟨{ up with cc := { up.cc with rings := [(18, { prod := 9, cons := 4 })] } }, 18, 10, by decide +kernel⟩

theorem test_flag_byte_accepted : ∃ (s : State) (p : Nat) (b : Byte), (s.hw.perstLow = false) ∧ (windowOff s = false) ∧ (memDropped s = false) ∧ (pageInGen s p = true) ∧ (bit (memGet s.cc.flags p) 0 = false) ∧ (b = memGet s.cc.flags p ∨ b = flipByte (memGet s.cc.flags p)) ∧ answered (exec (.flagByteWrite p [some b]) s) (fun t => decide (t = { s with resp := .ok, cc := { s.cc with flags := memPut s.cc.flags p b } })) = true :=
  ⟨up, 0x2C00, 3, by decide +kernel⟩

theorem test_flag_byte_ignored : ∃ (s : State) (p : Nat) (b : Byte), (s.hw.perstLow = false) ∧ (windowOff s = false) ∧ (memDropped s = false) ∧ (pageInGen s p = true) ∧ (bit (memGet s.cc.flags p) 0 = true ∨ (b ≠ memGet s.cc.flags p ∧ b ≠ flipByte (memGet s.cc.flags p))) ∧ answered (exec (.flagByteWrite p [some b]) s) (fun t => decide (t.cc.flags = s.cc.flags ∧ t.cc.bulk = s.cc.bulk ∧ t.cc.bulkViol = satInc s.cc.bulkViol 1 ∧ t = flagWrite { s with resp := .ok } p [some b])) = true :=
  ⟨up, 0x2C00, 5, by decide +kernel⟩

theorem test_flag_bytes_written : ∃ (s : State) (p : Nat) (l : List (Option Byte)), (s.hw.perstLow = false) ∧ (windowOff s = false) ∧ (memDropped s = false) ∧ answered (exec (.flagByteWrite p l) s) (fun t => decide (t = flagWrite { s with resp := .ok } p l)) = true :=
  ⟨up, 0x2C00, [some 3, none, some 5], by decide +kernel⟩

theorem test_flag_bytes_dropped : ∃ (s : State) (p : Nat) (l : List (Option Byte)), (s.hw.perstLow = false) ∧ (windowOff s = false) ∧ (memDropped s = true) ∧ answered (exec (.flagByteWrite p l) s) (fun t => decide (t = bulkViolation { s with resp := .none } 1)) = true :=
  ⟨{ up with cc := { up.cc with ideRequired := true } }, 0x2C00, [some 3], by decide +kernel⟩

theorem test_bulk_data_write : ∃ (s : State) (off : Nat) (data : List (Option Byte)), (s.hw.perstLow = false) ∧ (windowOff s = false) ∧ (memDropped s = false) ∧ (0x400000 ≤ off) ∧ ((pagesOf off data.length).any (fun p => devOwned s p) = false) ∧ answered (exec (.bulkDataWrite off data) s) (fun t => decide (t = { s with resp := .ok, cc := { s.cc with bulk := memWriteBE s.cc.bulk off data } })) = true :=
  ⟨up, 0x2C00001, [some 7, none, some 9], by decide +kernel⟩

theorem test_bulk_data_refused : ∃ (s : State) (off : Nat) (data : List (Option Byte)), (s.hw.perstLow = false) ∧ (windowOff s = false) ∧ (memDropped s = false) ∧ (0x400000 ≤ off) ∧ (data ≠ []) ∧ ((pagesOf off data.length).any (fun p => devOwned s p) = true) ∧ answered (exec (.bulkDataWrite off data) s) (fun t => decide (t.cc.bulk = s.cc.bulk ∧ t.cc.bulkViol = satInc s.cc.bulkViol 1 ∧ t = bulkWrite { s with resp := .ok } off data)) = true :=
  ⟨{ up with cc := { up.cc with flags := [(0x2C00, 3)] } }, 0x2C00000, [some 7], by decide +kernel⟩

theorem test_bulk_data_dropped : ∃ (s : State) (off : Nat) (data : List (Option Byte)), (s.hw.perstLow = false) ∧ (windowOff s = false) ∧ (memDropped s = true) ∧ answered (exec (.bulkDataWrite off data) s) (fun t => decide (t = bulkViolation { s with resp := .none } 1)) = true :=
  ⟨{ up with cc := { up.cc with ideRequired := true } }, 0x2C00000, [some 7], by decide +kernel⟩

theorem test_bulk_data_flags : ∃ (s : State) (off : Nat) (data : List (Option Byte)), (s.hw.perstLow = false) ∧ (windowOff s = false) ∧ (memDropped s = false) ∧ (off < 0x400000) ∧ answered (exec (.bulkDataWrite off data) s) (fun t => decide (t = flagWrite { s with resp := .ok } off data)) = true :=
  ⟨up, 0x2C00, [some 3], by decide +kernel⟩

theorem test_bulk_data_absent : ∃ (s : State) (off : Nat) (data : List (Option Byte)), (s.hw.perstLow = true ∨ windowOff s = true) ∧ answered (exec (.bulkDataWrite off data) s) (fun t => decide (t = { s with resp := .none })) = true :=
  ⟨{ up with hw := { up.hw with perstLow := true } }, 0x2C00000, [some 7], by decide +kernel⟩

theorem test_bulk_read : ∃ (s : State) (off len : Nat), (s.hw.perstLow = false) ∧ (windowOff s = false) ∧ (memDropped s = false) ∧ answered (exec (.bulkRead off len none) s) (fun t => decide (t = { s with resp := .bytes (bulkRead s off len) })) = true :=
  ⟨{ up with cc := { up.cc with bulk := [(0x2C00000, 9)] } }, 0x2C00000, 2, by decide +kernel⟩

theorem test_bulk_read_dropped : ∃ (s : State) (off len : Nat) (u : Option Nat), (s.hw.perstLow = false) ∧ (windowOff s = false) ∧ (memDropped s = true) ∧ answered (exec (.bulkRead off len u) s) (fun t => decide (t = bulkViolation { s with resp := .none } 1)) = true :=
  ⟨{ up with cc := { up.cc with ideRequired := true } }, 0x2C00000, 2, none, by decide +kernel⟩

theorem test_bulk_read_ue : ∃ (s : State) (off len a : Nat), (s.hw.perstLow = false) ∧ (windowOff s = false) ∧ (memDropped s = false) ∧ answered (exec (.bulkRead off len (some a)) s) (fun t => decide (t.resp = .bytes (List.replicate len 0xFF) ∧ t.cc.ueValid = true ∧ bit t.cc.intStatus 23 = true ∧ t.cc.ueOffset = (if s.cc.ueValid then s.cc.ueOffset else a % 2 ^ 34) ∧ t = raiseEvent { s with resp := .bytes (List.replicate len 0xFF), cc := (if s.cc.ueValid then s.cc else { s.cc with ueValid := true, ueOffset := a % 2 ^ 34 }) } 23)) = true :=
  ⟨up, 0x2C00000, 64, 0x2C00000, by decide +kernel⟩

theorem test_cp_inline_staged : ∃ (s : State) (m : Nat), (msgReady s m 1 = true) ∧ (msgBarred s m 1 = false) ∧ (imageReason (mbx s m).priv (wordsBytes ((List.range ((mbx s m).inLen - 1)).map fun i => inMsg s m (i + 1))) = 0) ∧ (progRetry s m (8 * ((mbx s m).inLen - 1)) = false) ∧ answered (exec (.cpInline m) s) (fun t => decide ((mbx t m).inFull = false ∧ (mbx t m).running = (mbx s m).running + 1 ∧ t.cc.staged = s.cc.staged ++ [{ mailbox := m, tag := msgTag s m, priv := (mbx s m).priv, part := (mbx s m).part, comp := (mbx s m).comp, image := wordsBytes ((List.range ((mbx s m).inLen - 1)).map fun i => inMsg s m (i + 1)) }] ∧ t = stageProg (takeMsg s m) m (msgTag s m) (wordsBytes ((List.range ((mbx s m).inLen - 1)).map fun i => inMsg s m (i + 1))) none)) = true :=
  ⟨message up 63 1 [0x00050001, 0], 63, by decide +kernel⟩

theorem test_cp_inline_refused : ∃ (s : State) (m : Nat), (msgReady s m 1 = true) ∧ (msgBarred s m 1 = false) ∧ (imageReason (mbx s m).priv (wordsBytes ((List.range ((mbx s m).inLen - 1)).map fun i => inMsg s m (i + 1))) ≠ 0) ∧ answered (exec (.cpInline m) s) (fun t => decide (t = cpRefused (takeMsg s m) m (msgTag s m) 3 (imageReason (mbx s m).priv (wordsBytes ((List.range ((mbx s m).inLen - 1)).map fun i => inMsg s m (i + 1)))))) = true :=
  ⟨message up 63 1 [0x00050001, 0xFF00000000000000], 63, by decide +kernel⟩

theorem test_cp_inline_barred : ∃ (s : State) (m : Nat), (msgReady s m 1 = true) ∧ (msgBarred s m 1 = true) ∧ answered (exec (.cpInline m) s) (fun t => decide (t = cpRefused (takeMsg s m) m (msgTag s m) 3 0x0003)) = true :=
  ⟨message up 63 0 [0x00050001, 0], 63, by decide +kernel⟩

theorem test_cp_bulk_staged : ∃ (s : State) (m : Nat), (msgReady s m 2 = true) ∧ (msgBarred s m 2 = false) ∧ ((inMsg s m 2).toNat ≠ 0) ∧ ((inMsg s m 2).toNat % 8 = 0) ∧ ((inMsg s m 2).toNat ≤ 65536) ∧ ((inMsg s m 1).toNat % 4096 = 0) ∧ (pagesInGen s (inMsg s m 1).toNat (inMsg s m 2).toNat = true) ∧ (pagesOwned s (inMsg s m 1).toNat (inMsg s m 2).toNat = true) ∧ (imageReason (mbx s m).priv (bulkRead s (inMsg s m 1).toNat (inMsg s m 2).toNat) = 0) ∧ (progRetry s m (inMsg s m 2).toNat = false) ∧ answered (exec (.cpBulk m) s) (fun t => decide ((mbx t m).inFull = false ∧ t.cc.staged = s.cc.staged ++ [{ mailbox := m, tag := msgTag s m, priv := (mbx s m).priv, part := (mbx s m).part, comp := (mbx s m).comp, image := bulkRead s (inMsg s m 1).toNat (inMsg s m 2).toNat, bulkOff := some (inMsg s m 1).toNat }] ∧ t = stageProg (takeMsg s m) m (msgTag s m) (bulkRead s (inMsg s m 1).toNat (inMsg s m 2).toNat) (some (inMsg s m 1).toNat))) = true :=
  ⟨message { up with cc := { up.cc with flags := [(0x2C00, 3)] } } 63 1 [2, 0x2C00000, 8], 63, by decide +kernel⟩

theorem test_query_seq_answered : ∃ (s : State) (m : Nat), (msgReady s m 3 = true) ∧ (msgBarred s m 3 = false) ∧ ((mbx s m).outFull = false) ∧ answered (exec (.querySeq m) s) (fun t => decide ((mbx t m).inFull = false ∧ (mbx t m).outFull = true ∧ (mbx t m).outQ = [replyHead 0x84 (msgTag s m), w64 s.lv.lastSeq, w64 s.now] ∧ t = putOut (takeMsg s m) m [replyHead 0x84 (msgTag s m), w64 s.lv.lastSeq, w64 s.now])) = true :=
  ⟨message up 79 0 [0x00070003], 79, by decide +kernel⟩

theorem test_query_seq_queued : ∃ (s : State) (m : Nat), (msgReady s m 3 = true) ∧ (msgBarred s m 3 = false) ∧ answered (exec (.querySeq m) s) (fun t => decide (t = queryReply (takeMsg s m) m (msgTag s m) (w64 s.lv.lastSeq))) = true :=
  ⟨(setMbx (message up 79 0 [0x00070003]) 79 { mbx (message up 79 0 [0x00070003]) 79 with outFull := true }), 79, by decide +kernel⟩

theorem test_health_query_answered : ∃ (s : State) (m : Nat), (msgReady s m 4 = true) ∧ (msgBarred s m 4 = false) ∧ ((mbx s m).outFull = false) ∧ answered (exec (.healthQuery m) s) (fun t => decide ((mbx t m).inFull = false ∧ (mbx t m).outFull = true ∧ (mbx t m).outQ = [replyHead 0x84 (msgTag s m), healthWord s, w64 s.now] ∧ t = putOut (takeMsg s m) m [replyHead 0x84 (msgTag s m), healthWord s, w64 s.now])) = true :=
  ⟨message up 0 1 [4], 0, by decide +kernel⟩

theorem test_malformed_message_refused : ∃ (s : State) (m : Nat), (mbxServed s m = true) ∧ (msgWellFormed s m = false) ∧ ((mbx s m).outFull = false) ∧ answered (exec (.malformedMessage m) s) (fun t => decide ((mbx t m).inFull = false ∧ (mbx t m).outQ = [replyHead 0x83 (msgTag s m), 0, statusReason 3 0x0107] ∧ t = putOut (takeMsg s m) m [replyHead 0x83 (msgTag s m), 0, statusReason 3 0x0107])) = true :=
  ⟨message up 5 1 [9], 5, by decide +kernel⟩

theorem test_program_accept : ∃ (s : State) (m : Nat) (g : StagedProg), (working s = true) ∧ ((s.cc.staged.find? fun g => decide (g.mailbox = m)) = some g) ∧ (g.bulkOff = none) ∧ ((mbx s m).outFull = false) ∧ answered (exec (.programAccept m) s) (fun t => decide (t.cc.staged = s.cc.staged.erase g ∧ t.lv.nextSeq = s.lv.nextSeq + 1 ∧ t.lv.lastSeq = s.lv.nextSeq ∧ t.lv.recs = s.lv.recs ++ [{ seq := s.lv.nextSeq, kind := .program, entries := progEntries g.image.length, part := g.part, comp := g.comp, mailbox := m, priv := g.priv, tag := g.tag, length := g.image.length, body := g.image, accepted := s.now, seg := t.lv.openSeg }] ∧ (mbx t m).outQ = [replyHead 0x81 g.tag, w64 s.lv.nextSeq, 0] ∧ t = putOut (stageRecord { s with cc := { s.cc with staged := (s.cc.staged.erase g) } } { kind := .program, entries := progEntries g.image.length, part := g.part, comp := g.comp, mailbox := m, priv := g.priv, tag := g.tag, length := g.image.length, body := g.image }) m [replyHead 0x81 g.tag, w64 s.lv.nextSeq, 0])) = true :=
  ⟨{ up with cc := { up.cc with staged := [{ mailbox := 7, tag := 2, priv := 1, image := [0, 0, 0, 0, 0, 0, 0, 0] }] } }, 7, { mailbox := 7, tag := 2, priv := 1, image := [0, 0, 0, 0, 0, 0, 0, 0] }, by decide +kernel⟩

theorem test_program_accept_bulk : ∃ (s : State) (m o : Nat) (g : StagedProg), (working s = true) ∧ ((s.cc.staged.find? fun g => decide (g.mailbox = m)) = some g) ∧ (g.bulkOff = some o) ∧ answered (exec (.programAccept m) s) (fun t => decide (t = postOut (flipPages (stageRecord { s with cc := { s.cc with staged := (s.cc.staged.erase g) } } { kind := .program, entries := progEntries g.image.length, part := g.part, comp := g.comp, mailbox := m, priv := g.priv, tag := g.tag, length := g.image.length, body := g.image }) o g.image.length) m [replyHead 0x81 g.tag, w64 s.lv.nextSeq, 0])) = true :=
  ⟨{ up with cc := { up.cc with flags := [(0x2C00, 3)], staged := [{ mailbox := 7, tag := 2, priv := 1, image := [0, 0, 0, 0, 0, 0, 0, 0], bulkOff := some 0x2C00000 }] } }, 7, 0x2C00000, { mailbox := 7, tag := 2, priv := 1, image := [0, 0, 0, 0, 0, 0, 0, 0], bulkOff := some 0x2C00000 }, by decide +kernel⟩

theorem test_program_take : ∃ (s : State) (cs p : Nat) (r : JRec), (working s = true) ∧ (cs < 9) ∧ ((ctl s cs).state = 0) ∧ (stagingWaits s = false) ∧ (startsBarred s = false) ∧ (nextPart s = some p) ∧ (oldest (waitingProgs s p) = some r) ∧ (r.priv = 1 ∨ (fenced s r.comp = false ∧ (comp s r.comp).state ≠ 0 ∧ (comp s r.comp).state ≠ 4)) ∧ answered (exec (.programTake cs) s) (fun t => decide (ctl t cs = { state := 1, seqNo := r.seq, part := r.part, priv := r.priv, comp := r.comp, mailbox := r.mailbox, tag := r.tag, image := r.body, s := sPut [] 6 (w64 r.seq), started := s.now } ∧ t.cc.rrPart = (p + 1) % 16 ∧ t = setCtl { markStarted s r.seq with cc := { s.cc with rrPart := (p + 1) % 16 } } cs { state := 1, seqNo := r.seq, part := r.part, priv := r.priv, comp := r.comp, mailbox := r.mailbox, tag := r.tag, image := r.body, s := sPut [] 6 (w64 r.seq), started := s.now })) = true :=
  ⟨{ up with lv := { up.lv with recs := [{ seq := 4, kind := .program, part := 3, priv := 1, body := [0, 0, 0, 0, 0, 0, 0, 0] }], nextSeq := 5 } }, 0, 3, { seq := 4, kind := .program, part := 3, priv := 1, body := [0, 0, 0, 0, 0, 0, 0, 0] }, by decide +kernel⟩

theorem test_watchdog_expiry : ∃ (s : State) (cs : Nat), (working s = true) ∧ (cs < 9) ∧ ((ctl s cs).state = 1) ∧ ((ctl s cs).started + s.cc.wdog * 1000 ≤ s.now) ∧ ((ctl s cs).wait = .none) ∧ ((ctl s cs).leave = false) ∧ (s.ph.partDue = []) ∧ ((mbx s (ctl s cs).mailbox).outFull = false) ∧ answered (exec (.watchdogExpiry cs) s) (fun t => decide ((ctl t cs).state = 0 ∧ (mbx t (ctl s cs).mailbox).outQ = [replyHead 0x82 (ctl s cs).tag, w64 (ctl s cs).seqNo, statusReason 0x0E (fld (sGet (ctl s cs).s 31) 0 16), w64 s.now] ∧ t = progEnd s cs 0x0E (fld (sGet (ctl s cs).s 31) 0 16))) = true :=
  ⟨oldProg { up with now := 10000000 }, 2, by decide +kernel⟩

theorem test_mgmt_core_failover : ∃ (s : State) (core : Nat), (core < 5) ∧ answered (exec (.mgmtCoreFailover core) s) (fun t => decide (t = unpend { s with cc := { s.cc with mgmtFailed := (s.cc.mgmtFailed|||2^core) } } (8 * 256 + core))) = true :=
  ⟨up, 4, by decide +kernel⟩

theorem test_comp_create : ∃ (s : State) (cs : Nat) (d : List W64), (Presents s cs 0x82 d) ∧ (stampPast s (stampKey okComp (df d 0 0 12)) (ctl s cs) = false) ∧ (createReason s d = 0) ∧ answered (exec (.compCreate cs) s) (fun t => decide (Completed s t cs 0 ∧ comp t (df d 0 0 12) = { state := 1, status := { enabled := true }, tenant := df d 0 48 16, resv := df d 2 0 16, part := df d 0 16 4, fatal := decide (df d 0 24 1 = 1), cto := (if df d 1 0 17 = 0 then 50 else df d 1 0 17), mperiod := (if df d 1 32 16 = 0 then 1000 else df d 1 32 16), meter := { start := s.now } } ∧ (fenceOf t (df d 0 0 12)).comp = false ∧ (fenceOf t (df d 0 0 12)).reason = 0 ∧ t = ctlComplete { s with te := { s.te with fences := tput {} s.te.fences (df d 0 0 12) { tget {} s.te.fences (df d 0 0 12) with comp := (tget {} t.te.fences (df d 0 0 12)).comp, reason := (tget {} t.te.fences (df d 0 0 12)).reason } }, tr := { s.tr with comps := tput {} s.tr.comps (df d 0 0 12) (tget {} t.tr.comps (df d 0 0 12)) } } cs 0 none (some (stampKey okComp (df d 0 0 12))) 64)) = true :=
  ⟨prog { up with ie := { up.ie with tenants := [(1, { status := { enabled := true }, id := 7 })] } } 0x82 [w64 (5 + 3 * 2 ^ 16 + 7 * 2 ^ 48), 0, 0, 0], 0, [w64 (5 + 3 * 2 ^ 16 + 7 * 2 ^ 48), 0, 0, 0], by decide +kernel⟩

theorem test_comp_create_refused : ∃ (s : State) (cs : Nat) (d : List W64), (Presents s cs 0x82 d) ∧ (stampPast s (stampKey okComp (df d 0 0 12)) (ctl s cs) = false) ∧ (createReason s d ≠ 0) ∧ answered (exec (.compCreate cs) s) (fun t => decide (Completed s t cs (createReason s d) ∧ comp t (df d 0 0 12) = { comp s (df d 0 0 12) with status := refused (comp s (df d 0 0 12)).status (createReason s d) } ∧ t = ctlComplete { s with tr := { s.tr with comps := tput {} s.tr.comps (df d 0 0 12) (tget {} t.tr.comps (df d 0 0 12)) } } cs (createReason s d) none none 64)) = true :=
  ⟨prog up 0x82 [w64 (5 + 3 * 2 ^ 16 + 7 * 2 ^ 48), 0, 0, 0], 0, [w64 (5 + 3 * 2 ^ 16 + 7 * 2 ^ 48), 0, 0, 0], by decide +kernel⟩

theorem test_map_set_route : ∃ (s : State) (cs : Nat) (d : List W64), (Presents s cs 0x80 d) ∧ (df d 0 0 2 = 0) ∧ (df d 0 2 1 = 0) ∧ (stampPast s (stampKey okRoute (df d 0 48 12)) (ctl s cs) = false) ∧ (mapSetReason s d = 0) ∧ answered (exec (.mapSetRoute cs) s) (fun t => decide (Completed s t cs 0 ∧ (route t (df d 0 48 12)).present = true ∧ (route t (df d 0 48 12)).ports = mapPorts d ∧ (route t (df d 0 48 12)).epoch = ((route s (df d 0 48 12)).epoch + 1) % 256 ∧ t = ctlComplete (changeRoute s (df d 0 48 12) true (mapPorts d)) cs 0 none (some (stampKey okRoute (df d 0 48 12))) 64)) = true :=
  ⟨prog up 0x80 [w64 (9 * 2 ^ 48), 0, 4, 1, 0, 0, 0, 0], 0, [w64 (9 * 2 ^ 48), 0, 4, 1, 0, 0, 0, 0], by decide +kernel⟩

theorem test_map_set_member : ∃ (s : State) (cs : Nat) (d : List W64), (Presents s cs 0x80 d) ∧ (df d 0 0 2 = 1) ∧ (stampPast s (stampKey okMap (df d 0 32 12)) (ctl s cs) = false) ∧ (mapSetReason s d = 0) ∧ answered (exec (.mapSetMember cs) s) (fun t => decide (Completed s t cs 0 ∧ (comp t (df d 0 32 12)).prep = some { prepared (comp s (df d 0 32 12)) with members := mapEntry (prepared (comp s (df d 0 32 12))).members (decide (df d 0 2 1 = 1)) (df d 1 0 16) } ∧ t = ctlComplete { s with tr := { s.tr with comps := tput {} s.tr.comps (df d 0 32 12) { tget {} s.tr.comps (df d 0 32 12) with prep := (tget {} t.tr.comps (df d 0 32 12)).prep } } } cs 0 none (some (stampKey okMap (df d 0 32 12))) 64)) = true :=
  ⟨prog { up with tr := { up.tr with comps := [(5, { state := 1 })] } } 0x80 [w64 (1 + 5 * 2 ^ 32), 77, 0, 0, 0, 0, 0, 0], 0, [w64 (1 + 5 * 2 ^ 32), 77, 0, 0, 0, 0, 0, 0], by decide +kernel⟩

theorem test_map_set_span : ∃ (s : State) (cs : Nat) (d : List W64), (Presents s cs 0x80 d) ∧ (df d 0 0 2 = 2) ∧ (stampPast s (stampKey okMap (df d 0 32 12)) (ctl s cs) = false) ∧ (mapSetReason s d = 0) ∧ answered (exec (.mapSetSpan cs) s) (fun t => decide (Completed s t cs 0 ∧ (comp t (df d 0 32 12)).prep = some { prepared (comp s (df d 0 32 12)) with span := mapEntry (prepared (comp s (df d 0 32 12))).span (decide (df d 0 2 1 = 1)) (df d 0 48 12) } ∧ t = ctlComplete { s with tr := { s.tr with comps := tput {} s.tr.comps (df d 0 32 12) { tget {} s.tr.comps (df d 0 32 12) with prep := (tget {} t.tr.comps (df d 0 32 12)).prep } } } cs 0 none (some (stampKey okMap (df d 0 32 12))) 64)) = true :=
  ⟨prog { up with tr := { up.tr with comps := [(5, { state := 1 })] } } 0x80 [w64 (2 + 5 * 2 ^ 32 + 9 * 2 ^ 48), 0, 0, 0, 0, 0, 0, 0], 0, [w64 (2 + 5 * 2 ^ 32 + 9 * 2 ^ 48), 0, 0, 0, 0, 0, 0, 0], by decide +kernel⟩

theorem test_map_epoch : ∃ (s : State) (cs : Nat) (d : List W64), (Presents s cs 0x81 d) ∧ (stampPast s (stampKey okComp (df d 0 0 12)) (ctl s cs) = false) ∧ (reaches (ctl s cs) (df d 0 0 12) = true) ∧ ((comp s (df d 0 0 12)).closing = false) ∧ (reservedSet d [fmask 0 12, 0, 0, 0] = false) ∧ ((comp s (df d 0 0 12)).state = 1 ∨ (comp s (df d 0 0 12)).state = 2) ∧ ((comp s (df d 0 0 12)).prevLive = false) ∧ answered (exec (.mapEpoch cs) s) (fun t => decide (Completed s t cs 0 ∧ (comp t (df d 0 0 12)).current = ((comp s (df d 0 0 12)).current + 1) % 256 ∧ (comp t (df d 0 0 12)).cur = prepared (comp s (df d 0 0 12)) ∧ (comp t (df d 0 0 12)).curLive = true ∧ (comp t (df d 0 0 12)).prep = none ∧ (comp t (df d 0 0 12)).state = 2 ∧ (comp t (df d 0 0 12)).previous = (comp s (df d 0 0 12)).current ∧ t = ctlComplete (rotateEpoch s (df d 0 0 12)) cs 0 none (some (stampKey okComp (df d 0 0 12))) 64)) = true :=
  ⟨prog { up with tr := { up.tr with comps := [(5, { state := 1, prep := some { members := [77], span := [0] } })] } } 0x81 [5, 0, 0, 0], 0, [5, 0, 0, 0], by decide +kernel⟩

theorem test_map_epoch_waits : ∃ (s : State) (cs : Nat) (d : List W64), (Presents s cs 0x81 d) ∧ (stampPast s (stampKey okComp (df d 0 0 12)) (ctl s cs) = false) ∧ (reaches (ctl s cs) (df d 0 0 12) = true) ∧ ((comp s (df d 0 0 12)).closing = false) ∧ (reservedSet d [fmask 0 12, 0, 0, 0] = false) ∧ ((comp s (df d 0 0 12)).state = 2) ∧ ((comp s (df d 0 0 12)).prevLive = true) ∧ (epochBusy s (df d 0 0 12) (comp s (df d 0 0 12)).previous = true) ∧ answered (exec (.mapEpoch cs) s) (fun t => decide ((ctl t cs).wait = .epochDrain (df d 0 0 12) ∧ (comp t (df d 0 0 12)).closing = true ∧ t = setCtl { s with tr := { s.tr with comps := tput {} s.tr.comps (df d 0 0 12) { tget {} s.tr.comps (df d 0 0 12) with closing := (tget {} t.tr.comps (df d 0 0 12)).closing } } } cs { ctl s cs with wait := .epochDrain (df d 0 0 12) })) = true :=
  ⟨prog { up with tr := { up.tr with comps := [(5, { state := 2, prevLive := true, previous := 4 })] }, te := { up.te with outst := [{ frame := { comp := 5, mapE := 4 } }] } } 0x81 [5, 0, 0, 0], 0, [5, 0, 0, 0], by decide +kernel⟩

theorem test_map_epoch_drained : ∃ (s : State) (cs c : Nat), (working s = true) ∧ (cs < 9) ∧ ((ctl s cs).wait = .epochDrain c) ∧ (epochBusy s c (comp s c).previous = false) ∧ answered (exec (.mapEpochDrained cs) s) (fun t => decide (Completed s t cs 0 ∧ (comp t c).current = ((comp s c).current + 1) % 256 ∧ (comp t c).cur = prepared (comp s c) ∧ (comp t c).closing = false ∧ t = ctlComplete (rotateEpoch s c) cs 0 none (some (stampKey okComp c)) 64)) = true :=
  ⟨setCtl { up with tr := { up.tr with comps := [(5, { state := 2, prevLive := true, closing := true, current := 255 })] } } 0 { state := 1, priv := 1, wait := .epochDrain 5 }, 0, 5, by decide +kernel⟩

theorem test_comp_destroy : ∃ (s : State) (cs : Nat) (d : List W64), (Presents s cs 0x83 d) ∧ (stampPast s (stampKey okComp (df d 0 0 12)) (ctl s cs) = false) ∧ (reservedSet d [fmask 0 12, 0, 0, 0] = false) ∧ ((comp s (df d 0 0 12)).state = 1 ∨ (comp s (df d 0 0 12)).state = 2 ∨ (comp s (df d 0 0 12)).state = 3) ∧ ((ctl s cs).priv = 1) ∧ answered (exec (.compDestroy cs) s) (fun t => decide (Completed s t cs 0 ∧ (comp t (df d 0 0 12)).state = 4 ∧ fenced t (df d 0 0 12) = true ∧ t = ctlComplete (destroyComp s (df d 0 0 12)) cs 0 none (some (stampKey okComp (df d 0 0 12))) 64)) = true :=
  ⟨prog { up with tr := { up.tr with comps := [(5, { state := 2 })] } } 0x83 [5, 0, 0, 0], 0, [5, 0, 0, 0], by decide +kernel⟩

theorem test_comp_destroy_end : ∃ (s : State) (c : Nat), (working s = true) ∧ ((comp s c).state = 4) ∧ (destroyDone s c = true) ∧ (backlogFull s = false) ∧ answered (exec (.compDestroyEnd c) s) (fun t => decide (comp t c = {} ∧ (fenceOf t c).missing = ((coll s (scopeKey c 0 0)).missing ++ (coll s (scopeKey c 0 0)).markers.map (·.1)).eraseDups.length)) = true :=
  ⟨{ up with cc := { up.cc with bootDone := false }, tr := { up.tr with comps := [(5, { state := 4 })] }, now := 10000000 }, 5, by decide +kernel⟩

theorem test_ext_grant : ∃ (s : State) (cs : Nat) (d : List W64), (Presents s cs 0x84 d) ∧ (stampPast s (stampKey okExtent (df d 0 0 18)) (ctl s cs) = false) ∧ (grantReason s d = 0) ∧ ((ext s (df d 0 0 18)).state = 0) ∧ answered (exec (.extGrant cs) s) (fun t => decide (Completed s t cs 0 ∧ ext t (df d 0 0 18) = grantedExt d ∧ (∀ kv ∈ t.tr.tmap, ¬((grantedExt d).base / grainB ≤ kv.1 ∧ kv.1 < (grantedExt d).base / grainB + (grantedExt d).grains)) ∧ t = ctlComplete (grantExt s d) cs 0 none (some (stampKey okExtent (df d 0 0 18))) 64)) = true :=
  ⟨prog { up with ie := { up.ie with slots := [(3, { state := 1, owner := 7, comp := 5 })] }, tr := { up.tr with comps := [(5, { state := 2 })], tmap := [(4, { loc := 2 })] } } 0x84 [w64 (2 + 5 * 2 ^ 20 + 7 * 2 ^ 32 + 3 * 2 ^ 48), w64 (4 * 2 ^ 21 + 0xFF * 2 ^ 48 + 0xFF * 2 ^ 56), 2, 0], 0, [w64 (2 + 5 * 2 ^ 20 + 7 * 2 ^ 32 + 3 * 2 ^ 48), w64 (4 * 2 ^ 21 + 0xFF * 2 ^ 48 + 0xFF * 2 ^ 56), 2, 0], by decide +kernel⟩

theorem test_ext_revoke : ∃ (s : State) (cs : Nat) (d : List W64), (Presents s cs 0x85 d) ∧ (stampPast s (stampKey okExtent (df d 0 0 18)) (ctl s cs) = false) ∧ ((ext s (df d 0 0 18)).state = 1) ∧ ((ext s (df d 0 0 18)).comp = df d 0 20 12) ∧ (reservedSet d [fmask 0 18 + fmask 20 12, 0, 0, 0] = false) ∧ ((comp s (df d 0 20 12)).state ≠ 0) ∧ answered (exec (.extRevoke cs) s) (fun t => decide (Completed s t cs 0 ∧ ext t (df d 0 0 18) = { ext s (df d 0 0 18) with state := 2, status := { (ext s (df d 0 0 18)).status with enabled := false, draining := true, reason := 0 } } ∧ t = ctlComplete (revokeExt s (df d 0 0 18)) cs 0 none (some (stampKey okExtent (df d 0 0 18))) 64)) = true :=
  ⟨prog { up with tr := { up.tr with comps := [(5, { state := 2 })], exts := [(2, { state := 1, comp := 5, grains := 1 })] } } 0x85 [w64 (2 + 5 * 2 ^ 20), 0, 0, 0], 0, [w64 (2 + 5 * 2 ^ 20), 0, 0, 0], by decide +kernel⟩

theorem test_extent_drain_end : ∃ (s : State) (x : Nat), (working s = true) ∧ ((ext s x).state = 2) ∧ (extBusy s x = false) ∧ answered (exec (.extentDrainEnd x) s) (fun t => decide (ext t x = { ext s x with state := 3, status := { (ext s x).status with draining := false } } ∧ t = stateRecord { s with tr := { s.tr with exts := tput {} s.tr.exts (x) (tget {} t.tr.exts (x)) } } 32)) = true :=
  ⟨{ up with tr := { up.tr with exts := [(262143, { state := 2, grains := 1 })] } }, 262143, by decide +kernel⟩

theorem test_commit_region : ∃ (s : State) (cs : Nat) (d : List W64), (Presents s cs 0xF0 d) ∧ (enableOf d = true) ∧ (Fresh s cs 0xF0 (stampKey okRegion (df d 0 0 16))) ∧ (regionReason s d = 0) ∧ answered (exec (.commitRegion cs) s) (fun t => decide (Committed s t cs 0 (regionWord (regionOf s d)) ∧ region t (df d 0 0 16) = regionOf s d ∧ t = ctlComplete (grantCommit { s with tr := { s.tr with regions := tput {} s.tr.regions (df d 0 0 16) (tget {} t.tr.regions (df d 0 0 16)) } } cs 0xF0 ((stampKey okRegion (df d 0 0 16)))) cs 0 (some (regionWord (regionOf s d))) (some (stampKey okRegion (df d 0 0 16))) 64)) = true :=
  ⟨prog { up with tr := { up.tr with comps := [(5, { state := 2 })], exts := [(2, { state := 1, comp := 5, grains := 1, base := 0x200000 })] } } 0xF0 [w64 (65279 + 5 * 2 ^ 16), 0x200000, 32, w64 (1 + 2 * 2 ^ 18)], 0, [w64 (65279 + 5 * 2 ^ 16), 0x200000, 32, w64 (1 + 2 * 2 ^ 18)], by decide +kernel⟩

theorem test_commit_region_disable : ∃ (s : State) (cs : Nat) (d : List W64), (Presents s cs 0xF0 d) ∧ (enableOf d = false) ∧ (Fresh s cs 0xF0 (stampKey okRegion (df d 0 0 16))) ∧ (df d 0 0 16 ≤ 65279) ∧ answered (exec (.commitRegion cs) s) (fun t => decide (Completed s t cs 0 ∧ (region t (df d 0 0 16)).status = { (region s (df d 0 0 16)).status with enabled := false, reason := 0 } ∧ t = ctlComplete (grantCommit { s with tr := { s.tr with regions := tput {} s.tr.regions (df d 0 0 16) { tget {} s.tr.regions (df d 0 0 16) with status := (tget {} t.tr.regions (df d 0 0 16)).status } } } cs 0xF0 ((stampKey okRegion (df d 0 0 16)))) cs 0 (some (regionWord (region t (df d 0 0 16)))) (some (stampKey okRegion (df d 0 0 16))) 64)) = true :=
  ⟨prog { up with tr := { up.tr with regions := [(4, { status := { enabled := true } })] } } 0xF0 [4, 0, 0, 0], 0, [4, 0, 0, 0], by decide +kernel⟩

theorem test_commit_placement : ∃ (s : State) (cs : Nat) (d : List W64), (Presents s cs 0xF1 d) ∧ (enableOf d = true) ∧ (Fresh s cs 0xF1 (stampKey okPlacement (df d 0 0 18))) ∧ (placeReason s (ctl s cs) d = 0) ∧ (¬(df d 0 48 2 = 0 ∧ df d 0 50 1 = 0)) ∧ answered (exec (.commitPlacement cs) s) (fun t => decide (Completed s t cs 0 ∧ (ext t (df d 0 0 18)).cls = df d 0 48 2 ∧ (ext t (df d 0 0 18)).pin = df d 0 50 1 ∧ (ext t (df d 0 0 18)).status = { (ext s (df d 0 0 18)).status with reason := 0 } ∧ t = ctlComplete (grantCommit { s with tr := { s.tr with exts := tput {} s.tr.exts (df d 0 0 18) { tget {} s.tr.exts (df d 0 0 18) with cls := (tget {} t.tr.exts (df d 0 0 18)).cls, pin := (tget {} t.tr.exts (df d 0 0 18)).pin, status := (tget {} t.tr.exts (df d 0 0 18)).status }, reserved := (unreserve s (df d 0 0 18)).tr.reserved } } cs 0xF1 ((stampKey okPlacement (df d 0 0 18)))) cs 0 (some (extWord t (df d 0 0 18))) (some (stampKey okPlacement (df d 0 0 18))) 64)) = true :=
  ⟨prog { up with tr := { up.tr with comps := [(5, { state := 2 })], exts := [(2, { state := 1, comp := 5, grains := 1 })] } } 0xF1 [w64 (2 + 5 * 2 ^ 32 + 3 * 2 ^ 48), 0, 0, 1], 0, [w64 (2 + 5 * 2 ^ 32 + 3 * 2 ^ 48), 0, 0, 1], by decide +kernel⟩

theorem test_commit_placement_hbm : ∃ (s : State) (cs : Nat) (d : List W64), (Presents s cs 0xF1 d) ∧ (enableOf d = true) ∧ (Fresh s cs 0xF1 (stampKey okPlacement (df d 0 0 18))) ∧ (placeReason s (ctl s cs) d = 0) ∧ (df d 0 48 2 = 0) ∧ (df d 0 50 1 = 0) ∧ answered (exec (.commitPlacement cs) s) (fun t => decide (Completed s t cs 0 ∧ ext t (df d 0 0 18) = { ext s (df d 0 0 18) with cls := 0, pin := 0, status := { (ext s (df d 0 0 18)).status with reason := 0 } } ∧ t = ctlComplete (grantCommit (reserveFrames (unreserve { s with tr := { s.tr with exts := tput {} s.tr.exts (df d 0 0 18) (tget {} t.tr.exts (df d 0 0 18)) } } (df d 0 0 18)) (comp s (ext s (df d 0 0 18)).comp).tenant (df d 0 0 18) ((ext s (df d 0 0 18)).grains - extCopies s (ext s (df d 0 0 18)))) cs 0xF1 ((stampKey okPlacement (df d 0 0 18)))) cs 0 (some (extWord t (df d 0 0 18))) (some (stampKey okPlacement (df d 0 0 18))) 32)) = true :=
  ⟨prog { up with ie := { up.ie with pch := [(14, { state := 2 })] }, tr := { up.tr with comps := [(5, { state := 2 })], exts := [(2, { state := 1, comp := 5, grains := 1, bport := 3 })] } } 0xF1 [w64 (2 + 5 * 2 ^ 32), 0, 0, 1], 0, [w64 (2 + 5 * 2 ^ 32), 0, 0, 1], by decide +kernel⟩

theorem test_commit_fdtag : ∃ (s : State) (cs : Nat) (d : List W64), (Presents s cs 0xF2 d) ∧ (enableOf d = true) ∧ (Fresh s cs 0xF2 (stampKey okFdTag (fdKey d))) ∧ (df d 0 0 2 = 2 ∨ (df d 0 0 2 < 2 ∧ df d 0 8 8 ≤ 191)) ∧ (reservedSet d [fmask 0 2 + fmask 8 8, fmask 0 32, 0, 1] = false) ∧ answered (exec (.commitFdtag cs) s) (fun t => decide (Committed s t cs 0 1 ∧ tget {} t.tr.fdtags (fdKey d) = { tag := df d 1 0 32, status := { enabled := true } } ∧ t = ctlComplete (grantCommit { s with tr := { s.tr with fdtags := tput {} s.tr.fdtags (fdKey d) (tget {} t.tr.fdtags (fdKey d)) } } cs 0xF2 ((stampKey okFdTag (fdKey d)))) cs 0 (some 1) (some (stampKey okFdTag (fdKey d))) 64)) = true :=
  ⟨prog up 0xF2 [w64 (1 + 191 * 256), 0x1234, 0, 1], 0, [w64 (1 + 191 * 256), 0x1234, 0, 1], by decide +kernel⟩

theorem test_meter_period_end : ∃ (s : State) (c : Nat), (working s = true) ∧ ((comp s c).state ≠ 0) ∧ ((comp s c).meter.start + (comp s c).mperiod * 1000000 ≤ s.now) ∧ (backlogFull s = false) ∧ answered (exec (.meterPeriodEnd c) s) (fun t => decide (comp t c = { comp s c with meter := { recNo := (comp s c).meter.recNo + 1, start := s.now } })) = true :=
  ⟨{ up with cc := { up.cc with bootDone := false }, tr := { up.tr with comps := [(5, { state := 2, mperiod := 1 })] }, now := 1000000 }, 5, by decide +kernel⟩

theorem test_meter_read : ∃ (s : State) (cs : Nat) (d : List W64), (Presents s cs 0x93 d) ∧ (stampPast s (stampKey okMeterRec (df d 0 0 12)) (ctl s cs) = false) ∧ (reaches (ctl s cs) (df d 0 0 12) = true) ∧ (reservedSet d [fmask 0 12, 0, 0, 0] = false) ∧ ((comp s (df d 0 0 12)).state ≠ 0) ∧ (backlogFull s = false) ∧ answered (exec (.meterRead cs) s) (fun t => decide (Completed s t cs 0 ∧ comp t (df d 0 0 12) = { comp s (df d 0 0 12) with meter := { recNo := (comp s (df d 0 0 12)).meter.recNo + 1, start := s.now } })) = true :=
  ⟨prog { up with cc := { up.cc with bootDone := false }, tr := { up.tr with comps := [(5, { state := 2 })] } } 0x93 [5, 0, 0, 0], 0, [5, 0, 0, 0], by decide +kernel⟩

theorem test_meter_backlog_write : ∃ (s : State) (ws : List W64) (tl : List (List W64)), (mainUp s = true) ∧ (s.cc.bootDone = true) ∧ ((ring s 18).held = ws :: tl) ∧ (ringFull (ring s 18) = false) ∧ answered (exec (.meterBacklogWrite) s) (fun t => decide ((ring t 18).held = tl ∧ (ring t 18).prod = (ring s 18).prod + 1 ∧ (ring t 18).copies = (ring s 18).copies ++ [ws] ∧ t = ringPut { s with cc := { s.cc with rings := tput {} s.cc.rings (18) { tget {} s.cc.rings (18) with held := (tget {} t.cc.rings (18)).held } } } 18 ws)) = true :=
  ⟨{ up with cc := { up.cc with rings := [(18, { base := 0x1C00000, held := [[7]] })] } }, [7], [], by decide +kernel⟩

theorem test_fence_comp : ∃ (s : State) (cs : Nat) (d : List W64), (Presents s cs 0x8B d) ∧ (df d 0 16 2 = 0) ∧ (fenceReason s (ctl s cs) d = 0) ∧ ((ctl s cs).priv = 1) ∧ (stampPast s (fenceKey (df d 0 0 12) 0 0) (ctl s cs) = false) ∧ (collDone (coll (fenceStart s cs (df d 0 0 12) 0 0 (df d 1 0 32)) (scopeKey (df d 0 0 12) 0 0)) = true) ∧ answered (exec (.fenceComp cs) s) (fun t => decide (Completed s t cs 0 ∧ fenced t (df d 0 0 12) = true ∧ t = ctlComplete (dropWaiter (fenceStart s cs (df d 0 0 12) 0 0 (df d 1 0 32)) (scopeKey (df d 0 0 12) 0 0) cs) cs 0 none (some (fenceKey (df d 0 0 12) 0 0)) 64)) = true :=
  ⟨prog { up with tr := { up.tr with comps := [(5, { state := 2 })] } } 0x8B [5, 0, 0, 0], 0, [5, 0, 0, 0], by decide +kernel⟩

theorem test_fence_comp_own : ∃ (s : State) (cs : Nat) (d : List W64), (Presents s cs 0x8B d) ∧ (df d 0 16 2 = 0) ∧ (stampPast s (fenceKey (df d 0 0 12) 0 0) (ctl s cs) = false) ∧ (fenceReason s (ctl s cs) d = 0) ∧ ((ctl s cs).priv = 2) ∧ (collDone (coll (fenceStart s cs (df d 0 0 12) 0 0 (df d 1 0 32)) (scopeKey (df d 0 0 12) 0 0)) = true) ∧ (inOtherFence s cs (df d 0 0 12) = false) ∧ answered (exec (.fenceComp cs) s) (fun t => decide ((ctl t cs).state = 0 ∧ fenced t (df d 0 0 12) = true ∧ t = progEnd (dropWaiter (fenceStart s cs (df d 0 0 12) 0 0 (df d 1 0 32)) (scopeKey (df d 0 0 12) 0 0) cs) cs 9 0)) = true :=
  ⟨progRt { up with tr := { up.tr with comps := [(5, { state := 2 })] } } 5 0x8B [5, 0, 0, 0], 0, [5, 0, 0, 0], by decide +kernel⟩

theorem test_fence_refused : ∃ (s : State) (cs : Nat) (d : List W64), (Presents s cs 0x8B d) ∧ (df d 0 16 2 = 0) ∧ (stampPast s (fenceKey (df d 0 0 12) 0 0) (ctl s cs) = false) ∧ (fenceReason s (ctl s cs) d ≠ 0) ∧ answered (exec (.fenceComp cs) s) (fun t => decide (Completed s t cs (fenceReason s (ctl s cs) d) ∧ (fenceOf t (df d 0 0 12)).reason = fenceReason s (ctl s cs) d ∧ t = ctlComplete { s with te := { s.te with fences := tput {} s.te.fences (df d 0 0 12) { tget {} s.te.fences (df d 0 0 12) with reason := (tget {} t.te.fences (df d 0 0 12)).reason } } } cs (fenceReason s (ctl s cs) d) none none 64)) = true :=
  ⟨prog { up with tr := { up.tr with comps := [(5, { state := 2 })] } } 0x8B [5, 9, 0, 0], 0, [5, 9, 0, 0], by decide +kernel⟩

theorem test_fence_comp_probes : ∃ (s : State) (cs sw : Nat) (d : List W64), (Presents s cs 0x8B d) ∧ (df d 0 16 2 = 0) ∧ (fenceReason s (ctl s cs) d = 0) ∧ ((ctl s cs).priv = 1) ∧ (spanOf s (df d 0 0 12) = [sw]) ∧ (coll s (scopeKey (df d 0 0 12) 0 0) = {}) ∧ (stampPast s (fenceKey (df d 0 0 12) 0 0) (ctl s cs) = false) ∧ answered (exec (.fenceComp cs) s) (fun t => decide ((ctl t cs).wait = .fence ∧ fenced t (df d 0 0 12) = true ∧ (coll t (scopeKey (df d 0 0 12) 0 0)).missing = [sw] ∧ t = fenceStart s cs (df d 0 0 12) 0 0 (df d 1 0 32))) = true :=
  ⟨prog { up with tr := { up.tr with comps := [(5, { state := 2, curLive := true, cur := { span := [9] } })] } } 0x8B [5, 0, 0, 0], 0, 9, [5, 0, 0, 0], by decide +kernel⟩

theorem test_fence_peer : ∃ (s : State) (cs : Nat) (d : List W64), (Presents s cs 0x8B d) ∧ (df d 0 16 2 = 1) ∧ (fenceReason s (ctl s cs) d = 0) ∧ ((ctl s cs).priv = 1) ∧ (stampPast s (fenceKey (df d 0 0 12) 1 (df d 0 32 16)) (ctl s cs) = false) ∧ (collDone (coll (fenceStart s cs (df d 0 0 12) 1 (df d 0 32 16) (df d 1 0 32)) (scopeKey (df d 0 0 12) 1 (df d 0 32 16))) = true) ∧ answered (exec (.fencePeer cs) s) (fun t => decide (Completed s t cs 0 ∧ (fenceOf t (df d 0 0 12)).peers.contains (df d 0 32 16) = true ∧ (fenceOf t (df d 0 0 12)).comp = (fenceOf s (df d 0 0 12)).comp ∧ (comp s (df d 0 0 12)).fatal = true → (comp t (df d 0 0 12)).state = 3 ∧ t = ctlComplete (dropWaiter (fenceStart s cs (df d 0 0 12) 1 (df d 0 32 16) (df d 1 0 32)) (scopeKey (df d 0 0 12) 1 (df d 0 32 16)) cs) cs 0 none (some (fenceKey (df d 0 0 12) 1 (df d 0 32 16))) 64)) = true :=
  ⟨prog { up with tr := { up.tr with comps := [(5, { state := 2 })] } } 0x8B [w64 (5 + 2 ^ 16 + 65535 * 2 ^ 32), 0, 0, 0], 0, [w64 (5 + 2 ^ 16 + 65535 * 2 ^ 32), 0, 0, 0], by decide +kernel⟩

theorem test_fence_release_peer : ∃ (s : State) (cs : Nat) (d : List W64), (Presents s cs 0x8B d) ∧ (df d 0 16 2 = 2) ∧ (fenceReason s (ctl s cs) d = 0) ∧ ((ctl s cs).priv = 1) ∧ (stampPast s (fenceKey (df d 0 0 12) 2 (df d 0 32 16)) (ctl s cs) = false) ∧ (collDone (coll (fenceStart s cs (df d 0 0 12) 2 (df d 0 32 16) (df d 1 0 32)) (scopeKey (df d 0 0 12) 2 (df d 0 32 16))) = true) ∧ answered (exec (.fenceReleasePeer cs) s) (fun t => decide (Completed s t cs 0 ∧ (fenceOf t (df d 0 0 12)).peers = (fenceOf s (df d 0 0 12)).peers.filter (· ≠ df d 0 32 16) ∧ t = ctlComplete (dropWaiter (fenceStart s cs (df d 0 0 12) 2 (df d 0 32 16) (df d 1 0 32)) (scopeKey (df d 0 0 12) 2 (df d 0 32 16)) cs) cs 0 none (some (fenceKey (df d 0 0 12) 2 (df d 0 32 16))) 64)) = true :=
  ⟨prog { up with tr := { up.tr with comps := [(5, { state := 2 })] }, te := { up.te with fences := [(5, { peers := [7, 9] })] } } 0x8B [w64 (5 + 2 * 2 ^ 16 + 9 * 2 ^ 32), 0, 0, 0], 0, [w64 (5 + 2 * 2 ^ 16 + 9 * 2 ^ 32), 0, 0, 0], by decide +kernel⟩

theorem test_fence_release_comp : ∃ (s : State) (cs : Nat) (d : List W64), (Presents s cs 0x8B d) ∧ (df d 0 16 2 = 3) ∧ (fenceReason s (ctl s cs) d = 0) ∧ ((ctl s cs).priv = 1) ∧ (stampPast s (fenceKey (df d 0 0 12) 3 0) (ctl s cs) = false) ∧ (collDone (coll (fenceStart s cs (df d 0 0 12) 3 0 (df d 1 0 32)) (scopeKey (df d 0 0 12) 3 0)) = true) ∧ answered (exec (.fenceReleaseComp cs) s) (fun t => decide (Completed s t cs 0 ∧ fenced t (df d 0 0 12) = false ∧ (fenceOf t (df d 0 0 12)).peers = (fenceOf s (df d 0 0 12)).peers ∧ t = ctlComplete (dropWaiter (fenceStart s cs (df d 0 0 12) 3 0 (df d 1 0 32)) (scopeKey (df d 0 0 12) 3 0) cs) cs 0 none (some (fenceKey (df d 0 0 12) 3 0)) 64)) = true :=
  ⟨prog { up with tr := { up.tr with comps := [(5, { state := 2 })] }, te := { up.te with fences := [(5, { comp := true })] } } 0x8B [w64 (5 + 3 * 2 ^ 16), 0, 0, 0], 0, [w64 (5 + 3 * 2 ^ 16), 0, 0, 0], by decide +kernel⟩

theorem test_fence_collected : ∃ (s : State) (cs k deadline : Nat) (x : FenceColl), (working s = true) ∧ ((ctl s cs).wait = .fence) ∧ ((ctl s cs).priv = 1) ∧ (waitedColl s cs = some (k, x, deadline)) ∧ (collDone x = true) ∧ answered (exec (.fenceCollected cs) s) (fun t => decide (Completed s t cs 0 ∧ t = ctlComplete (dropWaiter s k cs) cs 0 none (some (fenceKey (coll (dropWaiter s k cs) k).comp (coll (dropWaiter s k cs) k).kind (coll (dropWaiter s k cs) k).peer)) 64)) = true :=
  ⟨setCtl { up with te := { up.te with colls := [(3, { active := true, waiters := [(0, 5)] })] } } 0 { state := 1, priv := 1, wait := .fence }, 0, 3, 5, { active := true, waiters := [(0, 5)] }, by decide +kernel⟩

theorem test_fence_timeout : ∃ (s : State) (cs k deadline : Nat) (x : FenceColl), (working s = true) ∧ ((ctl s cs).wait = .fence) ∧ ((ctl s cs).priv = 1) ∧ (waitedColl s cs = some (k, x, deadline)) ∧ (collDone x = false) ∧ (deadline ≤ s.now) ∧ answered (exec (.fenceTimeout cs) s) (fun t => decide (Completed s t cs 0x0501 ∧ (fenceOf t x.comp).missing = ((x.missing ++ x.markers.map (·.1)).eraseDups).length ∧ (fenceOf t x.comp).comp = (fenceOf s x.comp).comp ∧ t = ctlFinish (setFence (dropWaiter s k cs) x.comp { fenceOf s x.comp with missing := (fenceOf t x.comp).missing, reason := 0x0501 }) cs 0x0501 none)) = true :=
  ⟨setCtl { up with now := 5, te := { up.te with colls := [(3, { active := true, comp := 5, missing := [9], waiters := [(0, 5)] })] } } 0 { state := 1, priv := 1, wait := .fence }, 0, 3, 5, { active := true, comp := 5, missing := [9], waiters := [(0, 5)] }, by decide +kernel⟩

theorem test_commit_mbxbind : ∃ (s : State) (cs : Nat) (d : List W64), (Presents s cs 0xE5 d) ∧ (enableOf d = true) ∧ (Fresh s cs 0xE5 (stampKey okMbxBind (df d 0 0 6))) ∧ (bindingReason s d = 0) ∧ answered (exec (.commitMbxbind cs) s) (fun t => decide (Committed s t cs 0 (bindWord t (df d 0 0 6)) ∧ mbx t (df d 0 0 6) = { mbx s (df d 0 0 6) with priv := df d 0 8 2, part := (if df d 0 8 2 = 2 then (comp s (df d 0 32 12)).part else df d 0 16 4), comp := df d 0 32 12, bind := { enabled := decide (df d 0 8 2 ≠ 0) } } ∧ t = ctlComplete (grantCommit { s with cc := { s.cc with mbx := tput {} s.cc.mbx (df d 0 0 6) (tget {} t.cc.mbx (df d 0 0 6)) } } cs 0xE5 ((stampKey okMbxBind (df d 0 0 6)))) cs 0 (some (bindWord t (df d 0 0 6))) (some (stampKey okMbxBind (df d 0 0 6))) 64)) = true :=
  ⟨prog up 0xE5 [w64 (63 + 2 ^ 8 + 15 * 2 ^ 16), 0, 0, 1], 0, [w64 (63 + 2 ^ 8 + 15 * 2 ^ 16), 0, 0, 1], by decide +kernel⟩

theorem test_commit_partition_port : ∃ (s : State) (cs : Nat) (d : List W64), (Presents s cs 0xF3 d) ∧ (enableOf d = true) ∧ (df d 0 0 2 = 0) ∧ (Fresh s cs 0xF3 (stampKey okPartition (256 + df d 0 16 8))) ∧ ((port s (df d 0 16 8)).status.enabled = false) ∧ (portUsed s (df d 0 16 8) = false) ∧ (reservedSet d partMasks = false) ∧ (df d 0 16 8 ≤ 191) ∧ ((lcNow s).sealed = false) ∧ answered (exec (.commitPartitionPort cs) s) (fun t => decide (Completed s t cs 0 ∧ port t (df d 0 16 8) = { port s (df d 0 16 8) with part := df d 0 4 4 } ∧ tget {} t.cc.part (df d 0 4 4) = { tget {} s.cc.part (df d 0 4 4) with reason := 0 } ∧ t = ctlComplete (grantCommit { s with cc := { s.cc with part := tput {} s.cc.part (df d 0 4 4) (tget {} t.cc.part (df d 0 4 4)) }, pc := { s.pc with ports := tput {} s.pc.ports (df d 0 16 8) (tget {} t.pc.ports (df d 0 16 8)) } } cs 0xF3 ((stampKey okPartition (256 + df d 0 16 8)))) cs 0 (some (partWord t (df d 0 4 4))) (some (stampKey okPartition (256 + df d 0 16 8))) 64)) = true :=
  ⟨prog up 0xF3 [w64 (15 * 16 + 191 * 2 ^ 16), 0, 0, 1], 0, [w64 (15 * 16 + 191 * 2 ^ 16), 0, 0, 1], by decide +kernel⟩

theorem test_commit_partition_pch : ∃ (s : State) (cs : Nat) (d : List W64), (Presents s cs 0xF3 d) ∧ (enableOf d = true) ∧ (df d 0 0 2 = 1) ∧ (Fresh s cs 0xF3 (stampKey okPartition (512 + df d 0 16 8))) ∧ (14 ≤ df d 0 16 8) ∧ (df d 0 16 8 ≤ 127) ∧ ((pch s (df d 0 16 8)).state = 1) ∧ (reservedSet d partMasks = false) ∧ ((lcNow s).sealed = false) ∧ answered (exec (.commitPartitionPch cs) s) (fun t => decide (Completed s t cs 0 ∧ pch t (df d 0 16 8) = { pch s (df d 0 16 8) with part := df d 0 4 4 } ∧ tget {} t.cc.part (df d 0 4 4) = { tget {} s.cc.part (df d 0 4 4) with reason := 0 } ∧ t = ctlComplete (grantCommit { s with cc := { s.cc with part := tput {} s.cc.part (df d 0 4 4) (tget {} t.cc.part (df d 0 4 4)) }, ie := { s.ie with pch := tput {} s.ie.pch (df d 0 16 8) (tget {} t.ie.pch (df d 0 16 8)) } } cs 0xF3 ((stampKey okPartition (512 + df d 0 16 8)))) cs 0 (some (partWord t (df d 0 4 4))) (some (stampKey okPartition (512 + df d 0 16 8))) 64)) = true :=
  ⟨prog up 0xF3 [w64 (1 + 15 * 16 + 127 * 2 ^ 16), 0, 0, 1], 0, [w64 (1 + 15 * 16 + 127 * 2 ^ 16), 0, 0, 1], by decide +kernel⟩

theorem test_commit_partition_reset : ∃ (s : State) (cs : Nat) (d : List W64), (Presents s cs 0xF3 d) ∧ (enableOf d = true) ∧ (df d 0 0 2 = 2) ∧ (reservedSet d partMasks = false) ∧ (tget 0 s.cc.partState (df d 0 4 4) = 0) ∧ (Fresh s cs 0xF3 (stampKey okPartition (df d 0 4 4))) ∧ answered (exec (.commitPartitionReset cs) s) (fun t => decide (tget 0 t.cc.partState (df d 0 4 4) = 1 ∧ (∀ q : Fin 68, (seam s q).part = df d 0 4 4 → (seam s q).job.isSome = true → (seam s q).state ≠ 8 → (seam t q).state = 5) ∧ (∀ c : Fin 9, (ctl s c).state = 1 → (ctl s c).part = df d 0 4 4 → (ctl t c).wait = .stopped) ∧ sGet (ctl t cs).s 31 = 0 ∧ tget {} t.cc.part (df d 0 4 4) = { tget {} s.cc.part (df d 0 4 4) with reason := 0 } ∧ t = ctlComplete (resetPart (grantCommit { s with cc := { s.cc with part := tput {} s.cc.part (df d 0 4 4) (tget {} t.cc.part (df d 0 4 4)) } } cs 0xF3 (stampKey okPartition (df d 0 4 4))) (df d 0 4 4)) cs 0 (some (partWord t (df d 0 4 4))) (some (stampKey okPartition (df d 0 4 4))) 64)) = true :=
  ⟨prog { up with sa := { up.sa with seqs := [(3, { state := 3, part := 2, job := some { seq := 1 } })] } } 0xF3 [w64 (2 + 2 * 16), 0, 0, 1], 0, [w64 (2 + 2 * 16), 0, 0, 1], by decide +kernel⟩

theorem test_partition_reset_end : ∃ (s : State) (p : Nat), (working s = true) ∧ (p < 16) ∧ (tget 0 s.cc.partState p = 1) ∧ (partBusy s p = false) ∧ answered (exec (.partitionResetEnd p) s) (fun t => decide (tget 0 t.cc.partState p = 0 ∧ tget 0 t.cc.partResets p = min (tget 0 s.cc.partResets p + 1) 65535 ∧ (∀ q : Fin 68, (seam s q).part = p → (seam t q).mem = []) ∧ t = finishPartReset s p)) = true :=
  ⟨{ up with cc := { up.cc with partState := [(15, 1)] }, sa := { up.sa with seqs := [(3, { part := 15, mem := [(0, 5)] })] } }, 15, by decide +kernel⟩

theorem test_sequencer_stop_timeout : ∃ (s : State) (q since : Nat), (working s = true) ∧ ((seam s q).stopT = some since) ∧ (since + 1000000 ≤ s.now) ∧ ((seam s q).state = 5 ∨ (seam s q).state = 8) ∧ answered (exec (.sequencerStopTimeout (.seq q)) s) (fun t => decide (tget 0 t.cc.partState (seam s q).part ≠ 0 ∧ t = resetPart s (seam s q).part)) = true :=
  ⟨{ up with now := 1000000, sa := { up.sa with seqs := [(3, { state := 5, part := 15, stopT := some 0 })] } }, 3, 0, by decide +kernel⟩

theorem test_control_sequencer_stop_timeout : ∃ (s : State) (cs : Nat), (working s = true) ∧ ((ctl s cs).state = 1) ∧ ((ctl s cs).wait ≠ .stopped) ∧ ((ctl s cs).started + s.cc.wdog * 1000 + 1000000 ≤ s.now) ∧ answered (exec (.sequencerStopTimeout (.ctl cs)) s) (fun t => decide (tget 0 t.cc.partState (ctl s cs).part ≠ 0 ∧ t = resetPart s (ctl s cs).part)) = true :=
  ⟨oldProg { up with now := 11000000 }, 2, by decide +kernel⟩

theorem test_control_sequencer_fail : ∃ (s : State) (cs : Nat), (mainUp s = true) ∧ (cs < 8) ∧ ((ctl s cs).state ≤ 1) ∧ ((ctl s 8).state = 2) ∧ answered (exec (.controlSequencerFail cs) s) (fun t => decide (ctl t cs = {} ∧ (ctl t 8).state = 3 ∧ t.lv.recs = s.lv.recs ∧ t = setCtl (setCtl (unpend (if (ctl s cs).state = 1 then dropProgLeave (abandonWait s cs) cs else s) (9 * 256 + cs)) cs {}) 8 { state := 3 })) = true :=
  ⟨oldProg (setCtl up 8 { state := 2 }), 2, by decide +kernel⟩

theorem test_control_sequencer_fail_last : ∃ (s : State) (cs : Nat), (mainUp s = true) ∧ (cs < 8) ∧ ((ctl s cs).state ≤ 1) ∧ ((ctl s 8).state ≠ 2) ∧ answered (exec (.controlSequencerFail cs) s) (fun t => decide ((ctl t cs).state = 3 ∧ t.lv.recs = s.lv.recs ∧ t = setCtl (unpend (if (ctl s cs).state = 1 then dropProgLeave (abandonWait s cs) cs else s) (9 * 256 + cs)) cs { state := 3 })) = true :=
  ⟨oldProg up, 2, by decide +kernel⟩

theorem test_lease_offer : ∃ (s : State) (cs : Nat) (d : List W64), (Presents s cs 0x8E d) ∧ (leaseOp d = 0) ∧ (stampPast s (stampKey okLease (df d 0 0 8)) (ctl s cs) = false) ∧ (firstFail (offerTests s d) = 0) ∧ answered (exec (.leaseOffer cs) s) (fun t => decide (Completed s t cs 0 ∧ lease t (df d 0 0 8) = { state := 1, peer := df d 0 16 12, medium := df d 0 32 1, grains := df d 2 0 24, base := df d 1 0 48, rkey := df d 2 32 32, notice := df d 3 0 32, frames := offerFrames s d } ∧ t = ctlComplete { s with tr := { s.tr with leases := tput {} s.tr.leases (df d 0 0 8) (tget {} t.tr.leases (df d 0 0 8)), frames := ((offerFrames s d).foldl (fun t f => tput 0 t f (2 ^ 40 + df d 0 0 8)) s.tr.frames) } } cs 0 none (some (stampKey okLease (df d 0 0 8))) 64)) = true :=
  ⟨prog up 0x8E [w64 (255 + 9 * 2 ^ 16 + 2 ^ 32), 0x200000, w64 (4 + 77 * 2 ^ 32), 1000], 0, [w64 (255 + 9 * 2 ^ 16 + 2 ^ 32), 0x200000, w64 (4 + 77 * 2 ^ 32), 1000], by decide +kernel⟩

theorem test_lease_offer_refused : ∃ (s : State) (cs : Nat) (d : List W64), (Presents s cs 0x8E d) ∧ (leaseOp d = 0 ∨ 4 ≤ leaseOp d) ∧ (stampPast s (stampKey okLease (df d 0 0 8)) (ctl s cs) = false) ∧ (firstFail (offerTests s d) ≠ 0) ∧ answered (exec (.leaseOffer cs) s) (fun t => decide (Completed s t cs (firstFail (offerTests s d)) ∧ lease t (df d 0 0 8) = { lease s (df d 0 0 8) with check := firstFail (offerTests s d) } ∧ t = ctlComplete { s with tr := { s.tr with leases := tput {} s.tr.leases (df d 0 0 8) (tget {} t.tr.leases (df d 0 0 8)) } } cs (firstFail (offerTests s d)) none none 64)) = true :=
  ⟨prog up 0x8E [w64 (255 + 9 * 2 ^ 16 + 2 ^ 32), 0x200001, w64 (4 + 77 * 2 ^ 32), 1000], 0, [w64 (255 + 9 * 2 ^ 16 + 2 ^ 32), 0x200001, w64 (4 + 77 * 2 ^ 32), 1000], by decide +kernel⟩

theorem test_lease_accept : ∃ (s : State) (cs : Nat) (d : List W64), (Presents s cs 0x8E d) ∧ (leaseOp d = 1) ∧ (stampPast s (stampKey okLease (df d 0 0 8)) (ctl s cs) = false) ∧ (firstFail (acceptTests s d) = 0) ∧ answered (exec (.leaseAccept cs) s) (fun t => decide ((ctl t cs).wait = .lease (df d 0 0 8) ∧ lease t (df d 0 0 8) = { peer := df d 0 16 12, borrower := true, grains := df d 2 0 24, rkey := df d 2 32 32, tenant := df d 0 48 16, please := df d 0 40 8, waitCs := some cs } ∧ t.te.outst.length = s.te.outst.length + 1 ∧ t = setCtl (leaseMsg (setLease s (df d 0 0 8) (acceptedLease cs d)) (df d 0 0 8) 1 (acceptedLease cs d)) cs { ctl s cs with wait := .lease (df d 0 0 8) })) = true :=
  ⟨prog { up with ie := { up.ie with tenants := [(1, { status := { enabled := true }, id := 7 })] } } 0x8E [w64 (4 + 2 ^ 8 + 9 * 2 ^ 16 + 7 * 2 ^ 48), 0, 4, 0], 0, [w64 (4 + 2 ^ 8 + 9 * 2 ^ 16 + 7 * 2 ^ 48), 0, 4, 0], by decide +kernel⟩

theorem test_lease_recall : ∃ (s : State) (cs : Nat) (d : List W64), (Presents s cs 0x8E d) ∧ (leaseOp d = 2) ∧ (stampPast s (stampKey okLease (df d 0 0 8)) (ctl s cs) = false) ∧ (reservedSet d leaseMasks = false) ∧ ((lease s (df d 0 0 8)).state = 2) ∧ ((lease s (df d 0 0 8)).borrower = false) ∧ answered (exec (.leaseRecall cs) s) (fun t => decide (Completed s t cs 0 ∧ lease t (df d 0 0 8) = { lease s (df d 0 0 8) with check := 0, state := 3, deadline := s.now + (lease s (df d 0 0 8)).notice * 1000 } ∧ t = ctlComplete (leaseMsg { s with tr := { s.tr with leases := tput {} s.tr.leases (df d 0 0 8) (tget {} t.tr.leases (df d 0 0 8)) } } (df d 0 0 8) 2 (lease t (df d 0 0 8))) cs 0 none (some (stampKey okLease (df d 0 0 8))) 64)) = true :=
  ⟨prog { up with tr := { up.tr with leases := [(4, { state := 2, peer := 9, notice := 1000 })] } } 0x8E [w64 (4 + 2 * 2 ^ 8), 0, 0, 0], 0, [w64 (4 + 2 * 2 ^ 8), 0, 0, 0], by decide +kernel⟩

theorem test_lease_return : ∃ (s : State) (cs : Nat) (d : List W64), (Presents s cs 0x8E d) ∧ (leaseOp d = 3) ∧ (stampPast s (stampKey okLease (df d 0 0 8)) (ctl s cs) = false) ∧ (reservedSet d leaseMasks = false) ∧ ((lease s (df d 0 0 8)).state = 2) ∧ ((lease s (df d 0 0 8)).borrower = true) ∧ answered (exec (.leaseReturn cs) s) (fun t => decide (Completed s t cs 0 ∧ (lease t (df d 0 0 8)).state = 4 ∧ t = ctlComplete (dropClean (setLease s (df d 0 0 8) { lease s (df d 0 0 8) with check := 0, state := 4 }) (df d 0 0 8)) cs 0 none (some (stampKey okLease (df d 0 0 8))) 64)) = true :=
  ⟨prog { up with tr := { up.tr with leases := [(4, { state := 2, peer := 9, borrower := true })] } } 0x8E [w64 (4 + 3 * 2 ^ 8), 0, 0, 0], 0, [w64 (4 + 3 * 2 ^ 8), 0, 0, 0], by decide +kernel⟩

theorem test_lease_recall_receipt : ∃ (s : State) (n reason notice : Nat), (working s = true) ∧ ((lease s n).state = 2) ∧ ((lease s n).borrower = true) ∧ (leaseCopies s n = []) ∧ answered (exec (.leaseRecallReceipt n reason notice) s) (fun t => decide (lease t n = { lease s n with state := 3, deadline := s.now + notice * 1000, reason := reason } ∧ t = stateRecord (dropClean { s with tr := { s.tr with leases := tput {} s.tr.leases (n) (tget {} t.tr.leases (n)) } } n) 32)) = true :=
  ⟨{ up with tr := { up.tr with leases := [(255, { state := 2, peer := 9, borrower := true })] } }, 255, 1, 1000, by decide +kernel⟩

theorem test_lease_recall_receipt_copy : ∃ (s : State) (n g k e reason notice : Nat), (working s = true) ∧ ((lease s n).state = 2) ∧ ((lease s n).borrower = true) ∧ (leaseCopies s n = [(k, g)]) ∧ (extOf s g = some e) ∧ answered (exec (.leaseRecallReceipt n reason notice) s) (fun t => decide (lease t n = { lease s n with state := 3, deadline := s.now + notice * 1000, reason := reason } ∧ t = stateRecord (dropClean (setLease (faultRecord s (comp s (ext s e).comp).part 6 [w64 (place 0 8 n + place 16 12 (lease s n).peer + place 40 24 1), w64 (s.now + notice * 1000), w64 (place 0 24 (if scratchGrain s g = true ∧ (tier s g).dirty ≠ 0 then 1 else 0))]) n (lease t n)) n) 32)) = true :=
  ⟨{ up with tr := { up.tr with leases := [(1, { state := 2, peer := 9, borrower := true, grains := 4 })], comps := [(5, { state := 2, part := 3 })], exts := [(2, { state := 1, comp := 5, grains := 8, bport := 3 })], tmap := [(6, { loc := 3, frame := 2 ^ 18 })], lframes := [(2 ^ 18, 7)] } }, 1, 6, 262144, 2, 1, 1000, by decide +kernel⟩

theorem test_lease_emptied : ∃ (s : State) (n : Nat), (working s = true) ∧ ((lease s n).state = 3 ∨ (lease s n).state = 4) ∧ ((lease s n).borrower = true) ∧ (leaseUsed s n = []) ∧ answered (exec (.leaseEmptied n) s) (fun t => decide (lease t n = {} ∧ t = stateRecord (setLease (leaseMsg s n 3 (lease s n)) n {}) 32)) = true :=
  ⟨{ up with tr := { up.tr with leases := [(0, { state := 4, peer := 9, borrower := true })] } }, 0, by decide +kernel⟩

theorem test_lease_deadline : ∃ (s : State) (n fr : Nat), (working s = true) ∧ ((lease s n).state = 3) ∧ ((lease s n).borrower = false) ∧ ((lease s n).medium = 0) ∧ ((lease s n).deadline ≤ s.now) ∧ ((lease s n).frames = [fr]) ∧ answered (exec (.leaseDeadline n) s) (fun t => decide (lease t n = {} ∧ tget 0 t.tr.frames fr = 0 ∧ memGet t.tr.hbm (fr * grainB) = 0 ∧ t = stateRecord { s with tr := { s.tr with leases := tput {} s.tr.leases (n) (tget {} t.tr.leases (n)), frames := tput 0 s.tr.frames (fr) (tget 0 t.tr.frames (fr)), hbm := (memClear s.tr.hbm (fr * grainB) grainB) } } 32)) = true :=
  ⟨{ up with now := 7, tr := { up.tr with leases := [(4, { state := 3, peer := 9, deadline := 7, frames := [2] })], frames := [(2, 2 ^ 40 + 4)], hbm := [(2 * 2 ^ 21, 5)] } }, 4, 2, by decide +kernel⟩

theorem test_lease_deadline_borrower : ∃ (s : State) (n k g : Nat), (working s = true) ∧ ((lease s n).state = 3) ∧ ((lease s n).borrower = true) ∧ ((lease s n).deadline ≤ s.now) ∧ (leaseCopies (stopMovesTo s n) n = [(k, g)]) ∧ answered (exec (.leaseDeadline n) s) (fun t => decide (lease t n = {} ∧ (tier t g).loc = 4 ∧ t = stateRecord (setLease (failGrain (trCount (stopMovesTo s n) 7 1) g 2) n {}) 32)) = true :=
  ⟨{ up with now := 7, tr := { up.tr with leases := [(1, { state := 3, peer := 9, borrower := true, grains := 4, deadline := 7 })], tmap := [(6, { loc := 3, frame := 2 ^ 18 })], lframes := [(2 ^ 18, 7)] } }, 1, 262144, 6, by decide +kernel⟩

theorem test_lease_lost : ∃ (s : State) (n status : Nat), (working s = true) ∧ (2 ≤ (lease s n).state) ∧ ((lease s n).borrower = true) ∧ (status = 6 ∨ status = 0x0E) ∧ (leaseCopies (stopMovesTo s n) n = []) ∧ answered (exec (.leaseLost n status) s) (fun t => decide (lease t n = {} ∧ t = stateRecord (setLease (leaseMsg (stopMovesTo s n) n 3 (lease s n)) n {}) 32)) = true :=
  ⟨{ up with tr := { up.tr with leases := [(4, { state := 2, peer := 9, borrower := true })] } }, 4, 14, by decide +kernel⟩

theorem test_lease_lost_copies : ∃ (s : State) (n status k g : Nat), (working s = true) ∧ (2 ≤ (lease s n).state) ∧ ((lease s n).borrower = true) ∧ (status = 6 ∨ status = 0x0E) ∧ (leaseCopies (stopMovesTo s n) n = [(k, g)]) ∧ answered (exec (.leaseLost n status) s) (fun t => decide (lease t n = {} ∧ (tier t g).loc = (if scratchGrain (stopMovesTo s n) g = true then 4 else 1) ∧ t = stateRecord (setLease (leaseMsg (if scratchGrain (stopMovesTo s n) g then failGrain (stopMovesTo s n) g 3 else dropCopy (stopMovesTo s n) g) n 3 (lease s n)) n {}) 32)) = true :=
  ⟨{ up with tr := { up.tr with leases := [(1, { state := 2, peer := 9, borrower := true, grains := 4 })], tmap := [(6, { loc := 3, frame := 2 ^ 18 })], lframes := [(2 ^ 18, 7)] } }, 1, 14, 262144, 6, by decide +kernel⟩

theorem test_handoff_send : ∃ (s : State) (cs x new : Nat) (d : List W64), (Presents s cs 0x8C d) ∧ (df d 1 0 1 = 0) ∧ (stampPast s (stampKey okHandoff (2 ^ 30)) (ctl s cs) = false) ∧ (recorded s (ctl s cs) = none) ∧ (wordReason s (ctl s cs) opHandoffSend d = 0) ∧ (lineBusy s (faOff (df d 0 0 60)) 8 = false) ∧ (ownAccess s (df d 0 0 60) 8 = (0, some x)) ∧ (InHbm s x (faOff (df d 0 0 60))) ∧ (ownerOp opHandoffSend s.now (leAt (memRead s.tr.hbm (hbmAddr s (faOff (df d 0 0 60))) 8) 0 8) (place 0 16 (df d 1 16 16) + place 16 16 (df d 1 32 16) + place 32 8 (df d 1 48 8) + place 64 32 (df d 2 0 32)) = (new, 0)) ∧ answered (exec (.handoffSend cs) s) (fun t => decide (Completed s t cs 0 ∧ memRead t.tr.hbm (hbmAddr s (faOff (df d 0 0 60))) 8 = bytesLE 8 new ∧ t = serve (setCtl s cs { ctl s cs with wait := .handoff }) { op := opHandoffSend, src := ownId s, dst := df d 0 0 60, comp := df d 3 0 12, mapE := curEpoch s (df d 3 0 12), stream := cs, data := bytesLE 16 (place 0 16 (df d 1 16 16) + place 16 16 (df d 1 32 16) + place 32 8 (df d 1 48 8) + place 64 32 (df d 2 0 32)) } x false)) = true :=
  ⟨prog { up with now := 5000, ie := { up.ie with slots := [(3, { state := 1, owner := 7, comp := 5 })] }, tr := { up.tr with comps := [(5, { state := 2 })], exts := [(2, { state := 1, comp := 5, grains := 1, kslot := 3, bport := 0xFF })], tmap := [(0, { loc := 2, frame := 1 })], regions := [(1, { status := { enabled := true }, comp := 5, rights := 7, pages := 32 })], hbm := [(2 ^ 21 + 6, 9)] } } 0x8C [0, w64 (9 * 2 ^ 16 + 11 * 2 ^ 32), 100, 5], 0, 2, ownerWord 9 11 1 1 105, [0, w64 (9 * 2 ^ 16 + 11 * 2 ^ 32), 100, 5], by decide +kernel⟩

theorem test_handoff_accept : ∃ (s : State) (cs x new : Nat) (d : List W64), (Presents s cs 0x8C d) ∧ (df d 1 0 1 = 1) ∧ (stampPast s (stampKey okHandoff (2 ^ 30)) (ctl s cs) = false) ∧ (recorded s (ctl s cs) = none) ∧ (wordReason s (ctl s cs) opHandoffAccept d = 0) ∧ (lineBusy s (faOff (df d 0 0 60)) 8 = false) ∧ (ownAccess s (df d 0 0 60) 8 = (0, some x)) ∧ (InHbm s x (faOff (df d 0 0 60))) ∧ (ownerOp opHandoffAccept s.now (leAt (memRead s.tr.hbm (hbmAddr s (faOff (df d 0 0 60))) 8) 0 8) (place 0 16 (df d 1 16 16) + place 16 16 (df d 1 32 16) + place 32 8 (df d 1 48 8) + place 64 32 (df d 2 0 32)) = (new, 0)) ∧ answered (exec (.handoffAccept cs) s) (fun t => decide (Completed s t cs 0 ∧ memRead t.tr.hbm (hbmAddr s (faOff (df d 0 0 60))) 8 = bytesLE 8 new ∧ t = serve (setCtl s cs { ctl s cs with wait := .handoff }) { op := opHandoffAccept, src := ownId s, dst := df d 0 0 60, comp := df d 3 0 12, mapE := curEpoch s (df d 3 0 12), stream := cs, data := bytesLE 16 (place 0 16 (df d 1 16 16) + place 16 16 (df d 1 32 16) + place 32 8 (df d 1 48 8) + place 64 32 (df d 2 0 32)) } x false)) = true :=
  ⟨prog { up with now := 5000, ie := { up.ie with slots := [(3, { state := 1, owner := 7, comp := 5 })] }, tr := { up.tr with comps := [(5, { state := 2 })], exts := [(2, { state := 1, comp := 5, grains := 1, kslot := 3, bport := 0xFF })], tmap := [(0, { loc := 2, frame := 1 })], regions := [(1, { status := { enabled := true }, comp := 5, rights := 7, pages := 32 })], hbm := memWrite [] (2 ^ 21) (bytesLE 8 (ownerWord 9 11 1 1 105)) } } 0x8C [0, w64 (1 + 11 * 2 ^ 16 + 2 ^ 48), 0, 5], 0, 2, ownerWord 11 0 2 0 0, [0, w64 (1 + 11 * 2 ^ 16 + 2 ^ 48), 0, 5], by decide +kernel⟩

theorem test_reclaim : ∃ (s : State) (cs x new : Nat) (d : List W64), (Presents s cs 0x8D d) ∧ (stampPast s (stampKey okHandoff (2 ^ 30)) (ctl s cs) = false) ∧ (recorded s (ctl s cs) = none) ∧ (wordReason s (ctl s cs) opReclaim d = 0) ∧ (lineBusy s (faOff (df d 0 0 60)) 8 = false) ∧ (ownAccess s (df d 0 0 60) 8 = (0, some x)) ∧ (InHbm s x (faOff (df d 0 0 60))) ∧ (ownerOp opReclaim s.now (leAt (memRead s.tr.hbm (hbmAddr s (faOff (df d 0 0 60))) 8) 0 8) (place 0 16 (df d 1 16 16) + place 16 16 (df d 1 32 16) + place 32 8 (df d 1 48 8) + place 64 32 (df d 2 0 32)) = (new, 0)) ∧ answered (exec (.reclaim cs) s) (fun t => decide (Completed s t cs 0 ∧ memRead t.tr.hbm (hbmAddr s (faOff (df d 0 0 60))) 8 = bytesLE 8 new ∧ t = serve (setCtl s cs { ctl s cs with wait := .handoff }) { op := opReclaim, src := ownId s, dst := df d 0 0 60, comp := df d 3 0 12, mapE := curEpoch s (df d 3 0 12), stream := cs, data := bytesLE 16 (place 0 16 (df d 1 16 16) + place 16 16 (df d 1 32 16) + place 32 8 (df d 1 48 8) + place 64 32 (df d 2 0 32)) } x false)) = true :=
  ⟨prog { up with now := 105000, ie := { up.ie with slots := [(3, { state := 1, owner := 7, comp := 5 })] }, tr := { up.tr with comps := [(5, { state := 2 })], exts := [(2, { state := 1, comp := 5, grains := 1, kslot := 3, bport := 0xFF })], tmap := [(0, { loc := 2, frame := 1 })], regions := [(1, { status := { enabled := true }, comp := 5, rights := 7, pages := 32 })], hbm := memWrite [] (2 ^ 21) (bytesLE 8 (ownerWord 9 11 1 1 105)) } } 0x8D [0, w64 (9 * 2 ^ 16 + 2 ^ 48), 0, 5], 0, 2, ownerWord 9 0 2 0 0, [0, w64 (9 * 2 ^ 16 + 2 ^ 48), 0, 5], by decide +kernel⟩

theorem test_owner_word_refused : ∃ (s : State) (cs : Nat) (d : List W64), (Presents s cs 0x8D d) ∧ (stampPast s (stampKey okHandoff (2 ^ 30)) (ctl s cs) = false) ∧ (recorded s (ctl s cs) = none) ∧ (lineBusy s (faOff (df d 0 0 60)) 8 = false) ∧ (wordReason s (ctl s cs) opReclaim d ≠ 0) ∧ answered (exec (.reclaim cs) s) (fun t => decide (Completed s t cs (wordReason s (ctl s cs) opReclaim d) ∧ t = ctlFinish s cs (wordReason s (ctl s cs) opReclaim d) none)) = true :=
  ⟨prog up 0x8D [0, w64 (9 * 2 ^ 16 + 2 ^ 48), 0, 5], 0, [0, w64 (9 * 2 ^ 16 + 2 ^ 48), 0, 5], by decide +kernel⟩

theorem test_weights_register : ∃ (s : State) (cs : Nat) (d : List W64), (Presents s cs 0x8F d) ∧ (df d 0 16 1 = 0) ∧ (stampPast s (stampKey okWset (df d 0 0 12)) (ctl s cs) = false) ∧ (weightsReason s (ctl s cs) d = 0) ∧ answered (exec (.weightsRegister cs) s) (fun t => decide ((ctl t cs).wait = .weights (df d 0 0 12) ∧ wset t (df d 0 0 12) = { wset s (df d 0 0 12) with comp := df d 0 32 12, base := df d 1 0 60, length := df d 2 0 40, hashing := true, digest := [] } ∧ t = setCtl { s with tr := { s.tr with wsets := tput {} s.tr.wsets (df d 0 0 12) (tget {} t.tr.wsets (df d 0 0 12)) } } cs { ctl s cs with wait := .weights (df d 0 0 12) })) = true :=
  ⟨prog { up with tr := { up.tr with comps := [(5, { state := 2 })], regions := [(1, { status := { enabled := true }, comp := 5, pages := 32 })] } } 0x8F [w64 (4095 + 5 * 2 ^ 32), 0, 0x200000, 0], 0, [w64 (4095 + 5 * 2 ^ 32), 0, 0x200000, 0], by decide +kernel⟩

theorem test_weights_hash_done : ∃ (s : State) (w cs : Nat) (dg : Bytes), (working s = true) ∧ ((wset s w).hashing = true) ∧ (setBusy s (wset s w) = false) ∧ (bytesHere s (faOff (wset s w).base) (wset s w).length = none) ∧ (weightsWaiter s w = some cs) ∧ answered (exec (.weightsHashDone w 0 dg) s) (fun t => decide (Completed s t cs 0 ∧ wset t w = { wset s w with hashing := false, gen := ((wset s w).gen + 1) % 16, digest := dg, status := { enabled := true } } ∧ t.ta.changes = s.ta.changes + 1 ∧ t = ctlComplete (digestNote { s with tr := { s.tr with wsets := tput {} s.tr.wsets (w) (tget {} t.tr.wsets (w)) } } (2 * 65536 + (wset t w).gen * 4096 + w) true dg) cs 0 none (some (stampKey okWset w)) 64)) = true :=
  ⟨setCtl { up with tr := { up.tr with wsets := [(4, { hashing := true, length := 1, comp := 5, gen := 15 })], tmap := [(0, { loc := 1 })] } } 0 { state := 1, priv := 1, wait := .weights 4 }, 4, 0, [7], by decide +kernel⟩

theorem test_weights_hash_done_here : ∃ (s : State) (w cs : Nat) (dg bs : Bytes), (working s = true) ∧ ((wset s w).hashing = true) ∧ (setBusy s (wset s w) = false) ∧ (bytesHere s (faOff (wset s w).base) (wset s w).length = some bs) ∧ (weightsWaiter s w = some cs) ∧ answered (exec (.weightsHashDone w 0 dg) s) (fun t => decide (Completed s t cs 0 ∧ wset t w = { wset s w with hashing := false, gen := ((wset s w).gen + 1) % 16, digest := treeDigest bs, status := { enabled := true } } ∧ t = ctlComplete (digestNote { s with tr := { s.tr with wsets := tput {} s.tr.wsets (w) (tget {} t.tr.wsets (w)) } } (2 * 65536 + (wset t w).gen * 4096 + w) true (treeDigest bs)) cs 0 none (some (stampKey okWset w)) 64)) = true :=
  ⟨setCtl { up with tr := { up.tr with wsets := [(4, { hashing := true, length := 1, comp := 5 })] } } 0 { state := 1, priv := 1, wait := .weights 4 }, 4, 0, [7], [0], by decide +kernel⟩

theorem test_weights_hash_failed : ∃ (s : State) (w cs status : Nat) (dg : Bytes), (working s = true) ∧ ((wset s w).hashing = true) ∧ (setBusy s (wset s w) = false) ∧ (weightsWaiter s w = some cs) ∧ (status ≠ 0) ∧ answered (exec (.weightsHashDone w status dg) s) (fun t => decide (Completed s t cs 0x0B0A ∧ wset t w = { wset s w with hashing := false, status := refused (wset s w).status 0x0B0A } ∧ t = ctlFinish { s with tr := { s.tr with wsets := tput {} s.tr.wsets (w) (tget {} t.tr.wsets (w)) } } cs 0x0B0A none)) = true :=
  ⟨setCtl { up with tr := { up.tr with wsets := [(4, { hashing := true, length := 1, comp := 5 })] } } 0 { state := 1, priv := 1, wait := .weights 4 }, 4, 0, 6, [], by decide +kernel⟩

theorem test_weights_withdraw : ∃ (s : State) (cs : Nat) (d : List W64), (Presents s cs 0x8F d) ∧ (df d 0 16 1 = 1) ∧ (stampPast s (stampKey okWset (df d 0 0 12)) (ctl s cs) = false) ∧ (weightsReason s (ctl s cs) d = 0) ∧ answered (exec (.weightsWithdraw cs) s) (fun t => decide (Completed s t cs 0 ∧ wset t (df d 0 0 12) = { wset s (df d 0 0 12) with status := { enabled := false, draining := true } } ∧ t = ctlComplete { s with tr := { s.tr with wsets := tput {} s.tr.wsets (df d 0 0 12) (tget {} t.tr.wsets (df d 0 0 12)) } } cs 0 none (some (stampKey okWset (df d 0 0 12))) 64)) = true :=
  ⟨prog { up with tr := { up.tr with comps := [(5, { state := 2 })], wsets := [(4, { status := { enabled := true }, comp := 5 })] } } 0x8F [w64 (4 + 2 ^ 16 + 5 * 2 ^ 32), 0, 0, 0], 0, [w64 (4 + 2 ^ 16 + 5 * 2 ^ 32), 0, 0, 0], by decide +kernel⟩

theorem test_weights_drain_end : ∃ (s : State) (w : Nat), (working s = true) ∧ ((wset s w).status.draining = true) ∧ (setReaders s w = false) ∧ answered (exec (.weightsDrainEnd w) s) (fun t => decide (wset t w = { wset s w with status := {}, digest := [], length := 0 } ∧ t = stateRecord (digestNote { s with tr := { s.tr with wsets := tput {} s.tr.wsets (w) (tget {} t.tr.wsets (w)) } } (2 * 65536 + (wset s w).gen * 4096 + w) false (wset s w).digest) 64)) = true :=
  ⟨{ up with tr := { up.tr with wsets := [(4, { status := { draining := true }, length := 9, comp := 5 })] } }, 4, by decide +kernel⟩

theorem test_migration_start : ∃ (s : State) (g fr x : Nat), (extOf s g = some x) ∧ (working s = true) ∧ (moveAllowed s g x 2 fr = true) ∧ answered (exec (.migrationStart g 2 fr) s) (fun t => decide ((tier t g) = { tier s g with state := if (tier s g).loc = 3 ∧ (lease s ((tier s g).frame / 2 ^ 18)).state ≠ 2 then 2 else 1 } ∧ tget 0 t.tr.frames fr = g + 1 ∧ (slot t (ext s x).kslot).uses = (slot s (ext s x).kslot).uses + 1 ∧ moveAt t (freeMove s) = { active := true, running := false, grain := g, toLoc := 2, toFrame := fr, slot := (ext s x).kslot, gen := (ext s x).kgen } ∧ t = askLeave (setMove (setTier (useTake { s with tr := { s.tr with frames := tput 0 s.tr.frames (fr) (tget 0 t.tr.frames (fr)) } } (ext s x).kslot) g (tier t g)) (freeMove s) { active := true, running := false, grain := g, toLoc := 2, toFrame := fr, slot := (ext s x).kslot, gen := (ext s x).kgen }) 16 (.move (freeMove s)) 160)) = true :=
  ⟨{ up with ie := { up.ie with slots := [(3, { state := 1 })], pch := [(14, { state := 2, tenant := 7 })] }, tr := { up.tr with comps := [(5, { state := 2, tenant := 7 })], exts := [(2, { state := 1, comp := 5, grains := 1, kslot := 3 })], tmap := [(0, { loc := 1 })] } }, 0, 767, 2, by decide +kernel⟩

theorem test_migration_lease : ∃ (s : State) (g fr x : Nat), (extOf s g = some x) ∧ (working s = true) ∧ (moveAllowed s g x 3 fr = true) ∧ ((tier s g).loc = 1) ∧ answered (exec (.migrationStart g 3 fr) s) (fun t => decide (tier t g = { tier s g with state := 1 } ∧ tget 0 t.tr.lframes fr = g + 1 ∧ moveAt t (freeMove s) = { active := true, running := true, grain := g, toLoc := 3, toFrame := fr, slot := (ext s x).kslot, gen := (ext s x).kgen } ∧ t = setMove (setTier (useTake { s with tr := { s.tr with lframes := tput 0 s.tr.lframes (fr) (tget 0 t.tr.lframes (fr)) } } (ext s x).kslot) g (tier t g)) (freeMove s) (moveAt t (freeMove s)))) = true :=
  ⟨{ up with ie := { up.ie with slots := [(3, { state := 1 })] }, tr := { up.tr with comps := [(5, { state := 2, tenant := 7 })], leases := [(1, { state := 2, peer := 9, borrower := true, grains := 4, tenant := 7 })], exts := [(2, { state := 1, comp := 5, grains := 1, kslot := 3, cls := 1 })], tmap := [(0, { loc := 1 })] } }, 0, 262144, 2, by decide +kernel⟩

theorem test_migration_home : ∃ (s : State) (g fr x : Nat), (extOf s g = some x) ∧ (working s = true) ∧ (moveAllowed s g x 1 fr = true) ∧ ((tier s g).dirty = 0) ∧ answered (exec (.migrationStart g 1 fr) s) (fun t => decide ((tier t g).loc = 1 ∧ t = stateRecord (dropCopy s g) 8)) = true :=
  ⟨{ up with ie := { up.ie with slots := [(3, { state := 1 })] }, tr := { up.tr with comps := [(5, { state := 2, tenant := 7 })], exts := [(2, { state := 1, comp := 5, grains := 1, kslot := 3 })], tmap := [(0, { loc := 2, frame := 9 })], frames := [(9, 1)] } }, 0, 0, 2, by decide +kernel⟩

theorem test_subgrain_copy_done : ∃ (s : State) (n : Nat) (data : Bytes), (working s = true) ∧ ((moveAt s n).active = true) ∧ ((moveAt s n).running = true) ∧ ((moveAt s n).toLoc = 1) ∧ ((moveAt s n).next < 31) ∧ (lineBusy s ((moveAt s n).grain * grainB + (moveAt s n).next * 65536) 65536 = false) ∧ answered (exec (.subgrainCopyDone n data) s) (fun t => decide (moveAt t n = { moveAt s n with next := (moveAt s n).next + 1 } ∧ t = setMove (trCount s 2 65536) n { moveAt s n with next := (moveAt s n).next + 1 })) = true :=
  ⟨{ up with tr := { up.tr with moves := [(1, { active := true, running := true, grain := 4, toLoc := 1, next := 30 })], tmap := [(4, { loc := 3 })] } }, 1, [], by decide +kernel⟩

theorem test_subgrain_copy_hbm : ∃ (s : State) (n : Nat) (data : Bytes), (working s = true) ∧ ((moveAt s n).active = true) ∧ ((moveAt s n).running = true) ∧ ((moveAt s n).toLoc = 2) ∧ ((moveAt s n).next < 31) ∧ (hereBytes s ((moveAt s n).grain * grainB + (moveAt s n).next * 65536) 65536 = none) ∧ (lineBusy s ((moveAt s n).grain * grainB + (moveAt s n).next * 65536) 65536 = false) ∧ answered (exec (.subgrainCopyDone n data) s) (fun _ => decide (True)) = true :=
  ⟨{ up with tr := { up.tr with moves := [(1, { active := true, running := true, grain := 4, toLoc := 2, next := 30 })], tmap := [(4, { loc := 3 })] } }, 1, [], by decide +kernel⟩

theorem test_subgrain_copy_last : ∃ (s : State) (n : Nat) (data : Bytes), (working s = true) ∧ ((moveAt s n).active = true) ∧ ((moveAt s n).running = true) ∧ ((moveAt s n).toLoc = 1) ∧ ((moveAt s n).next = 31) ∧ ((tier s (moveAt s n).grain).loc = 3) ∧ (lineBusy s ((moveAt s n).grain * grainB + (moveAt s n).next * 65536) 65536 = false) ∧ answered (exec (.subgrainCopyDone n data) s) (fun t => decide (moveAt t n = {} ∧ tier t (moveAt s n).grain = { loc := 1, frame := 0, state := 0, dirty := 0 } ∧ t = endMove (setMove (trCount s 2 65536) n { moveAt s n with next := 32 }) n { moveAt s n with next := 32 })) = true :=
  ⟨{ up with tr := { up.tr with moves := [(1, { active := true, running := true, grain := 4, toLoc := 1, next := 31 })], tmap := [(4, { loc := 3, frame := 5, state := 1 })], lframes := [(5, 5)] } }, 1, [], by decide +kernel⟩

theorem test_hbm_pressure_drop : ∃ (s : State) (g x : Nat), (extOf s g = some x) ∧ (working s = true) ∧ ((tier s g).loc = 2) ∧ ((tier s g).state = 0) ∧ ((tier s g).dirty = 0) ∧ ((ext s x).state = 1) ∧ ((ext s x).bport ≠ 0xFF) ∧ (dropRank (ext s x) < 3) ∧ (tenantFree s (comp s (ext s x).comp).tenant * 16 < tenantFrames s (comp s (ext s x).comp).tenant) ∧ (dropsBefore s (comp s (ext s x).comp).tenant (ext s x) g = false) ∧ answered (exec (.hbmPressureDrop g) s) (fun t => decide ((tier t g).loc = 1 ∧ t = stateRecord (dropCopy s g) 8)) = true :=
  ⟨{ up with ie := { up.ie with pch := [(14, { state := 2, tenant := 7 })] }, tr := { up.tr with comps := [(5, { state := 2, tenant := 7 })], exts := [(2, { state := 1, comp := 5, grains := 1 })], tmap := [(0, { loc := 2, frame := 0 })], frames := (List.range 760).map fun i => (i, i + 1) } }, 0, 2, by decide +kernel⟩

theorem test_hbm_pressure_writeback : ∃ (s : State) (g x : Nat), (extOf s g = some x) ∧ (working s = true) ∧ ((tier s g).loc = 2) ∧ ((tier s g).state = 0) ∧ ((tier s g).dirty ≠ 0) ∧ ((ext s x).state = 1) ∧ ((ext s x).bport ≠ 0xFF) ∧ (dropRank (ext s x) < 3) ∧ (tenantFree s (comp s (ext s x).comp).tenant * 16 < tenantFrames s (comp s (ext s x).comp).tenant) ∧ (dropsBefore s (comp s (ext s x).comp).tenant (ext s x) g = false) ∧ answered (exec (.hbmPressureDrop g) s) (fun t => decide (tier t g = { tier s g with state := 1 } ∧ t = askLeave (setMove (setTier (useTake s (ext s x).kslot) g (tier t g)) (freeMove s) { active := true, grain := g, toLoc := 1, slot := (ext s x).kslot, gen := (ext s x).kgen }) 16 (.move (freeMove s)) 160)) = true :=
  ⟨{ up with ie := { up.ie with pch := [(14, { state := 2, tenant := 7 })] }, tr := { up.tr with comps := [(5, { state := 2, tenant := 7 })], exts := [(2, { state := 1, comp := 5, grains := 1 })], tmap := [(0, { loc := 2, frame := 0, dirty := 4 })], frames := (List.range 760).map fun i => (i, i + 1) } }, 0, 2, by decide +kernel⟩

theorem test_mirror_resync : ∃ (s : State) (x : Nat) (r : Nat × Bool) (tl : List (Nat × Bool)), ((ext s x).resync = r :: tl) ∧ (working s = true) ∧ (portUp s (if r.2 then (ext s x).mport else (ext s x).bport) = true) ∧ (lineBusy s ((ext s x).base + r.1 * 65536) 65536 = false) ∧ answered (exec (.mirrorResync x) s) (fun t => decide (ext t x = { ext s x with resync := tl, degraded := !tl.isEmpty } ∧ t = trCount { s with tr := { s.tr with exts := tput {} s.tr.exts (x) (tget {} t.tr.exts (x)) } } 8 65536)) = true :=
  ⟨{ up with pc := { up.pc with ports := [(4, { state := 5, profile := 2, mode := 0, status := { enabled := true } })] }, tr := { up.tr with exts := [(2, { state := 1, mirror := true, mport := 4, degraded := true, resync := [(3, true)] })] } }, 2, (3, true), [], by decide +kernel⟩

theorem test_commit_tenant : ∃ (s : State) (cs e : Nat) (d : List W64), (Presents s cs 0xF4 d) ∧ (df d 0 0 2 = 0) ∧ (enableOf d = true) ∧ (Fresh s cs 0xF4 (stampKey okTenant (df d 0 16 16))) ∧ (reservedSet d tenantMasks = false) ∧ (tenantEntry s (df d 0 16 16) = e) ∧ (e < 16) ∧ (waysMeet s (df d 0 16 16) (df d 1 0 16) (·.tlb) = false) ∧ (waysMeet s (df d 0 16 16) (df d 1 16 16) (·.tmc) = false) ∧ answered (exec (.commitTenant cs) s) (fun t => decide (Committed s t cs 0 1 ∧ tenant t e = { status := { enabled := true }, id := df d 0 16 16, capture := decide (df d 1 32 1 = 1), tmc := df d 1 16 16, tlb := df d 1 0 16 } ∧ t = ctlComplete (grantCommit (setTenant (dropTmc (dropWays s (df d 1 0 16 - (df d 1 0 16 &&& if (tenant s e).status.enabled then (tenant s e).tlb else 0))) (df d 1 16 16 - (df d 1 16 16 &&& if (tenant s e).status.enabled then (tenant s e).tmc else 0))) e (tenant t e)) cs 0xF4 ((stampKey okTenant (df d 0 16 16)))) cs 0 (some 1) (some (stampKey okTenant (df d 0 16 16))) 64)) = true :=
  ⟨prog { up with tu := { up.tu with slices := [(3, [{ way := 15 }, { way := 4 }])] } } 0xF4 [w64 (9 * 2 ^ 16), w64 (2 ^ 15 + 2 ^ 16 + 2 ^ 32), 0, 1], 0, 0, [w64 (9 * 2 ^ 16), w64 (2 ^ 15 + 2 ^ 16 + 2 ^ 32), 0, 1], by decide +kernel⟩

theorem test_commit_tenant_last_entry : ∃ (s : State) (cs : Nat) (d : List W64), (Presents s cs 0xF4 d) ∧ (df d 0 0 2 = 0) ∧ (enableOf d = true) ∧ (Fresh s cs 0xF4 (stampKey okTenant (df d 0 16 16))) ∧ (reservedSet d tenantMasks = false) ∧ (16 ≤ tenantEntry s (df d 0 16 16)) ∧ answered (exec (.commitTenant cs) s) (fun t => decide (Completed s t cs 5 ∧ t = ctlComplete (grantCommit s cs 0xF4 ((stampKey okTenant (df d 0 16 16)))) cs 5 (some (statusWord (refused (tenant s (tenantEntry s (df d 0 16 16))).status 5))) none 64)) = true :=
  ⟨prog { up with ie := { up.ie with tenants := (List.range 16).map fun n => (n, { status := { enabled := true }, id := n }) } } 0xF4 [w64 (16 * 2 ^ 16), 1, 0, 1], 0, [w64 (16 * 2 ^ 16), 1, 0, 1], by decide +kernel⟩

theorem test_commit_tenant_in_use : ∃ (s : State) (cs e : Nat) (d : List W64), (Presents s cs 0xF4 d) ∧ (df d 0 0 2 = 0) ∧ (enableOf d = false) ∧ (Fresh s cs 0xF4 (stampKey okTenant (df d 0 16 16))) ∧ (tenantOf s (df d 0 16 16) = some e) ∧ (e < 16) ∧ (tenantInUse s (df d 0 16 16) = true) ∧ answered (exec (.commitTenant cs) s) (fun t => decide (Completed s t cs 0x0A04 ∧ tenant t e = { tenant s e with status := refused (tenant s e).status 0x0A04 } ∧ t = ctlComplete (grantCommit { s with ie := { s.ie with tenants := tput {} s.ie.tenants (e) (tget {} t.ie.tenants (e)) } } cs 0xF4 ((stampKey okTenant (df d 0 16 16)))) cs 0x0A04 (some (statusWord (tenant t e).status)) none 64)) = true :=
  ⟨prog { up with ie := { up.ie with tenants := [(15, { status := { enabled := true }, id := 9 })] }, tr := { up.tr with comps := [(1, { state := 1, tenant := 9 })] } } 0xF4 [w64 (9 * 2 ^ 16), 0, 0, 0], 0, 15, [w64 (9 * 2 ^ 16), 0, 0, 0], by decide +kernel⟩

theorem test_commit_tenant_disable : ∃ (s : State) (cs e : Nat) (d : List W64), (Presents s cs 0xF4 d) ∧ (df d 0 0 2 = 0) ∧ (enableOf d = false) ∧ (Fresh s cs 0xF4 (stampKey okTenant (df d 0 16 16))) ∧ (tenantOf s (df d 0 16 16) = some e) ∧ (e < 16) ∧ (tenantInUse s (df d 0 16 16) = false) ∧ answered (exec (.commitTenant cs) s) (fun t => decide (Committed s t cs 0 0 ∧ tenant t e = {} ∧ t = ctlComplete (grantCommit { s with ie := { s.ie with tenants := tput {} s.ie.tenants (e) (tget {} t.ie.tenants (e)) } } cs 0xF4 ((stampKey okTenant (df d 0 16 16)))) cs 0 (some 0) (some (stampKey okTenant (df d 0 16 16))) 64)) = true :=
  ⟨prog { up with ie := { up.ie with tenants := [(15, { status := { enabled := true }, id := 9 })] } } 0xF4 [w64 (9 * 2 ^ 16), 0, 0, 0], 0, 15, [w64 (9 * 2 ^ 16), 0, 0, 0], by decide +kernel⟩

theorem test_commit_tenant_pch_assign : ∃ (s : State) (cs : Nat) (d : List W64), (Presents s cs 0xF4 d) ∧ (df d 0 0 2 = 1) ∧ (enableOf d = true) ∧ (Fresh s cs 0xF4 (stampKey okTenant (2 ^ 20 + df d 1 0 7))) ∧ ((tenantOf s (df d 0 16 16)).isSome = true) ∧ (reservedSet d tenantMasks = false) ∧ (pchOut s (df d 1 0 7) = false) ∧ ((pch s (df d 1 0 7)).state = 1) ∧ answered (exec (.commitTenantPchAssign cs) s) (fun t => decide (Completed s t cs 0 ∧ pch t (df d 1 0 7) = { pch s (df d 1 0 7) with state := 2, tenant := df d 0 16 16 } ∧ t = ctlComplete (grantCommit { s with ie := { s.ie with pch := tput {} s.ie.pch (df d 1 0 7) (tget {} t.ie.pch (df d 1 0 7)) } } cs 0xF4 ((stampKey okTenant (2 ^ 20 + df d 1 0 7)))) cs 0 (some (statusWord (tenant s (tenantEntry s (df d 0 16 16))).status)) (some (stampKey okTenant (2 ^ 20 + df d 1 0 7))) 64)) = true :=
  ⟨prog { up with ie := { up.ie with tenants := [(0, { status := { enabled := true }, id := 9 })] } } 0xF4 [w64 (1 + 9 * 2 ^ 16), 127, 0, 1], 0, [w64 (1 + 9 * 2 ^ 16), 127, 0, 1], by decide +kernel⟩

theorem test_commit_tenant_pch_refused : ∃ (s : State) (cs : Nat) (d : List W64), (Presents s cs 0xF4 d) ∧ (df d 0 0 2 = 1) ∧ (enableOf d = true) ∧ (Fresh s cs 0xF4 (stampKey okTenant (2 ^ 20 + df d 1 0 7))) ∧ (tenantOf s (df d 0 16 16) = some (tenantEntry s (df d 0 16 16))) ∧ ((tenantEntry s (df d 0 16 16)) < 16) ∧ (reservedSet d tenantMasks = false) ∧ (pchOut s (df d 1 0 7) = false) ∧ ((pch s (df d 1 0 7)).state ≠ 1) ∧ answered (exec (.commitTenantPchAssign cs) s) (fun t => decide (Completed s t cs 0x0A07 ∧ tenant t (tenantEntry s (df d 0 16 16)) = { tenant s (tenantEntry s (df d 0 16 16)) with status := refused (tenant s (tenantEntry s (df d 0 16 16))).status 0x0A07 } ∧ t = ctlComplete (grantCommit { s with ie := { s.ie with tenants := tput {} s.ie.tenants ((tenantEntry s (df d 0 16 16))) (tget {} t.ie.tenants ((tenantEntry s (df d 0 16 16)))) } } cs 0xF4 ((stampKey okTenant (2 ^ 20 + df d 1 0 7)))) cs 0x0A07 (some (statusWord (tenant t (tenantEntry s (df d 0 16 16))).status)) none 64)) = true :=
  ⟨prog { up with ie := { up.ie with pch := [(127, { state := 2 })], tenants := [(0, { status := { enabled := true }, id := 9 })] } } 0xF4 [w64 (1 + 9 * 2 ^ 16), 127, 0, 1], 0, [w64 (1 + 9 * 2 ^ 16), 127, 0, 1], by decide +kernel⟩

theorem test_commit_tenant_pch_release : ∃ (s : State) (cs : Nat) (d : List W64), (Presents s cs 0xF4 d) ∧ (df d 0 0 2 = 1) ∧ (enableOf d = false) ∧ (Fresh s cs 0xF4 (stampKey okTenant (2 ^ 20 + df d 1 0 7))) ∧ ((tenantOf s (df d 0 16 16)).isSome = true) ∧ (reservedSet d tenantMasks = false) ∧ (pchOut s (df d 1 0 7) = false) ∧ ((pch s (df d 1 0 7)).state = 2) ∧ ((pch s (df d 1 0 7)).tenant = df d 0 16 16) ∧ (s.tr.reserved.any (fun f => decide (framePch f.1 = df d 1 0 7)) = false) ∧ answered (exec (.commitTenantPchRelease cs) s) (fun t => decide (Completed s t cs 0 ∧ pch t (df d 1 0 7) = { pch s (df d 1 0 7) with state := 3 } ∧ t = ctlComplete (grantCommit (vacate { s with ie := { s.ie with pch := tput {} s.ie.pch (df d 1 0 7) (tget {} t.ie.pch (df d 1 0 7)) } } (df d 1 0 7)) cs 0xF4 ((stampKey okTenant (2 ^ 20 + df d 1 0 7)))) cs 0 (some (statusWord (tenant s (tenantEntry s (df d 0 16 16))).status)) (some (stampKey okTenant (2 ^ 20 + df d 1 0 7))) 64)) = true :=
  ⟨prog { up with ie := { up.ie with tenants := [(0, { status := { enabled := true }, id := 9 })], pch := [(14, { state := 2, tenant := 9 })] } } 0xF4 [w64 (1 + 9 * 2 ^ 16), 14, 0, 0], 0, [w64 (1 + 9 * 2 ^ 16), 14, 0, 0], by decide +kernel⟩

theorem test_commit_tenant_trayport : ∃ (s : State) (cs : Nat) (d : List W64), (Presents s cs 0xF4 d) ∧ (df d 0 0 2 = 2) ∧ (enableOf d = true) ∧ (Fresh s cs 0xF4 (stampKey okTenant (2 ^ 21 + df d 1 0 8))) ∧ ((tenantOf s (df d 0 16 16)).isSome = true) ∧ (reservedSet d tenantMasks = false) ∧ (df d 1 0 8 ≤ 191) ∧ ((port s (df d 1 0 8)).profile = 2) ∧ ((iePort s (df d 1 0 8)).assigned = false ∨ (iePort s (df d 1 0 8)).tenant = df d 0 16 16) ∧ answered (exec (.commitTenantTrayport cs) s) (fun t => decide (Completed s t cs 0 ∧ iePort t (df d 1 0 8) = { tenant := df d 0 16 16, assigned := true } ∧ t = ctlComplete (grantCommit { s with ie := { s.ie with ports := tput {} s.ie.ports (df d 1 0 8) (tget {} t.ie.ports (df d 1 0 8)) } } cs 0xF4 ((stampKey okTenant (2 ^ 21 + df d 1 0 8)))) cs 0 (some (statusWord (tenant s (tenantEntry s (df d 0 16 16))).status)) (some (stampKey okTenant (2 ^ 21 + df d 1 0 8))) 64)) = true :=
  ⟨prog { up with ie := { up.ie with tenants := [(0, { status := { enabled := true }, id := 9 })] }, pc := { up.pc with ports := [(191, { profile := 2 })] } } 0xF4 [w64 (2 + 9 * 2 ^ 16), 191, 0, 1], 0, [w64 (2 + 9 * 2 ^ 16), 191, 0, 1], by decide +kernel⟩

theorem test_commit_tenant_trayport_release : ∃ (s : State) (cs : Nat) (d : List W64), (Presents s cs 0xF4 d) ∧ (df d 0 0 2 = 2) ∧ (enableOf d = false) ∧ (Fresh s cs 0xF4 (stampKey okTenant (2 ^ 21 + df d 1 0 8))) ∧ ((tenantOf s (df d 0 16 16)).isSome = true) ∧ (reservedSet d tenantMasks = false) ∧ (df d 1 0 8 ≤ 191) ∧ ((iePort s (df d 1 0 8)).assigned = true) ∧ ((iePort s (df d 1 0 8)).tenant = df d 0 16 16) ∧ (portBacks s (df d 1 0 8) = false) ∧ answered (exec (.commitTenantTrayport cs) s) (fun t => decide (Completed s t cs 0 ∧ iePort t (df d 1 0 8) = {} ∧ t = ctlComplete (grantCommit { s with ie := { s.ie with ports := tput {} s.ie.ports (df d 1 0 8) (tget {} t.ie.ports (df d 1 0 8)) } } cs 0xF4 ((stampKey okTenant (2 ^ 21 + df d 1 0 8)))) cs 0 (some (statusWord (tenant s (tenantEntry s (df d 0 16 16))).status)) (some (stampKey okTenant (2 ^ 21 + df d 1 0 8))) 64)) = true :=
  ⟨prog { up with ie := { up.ie with tenants := [(0, { status := { enabled := true }, id := 9 })], ports := [(191, { tenant := 9, assigned := true })] } } 0xF4 [w64 (2 + 9 * 2 ^ 16), 191, 0, 0], 0, [w64 (2 + 9 * 2 ^ 16), 191, 0, 0], by decide +kernel⟩

theorem test_pch_vacated : ∃ (s : State) (p : Nat), (working s = true) ∧ ((pch s p).state = 3) ∧ (pchCopies s p = []) ∧ answered (exec (.pchVacated p) s) (fun t => decide ((scrubEng t (p / 32)).queue = (scrubEng s (p / 32)).queue ++ [(1, p)] ∧ pch t p = { pch s p with state := 4 } ∧ t = queueScrub (stateRecord { s with ie := { s.ie with pch := tput {} s.ie.pch (p) (tget {} t.ie.pch (p)) } } 8) (p / 32) (1, p))) = true :=
  ⟨{ up with ie := { up.ie with pch := [(127, { state := 3, tenant := 9 })] } }, 127, by decide +kernel⟩

theorem test_pch_scrub_end : ∃ (s : State) (p : Nat), (working s = true) ∧ ((pch s p).state = 4) ∧ (scrubbing (endScrubs s) (1, p) = false) ∧ answered (exec (.pchScrubEnd p) s) (fun t => decide (tget 0 t.ie.ctr 4 = satInc (tget 0 (endScrubs s).ie.ctr 4) 1610612736 ∧ pch t p = { pch s p with state := 1, tenant := 0 } ∧ t = stateRecord (setPch (ieCount (endScrubs s) 4 1610612736) p (pch t p)) 8)) = true :=
  ⟨{ up with now := 9, ie := { up.ie with pch := [(14, { state := 4, tenant := 9 })], scrub := [(0, { state := 1, target := 14, ends := 9 })] } }, 14, by decide +kernel⟩

theorem test_ctx_bind : ∃ (s : State) (cs : Nat) (d : List W64), (Presents s cs 0x89 d) ∧ (enableOf d = true) ∧ (stampPast s (stampKey okCtx (df d 0 0 10)) (ctl s cs) = false) ∧ (bindReason s (ctl s cs) d = 0) ∧ answered (exec (.ctxBind cs) s) (fun t => decide (Completed s t cs 0 ∧ ctx t (df d 0 0 10) = { status := { enabled := true }, tenant := (comp s (df d 0 32 12)).tenant, comp := df d 0 32 12, asid := df d 1 0 16, slots := [df d 2 0 12, df d 2 12 12, df d 2 24 12, df d 2 36 12], slotV := df d 2 48 4 } ∧ t = ctlComplete { s with ie := { s.ie with ctxs := tput {} s.ie.ctxs (df d 0 0 10) (tget {} t.ie.ctxs (df d 0 0 10)) } } cs 0 none (some (stampKey okCtx (df d 0 0 10))) 64)) = true :=
  ⟨prog { up with tr := { up.tr with comps := [(5, { state := 2, tenant := 7 })] }, tu := { up.tu with asids := [(65535, { status := { enabled := true }, comp := 5 })] }, ie := { up.ie with tenants := [(0, { status := { enabled := true }, id := 7, tlb := 1 })], slots := [(4095, { state := 1, comp := 5 })] } } 0x89 [w64 (1023 + 5 * 2 ^ 32), 65535, w64 (4095 * 2 ^ 36 + 8 * 2 ^ 48), 1], 0, [w64 (1023 + 5 * 2 ^ 32), 65535, w64 (4095 * 2 ^ 36 + 8 * 2 ^ 48), 1], by decide +kernel⟩

theorem test_ctx_bind_refused : ∃ (s : State) (cs : Nat) (d : List W64), (Presents s cs 0x89 d) ∧ (enableOf d = true) ∧ (stampPast s (stampKey okCtx (df d 0 0 10)) (ctl s cs) = false) ∧ (bindReason s (ctl s cs) d ≠ 0) ∧ answered (exec (.ctxBind cs) s) (fun t => decide (Completed s t cs (bindReason s (ctl s cs) d) ∧ ctx t (df d 0 0 10) = { ctx s (df d 0 0 10) with status := refused (ctx s (df d 0 0 10)).status (bindReason s (ctl s cs) d) } ∧ t = ctlComplete { s with ie := { s.ie with ctxs := tput {} s.ie.ctxs (df d 0 0 10) (tget {} t.ie.ctxs (df d 0 0 10)) } } cs (bindReason s (ctl s cs) d) none none 64)) = true :=
  ⟨prog up 0x89 [w64 (1023 + 5 * 2 ^ 32), 65535, 0, 1], 0, [w64 (1023 + 5 * 2 ^ 32), 65535, 0, 1], by decide +kernel⟩

theorem test_ctx_unbind : ∃ (s : State) (cs : Nat) (d : List W64), (Presents s cs 0x89 d) ∧ (enableOf d = false) ∧ (stampPast s (stampKey okCtx (df d 0 0 10)) (ctl s cs) = false) ∧ (reaches (ctl s cs) (df d 0 32 12) = true) ∧ ((ctx s (df d 0 0 10)).status.enabled = false ∨ reaches (ctl s cs) (ctx s (df d 0 0 10)).comp = true) ∧ answered (exec (.ctxUnbind cs) s) (fun t => decide (Completed s t cs 0 ∧ ctx t (df d 0 0 10) = { ctx s (df d 0 0 10) with status := { (ctx s (df d 0 0 10)).status with enabled := false, draining := (ctx s (df d 0 0 10)).resident, reason := 0 } } ∧ t = ctlComplete { s with ie := { s.ie with ctxs := tput {} s.ie.ctxs (df d 0 0 10) (tget {} t.ie.ctxs (df d 0 0 10)) } } cs 0 none (some (stampKey okCtx (df d 0 0 10))) 64)) = true :=
  ⟨progRt { up with ie := { up.ie with ctxs := [(1023, { status := { enabled := true }, comp := 5, resident := true })] } } 5 0x89 [w64 (1023 + 5 * 2 ^ 32), 0, 0, 0], 0, [w64 (1023 + 5 * 2 ^ 32), 0, 0, 0], by decide +kernel⟩

theorem test_key_load : ∃ (s : State) (cs : Nat) (d : List W64), (Presents s cs 0x87 d) ∧ (stampPast s (stampKey okSlot (df d 0 0 12)) (ctl s cs) = false) ∧ (loadReason s (ctl s cs) d = 0) ∧ answered (exec (.keyLoad cs) s) (fun t => decide (Completed s t cs 0 ∧ slot t (df d 0 0 12) = { status := { enabled := true }, state := 1, owner := df d 0 48 16, group := df d 1 0 16, comp := df d 0 32 12, gen := (if (slot s (df d 0 0 12)).gen = 255 then 1 else (slot s (df d 0 0 12)).gen + 1), late := (slot s (df d 0 0 12)).late, sealed := decide (df d 0 16 1 = 1), dataKey := keyAt (deliveredOf s (df d 2 0 32)).material 0, tweakKey := keyAt (deliveredOf s (df d 2 0 32)).material 1, macKey := (if df d 0 16 1 = 1 then keyAt (deliveredOf s (df d 2 0 32)).material 2 else 0) } ∧ deliveredOf t (df d 2 0 32) = {} ∧ t = ctlComplete { s with ie := { s.ie with slots := tput {} s.ie.slots (df d 0 0 12) (tget {} t.ie.slots (df d 0 0 12)) }, ta := { s.ta with deliv := tput {} s.ta.deliv (df d 2 0 32 % 256) (tget {} t.ta.deliv (df d 2 0 32 % 256)) } } cs 0 none (some (stampKey okSlot (df d 0 0 12))) 128)) = true :=
  ⟨prog { up with tr := { up.tr with comps := [(5, { state := 2, tenant := 7 })] }, ie := { up.ie with slots := [(4095, { gen := 255 })] }, ta := { up.ta with deliv := [(255, { used := true, tenant := 7, owner := 3, serial := 2, material := List.replicate 32 9 })] } } 0x87 [w64 (4095 + 5 * 2 ^ 32 + 3 * 2 ^ 48), 0, w64 (255 + 2 * 256), w64 (leAt (sm3 (List.replicate 32 9)) 0 8), 0, 0, 0, 0], 0, [w64 (4095 + 5 * 2 ^ 32 + 3 * 2 ^ 48), 0, w64 (255 + 2 * 256), w64 (leAt (sm3 (List.replicate 32 9)) 0 8), 0, 0, 0, 0], by decide +kernel⟩

theorem test_key_retire : ∃ (s : State) (cs : Nat) (d : List W64), (Presents s cs 0x88 d) ∧ (stampPast s (stampKey okSlot (df d 0 0 12)) (ctl s cs) = false) ∧ (reaches (ctl s cs) (slot s (df d 0 0 12)).comp = true) ∧ (reservedSet d [fmask 0 20, fmask 0 32, 0, 0] = false) ∧ (10 ≤ df d 1 0 32) ∧ (df d 1 0 32 ≤ 10000) ∧ ((slot s (df d 0 0 12)).state = 1) ∧ ((slot s (df d 0 0 12)).gen = df d 0 12 8) ∧ answered (exec (.keyRetire cs) s) (fun t => decide (Completed s t cs 0 ∧ slot t (df d 0 0 12) = { slot s (df d 0 0 12) with state := 2, status := { enabled := false, draining := true }, deadline := s.now + df d 1 0 32 * 1000 } ∧ t = ctlComplete { s with ie := { s.ie with slots := tput {} s.ie.slots (df d 0 0 12) (tget {} t.ie.slots (df d 0 0 12)) } } cs 0 none (some (stampKey okSlot (df d 0 0 12))) 64)) = true :=
  ⟨prog { up with ie := { up.ie with slots := [(4095, { state := 1, gen := 255 })] } } 0x88 [w64 (4095 + 255 * 2 ^ 12), 10, 0, 0], 0, [w64 (4095 + 255 * 2 ^ 12), 10, 0, 0], by decide +kernel⟩

theorem test_key_retire_default_time : ∃ (s : State) (cs : Nat) (d : List W64), (Presents s cs 0x88 d) ∧ (stampPast s (stampKey okSlot (df d 0 0 12)) (ctl s cs) = false) ∧ (reaches (ctl s cs) (slot s (df d 0 0 12)).comp = true) ∧ (reservedSet d [fmask 0 20, fmask 0 32, 0, 0] = false) ∧ (df d 1 0 32 = 0) ∧ ((slot s (df d 0 0 12)).state = 1) ∧ ((slot s (df d 0 0 12)).gen = df d 0 12 8) ∧ answered (exec (.keyRetire cs) s) (fun t => decide (Completed s t cs 0 ∧ slot t (df d 0 0 12) = { slot s (df d 0 0 12) with state := 2, status := { enabled := false, draining := true }, deadline := s.now + 100000 } ∧ t = ctlComplete { s with ie := { s.ie with slots := tput {} s.ie.slots (df d 0 0 12) (tget {} t.ie.slots (df d 0 0 12)) } } cs 0 none (some (stampKey okSlot (df d 0 0 12))) 64)) = true :=
  ⟨prog { up with ie := { up.ie with slots := [(0, { state := 1, gen := 1 })] } } 0x88 [w64 (2 ^ 12), 0, 0, 0], 0, [w64 (2 ^ 12), 0, 0, 0], by decide +kernel⟩

theorem test_key_drain_zeroise : ∃ (s : State) (n : Nat), (working s = true) ∧ ((slot s n).state = 2) ∧ ((slot s n).uses = 0) ∧ (s.tr.moves = []) ∧ answered (exec (.keyDrainZeroise n) s) (fun t => decide (slot t n = { slot s n with state := 0, status := {}, uses := 0, dataKey := 0, tweakKey := 0, macKey := 0, deadline := 0 } ∧ tget 0 t.ie.ctr 5 = satInc (tget 0 s.ie.ctr 5) 1 ∧ t = stateRecord (setSlot (ieCount s 5 1) n (slot t n)) 128)) = true :=
  ⟨{ up with ie := { up.ie with slots := [(4095, { state := 2, gen := 255, dataKey := 7, tweakKey := 8, macKey := 9 })] } }, 4095, by decide +kernel⟩

theorem test_key_drain_zeroise_moves : ∃ (s : State) (n : Nat), (working s = true) ∧ ((slot s n).state = 2) ∧ ((slot s n).uses = 0) ∧ answered (exec (.keyDrainZeroise n) s) (fun t => decide ((slot t n).state = 0 ∧ (slot t n).dataKey = 0 ∧ (slot t n).tweakKey = 0 ∧ (slot t n).macKey = 0 ∧ t = zeroise s n)) = true :=
  ⟨{ up with ie := { up.ie with slots := [(4095, { state := 2, gen := 255, dataKey := 7, tweakKey := 8, macKey := 9 })] } }, 4095, by decide +kernel⟩

theorem test_key_retire_timeout : ∃ (s : State) (n : Nat), (working s = true) ∧ ((slot s n).state = 2) ∧ ((slot s n).deadline ≤ s.now) ∧ answered (exec (.keyRetireTimeout n) s) (fun t => decide ((slot t n).state = 0 ∧ (slot t n).dataKey = 0 ∧ (slot t n).tweakKey = 0 ∧ (slot t n).macKey = 0 ∧ t = zeroise (if (slot s n).uses = 0 then s else faultRecord s (comp s (slot s n).comp).part 7 [w64 (place 0 12 n + place 12 8 (slot s n).gen + place 32 12 (slot s n).comp), w64 (slot s n).uses]) n)) = true :=
  ⟨{ up with now := 100, ie := { up.ie with slots := [(0, { state := 2, gen := 1, uses := 3, comp := 5, deadline := 100, dataKey := 7 })] } }, 0, by decide +kernel⟩

theorem test_ext_scrub : ∃ (s : State) (cs : Nat) (d : List W64), (Presents s cs 0x86 d) ∧ (stampPast s (stampKey okExtent (df d 0 0 18)) (ctl s cs) = false) ∧ ((ext s (df d 0 0 18)).comp = df d 0 32 12) ∧ (reservedSet d [fmask 0 18 + fmask 32 12, 0, 0, 0] = false) ∧ ((ext s (df d 0 0 18)).state = 3) ∧ (slotLive s (ext s (df d 0 0 18)).kslot (ext s (df d 0 0 18)).kgen = false) ∧ answered (exec (.extScrub cs) s) (fun t => decide ((ctl t cs).wait = .scrub (df d 0 0 18) ∧ ext t (df d 0 0 18) = { ext s (df d 0 0 18) with state := 4, scrubBy := ctlStamp (ctl s cs), status := {} } ∧ (∀ e : Fin 4, e.val < memDies s → (scrubEng t e).queue = (scrubEng s e).queue ++ [(2, df d 0 0 18)]) ∧ t = setCtl (scrubExtent (dropLeased { s with tr := { s.tr with exts := tput {} s.tr.exts (df d 0 0 18) (tget {} t.tr.exts (df d 0 0 18)) } } (df d 0 0 18)) (df d 0 0 18)) cs { ctl s cs with wait := .scrub (df d 0 0 18) })) = true :=
  ⟨prog { up with tr := { up.tr with exts := [(262143, { state := 3, comp := 5, grains := 4 })] } } 0x86 [w64 (262143 + 5 * 2 ^ 32), 0, 0, 0], 0, [w64 (262143 + 5 * 2 ^ 32), 0, 0, 0], by decide +kernel⟩

theorem test_ext_scrub_end : ∃ (s : State) (x g f : Nat), (working s = true) ∧ ((ext s x).state = 4) ∧ ((ext s x).base = g * grainB) ∧ ((ext s x).grains = 1) ∧ (s.tr.tmap = [(g, { loc := 2, frame := f })]) ∧ (scrubbing (endScrubs s) (2, x) = false) ∧ ((List.range 9).find? (fun cs => decide ((ctl (endScrubs s) cs).wait = .scrub x)) = none) ∧ answered (exec (.extScrubEnd x) s) (fun t => decide (ext t x = {} ∧ t.tr.tmap = [] ∧ tget 0 t.tr.frames f = 0 ∧ memGet t.tr.hbm (f * grainB) = 0 ∧ t = stateRecord (setExt { (unreserve (ieCount (freeFrame (endScrubs s) f) 4 grainB) x) with tr := { (unreserve (ieCount (freeFrame (endScrubs s) f) 4 grainB) x).tr with tmap := [] } } x {}) 32)) = true :=
  ⟨{ up with tr := { up.tr with exts := [(9, { state := 4, base := 3 * 2 ^ 21, grains := 1 })], tmap := [(3, { loc := 2, frame := 6 })], frames := [(6, 4)], hbm := [(6 * 2 ^ 21, 1), (7 * 2 ^ 21, 1)] } }, 9, 3, 6, by decide +kernel⟩

theorem test_ext_scrub_end_completes : ∃ (s : State) (x cs : Nat), (working s = true) ∧ ((ext s x).state = 4) ∧ ((ext s x).grains = 0) ∧ (s.tr.reserved = []) ∧ (scrubbing (endScrubs s) (2, x) = false) ∧ ((List.range 9).find? (fun cs => decide ((ctl (endScrubs s) cs).wait = .scrub x)) = some cs) ∧ answered (exec (.extScrubEnd x) s) (fun t => decide (Completed s t cs 0 ∧ ext t x = {} ∧ t = ctlComplete (setExt (ieCount (endScrubs s) 4 0) x {}) cs 0 none (some (stampKey okExtent x)) 64)) = true :=
  ⟨setCtl { up with tr := { up.tr with exts := [(9, { state := 4 })] } } 3 { state := 1, wait := .scrub 9 }, 9, 3, by decide +kernel⟩

theorem test_read_request : ∃ (s : State) (f : Frame), (Admitted s f) ∧ (f.op = 0x01) ∧ (InHbm s (region s f.region).extent (faOff f.dst)) ∧ answered (exec (.readRequest f {}) s) (fun t => decide (t.te.out = s.te.out ++ [{ f := mkCpl f 0 (memRead s.tr.hbm (hbmAddr s (faOff f.dst)) f.len) }] ∧ t = serve (takeUp s f) f (region s f.region).extent false)) = true :=
  ⟨pool, { req 1 1 0 [] with len := 32 }, by decide +kernel⟩

theorem test_read_request_refused : ∃ (s : State) (f : Frame), (atTarget s f = true) ∧ (formOk f = true) ∧ (isLease f = false) ∧ ((epochFence s f).1 = 0) ∧ (faOff f.dst < objBase) ∧ ((regionCheck s f).1 ≠ 0) ∧ (f.op = 0x01) ∧ answered (exec (.readRequest f {}) s) (fun t => decide (t.te.out = s.te.out ++ [{ f := mkCpl f (regionCheck s f).1 [] }] ∧ t = answer (regionCheck (takeUp s f) f).2 f (regionCheck s f).1)) = true :=
  ⟨pool, { req 1 1 0 [] with len := 32, rkey := 3 }, by decide +kernel⟩

theorem test_read_request_waits : ∃ (s : State) (f : Frame), (atTarget s f = true) ∧ (formOk f = true) ∧ (isLease f = false) ∧ ((epochFence s f).1 = 0) ∧ (faOff f.dst < objBase) ∧ ((regionCheck s f).1 = 0) ∧ ((lastChecks s f).1 = 0) ∧ (memWaits s f = true) ∧ (f.op = 0x01) ∧ answered (exec (.readRequest f {}) s) (fun t => decide (t = holdBack s f)) = true :=
  ⟨{ pool with tr := { pool.tr with pend := [(0, { active := true, frame := req 2 1 0 [1], len := 32 })] } }, { req 1 1 0 [] with len := 32 }, by decide +kernel⟩

theorem test_read_object : ∃ (s : State) (f : Frame), (atTarget s f = true) ∧ (formOk f = true) ∧ (isLease f = false) ∧ ((epochFence s f).1 = 0) ∧ (f.op = 0x01) ∧ (f.len = 8) ∧ (objBase ≤ faOff f.dst) ∧ ((faOff f.dst - objBase) / 8 < 16384) ∧ ((objAt s ((faOff f.dst - objBase) / 8)).status.enabled = true) ∧ ((objAt s ((faOff f.dst - objBase) / 8)).comp = f.comp) ∧ answered (exec (.readRequest f {}) s) (fun t => decide (t = answer (takeUp s f) f 0 (bytesLE 8 (objAt s ((faOff f.dst - objBase) / 8)).value.toNat))) = true :=
  ⟨{ pool with te := { pool.te with sync := [(1, { status := { enabled := true }, comp := 5, value := 77 })] } }, { req 1 1 0xFFFFFFF00008 [] with len := 8 }, by decide +kernel⟩

theorem test_lease_read : ∃ (s : State) (f : Frame), (atTarget s f = true) ∧ (formOk f = true) ∧ (isLease f = true) ∧ (f.op = 0x01) ∧ (reloading s .lease (f.region - 0xFF00) = false) ∧ ((lease s (f.region - 0xFF00)).state = 2 ∨ (lease s (f.region - 0xFF00)).state = 3) ∧ ((lease s (f.region - 0xFF00)).borrower = false) ∧ (f.src = 0xF000 + (lease s (f.region - 0xFF00)).peer) ∧ ((lease s (f.region - 0xFF00)).base ≤ faOff f.dst) ∧ (faOff f.dst + f.len ≤ (lease s (f.region - 0xFF00)).base + (lease s (f.region - 0xFF00)).grains * grainB) ∧ ((lease s (f.region - 0xFF00)).rkey = f.rkey) ∧ ((lease s (f.region - 0xFF00)).medium = 0) ∧ answered (exec (.readRequest f {}) s) (fun t => decide (t = answer (takeUp s f) f 0 (memRead s.tr.hbm ((lease s (f.region - 0xFF00)).frames.getD ((faOff f.dst - (lease s (f.region - 0xFF00)).base) / grainB) 0 * grainB + faOff f.dst % grainB) f.len))) = true :=
  ⟨{ pool with tr := { pool.tr with leases := [(4, { state := 2, peer := 9, grains := 1, base := 0x200000, frames := [1] })] } }, { req 1 1 0x200000 [] with len := 32, src := 0xF009, region := 0xFF04 }, by decide +kernel⟩

theorem test_write_request : ∃ (s : State) (f : Frame), (Admitted s { f with group := 0 }) ∧ (f.op = 0x02 ∨ f.op = 0x06) ∧ (InHbm s (region s f.region).extent (faOff f.dst)) ∧ answered (exec (.writeRequest f) s) (fun t => decide (t.te.out = s.te.out ++ [{ f := mkCpl f 0 [] }] ∧ memRead t.tr.hbm (hbmAddr s (faOff f.dst)) f.data.length = mergeBE f.be (memRead s.tr.hbm (hbmAddr s (faOff f.dst)) f.data.length) f.data ∧ t = serve (takeUp s { f with group := 0 }) { f with group := 0 } (region s f.region).extent false)) = true :=
  ⟨pool, { req 2 1 5 [1, 2, 3] with be := [true, false, true] }, by decide +kernel⟩

theorem test_pwrite_request : ∃ (s : State) (f : Frame), (Admitted s f) ∧ (f.op = 0x03) ∧ (InHbm s (region s f.region).extent (faOff f.dst)) ∧ answered (exec (.pwriteRequest f) s) (fun t => decide (memRead t.tr.hbm (hbmAddr s (faOff f.dst)) f.data.length = mergeBE f.be (memRead s.tr.hbm (hbmAddr s (faOff f.dst)) f.data.length) f.data ∧ t = serve (takeUp s f) f (region s f.region).extent false)) = true :=
  ⟨pool, { req 3 1 4095 [7] with stream := 0, tag := 0 }, by decide +kernel⟩

theorem test_atomic_request : ∃ (s : State) (f : Frame), (Admitted s f) ∧ (f.op = 0x04) ∧ (InHbm s (region s f.region).extent (faOff f.dst)) ∧ (cacheStep s f = .fresh) ∧ (rcFull s f = false) ∧ answered (exec (.atomicRequest f) s) (fun t => decide (t.te.out = s.te.out ++ [{ f := mkCpl f 0 (memRead s.tr.hbm (hbmAddr s (faOff f.dst)) (opWidth f.opw)) }] ∧ memRead t.tr.hbm (hbmAddr s (faOff f.dst)) (opWidth f.opw) = bytesLE (opWidth f.opw) (atomicOp f.subop (opWidth f.opw) (leAt (memRead s.tr.hbm (hbmAddr s (faOff f.dst)) (opWidth f.opw)) 0 (opWidth f.opw)) (leAt f.data 0 (opWidth f.opw)) (leAt f.data (opWidth f.opw) (opWidth f.opw))) ∧ rcFind t f = some (w64 (leAt (memRead s.tr.hbm (hbmAddr s (faOff f.dst)) (opWidth f.opw)) 0 (opWidth f.opw))) ∧ t = serve (takeUp s f) f (region s f.region).extent false)) = true :=
  ⟨pool, { req 4 3 4 [255, 255, 255, 255] with opw := 2 }, by decide +kernel⟩

theorem test_redw_request : ∃ (s : State) (f : Frame), (Admitted s f) ∧ (f.op = 0x05) ∧ ((region s f.region).welt = false) ∧ (InHbm s (region s f.region).extent (faOff f.dst)) ∧ (cacheStep s f = .fresh) ∧ (rcFull s f = false) ∧ answered (exec (.redwRequest f) s) (fun t => decide (t.te.out = s.te.out ++ [{ f := mkCpl f 0 [] }] ∧ memRead t.tr.hbm (hbmAddr s (faOff f.dst)) f.data.length = redwBytes f.subop f.etype (memRead s.tr.hbm (hbmAddr s (faOff f.dst)) f.data.length) f.data ∧ rcFind t f = some 0 ∧ t = serve (takeUp s f) f (region s f.region).extent false)) = true :=
  ⟨pool, { req 5 3 252 [1, 0, 0, 0] with etype := 0xD }, by decide +kernel⟩

theorem test_atomic_duplicate : ∃ (s : State) (f : Frame) (v : W64), (atTarget s f = true) ∧ (formOk f = true) ∧ ((epochFence s f).1 = 0) ∧ (faOff f.dst < objBase) ∧ ((regionCheck s f).1 = 0) ∧ (f.op = 0x04) ∧ (rcFind s f = some v) ∧ answered (exec (.atomicRequest f) s) (fun t => decide (t.te.out = s.te.out ++ [{ f := mkCpl f 0 (bytesLE (opWidth f.opw) v.toNat) }] ∧ t = answer (teCount (takeUp s f) 0 1) f 0 (bytesLE (opWidth f.opw) v.toNat))) = true :=
  ⟨{ pool with te := { pool.te with rc := [{ used := true, src := 9, stream := 8, applied := [(3, some 6)] }] } }, { req 4 3 8 [0, 1, 0, 0] with opw := 2 }, 6, by decide +kernel⟩

theorem test_arrive_request : ∃ (s : State) (f : Frame) (n v : Nat), (atTarget s f = true) ∧ (f.op = 0x09) ∧ (formOk f = true) ∧ (objBase ≤ faOff f.dst) ∧ (f.dst % 16384 = n) ∧ (cacheStep s f = .fresh) ∧ (rcFull s f = false) ∧ ((objAt s n).notify = false) ∧ (fmUpdate f = true ∨ (epochFence s f).1 = 0) ∧ (updateValue s n (updReach s f) false (leAt f.data 0 8) = some v) ∧ (flowBusy s f = false) ∧ answered (exec (.arriveRequest f) s) (fun t => decide (objAt t n = { objAt s n with value := w64 v } ∧ t.te.out = s.te.out ++ [{ f := mkCpl f 0 [] }] ∧ rcFind t f = some 0 ∧ t = answer (rcRecord (setObject (takeUp s f) n v) f 0) f 0)) = true :=
  ⟨{ pool with te := { pool.te with sync := [(16383, { status := { enabled := true }, comp := 5, kind := 1, n := 3, value := 2 })] } }, req 9 3 (0xFFFFFFF00000 + 16383) [1, 0, 0, 0, 0, 0, 0, 0], 16383, 2 ^ 32, by decide +kernel⟩

theorem test_arrive_request_notifies : ∃ (s : State) (f : Frame) (n v : Nat), (atTarget s f = true) ∧ (f.op = 0x09) ∧ (formOk f = true) ∧ (objBase ≤ faOff f.dst) ∧ (f.dst % 16384 = n) ∧ (fmUpdate f = true ∨ (epochFence s f).1 = 0) ∧ (cacheStep s f = .fresh) ∧ (rcFull s f = false) ∧ (updateValue s n (updReach s f) false (leAt f.data 0 8) = some v) ∧ (flowBusy s f = false) ∧ answered (exec (.arriveRequest f) s) (fun t => decide (objAt t n = { objAt s n with value := w64 v } ∧ rcFind t f = some 0 ∧ t = answer (rcRecord (setObject (takeUp s f) n v) f 0) f 0)) = true :=
  ⟨{ pool with te := { pool.te with sync := [(16383, { status := { enabled := true }, comp := 5, notify := true, thr := 3, ep := 77, value := 2 })] } }, req 9 3 (0xFFFFFFF00000 + 16383) [1, 0, 0, 0, 0, 0, 0, 0], 16383, 3, by decide +kernel⟩

theorem test_signal_request : ∃ (s : State) (f : Frame) (n v : Nat), (atTarget s f = true) ∧ (f.op = 0x0A) ∧ (formOk f = true) ∧ (objBase ≤ faOff f.dst) ∧ (f.dst % 16384 = n) ∧ (cacheStep s f = .fresh) ∧ (rcFull s f = false) ∧ ((objAt s n).notify = false) ∧ (fmUpdate f = true ∨ (epochFence s f).1 = 0) ∧ (updateValue s n (updReach s f) true (leAt f.data 0 8) = some v) ∧ (flowBusy s f = false) ∧ answered (exec (.signalRequest f) s) (fun t => decide (objAt t n = { objAt s n with value := w64 v } ∧ t.te.out = s.te.out ++ [{ f := mkCpl f 0 [] }] ∧ rcFind t f = some 0 ∧ t = answer (rcRecord (setObject (takeUp s f) n v) f 0) f 0)) = true :=
  ⟨{ pool with te := { pool.te with sync := [(0, { status := { enabled := true }, comp := 5, kind := 2, value := 2 })] } }, req 10 3 0xFFFFFFF00000 [0, 1, 0, 0, 0, 0, 0, 0], 0, 256, by decide +kernel⟩

theorem test_mcw_request : ∃ (s : State) (f : Frame) (r : State × Nat), (working s = true) ∧ (f.op = 0x06) ∧ (mcwStatus s f = 0) ∧ (admitAll (if f.src < 0xF000 then (endpointPort s f.src).getD 192 else 192) s.now (mcwKeep s f) ((mcwCopies s f).map fun c => { f := c }) = some r) ∧ answered (exec (.mcwRequest f) s) (fun t => decide (t = swCount r.1 (if f.src < 0xF000 then (endpointPort s f.src).getD 192 else 192) 5 r.2)) = true :=
  ⟨{ pool with swNum := 1, sw := { pool.sw with groups := [(4, { status := { enabled := true }, comp := 5, count := 0, senders := 0, members := [(0, some (2 ^ 48))] })] } }, { req 6 5 0 (List.replicate 32 1) with group := 4, region := 1, src := 0xF001 }, (admitAll 192 0 (mcwKeep { pool with swNum := 1, sw := { pool.sw with groups := [(4, { status := { enabled := true }, comp := 5, count := 0, senders := 0, members := [(0, some (2 ^ 48))] })] } } { req 6 5 0 (List.replicate 32 1) with group := 4, region := 1, src := 0xF001 }) ((mcwCopies { pool with swNum := 1, sw := { pool.sw with groups := [(4, { status := { enabled := true }, comp := 5, count := 0, senders := 0, members := [(0, some (2 ^ 48))] })] } } { req 6 5 0 (List.replicate 32 1) with group := 4, region := 1, src := 0xF001 }).map fun c => { f := c })).getD ({ pool with swNum := 1, sw := { pool.sw with groups := [(4, { status := { enabled := true }, comp := 5, count := 0, senders := 0, members := [(0, some (2 ^ 48))] })] } }, 9), by decide +kernel⟩

theorem test_mcw_request_copies : ∃ (s : State) (f : Frame) (b : Nat), (working s = true) ∧ (f.op = 0x06) ∧ (0xF000 ≤ f.src) ∧ (mcwStatus s f = 0) ∧ (groupBases (group s f.group) = [b]) ∧ (egressPort (egressOf (mcwKeep s f) { f := mcwCopy s f b s.te.nextId 0 }) = some 192) ∧ (routeHolds (mcwKeep s f) (mcwCopy s f b s.te.nextId 0) = false) ∧ (alphaOk (mcwKeep s f) 192 (queueOf (mcwKeep s f) 192 (mcwCopy s f b s.te.nextId 0)) (frameCells (mcwCopy s f b s.te.nextId 0)) false = true) ∧ answered (exec (.mcwRequest f) s) (fun t => decide (t.te.nextId = s.te.nextId + 1 ∧ tget {} t.te.mcw (freeMcw s) = { active := true, frame := f, left := [0xFF] } ∧ t = swCount (enqueue (portOutDone (mcwKeep s f) (mcwCopy s f b s.te.nextId 0)) 192 (stampRoute (mcwKeep s f) (mcwCopy s f b s.te.nextId 0)) 192 s.now) 192 5 1)) = true :=
  ⟨{ pool with swNum := 1, sw := { pool.sw with groups := [(4, { status := { enabled := true }, comp := 5, count := 0, senders := 0, members := [(0, some (2 ^ 48))] })] } }, { req 6 5 0 (List.replicate 32 1) with group := 4, region := 1, src := 0xF001 }, 2 ^ 48, by decide +kernel⟩

theorem test_mcw_request_refused : ∃ (s : State) (f : Frame), (working s = true) ∧ (f.op = 0x06) ∧ (mcwStatus s f = 3) ∧ answered (exec (.mcwRequest f) s) (fun t => decide (t = answer s f 3)) = true :=
  ⟨pool, { req 6 5 0 (List.replicate 32 1) with group := 4, region := 1 }, by decide +kernel⟩

theorem test_mcw_request_fenced : ∃ (s : State) (f : Frame), (working s = true) ∧ (f.op = 0x06) ∧ (mcwStatus s f = 9) ∧ answered (exec (.mcwRequest f) s) (fun t => decide (t = answer (teCount s 7 1) f 9)) = true :=
  ⟨{ pool with te := { pool.te with fences := [(5, { comp := true })] } }, { req 6 5 0 (List.replicate 32 1) with group := 4, region := 1 }, by decide +kernel⟩

theorem test_fence_request : ∃ (s : State) (f : Frame), (atTarget s f = true) ∧ (f.op = 0x08) ∧ (formOk f = true) ∧ ((epochFence s f).1 = 0) ∧ (srcBusy s f = false) ∧ answered (exec (.fenceRequest f) s) (fun t => decide (t.te.out = s.te.out ++ [{ f := mkCpl f 0 [] }] ∧ t = answer s f 0)) = true :=
  ⟨pool, req 8 3 0 [], by decide +kernel⟩

theorem test_fence_request_refused : ∃ (s : State) (f : Frame), (atTarget s f = true) ∧ (f.op = 0x08) ∧ (formOk f = true) ∧ ((epochFence s f).1 ≠ 0) ∧ answered (exec (.fenceRequest f) s) (fun t => decide (t = answer (epochFence s f).2 f (epochFence s f).1)) = true :=
  ⟨{ pool with te := { pool.te with fences := [(5, { peers := [9] })] } }, req 8 3 0 [], by decide +kernel⟩

theorem test_drain_marker : ∃ (s : State) (f : Frame), (atTarget s f = true) ∧ (f.op = 0x0B) ∧ (formOk f = true) ∧ answered (exec (.drainMarker f) s) (fun t => decide (t.te.out = s.te.out ++ [{ f := mkCpl f 0 [] }] ∧ t = { s with te := { s.te with out := t.te.out } })) = true :=
  ⟨pool, req 11 0 0 [], by decide +kernel⟩

theorem test_probe_composition : ∃ (s : State) (f : Frame), (atTarget s f = true) ∧ (f.op = 0x0C) ∧ (formOk f = true) ∧ (6 ≤ f.data.length) ∧ (leAt f.data 2 1 = 0) ∧ (scopeBusy (applyFence s (leAt f.data 0 2) 0 (leAt f.data 4 2)) (leAt f.data 0 2) 0 (leAt f.data 4 2) = false) ∧ answered (exec (.probe f) s) (fun t => decide ((fenceOf t (leAt f.data 0 2)).comp = true ∧ t = answer (dropProbe (applyFence s (leAt f.data 0 2) 0 (leAt f.data 4 2)) f) f 0)) = true :=
  ⟨pool, req 12 0 0 [5, 0, 0, 0, 0, 0], by decide +kernel⟩

theorem test_probe_peer : ∃ (s : State) (f : Frame), (atTarget s f = true) ∧ (f.op = 0x0C) ∧ (formOk f = true) ∧ (6 ≤ f.data.length) ∧ (leAt f.data 2 1 = 1) ∧ (fenceFull s (leAt f.data 0 2) 1 (leAt f.data 4 2) = false) ∧ (scopeBusy (applyFence s (leAt f.data 0 2) 1 (leAt f.data 4 2)) (leAt f.data 0 2) 1 (leAt f.data 4 2) = false) ∧ answered (exec (.probe f) s) (fun t => decide ((fenceOf t (leAt f.data 0 2)).peers.contains (leAt f.data 4 2) = true ∧ t = answer (dropProbe (applyFence s (leAt f.data 0 2) 1 (leAt f.data 4 2)) f) f 0)) = true :=
  ⟨pool, req 12 0 0 [5, 0, 1, 0, 9, 0], by decide +kernel⟩

theorem test_probe_waits : ∃ (s : State) (f : Frame), (atTarget s f = true) ∧ (f.op = 0x0C) ∧ (formOk f = true) ∧ (6 ≤ f.data.length) ∧ (leAt f.data 2 1 = 1) ∧ (fenceFull s (leAt f.data 0 2) 1 (leAt f.data 4 2) = false) ∧ (scopeBusy (applyFence s (leAt f.data 0 2) 1 (leAt f.data 4 2)) (leAt f.data 0 2) 1 (leAt f.data 4 2) = true) ∧ answered (exec (.probe f) s) (fun t => decide ((fenceOf t (leAt f.data 0 2)).peers.contains (leAt f.data 4 2) = true ∧ t.te.probes.contains { src := f.src, dst := f.dst, stream := f.stream, tag := f.tag, comp := leAt f.data 0 2, kind := 1, peer := leAt f.data 4 2 } = true ∧ t = keepProbe (applyFence s (leAt f.data 0 2) 1 (leAt f.data 4 2)) { src := f.src, dst := f.dst, stream := f.stream, tag := f.tag, comp := (leAt f.data 0 2), kind := 1, peer := (leAt f.data 4 2) })) = true :=
  ⟨{ pool with tr := { pool.tr with pend := [(0, { active := true, frame := req 1 1 0 [] })] } }, req 12 0 0 [5, 0, 1, 0, 9, 0], by decide +kernel⟩

theorem test_msg_request : ∃ (s : State) (f : Frame) (p : Nat), (atTarget s f = true) ∧ (f.op = 0x07) ∧ (formOk f = true) ∧ (isLeaseMsg f = false) ∧ ((epochFence s f).1 = 0) ∧ (endpointPort s (f.dst % 65536) = some p) ∧ (portUp s p = true) ∧ answered (exec (.msgRequest f) s) (fun t => decide (t.te.out = s.te.out ++ [{ f := f, via := some p }] ∧ t = sendOut s f (some p))) = true :=
  ⟨{ pool with pc := { pool.pc with ports := [(190, { profile := 1, peerId := 77, peerCount := 1, state := 4 })] } }, req 7 0 77 (List.replicate 8 1), 190, by decide +kernel⟩

theorem test_reply_cache_expiry : ∃ (s : State) (i : Nat) (e : RcEntry), (working s = true) ∧ (s.te.rc[i]? = some e) ∧ (e.expiry ≤ s.now) ∧ ((replayFrom s).isNone = true) ∧ answered (exec (.replyCacheExpiry i) s) (fun t => decide (t.te.rc = s.te.rc.eraseIdx i ∧ t = { s with te := { s.te with rc := t.te.rc } })) = true :=
  ⟨{ pool with now := 9, te := { pool.te with rc := [{}, { used := true, expiry := 9 }] } }, 1, { used := true, expiry := 9 }, by decide +kernel⟩

theorem test_cpl_receive : ∃ (s : State) (f : Frame) (o : OutReq) (k : Nat), (working s = true) ∧ (f.op = 0x0F) ∧ (f.status = 0) ∧ (outEnds s f = some o) ∧ (o.what = .notice) ∧ (peerOf s o = some k) ∧ ((peer s k).suspect = false) ∧ answered (exec (.cplReceive f) s) (fun t => decide (t.te.outst = s.te.outst.erase o ∧ peer t k = { peer s k with timeouts := 0, lastOk := s.now } ∧ t = { s with te := { s.te with outst := t.te.outst, peers := tput {} s.te.peers (k) (tget {} t.te.peers (k)) } })) = true :=
  ⟨{ up with now := 7, te := { up.te with outst := [{ frame := { op := 7, dst := 77 } }], peers := [(77, { timeouts := 7 })] } }, { op := 0x0F, dst := 77 }, { frame := { op := 7, dst := 77 } }, 77, by decide +kernel⟩

theorem test_cpl_receive_ends : ∃ (s : State) (f : Frame) (o : OutReq), (working s = true) ∧ (f.op = 0x0F) ∧ (f.status ≠ 1 ∨ ownRetry o.what = true) ∧ (outEnds s f = some o) ∧ answered (exec (.cplReceive f) s) (fun _ => decide (True)) = true :=
  ⟨{ up with now := 7, te := { up.te with outst := [{ frame := { op := 7, dst := 77 } }], peers := [(77, { timeouts := 7 })] } }, { op := 0x0F, dst := 77, status := 3 }, { frame := { op := 7, dst := 77 } }, by decide +kernel⟩

theorem test_cpl_retry_later : ∃ (s : State) (f : Frame) (o : OutReq), (working s = true) ∧ (f.op = 0x0F) ∧ (f.status = 1) ∧ (outEnds s f = some o) ∧ (ownRetry o.what = false) ∧ (taggedOp o.frame.op = false) ∧ answered (exec (.cplReceive f) s) (fun t => decide (t.te.out = s.te.out ++ [{ f := o.frame, via := o.via }] ∧ t.te.outst = (s.te.outst.map fun x => if x = o then { x with lastSend := s.now } else x) ∧ t = { s with te := { s.te with out := t.te.out, outst := t.te.outst } })) = true :=
  ⟨{ up with now := 7, te := { up.te with outst := [{ frame := { op := 1, dst := 64 } }] } }, { op := 0x0F, dst := 64, status := 1 }, { frame := { op := 1, dst := 64 } }, by decide +kernel⟩

theorem test_tagged_resend : ∃ (s : State) (stream tag : Nat) (o : OutReq), (working s = true) ∧ (outFind s stream tag = some o) ∧ (taggedOp o.frame.op = true) ∧ (o.held = false) ∧ (o.lastSend + 20000 ≤ s.now) ∧ answered (exec (.taggedResend stream tag) s) (fun t => decide (t.te.out = s.te.out ++ [{ f := o.frame, via := o.via }] ∧ t.te.outst = (s.te.outst.map fun x => if x = o then { x with lastSend := s.now } else x) ∧ tget 0 t.te.ctr 3 = satInc (tget 0 s.te.ctr 3) 1 ∧ t = { s with te := { s.te with out := t.te.out, outst := t.te.outst, ctr := tput 0 s.te.ctr (3) (tget 0 t.te.ctr (3)) } })) = true :=
  ⟨{ up with now := 20000, te := { up.te with outst := [{ frame := { op := 9, stream := 4, tag := 6 } }] } }, 4, 6, { frame := { op := 9, stream := 4, tag := 6 } }, by decide +kernel⟩

theorem test_completion_timeout : ∃ (s : State) (stream tag : Nat) (o : OutReq) (k : Nat), (working s = true) ∧ (outFind s stream tag = some o) ∧ (o.what = .notice) ∧ (o.held = false) ∧ (o.issued + ctoNs s o.frame.comp ≤ s.now) ∧ (peerOf s o = some k) ∧ ((peer s k).timeouts < 7) ∧ answered (exec (.completionTimeout stream tag) s) (fun t => decide (t.te.outst = s.te.outst.erase o ∧ (peer t k).timeouts = (peer s k).timeouts + 1 ∧ tget 0 t.te.ctr 4 = satInc (tget 0 s.te.ctr 4) 1 ∧ t = { s with te := { s.te with outst := t.te.outst, ctr := tput 0 s.te.ctr (4) (tget 0 t.te.ctr (4)), peers := tput {} s.te.peers (k) { tget {} s.te.peers (k) with timeouts := (tget {} t.te.peers (k)).timeouts } } })) = true :=
  ⟨{ up with now := 50000, te := { up.te with outst := [{ frame := { op := 7, stream := 4, tag := 6 } }], peers := [(0, { timeouts := 6 })] } }, 4, 6, { frame := { op := 7, stream := 4, tag := 6 } }, 0, by decide +kernel⟩

theorem test_completion_timeout_suspect : ∃ (s : State) (stream tag : Nat) (o : OutReq) (k : Nat), (working s = true) ∧ (outFind s stream tag = some o) ∧ (o.what = .notice) ∧ (o.held = false) ∧ (o.issued + ctoNs s o.frame.comp ≤ s.now) ∧ (peerOf s o = some k) ∧ (7 ≤ (peer s k).timeouts) ∧ answered (exec (.completionTimeout stream tag) s) (fun t => decide ((peer t k).suspect = true ∧ t.te.outst = s.te.outst.erase o ∧ t = teCount (suspect (setPeer { s with te := { s.te with outst := t.te.outst } } k { peer s k with timeouts := (peer s k).timeouts + 1 }) k 1) 4 1)) = true :=
  ⟨{ up with now := 50000, te := { up.te with outst := [{ frame := { op := 7, stream := 4, tag := 6 } }], peers := [(0, { timeouts := 7 })] } }, 4, 6, { frame := { op := 7, stream := 4, tag := 6 } }, 0, by decide +kernel⟩

theorem test_walk_read_pointer : ∃ (s : State) (n status x : Nat) (data : W64) (bs : Bytes) (w : Walk), (working s = true) ∧ (walkRuns s n = true) ∧ (tget {} s.tu.walks n = w) ∧ ((asid s w.asid).status.enabled = true) ∧ (w.poisoned = false) ∧ (ownRead s (walkFa w) 8 status (bytesLE 8 data.toNat) = (0, bs)) ∧ ((w64 (leAt bs 0 8)).toNat = x) ∧ (x % 2 = 1) ∧ (pteBad s w.level x = false) ∧ (w.level < 3) ∧ (fldN x 1 1 = 0) ∧ answered (exec (.walkReadDone n status data) s) (fun t => decide (tget {} t.tu.walks n = { w with level := w.level + 1, table := fldN x 16 44 * 65536 } ∧ tget 0 t.tu.ctr 2 = satInc (tget 0 s.tu.ctr 2) 1 ∧ t = sliceInstall { s with tu := { s.tu with walks := tput {} s.tu.walks (n) (tget {} t.tu.walks (n)), ctr := tput 0 s.tu.ctr (2) (tget 0 t.tu.ctr (2)) } } w.slice (tlbMask s w.tenant) { asid := w.asid, key := w.vpn * 65536 / 2 ^ keyShift w.level, kind := w.level, fa := fldN x 16 44 * 65536 })) = true :=
  ⟨{ pool with swNum := 1, tu := { pool.tu with asids := [(4, { status := { enabled := true }, comp := 5 })], walks := [(2, { active := true, asid := 4, level := 2, table := 2 ^ 48 + 2 ^ 20, comp := 5, tenant := 7 })] }, tr := { pool.tr with hbm := memWrite [] (2 ^ 21 + 2 ^ 20) (bytesLE 8 (1 + (2 ^ 32 + 9) * 2 ^ 16)) }, ie := { pool.ie with tenants := [(0, { status := { enabled := true }, id := 7, tlb := 2 })] } }, 2, 0, 1 + (2 ^ 32 + 9) * 2 ^ 16, 0, bytesLE 8 (1 + (2 ^ 32 + 9) * 2 ^ 16), { active := true, asid := 4, level := 2, table := 2 ^ 48 + 2 ^ 20, comp := 5, tenant := 7 }, by decide +kernel⟩

theorem test_walk_read_leaf : ∃ (s : State) (n status x : Nat) (data : W64) (bs : Bytes) (w : Walk) (r : Nat) (y : Region), (working s = true) ∧ (walkRuns s n = true) ∧ (tget {} s.tu.walks n = w) ∧ ((asid s w.asid).status.enabled = true) ∧ (w.poisoned = false) ∧ (w.waiters = []) ∧ (ownRead s (walkFa w) 8 status (bytesLE 8 data.toNat) = (0, bs)) ∧ ((w64 (leAt bs 0 8)).toNat = x) ∧ (x % 2 = 1) ∧ (pteBad s w.level x = false) ∧ (w.level = 3) ∧ (regionFor s w.comp (fldN x 16 44 * 65536 + w.vpn * 65536 % 2 ^ 16) = some (r, y)) ∧ (tlbMask s w.tenant ≠ 0) ∧ answered (exec (.walkReadDone n status data) s) (fun t => decide ((sliceFind t w.slice (2 ^ (pickWay (sliceEnts s w.slice) (tlbMask s w.tenant) 3 w.vpn)) w.asid (w.vpn * 65536) 3).isSome = true ∧ tget {} t.tu.walks n = {} ∧ tget 0 t.tu.ctr 2 = satInc (tget 0 s.tu.ctr 2) 1 ∧ t = sliceInstall { s with tu := { s.tu with walks := tput {} s.tu.walks (n) (tget {} t.tu.walks (n)), ctr := tput 0 s.tu.ctr (2) (tget 0 t.tu.ctr (2)) } } w.slice (tlbMask s w.tenant) { asid := w.asid, key := w.vpn * 65536 / 2 ^ 16, kind := 3, fa := fldN x 16 44 * 65536, rights := pteRights x, region := r, rkey := y.rkey, entry := walkFa w })) = true :=
  ⟨{ pool with tu := { pool.tu with asids := [(4, { status := { enabled := true }, comp := 5 })], walks := [(2, { active := true, asid := 4, vpn := 3, level := 3, table := 2 ^ 20, comp := 5, tenant := 7 })] }, tr := { pool.tr with hbm := memWrite [] (2 ^ 21 + 2 ^ 20 + 24) (bytesLE 8 (0x1F + 9 * 2 ^ 16)) }, ie := { pool.ie with tenants := [(0, { status := { enabled := true }, id := 7, tlb := 2 })] } }, 2, 0, 0x1F + 9 * 2 ^ 16, 0, bytesLE 8 (0x1F + 9 * 2 ^ 16), { active := true, asid := 4, vpn := 3, level := 3, table := 2 ^ 20, comp := 5, tenant := 7 }, 1, { status := { enabled := true }, comp := 5, rights := 7, pages := 32, extent := 2 }, by decide +kernel⟩

theorem test_walk_read_leaf_wakes : ∃ (s : State) (n status x : Nat) (data : W64) (bs : Bytes) (w : Walk) (r : Nat) (y : Region), (working s = true) ∧ (walkRuns s n = true) ∧ (tget {} s.tu.walks n = w) ∧ ((asid s w.asid).status.enabled = true) ∧ (w.poisoned = false) ∧ (ownRead s (walkFa w) 8 status (bytesLE 8 data.toNat) = (0, bs)) ∧ ((w64 (leAt bs 0 8)).toNat = x) ∧ (x % 2 = 1) ∧ (pteBad s w.level x = false) ∧ (w.level = 3) ∧ (regionFor s w.comp (fldN x 16 44 * 65536 + w.vpn * 65536 % 2 ^ 16) = some (r, y)) ∧ answered (exec (.walkReadDone n status data) s) (fun _ => decide (True)) = true :=
  ⟨{ pool with tu := { pool.tu with asids := [(4, { status := { enabled := true }, comp := 5 })], walks := [(2, { active := true, asid := 4, vpn := 3, level := 3, table := 2 ^ 20, comp := 5, tenant := 7 })] }, tr := { pool.tr with hbm := memWrite [] (2 ^ 21 + 2 ^ 20 + 24) (bytesLE 8 (0x1F + 9 * 2 ^ 16)) } }, 2, 0, 0x1F + 9 * 2 ^ 16, 0, bytesLE 8 (0x1F + 9 * 2 ^ 16), { active := true, asid := 4, vpn := 3, level := 3, table := 2 ^ 20, comp := 5, tenant := 7 }, 1, { status := { enabled := true }, comp := 5, rights := 7, pages := 32, extent := 2 }, by decide +kernel⟩

theorem test_walk_read_absent : ∃ (s : State) (n status : Nat) (data : W64) (bs : Bytes) (w : Walk), (working s = true) ∧ (walkRuns s n = true) ∧ (tget {} s.tu.walks n = w) ∧ ((asid s w.asid).status.enabled = true) ∧ (w.poisoned = false) ∧ (ownRead s (walkFa w) 8 status (bytesLE 8 data.toNat) = (0, bs)) ∧ ((w64 (leAt bs 0 8)).toNat % 2 = 0) ∧ answered (exec (.walkReadDone n status data) s) (fun t => decide (t = w.waiters.foldl (fun s y => raiseFault s (waiterAcc w y) 0 0 w.level (walkFa w)) (dropWalk (tuCount s 2 1) n))) = true :=
  ⟨{ pool with tu := { pool.tu with asids := [(4, { status := { enabled := true }, comp := 5 })], walks := [(2, { active := true, asid := 4, vpn := 3, level := 3, table := 2 ^ 20, comp := 5, tenant := 7, waiters := [(.copy 1, 0)] })] } }, 2, 0, 0, List.replicate 8 0, { active := true, asid := 4, vpn := 3, level := 3, table := 2 ^ 20, comp := 5, tenant := 7, waiters := [(.copy 1, 0)] }, by decide +kernel⟩

theorem test_fault_table_retry : ∃ (s : State) (x : Nat × EngFault) (l : List (Nat × EngFault)) (i : Nat), (working s = true) ∧ (heldFaults s = x :: l) ∧ (openFault s x.2.asid x.2.vpn = none) ∧ (freeFault s = some i) ∧ answered (exec (.faultTableRetry) s) (fun t => decide ((faultEnt t i).state = 1 ∧ (faultEnt t i).asid = x.2.asid ∧ (faultEnt t i).vpn = x.2.vpn ∧ (faultEnt t i).waiters = [x.2.eng] ∧ t.tu.rrEng = x.1 + 1 ∧ t = takeFault { s with tu := { s.tu with rrEng := t.tu.rrEng } } x.2)) = true :=
  ⟨{ up with tu := { up.tu with eng := [(897, { state := 1, vpn := 3, asid := 4, eng := .copy 1 })] } }, (897, { state := 1, vpn := 3, asid := 4, eng := .copy 1 }), [], 0, by decide +kernel⟩

theorem test_fault_record_retry : ∃ (s : State) (p : Nat) (ws : List W64), (working s = true) ∧ (p < 16) ∧ (s.cc.bootDone = true) ∧ (ringFull (ring s p) = false) ∧ (nextHeld p (ring s p) = some ws) ∧ answered (exec (.faultRecordRetry p) s) (fun t => decide ((ring t p).prod = (ring s p).prod + 1 ∧ memRead t.cc.bulk ((ring s p).base + (ring s p).prod.toNat % 2 ^ (ring s p).size * 64) 64 = fitTo 64 (wordsBytes ws) ∧ (ring t p).held = (ring s p).held.erase ws ∧ (ring t p).turn = heldSrc ws ∧ t = ringPut (setRing s p { ring s p with held := (ring s p).held.erase ws, turn := heldSrc ws }) p ws)) = true :=
  ⟨setRing up 15 { base := 0x7C0000, size := 12, held := [[7, 8], [9]] }, 15, [7, 8], by decide +kernel⟩

theorem test_asid_inval_none : ∃ (s : State) (cs : Nat) (d : List W64), (Presents s cs 0x8A d) ∧ (df d 0 16 2 = 0) ∧ (stampPast s (stampKey okAsid (df d 0 0 16)) (ctl s cs) = false) ∧ (invalReason s (ctl s cs) d = 0) ∧ (reaches (ctl s cs) (asid s (df d 0 0 16)).comp = true) ∧ answered (exec (.asidInvalNone cs) s) (fun t => decide ((ctl t cs).wait = .inval (df d 0 0 16) 0 (df d 1 0 16) (df d 1 16 8) 0 s.now ∧ (∀ i : Fin 4, (sliceEnts t i).all (fun e => decide (e.asid ≠ df d 0 0 16)) = true) ∧ asid t (df d 0 0 16) = { asid s (df d 0 0 16) with status := { (asid s (df d 0 0 16)).status with draining := true, reason := 0 } } ∧ t = setCtl (setAsid (dropAsid s (df d 0 0 16)) (df d 0 0 16) (asid t (df d 0 0 16))) cs { ctl s cs with wait := .inval (df d 0 0 16) 0 (df d 1 0 16) (df d 1 16 8) 0 s.now })) = true :=
  ⟨progRt { up with tu := { up.tu with asids := [(65535, { status := { enabled := true }, comp := 5 })], slices := [(3, [{ asid := 65535 }, { asid := 1 }])], walks := [(0, { active := true, asid := 65535 })] } } 5 0x8A [w64 (65535 + 5 * 2 ^ 32), 0, 0, 0], 0, [w64 (65535 + 5 * 2 ^ 32), 0, 0, 0], by decide +kernel⟩

theorem test_asid_inval_retry_all : ∃ (s : State) (cs : Nat) (d : List W64), (Presents s cs 0x8A d) ∧ (df d 0 16 2 = 1) ∧ (stampPast s (stampKey okAsid (df d 0 0 16)) (ctl s cs) = false) ∧ (invalReason s (ctl s cs) d = 0) ∧ (reaches (ctl s cs) (asid s (df d 0 0 16)).comp = true) ∧ answered (exec (.asidInvalRetryAll cs) s) (fun t => decide ((ctl t cs).wait = .inval (df d 0 0 16) 1 (df d 1 0 16) (df d 1 16 8) 0 s.now ∧ (∀ i : Fin 4, (sliceEnts t i).all (fun e => decide (e.asid ≠ df d 0 0 16)) = true) ∧ asid t (df d 0 0 16) = { asid s (df d 0 0 16) with status := { (asid s (df d 0 0 16)).status with draining := true, reason := 0 } } ∧ t = setCtl (setAsid (dropAsid s (df d 0 0 16)) (df d 0 0 16) (asid t (df d 0 0 16))) cs { ctl s cs with wait := .inval (df d 0 0 16) 1 (df d 1 0 16) (df d 1 16 8) 0 s.now })) = true :=
  ⟨progRt { up with tu := { up.tu with asids := [(0, { status := { enabled := true }, comp := 5 })], slices := [(0, [{ asid := 0 }, { asid := 1 }])] } } 5 0x8A [w64 (2 ^ 16 + 5 * 2 ^ 32), 0, 0, 0], 0, [w64 (2 ^ 16 + 5 * 2 ^ 32), 0, 0, 0], by decide +kernel⟩

theorem test_asid_inval_abort : ∃ (s : State) (cs : Nat) (d : List W64), (Presents s cs 0x8A d) ∧ (df d 0 16 2 = 2) ∧ (stampPast s (stampKey okAsid (df d 0 0 16)) (ctl s cs) = false) ∧ (invalReason s (ctl s cs) d = 0) ∧ (reaches (ctl s cs) (asid s (df d 0 0 16)).comp = true) ∧ answered (exec (.asidInvalAbort cs) s) (fun t => decide ((ctl t cs).wait = .inval (df d 0 0 16) 2 (df d 1 0 16) (df d 1 16 8) 0 s.now ∧ (∀ i : Fin 4, (sliceEnts t i).all (fun e => decide (e.asid ≠ df d 0 0 16)) = true) ∧ asid t (df d 0 0 16) = { asid s (df d 0 0 16) with status := { (asid s (df d 0 0 16)).status with draining := true, reason := 0 } } ∧ t = setCtl (setAsid (dropAsid s (df d 0 0 16)) (df d 0 0 16) (asid t (df d 0 0 16))) cs { ctl s cs with wait := .inval (df d 0 0 16) 2 (df d 1 0 16) (df d 1 16 8) 0 s.now })) = true :=
  ⟨progRt { up with tu := { up.tu with asids := [(4, { status := { enabled := true }, comp := 5 })], faults := [(1023, { state := 1, asid := 4, gen := 63 })] } } 5 0x8A [w64 (4 + 2 * 2 ^ 16 + 5 * 2 ^ 32), w64 (65535 + 8 * 2 ^ 16), 0, 0], 0, [w64 (4 + 2 * 2 ^ 16 + 5 * 2 ^ 32), w64 (65535 + 8 * 2 ^ 16), 0, 0], by decide +kernel⟩

theorem test_asid_inval_drained : ∃ (s : State) (cs a fid st r since : Nat), (working s = true) ∧ ((ctl s cs).wait = .inval a 0 fid st r since) ∧ (asidBusy s a since = false) ∧ answered (exec (.asidInvalDrained cs) s) (fun t => decide (Completed s t cs r ∧ tget 0 t.tu.ctr 7 = satInc (tget 0 s.tu.ctr 7) 1 ∧ asid t a = { asid s a with status := { (asid s a).status with draining := invalWaits t a } } ∧ t = setAsid (ctlFinish (tuCount (if r = 0 then { s with stamps := (tput {} s.stamps (stampKey okAsid a) (ctlStamp (ctl s cs))) } else s) 7 1) cs r none) a (asid t a))) = true :=
  ⟨setCtl { up with now := 9, tu := { up.tu with asids := [(4, { status := { enabled := true, draining := true } })] } } 3 { state := 1, wait := .inval 4 0 0 0 0 5 }, 3, 4, 0, 0, 0, 5, by decide +kernel⟩

theorem test_asid_inval_drained_retry : ∃ (s : State) (cs a fid st r since : Nat), (working s = true) ∧ ((ctl s cs).wait = .inval a 1 fid st r since) ∧ (asidBusy s a since = false) ∧ (openOf s a = []) ∧ answered (exec (.asidInvalDrained cs) s) (fun t => decide (Completed s t cs r ∧ asid t a = { asid s a with status := { (asid s a).status with draining := invalWaits t a } } ∧ t = setAsid (ctlFinish (tuCount (if r = 0 then { s with stamps := (tput {} s.stamps (stampKey okAsid a) (ctlStamp (ctl s cs))) } else s) 7 1) cs r none) a (asid t a))) = true :=
  ⟨setCtl { up with now := 9, tu := { up.tu with asids := [(4, { status := { enabled := true, draining := true } })] } } 3 { state := 1, wait := .inval 4 1 0 0 0 5 }, 3, 4, 0, 0, 0, 5, by decide +kernel⟩

theorem test_asid_inval_drained_action : ∃ (s : State) (cs a act fid st since : Nat), (working s = true) ∧ ((ctl s cs).wait = .inval a act fid st 0 since) ∧ (asidBusy s a since = false) ∧ answered (exec (.asidInvalDrained cs) s) (fun _ => decide (True)) = true :=
  ⟨setCtl { up with now := 9, tu := { up.tu with asids := [(4, { status := { enabled := true, draining := true } })] } } 3 { state := 1, wait := .inval 4 1 0 0 0 5 }, 3, 4, 1, 0, 0, 5, by decide +kernel⟩

theorem test_commit_asid : ∃ (s : State) (cs : Nat) (d : List W64), (Presents s cs 0xEF d) ∧ (enableOf d = true) ∧ (Fresh s cs 0xEF (stampKey okAsid (df d 0 0 16))) ∧ (asidReason s d = 0) ∧ answered (exec (.commitAsid cs) s) (fun t => decide (Committed s t cs 0 (1 ||| w64 (place 20 12 (df d 0 32 12))) ∧ asid t (df d 0 0 16) = { status := { enabled := true }, root := df d 1 0 60, comp := df d 0 32 12 } ∧ t = ctlComplete (grantCommit { s with tu := { s.tu with asids := tput {} s.tu.asids (df d 0 0 16) (tget {} t.tu.asids (df d 0 0 16)) } } cs 0xEF ((stampKey okAsid (df d 0 0 16)))) cs 0 (some (1 ||| w64 (place 20 12 (df d 0 32 12)))) (some (stampKey okAsid (df d 0 0 16))) 64)) = true :=
  ⟨prog pool 0xEF [w64 (65535 + 5 * 2 ^ 32), w64 (131072 * 3), 0, 1], 0, [w64 (65535 + 5 * 2 ^ 32), w64 (131072 * 3), 0, 1], by decide +kernel⟩

theorem test_commit_asid_disable : ∃ (s : State) (cs : Nat) (d : List W64), (Presents s cs 0xEF d) ∧ (enableOf d = false) ∧ (Fresh s cs 0xEF (stampKey okAsid (df d 0 0 16))) ∧ (s.tu.faults = []) ∧ (s.tu.eng = []) ∧ answered (exec (.commitAsid cs) s) (fun t => decide (Completed s t cs 0 ∧ (asid t (df d 0 0 16)).status.enabled = false ∧ (∀ i : Fin 4, (sliceEnts t i).all (fun e => decide (e.asid ≠ df d 0 0 16)) = true) ∧ t = ctlComplete (grantCommit (disableAsid s (df d 0 0 16)) cs 0xEF ((stampKey okAsid (df d 0 0 16)))) cs 0 (some (asidWord (asid t (df d 0 0 16)))) (some (stampKey okAsid (df d 0 0 16))) 64)) = true :=
  ⟨prog { up with tu := { up.tu with asids := [(4, { status := { enabled := true } })], slices := [(1, [{ asid := 4 }])] } } 0xEF [4, 0, 0, 0], 0, [4, 0, 0, 0], by decide +kernel⟩

theorem test_commit_asid_disable_faults : ∃ (s : State) (cs : Nat) (d : List W64), (Presents s cs 0xEF d) ∧ (enableOf d = false) ∧ (Fresh s cs 0xEF (stampKey okAsid (df d 0 0 16))) ∧ answered (exec (.commitAsid cs) s) (fun _ => decide (True)) = true :=
  ⟨prog { up with tu := { up.tu with asids := [(4, { status := { enabled := true } })], slices := [(1, [{ asid := 4 }])] } } 0xEF [4, 0, 0, 0], 0, [4, 0, 0, 0], by decide +kernel⟩

theorem test_table_store : ∃ (s : State) (cs status : Nat) (data b : Bytes) (d : List W64), (Presents s cs 0x90 d) ∧ (tabAct d = 0) ∧ (Fresh s cs 0x90 (stampKey okTable (tabId d))) ∧ (fetchBytes s (wd d 1) 160 status data = some b) ∧ (tabChecks s (ctl s cs) d false (decide (df d 1 0 60 % 64 ≠ 0) || (!bit (wd d 1) 63 && !pagesInGen s (df d 1 0 60 / 4096 * 4096) (df d 1 0 60 % 4096 + 160))) = 0) ∧ (recReason b = 0) ∧ (tabOther s d = false) ∧ answered (exec (.tableStore cs status data) s) (fun t => decide (Completed s t cs 0 ∧ gvStore t (tabId d) = { gvStore s (tabId d) with present := true, record := b, comp := df d 0 32 12, owned := true, enabled := true, reason := 0 } ∧ t = ctlComplete (grantCommit { s with gv := { s.gv with store := tput {} s.gv.store (tabId d) (tget {} t.gv.store (tabId d)) } } cs 0x90 ((stampKey okTable (tabId d)))) cs 0 none (some (stampKey okTable (tabId d))) 192)) = true :=
  ⟨prog pool 0x90 [w64 (65535 + 5 * 2 ^ 32), w64 (2 ^ 63 + 2 ^ 48), 0, 0], 0, 0, tableRecord 9 990 (List.replicate 16 4) [], tableRecord 9 990 (List.replicate 16 4) [], [w64 (65535 + 5 * 2 ^ 32), w64 (2 ^ 63 + 2 ^ 48), 0, 0], by decide +kernel⟩

theorem test_table_store_refused : ∃ (s : State) (cs status : Nat) (data b : Bytes) (d : List W64), (Presents s cs 0x90 d) ∧ (tabAct d = 0) ∧ (Fresh s cs 0x90 (stampKey okTable (tabId d))) ∧ (fetchBytes s (wd d 1) 160 status data = some b) ∧ (tabChecks s (ctl s cs) d false (decide (df d 1 0 60 % 64 ≠ 0) || (!bit (wd d 1) 63 && !pagesInGen s (df d 1 0 60 / 4096 * 4096) (df d 1 0 60 % 4096 + 160))) = 0) ∧ (recReason b ≠ 0) ∧ answered (exec (.tableStore cs status data) s) (fun t => decide (Completed s t cs (recReason b) ∧ gvStore t (tabId d) = { gvStore s (tabId d) with reason := recReason b } ∧ t = ctlComplete (grantCommit { s with gv := { s.gv with store := tput {} s.gv.store (tabId d) (tget {} t.gv.store (tabId d)) } } cs 0x90 ((stampKey okTable (tabId d)))) cs (recReason b) none none 192)) = true :=
  ⟨prog pool 0x90 [w64 (5 * 2 ^ 32), w64 (2 ^ 63 + 2 ^ 48), 0, 0], 0, 0, [], [], [w64 (5 * 2 ^ 32), w64 (2 ^ 63 + 2 ^ 48), 0, 0], by decide +kernel⟩

theorem test_table_install : ∃ (s : State) (cs k : Nat) (d : List W64) (x : GvRes), (Presents s cs 0x90 d) ∧ (tabAct d = 1) ∧ (Fresh s cs 0x90 (stampKey okTable (tabId d))) ∧ (tabChecks s (ctl s cs) d false false = 0) ∧ (tabOther s d = false) ∧ ((gvStore s (tabId d)).present = true) ∧ (resOf s (tabId d) = some (k, x)) ∧ (tget {} s.gv.res k = x) ∧ (x.oldLive = false ∨ x.oldRefs = 0) ∧ answered (exec (.tableInstall cs) s) (fun t => decide ((ctl t cs).wait = .resident k ∧ tget {} t.gv.res k = { x with oldLive := decide (x.newGen ≠ 0), oldGen := x.newGen, oldRec := x.newRec, oldRefs := x.newRefs, newGen := 0, newRec := [], newRefs := 0, closing := false, pend := none, loading := true, retired := if x.oldLive then some (x.oldGen, x.oldRec) else none } ∧ t = setCtl (beginLoad (setStore (grantCommit s cs 0x90 (stampKey okTable (tabId d))) (tabId d) { gvStore s (tabId d) with reason := 0 }) k) cs { ctl s cs with wait := .resident k })) = true :=
  ⟨prog { pool with gv := { pool.gv with store := [(7, { present := true, owned := true, comp := 5, res := some 1023 })], res := [(1023, { valid := true, table := 7, comp := 5, newGen := 255, newRefs := 4 })] } } 0x90 [w64 (7 + 2 ^ 16 + 5 * 2 ^ 32), 0, 0, 0], 0, 1023, [w64 (7 + 2 ^ 16 + 5 * 2 ^ 32), 0, 0, 0], { valid := true, table := 7, comp := 5, newGen := 255, newRefs := 4 }, by decide +kernel⟩

theorem test_table_install_fresh : ∃ (s : State) (cs k : Nat) (d : List W64), (Presents s cs 0x90 d) ∧ (tabAct d = 1) ∧ (Fresh s cs 0x90 (stampKey okTable (tabId d))) ∧ (tabChecks s (ctl s cs) d false false = 0) ∧ (tabOther s d = false) ∧ ((gvStore s (tabId d)).present = true) ∧ (resOf s (tabId d) = none) ∧ (freeRes s = some k) ∧ answered (exec (.tableInstall cs) s) (fun t => decide ((ctl t cs).wait = .resident k ∧ tget {} t.gv.res k = { valid := true, table := tabId d, comp := (gvStore s (tabId d)).comp, loading := true } ∧ gvStore t (tabId d) = { gvStore s (tabId d) with reason := 0, res := some k } ∧ t = setCtl (grantCommit { s with gv := { s.gv with store := tput {} s.gv.store (tabId d) (tget {} t.gv.store (tabId d)), res := tput {} s.gv.res (k) (tget {} t.gv.res (k)) } } cs 0x90 (stampKey okTable (tabId d))) cs { ctl s cs with wait := .resident k })) = true :=
  ⟨prog { pool with gv := { pool.gv with store := [(7, { present := true, owned := true, comp := 5 })] } } 0x90 [w64 (7 + 2 ^ 16 + 5 * 2 ^ 32), 0, 0, 0], 0, 0, [w64 (7 + 2 ^ 16 + 5 * 2 ^ 32), 0, 0, 0], by decide +kernel⟩

theorem test_table_install_waits : ∃ (s : State) (cs k : Nat) (d : List W64) (x : GvRes), (Presents s cs 0x90 d) ∧ (tabAct d = 1) ∧ (Fresh s cs 0x90 (stampKey okTable (tabId d))) ∧ (tabChecks s (ctl s cs) d false false = 0) ∧ (tabOther s d = false) ∧ ((gvStore s (tabId d)).present = true) ∧ (resOf s (tabId d) = some (k, x)) ∧ (x.oldLive = true) ∧ (x.oldRefs ≠ 0) ∧ answered (exec (.tableInstall cs) s) (fun t => decide ((ctl t cs).wait = .install k ∧ tget {} t.gv.res k = { x with closing := true, pend := some cs, waitT := s.now } ∧ t = setCtl (setRes (setStore (grantCommit s cs 0x90 (stampKey okTable (tabId d))) (tabId d) { gvStore s (tabId d) with reason := 0 }) k (tget {} t.gv.res k)) cs { ctl s cs with wait := .install k })) = true :=
  ⟨prog { pool with gv := { pool.gv with store := [(7, { present := true, owned := true, comp := 5, res := some 0 })], res := [(0, { valid := true, table := 7, comp := 5, newGen := 2, oldLive := true, oldGen := 1, oldRefs := 1 })] } } 0x90 [w64 (7 + 2 ^ 16 + 5 * 2 ^ 32), 0, 0, 0], 0, 0, [w64 (7 + 2 ^ 16 + 5 * 2 ^ 32), 0, 0, 0], { valid := true, table := 7, comp := 5, newGen := 2, oldLive := true, oldGen := 1, oldRefs := 1 }, by decide +kernel⟩

theorem test_install_wait_end : ∃ (s : State) (id k cs : Nat) (x : GvRes), (working s = true) ∧ (resOf s id = some (k, x)) ∧ (tget {} s.gv.res k = x) ∧ (x.pend = some cs) ∧ (x.oldRefs = 0) ∧ answered (exec (.installWaitEnd id) s) (fun t => decide ((ctl t cs).wait = .resident k ∧ (tget {} t.gv.res k).oldGen = x.newGen ∧ (tget {} t.gv.res k).loading = true ∧ (tget {} t.gv.res k).pend = none ∧ t = setCtl (beginLoad (gvCount s 6 ((s.now - x.waitT) * 7 / 4)) k) cs { ctl s cs with wait := .resident k })) = true :=
  ⟨setCtl { up with now := 9, gv := { up.gv with res := [(2, { valid := true, table := 7, newGen := 4, oldLive := true, closing := true, pend := some 3, waitT := 5 })] } } 3 { state := 1, wait := .install 2 }, 7, 2, 3, { valid := true, table := 7, newGen := 4, oldLive := true, closing := true, pend := some 3, waitT := 5 }, by decide +kernel⟩

theorem test_install_resident : ∃ (s : State) (id k cs : Nat) (x : GvRes), (working s = true) ∧ (stagingWaits s = false) ∧ (resOf s id = some (k, x)) ∧ (x.loading = true) ∧ (loadWaiter s k = some cs) ∧ ((ctl s cs).wait = .resident k) ∧ (x.retired = none) ∧ answered (exec (.installResident id) s) (fun t => decide (Completed s t cs 0 ∧ (gvStore t id).lastGen = nextGen (gvStore s id).lastGen ∧ tget {} t.gv.res k = { x with loading := false, retired := none, newGen := nextGen (gvStore s id).lastGen, newRec := (gvStore s id).record, newRefs := 0 } ∧ t = ctlComplete (digestNote { s with gv := { s.gv with res := tput {} s.gv.res (k) (tget {} t.gv.res (k)), store := tput {} s.gv.store (id) { tget {} s.gv.store (id) with lastGen := (tget {} t.gv.store (id)).lastGen } } } (3 * 65536 + id) true (recDigest (gvStore s id).record)) cs 0 none (some (stampKey okTable id)) 192)) = true :=
  ⟨setCtl { up with gv := { up.gv with store := [(7, { present := true, record := [1], lastGen := 255 })], res := [(2, { valid := true, table := 7, loading := true })] } } 3 { state := 1, wait := .resident 2 }, 7, 2, 3, { valid := true, table := 7, loading := true }, by decide +kernel⟩

theorem test_install_resident_retires : ∃ (s : State) (id k cs g : Nat) (b : Bytes) (x : GvRes), (working s = true) ∧ (stagingWaits s = false) ∧ (resOf s id = some (k, x)) ∧ (x.loading = true) ∧ (loadWaiter s k = some cs) ∧ ((ctl s cs).wait = .resident k) ∧ (x.retired = some (g, b)) ∧ answered (exec (.installResident id) s) (fun t => decide (Completed s t cs 0 ∧ tget {} t.gv.res k = { x with loading := false, retired := none, newGen := nextGen (gvStore s id).lastGen, newRec := (gvStore s id).record, newRefs := 0 } ∧ (gvStore t id).lastGen = nextGen (gvStore s id).lastGen ∧ t = ctlComplete (digestNote (digestNote { s with gv := { s.gv with res := tput {} s.gv.res (k) (tget {} t.gv.res (k)), store := tput {} s.gv.store (id) { tget {} s.gv.store (id) with lastGen := (tget {} t.gv.store (id)).lastGen } } } (3 * 65536 + id) true (recDigest (gvStore s id).record)) (3 * 65536 + id) false (recDigest b)) cs 0 none (some (stampKey okTable id)) 192)) = true :=
  ⟨setCtl { up with gv := { up.gv with store := [(7, { present := true, record := [1], lastGen := 255 })], res := [(2, { valid := true, table := 7, loading := true, retired := some (3, [7]) })] } } 3 { state := 1, wait := .resident 2 }, 7, 2, 3, 3, [7], { valid := true, table := 7, loading := true, retired := some (3, [7]) }, by decide +kernel⟩

theorem test_table_release : ∃ (s : State) (cs k : Nat) (d : List W64) (x : GvRes), (Presents s cs 0x90 d) ∧ (tabAct d = 2) ∧ (Fresh s cs 0x90 (stampKey okTable (tabId d))) ∧ (tabChecks s (ctl s cs) d false false = 0) ∧ (tabOther s d = false) ∧ ((gvStore s (tabId d)).present = true) ∧ (resOf s (tabId d) = some (k, x)) ∧ answered (exec (.tableRelease cs) s) (fun t => decide (Completed s t cs 0 ∧ tget {} t.gv.res k = { x with draining := true, deleting := x.deleting, pend := none, closing := false, loading := false } ∧ (gvStore t (tabId d)).reason = 0 ∧ t = ctlComplete (grantCommit { s with gv := { s.gv with store := tput {} s.gv.store (tabId d) { tget {} s.gv.store (tabId d) with reason := (tget {} t.gv.store (tabId d)).reason }, res := tput {} s.gv.res (k) (tget {} t.gv.res (k)) } } cs 0x90 ((stampKey okTable (tabId d)))) cs 0 none (some (stampKey okTable (tabId d))) 192)) = true :=
  ⟨prog { pool with gv := { pool.gv with store := [(7, { present := true, owned := true, comp := 5, res := some 0 })], res := [(0, { valid := true, table := 7, comp := 5, newGen := 2 })] } } 0x90 [w64 (7 + 2 * 2 ^ 16 + 5 * 2 ^ 32), 0, 0, 0], 0, 0, [w64 (7 + 2 * 2 ^ 16 + 5 * 2 ^ 32), 0, 0, 0], { valid := true, table := 7, comp := 5, newGen := 2 }, by decide +kernel⟩

theorem test_table_delete_resident : ∃ (s : State) (cs k : Nat) (d : List W64) (x : GvRes), (Presents s cs 0x90 d) ∧ (tabAct d = 3) ∧ (Fresh s cs 0x90 (stampKey okTable (tabId d))) ∧ (tabChecks s (ctl s cs) d false false = 0) ∧ (tabOther s d = false) ∧ ((gvStore s (tabId d)).present = true) ∧ (resOf s (tabId d) = some (k, x)) ∧ answered (exec (.tableDelete cs) s) (fun t => decide (Completed s t cs 0 ∧ tget {} t.gv.res k = { x with draining := true, deleting := true, pend := none, closing := false, loading := false } ∧ (gvStore t (tabId d)).reason = 0 ∧ t = ctlComplete (grantCommit { s with gv := { s.gv with store := tput {} s.gv.store (tabId d) { tget {} s.gv.store (tabId d) with reason := (tget {} t.gv.store (tabId d)).reason }, res := tput {} s.gv.res (k) (tget {} t.gv.res (k)) } } cs 0x90 ((stampKey okTable (tabId d)))) cs 0 none (some (stampKey okTable (tabId d))) 192)) = true :=
  ⟨prog { pool with gv := { pool.gv with store := [(7, { present := true, owned := true, comp := 5, res := some 0 })], res := [(0, { valid := true, table := 7, comp := 5, newGen := 2 })] } } 0x90 [w64 (7 + 3 * 2 ^ 16 + 5 * 2 ^ 32), 0, 0, 0], 0, 0, [w64 (7 + 3 * 2 ^ 16 + 5 * 2 ^ 32), 0, 0, 0], { valid := true, table := 7, comp := 5, newGen := 2 }, by decide +kernel⟩

theorem test_table_delete : ∃ (s : State) (cs : Nat) (d : List W64), (Presents s cs 0x90 d) ∧ (tabAct d = 3) ∧ (Fresh s cs 0x90 (stampKey okTable (tabId d))) ∧ (tabChecks s (ctl s cs) d false false = 0) ∧ (tabOther s d = false) ∧ ((gvStore s (tabId d)).present = true) ∧ (resOf s (tabId d) = none) ∧ answered (exec (.tableDelete cs) s) (fun t => decide (Completed s t cs 0 ∧ gvStore t (tabId d) = { lastGen := (gvStore s (tabId d)).lastGen } ∧ t = ctlComplete (grantCommit { s with gv := { s.gv with store := tput {} s.gv.store (tabId d) (tget {} t.gv.store (tabId d)) } } cs 0x90 ((stampKey okTable (tabId d)))) cs 0 none (some (stampKey okTable (tabId d))) 192)) = true :=
  ⟨prog { pool with gv := { pool.gv with store := [(65535, { present := true, owned := true, comp := 5, lastGen := 6 })] } } 0x90 [w64 (65535 + 3 * 2 ^ 16 + 5 * 2 ^ 32), 0, 0, 0], 0, [w64 (65535 + 3 * 2 ^ 16 + 5 * 2 ^ 32), 0, 0, 0], by decide +kernel⟩

theorem test_table_drain_end : ∃ (s : State) (id k : Nat) (x : GvRes), (working s = true) ∧ (resOf s id = some (k, x)) ∧ (x.draining = true) ∧ (x.newRefs + x.oldRefs = 0) ∧ answered (exec (.tableDrainEnd id) s) (fun t => decide (tget {} t.gv.res k = {} ∧ gvStore t id = (if x.deleting then ({ lastGen := (gvStore s id).lastGen } : GvStore) else { gvStore s id with res := none }) ∧ t = stateRecord (setStore ((resDigests x).foldl (fun s d => digestNote s (3 * 65536 + id) false d) (setRes s k {})) id (gvStore t id)) 192)) = true :=
  ⟨{ up with gv := { up.gv with store := [(7, { present := true, lastGen := 3, res := some 2 })], res := [(2, { valid := true, table := 7, draining := true, deleting := true, newGen := 3 })] } }, 7, 2, { valid := true, table := 7, draining := true, deleting := true, newGen := 3 }, by decide +kernel⟩

theorem test_commit_pattern : ∃ (s : State) (cs status : Nat) (data b : Bytes) (d : List W64), (Presents s cs 0xE0 d) ∧ (enableOf d = true) ∧ (Fresh s cs 0xE0 (stampKey okPattern (df d 0 0 12))) ∧ (patImage s d status data = some b) ∧ (patReason s (ctl s cs) d (some b) = 0) ∧ (df d 0 48 1 = 1) ∧ answered (exec (.commitPattern cs status data) s) (fun t => decide (Committed s t cs 0 (patWord t (df d 0 0 12)) ∧ pat t (df d 0 0 12) = { status := { enabled := true }, gen := ((pat s (df d 0 0 12)).gen + 1) % 16, ever := true, pwide := true, part := (ctl s cs).part, image := b, digest := imgDigest b } ∧ t = ctlComplete (grantCommit (digestNote { s with sa := { s.sa with pats := tput {} s.sa.pats (df d 0 0 12) (tget {} t.sa.pats (df d 0 0 12)) } } (65536 + patHandle (df d 0 0 12) (pat t (df d 0 0 12))) true (pat t (df d 0 0 12)).digest) cs 0xE0 ((stampKey okPattern (df d 0 0 12)))) cs 0 (some (patWord t (df d 0 0 12))) (some (stampKey okPattern (df d 0 0 12))) b.length)) = true :=
  ⟨prog { pool with sa := { pool.sa with pats := [(4095, { gen := 15, ever := true })] } } 0xE0 [w64 (4095 + 2 ^ 48), w64 (2 ^ 63 + 2 ^ 48), 384, 1], 0, 0, tinyImage, tinyImage, [w64 (4095 + 2 ^ 48), w64 (2 ^ 63 + 2 ^ 48), 384, 1], by decide +kernel⟩

theorem test_commit_pattern_refused : ∃ (s : State) (cs status : Nat) (data b : Bytes) (d : List W64), (Presents s cs 0xE0 d) ∧ (enableOf d = true) ∧ (Fresh s cs 0xE0 (stampKey okPattern (df d 0 0 12))) ∧ (patImage s d status data = some b) ∧ (patReason s (ctl s cs) d (some b) ≠ 0) ∧ answered (exec (.commitPattern cs status data) s) (fun t => decide (Completed s t cs (patReason s (ctl s cs) d (some b)) ∧ pat t (df d 0 0 12) = { pat s (df d 0 0 12) with status := refused (pat s (df d 0 0 12)).status (patReason s (ctl s cs) d (some b)) } ∧ t = ctlComplete (grantCommit { s with sa := { s.sa with pats := tput {} s.sa.pats (df d 0 0 12) (tget {} t.sa.pats (df d 0 0 12)) } } cs 0xE0 ((stampKey okPattern (df d 0 0 12)))) cs (patReason s (ctl s cs) d (some b)) (some (patWord t (df d 0 0 12))) none 64)) = true :=
  ⟨prog pool 0xE0 [w64 (2 ^ 48), w64 (2 ^ 63 + 2 ^ 48), 64, 1], 0, 0, [1], [1], [w64 (2 ^ 48), w64 (2 ^ 63 + 2 ^ 48), 64, 1], by decide +kernel⟩

theorem test_commit_pattern_disable : ∃ (s : State) (cs : Nat) (d : List W64), (Presents s cs 0xE0 d) ∧ (enableOf d = false) ∧ (Fresh s cs 0xE0 (stampKey okPattern (df d 0 0 12))) ∧ (patReached (ctl s cs) (pat s (df d 0 0 12)) = true) ∧ ((pat s (df d 0 0 12)).status.enabled = true) ∧ (patNamed (ctl s cs) d = true) ∧ answered (exec (.commitPatternDisable cs) s) (fun t => decide (Completed s t cs 0 ∧ pat t (df d 0 0 12) = { pat s (df d 0 0 12) with status := { (pat s (df d 0 0 12)).status with enabled := false, reason := 0, draining := patUsed s (df d 0 0 12) } } ∧ t = ctlComplete (grantCommit ((if patUsed s (df d 0 0 12) then { s with sa := { s.sa with pats := tput {} s.sa.pats (df d 0 0 12) (tget {} t.sa.pats (df d 0 0 12)) } } else dropPatDigest { s with sa := { s.sa with pats := tput {} s.sa.pats (df d 0 0 12) (tget {} t.sa.pats (df d 0 0 12)) } } (df d 0 0 12) (pat s (df d 0 0 12)))) cs 0xE0 ((stampKey okPattern (df d 0 0 12)))) cs 0 (some (patWord t (df d 0 0 12))) (some (stampKey okPattern (df d 0 0 12))) 64)) = true :=
  ⟨prog (jobs pool) 0xE0 [0, 0, 0, 0], 0, [0, 0, 0, 0], by decide +kernel⟩

theorem test_pattern_drain_end : ∃ (s : State) (n : Nat), (working s = true) ∧ ((pat s n).status.draining = true) ∧ (patUsed s n = false) ∧ answered (exec (.patternDrainEnd n) s) (fun t => decide (pat t n = { pat s n with status := { (pat s n).status with draining := false } } ∧ t = dropPatDigest { s with sa := { s.sa with pats := tput {} s.sa.pats (n) (tget {} t.sa.pats (n)) } } n (pat s n))) = true :=
  ⟨{ up with sa := { up.sa with pats := [(4095, { status := { draining := true } })] } }, 4095, by decide +kernel⟩

theorem test_commit_sa_slice : ∃ (s : State) (cs : Nat) (d : List W64), (Presents s cs 0xE1 d) ∧ (enableOf d = true) ∧ (Fresh s cs 0xE1 (stampKey okSlice (df d 0 0 2))) ∧ (sliceReason s d = 0) ∧ answered (exec (.commitSaSlice cs) s) (fun t => decide (Completed s t cs 0 ∧ (∀ q : Fin 68, seam t q = seam (applySlices s d) q) ∧ tget {} t.sa.sliceSt (df d 0 0 2) = accepted (tget {} s.sa.sliceSt (df d 0 0 2)) ∧ t = ctlComplete (grantCommit (applySlices { s with sa := { s.sa with sliceSt := tput {} s.sa.sliceSt (df d 0 0 2) (tget {} t.sa.sliceSt (df d 0 0 2)) } } d) cs 0xE1 ((stampKey okSlice (df d 0 0 2)))) cs 0 (some (sGet (ctl t cs).s 30)) (some (stampKey okSlice (df d 0 0 2))) 64)) = true :=
  ⟨prog { up with sa := { up.sa with seqs := [(51, { logical := 48, banks := 6, mem := [(3, 1)] })] } } 0xE1 [3, 96, 0, 1], 0, [3, 96, 0, 1], by decide +kernel⟩

theorem test_commit_sa_unitmap : ∃ (s : State) (cs : Nat) (d : List W64), (Presents s cs 0xE2 d) ∧ (enableOf d = true) ∧ (Fresh s cs 0xE2 (stampKey okUnitMap (df d 0 0 4))) ∧ (unitmapReason s d = 0) ∧ (1 ≤ df d 0 8 3) ∧ answered (exec (.commitSaUnitmap cs) s) (fun t => decide (Completed s t cs 0 ∧ ((mapUnits d).all (fun u => match physOf s (df d 0 8 3) u with | none => true | some p => decide ((unitAt t (df d 0 8 3) p).part = df d 0 0 4)) = true) ∧ tget {} t.sa.mapSt (df d 0 0 4) = accepted (tget {} s.sa.mapSt (df d 0 0 4)) ∧ t = ctlComplete (grantCommit (applyUnitmap { s with sa := { s.sa with mapSt := tput {} s.sa.mapSt (df d 0 0 4) (tget {} t.sa.mapSt (df d 0 0 4)) } } d) cs 0xE2 ((stampKey okUnitMap (df d 0 0 4)))) cs 0 (some (sGet (ctl t cs).s 30)) (some (stampKey okUnitMap (df d 0 0 4))) 64)) = true :=
  ⟨prog { up with sa := { up.sa with units := [(unitKey 7 17, { logical := 15 })] } } 0xE2 [w64 (15 + 7 * 2 ^ 8), w64 (2 ^ 15), 0, 1], 0, [w64 (15 + 7 * 2 ^ 8), w64 (2 ^ 15), 0, 1], by decide +kernel⟩

theorem test_commit_sa_unitmap_sequencers : ∃ (s : State) (cs : Nat) (d : List W64), (Presents s cs 0xE2 d) ∧ (enableOf d = true) ∧ (Fresh s cs 0xE2 (stampKey okUnitMap (df d 0 0 4))) ∧ (unitmapReason s d = 0) ∧ (df d 0 8 3 = 0) ∧ answered (exec (.commitSaUnitmap cs) s) (fun t => decide (Completed s t cs 0 ∧ ((mapUnits d).all (fun u => match physOf s 0 u with | none => true | some p => decide ((seam t p).part = df d 0 0 4)) = true) ∧ tget {} t.sa.mapSt (df d 0 0 4) = accepted (tget {} s.sa.mapSt (df d 0 0 4)) ∧ t = ctlComplete (grantCommit (applyUnitmap { s with sa := { s.sa with mapSt := tput {} s.sa.mapSt (df d 0 0 4) (tget {} t.sa.mapSt (df d 0 0 4)) } } d) cs 0xE2 ((stampKey okUnitMap (df d 0 0 4)))) cs 0 (some (sGet (ctl t cs).s 30)) (some (stampKey okUnitMap (df d 0 0 4))) 64)) = true :=
  ⟨prog { up with sa := { up.sa with seqs := [(3, { logical := 3, banks := 6 })] } } 0xE2 [1, 8, 0, 1], 0, [1, 8, 0, 1], by decide +kernel⟩

theorem test_commit_sa_partcfg : ∃ (s : State) (cs : Nat) (d : List W64), (Presents s cs 0xE3 d) ∧ (enableOf d = true) ∧ (Fresh s cs 0xE3 (stampKey okPartCfg (df d 0 0 4))) ∧ (reservedSet d [fmask 0 4, fmask 0 32, 0, 1] = false) ∧ (1000 ≤ df d 1 0 32) ∧ (df d 1 0 32 ≤ 10000000) ∧ answered (exec (.commitSaPartcfg cs) s) (fun t => decide (Completed s t cs 0 ∧ runLimit t (df d 0 0 4) = df d 1 0 32 * 1000 ∧ tget {} t.sa.cfgSt (df d 0 0 4) = accepted (tget {} s.sa.cfgSt (df d 0 0 4)) ∧ t = ctlComplete (grantCommit { s with sa := { s.sa with runLim := (tput 100000 s.sa.runLim (df d 0 0 4) (df d 1 0 32)), cfgSt := tput {} s.sa.cfgSt (df d 0 0 4) (tget {} t.sa.cfgSt (df d 0 0 4)) } } cs 0xE3 ((stampKey okPartCfg (df d 0 0 4)))) cs 0 (some (sGet (ctl t cs).s 30)) (some (stampKey okPartCfg (df d 0 0 4))) 64)) = true :=
  ⟨prog up 0xE3 [15, 1000, 0, 1], 0, [15, 1000, 0, 1], by decide +kernel⟩

theorem test_commit_sa_partcfg_out_of_range : ∃ (s : State) (cs : Nat) (d : List W64), (Presents s cs 0xE3 d) ∧ (enableOf d = true) ∧ (Fresh s cs 0xE3 (stampKey okPartCfg (df d 0 0 4))) ∧ (reservedSet d [fmask 0 4, fmask 0 32, 0, 1] = false) ∧ (df d 1 0 32 < 1000 ∨ 10000000 < df d 1 0 32) ∧ answered (exec (.commitSaPartcfg cs) s) (fun t => decide (Completed s t cs 4 ∧ tget {} t.sa.cfgSt (df d 0 0 4) = refused (tget {} s.sa.cfgSt (df d 0 0 4)) 4 ∧ t = ctlComplete (grantCommit { s with sa := { s.sa with cfgSt := tput {} s.sa.cfgSt (df d 0 0 4) (tget {} t.sa.cfgSt (df d 0 0 4)) } } cs 0xE3 ((stampKey okPartCfg (df d 0 0 4)))) cs 4 (some (sGet (ctl t cs).s 30)) none 64)) = true :=
  ⟨prog up 0xE3 [15, 10000001, 0, 1], 0, [15, 10000001, 0, 1], by decide +kernel⟩

theorem test_power_on_test_end : ∃ (s : State), (s.cc.stage = 4) ∧ (s.sa.ready = false) ∧ (s.sa.seqs = []) ∧ (s.variant = .a1) ∧ answered (exec (.powerOnTestEnd) s) (fun t => decide (t.sa.ready = true ∧ (∀ q : Fin 68, seam t q = seamInit q))) = true :=
  ⟨{ State.reset with cc := { State.reset.cc with stage := 4 } }, by decide +kernel⟩

theorem test_power_on_test_end_later : ∃ (s : State), (s.cc.stage = 4) ∧ (s.sa.ready = false) ∧ (s.sa.seqs ≠ []) ∧ answered (exec (.powerOnTestEnd) s) (fun t => decide (t = { s with sa := { s.sa with ready := true } })) = true :=
  ⟨{ State.reset with cc := { State.reset.cc with stage := 4 }, sa := { State.reset.sa with seqs := [(0, { banks := 6 })] } }, by decide +kernel⟩

theorem test_copy_ring : ∃ (s : State) (f : Frame) (e : Nat) (p : W32), (atTarget s f = true) ∧ (f.op = 0x07) ∧ (leAt f.data 0 1 = 0x43) ∧ (formOk f = true) ∧ ((epochFence s f).1 = 0) ∧ (leAt f.data 1 1 = e) ∧ (e < 32) ∧ ((copyEng s e).status.enabled = true) ∧ ((copyEng s e).ep = f.src) ∧ ((copyEng s e).comp = f.comp) ∧ ((copyEng s e).comp = f.comp) ∧ (w32 (leAt f.data 4 4) = p) ∧ ((p - (copyEng s e).cons).toNat ≤ 2 ^ (copyEng s e).log2) ∧ ((p - (copyEng s e).prod).toNat ≤ 2 ^ (copyEng s e).log2) ∧ answered (exec (.copyRing f) s) (fun t => decide (t = copyGo (setCopy (answer s f 0) e { copyEng s e with prod := p }) e)) = true :=
  ⟨{ pool with te := { pool.te with copy := [(31, { status := { enabled := true }, ep := 9, comp := 5, log2 := 6, prod := 7, cons := 7 })] } }, req 7 0 0 [0x43, 31, 0, 0, 7, 0, 0, 0], 31, 7, by decide +kernel⟩

theorem test_copy_ring_behind : ∃ (s : State) (f : Frame) (e : Nat) (p : W32), (atTarget s f = true) ∧ (f.op = 0x07) ∧ (leAt f.data 0 1 = 0x43) ∧ (formOk f = true) ∧ ((epochFence s f).1 = 0) ∧ (leAt f.data 1 1 = e) ∧ (e < 32) ∧ ((copyEng s e).status.enabled = true) ∧ ((copyEng s e).ep = f.src) ∧ ((copyEng s e).comp = f.comp) ∧ (w32 (leAt f.data 4 4) = p) ∧ (((p - (copyEng s e).cons).toNat ≤ 2 ^ (copyEng s e).log2 ∧ 2 ^ (copyEng s e).log2 < (p - (copyEng s e).prod).toNat) ∨ (2 ^ (copyEng s e).log2 < (p - (copyEng s e).cons).toNat ∧ 2 ^ 31 ≤ (p - (copyEng s e).cons).toNat)) ∧ answered (exec (.copyRing f) s) (fun t => decide (t = answer s f 0)) = true :=
  ⟨{ pool with te := { pool.te with copy := [(31, { status := { enabled := true }, ep := 9, comp := 5, log2 := 6, prod := 7, cons := 7 })] } }, req 7 0 0 [0x43, 31, 0, 0, 6, 0, 0, 0], 31, 6, by decide +kernel⟩

theorem test_copy_ring_over : ∃ (s : State) (f : Frame) (e : Nat) (p : W32), (atTarget s f = true) ∧ (f.op = 0x07) ∧ (leAt f.data 0 1 = 0x43) ∧ (formOk f = true) ∧ ((epochFence s f).1 = 0) ∧ (leAt f.data 1 1 = e) ∧ (e < 32) ∧ ((copyEng s e).status.enabled = true) ∧ ((copyEng s e).ep = f.src) ∧ ((copyEng s e).comp = f.comp) ∧ (w32 (leAt f.data 4 4) = p) ∧ (2 ^ (copyEng s e).log2 < (p - (copyEng s e).cons).toNat) ∧ ((p - (copyEng s e).cons).toNat < 2 ^ 31) ∧ answered (exec (.copyRing f) s) (fun t => decide (copyEng t e = copyEng s e ∧ t = faultRecord (answer s f 0) (comp s (copyEng s e).comp).part 2 [w64 (0x800 + e), w64 (place 0 32 (copyEng s e).cons.toNat + place 32 32 p.toNat)])) = true :=
  ⟨{ pool with te := { pool.te with copy := [(31, { status := { enabled := true }, ep := 9, comp := 5, log2 := 6, prod := 7, cons := 7 })] } }, req 7 0 0 [0x43, 31, 0, 0, 72, 0, 0, 0], 31, 72, by decide +kernel⟩

theorem test_copy_ring_refused : ∃ (s : State) (f : Frame) (e : Nat), (atTarget s f = true) ∧ (f.op = 0x07) ∧ (leAt f.data 0 1 = 0x43) ∧ (formOk f = true) ∧ ((epochFence s f).1 = 0) ∧ (leAt f.data 1 1 = e) ∧ (32 ≤ e ∨ (copyEng s e).status.enabled = false ∨ (copyEng s e).ep ≠ f.src ∨ (copyEng s e).comp ≠ f.comp) ∧ answered (exec (.copyRing f) s) (fun t => decide (t.te.out = s.te.out ++ [{ f := mkCpl f 3 [] }] ∧ copyEng t e = copyEng s e ∧ t = answer s f 3)) = true :=
  ⟨pool, req 7 0 0 [0x43, 32, 0, 0, 7, 0, 0, 0], 32, by decide +kernel⟩

theorem test_copy_chunk_done : ∃ (s : State) (e i off : Nat) (u : Transfer) (k : Chunk), (working s = true) ∧ (k.status = 0) ∧ ((copyEng s e).xfers.find? (fun t => decide (t.index = i) && decide (t.st = 2)) = some u) ∧ (u.chunks.find? (fun c => decide (c.off = off) && decide (c.st = 4)) = some k) ∧ (copyOut s e < 512) ∧ answered (exec (.copyChunkDone e i off) s) (fun t => decide (t = copyGo (popXfers (editXfer (copyArrive s e u k.len) e i fun t => { t with chunks := t.chunks.filter (fun c => decide (c.off ≠ off)), st := if (t.chunks.filter fun c => decide (c.off ≠ off)).isEmpty ∧ t.length ≤ t.next then 4 else t.st }) e) e)) = true :=
  ⟨{ up with te := { up.te with copy := [(0, { status := { enabled := true }, comp := 5, log2 := 6, prod := 8, cons := 7, xfers := [{ index := 7, st := 2, length := 64, next := 64, obj := 3, chunks := [{ off := 0, len := 64, st := 4 }] }] })] } }, 0, 7, 0, { index := 7, st := 2, length := 64, next := 64, obj := 3, chunks := [{ off := 0, len := 64, st := 4 }] }, { off := 0, len := 64, st := 4 }, by decide +kernel⟩

theorem test_copy_chunk_failed : ∃ (s : State) (e i off : Nat) (u : Transfer) (k : Chunk), (working s = true) ∧ ((copyEng s e).xfers.find? (fun t => decide (t.index = i) && decide (t.st = 2)) = some u) ∧ (u.chunks.find? (fun c => decide (c.off = off) && decide (c.st = 4)) = some k) ∧ (k.status ≠ 0) ∧ answered (exec (.copyChunkDone e i off) s) (fun t => decide (t = copyGo (stopXfer s e i k.status off) e)) = true :=
  ⟨{ up with te := { up.te with copy := [(0, { status := { enabled := true }, comp := 5, log2 := 6, prod := 8, cons := 7, xfers := [{ index := 7, st := 2, length := 64, next := 64, obj := 3, chunks := [{ off := 0, len := 64, st := 4, status := 6 }] }] })] } }, 0, 7, 0, { index := 7, st := 2, length := 64, next := 64, obj := 3, chunks := [{ off := 0, len := 64, st := 4, status := 6 }] }, { off := 0, len := 64, st := 4, status := 6 }, by decide +kernel⟩

theorem test_commit_syncobj : ∃ (s : State) (cs : Nat) (d : List W64), (Presents s cs 0xE6 d) ∧ (enableOf d = true) ∧ (Fresh s cs 0xE6 (stampKey okSync (df d 0 0 14))) ∧ (syncReason s (ctl s cs) d = 0) ∧ answered (exec (.commitSyncobj cs) s) (fun t => decide (Committed s t cs 0 1 ∧ objAt t (df d 0 0 14) = { status := { enabled := true }, kind := df d 0 16 2, comp := df d 0 32 12, thr := df d 1 0 64, n := df d 2 0 32, notify := decide (df d 2 48 1 = 1), ep := df d 2 32 16 } ∧ t = ctlComplete (grantCommit { s with te := { s.te with sync := tput {} s.te.sync (df d 0 0 14) (tget {} t.te.sync (df d 0 0 14)) } } cs 0xE6 ((stampKey okSync (df d 0 0 14)))) cs 0 (some (statusWord (objAt t (df d 0 0 14)).status)) (some (stampKey okSync (df d 0 0 14))) 64)) = true :=
  ⟨prog pool 0xE6 [w64 (16383 + 2 ^ 16 + 5 * 2 ^ 32), 0, w64 (2 ^ 31), 1], 0, [w64 (16383 + 2 ^ 16 + 5 * 2 ^ 32), 0, w64 (2 ^ 31), 1], by decide +kernel⟩

theorem test_commit_syncobj_disable : ∃ (s : State) (cs : Nat) (d : List W64), (Presents s cs 0xE6 d) ∧ (enableOf d = false) ∧ (Fresh s cs 0xE6 (stampKey okSync (df d 0 0 14))) ∧ (reaches (ctl s cs) (df d 0 32 12) = true) ∧ ((objAt s (df d 0 0 14)).status.enabled = false ∨ reaches (ctl s cs) (objAt s (df d 0 0 14)).comp = true) ∧ answered (exec (.commitSyncobj cs) s) (fun t => decide (Completed s t cs 0 ∧ objAt t (df d 0 0 14) = { objAt s (df d 0 0 14) with status := { (objAt s (df d 0 0 14)).status with enabled := false, reason := 0 } } ∧ t = ctlComplete (grantCommit { s with te := { s.te with sync := tput {} s.te.sync (df d 0 0 14) (tget {} t.te.sync (df d 0 0 14)) } } cs 0xE6 ((stampKey okSync (df d 0 0 14)))) cs 0 (some (statusWord (objAt t (df d 0 0 14)).status)) (some (stampKey okSync (df d 0 0 14))) 64)) = true :=
  ⟨progRt { up with te := { up.te with sync := [(0, { status := { enabled := true }, comp := 5, value := 9 })] } } 5 0xE6 [w64 (5 * 2 ^ 32), 0, 0, 0], 0, [w64 (5 * 2 ^ 32), 0, 0, 0], by decide +kernel⟩

theorem test_commit_copyeng : ∃ (s : State) (cs : Nat) (d : List W64), (Presents s cs 0xE7 d) ∧ (enableOf d = true) ∧ (Fresh s cs 0xE7 (stampKey okCopyEng (df d 2 32 5))) ∧ (copyReason s (ctl s cs) d = 0) ∧ answered (exec (.commitCopyeng cs) s) (fun t => decide (Committed s t cs 0 1 ∧ copyEng t (df d 2 32 5) = { status := { enabled := true }, ep := df d 0 48 16, comp := df d 0 32 12, ctx := df d 0 16 10, log2 := df d 0 0 4, base := df d 1 0 56, count := (copyEng s (df d 2 32 5)).count } ∧ tget [] t.tu.micro (896 + df d 2 32 5) = [] ∧ t = ctlComplete (grantCommit (setCopy (microClear s (896 + df d 2 32 5)) (df d 2 32 5) (copyEng t (df d 2 32 5))) cs 0xE7 ((stampKey okCopyEng (df d 2 32 5)))) cs 0 (some (copyWord (copyEng t (df d 2 32 5)))) (some (stampKey okCopyEng (df d 2 32 5))) 64)) = true :=
  ⟨prog { pool with ie := { pool.ie with ctxs := [(1023, { status := { enabled := true }, comp := 5 })] }, tr := { pool.tr with comps := [(5, { state := 2, curLive := true, cur := { members := [9] } })] }, tu := { pool.tu with micro := [(927, [{ asid := 1 }])] } } 0xE7 [w64 (12 + 1023 * 2 ^ 16 + 5 * 2 ^ 32 + 9 * 2 ^ 48), 4096, w64 (31 * 2 ^ 32), 1], 0, [w64 (12 + 1023 * 2 ^ 16 + 5 * 2 ^ 32 + 9 * 2 ^ 48), 4096, w64 (31 * 2 ^ 32), 1], by decide +kernel⟩

theorem test_commit_copyeng_disable : ∃ (s : State) (cs : Nat) (d : List W64), (Presents s cs 0xE7 d) ∧ (enableOf d = false) ∧ (Fresh s cs 0xE7 (stampKey okCopyEng (df d 2 32 5))) ∧ (reaches (ctl s cs) (df d 0 32 12) = true) ∧ ((copyEng s (df d 2 32 5)).status.enabled = false ∨ reaches (ctl s cs) (copyEng s (df d 2 32 5)).comp = true) ∧ answered (exec (.commitCopyeng cs) s) (fun t => decide (Completed s t cs 0 ∧ (copyEng t (df d 2 32 5)).status.enabled = false ∧ (copyEng t (df d 2 32 5)).xfers = [] ∧ t = ctlComplete (grantCommit (copyOff (microClear s (896 + df d 2 32 5)) (df d 2 32 5)) cs 0xE7 ((stampKey okCopyEng (df d 2 32 5)))) cs 0 (some (copyWord (copyEng t (df d 2 32 5)))) (some (stampKey okCopyEng (df d 2 32 5))) 64)) = true :=
  ⟨prog { pool with te := { pool.te with copy := [(31, { status := { enabled := true }, comp := 5, xfers := [{}] })] } } 0xE7 [w64 (5 * 2 ^ 32), 0, w64 (31 * 2 ^ 32), 0], 0, [w64 (5 * 2 ^ 32), 0, w64 (31 * 2 ^ 32), 0], by decide +kernel⟩

theorem test_doorbell : ∃ (s : State) (f : Frame), (atTarget s f = true) ∧ (f.op = 0x07) ∧ ((jobq s (bellQueue f)).bells = []) ∧ ((bellCheck (setJobq s (bellQueue f) { jobq s (bellQueue f) with bells := [{ f := f }] }) f).1 = 0) ∧ (0 < (bellIndex f - (jobq s (bellQueue f)).accept).toNat) ∧ ((bellIndex f - (jobq s (bellQueue f)).accept).toNat ≤ 2 ^ (jobq s (bellQueue f)).log2) ∧ ((jobq s (bellQueue f)).log2 ≤ 16) ∧ answered (exec (.doorbell f) s) (fun t => decide (jobq t (bellQueue f) = { jobq s (bellQueue f) with bells := [{ f := f, open_ := true, reading := true }] } ∧ t = { s with cc := { s.cc with jq := tput {} s.cc.jq (bellQueue f) (tget {} t.cc.jq (bellQueue f)) } })) = true :=
  ⟨jobs pool, req 7 0 0 [0, 0, 64, 0, 0, 0, 0, 0], by decide +kernel⟩

theorem test_doorbell_refused : ∃ (s : State) (f : Frame), (atTarget s f = true) ∧ (f.op = 0x07) ∧ ((jobq s (bellQueue f)).bells = []) ∧ ((jobq s (bellQueue f)).endpoint ≠ f.src) ∧ answered (exec (.doorbell f) s) (fun t => decide (t.te.out = s.te.out ++ [{ f := mkCpl f 3 (bytesLE 8 (place 0 12 (bellQueue f) + place 16 32 (jobq s (bellQueue f)).accept.toNat) ++ bytesLE 8 (jobq s (bellQueue f)).lastSeq) }] ∧ jobq t (bellQueue f) = jobq s (bellQueue f) ∧ t = { s with te := { s.te with out := t.te.out }, cc := { s.cc with jq := tput {} s.cc.jq (bellQueue f) (tget {} t.cc.jq (bellQueue f)) } })) = true :=
  ⟨jobs pool, { req 7 0 0 [0, 0, 64, 0, 0, 0, 0, 0] with src := 8 }, by decide +kernel⟩

theorem test_doorbell_behind_another : ∃ (s : State) (f : Frame) (b : Bell) (l : List Bell), (atTarget s f = true) ∧ (f.op = 0x07) ∧ ((jobq s (bellQueue f)).bells = b :: l) ∧ (b.open_ = true) ∧ answered (exec (.doorbell f) s) (fun t => decide (jobq t (bellQueue f) = { jobq s (bellQueue f) with bells := b :: (l ++ [{ f := f }]) } ∧ t = { s with cc := { s.cc with jq := tput {} s.cc.jq (bellQueue f) (tget {} t.cc.jq (bellQueue f)) } })) = true :=
  ⟨{ jobs pool with cc := { pool.cc with jq := [(4095, { bells := [{ open_ := true }] })] } }, req 7 0 0 [255, 15, 64, 0, 0, 0, 0, 0], { open_ := true }, [], by decide +kernel⟩

theorem test_doorbell_in_turn : ∃ (s : State) (f : Frame), (atTarget s f = true) ∧ (f.op = 0x07) ∧ answered (exec (.doorbell f) s) (fun t => decide (t = bellsGo (bellQueue f) ((jobq s (bellQueue f)).bells.length + 1) (setJobq s (bellQueue f) { jobq s (bellQueue f) with bells := (jobq s (bellQueue f)).bells ++ [{ f := f }] }))) = true :=
  ⟨jobs pool, req 7 0 0 [0, 0, 0, 0, 0, 0, 0, 0], by decide +kernel⟩

theorem test_descriptor_read_done : ∃ (s : State) (n status : Nat) (data bs : Bytes) (b : Bell) (l : List Bell), (working s = true) ∧ ((jobq s n).bells = b :: l) ∧ (b.reading = true) ∧ (ownRead s (slotFa (jobq s n) (jobq s n).accept) 64 status data = (0, bs)) ∧ ((jobq s n).status.enabled = true) ∧ (acceptStopped s = false) ∧ (journalRoom s (stagedEntries s + 2) = true) ∧ (b.cut = false) ∧ answered (exec (.descriptorReadDone n status data) s) (fun t => decide (jobq t n = { jobq s n with bells := { b with reading := false, staged := some (fitTo 64 bs) } :: l } ∧ t = { s with cc := { s.cc with jq := tput {} s.cc.jq (n) (tget {} t.cc.jq (n)) } })) = true :=
  ⟨{ jobs pool with cc := { pool.cc with jq := [(4095, { status := { enabled := true }, base := 2 ^ 48, bells := [{ open_ := true, reading := true }] })] } }, 4095, 0, [1, 2], [1, 2], { open_ := true, reading := true }, [], by decide +kernel⟩

theorem test_descriptor_read_failed : ∃ (s : State) (n status r : Nat) (data bs : Bytes) (b : Bell) (l : List Bell), (working s = true) ∧ ((jobq s n).bells = b :: l) ∧ (b.reading = true) ∧ (r ≠ 0) ∧ (ownRead s (slotFa (jobq s n) (jobq s n).accept) 64 status data = (r, bs)) ∧ answered (exec (.descriptorReadDone n status data) s) (fun t => decide (t = bellEnd s n r)) = true :=
  ⟨{ jobs pool with cc := { pool.cc with jq := [(3, { base := 2 ^ 48, bells := [{ f := { op := 7, data := [3, 0, 1] }, open_ := true, reading := true }] })] } }, 3, 6, 6, [], [], { f := { op := 7, data := [3, 0, 1] }, open_ := true, reading := true }, [], by decide +kernel⟩

theorem test_descriptor_read_stopped : ∃ (s : State) (n status : Nat) (data bs : Bytes) (b : Bell) (l : List Bell), (working s = true) ∧ ((jobq s n).bells = b :: l) ∧ (b.reading = true) ∧ (ownRead s (slotFa (jobq s n) (jobq s n).accept) 64 status data = (0, bs)) ∧ ((jobq s n).status.enabled = false ∨ b.cut = true) ∧ answered (exec (.descriptorReadDone n status data) s) (fun t => decide (t = bellEnd s n 3)) = true :=
  ⟨{ jobs pool with cc := { pool.cc with jq := [(4095, { status := { enabled := true }, base := 2 ^ 48, bells := [{ cut := true, open_ := true, reading := true }] })] } }, 4095, 0, [1, 2], [1, 2], { cut := true, open_ := true, reading := true }, [], by decide +kernel⟩

theorem test_descriptor_read_no_room : ∃ (s : State) (n status : Nat) (data bs : Bytes) (b : Bell) (l : List Bell), (working s = true) ∧ ((jobq s n).bells = b :: l) ∧ (b.reading = true) ∧ (ownRead s (slotFa (jobq s n) (jobq s n).accept) 64 status data = (0, bs)) ∧ ((jobq s n).status.enabled = true) ∧ (b.cut = false) ∧ (acceptStopped s = true ∨ journalRoom s (stagedEntries s + 2) = false) ∧ answered (exec (.descriptorReadDone n status data) s) (fun t => decide (t = bellEnd s n 1)) = true :=
  ⟨{ jobs pool with lv := { (jobs pool).lv with holdupLow := true }, cc := { pool.cc with jq := [(4095, { status := { enabled := true }, base := 2 ^ 48, bells := [{ open_ := true, reading := true }] })] } }, 4095, 0, [1, 2], [1, 2], { open_ := true, reading := true }, [], by decide +kernel⟩

theorem test_descriptor_accept : ∃ (s : State) (n : Nat) (b : Bell) (l : List Bell) (d : Bytes), (working s = true) ∧ ((jobq s n).bells = b :: l) ∧ (b.staged = some d) ∧ ((jobq s n).accept + 1 ≠ bellIndex b.f) ∧ (b.cut = false) ∧ answered (exec (.descriptorAccept n) s) (fun t => decide (jobq t n = { jobq s n with accept := (jobq s n).accept + 1, lastSeq := s.lv.nextSeq, bells := { b with accepted := b.accepted + 1, reading := true, staged := none } :: l } ∧ t.lv.recs = s.lv.recs ++ [{ seq := s.lv.nextSeq, seg := t.lv.openSeg, kind := .job, entries := 2, part := (comp s (jobq s n).comp).part, comp := (jobq s n).comp, queue := n, slot := (jobq s n).accept.toNat, length := 64, accepted := s.now, body := d }] ∧ t.lv.nextSeq = s.lv.nextSeq + 1 ∧ t = setJobq (stageRecord s { kind := .job, entries := 2, part := (comp s (jobq s n).comp).part, comp := (jobq s n).comp, queue := n, slot := (jobq s n).accept.toNat, length := 64, body := d }) n (jobq t n))) = true :=
  ⟨{ jobs pool with cc := { pool.cc with jq := [(4095, { comp := 5, accept := 0xFFFFFFFF, bells := [{ f := { data := [255, 15, 1] }, open_ := true, staged := some [7] }] })] } }, 4095, { f := { data := [255, 15, 1] }, open_ := true, staged := some [7] }, [], [7], by decide +kernel⟩

theorem test_descriptor_accept_last : ∃ (s : State) (n : Nat) (b : Bell) (l : List Bell) (d : Bytes), (working s = true) ∧ ((jobq s n).bells = b :: l) ∧ (b.staged = some d) ∧ ((jobq s n).accept + 1 = bellIndex b.f ∨ b.cut = true) ∧ answered (exec (.descriptorAccept n) s) (fun t => decide (t = bellEnd (setJobq (stageRecord s { kind := .job, entries := 2, part := (comp s (jobq s n).comp).part, comp := (jobq s n).comp, queue := n, slot := (jobq s n).accept.toNat, length := 64, body := d }) n { jobq s n with accept := (jobq s n).accept + 1, lastSeq := s.lv.nextSeq, bells := { b with accepted := b.accepted + 1, reading := false, staged := none } :: l }) n 0)) = true :=
  ⟨{ jobs pool with cc := { pool.cc with jq := [(7, { comp := 5, accept := 0xFFFFFFFF, bells := [{ f := { op := 7, data := [7, 0, 0] }, open_ := true, staged := some [7] }] })] } }, 7, { f := { op := 7, data := [7, 0, 0] }, open_ := true, staged := some [7] }, [], [7], by decide +kernel⟩

theorem test_commit_jobq_enable : ∃ (s : State) (cs : Nat) (d : List W64), (Presents s cs 0xE4 d) ∧ (enableOf d = true) ∧ (Fresh s cs 0xE4 (stampKey okJobq (df d 0 0 12))) ∧ (jobqReason s (ctl s cs) d = 0) ∧ answered (exec (.commitJobqEnable cs) s) (fun t => decide (Committed s t cs 0 1 ∧ jobq t (df d 0 0 12) = { jobq s (df d 0 0 12) with base := df d 1 0 60, endpoint := df d 0 48 16, comp := df d 0 32 12, log2 := df d 2 0 5, accept := 0, lastSeq := 0, status := { enabled := true } } ∧ t = ctlComplete (grantCommit { s with cc := { s.cc with jq := tput {} s.cc.jq (df d 0 0 12) (tget {} t.cc.jq (df d 0 0 12)) } } cs 0xE4 ((stampKey okJobq (df d 0 0 12)))) cs 0 (some (jobqWord t (df d 0 0 12))) (some (stampKey okJobq (df d 0 0 12))) 64)) = true :=
  ⟨prog { pool with tr := { pool.tr with comps := [(5, { state := 2, curLive := true, cur := { members := [9] } })] } } 0xE4 [w64 (4095 + 5 * 2 ^ 32 + 9 * 2 ^ 48), 4096, 16, 1], 0, [w64 (4095 + 5 * 2 ^ 32 + 9 * 2 ^ 48), 4096, 16, 1], by decide +kernel⟩

theorem test_commit_jobq_disable : ∃ (s : State) (cs : Nat) (d : List W64), (Presents s cs 0xE4 d) ∧ (enableOf d = false) ∧ (Fresh s cs 0xE4 (stampKey okJobq (df d 0 0 12))) ∧ (reaches (ctl s cs) (df d 0 32 12) = true) ∧ (((jobq s (df d 0 0 12)).status.enabled = false ∧ (jobq s (df d 0 0 12)).status.draining = false) ∨ reaches (ctl s cs) (jobq s (df d 0 0 12)).comp = true) ∧ answered (exec (.commitJobqDisable cs) s) (fun t => decide (Completed s t cs 0 ∧ (jobq t (df d 0 0 12)).status.enabled = false ∧ (jobq t (df d 0 0 12)).status.draining = (((jobq s (df d 0 0 12)).status.enabled || (jobq s (df d 0 0 12)).status.draining) && queueBusy s (df d 0 0 12)) ∧ t = ctlComplete (grantCommit (disableJobq s (df d 0 0 12)) cs 0xE4 ((stampKey okJobq (df d 0 0 12)))) cs 0 (some (jobqWord t (df d 0 0 12))) (some (stampKey okJobq (df d 0 0 12))) 64)) = true :=
  ⟨progRt (jobs pool) 5 0xE4 [w64 (5 * 2 ^ 32), 0, 0, 0], 0, [w64 (5 * 2 ^ 32), 0, 0, 0], by decide +kernel⟩

theorem test_jobq_drain_end : ∃ (s : State) (n : Nat), (working s = true) ∧ ((jobq s n).status.draining = true) ∧ (queueBusy s n = false) ∧ answered (exec (.jobqDrainEnd n) s) (fun t => decide (jobq t n = { jobq s n with status := { (jobq s n).status with draining := false } } ∧ t = { s with cc := { s.cc with jq := tput {} s.cc.jq (n) (tget {} t.cc.jq (n)) } })) = true :=
  ⟨{ up with cc := { up.cc with jq := [(4095, { status := { draining := true } })] } }, 4095, by decide +kernel⟩

theorem test_job_take : ∃ (s : State) (q : Nat) (r : JRec), (working s = true) ∧ (s.sa.ready = true) ∧ (s.cc.bootDone = true) ∧ (q < 68) ∧ ((seam s q).state = 0) ∧ ((seam s q).banks ≠ 0) ∧ (partStopped s (seam s q).part = false) ∧ (startsBarred s = false) ∧ (oldest (nextJobs s (seam s q).part) = some r) ∧ ((seam s q).scrubDue = false) ∧ (jobCheck s r = none) ∧ ((jobRunOf s r).charge = 0) ∧ ((seam s q).ran = false ∨ (seam s q).tenant = (comp s r.comp).tenant) ∧ answered (exec (.jobTake q) s) (fun t => decide ((seam t q).state = 1 ∧ (seam t q).seqNo = r.seq ∧ (seam t q).tenant = (jobRunOf s r).tenant ∧ (seam t q).job = some { jobRunOf s r with usesPat := true, waitT := s.now } ∧ (seam t q).restarts = tget 0 s.sa.reruns r.seq ∧ t = takeJob s q r)) = true :=
  ⟨jobs pool, 3, { seq := 4, kind := .job, entries := 2, comp := 5, length := 64, body := List.replicate 64 0 }, by decide +kernel⟩

theorem test_job_take_asks_leave : ∃ (s : State) (q : Nat) (r : JRec), (working s = true) ∧ (s.sa.ready = true) ∧ (s.cc.bootDone = true) ∧ (q < 68) ∧ ((seam s q).state = 0) ∧ ((seam s q).banks ≠ 0) ∧ (partStopped s (seam s q).part = false) ∧ (startsBarred s = false) ∧ (oldest (nextJobs s (seam s q).part) = some r) ∧ ((seam s q).scrubDue = false) ∧ ((seam s q).ran = false ∨ (seam s q).tenant = (comp s r.comp).tenant) ∧ (jobCheck s r = none) ∧ ((jobRunOf s r).charge ≠ 0) ∧ answered (exec (.jobTake q) s) (fun t => decide ((seam t q).state = 1 ∧ (seam t q).wait = 1 ∧ (seam t q).restarts = tget 0 s.sa.reruns r.seq ∧ (flow t (seam s q).part).queue = (flow s (seam s q).part).queue ++ [{ who := .job q, charge := (jobRunOf s r).charge, since := s.now }] ∧ t = takeJob s q r)) = true :=
  ⟨{ jobs pool with sa := { (jobs pool).sa with pats := [(0, { status := { enabled := true }, ever := true, pwide := true, image := tinyBody.set 6 2 })] } }, 3, { seq := 4, kind := .job, entries := 2, comp := 5, length := 64, body := List.replicate 64 0 }, by decide +kernel⟩

theorem test_job_take_ended : ∃ (s : State) (q st : Nat) (r : JRec), (working s = true) ∧ (s.sa.ready = true) ∧ (s.cc.bootDone = true) ∧ (q < 68) ∧ ((seam s q).state = 0) ∧ ((seam s q).banks ≠ 0) ∧ (partStopped s (seam s q).part = false) ∧ (startsBarred s = false) ∧ (oldest (nextJobs s (seam s q).part) = some r) ∧ ((seam s q).scrubDue = false) ∧ (jobCheck s r = some st) ∧ ((seam s q).ran = false ∨ (seam s q).tenant = (comp s r.comp).tenant) ∧ answered (exec (.jobTake q) s) (fun t => decide ((seam t q).state = 8 ∧ (seam t q).job = some { jobRunOf s r with endStatus := some st } ∧ t = takeJob s q r)) = true :=
  ⟨{ jobs pool with tr := { pool.tr with comps := [(5, { state := 3 })] } }, 3, 8, { seq := 4, kind := .job, entries := 2, comp := 5, length := 64, body := List.replicate 64 0 }, by decide +kernel⟩

theorem test_job_take_scrubs : ∃ (s : State) (q : Nat) (r : JRec), (working s = true) ∧ (s.sa.ready = true) ∧ (s.cc.bootDone = true) ∧ (q < 68) ∧ ((seam s q).state = 0) ∧ ((seam s q).banks ≠ 0) ∧ (partStopped s (seam s q).part = false) ∧ (startsBarred s = false) ∧ (oldest (nextJobs s (seam s q).part) = some r) ∧ ((seam s q).scrubDue = true ∨ ((seam s q).ran = true ∧ (seam s q).tenant ≠ (comp s r.comp).tenant)) ∧ answered (exec (.jobTake q) s) (fun t => decide (seam t q = { seam s q with state := 4 } ∧ t = { s with sa := { s.sa with seqs := tput {} s.sa.seqs (q) (tget {} t.sa.seqs (q)) } })) = true :=
  ⟨{ jobs pool with sa := { (jobs pool).sa with seqs := [(67, { banks := 6, ran := true, tenant := 8 })] } }, 67, { seq := 4, kind := .job, entries := 2, comp := 5, length := 64, body := List.replicate 64 0 }, by decide +kernel⟩

theorem test_sequencer_scrub_end : ∃ (s : State) (q : Nat) (bad : List Nat), (working s = true) ∧ ((seam s q).state = 4) ∧ (bad.filter (sliceBanks s q).contains = []) ∧ answered (exec (.sequencerScrubEnd q bad) s) (fun t => decide (seam t q = { seam s q with state := 0, s := [], p := 1, pc := 0, loops := [], code := [], mem := [], ran := false, scrubDue := false } ∧ t = { s with sa := { s.sa with seqs := tput {} s.sa.seqs (q) (tget {} t.sa.seqs (q)) } })) = true :=
  ⟨{ up with sa := { up.sa with seqs := [(67, { state := 4, banks := 6, mem := [(9, 1)], s := [(1, 7)], ran := true })] } }, 67, [50], by decide +kernel⟩

theorem test_sequencer_scrub_bad_row : ∃ (s : State) (q b : Nat), (working s = true) ∧ ((seam s q).state = 4) ∧ ((sliceBanks s q).contains b = true) ∧ answered (exec (.sequencerScrubEnd q [b]) s) (fun _ => decide (True)) = true :=
  ⟨{ up with sa := { up.sa with seqs := [(67, { state := 4, banks := 6, mem := [(9, 1)], s := [(1, 7)], ran := true })] } }, 67, 5, by decide +kernel⟩

theorem test_sequencer_scrub_rows : ∃ (s : State) (q : Nat) (bad : List Nat), (working s = true) ∧ ((seam s q).state = 4) ∧ answered (exec (.sequencerScrubEnd q bad) s) (fun t => decide (t = (bad.filter (sliceBanks s q).contains).foldl (fun s b => if (seam s q).state = 7 then s else if rowsOut s (unitDie 0 q) then failBank s q (unitDie 0 q) b else remapRow s (unitDie 0 q)) (setSeam s q { seam s q with state := 0, s := [], p := 1, pc := 0, loops := [], code := [], mem := [], ran := false, scrubDue := false }))) = true :=
  ⟨{ up with sa := { up.sa with seqs := [(67, { state := 4, banks := 6, mem := [(9, 1)], s := [(1, 7)], ran := true })] } }, 67, [], by decide +kernel⟩

theorem test_placement : ∃ (s : State) (q : Nat) (j : JobRun) (plan : List (Nat × Nat)), (working s = true) ∧ (placeable s q = some j) ∧ ((seam s q).wait = 0) ∧ (planFor s q { j with waitT := s.now } = .placed plan) ∧ answered (exec (.placement q) s) (fun t => decide ((seam t q).state = 2 ∧ (plan.all (fun u => decide ((unitAt t u.1 u.2).state = 1)) = true) ∧ (seam t q).chans = planChans (imgLaceMap (pat s j.pat).image) plan ∧ (seam t q).wait = 0 ∧ t = placeJob s q { j with waitT := s.now })) = true :=
  ⟨{ jobs pool with sa := { (jobs pool).sa with seqs := [(3, { state := 1, banks := 6, job := some { usesPat := true } })] } }, 3, { usesPat := true }, [(2, 0), (2, 1)], by decide +kernel⟩

theorem test_placement_waits : ∃ (s : State) (q w : Nat) (j : JobRun), (working s = true) ∧ (placeable s q = some j) ∧ ((seam s q).wait = 0) ∧ (planFor s q { j with waitT := s.now } = .waits w) ∧ answered (exec (.placement q) s) (fun t => decide (seam t q = { seam s q with wait := w, job := some { j with waitT := s.now } } ∧ t = { s with sa := { s.sa with seqs := tput {} s.sa.seqs (q) (tget {} t.sa.seqs (q)) } })) = true :=
  ⟨{ jobs pool with sa := { (jobs pool).sa with seqs := [(3, { state := 1, banks := 6, part := 4, job := some { usesPat := true } })], units := [(unitKey 2 0, { part := 4, state := 1 }), (unitKey 2 1, { part := 4 })] } }, 3, 2, { usesPat := true }, by decide +kernel⟩

theorem test_placement_absent : ∃ (s : State) (q : Nat) (j : JobRun), (working s = true) ∧ (placeable s q = some j) ∧ ((seam s q).wait = 0) ∧ (j.endStatus = none) ∧ (planFor s q { j with waitT := s.now } = .absent) ∧ answered (exec (.placement q) s) (fun t => decide ((seam t q).state = 8 ∧ (seam t q).job = some { j with endStatus := some 0x0C } ∧ t = stopJob s q 0x0C)) = true :=
  ⟨{ jobs pool with sa := { (jobs pool).sa with seqs := [(3, { state := 1, banks := 6, part := 4, job := some { usesPat := true } })], units := [(unitKey 2 0, { part := 4, state := 1 })] } }, 3, { usesPat := true }, by decide +kernel⟩

theorem test_placement_retry : ∃ (s : State) (part q : Nat) (j : JobRun) (plan : List (Nat × Nat)), (working s = true) ∧ (q < 68) ∧ ((List.range 68).all (fun k => decide (k = q) || (placeable s k).isNone) = true) ∧ (placeable s q = some j) ∧ ((seam s q).part = part) ∧ ((seam s q).wait ≠ 0) ∧ (planFor s q j = .placed plan) ∧ answered (exec (.placementRetry part) s) (fun t => decide ((seam t q).state = 2 ∧ tget 0 t.sa.rrSeq part = (q + 1) % 68 ∧ t = retryPlace part s q)) = true :=
  ⟨{ jobs pool with sa := { (jobs pool).sa with rrSeq := [(0, 67)], seqs := [(3, { state := 1, wait := 2, banks := 6, job := some { usesPat := true } })] } }, 0, 3, { usesPat := true }, [(2, 0), (2, 1)], by decide +kernel⟩

theorem test_placement_retry_turns : ∃ (s : State) (part : Nat), (working s = true) ∧ answered (exec (.placementRetry part) s) (fun t => decide (t = (List.range 68).foldl (fun s1 k => retryPlace part s1 ((tget 0 s.sa.rrSeq part + k) % 68)) s)) = true :=
  ⟨{ jobs pool with sa := { (jobs pool).sa with seqs := [(3, { state := 1, banks := 6, job := some { usesPat := true } })] } }, 0, by decide +kernel⟩

theorem test_pll_lock : ∃ (s : State) (d : Nat), (mainUp s = true) ∧ ((die s d).pll = 1) ∧ ((die s d).lockT ≤ s.now) ∧ answered (exec (.pllLock d) s) (fun t => decide (t = setDie s d { die s d with pll := 2 })) = true :=
  ⟨{ up with now := 8000, ph := { up.ph with dies := [(3, { pll := 1, lockT := 8000 })] } }, 3, by decide +kernel⟩

theorem test_job_start : ∃ (s : State) (q : Nat) (j : JobRun) (set : Option Nat) (wire : List (Nat × Nat)), (working s = true) ∧ ((seam s q).job = some j) ∧ ((seam s q).state = 2) ∧ (seamAwake s q = true) ∧ (stagingWaits s = false) ∧ (staleSet s j.comp set = false) ∧ answered (exec (.jobStart q set wire) s) (fun t => decide ((seam t q).state = 3 ∧ (seam t q).s = startRegs j ∧ (seam t q).p = 1 ∧ (seam t q).pc = 0 ∧ (seam t q).halted = false ∧ (seam t q).job = some { j with began := true, startT := s.now, wset := set.map (· % 4096), wire := wire, wired := [] } ∧ (ctx t j.ctx).resident = true ∧ t = startJob s q j set wire)) = true :=
  ⟨{ jobs pool with sa := { (jobs pool).sa with seqs := [(3, { state := 2, banks := 6, stages := [(0, { ty := 2 })], job := some { seq := 4, usesPat := true, args := [1, 2, 3, 4] } })] }, ph := { up.ph with dies := [(0, { pll := 2 })] } }, 3, { seq := 4, usesPat := true, args := [1, 2, 3, 4] }, none, [(0, 5)], by decide +kernel⟩

theorem test_job_start_stale : ∃ (s : State) (q : Nat) (j : JobRun) (set : Option Nat) (wire : List (Nat × Nat)), (working s = true) ∧ ((seam s q).job = some j) ∧ ((seam s q).state = 2) ∧ (seamAwake s q = true) ∧ (stagingWaits s = false) ∧ (staleSet s j.comp set = true) ∧ (j.endStatus = none) ∧ answered (exec (.jobStart q set wire) s) (fun t => decide ((seam t q).state = 8 ∧ (seam t q).job.map (·.endStatus) = some (some 5) ∧ t = stopJob s q 5)) = true :=
  ⟨{ jobs pool with sa := { (jobs pool).sa with seqs := [(3, { state := 2, banks := 6, job := some { seq := 4 } })] }, ph := { up.ph with dies := [(0, { pll := 2 })] } }, 3, { seq := 4 }, some 7, [], by decide +kernel⟩

theorem test_job_retire : ∃ (s : State) (q : Nat) (j : JobRun) (r : JRec), (working s = true) ∧ (stagingWaits s = false) ∧ (seamBusy s q = false) ∧ ((seam s q).job = some j) ∧ ((seam s q).state = 8) ∧ ((seam s q).stages = []) ∧ (j.leaveHeld = false) ∧ (findRec s j.seq = some r) ∧ (r.exported = false) ∧ (s.lv.removeStopped = false) ∧ (findCompl s r.seq = none) ∧ ((health s 0 q).swapDue = false) ∧ ((List.range 9).all (fun cs => decide ((ctl s cs).wait ≠ .spareUnit 0 q)) = true) ∧ answered (exec (.jobRetire q) s) (fun t => decide ((seam t q).state = 0 ∧ (seam t q).job = none ∧ (findCompl t r.seq).map (·.word1) = some (w64 (place 0 8 (jobStatus j) + place 8 12 j.queue + place 20 32 j.slot)) ∧ t.lv.nextSeq = s.lv.nextSeq + 1 ∧ t = retireJob s q j)) = true :=
  ⟨{ jobs pool with sa := { (jobs pool).sa with seqs := [(3, { state := 8, banks := 6, job := some { seq := 4, endStatus := some 8 } })] } }, 3, { seq := 4, endStatus := some 8 }, { seq := 4, kind := .job, entries := 2, comp := 5, length := 64, body := List.replicate 64 0 }, by decide +kernel⟩

theorem test_job_retire_halted : ∃ (s : State) (q : Nat) (j : JobRun), (working s = true) ∧ (stagingWaits s = false) ∧ (seamBusy s q = false) ∧ ((seam s q).job = some j) ∧ (((seam s q).state = 3 ∧ seamHalted (seam s q) = true) ∨ (seam s q).state = 8) ∧ answered (exec (.jobRetire q) s) (fun t => decide (t = retireJob s q j)) = true :=
  ⟨{ jobs pool with sa := { (jobs pool).sa with seqs := [(3, { state := 3, banks := 6, halted := true, stages := [(0, { ty := 2, phys := 4, halted := true, iv := true })], job := some { seq := 4 } })], units := [(unitKey 2 4, { state := 1 })] } }, 3, { seq := 4 }, by decide +kernel⟩

theorem test_completion_write_done : ∃ (s : State) (n status : Nat) (r c : JRec), (working s = true) ∧ (stagingWaits s = false) ∧ (queueHead s n = some r) ∧ (findCompl s r.seq = some c) ∧ ((ownWrite s (fld (jobWord r 6) 0 60) (complBytes r c) status).1 ≠ 1) ∧ answered (exec (.completionWriteDone n status) s) (fun t => decide ((findRec t r.seq).isNone = true ∧ (findCompl t r.seq).isNone = true ∧ t = deliverCompl s r c status)) = true :=
  ⟨{ up with lv := { up.lv with recs := [{ seq := 4, kind := .job, queue := 9, body := List.replicate 54 0 ++ [1, 0, 0, 128] }, { seq := 5, kind := .completion, ofSeq := 4 }] } }, 9, 0, { seq := 4, kind := .job, queue := 9, body := List.replicate 54 0 ++ [1, 0, 0, 128] }, { seq := 5, kind := .completion, ofSeq := 4 }, by decide +kernel⟩

theorem test_completion_write_again : ∃ (s : State) (n status : Nat) (r c : JRec), (working s = true) ∧ (stagingWaits s = false) ∧ (queueHead s n = some r) ∧ (findCompl s r.seq = some c) ∧ ((ownWrite s (fld (jobWord r 6) 0 60) (complBytes r c) status).1 = 1) ∧ answered (exec (.completionWriteDone n status) s) (fun t => decide (t = s)) = true :=
  ⟨{ up with lv := { up.lv with recs := [{ seq := 4, kind := .job, queue := 9, body := List.replicate 54 1 ++ [1, 0, 0, 128] }, { seq := 5, kind := .completion, ofSeq := 4 }] } }, 9, 1, { seq := 4, kind := .job, queue := 9, body := List.replicate 54 1 ++ [1, 0, 0, 128] }, { seq := 5, kind := .completion, ofSeq := 4 }, by decide +kernel⟩

theorem test_job_run_limit : ∃ (s : State) (q : Nat) (j : JobRun), (working s = true) ∧ ((seam s q).state = 3) ∧ ((seam s q).job = some j) ∧ (j.endStatus = none) ∧ (j.startT + runLimit s (seam s q).part ≤ s.now) ∧ answered (exec (.jobRunLimit q) s) (fun t => decide ((seam t q).state = 8 ∧ (seam t q).job.map (·.endStatus) = some (some 0x0E) ∧ (seam t q).stopT = some s.now ∧ t = stopJob (setSeam s q { seam s q with stopT := some s.now }) q 0x0E)) = true :=
  ⟨{ up with now := 100000000, sa := { up.sa with seqs := [(67, { state := 3, job := some {} })] } }, 67, {}, by decide +kernel⟩

theorem test_job_restart : ∃ (s : State) (q a b : Nat) (j : JobRun), (working s = true) ∧ ((seam s q).job = some j) ∧ ((seam s q).state = 3) ∧ (errIn s q (.row a b) = true) ∧ (seamBusy s q = false) ∧ answered (exec (.jobRestart q (.row a b)) s) (fun _ => decide (True)) = true :=
  ⟨{ up with sa := { up.sa with seqs := [(3, { state := 3, first := 6, banks := 6, job := some { seq := 4 } })] } }, 3, 0, 11, { seq := 4 }, by decide +kernel⟩

theorem test_job_restart_part : ∃ (s : State) (q : Nat) (err : ErrPart) (j : JobRun), (working s = true) ∧ ((seam s q).job = some j) ∧ ((seam s q).state = 3 ∨ (seam s q).state = 5) ∧ (errIn s q err = true) ∧ (seamBusy s q = false) ∧ ((match err with | .row _ _ => true | _ => false) = false) ∧ answered (exec (.jobRestart q err) s) (fun t => decide (t = ctxLeft (rerunJob (dropPart (saCount s 3 1) q err) q j) j.ctx)) = true :=
  ⟨{ up with sa := { up.sa with seqs := [(3, { state := 3, chans := [(11, 1)], job := some {} })] } }, 3, .chan 2 3, {}, by decide +kernel⟩

theorem test_job_restart_waits : ∃ (s : State) (q : Nat) (err : ErrPart) (j : JobRun), (working s = true) ∧ ((seam s q).job = some j) ∧ ((seam s q).state = 3) ∧ (errIn s q err = true) ∧ (seamBusy s q = true) ∧ ((seam s q).stopT = none) ∧ answered (exec (.jobRestart q err) s) (fun t => decide (seam t q = { seam s q with state := 5, wait := 0, stopT := some s.now } ∧ t = { s with sa := { s.sa with seqs := tput {} s.sa.seqs (q) (tget {} t.sa.seqs (q)) } })) = true :=
  ⟨{ up with te := { up.te with outst := [{ what := .seqUpdate 3 }] }, sa := { up.sa with seqs := [(3, { state := 3, chans := [(11, 1)], job := some {} })] } }, 3, .chan 2 3, {}, by decide +kernel⟩

theorem test_unit_idle_gate : ∃ (s : State) (ty p : Nat), (mainUp s = true) ∧ (1 ≤ ty) ∧ (ty < 8) ∧ (p < physCount ty) ∧ ((unitAt s ty p).gated = false) ∧ ((unitAt s ty p).state ≠ 1) ∧ ((unitAt s ty p).state ≠ 5) ∧ ((unitAt s ty p).idleT + s.ph.unitIdle * 1000 ≤ s.now) ∧ answered (exec (.unitIdleGate ty p) s) (fun t => decide (unitAt t ty p = { unitAt s ty p with gated := true } ∧ t = dieGated (setUnit s ty p { unitAt s ty p with gated := true }) (unitDie ty p))) = true :=
  ⟨{ up with now := 10000, sa := { up.sa with units := [(unitKey 7 17, { gated := false })] } }, 7, 17, by decide +kernel⟩

theorem test_unit_idle_gate_sequencer : ∃ (s : State) (p : Nat), (mainUp s = true) ∧ (p < 68) ∧ ((seam s p).gated = false) ∧ ((seam s p).job = none) ∧ ((seam s p).idleT + s.ph.unitIdle * 1000 ≤ s.now) ∧ answered (exec (.unitIdleGate 0 p) s) (fun t => decide (seam t p = { seam s p with gated := true } ∧ t = dieGated (setSeam s p { seam s p with gated := true }) (unitDie 0 p))) = true :=
  ⟨{ up with now := 10000, sa := { up.sa with seqs := [(67, { gated := false })] } }, 67, by decide +kernel⟩

theorem test_pll_idle_stop : ∃ (s : State) (d : Nat), (mainUp s = true) ∧ (d < 4) ∧ ((die s d).pll = 2) ∧ (dieIdle s d = true) ∧ ((die s d).idleT + s.ph.pllIdle * 1000 ≤ s.now) ∧ answered (exec (.pllIdleStop d) s) (fun t => decide (t = setDie s d { die s d with pll := 0 })) = true :=
  ⟨{ up with now := 1000000, ph := { up.ph with dies := [(3, { pll := 2 })] } }, 3, by decide +kernel⟩

theorem test_leave_grant : ∃ (s : State) (base p q : Nat) (r : LeaveReq) (l : List LeaveReq), (working s = true) ∧ (bestFlow { s with ph := { s.ph with base := base } } = some p) ∧ ((flow s p).queue = r :: l) ∧ (r.who = .job q) ∧ (leaveFits { s with ph := { s.ph with base := base } } r.charge base = true) ∧ answered (exec (.leaveGrant base) s) (fun t => decide ((seam t q).wait = 0 ∧ (seam t q).job = ((seam s q).job.map fun j => { j with leaveHeld := true }) ∧ (flow t p).queue = l ∧ (flow t p).held = (flow s p).held + r.charge ∧ t = leaveGranted (takeFront { s with ph := { s.ph with base := base } } p r l) r)) = true :=
  ⟨{ up with ph := { up.ph with flows := [(16, { queue := [{ who := .job 3, charge := 100 }, { charge := 5 }] })] }, sa := { up.sa with seqs := [(3, { state := 1, wait := 1, job := some {} })] } }, 90, 16, 3, { who := .job 3, charge := 100 }, [{ charge := 5 }], by decide +kernel⟩

theorem test_halt_stage : ∃ (s : State) (q n : Nat), (StageReady s q n 0) ∧ ((stage s q n).pieces = []) ∧ answered (exec (.halt (.stage q n)) s) (fun t => decide ((stage t q n).halted = true ∧ ((laceList (stage s q n).outL).all (fun l => (laceOf (seam t q) l).closed) = true) ∧ (stage t q n).t = (stage s q n).t ∧ t = haltStage s q n)) = true :=
  ⟨work 2 [0], 3, 1, by decide +kernel⟩

theorem test_halt_stage_delivers : ∃ (s : State) (q n : Nat), (StageReady s q n 0) ∧ ((stage s q n).pieces ≠ []) ∧ answered (exec (.halt (.stage q n)) s) (fun t => decide (t = s)) = true :=
  ⟨workSt 2 [0] (fun g => { g with pieces := [{}] }), 3, 1, by decide +kernel⟩

theorem test_halt_seq : ∃ (s : State) (q : Nat), (SeqReady s q 0) ∧ answered (exec (.halt (.seq q)) s) (fun t => decide (t = setSeam s q { seam s q with halted := true })) = true :=
  ⟨workSeq [0], 3, by decide +kernel⟩

theorem test_halt_ctl : ∃ (s : State) (cs : Nat), (CtlReady s cs 0) ∧ (stagingWaits s = false) ∧ ((ctl s cs).leave = false) ∧ (s.ph.partDue = []) ∧ ((mbx s (ctl s cs).mailbox).outFull = false) ∧ answered (exec (.halt (.ctl cs)) s) (fun t => decide ((ctl t cs).state = 0 ∧ (mbx t (ctl s cs).mailbox).outQ = [replyHead 0x82 (ctl s cs).tag, w64 (ctl s cs).seqNo, statusReason 0 (fld (sGet (ctl s cs).s 31) 0 16), w64 s.now] ∧ t = progEnd s cs 0 (fld (sGet (ctl s cs).s 31) 0 16))) = true :=
  ⟨workCtl [0], 2, by decide +kernel⟩

theorem test_halt_ctl_ends : ∃ (s : State) (cs : Nat), (CtlReady s cs 0) ∧ (stagingWaits s = false) ∧ answered (exec (.halt (.ctl cs)) s) (fun t => decide (t = progEnd s cs 0 (fld (sGet (ctl s cs).s 31) 0 16))) = true :=
  ⟨workCtl [0], 2, by decide +kernel⟩

theorem test_loop_stage : ∃ (s : State) (q n : Nat) (i : Ins), (StageReady s q n 1) ∧ (stageIns s q n = i) ∧ (i.f 32 5 = 0) ∧ answered (exec (.loop (.stage q n)) s) (fun t => decide (t = setStage s q n { stage s q n with pc := (stage s q n).pc + 1, loops := { body := (stage s q n).pc + 1, endl := findEndl (stage s q n).code ((stage s q n).code.length / 8) ((stage s q n).pc + 1) 0, bounded := decide (i.f 0 16 ≠ 0), left := i.f 0 16, ind := i.f 41 7, stride := i.f 16 16 } :: keepLoops (stage s q n).loops (stage s q n).pc })) = true :=
  ⟨work 2 [ins 1 1 5, ins 2 0 0, 0], 3, 1, { w := w64 (ins 1 1 5) }, by decide +kernel⟩

theorem test_loop_seq : ∃ (s : State) (q : Nat) (i : Ins), (SeqReady s q 1) ∧ (seqIns s q = i) ∧ (i.f 32 5 ≠ 0) ∧ (fld (sGet (seam s q).s (i.f 32 5)) 0 32 ≠ 0) ∧ answered (exec (.loop (.seq q)) s) (fun t => decide (t = setSeam s q { seam s q with pc := (seam s q).pc + 1, loops := { body := (seam s q).pc + 1, endl := findEndl (seam s q).code ((seam s q).code.length / 8) ((seam s q).pc + 1) 0, bounded := true, left := fld (sGet (seam s q).s (i.f 32 5)) 0 32, ind := i.f 41 7, stride := i.f 16 16 } :: keepLoops (seam s q).loops (seam s q).pc })) = true :=
  ⟨workSeq [ins 1 1 (5 * 2 ^ 32), ins 2 0 0, 0], 3, { w := w64 (ins 1 1 (5 * 2 ^ 32)) }, by decide +kernel⟩

theorem test_loop_skipped : ∃ (s : State) (q n : Nat) (i : Ins), (StageReady s q n 1) ∧ (stageIns s q n = i) ∧ (i.f 32 5 ≠ 0) ∧ (fld (sGet (seam s q).s (i.f 32 5)) 0 32 = 0) ∧ answered (exec (.loop (.stage q n)) s) (fun t => decide (t = setStage s q n { stage s q n with pc := findEndl (stage s q n).code ((stage s q n).code.length / 8) ((stage s q n).pc + 1) 0 + 1, loops := keepLoops (stage s q n).loops (stage s q n).pc })) = true :=
  ⟨work 2 [ins 1 1 (31 * 2 ^ 32), ins 2 0 0, 0], 3, 1, { w := w64 (ins 1 1 (31 * 2 ^ 32)) }, by decide +kernel⟩

theorem test_loop_ctl : ∃ (s : State) (cs : Nat) (i : Ins), (CtlReady s cs 1) ∧ (ctlIns s cs = i) ∧ (i.f 32 5 = 0) ∧ answered (exec (.loop (.ctl cs)) s) (fun t => decide (t = setCtl s cs { ctl s cs with pc := (ctl s cs).pc + 1, loops := { body := (ctl s cs).pc + 1, endl := findEndl (ctl s cs).image ((ctl s cs).image.length / 8) ((ctl s cs).pc + 1) 0, bounded := decide (i.f 0 16 ≠ 0), left := i.f 0 16, ind := i.f 41 7, stride := i.f 16 16 } :: keepLoops (ctl s cs).loops (ctl s cs).pc })) = true :=
  ⟨workCtl [ins 1 1 0, ins 2 0 0, 0], 2, { w := w64 (ins 1 1 0) }, by decide +kernel⟩

theorem test_loop_stage_enters : ∃ (s : State) (q n : Nat) (i : Ins) (p : Place), (StageReady s q n 1) ∧ (stageIns s q n = i) ∧ (loopPlace (stage s q n).code { pc := (stage s q n).pc, loops := (stage s q n).loops } i (sGet (seam s q).s (i.f 32 5)) = p) ∧ answered (exec (.loop (.stage q n)) s) (fun t => decide (t = setStage s q n { stage s q n with pc := p.pc, loops := p.loops })) = true :=
  ⟨work 2 [ins 1 1 (31 * 2 ^ 32), ins 2 0 0, 0], 3, 1, { w := w64 (ins 1 1 (31 * 2 ^ 32)) }, { pc := 2, loops := [] }, by decide +kernel⟩

theorem test_loop_seq_enters : ∃ (s : State) (q : Nat) (i : Ins) (p : Place), (SeqReady s q 1) ∧ (seqIns s q = i) ∧ (loopPlace (seam s q).code { pc := (seam s q).pc, loops := (seam s q).loops } i (sGet (seam s q).s (i.f 32 5)) = p) ∧ answered (exec (.loop (.seq q)) s) (fun t => decide (t = setSeam s q { seam s q with pc := p.pc, loops := p.loops })) = true :=
  ⟨workSeq [ins 1 1 (31 * 2 ^ 32), ins 2 0 0, 0], 3, { w := w64 (ins 1 1 (31 * 2 ^ 32)) }, { pc := 2, loops := [] }, by decide +kernel⟩

theorem test_loop_ctl_enters : ∃ (s : State) (cs : Nat) (i : Ins) (p : Place), (CtlReady s cs 1) ∧ (ctlIns s cs = i) ∧ (loopPlace (ctl s cs).image { pc := (ctl s cs).pc, loops := (ctl s cs).loops } i (sGet (ctl s cs).s (i.f 32 5)) = p) ∧ answered (exec (.loop (.ctl cs)) s) (fun t => decide (t = setCtl s cs { ctl s cs with pc := p.pc, loops := p.loops })) = true :=
  ⟨workCtl [ins 1 1 (31 * 2 ^ 32), ins 2 0 0, 0], 2, { w := w64 (ins 1 1 (31 * 2 ^ 32)) }, { pc := 2, loops := [] }, by decide +kernel⟩

theorem test_endl_stage_back : ∃ (s : State) (q n : Nat) (f : LoopFrame) (l : List LoopFrame), (StageReady s q n 2) ∧ ((stage s q n).loops = f :: l) ∧ (f.endl = (stage s q n).pc) ∧ (f.bounded = false ∨ 2 ≤ f.left) ∧ answered (exec (.endl (.stage q n)) s) (fun t => decide ((stage t q n).pc = f.body ∧ (stage t q n).loops.head? = some { f with left := f.left - 1 } ∧ (stage t q n).a = indA (stage s q n).a f ∧ (stage t q n).t = (stage s q n).t ∧ t = setStage s q n { stage s q n with pc := f.body, loops := (endlPlace { pc := (stage s q n).pc, loops := (stage s q n).loops }).loops, a := indA (stage s q n).a f })) = true :=
  ⟨workSt 2 [ins 2 0 0, ins 2 0 0] (fun g => { g with pc := 1, loops := [{ body := 0, endl := 1, bounded := true, left := 2, ind := 66, stride := 0xFFFF }] }), 3, 1, { body := 0, endl := 1, bounded := true, left := 2, ind := 66, stride := 0xFFFF }, [], by decide +kernel⟩

theorem test_endl_stage_leave : ∃ (s : State) (q n : Nat) (f : LoopFrame) (l : List LoopFrame), (StageReady s q n 2) ∧ ((stage s q n).loops = f :: l) ∧ (f.endl = (stage s q n).pc) ∧ (f.bounded = true) ∧ (f.left ≤ 1) ∧ answered (exec (.endl (.stage q n)) s) (fun t => decide ((stage t q n).pc = (stage s q n).pc + 1 ∧ ((stage t q n).loops.all (fun g => decide (g.endl ≠ f.endl)) = true) ∧ (stage t q n).a = indA (stage s q n).a f ∧ t = setStage s q n { stage s q n with pc := (stage s q n).pc + 1, loops := (endlPlace { pc := (stage s q n).pc, loops := (stage s q n).loops }).loops, a := indA (stage s q n).a f })) = true :=
  ⟨workSt 2 [ins 2 0 0, ins 2 0 0] (fun g => { g with pc := 1, loops := [{ body := 0, endl := 1, bounded := true, left := 1, ind := 79, stride := 4 }] }), 3, 1, { body := 0, endl := 1, bounded := true, left := 1, ind := 79, stride := 4 }, [], by decide +kernel⟩

theorem test_endl_stage_alone : ∃ (s : State) (q n : Nat), (StageReady s q n 2) ∧ ((stage s q n).loops = []) ∧ answered (exec (.endl (.stage q n)) s) (fun t => decide (t = setStage s q n { stage s q n with pc := (stage s q n).pc + 1 })) = true :=
  ⟨work 2 [ins 2 0 0], 3, 1, by decide +kernel⟩

theorem test_endl_seq : ∃ (s : State) (q : Nat) (f : LoopFrame) (l : List LoopFrame), (SeqReady s q 2) ∧ ((seam s q).loops = f :: l) ∧ (f.endl = (seam s q).pc) ∧ (f.bounded = false ∨ 2 ≤ f.left) ∧ answered (exec (.endl (.seq q)) s) (fun t => decide ((seam t q).pc = f.body ∧ (seam t q).loops.head? = some { f with left := f.left - 1 } ∧ (seam t q).s = indS (seam s q).s f ∧ t = setSeam s q { seam s q with pc := f.body, loops := (endlPlace { pc := (seam s q).pc, loops := (seam s q).loops }).loops, s := indS (seam s q).s f })) = true :=
  ⟨{ workSeq [ins 2 0 0] with sa := (workSeam 2 [] fun x => { x with halted := false, code := wordsBytes [w64 (ins 2 0 0)], loops := [{ body := 0, endl := 0, bounded := false, ind := 31, stride := 1 }] }).sa }, 3, { body := 0, endl := 0, bounded := false, ind := 31, stride := 1 }, [], by decide +kernel⟩

theorem test_endl_ctl : ∃ (s : State) (cs : Nat) (f : LoopFrame) (l : List LoopFrame), (CtlReady s cs 2) ∧ ((ctl s cs).loops = f :: l) ∧ (f.endl = (ctl s cs).pc) ∧ (f.bounded = true) ∧ (f.left ≤ 1) ∧ answered (exec (.endl (.ctl cs)) s) (fun t => decide ((ctl t cs).pc = (ctl s cs).pc + 1 ∧ (ctl t cs).s = indS (ctl s cs).s f ∧ t = setCtl s cs { ctl s cs with pc := (ctl s cs).pc + 1, loops := (endlPlace { pc := (ctl s cs).pc, loops := (ctl s cs).loops }).loops, s := indS (ctl s cs).s f })) = true :=
  ⟨setCtl (workCtl []) 2 { ctl (workCtl []) 2 with image := wordsBytes [w64 (ins 2 0 0)], loops := [{ body := 0, endl := 0, bounded := true, left := 1, ind := 5, stride := 1 }] }, 2, { body := 0, endl := 0, bounded := true, left := 1, ind := 5, stride := 1 }, [], by decide +kernel⟩

theorem test_endl_seq_any : ∃ (s : State) (q : Nat), (SeqReady s q 2) ∧ answered (exec (.endl (.seq q)) s) (fun t => decide (t = setSeam s q { seam s q with pc := (endlPlace { pc := (seam s q).pc, loops := (seam s q).loops }).pc, loops := (endlPlace { pc := (seam s q).pc, loops := (seam s q).loops }).loops, s := endlS (seam s q).s { pc := (seam s q).pc, loops := (seam s q).loops } })) = true :=
  ⟨workSeq [ins 2 0 0], 3, by decide +kernel⟩

theorem test_endl_ctl_any : ∃ (s : State) (cs : Nat), (CtlReady s cs 2) ∧ answered (exec (.endl (.ctl cs)) s) (fun t => decide (t = setCtl s cs { ctl s cs with pc := (endlPlace { pc := (ctl s cs).pc, loops := (ctl s cs).loops }).pc, loops := (endlPlace { pc := (ctl s cs).pc, loops := (ctl s cs).loops }).loops, s := endlS (ctl s cs).s { pc := (ctl s cs).pc, loops := (ctl s cs).loops } })) = true :=
  ⟨workCtl [ins 2 0 0], 2, by decide +kernel⟩

theorem test_br_stage : ∃ (s : State) (q n : Nat) (i : Ins), (StageReady s q n 3) ∧ (stageIns s q n = i) ∧ answered (exec (.br (.stage q n)) s) (fun t => decide (t = setStage s q n { stage s q n with pc := (brTarget (stage s q n).pc i).toNat, loops := keepLoops (stage s q n).loops (brTarget (stage s q n).pc i).toNat })) = true :=
  ⟨workSt 2 [0, ins 3 1 (2 ^ 32 - 1)] (fun g => { g with pc := 1 }), 3, 1, { w := w64 (ins 3 1 (2 ^ 32 - 1)) }, by decide +kernel⟩

theorem test_br_seq : ∃ (s : State) (q : Nat) (i : Ins), (SeqReady s q 3) ∧ (seqIns s q = i) ∧ answered (exec (.br (.seq q)) s) (fun t => decide (t = setSeam s q { seam s q with pc := (brTarget (seam s q).pc i).toNat, loops := keepLoops (seam s q).loops (brTarget (seam s q).pc i).toNat })) = true :=
  ⟨workSeq [ins 3 1 2, 0, 0], 3, { w := w64 (ins 3 1 2) }, by decide +kernel⟩

theorem test_br_ctl : ∃ (s : State) (cs : Nat) (i : Ins), (CtlReady s cs 3) ∧ (ctlIns s cs = i) ∧ answered (exec (.br (.ctl cs)) s) (fun t => decide (t = setCtl s cs { ctl s cs with pc := (brTarget (ctl s cs).pc i).toNat, loops := keepLoops (ctl s cs).loops (brTarget (ctl s cs).pc i).toNat })) = true :=
  ⟨workCtl [ins 3 1 2, 0, 0], 2, { w := w64 (ins 3 1 2) }, by decide +kernel⟩

theorem test_br_guard_off : ∃ (s : State) (q n : Nat), (stageLive s q n = true) ∧ ((stageIns s q n).opc = 3) ∧ (guardOn (stage s q n).p (stageIns s q n) = false) ∧ answered (exec (.br (.stage q n)) s) (fun t => decide (t = setStage s q n { stage s q n with pc := (stage s q n).pc + (stageIns s q n).len })) = true :=
  ⟨work 2 [ins 3 1 (7 * 2 ^ 49)], 3, 1, by decide +kernel⟩

theorem test_br_seq_guard_off : ∃ (s : State) (q : Nat), (seqLive s q = true) ∧ ((seqIns s q).opc = 3) ∧ (guardOn (seam s q).p (seqIns s q) = false) ∧ answered (exec (.br (.seq q)) s) (fun t => decide (t = setSeam s q { seam s q with pc := (seam s q).pc + (seqIns s q).len })) = true :=
  ⟨workSeq [ins 3 1 (7 * 2 ^ 49)], 3, by decide +kernel⟩

theorem test_br_ctl_guard_off : ∃ (s : State) (cs : Nat), (ctlActive s cs = true) ∧ ((ctlIns s cs).opc = 3) ∧ (guardOn (ctl s cs).p (ctlIns s cs) = false) ∧ answered (exec (.br (.ctl cs)) s) (fun t => decide (t = setCtl s cs { ctl s cs with pc := (ctl s cs).pc + (ctlIns s cs).len })) = true :=
  ⟨workCtl [ins 3 1 (7 * 2 ^ 49)], 2, by decide +kernel⟩

theorem test_arrive_seq : ∃ (s : State) (q v obj : Nat) (i : Ins) (j : JobRun) (f : Frame), (SeqReady s q 0x70) ∧ (seqIns s q = i) ∧ ((seam s q).job = some j) ∧ ((seam s q).updates < 16777216) ∧ (i.x 28 1 = 0) ∧ (i.x 0 14 = obj) ∧ (updFrame s 0x09 s.swNum obj j.comp (updValue 0x09 i (sGet (seam s q).s (i.f 34 5))) j.seq 31 (seam s q).updates = f) ∧ (updateValue s obj j.comp false (leAt f.data 0 8) = some v) ∧ (cacheStep s f = .fresh) ∧ (rcFull s f = false) ∧ (f.dst % 16384 = obj) ∧ ((objAt s obj).notify = false) ∧ answered (exec (.arrive (.seq q)) s) (fun t => decide (objAt t obj = { objAt s obj with value := w64 v } ∧ (seam t q).pc = (seam s q).pc + i.len ∧ (seam t q).updates = (seam s q).updates + 1 ∧ (seam t q).job = some { j with sent := true } ∧ t = seqUpdate s q 0x09 i)) = true :=
  ⟨workSeq [ins 0x70 4 (5 * 2 ^ 34 + 2), 9], 3, 9, 9, { w := w64 (ins 0x70 4 (5 * 2 ^ 34 + 2)), ext := 9 }, { seq := 4, comp := 5 }, { op := 9, tc := 3, src := 0xF000, dst := objBase + 9, comp := 5, mapE := 0, stream := keyStream 4 31 0, len := 8, data := [5, 0, 0, 0, 0, 0, 0, 0] }, by decide +kernel⟩

theorem test_arrive_seq_remote : ∃ (s : State) (q : Nat) (i : Ins) (j : JobRun), (SeqReady s q 0x70) ∧ (seqIns s q = i) ∧ ((seam s q).job = some j) ∧ ((seam s q).updates < 16777216) ∧ (i.x 28 1 = 1) ∧ (i.x 16 12 ≠ s.swNum) ∧ answered (exec (.arrive (.seq q)) s) (fun t => decide ((seam t q).cwait = .update ∧ (seam t q).pc = (seam s q).pc ∧ (seam t q).updates = (seam s q).updates + 1 ∧ (t.te.outst.map (·.what)) = (s.te.outst.map (·.what)) ++ [.seqUpdate q] ∧ (t.te.out.map (·.f)) = (s.te.out.map (·.f)) ++ [updFrame s 0x09 (i.x 16 12) (i.x 0 14) j.comp (updValue 0x09 i (sGet (seam s q).s (i.f 34 5))) j.seq 31 (seam s q).updates] ∧ t = seqUpdate s q 0x09 i)) = true :=
  ⟨workSeq [ins 0x70 4 (5 * 2 ^ 34 + 2), 9 + 3 * 2 ^ 16 + 2 ^ 28], 3, { w := w64 (ins 0x70 4 (5 * 2 ^ 34 + 2)), ext := w64 (9 + 3 * 2 ^ 16 + 2 ^ 28) }, { seq := 4, comp := 5 }, by decide +kernel⟩

theorem test_arrive_ctl : ∃ (s : State) (cs v obj : Nat) (i : Ins) (f : Frame), (CtlReady s cs 0x70) ∧ (ctlIns s cs = i) ∧ ((ctl s cs).priv = 2) ∧ (i.x 28 1 = 0) ∧ (i.x 0 14 = obj) ∧ (updFrame s 0x09 s.swNum obj (ctl s cs).comp (updValue 0x09 i (sGet (ctl s cs).s (i.f 34 5))) (ctl s cs).seqNo 30 (ctl s cs).updates = f) ∧ (updateValue s obj (ctl s cs).comp false (leAt f.data 0 8) = some v) ∧ (cacheStep s f = .fresh) ∧ (rcFull s f = false) ∧ (f.dst % 16384 = obj) ∧ ((objAt s obj).notify = false) ∧ answered (exec (.arrive (.ctl cs)) s) (fun t => decide (objAt t obj = { objAt s obj with value := w64 v } ∧ ctl t cs = { ctl s cs with pc := (ctl s cs).pc + i.len, updates := (ctl s cs).updates + 1 } ∧ t = ctlUpdate s cs 0x09 i)) = true :=
  ⟨workCtl [ins 0x70 4 (5 * 2 ^ 34 + 2), 9], 2, 9, 9, { w := w64 (ins 0x70 4 (5 * 2 ^ 34 + 2)), ext := 9 }, { op := 9, tc := 3, src := 0xF000, dst := objBase + 9, comp := 5, mapE := 0, stream := keyStream 9 30 0, len := 8, data := [5, 0, 0, 0, 0, 0, 0, 0] }, by decide +kernel⟩

theorem test_signal_seq : ∃ (s : State) (q obj : Nat) (i : Ins) (j : JobRun) (f : Frame), (SeqReady s q 0x72) ∧ (seqIns s q = i) ∧ ((seam s q).job = some j) ∧ ((seam s q).updates < 16777216) ∧ (i.x 28 1 = 0) ∧ (i.x 0 14 = obj) ∧ (updFrame s 0x0A s.swNum obj j.comp (sGet (seam s q).s (i.f 34 5)).toNat j.seq 31 (seam s q).updates = f) ∧ (updateValue s obj j.comp true (leAt f.data 0 8) = some (sGet (seam s q).s (i.f 34 5)).toNat) ∧ (cacheStep s f = .fresh) ∧ (rcFull s f = false) ∧ (f.dst % 16384 = obj) ∧ ((objAt s obj).notify = false) ∧ answered (exec (.signal (.seq q)) s) (fun t => decide (objAt t obj = { objAt s obj with value := sGet (seam s q).s (i.f 34 5) } ∧ (seam t q).pc = (seam s q).pc + i.len ∧ t = seqUpdate s q 0x0A i)) = true :=
  ⟨workSeq [ins 0x72 4 (5 * 2 ^ 34), 9], 3, 9, { w := w64 (ins 0x72 4 (5 * 2 ^ 34)), ext := 9 }, { seq := 4, comp := 5 }, { op := 10, tc := 3, src := 0xF000, dst := objBase + 9, comp := 5, mapE := 0, stream := keyStream 4 31 0, len := 8, data := [3, 0, 0, 0, 0, 0, 0, 0] }, by decide +kernel⟩

theorem test_signal_ctl : ∃ (s : State) (cs obj : Nat) (i : Ins) (f : Frame), (CtlReady s cs 0x72) ∧ (ctlIns s cs = i) ∧ ((ctl s cs).priv = 2) ∧ (i.x 28 1 = 0) ∧ (i.x 0 14 = obj) ∧ (updFrame s 0x0A s.swNum obj (ctl s cs).comp (sGet (ctl s cs).s (i.f 34 5)).toNat (ctl s cs).seqNo 30 (ctl s cs).updates = f) ∧ (updateValue s obj (ctl s cs).comp true (leAt f.data 0 8) = some (sGet (ctl s cs).s (i.f 34 5)).toNat) ∧ (cacheStep s f = .fresh) ∧ (rcFull s f = false) ∧ (f.dst % 16384 = obj) ∧ ((objAt s obj).notify = false) ∧ answered (exec (.signal (.ctl cs)) s) (fun t => decide (objAt t obj = { objAt s obj with value := sGet (ctl s cs).s (i.f 34 5) } ∧ ctl t cs = { ctl s cs with pc := (ctl s cs).pc + i.len, updates := (ctl s cs).updates + 1 } ∧ t = ctlUpdate s cs 0x0A i)) = true :=
  ⟨workCtl [ins 0x72 4 (5 * 2 ^ 34), 9], 2, 9, { w := w64 (ins 0x72 4 (5 * 2 ^ 34)), ext := 9 }, { op := 10, tc := 3, src := 0xF000, dst := objBase + 9, comp := 5, mapE := 0, stream := keyStream 9 30 0, len := 8, data := [3, 0, 0, 0, 0, 0, 0, 0] }, by decide +kernel⟩

theorem test_signal_ctl_remote : ∃ (s : State) (cs : Nat) (i : Ins), (CtlReady s cs 0x72) ∧ (ctlIns s cs = i) ∧ (i.x 28 1 = 1) ∧ (i.x 16 12 ≠ s.swNum) ∧ answered (exec (.signal (.ctl cs)) s) (fun t => decide (ctl t cs = { ctl s cs with wait := .update, updates := (ctl s cs).updates + 1 } ∧ (t.te.outst.map (·.what)) = (s.te.outst.map (·.what)) ++ [.ctlUpdate cs] ∧ t = ctlUpdate s cs 0x0A i)) = true :=
  ⟨workCtl [ins 0x72 4 (5 * 2 ^ 34), 9 + 4095 * 2 ^ 16 + 2 ^ 28], 2, { w := w64 (ins 0x72 4 (5 * 2 ^ 34)), ext := w64 (9 + 4095 * 2 ^ 16 + 2 ^ 28) }, by decide +kernel⟩

theorem test_signal_seq_issues : ∃ (s : State) (q : Nat) (i : Ins), (SeqReady s q 0x72) ∧ (seqIns s q = i) ∧ answered (exec (.signal (.seq q)) s) (fun t => decide (t = seqUpdate s q 0x0A i)) = true :=
  ⟨workSeq [ins 0x72 4 (5 * 2 ^ 34 + 2), 9], 3, { w := w64 (ins 0x72 4 (5 * 2 ^ 34 + 2)), ext := 9 }, by decide +kernel⟩

theorem test_signal_ctl_issues : ∃ (s : State) (cs : Nat) (i : Ins), (CtlReady s cs 0x72) ∧ (ctlIns s cs = i) ∧ answered (exec (.signal (.ctl cs)) s) (fun t => decide (t = ctlUpdate s cs 0x0A i)) = true :=
  ⟨workCtl [ins 0x72 4 (5 * 2 ^ 34 + 2), 8], 2, { w := w64 (ins 0x72 4 (5 * 2 ^ 34 + 2)), ext := 8 }, by decide +kernel⟩

theorem test_arrive_seq_issues : ∃ (s : State) (q : Nat) (i : Ins), (SeqReady s q 0x70) ∧ (seqIns s q = i) ∧ answered (exec (.arrive (.seq q)) s) (fun t => decide (t = seqUpdate s q 0x09 i)) = true :=
  ⟨workSeq [ins 0x70 4 (5 * 2 ^ 34 + 2), 9], 3, { w := w64 (ins 0x70 4 (5 * 2 ^ 34 + 2)), ext := 9 }, by decide +kernel⟩

theorem test_arrive_ctl_issues : ∃ (s : State) (cs : Nat) (i : Ins), (CtlReady s cs 0x70) ∧ (ctlIns s cs = i) ∧ answered (exec (.arrive (.ctl cs)) s) (fun t => decide (t = ctlUpdate s cs 0x09 i)) = true :=
  ⟨workCtl [ins 0x70 4 (5 * 2 ^ 34 + 2), 8], 2, { w := w64 (ins 0x70 4 (5 * 2 ^ 34 + 2)), ext := 8 }, by decide +kernel⟩

theorem test_waitcnt_seq_met : ∃ (s : State) (q obj thr rd dl : Nat) (eq : Bool) (j : JobRun), (SeqReady s q 0x71) ∧ ((seam s q).job = some j) ∧ (countWait s (seqIns s q) (seam s q).s = .count obj thr eq rd dl false) ∧ (countReach s obj (some j.comp) = true) ∧ (countMet s obj thr eq = true) ∧ answered (exec (.waitcnt (.seq q)) s) (fun t => decide (t = setSeam s q { seam s q with p := pPut (seam s q).p (rd % 32) true, pc := (seam s q).pc + 1, cwait := .none })) = true :=
  ⟨workSeq [ins 0x71 0 (97 * 2 ^ 41 + 6 * 2 ^ 34 + 5 * 2 ^ 27)], 3, 9, 3, 1, 0, false, { seq := 4, comp := 5 }, by decide +kernel⟩

theorem test_waitcnt_seq_waits : ∃ (s : State) (q obj thr rd dl : Nat) (eq : Bool) (j : JobRun), (SeqReady s q 0x71) ∧ ((seam s q).job = some j) ∧ (countWait s (seqIns s q) (seam s q).s = .count obj thr eq rd dl false) ∧ (countReach s obj (some j.comp) = true) ∧ (countMet s obj thr eq = false) ∧ answered (exec (.waitcnt (.seq q)) s) (fun t => decide (t = setSeam s q { seam s q with cwait := .count obj thr eq rd dl false })) = true :=
  ⟨workSeq [ins 0x71 0 (97 * 2 ^ 41 + 6 * 2 ^ 34 + 5 * 2 ^ 27 + 1 + 100 * 4)], 3, 9, 3, 1, 100000, true, { seq := 4, comp := 5 }, by decide +kernel⟩

theorem test_waitcnt_seq_refused : ∃ (s : State) (q obj thr rd dl : Nat) (eq : Bool) (j : JobRun), (SeqReady s q 0x71) ∧ ((seam s q).job = some j) ∧ (j.endStatus = none) ∧ (countWait s (seqIns s q) (seam s q).s = .count obj thr eq rd dl false) ∧ (countReach s obj (some j.comp) = false) ∧ answered (exec (.waitcnt (.seq q)) s) (fun t => decide ((seam t q).state = 8 ∧ (seam t q).job.map (·.endStatus) = some (some 3) ∧ t = stopJob s q 3)) = true :=
  ⟨workSeq [ins 0x71 0 (97 * 2 ^ 41 + 5 * 2 ^ 34)], 3, 3, 0, 1, 0, false, { seq := 4, comp := 5 }, by decide +kernel⟩

theorem test_waitcnt_ctl_met : ∃ (s : State) (cs obj thr rd dl : Nat) (eq : Bool), (CtlReady s cs 0x71) ∧ (countWait s (ctlIns s cs) (ctl s cs).s = .count obj thr eq rd dl false) ∧ (countReach s obj (if (ctl s cs).priv = 2 then some (ctl s cs).comp else none) = true) ∧ (countMet s obj thr eq = true) ∧ answered (exec (.waitcnt (.ctl cs)) s) (fun t => decide (t = setCtl s cs { ctl s cs with p := pPut (ctl s cs).p (rd % 32) true, pc := (ctl s cs).pc + 1, wait := .none })) = true :=
  ⟨workCtl [ins 0x71 0 (103 * 2 ^ 41 + 6 * 2 ^ 34 + 5 * 2 ^ 27)], 2, 9, 3, 7, 0, false, by decide +kernel⟩

theorem test_waitcnt_ctl_waits : ∃ (s : State) (cs obj thr rd dl : Nat) (eq : Bool), (CtlReady s cs 0x71) ∧ (countWait s (ctlIns s cs) (ctl s cs).s = .count obj thr eq rd dl false) ∧ (countReach s obj (if (ctl s cs).priv = 2 then some (ctl s cs).comp else none) = true) ∧ (countMet s obj thr eq = false) ∧ answered (exec (.waitcnt (.ctl cs)) s) (fun t => decide (t = setCtl s cs { ctl s cs with wait := .count obj thr eq rd dl false })) = true :=
  ⟨workCtl [ins 0x71 0 (103 * 2 ^ 41 + 6 * 2 ^ 34 + 6 * 2 ^ 27)], 2, 9, 9, 7, 0, false, by decide +kernel⟩

theorem test_waitcnt_ctl_refused : ∃ (s : State) (cs obj thr rd dl : Nat) (eq : Bool), (CtlReady s cs 0x71) ∧ (countWait s (ctlIns s cs) (ctl s cs).s = .count obj thr eq rd dl false) ∧ (countReach s obj (if (ctl s cs).priv = 2 then some (ctl s cs).comp else none) = false) ∧ answered (exec (.waitcnt (.ctl cs)) s) (fun t => decide (t = endProg s cs 3 0)) = true :=
  ⟨workCtl [ins 0x71 0 (103 * 2 ^ 41 + 5 * 2 ^ 34 + 5 * 2 ^ 27)], 2, 3, 3, 7, 0, false, by decide +kernel⟩

theorem test_waitcnt_satisfied_seq : ∃ (s : State) (q obj thr rd dl : Nat) (eq met : Bool), (waitOf s (.seq q) = .count obj thr eq rd dl met) ∧ (met = true ∨ countMet s obj thr eq = true) ∧ answered (exec (.waitcntSatisfied (.seq q)) s) (fun t => decide (t = setSeam s q { seam s q with p := pPut (seam s q).p (rd % 32) true, pc := (seam s q).pc + 1, cwait := .none })) = true :=
  ⟨setSeam (workSeq []) 3 { seam (workSeq []) 3 with cwait := .count 9 4 true 98 0 false }, 3, 9, 4, 98, 0, true, false, by decide +kernel⟩

theorem test_waitcnt_satisfied_ctl : ∃ (s : State) (cs obj thr rd dl : Nat) (eq met : Bool), (waitOf s (.ctl cs) = .count obj thr eq rd dl met) ∧ (met = true ∨ countMet s obj thr eq = true) ∧ answered (exec (.waitcntSatisfied (.ctl cs)) s) (fun t => decide (t = setCtl s cs { ctl s cs with p := pPut (ctl s cs).p (rd % 32) true, pc := (ctl s cs).pc + 1, wait := .none })) = true :=
  ⟨setCtl (workCtl []) 2 { ctl (workCtl []) 2 with wait := .count 9 4 true 98 0 false }, 2, 9, 4, 98, 0, true, false, by decide +kernel⟩

theorem test_waitcnt_timeout_seq : ∃ (s : State) (q obj thr rd dl : Nat) (eq met : Bool), (waitOf s (.seq q) = .count obj thr eq rd dl met) ∧ (dl ≠ 0) ∧ (dl ≤ s.now) ∧ answered (exec (.waitcntTimeout (.seq q)) s) (fun t => decide (t = setSeam s q { seam s q with p := pPut (seam s q).p (rd % 32) (met || countMet s obj thr eq), pc := (seam s q).pc + 1, cwait := .none })) = true :=
  ⟨{ setSeam (workSeq []) 3 { seam (workSeq []) 3 with cwait := .count 9 5 true 98 7 false } with now := 7 }, 3, 9, 5, 98, 7, true, false, by decide +kernel⟩

theorem test_waitcnt_timeout_ctl : ∃ (s : State) (cs obj thr rd dl : Nat) (eq met : Bool), (waitOf s (.ctl cs) = .count obj thr eq rd dl met) ∧ (dl ≠ 0) ∧ (dl ≤ s.now) ∧ answered (exec (.waitcntTimeout (.ctl cs)) s) (fun t => decide (t = setCtl s cs { ctl s cs with p := pPut (ctl s cs).p (rd % 32) (met || countMet s obj thr eq), pc := (ctl s cs).pc + 1, wait := .none })) = true :=
  ⟨{ setCtl (workCtl []) 2 { ctl (workCtl []) 2 with wait := .count 9 4 true 98 7 false } with now := 8 }, 2, 9, 4, 98, 7, true, false, by decide +kernel⟩

theorem test_mma : ∃ (s : State) (q n : Nat), (TileReady s q n 0x30) ∧ answered (exec (.mma q n) s) (fun _ => decide (True)) = true :=
  ⟨work 1 [ins 0x30 0 (32 * 2 ^ 41 + 36 * 2 ^ 34 + 40 * 2 ^ 27 + 5 * 2 ^ 23)], 3, 1, by decide +kernel⟩

theorem test_dot : ∃ (s : State) (q n : Nat), (TileReady s q n 0x31) ∧ answered (exec (.dot q n) s) (fun _ => decide (True)) = true :=
  ⟨work 2 [ins 0x31 0 (32 * 2 ^ 41 + 36 * 2 ^ 34 + 40 * 2 ^ 27)], 3, 1, by decide +kernel⟩

theorem test_scale : ∃ (s : State) (q n : Nat), (TileReady s q n 0x32) ∧ answered (exec (.scale q n) s) (fun _ => decide (True)) = true :=
  ⟨work 2 [ins 0x32 4 (32 * 2 ^ 41 + 36 * 2 ^ 34), 0x3F800000], 3, 1, by decide +kernel⟩

theorem test_quant : ∃ (s : State) (q n : Nat), (TileReady s q n 0x33) ∧ answered (exec (.quant q n) s) (fun _ => decide (True)) = true :=
  ⟨work 7 [ins 0x33 0 (32 * 2 ^ 41 + 36 * 2 ^ 34 + 5 * 2 ^ 23)], 3, 1, by decide +kernel⟩

theorem test_dequant : ∃ (s : State) (q n : Nat), (TileReady s q n 0x34) ∧ answered (exec (.dequant q n) s) (fun _ => decide (True)) = true :=
  ⟨work 6 [ins 0x34 0 (32 * 2 ^ 41 + 36 * 2 ^ 34 + 9 * 2 ^ 23)], 3, 1, by decide +kernel⟩

theorem test_smax_reset : ∃ (s : State) (q n : Nat), (TileReady s q n 0x40) ∧ ((stageIns s q n).f 8 2 = 0) ∧ answered (exec (.smaxReset q n) s) (fun t => decide (tget row0 (stage t q n).rows ((stageIns s q n).f 0 8) = (0xFF800000, 0))) = true :=
  ⟨work 3 [ins 0x40 0 255], 3, 1, by decide +kernel⟩

theorem test_smax_block : ∃ (s : State) (q n : Nat), (TileReady s q n 0x40) ∧ ((stageIns s q n).f 8 2 = 1) ∧ answered (exec (.smaxBlock q n) s) (fun _ => decide (True)) = true :=
  ⟨work 3 [ins 0x40 0 (32 * 2 ^ 41 + 36 * 2 ^ 34 + 2 ^ 8)], 3, 1, by decide +kernel⟩

theorem test_smax_end : ∃ (s : State) (q n : Nat), (TileReady s q n 0x40) ∧ ((stageIns s q n).f 8 2 = 2) ∧ answered (exec (.smaxEnd q n) s) (fun t => decide (tileFld (tGet (stage t q n) ((stageIns s q n).f 41 7)) 0 32 = (rowState (stage s q n) (stageIns s q n)).1 % 2 ^ 32 ∧ tileFld (tGet (stage t q n) ((stageIns s q n).f 41 7)) 32 32 = (rowState (stage s q n) (stageIns s q n)).2 % 2 ^ 32)) = true :=
  ⟨work 3 [ins 0x40 0 (47 * 2 ^ 41 + 2 * 2 ^ 8 + 7)], 3, 1, by decide +kernel⟩

theorem test_exp : ∃ (s : State) (q n : Nat), (TileReady s q n 0x41) ∧ answered (exec (.exp q n) s) (fun _ => decide (True)) = true :=
  ⟨work 3 [ins 0x41 0 (32 * 2 ^ 41 + 36 * 2 ^ 34)], 3, 1, by decide +kernel⟩

theorem test_lsemerge : ∃ (s : State) (q n : Nat), (TileReady s q n 0x42) ∧ answered (exec (.lsemerge q n) s) (fun _ => decide (True)) = true :=
  ⟨work 2 [ins 0x42 0 (32 * 2 ^ 41 + 36 * 2 ^ 34)], 3, 1, by decide +kernel⟩

theorem test_cmp_set : ∃ (s : State) (q n : Nat), (TileReady s q n 0x50) ∧ ((stageIns s q n).f 3 2 = 0) ∧ answered (exec (.cmpSet q n) s) (fun _ => decide (True)) = true :=
  ⟨work 4 [ins 0x50 4 (32 * 2 ^ 41 + 36 * 2 ^ 34), 0], 3, 1, by decide +kernel⟩

theorem test_cmp_and : ∃ (s : State) (q n : Nat), (TileReady s q n 0x50) ∧ ((stageIns s q n).f 3 2 = 1) ∧ answered (exec (.cmpAnd q n) s) (fun _ => decide (True)) = true :=
  ⟨work 4 [ins 0x50 4 (32 * 2 ^ 41 + 36 * 2 ^ 34 + 8), 0], 3, 1, by decide +kernel⟩

theorem test_cmp_or : ∃ (s : State) (q n : Nat), (TileReady s q n 0x50) ∧ ((stageIns s q n).f 3 2 = 2) ∧ answered (exec (.cmpOr q n) s) (fun _ => decide (True)) = true :=
  ⟨work 4 [ins 0x50 4 (32 * 2 ^ 41 + 36 * 2 ^ 34 + 16), 0], 3, 1, by decide +kernel⟩

theorem test_cmp_bound : ∃ (s : State) (q n : Nat), (TileReady s q n 0x50) ∧ ((stageIns s q n).f 3 2 = 3) ∧ answered (exec (.cmpBound q n) s) (fun _ => decide (True)) = true :=
  ⟨work 4 [ins 0x50 4 (32 * 2 ^ 41 + 36 * 2 ^ 34 + 40 * 2 ^ 27 + 24), 0], 3, 1, by decide +kernel⟩

theorem test_select : ∃ (s : State) (q n : Nat), (TileReady s q n 0x52) ∧ answered (exec (.select q n) s) (fun _ => decide (True)) = true :=
  ⟨work 4 [ins 0x52 0 (32 * 2 ^ 41 + 36 * 2 ^ 34 + 40 * 2 ^ 27)], 3, 1, by decide +kernel⟩

theorem test_red_tile : ∃ (s : State) (q n : Nat), (TileReady s q n 0x60) ∧ ((stageIns s q n).f 0 1 = 0) ∧ answered (exec (.redTile q n) s) (fun _ => decide (True)) = true :=
  ⟨work 2 [ins 0x60 0 (32 * 2 ^ 41 + 36 * 2 ^ 34)], 3, 1, by decide +kernel⟩

theorem test_tile_guard_off : ∃ (s : State) (q n : Nat), (stageLive s q n = true) ∧ ((stageIns s q n).opc = 0x30) ∧ (guardOn (stage s q n).p (stageIns s q n) = false) ∧ answered (exec (.mma q n) s) (fun t => decide (t = setStage s q n { stage s q n with pc := (stage s q n).pc + (stageIns s q n).len })) = true :=
  ⟨work 1 [ins 0x30 0 (2 ^ 49)], 3, 1, by decide +kernel⟩

theorem test_tile_waits : ∃ (s : State) (q n : Nat), (StageReady s q n 0x30) ∧ (tileWaits s (stage s q n) = true) ∧ answered (exec (.mma q n) s) (fun t => decide (t = s)) = true :=
  ⟨(fun (x : State) => { x with ph := { x.ph with units := [(unitKey 1 0, { owed := true })] }, sa := { x.sa with units := [(unitKey 1 9, { state := 3 })] } }) (workSt 1 [ins 0x30 0 (32 * 2 ^ 41 + 40 * 2 ^ 34 + 44 * 2 ^ 27 + 5 * 2 ^ 23)] (fun g => { g with hold := some {} })), 3, 1, by decide +kernel⟩

theorem test_stream_slice : ∃ (s : State) (q n a : Nat) (i : Ins) (b : Bytes), (StageReady s q n 0x10) ∧ (stageIns s q n = i) ∧ (i.f 38 1 = 0) ∧ (i.f 34 4 ≠ 0xF) ∧ (aSpace (aGet (stage s q n) (i.f 44 4)) = 0) ∧ (laceShut s q (recLace i) = false) ∧ ((stage s q n).prog.have_ = false) ∧ ((stage s q n).pieces = []) ∧ ((stage s q n).prog.count < recCount s q i) ∧ (recCount s q i < 2 ^ 32) ∧ (wrapInt 56 (aAddr (aGet (stage s q n) (i.f 44 4)) + (stage s q n).prog.count * recStride i : Nat) = a) ∧ (sliceRead (seam s q) a (recLen i) = some b) ∧ (laceRoom (seam s q) (recLace i) = true) ∧ answered (exec (.stream q n) s) (fun t => decide (laceOf (seam t q) (recLace i) = { laceOf (seam s q) (recLace i) with q := (laceOf (seam s q) (recLace i)).q ++ b } ∧ stage t q n = { stage s q n with prog := { (stage s q n).prog with have_ := false, count := (stage s q n).prog.count + 1, addr := a, passed := 0, rec_ := s.te.nextId } } ∧ t = streamStep s q n i)) = true :=
  ⟨workSeam 2 [ins 0x10 2 (2 ^ 39 + 2 ^ 22 + 3 * 2 ^ 17)] (fun x => { x with s := [(3, 7)], mem := [(31, 5)] }), 3, 1, 0, { w := w64 (ins 0x10 2 (2 ^ 39 + 2 ^ 22 + 3 * 2 ^ 17)) }, List.replicate 31 0 ++ [5], by decide +kernel⟩

theorem test_stream_to_slice : ∃ (s : State) (q n a : Nat) (i : Ins), (StageReady s q n 0x10) ∧ (stageIns s q n = i) ∧ (i.f 38 1 = 1) ∧ (aSpace (aGet (stage s q n) (i.f 44 4)) = 0) ∧ ((stage s q n).prog.have_ = false) ∧ ((stage s q n).prog.count < recCount s q i) ∧ (recCount s q i < 2 ^ 32) ∧ (wrapInt 56 (aAddr (aGet (stage s q n) (i.f 44 4)) + (stage s q n).prog.count * recStride i : Nat) = a) ∧ (recLen i ≤ (laceOf (seam s q) (recLace i)).q.length) ∧ (0 < recLen i) ∧ (a + recLen i ≤ sliceBytes (seam s q)) ∧ answered (exec (.stream q n) s) (fun t => decide ((seam t q).mem = memWrite (seam s q).mem a ((laceOf (seam s q) (recLace i)).q.take (recLen i)) ∧ laceOf (seam t q) (recLace i) = { laceOf (seam s q) (recLace i) with q := (laceOf (seam s q) (recLace i)).q.drop (recLen i) } ∧ stage t q n = { stage s q n with prog := { (stage s q n).prog with have_ := false, count := (stage s q n).prog.count + 1, addr := a, passed := 0, took := true, rec_ := s.te.nextId } } ∧ t = streamStep s q n i)) = true :=
  ⟨workSeam 2 [ins 0x10 2 (2 ^ 38 + 2 ^ 22 + 2 * 2 ^ 44)] (fun x => { putStage x 1 { stageOf x 1 with a := [(2, 64)] } with laces := [(0, { q := List.replicate 33 9 })] }), 3, 1, 64, { w := w64 (ins 0x10 2 (2 ^ 38 + 2 ^ 22 + 2 * 2 ^ 44)) }, by decide +kernel⟩

theorem test_stream_memory_read : ∃ (s : State) (q n a fa r k : Nat) (i : Ins) (u : State), (StageReady s q n 0x10) ∧ (stageIns s q n = i) ∧ (i.f 38 1 = 0) ∧ (i.f 34 4 ≠ 0xF) ∧ (aSpace (aGet (stage s q n) (i.f 44 4)) = 1) ∧ (aAddr (aGet (stage s q n) (i.f 44 4)) % 32 = 0) ∧ (laceShut s q (recLace i) = false) ∧ ((stage s q n).prog.have_ = true) ∧ ((stage s q n).prog.addr = a) ∧ ((stage s q n).prog.passed = 0) ∧ (recCount s q i < 2 ^ 32) ∧ (recLen i ≤ 4096 - a % 4096) ∧ (a < 2 ^ 56) ∧ (stageRoom s q n = true) ∧ (translate s (stageAcc s q n a 0) = (u, .ok fa r k)) ∧ (recCount s q i ≠ 0) ∧ (laceRoom (seam s q) (recLace i) = true) ∧ answered (exec (.stream q n) s) (fun t => decide ((t.te.outst.map (·.what)) = (u.te.outst.map (·.what)) ++ [.piece q n u.te.nextId] ∧ (t.te.out.map (fun o => (o.f.op, o.f.dst, o.f.len, o.f.region))) = (u.te.out.map (fun o => (o.f.op, o.f.dst, o.f.len, o.f.region))) ++ [(1, fa / 32 * 32, ceilDiv (a % 32 + recLen i) 32 * 32, r)] ∧ (stage t q n).pieces.map (fun p => (p.id, p.va, p.len, p.st)) = (stage u q n).pieces.map (fun p => (p.id, p.va, p.len, p.st)) ++ [(u.te.nextId, a, recLen i, 2)] ∧ (stage t q n).prog.count = (stage u q n).prog.count + 1 ∧ t.te.nextId = u.te.nextId + 1 ∧ t = streamStep s q n i)) = true :=
  ⟨mapped (workSt 2 [ins 0x10 2 (2 ^ 39 + 2 ^ 22)] fun g => { g with a := [(0, w64 (2 ^ 62 + 2 ^ 17))], prog := { have_ := true, addr := 2 ^ 17 } }), 3, 1, 131072, 131072, 1, 0, { w := w64 (ins 0x10 2 (2 ^ 39 + 2 ^ 22)) }, mapped (workSt 2 [ins 0x10 2 (2 ^ 39 + 2 ^ 22)] fun g => { g with a := [(0, w64 (2 ^ 62 + 2 ^ 17))], prog := { have_ := true, addr := 2 ^ 17 } }), by decide +kernel⟩

theorem test_stream_ends : ∃ (s : State) (q n : Nat) (i : Ins), (StageReady s q n 0x10) ∧ (stageIns s q n = i) ∧ (i.f 38 1 = 0) ∧ (aSpace (aGet (stage s q n) (i.f 44 4)) = 0) ∧ (laceShut s q (recLace i) = false) ∧ ((stage s q n).prog.have_ = false) ∧ (recCount s q i ≤ (stage s q n).prog.count) ∧ (recCount s q i < 2 ^ 32) ∧ answered (exec (.stream q n) s) (fun t => decide (t = setStage s q n { stageNext (stage s q n) with prog := {} })) = true :=
  ⟨work 2 [ins 0x10 2 (2 ^ 39 + 2 ^ 22 + 3 * 2 ^ 17)], 3, 1, { w := w64 (ins 0x10 2 (2 ^ 39 + 2 ^ 22 + 3 * 2 ^ 17)) }, by decide +kernel⟩

theorem test_stream_empty : ∃ (s : State) (q n : Nat) (i : Ins), (StageReady s q n 0x10) ∧ (stageIns s q n = i) ∧ (recCount s q i = 0) ∧ (i.f 38 1 = 1) ∧ answered (exec (.stream q n) s) (fun t => decide (t = setStage s q n { stageNext (stage s q n) with prog := {}, p := pPut (stage s q n).p 6 true })) = true :=
  ⟨work 2 [ins 0x10 2 (2 ^ 38 + 2 ^ 39 + 2 ^ 22 + 3 * 2 ^ 17)], 3, 1, { w := w64 (ins 0x10 2 (2 ^ 38 + 2 ^ 39 + 2 ^ 22 + 3 * 2 ^ 17)) }, by decide +kernel⟩

theorem test_stream_presented : ∃ (s : State) (q n : Nat) (i : Ins), (StageReady s q n 0x10) ∧ (stageIns s q n = i) ∧ answered (exec (.stream q n) s) (fun t => decide (t = streamStep s q n i)) = true :=
  ⟨work 2 [ins 0x10 2 (2 ^ 39 + 2 ^ 22)], 3, 1, { w := w64 (ins 0x10 2 (2 ^ 39 + 2 ^ 22)) }, by decide +kernel⟩

theorem test_gather : ∃ (s : State) (q n a : Nat) (i : Ins) (b : Bytes), (StageReady s q n 0x11) ∧ (stageIns s q n = i) ∧ (i.f 38 1 = 0) ∧ (i.f 34 4 ≠ 0xF) ∧ (aSpace (aGet (stage s q n) (i.f 44 4)) = 0) ∧ (laceShut s q (recLace i) = false) ∧ (firstLace (stage s q n).inL ≠ recLace i) ∧ ((stage s q n).prog.have_ = false) ∧ ((stage s q n).pieces = []) ∧ ((stage s q n).prog.count < recCount s q i) ∧ (recCount s q i < 2 ^ 32) ∧ (4 ≤ (laceOf (seam s q) (firstLace (stage s q n).inL)).q.length) ∧ (0 ≤ signed 32 (leAt (laceOf (seam s q) (firstLace (stage s q n).inL)).q 0 4)) ∧ (wrapInt 56 ((aAddr (aGet (stage s q n) (i.f 44 4)) : Int) + signed 32 (leAt (laceOf (seam s q) (firstLace (stage s q n).inL)).q 0 4) * recStride i) = a) ∧ (sliceRead (seam s q) a (recLen i) = some b) ∧ (laceRoom (seam s q) (recLace i) = true) ∧ answered (exec (.gather q n) s) (fun t => decide ((laceOf (seam t q) (recLace i)).q = (laceOf (seam s q) (recLace i)).q ++ b ∧ (laceOf (seam t q) (firstLace (stage s q n).inL)).q = (laceOf (seam s q) (firstLace (stage s q n).inL)).q.drop 4 ∧ (stage t q n).prog.count = (stage s q n).prog.count + 1 ∧ (stage t q n).prog.took = true ∧ (stage t q n).pc = (stage s q n).pc ∧ t = streamStep s q n i)) = true :=
  ⟨workSeam 5 [ins 0x11 2 (2 ^ 39 + 2 ^ 22)] (fun x => { x with laces := [(0, { q := [2, 0, 0, 0, 9] }), (1, { beat := 32, depth := 32 })], mem := [(64, 5)] }), 3, 1, 64, { w := w64 (ins 0x11 2 (2 ^ 39 + 2 ^ 22)) }, [5] ++ List.replicate 31 0, by decide +kernel⟩

theorem test_gather_ends : ∃ (s : State) (q n : Nat) (i : Ins), (StageReady s q n 0x11) ∧ (stageIns s q n = i) ∧ (i.f 38 1 = 0) ∧ (aSpace (aGet (stage s q n) (i.f 44 4)) = 0) ∧ (laceShut s q (recLace i) = false) ∧ ((stage s q n).prog.have_ = false) ∧ ((stage s q n).prog.count < recCount s q i) ∧ (recCount s q i < 2 ^ 32) ∧ ((laceOf (seam s q) (firstLace (stage s q n).inL)).q = []) ∧ ((laceOf (seam s q) (firstLace (stage s q n).inL)).closed = true) ∧ answered (exec (.gather q n) s) (fun t => decide (t = setStage s q n { stageNext (stage s q n) with prog := {}, p := pPut (stage s q n).p 6 (stage s q n).prog.took })) = true :=
  ⟨workSeam 5 [ins 0x11 2 (2 ^ 39 + 2 ^ 22)] (fun x => { x with laces := [(0, { closed := true })] }), 3, 1, { w := w64 (ins 0x11 2 (2 ^ 39 + 2 ^ 22)) }, by decide +kernel⟩

theorem test_gather_presented : ∃ (s : State) (q n : Nat) (i : Ins), (StageReady s q n 0x11) ∧ (stageIns s q n = i) ∧ answered (exec (.gather q n) s) (fun t => decide (t = streamStep s q n i)) = true :=
  ⟨work 5 [ins 0x11 2 (2 ^ 39 + 2 ^ 22)], 3, 1, { w := w64 (ins 0x11 2 (2 ^ 39 + 2 ^ 22)) }, by decide +kernel⟩

theorem test_scatter : ∃ (s : State) (q n l a : Nat) (i : Ins), (StageReady s q n 0x12) ∧ (stageIns s q n = i) ∧ (i.f 38 1 = 1) ∧ (aSpace (aGet (stage s q n) (i.f 44 4)) = 0) ∧ (indexLace (stage s q n) i = l) ∧ (l ≠ recLace i) ∧ ((stage s q n).prog.have_ = false) ∧ ((stage s q n).prog.count < recCount s q i) ∧ (recCount s q i < 2 ^ 32) ∧ (4 ≤ (laceOf (seam s q) l).q.length) ∧ (0 ≤ signed 32 (leAt (laceOf (seam s q) l).q 0 4)) ∧ (wrapInt 56 ((aAddr (aGet (stage s q n) (i.f 44 4)) : Int) + signed 32 (leAt (laceOf (seam s q) l).q 0 4) * recStride i) = a) ∧ (recLen i ≤ (laceOf (seam s q) (recLace i)).q.length) ∧ (0 < recLen i) ∧ (a + recLen i ≤ sliceBytes (seam s q)) ∧ answered (exec (.scatter q n) s) (fun t => decide ((seam t q).mem = memWrite (seam s q).mem a ((laceOf (seam s q) (recLace i)).q.take (recLen i)) ∧ (laceOf (seam t q) (recLace i)).q = (laceOf (seam s q) (recLace i)).q.drop (recLen i) ∧ (laceOf (seam t q) l).q = (laceOf (seam s q) l).q.drop 4 ∧ (stage t q n).prog.count = (stage s q n).prog.count + 1 ∧ t = streamStep s q n i)) = true :=
  ⟨workSeam 5 [ins 0x12 2 (2 ^ 38 + 2 ^ 39 + 2 ^ 22)] (fun x => { putStage x 1 { stageOf x 1 with inL := 3 } with laces := [(0, { q := [3, 0, 0, 0] }), (1, { q := List.replicate 32 8 })] }), 3, 1, 0, 96, { w := w64 (ins 0x12 2 (2 ^ 38 + 2 ^ 39 + 2 ^ 22)) }, by decide +kernel⟩

theorem test_scatter_presented : ∃ (s : State) (q n : Nat) (i : Ins), (StageReady s q n 0x12) ∧ (stageIns s q n = i) ∧ answered (exec (.scatter q n) s) (fun t => decide (t = streamStep s q n i)) = true :=
  ⟨work 5 [ins 0x12 2 (2 ^ 38 + 2 ^ 39 + 2 ^ 22)], 3, 1, { w := w64 (ins 0x12 2 (2 ^ 38 + 2 ^ 39 + 2 ^ 22)) }, by decide +kernel⟩

theorem test_emit_put : ∃ (s : State) (q n : Nat) (i : Ins), (StageReady s q n 0x13) ∧ (stageIns s q n = i) ∧ (i.f 0 3 = 0) ∧ (laceShut s q (i.f 3 5) = false) ∧ (i.x 0 4 = i.f 23 4) ∧ (laceRoom (seam s q) (i.f 3 5) = true) ∧ answered (exec (.emitPut q n) s) (fun _ => decide (True)) = true :=
  ⟨work 2 [ins 0x13 4 (32 * 2 ^ 34 + 2 ^ 3)], 3, 1, { w := w64 (ins 0x13 4 (32 * 2 ^ 34 + 2 ^ 3)) }, by decide +kernel⟩

theorem test_emit_put_rounds : ∃ (s : State) (q n : Nat) (i : Ins), (StageReady s q n 0x13) ∧ (stageIns s q n = i) ∧ (i.f 0 3 = 0) ∧ (laceShut s q (i.f 3 5) = false) ∧ (laceRoom (seam s q) (i.f 3 5) = true) ∧ answered (exec (.emitPut q n) s) (fun _ => decide (True)) = true :=
  ⟨work 2 [ins 0x13 4 (32 * 2 ^ 34 + 2 ^ 3), 1], 3, 1, { w := w64 (ins 0x13 4 (32 * 2 ^ 34 + 2 ^ 3)), ext := 1 }, by decide +kernel⟩

theorem test_emit_put_stops : ∃ (s : State) (q n : Nat) (i : Ins), (StageReady s q n 0x13) ∧ (stageIns s q n = i) ∧ (i.f 0 3 = 0) ∧ (laceShut s q (i.f 3 5) = true) ∧ answered (exec (.emitPut q n) s) (fun t => decide (t = stopJob s q 3)) = true :=
  ⟨workSeam 2 [ins 0x13 4 (32 * 2 ^ 34)] (fun x => { x with laces := [(0, { closed := true })] }), 3, 1, { w := w64 (ins 0x13 4 (32 * 2 ^ 34)) }, by decide +kernel⟩

theorem test_emit_take : ∃ (s : State) (q n : Nat) (i : Ins), (StageReady s q n 0x13) ∧ (stageIns s q n = i) ∧ (i.f 0 3 = 1) ∧ (i.f 8 4 = 0) ∧ (laceSize (i.f 23 4) ≤ (laceOf (seam s q) (i.f 3 5)).q.length) ∧ answered (exec (.emitTake q n) s) (fun _ => decide (True)) = true :=
  ⟨workSeam 2 [ins 0x13 4 (33 * 2 ^ 41 + 1)] (fun x => { x with laces := [(0, { q := List.replicate 1024 3 })] }), 3, 1, { w := w64 (ins 0x13 4 (33 * 2 ^ 41 + 1)) }, by decide +kernel⟩

theorem test_emit_take_tiles : ∃ (s : State) (q n : Nat) (i : Ins) (b : Bytes), (StageReady s q n 0x13) ∧ (stageIns s q n = i) ∧ (i.f 0 3 = 1) ∧ ((laceOf (seam s q) (i.f 3 5)).q.take ((i.f 8 4 + 1) * laceSize (i.f 23 4)) = b) ∧ (b ≠ []) ∧ ((i.f 8 4 + 1) * laceSize (i.f 23 4) ≤ (laceOf (seam s q) (i.f 3 5)).q.length ∨ (laceOf (seam s q) (i.f 3 5)).closed = true) ∧ answered (exec (.emitTake q n) s) (fun _ => decide (True)) = true :=
  ⟨workSeam 2 [ins 0x13 4 (33 * 2 ^ 41 + 2 ^ 8 + 1)] (fun x => { x with laces := [(0, { q := [3], closed := true })] }), 3, 1, { w := w64 (ins 0x13 4 (33 * 2 ^ 41 + 2 ^ 8 + 1)) }, [3], by decide +kernel⟩

theorem test_emit_take_ended : ∃ (s : State) (q n : Nat) (i : Ins), (StageReady s q n 0x13) ∧ (stageIns s q n = i) ∧ (i.f 0 3 = 1) ∧ ((laceOf (seam s q) (i.f 3 5)).q = []) ∧ ((laceOf (seam s q) (i.f 3 5)).closed = true) ∧ answered (exec (.emitTake q n) s) (fun t => decide (stage t q n = { stageNext (stage s q n) with p := pPut (stage s q n).p 6 false } ∧ t = setStage (setSeam s q (laceDrop (seam s q) (i.f 3 5) ((i.f 8 4 + 1) * laceSize (i.f 23 4)))) q n (setP6 (stageNext (stage s q n)) false))) = true :=
  ⟨workSeam 2 [ins 0x13 4 (33 * 2 ^ 41 + 1)] (fun x => { x with laces := [(0, { closed := true })] }), 3, 1, { w := w64 (ins 0x13 4 (33 * 2 ^ 41 + 1)) }, by decide +kernel⟩

theorem test_emit_seta : ∃ (s : State) (q n : Nat) (i : Ins), (StageReady s q n 0x13) ∧ (stageIns s q n = i) ∧ (i.f 0 3 = 2) ∧ answered (exec (.emitSeta q n) s) (fun t => decide (aGet (stage t q n) (i.f 41 7) = w64 (place 0 56 (fld (regVal s q (stage s q n) (i.f 34 7)) 0 56 + i.x 0 56) + place 62 2 (i.f 18 2)) ∧ { stage t q n with a := (stage s q n).a } = stageNext (stage s q n) ∧ t = setStage s q n (stageNext (aPut (stage s q n) (i.f 41 7) (w64 (place 0 56 (fld (regVal s q (stage s q n) (i.f 34 7)) 0 56 + i.x 0 56) + place 62 2 (i.f 18 2))))))) = true :=
  ⟨workSt 2 [ins 0x13 4 (79 * 2 ^ 41 + 64 * 2 ^ 34 + 2 ^ 18 + 2), 2 ^ 56 - 1] (fun g => { g with a := [(0, 1)] }), 3, 1, { w := w64 (ins 0x13 4 (79 * 2 ^ 41 + 64 * 2 ^ 34 + 2 ^ 18 + 2)), ext := w64 (2 ^ 56 - 1) }, by decide +kernel⟩

theorem test_emit_lda_slice : ∃ (s : State) (q n a : Nat) (i : Ins) (b : Bytes), (StageReady s q n 0x13) ∧ (stageIns s q n = i) ∧ (i.f 0 3 = 3) ∧ (aSpace (aGet (stage s q n) (i.f 34 7)) = 0) ∧ ((aAddr (aGet (stage s q n) (i.f 34 7)) + i.x 0 32) % 2 ^ 56 = a) ∧ (a % 8 = 0) ∧ (sliceRead (seam s q) a 8 = some b) ∧ answered (exec (.emitLda q n) s) (fun t => decide (aGet (stage t q n) (i.f 41 7) = w64 (place 0 56 (leAt b 0 8) + place 62 2 (i.f 18 2)) ∧ { stage t q n with a := (stage s q n).a } = stageNext { stage s q n with prog := {} } ∧ t = ldaPut s q n i b)) = true :=
  ⟨workSeam 2 [ins 0x13 4 (79 * 2 ^ 41 + 64 * 2 ^ 34 + 2 ^ 18 + 3), 8] (fun x => { x with mem := [(9, 7)] }), 3, 1, 8, { w := w64 (ins 0x13 4 (79 * 2 ^ 41 + 64 * 2 ^ 34 + 2 ^ 18 + 3)), ext := 8 }, [0, 7, 0, 0, 0, 0, 0, 0], by decide +kernel⟩

theorem test_emit_lda_memory : ∃ (s : State) (q n a fa r k : Nat) (i : Ins) (u : State), (StageReady s q n 0x13) ∧ (stageIns s q n = i) ∧ (i.f 0 3 = 3) ∧ (aSpace (aGet (stage s q n) (i.f 34 7)) = 1) ∧ ((aAddr (aGet (stage s q n) (i.f 34 7)) + i.x 0 32) % 2 ^ 56 = a) ∧ (a % 8 = 0) ∧ ((stage s q n).prog.active = false) ∧ (stageRoom s q n = true) ∧ (translate s (stageAcc s q n a 0) = (u, .ok fa r k)) ∧ answered (exec (.emitLda q n) s) (fun t => decide ((t.te.outst.map (·.what)) = (u.te.outst.map (·.what)) ++ [.piece q n u.te.nextId] ∧ (t.te.out.map (fun o => (o.f.op, o.f.dst, o.f.region))) = (u.te.out.map (fun o => (o.f.op, o.f.dst, o.f.region))) ++ [(1, fa / 32 * 32, r)] ∧ (stage t q n).pc = (stage u q n).pc ∧ (stage t q n).prog.active = true ∧ t.te.nextId = u.te.nextId + 1 ∧ t = issueNew (setStage u q n { stage u q n with pieces := (stage u q n).pieces ++ [{ id := u.te.nextId, va := a, len := 8, st := 2, lace := 32 }], prog := { (stage u q n).prog with active := true } }) (pieceReq u q { id := u.te.nextId, va := a, len := 8, st := 2, lace := 32 } fa r k) (.piece q n u.te.nextId))) = true :=
  ⟨mapped (workSt 2 [ins 0x13 4 (79 * 2 ^ 41 + 64 * 2 ^ 34 + 3), 8] fun g => { g with a := [(0, w64 (2 ^ 62 + 2 ^ 17))] }), 3, 1, 131080, 131080, 1, 0, { w := w64 (ins 0x13 4 (79 * 2 ^ 41 + 64 * 2 ^ 34 + 3)), ext := 8 }, mapped (workSt 2 [ins 0x13 4 (79 * 2 ^ 41 + 64 * 2 ^ 34 + 3), 8] fun g => { g with a := [(0, w64 (2 ^ 62 + 2 ^ 17))] }), by decide +kernel⟩

theorem test_emit_lda_arrives : ∃ (s : State) (q n : Nat) (i : Ins) (p : Piece), (StageReady s q n 0x13) ∧ (stageIns s q n = i) ∧ (i.f 0 3 = 3) ∧ (aSpace (aGet (stage s q n) (i.f 34 7)) = 1) ∧ ((aAddr (aGet (stage s q n) (i.f 34 7)) + i.x 0 32) % 8 = 0) ∧ ((stage s q n).prog.active = true) ∧ ((stage s q n).pieces.find? (fun p => decide (p.lace = 32) && decide (p.st = 3)) = some p) ∧ answered (exec (.emitLda q n) s) (fun t => decide (aGet (stage t q n) (i.f 41 7) = w64 (place 0 56 (leAt p.data 0 8) + place 62 2 (i.f 18 2)) ∧ (stage t q n).pc = (stageNext (stage s q n)).pc ∧ t = ldaPut (setStage s q n { stage s q n with pieces := (stage s q n).pieces.filter fun p => decide (p.lace ≠ 32) }) q n i p.data)) = true :=
  ⟨workSt 2 [ins 0x13 4 (79 * 2 ^ 41 + 64 * 2 ^ 34 + 3), 8] (fun g => { g with a := [(0, w64 (2 ^ 62 + 2 ^ 17))], prog := { active := true }, pieces := [{ lace := 32, st := 3, data := [7] }] }), 3, 1, { w := w64 (ins 0x13 4 (79 * 2 ^ 41 + 64 * 2 ^ 34 + 3)), ext := 8 }, { lace := 32, st := 3, data := [7] }, by decide +kernel⟩

theorem test_emit_ldt : ∃ (s : State) (q n a : Nat) (i : Ins) (b : Bytes), (StageReady s q n 0x13) ∧ (stageIns s q n = i) ∧ (i.f 0 3 = 4) ∧ (i.f 8 4 = 0) ∧ (i.f 14 1 = 0) ∧ (aSpace (aGet (stage s q n) (i.f 34 7)) = 0) ∧ ((aAddr (aGet (stage s q n) (i.f 34 7)) + i.x 0 32) % 2 ^ 56 = a) ∧ (a % 64 = 0) ∧ (sliceRead (seam s q) a 1024 = some b) ∧ answered (exec (.emitLdt q n) s) (fun _ => decide (True)) = true :=
  ⟨work 2 [ins 0x13 4 (33 * 2 ^ 41 + 64 * 2 ^ 34 + 4), 64], 3, 1, 64, { w := w64 (ins 0x13 4 (33 * 2 ^ 41 + 64 * 2 ^ 34 + 4)), ext := 64 }, List.replicate 1024 0, by decide +kernel⟩

theorem test_emit_ldt_tiles : ∃ (s : State) (q n a : Nat) (i : Ins) (b : Bytes), (StageReady s q n 0x13) ∧ (stageIns s q n = i) ∧ (i.f 0 3 = 4) ∧ (aSpace (aGet (stage s q n) (i.f 34 7)) = 0) ∧ ((aAddr (aGet (stage s q n) (i.f 34 7)) + i.x 0 32) % 2 ^ 56 = a) ∧ (a % 64 = 0) ∧ (sliceRead (seam s q) a ((i.f 8 4 + 1) * slotSize i) = some b) ∧ answered (exec (.emitLdt q n) s) (fun _ => decide (True)) = true :=
  ⟨work 2 [ins 0x13 4 (33 * 2 ^ 41 + 64 * 2 ^ 34 + 2 ^ 14 + 4), 64], 3, 1, 64, { w := w64 (ins 0x13 4 (33 * 2 ^ 41 + 64 * 2 ^ 34 + 2 ^ 14 + 4)), ext := 64 }, List.replicate 1088 0, by decide +kernel⟩

theorem test_emit_stt : ∃ (s : State) (q n a : Nat) (i : Ins), (StageReady s q n 0x13) ∧ (stageIns s q n = i) ∧ (i.f 0 3 = 5) ∧ (i.f 8 4 = 0) ∧ (i.f 14 1 = 0) ∧ (aSpace (aGet (stage s q n) (i.f 27 7)) = 0) ∧ ((aAddr (aGet (stage s q n) (i.f 27 7)) + i.x 0 32) % 2 ^ 56 = a) ∧ (a % 64 = 0) ∧ (a + 1024 ≤ sliceBytes (seam s q)) ∧ answered (exec (.emitStt q n) s) (fun _ => decide (True)) = true :=
  ⟨work 2 [ins 0x13 4 (33 * 2 ^ 34 + 64 * 2 ^ 27 + 5), 64], 3, 1, 64, { w := w64 (ins 0x13 4 (33 * 2 ^ 34 + 64 * 2 ^ 27 + 5)), ext := 64 }, by decide +kernel⟩

theorem test_emit_stt_tiles : ∃ (s : State) (q n a : Nat) (i : Ins), (StageReady s q n 0x13) ∧ (stageIns s q n = i) ∧ (i.f 0 3 = 5) ∧ (aSpace (aGet (stage s q n) (i.f 27 7)) = 0) ∧ ((aAddr (aGet (stage s q n) (i.f 27 7)) + i.x 0 32) % 2 ^ 56 = a) ∧ (a % 64 = 0) ∧ (a + (sttBytes (stage s q n) i).length ≤ sliceBytes (seam s q)) ∧ answered (exec (.emitStt q n) s) (fun _ => decide (True)) = true :=
  ⟨work 2 [ins 0x13 4 (33 * 2 ^ 34 + 64 * 2 ^ 27 + 2 ^ 14 + 5), 64], 3, 1, 64, { w := w64 (ins 0x13 4 (33 * 2 ^ 34 + 64 * 2 ^ 27 + 2 ^ 14 + 5)), ext := 64 }, by decide +kernel⟩

theorem test_emit_setp : ∃ (s : State) (q n : Nat) (i : Ins), (StageReady s q n 0x13) ∧ (stageIns s q n = i) ∧ (i.f 0 3 = 6) ∧ answered (exec (.emitSetp q n) s) (fun t => decide (stage t q n = { stageNext (stage s q n) with p := pPut (stage s q n).p (i.f 41 7 % 32) (relHolds (i.f 15 3) (((regVal s q (stage s q n) (i.f 34 7)).toNat : Int) - (i.ext.toNat : Int))) } ∧ t = setStage s q n (stage t q n))) = true :=
  ⟨work 2 [ins 0x13 4 (103 * 2 ^ 41 + 2 * 2 ^ 15 + 6), 2 ^ 63], 3, 1, { w := w64 (ins 0x13 4 (103 * 2 ^ 41 + 2 * 2 ^ 15 + 6)), ext := w64 (2 ^ 63) }, by decide +kernel⟩

theorem test_redw : ∃ (s : State) (q n va fa r k : Nat) (i : Ins) (b : Bytes) (u : State), (StageReady s q n 0x61) ∧ (stageIns s q n = i) ∧ (aSpace (aGet (stage s q n) (i.f 34 7)) = 1) ∧ (i.f 5 1 = 0) ∧ (i.x 0 9 ≤ (laceOf (seam s q) (i.f 0 5)).q.length) ∧ (0 < i.x 0 9) ∧ ((laceOf (seam s q) (i.f 0 5)).q.take (i.x 0 9) = b) ∧ ((stage s q n).updates < 16777216) ∧ (stageRoom s q n = true) ∧ (wrapInt 56 ((aAddr (aGet (stage s q n) (i.f 34 7)) : Int) + ((stage s q n).prog.count * 256 : Nat)) = va) ∧ (translate s (stageAcc s q n va 2) = (u, .ok fa r k)) ∧ answered (exec (.redw q n) s) (fun t => decide ((t.te.outst.map (·.what)) = (u.te.outst.map (·.what)) ++ [.stageUpdate q n] ∧ (t.te.out.map (fun o => (o.f.op, o.f.dst, o.f.region, o.f.data, o.f.tag))) = (u.te.out.map (fun o => (o.f.op, o.f.dst, o.f.region, o.f.data, o.f.tag))) ++ [(5, fa, r, b, (stage s q n).updates % 65536)] ∧ (stage t q n).updates = (stage s q n).updates + 1 ∧ (stage t q n).prog.count = (stage s q n).prog.count + 1 ∧ (laceOf (seam t q) (i.f 0 5)).q = (laceOf (seam s q) (i.f 0 5)).q.drop (i.x 0 9) ∧ t = redwSend s q n i b)) = true :=
  ⟨mapped (workSt 5 [ins 0x61 4 (64 * 2 ^ 34), 1] fun g => { g with a := [(0, w64 (2 ^ 62 + 2 ^ 17))] }), 3, 1, 131072, 131072, 1, 0, { w := w64 (ins 0x61 4 (64 * 2 ^ 34)), ext := 1 }, [7], mapped (workSt 5 [ins 0x61 4 (64 * 2 ^ 34), 1] fun g => { g with a := [(0, w64 (2 ^ 62 + 2 ^ 17))] }), by decide +kernel⟩

theorem test_redw_ends : ∃ (s : State) (q n : Nat) (i : Ins), (StageReady s q n 0x61) ∧ (stageIns s q n = i) ∧ (aSpace (aGet (stage s q n) (i.f 34 7)) = 1) ∧ ((laceOf (seam s q) (i.f 0 5)).q = []) ∧ ((laceOf (seam s q) (i.f 0 5)).closed = true) ∧ answered (exec (.redw q n) s) (fun t => decide (stage t q n = { stageNext (stage s q n) with prog := {}, p := pPut (stage s q n).p 6 (stage s q n).prog.took } ∧ t = setStage (setSeam s q (laceDrop (seam s q) (i.f 0 5) (i.x 0 9 + 32 * i.f 5 1))) q n (stage t q n))) = true :=
  ⟨workSeam 5 [ins 0x61 4 (64 * 2 ^ 34), 1] (fun x => { putStage x 1 { stageOf x 1 with a := [(0, w64 (2 ^ 62))] } with laces := [(0, { closed := true })] }), 3, 1, { w := w64 (ins 0x61 4 (64 * 2 ^ 34)), ext := 1 }, by decide +kernel⟩

theorem test_redw_presented : ∃ (s : State) (q n : Nat) (i : Ins), (StageReady s q n 0x61) ∧ (stageIns s q n = i) ∧ (aSpace (aGet (stage s q n) (i.f 34 7)) = 1) ∧ answered (exec (.redw q n) s) (fun t => decide (t = lineStep s q n i (i.x 0 9) fun b _ => redwSend s q n i b)) = true :=
  ⟨workSt 5 [ins 0x61 4 (64 * 2 ^ 34 + 2 ^ 5), 1] (fun g => { g with a := [(0, w64 (2 ^ 62 + 2 ^ 17))] }), 3, 1, { w := w64 (ins 0x61 4 (64 * 2 ^ 34 + 2 ^ 5)), ext := 1 }, by decide +kernel⟩

theorem test_redw_stops : ∃ (s : State) (q n : Nat) (i : Ins), (StageReady s q n 0x61) ∧ (stageIns s q n = i) ∧ (aSpace (aGet (stage s q n) (i.f 34 7)) ≠ 1) ∧ answered (exec (.redw q n) s) (fun t => decide (t = stopJob s q 3)) = true :=
  ⟨work 5 [ins 0x61 4 (64 * 2 ^ 34), 1], 3, 1, { w := w64 (ins 0x61 4 (64 * 2 ^ 34)), ext := 1 }, by decide +kernel⟩

theorem test_mcast : ∃ (s : State) (q n va fa r k : Nat) (i : Ins) (b : Bytes) (u : State), (StageReady s q n 0x62) ∧ (stageIns s q n = i) ∧ (aSpace (aGet (stage s q n) (i.f 34 7)) = 1) ∧ ((group s (i.x 0 14)).status.enabled = true) ∧ ((group s (i.x 0 14)).comp = (jobOf s q).comp) ∧ (i.f 5 1 = 0) ∧ (i.x 16 13 ≤ (laceOf (seam s q) (i.f 0 5)).q.length) ∧ (0 < i.x 16 13) ∧ ((laceOf (seam s q) (i.f 0 5)).q.take (i.x 16 13) = b) ∧ (stageRoom s q n = true) ∧ (wrapInt 56 ((aAddr (aGet (stage s q n) (i.f 34 7)) : Int) + ((stage s q n).prog.count * i.x 16 13 : Nat)) = va) ∧ (translate s (stageAcc s q n va 1) = (u, .ok fa r k)) ∧ (wireAddr s q n = none) ∧ answered (exec (.mcast q n) s) (fun t => decide ((t.te.outst.map (·.what)) = (u.te.outst.map (·.what)) ++ [.piece q n u.te.nextId] ∧ (t.te.out.map (fun o => (o.f.op, o.f.dst, o.f.group, o.f.data))) = (u.te.out.map (fun o => (o.f.op, o.f.dst, o.f.group, o.f.data))) ++ [(6, s.swNum * 2 ^ 48 + faOff fa, i.x 0 14, b)] ∧ (stage t q n).prog.count = (stage s q n).prog.count + 1 ∧ (laceOf (seam t q) (i.f 0 5)).q = (laceOf (seam s q) (i.f 0 5)).q.drop (i.x 16 13) ∧ t = mcastSend s q n i b)) = true :=
  ⟨grouped (mapped (workSt 5 [ins 0x62 4 (64 * 2 ^ 34), 9 + 2 ^ 16] fun g => { g with a := [(0, w64 (2 ^ 62 + 2 ^ 17))] })), 3, 1, 131072, 131072, 1, 0, { w := w64 (ins 0x62 4 (64 * 2 ^ 34)), ext := 9 + 2 ^ 16 }, [7], grouped (mapped (workSt 5 [ins 0x62 4 (64 * 2 ^ 34), 9 + 2 ^ 16] fun g => { g with a := [(0, w64 (2 ^ 62 + 2 ^ 17))] })), by decide +kernel⟩

theorem test_mcast_ends : ∃ (s : State) (q n : Nat) (i : Ins), (StageReady s q n 0x62) ∧ (stageIns s q n = i) ∧ (aSpace (aGet (stage s q n) (i.f 34 7)) = 1) ∧ ((group s (i.x 0 14)).status.enabled = true) ∧ ((group s (i.x 0 14)).comp = (jobOf s q).comp) ∧ ((laceOf (seam s q) (i.f 0 5)).q = []) ∧ ((laceOf (seam s q) (i.f 0 5)).closed = true) ∧ answered (exec (.mcast q n) s) (fun t => decide (stage t q n = { stageNext (stage s q n) with prog := {}, p := pPut (stage s q n).p 6 (stage s q n).prog.took } ∧ t = setStage (setSeam s q (laceDrop (seam s q) (i.f 0 5) (i.x 16 13 + 32 * i.f 5 1))) q n (stage t q n))) = true :=
  ⟨grouped (workSeam 5 [ins 0x62 4 (64 * 2 ^ 34), 9] (fun x => { putStage x 1 { stageOf x 1 with a := [(0, w64 (2 ^ 62))] } with laces := [(0, { closed := true })] })), 3, 1, { w := w64 (ins 0x62 4 (64 * 2 ^ 34)), ext := 9 }, by decide +kernel⟩

theorem test_mcast_presented : ∃ (s : State) (q n : Nat) (i : Ins), (StageReady s q n 0x62) ∧ (stageIns s q n = i) ∧ (aSpace (aGet (stage s q n) (i.f 34 7)) = 1) ∧ ((group s (i.x 0 14)).status.enabled = true) ∧ ((group s (i.x 0 14)).comp = (jobOf s q).comp) ∧ answered (exec (.mcast q n) s) (fun t => decide (t = lineStep s q n i (i.x 16 13) fun b _ => mcastSend s q n i b)) = true :=
  ⟨grouped (workSt 5 [ins 0x62 4 (64 * 2 ^ 34), 9 + 2 ^ 16] fun g => { g with a := [(0, w64 (2 ^ 62 + 2 ^ 17))] }), 3, 1, { w := w64 (ins 0x62 4 (64 * 2 ^ 34)), ext := 9 + 2 ^ 16 }, by decide +kernel⟩

theorem test_mcast_stops : ∃ (s : State) (q n : Nat) (i : Ins), (StageReady s q n 0x62) ∧ (stageIns s q n = i) ∧ (aSpace (aGet (stage s q n) (i.f 34 7)) ≠ 1 ∨ (group s (i.x 0 14)).status.enabled = false ∨ (group s (i.x 0 14)).comp ≠ (jobOf s q).comp) ∧ answered (exec (.mcast q n) s) (fun t => decide (t = stopJob s q 3)) = true :=
  ⟨work 5 [ins 0x62 4 (64 * 2 ^ 34), 9], 3, 1, { w := w64 (ins 0x62 4 (64 * 2 ^ 34)), ext := 9 }, by decide +kernel⟩

theorem test_decode_takes : ∃ (s : State) (q n need : Nat) (i : Ins), (StageReady s q n 0x20) ∧ (stageIns s q n = i) ∧ ((stage s q n).buf.held = false) ∧ ((laceOf (seam s q) (i.f 0 5)).q ≠ []) ∧ ((if blkKind (laceOf (seam s q) (i.f 0 5)).q = 1 then 4128 else blkSlot (laceOf (seam s q) (i.f 0 5)).q) = need) ∧ ((laceOf (seam s q) (i.f 0 5)).closed = true ∨ (32 ≤ (laceOf (seam s q) (i.f 0 5)).q.length ∧ need ≤ (laceOf (seam s q) (i.f 0 5)).q.length)) ∧ ((stage s q n).fill.held = false) ∧ answered (exec (.decode q n) s) (fun t => decide ((stage t q n).buf.held = true ∧ (stage t q n).buf.bytes = (laceOf (seam s q) (i.f 0 5)).q.take need ∧ (stage t q n).pc = (stage s q n).pc ∧ (laceOf (seam t q) (i.f 0 5)).q = (laceOf (seam s q) (i.f 0 5)).q.drop need ∧ t = bufferBlock s q n (i.f 0 5) need)) = true :=
  ⟨workSeam 6 [ins 0x20 0 (2 ^ 5)] (fun x => { x with laces := [(0, { q := List.replicate 65 0 })] }), 3, 1, 64, { w := w64 (ins 0x20 0 (2 ^ 5)) }, by decide +kernel⟩

theorem test_decode_takes_second : ∃ (s : State) (q n need : Nat) (i : Ins), (StageReady s q n 0x20) ∧ (stageIns s q n = i) ∧ ((stage s q n).buf.held = true) ∧ ((stage s q n).fill.held = false) ∧ ((laceOf (seam s q) (i.f 0 5)).q ≠ []) ∧ ((if blkKind (laceOf (seam s q) (i.f 0 5)).q = 1 then 4128 else blkSlot (laceOf (seam s q) (i.f 0 5)).q) = need) ∧ ((laceOf (seam s q) (i.f 0 5)).closed = true ∨ (32 ≤ (laceOf (seam s q) (i.f 0 5)).q.length ∧ need ≤ (laceOf (seam s q) (i.f 0 5)).q.length)) ∧ answered (exec (.decode q n) s) (fun t => decide ((stage t q n).buf = (stage s q n).buf ∧ (stage t q n).fill.bytes = (laceOf (seam s q) (i.f 0 5)).q.take need ∧ t = bufferBlock s q n (i.f 0 5) need)) = true :=
  ⟨workSeam 6 [ins 0x20 0 (2 ^ 5)] (fun x => { putStage x 1 { stageOf x 1 with buf := { held := true } } with laces := [(0, { q := List.replicate 65 0 })] }), 3, 1, 64, { w := w64 (ins 0x20 0 (2 ^ 5)) }, by decide +kernel⟩

theorem test_decode_waits : ∃ (s : State) (q n : Nat) (i : Ins), (StageReady s q n 0x20) ∧ (stageIns s q n = i) ∧ ((stage s q n).fill.held = true ∨ ((laceOf (seam s q) (i.f 0 5)).q = [] ∧ (laceOf (seam s q) (i.f 0 5)).closed = false)) ∧ answered (exec (.decode q n) s) (fun t => decide (t = s)) = true :=
  ⟨workSeam 6 [ins 0x20 0 (2 ^ 5)] (fun x => { x with laces := [(0, {})] }), 3, 1, { w := w64 (ins 0x20 0 (2 ^ 5)) }, by decide +kernel⟩

theorem test_decode_ends : ∃ (s : State) (q n : Nat) (i : Ins), (StageReady s q n 0x20) ∧ (stageIns s q n = i) ∧ ((stage s q n).buf.held = false) ∧ ((laceOf (seam s q) (i.f 0 5)).q = []) ∧ ((laceOf (seam s q) (i.f 0 5)).closed = true) ∧ ((stage s q n).fill.held = false) ∧ answered (exec (.decode q n) s) (fun t => decide (stage t q n = { stageNext (stage s q n) with prog := {}, p := pPut (stage s q n).p 6 (stage s q n).prog.took } ∧ t = ioEnd s q n true true)) = true :=
  ⟨workSeam 6 [ins 0x20 0 (2 ^ 5)] (fun x => { x with laces := [(0, { closed := true })] }), 3, 1, { w := w64 (ins 0x20 0 (2 ^ 5)) }, by decide +kernel⟩

theorem test_decode_block : ∃ (s : State) (q n : Nat) (i : Ins) (l : List Nat), (StageReady s q n 0x20) ∧ (stageIns s q n = i) ∧ ((stage s q n).buf.held = true) ∧ ((stage s q n).buf.ref = false) ∧ ((stage s q n).hold = none) ∧ (tileWaits s (stage s q n) = false) ∧ (sampleDue (gvCount s 0 1) (stage s q n).ty (stage s q n).phys = false) ∧ (judgeBlock s (jobOf s q).comp (i.f 10 4) (stage s q n).buf = .vals l) ∧ (laceRoom (seam s q) (i.f 5 5) = true) ∧ answered (exec (.decodeBlock q n) s) (fun _ => decide (True)) = true :=
  ⟨workSt 6 [ins 0x20 0 (2 ^ 5)] (fun g => { g with buf := { held := true, bytes := [0, 0, 0, 253, 0, 0, 0, 0] ++ List.replicate 4120 0 } }), 3, 1, { w := w64 (ins 0x20 0 (2 ^ 5)) }, gvUnpack 0 (List.replicate 4096 0), by decide +kernel⟩

theorem test_decode_block_out : ∃ (s : State) (q n : Nat) (i : Ins) (l : List Nat), (StageReady s q n 0x20) ∧ (stageIns s q n = i) ∧ ((stage s q n).buf.held = true) ∧ (tileWaits s (stage s q n) = false) ∧ (laceRoom (seam s q) (i.f 5 5) = true) ∧ (judgeBlock s (jobOf s q).comp (i.f 10 4) (stage s q n).buf = .vals l) ∧ answered (exec (.decodeBlock q n) s) (fun _ => decide (True)) = true :=
  ⟨workSt 6 [ins 0x20 0 (2 ^ 5)] (fun g => { g with buf := { held := true, bytes := [0, 0, 0, 253, 0, 0, 0, 0] ++ List.replicate 4120 0 } }), 3, 1, { w := w64 (ins 0x20 0 (2 ^ 5)) }, gvUnpack 0 (List.replicate 4096 0), by decide +kernel⟩

theorem test_decode_block_fails : ∃ (s : State) (q n st : Nat) (stale : Bool) (i : Ins) (j : JobRun), (StageReady s q n 0x20) ∧ (stageIns s q n = i) ∧ ((stage s q n).buf.held = true) ∧ (tileWaits s (stage s q n) = false) ∧ ((seam s q).job = some j) ∧ (j.endStatus = none) ∧ (judgeBlock s (jobOf s q).comp (i.f 10 4) (stage s q n).buf = .fails st stale) ∧ (laceRoom (seam s q) (i.f 5 5) = true) ∧ answered (exec (.decodeBlock q n) s) (fun t => decide ((seam t q).job.map (·.endStatus) = some (some st) ∧ (seam t q).state = 8 ∧ t = stopJob (gvCount s (if stale then 2 else 3) 1) q st)) = true :=
  ⟨workSt 6 [ins 0x20 0 (2 ^ 5)] (fun g => { g with buf := { held := true, bytes := List.replicate 64 0 } }), 3, 1, 11, true, { w := w64 (ins 0x20 0 (2 ^ 5)) }, { seq := 4, comp := 5 }, by decide +kernel⟩

theorem test_encode_ends : ∃ (s : State) (q n : Nat) (i : Ins), (StageReady s q n 0x21) ∧ (stageIns s q n = i) ∧ ((encTable s q (stage s q n) i).isSome = true) ∧ ((laceOf (seam s q) (i.f 0 5)).q = []) ∧ ((laceOf (seam s q) (i.f 0 5)).closed = true) ∧ answered (exec (.encode q n) s) (fun t => decide (stage t q n = { stageNext (stage s q n) with prog := {}, p := pPut (stage s q n).p 6 (stage s q n).prog.took } ∧ t = ioEnd s q n true true)) = true :=
  ⟨encoding (List.replicate 160 0) { closed := true }, 3, 1, { w := w64 (ins 0x21 4 (64 * 2 ^ 34 + 65 * 2 ^ 27 + 2 * 2 ^ 10 + 2 ^ 5)), ext := 9 + 4096 * 2 ^ 16 + 2 ^ 32 }, by decide +kernel⟩

theorem test_encode_partial : ∃ (s : State) (q n : Nat) (i : Ins) (j : JobRun), (StageReady s q n 0x21) ∧ (stageIns s q n = i) ∧ ((encTable s q (stage s q n) i).isSome = true) ∧ ((laceOf (seam s q) (i.f 0 5)).q ≠ []) ∧ ((laceOf (seam s q) (i.f 0 5)).q.length < 4096) ∧ ((laceOf (seam s q) (i.f 0 5)).closed = true) ∧ ((seam s q).job = some j) ∧ (j.endStatus = none) ∧ answered (exec (.encode q n) s) (fun t => decide ((seam t q).job.map (·.endStatus) = some (some 3) ∧ (seam t q).state = 8 ∧ t = stopJob s q 3)) = true :=
  ⟨encoding (List.replicate 160 0) { q := [1], closed := true }, 3, 1, { w := w64 (ins 0x21 4 (64 * 2 ^ 34 + 65 * 2 ^ 27 + 2 * 2 ^ 10 + 2 ^ 5)), ext := 9 + 4096 * 2 ^ 16 + 2 ^ 32 }, { seq := 4, comp := 5 }, by decide +kernel⟩

theorem test_encode_block : ∃ (s : State) (q n gen : Nat) (i : Ins) (r : Bytes) (j : JobRun) (e : Option Bytes), (StageReady s q n 0x21) ∧ (stageIns s q n = i) ∧ (encTable s q (stage s q n) i = some (gen, r)) ∧ (4096 ≤ (laceOf (seam s q) (i.f 0 5)).q.length) ∧ (i.f 0 5 ≠ i.f 5 5) ∧ (i.f 0 5 ≠ i.f 10 5) ∧ (i.f 5 5 ≠ i.f 10 5) ∧ (encodeBlock (i.f 23 4) (i.x 0 16) gen (i.x 16 16) r (gvUnpack (i.f 23 4) ((laceOf (seam s q) (i.f 0 5)).q.take 4096)) = e) ∧ ((seam s q).job = some j) ∧ (j.spills < i.x 32 32) ∧ (laceRoom (seam s q) (i.f 5 5) = true) ∧ (laceRoom (seam s q) (i.f 10 5) = true) ∧ answered (exec (.encodeBlock q n) s) (fun _ => decide (True)) = true :=
  ⟨encoding (List.replicate 160 0) { q := List.replicate 4096 0 }, 3, 1, 1, { w := w64 (ins 0x21 4 (64 * 2 ^ 34 + 65 * 2 ^ 27 + 2 * 2 ^ 10 + 2 ^ 5)), ext := 9 + 4096 * 2 ^ 16 + 2 ^ 32 }, List.replicate 160 0, { seq := 4, comp := 5 }, none, by decide +kernel⟩

theorem test_encode_raw : ∃ (s : State) (q n gen : Nat) (i : Ins) (r : Bytes), (StageReady s q n 0x21) ∧ (stageIns s q n = i) ∧ (encTable s q (stage s q n) i = some (gen, r)) ∧ (4096 ≤ (laceOf (seam s q) (i.f 0 5)).q.length) ∧ (laceRoom (seam s q) (i.f 5 5) = true) ∧ (laceRoom (seam s q) (i.f 10 5) = true) ∧ answered (exec (.encodeBlock q n) s) (fun _ => decide (True)) = true :=
  ⟨encoding (List.replicate 160 0) { q := List.replicate 4096 0 }, 3, 1, 1, { w := w64 (ins 0x21 4 (64 * 2 ^ 34 + 65 * 2 ^ 27 + 2 * 2 ^ 10 + 2 ^ 5)), ext := 9 + 4096 * 2 ^ 16 + 2 ^ 32 }, List.replicate 160 0, by decide +kernel⟩

theorem test_encode_no_table : ∃ (s : State) (q n : Nat) (i : Ins), (StageReady s q n 0x21) ∧ (stageIns s q n = i) ∧ (encTable s q (stage s q n) i = none) ∧ answered (exec (.encodeBlock q n) s) (fun t => decide (t = stopJob s q 3)) = true :=
  ⟨workSt 7 [ins 0x21 4 0, 9] (fun g => g), 3, 1, { w := w64 (ins 0x21 4 0), ext := 9 }, by decide +kernel⟩

theorem test_buildtab_counts : ∃ (s : State) (q n : Nat) (i : Ins), (StageReady s q n 0x22) ∧ (stageIns s q n = i) ∧ ((stage s q n).prog.phase = 0) ∧ ((stage s q n).prog.counts ≠ []) ∧ (4096 ≤ (laceOf (seam s q) (i.f 32 5)).q.length) ∧ answered (exec (.buildtab q n) s) (fun _ => decide (True)) = true :=
  ⟨setStage (workSeam 7 [ins 0x22 1 (2 ^ 32 + 9 * 2 ^ 37 + 2 ^ 5)] fun x => { x with laces := [(1, { q := List.replicate 4096 0 })] }) 3 1 { ty := 7, code := wordsBytes [w64 (ins 0x22 1 (2 ^ 32 + 9 * 2 ^ 37 + 2 ^ 5))], inL := 3, prog := { counts := List.replicate 16 0 } }, 3, 1, { w := w64 (ins 0x22 1 (2 ^ 32 + 9 * 2 ^ 37 + 2 ^ 5)) }, by decide +kernel⟩

theorem test_buildtab_sizes : ∃ (s : State) (q n : Nat) (i : Ins), (StageReady s q n 0x22) ∧ (stageIns s q n = i) ∧ ((stage s q n).prog.phase = 1) ∧ (4096 ≤ (laceOf (seam s q) (i.f 0 5)).q.length) ∧ answered (exec (.buildtab q n) s) (fun _ => decide (True)) = true :=
  ⟨setStage (workSeam 7 [ins 0x22 1 (2 ^ 32 + 9 * 2 ^ 37 + 2 ^ 5)] fun x => { x with laces := [(0, { q := List.replicate 4096 0 })] }) 3 1 { ty := 7, code := wordsBytes [w64 (ins 0x22 1 (2 ^ 32 + 9 * 2 ^ 37 + 2 ^ 5))], inL := 3, prog := { phase := 1, counts := List.replicate 16 1 } }, 3, 1, { w := w64 (ins 0x22 1 (2 ^ 32 + 9 * 2 ^ 37 + 2 ^ 5)) }, by decide +kernel⟩

theorem test_buildtab_stops : ∃ (s : State) (q n l : Nat) (i : Ins), (StageReady s q n 0x22) ∧ (stageIns s q n = i) ∧ ((if (stage s q n).prog.phase = 1 then i.f 0 5 else i.f 32 5) = l) ∧ ((laceOf (seam s q) l).closed = true) ∧ (((laceOf (seam s q) l).q ≠ [] ∧ (laceOf (seam s q) l).q.length < 4096) ∨ ((laceOf (seam s q) l).q = [] ∧ (stage s q n).prog.phase ≠ 1 ∧ (stage s q n).prog.count = 0)) ∧ answered (exec (.buildtab q n) s) (fun t => decide (t = stopJob s q 3)) = true :=
  ⟨setStage (workSeam 7 [] fun x => { x with laces := [(1, { closed := true })] }) 3 1 { ty := 7, code := wordsBytes [w64 (ins 0x22 1 (2 ^ 32 + 9 * 2 ^ 37 + 2 ^ 5))], inL := 3 }, 3, 1, 1, { w := w64 (ins 0x22 1 (2 ^ 32 + 9 * 2 ^ 37 + 2 ^ 5)) }, by decide +kernel⟩

theorem test_buildtab_counted : ∃ (s : State) (q n : Nat) (i : Ins), (StageReady s q n 0x22) ∧ (stageIns s q n = i) ∧ ((stage s q n).prog.phase = 0) ∧ ((stage s q n).prog.count ≠ 0) ∧ ((laceOf (seam s q) (i.f 32 5)).q = []) ∧ ((laceOf (seam s q) (i.f 32 5)).closed = true) ∧ answered (exec (.buildtab q n) s) (fun t => decide (t = setStage s q n { stage s q n with prog := { (stage s q n).prog with phase := 1 } })) = true :=
  ⟨setStage (workSeam 7 [] fun x => { x with laces := [(1, { closed := true })] }) 3 1 { ty := 7, code := wordsBytes [w64 (ins 0x22 1 (2 ^ 32 + 9 * 2 ^ 37 + 2 ^ 5))], inL := 3, prog := { count := 1 } }, 3, 1, { w := w64 (ins 0x22 1 (2 ^ 32 + 9 * 2 ^ 37 + 2 ^ 5)) }, by decide +kernel⟩

theorem test_buildtab_ends : ∃ (s : State) (q n : Nat) (i : Ins), (StageReady s q n 0x22) ∧ (stageIns s q n = i) ∧ ((stage s q n).prog.phase = 1) ∧ ((laceOf (seam s q) (i.f 0 5)).q = []) ∧ ((laceOf (seam s q) (i.f 0 5)).closed = true) ∧ (laceRoom (seam s q) (i.f 5 5) = true) ∧ answered (exec (.buildtab q n) s) (fun _ => decide (True)) = true :=
  ⟨setStage (workSeam 7 [] fun x => { x with laces := [(0, { closed := true }), (1, { beat := 32, depth := 32 })] }) 3 1 { ty := 7, code := wordsBytes [w64 (ins 0x22 1 (2 ^ 32 + 9 * 2 ^ 37 + 2 ^ 5))], inL := 3, prog := { phase := 1, count := 1 } }, 3, 1, { w := w64 (ins 0x22 1 (2 ^ 32 + 9 * 2 ^ 37 + 2 ^ 5)) }, by decide +kernel⟩

theorem test_topk : ∃ (s : State) (q n k : Nat) (i : Ins), (StageReady s q n 0x51) ∧ (stageIns s q n = i) ∧ ((if i.f 19 1 = 1 then (sGet (seam s q).s (i.f 20 5)).toNat else i.f 0 12 + 1) = k) ∧ (1 ≤ k) ∧ (k ≤ 4096) ∧ (laceShut s q (i.f 12 5) = false) ∧ ((laceOf (seam s q) (i.f 32 5)).closed = true) ∧ ((laceOf (seam s q) (i.f 32 5)).q.length % (if i.f 17 1 = 1 then 8 else elemBytes (i.f 37 4)) = 0) ∧ (laceRoom (seam s q) (i.f 12 5) = true) ∧ answered (exec (.topk q n) s) (fun t => decide ((laceOf (seam t q) (i.f 12 5)).q = (laceOf (seam s q) (i.f 12 5)).q ++ ((topKeys k (topInput i (fld (sGet (seam s q).s (i.f 25 5)) 0 32) (laceOf (seam s q) (i.f 32 5)).q)).flatMap fun x => if i.f 18 1 = 1 then bytesLE 4 x.pat ++ bytesLE 4 x.ix else bytesLE 4 x.ix) ∧ (laceOf (seam t q) (i.f 12 5)).closed = true ∧ (laceOf (seam t q) (i.f 32 5)).q = [] ∧ stage t q n = { stageNext (stage s q n) with p := pPut (stage s q n).p 6 !(laceOf (seam s q) (i.f 32 5)).q.isEmpty } ∧ t = topkEmit s q n i k)) = true :=
  ⟨workSeam 4 [ins 0x51 1 (2 ^ 12 + 2 ^ 18 + 1)] (fun x => { x with laces := [(0, { q := [0, 0, 128, 63, 0, 0, 0, 64, 0, 0, 0, 64], closed := true }), (1, { beat := 32, depth := 32 })] }), 3, 1, 2, { w := w64 (ins 0x51 1 (2 ^ 12 + 2 ^ 18 + 1)) }, by decide +kernel⟩

theorem test_topk_stops : ∃ (s : State) (q n k : Nat) (i : Ins), (StageReady s q n 0x51) ∧ (stageIns s q n = i) ∧ ((if i.f 19 1 = 1 then (sGet (seam s q).s (i.f 20 5)).toNat else i.f 0 12 + 1) = k) ∧ (k = 0 ∨ 4096 < k ∨ laceShut s q (i.f 12 5) = true) ∧ answered (exec (.topk q n) s) (fun t => decide (t = stopJob s q 3)) = true :=
  ⟨work 4 [ins 0x51 1 (2 ^ 12 + 2 ^ 18 + 2 ^ 19)], 3, 1, 0, { w := w64 (ins 0x51 1 (2 ^ 12 + 2 ^ 18 + 2 ^ 19)) }, by decide +kernel⟩

theorem test_compact_record : ∃ (s : State) (q n : Nat) (i : Ins), (StageReady s q n 0x53) ∧ (stageIns s q n = i) ∧ (laceShut s q (i.f 10 5) = false) ∧ (laceShut s q (i.f 15 5) = false) ∧ (i.f 0 5 ≠ i.f 5 5) ∧ (i.f 10 5 ≠ i.f 0 5) ∧ (i.f 10 5 ≠ i.f 5 5) ∧ (i.x 0 12 * 32 ≤ (laceOf (seam s q) (i.f 0 5)).q.length) ∧ (4 ≤ (laceOf (seam s q) (i.f 5 5)).q.length) ∧ (laceRoom (seam s q) (i.f 10 5) = true) ∧ (laceRoom (seam s q) (i.f 15 5) = true) ∧ answered (exec (.compact q n) s) (fun t => decide ((laceOf (seam t q) (i.f 10 5)).q = (laceOf (seam s q) (i.f 10 5)).q ++ (if leAt (laceOf (seam s q) (i.f 5 5)).q 0 4 ≠ 0 ∧ (i.x 32 32 = 0 ∨ (stage s q n).prog.count < i.x 32 32) then (laceOf (seam s q) (i.f 0 5)).q.take (i.x 0 12 * 32) else []) ∧ (laceOf (seam t q) (i.f 0 5)).q = (laceOf (seam s q) (i.f 0 5)).q.drop (i.x 0 12 * 32) ∧ (laceOf (seam t q) (i.f 5 5)).q = (laceOf (seam s q) (i.f 5 5)).q.drop 4 ∧ (stage t q n).prog.count = (stage s q n).prog.count + (if leAt (laceOf (seam s q) (i.f 5 5)).q 0 4 ≠ 0 then 1 else 0) ∧ (stage t q n).pc = (stage s q n).pc ∧ t = compactRec s q n i ((laceOf (seam s q) (i.f 0 5)).q.take (i.x 0 12 * 32)) (leAt (laceOf (seam s q) (i.f 5 5)).q 0 4))) = true :=
  ⟨workSeam 4 [ins 0x53 4 (2 * 2 ^ 10 + 3 * 2 ^ 15 + 2 ^ 5), 1] (fun x => { x with laces := [(0, { q := List.replicate 32 5 }), (1, { q := [0, 0, 0, 1] }), (2, { beat := 32, depth := 32 }), (3, { beat := 32, depth := 32 })] }), 3, 1, { w := w64 (ins 0x53 4 (2 * 2 ^ 10 + 3 * 2 ^ 15 + 2 ^ 5)), ext := 1 }, by decide +kernel⟩

theorem test_compact_ends : ∃ (s : State) (q n : Nat) (i : Ins), (StageReady s q n 0x53) ∧ (stageIns s q n = i) ∧ (laceShut s q (i.f 10 5) = false) ∧ (laceShut s q (i.f 15 5) = false) ∧ ((laceOf (seam s q) (i.f 0 5)).q = []) ∧ ((laceOf (seam s q) (i.f 0 5)).closed = true) ∧ ((laceOf (seam s q) (i.f 5 5)).q = []) ∧ ((laceOf (seam s q) (i.f 5 5)).closed = true) ∧ (laceRoom (seam s q) (i.f 10 5) = true) ∧ (laceRoom (seam s q) (i.f 15 5) = true) ∧ answered (exec (.compact q n) s) (fun t => decide ((laceOf (seam t q) (i.f 15 5)).q = (laceOf (seam s q) (i.f 15 5)).q ++ bytesLE 8 (stage s q n).prog.count ++ List.replicate 24 0 ∧ stage t q n = { stageNext (stage s q n) with prog := {}, p := pPut (stage s q n).p 6 (stage s q n).prog.took } ∧ t = ioEnd (setSeam s q (lacePut (seam s q) (i.f 15 5) (bytesLE 8 (stage s q n).prog.count ++ List.replicate 24 0))) q n true true)) = true :=
  ⟨setStage (workSeam 4 [] fun x => { x with laces := [(0, { closed := true }), (1, { closed := true }), (2, { beat := 32, depth := 32 }), (3, { beat := 32, depth := 32 })] }) 3 1 { ty := 4, code := wordsBytes ([ins 0x53 4 (2 * 2 ^ 10 + 3 * 2 ^ 15 + 2 ^ 5), 1].map w64), inL := 3, prog := { count := 300, took := true } }, 3, 1, { w := w64 (ins 0x53 4 (2 * 2 ^ 10 + 3 * 2 ^ 15 + 2 ^ 5)), ext := 1 }, by decide +kernel⟩

theorem test_compact_takes : ∃ (s : State) (q n : Nat) (i : Ins), (StageReady s q n 0x53) ∧ (stageIns s q n = i) ∧ (laceShut s q (i.f 10 5) = false) ∧ (laceShut s q (i.f 15 5) = false) ∧ (laceRoom (seam s q) (i.f 10 5) = true) ∧ (laceRoom (seam s q) (i.f 15 5) = true) ∧ (i.x 0 12 * 32 ≤ (laceOf (seam s q) (i.f 0 5)).q.length) ∧ (4 ≤ (laceOf (seam s q) (i.f 5 5)).q.length) ∧ answered (exec (.compact q n) s) (fun t => decide (t = compactRec s q n i ((laceOf (seam s q) (i.f 0 5)).q.take (i.x 0 12 * 32)) (leAt (laceOf (seam s q) (i.f 5 5)).q 0 4))) = true :=
  ⟨workSeam 4 [ins 0x53 4 (2 * 2 ^ 10 + 3 * 2 ^ 15 + 2 ^ 5), 1] (fun x => { x with laces := [(0, { q := List.replicate 32 5 }), (1, { q := [0, 0, 0, 1] }), (2, { beat := 32, depth := 32 }), (3, { beat := 32, depth := 32 })] }), 3, 1, { w := w64 (ins 0x53 4 (2 * 2 ^ 10 + 3 * 2 ^ 15 + 2 ^ 5)), ext := 1 }, by decide +kernel⟩

theorem test_red_welt_joins : ∃ (s : State) (q n a : Nat) (b : Bytes) (j : JobRun), (StageReady s q n 0x60) ∧ ((stageIns s q n).f 0 1 = 1) ∧ ((stage s q n).weltWait = false) ∧ (aSpace (aGet (stage s q n) ((stageIns s q n).f 34 7)) = 0) ∧ (aAddr (aGet (stage s q n) ((stageIns s q n).f 34 7)) = a) ∧ (sliceRead (seam s q) a 32 = some b) ∧ ((seam s q).job = some j) ∧ (jobWelt s q = none) ∧ (weltRanges (weltOf q j.seq j.comp a b) b = true) ∧ (1 < (weltOf q j.seq j.comp a b).servers) ∧ answered (exec (.redWelt q n) s) (fun t => decide (stage t q n = { stage s q n with weltWait := true } ∧ t.sa.welts.getLast? = some { weltOf q j.seq j.comp a b with joined := [n] } ∧ t = weltJoin s q n { weltOf q j.seq j.comp a b with joined := [n] })) = true :=
  ⟨welting {} (descr 2), 3, 1, 0, descr 2, { seq := 4, comp := 5 }, by decide +kernel⟩

theorem test_red_welt_opens : ∃ (s : State) (q n a fa r k : Nat) (b : Bytes) (j : JobRun) (u : State) (w : Welt), (StageReady s q n 0x60) ∧ ((stageIns s q n).f 0 1 = 1) ∧ ((stage s q n).weltWait = false) ∧ (aSpace (aGet (stage s q n) ((stageIns s q n).f 34 7)) = 0) ∧ (aAddr (aGet (stage s q n) ((stageIns s q n).f 34 7)) = a) ∧ (sliceRead (seam s q) a 32 = some b) ∧ ((seam s q).job = some j) ∧ (jobWelt s q = none) ∧ (weltRanges (weltOf q j.seq j.comp a b) b = true) ∧ ((weltOf q j.seq j.comp a b).servers = 1) ∧ (translate s (stageAcc s q n (weltOf q j.seq j.comp a b).base 2) = (u, .ok fa r k)) ∧ ({ weltOf q j.seq j.comp a b with joined := [n], base := fa } = w) ∧ (weltFits u q w r = true) ∧ answered (exec (.redWelt q n) s) (fun t => decide ((stage t q n).weltWait = true ∧ t.sa.welts.getLast? = some { w with opened := true, deadline := s.now + w.timeout * 1000 } ∧ (seam t q).mem = weltZeroAll w (seam s q).mem ∧ t = weltOpen s q n { weltOf q j.seq j.comp a b with joined := [n] })) = true :=
  ⟨weltMapped (welting {} (descr 1)), 3, 1, 0, 131072, 1, 0, descr 1, { seq := 4, comp := 5, asid := 6 }, weltMapped (welting {} (descr 1)), { weltOf 3 4 5 0 (descr 1) with joined := [1], base := 131072 }, by decide +kernel⟩

theorem test_red_welt_completes : ∃ (s : State) (q n : Nat) (w : Welt), (StageReady s q n 0x60) ∧ ((stageIns s q n).f 0 1 = 1) ∧ ((stage s q n).weltWait = true) ∧ (jobWelt s q = some w) ∧ (w.closedAt ≠ none) ∧ answered (exec (.redWelt q n) s) (fun t => decide ((stage t q n).pc = (stage s q n).pc + (stageIns s q n).len ∧ (stage t q n).weltWait = false ∧ (stage t q n).p = (if (stage s q n).inL = 0 then (stage s q n).p else pPut (stage s q n).p 6 ((stage s q n).prog.took || !((laceOf (seam s q) (firstLace (stage s q n).inL)).closed && (laceOf (seam s q) (firstLace (stage s q n).inL)).q.isEmpty))) ∧ t = setStage s q n (weltDone s q (stage s q n)))) = true :=
  ⟨welting { weltWait := true, prog := { took := true } } (descr 1) (some { weltOf 3 4 5 0 (descr 1) with closedAt := some 7 }), 3, 1, { weltOf 3 4 5 0 (descr 1) with closedAt := some 7 }, by decide +kernel⟩

theorem test_red_welt_enters : ∃ (s : State) (q n : Nat), (StageReady s q n 0x60) ∧ ((stageIns s q n).f 0 1 = 1) ∧ ((stage s q n).weltWait = false) ∧ (aSpace (aGet (stage s q n) ((stageIns s q n).f 34 7)) = 0) ∧ answered (exec (.redWelt q n) s) (fun t => decide (t = weltEnter s q n (aAddr (aGet (stage s q n) ((stageIns s q n).f 34 7))))) = true :=
  ⟨welting {} (descr 2), 3, 1, by decide +kernel⟩

theorem test_red_welt_waits : ∃ (s : State) (q n : Nat), (StageReady s q n 0x60) ∧ ((stageIns s q n).f 0 1 = 1) ∧ ((stage s q n).weltWait = true) ∧ ((jobWelt s q).any (fun w => w.closedAt.isSome) = false) ∧ answered (exec (.redWelt q n) s) (fun t => decide (t = s)) = true :=
  ⟨welting { weltWait := true } (descr 2) (some { weltOf 3 4 5 0 (descr 2) with joined := [1] }), 3, 1, by decide +kernel⟩

theorem test_welt_lace_contribution : ∃ (s : State) (q n l k c : Nat) (w : Welt), (stageLive s q n = true) ∧ ((stage s q n).weltWait = true) ∧ (jobWelt s q = some w) ∧ (w.seam = q) ∧ (w.opened = true) ∧ ((stage s q n).inL ≠ 0) ∧ (firstLace (stage s q n).inL = l) ∧ (32 + weltInB w ≤ (laceOf (seam s q) l).q.length) ∧ (leAt (laceOf (seam s q) l).q 0 4 = k) ∧ (k < w.lines) ∧ (weltCount (seam s q).mem w k = c) ∧ (c + 1 < w.expect) ∧ (w.expect < 2 ^ 16) ∧ ((stage s q n).outL = 0 ∨ laceRoom (seam s q) (firstLace (stage s q n).outL) = true) ∧ answered (exec (.weltLaceContribution q n) s) (fun t => decide ((laceOf (seam t q) l).q = (laceOf (seam s q) l).q.drop (32 + weltInB w) ∧ (stage t q n).prog.took = true)) = true :=
  ⟨welting { weltWait := true, inL := 1 } (descr 1) (some { weltOf 3 4 5 0 (descr 1) with opened := true, joined := [1], expect := 3 }), 3, 1, 0, 0, 0, { weltOf 3 4 5 0 (descr 1) with opened := true, joined := [1], expect := 3 }, by decide +kernel⟩

theorem test_welt_lace_takes : ∃ (s : State) (q n l : Nat) (w : Welt), (stageLive s q n = true) ∧ ((stage s q n).weltWait = true) ∧ (jobWelt s q = some w) ∧ (w.opened = true) ∧ ((stage s q n).inL ≠ 0) ∧ (firstLace (stage s q n).inL = l) ∧ (32 + weltInB w ≤ (laceOf (seam s q) l).q.length) ∧ (leAt (laceOf (seam s q) l).q 0 4 < w.lines) ∧ ((stage s q n).outL = 0 ∨ laceRoom (seam s q) (firstLace (stage s q n).outL) = true) ∧ answered (exec (.weltLaceContribution q n) s) (fun _ => decide (True)) = true :=
  ⟨welting { weltWait := true, inL := 1 } (descr 1) (some { weltOf 3 4 5 0 (descr 1) with opened := true, joined := [1], expect := 3 }), 3, 1, 0, { weltOf 3 4 5 0 (descr 1) with opened := true, joined := [1], expect := 3 }, by decide +kernel⟩

theorem test_welt_lace_beyond : ∃ (s : State) (q n l : Nat) (w : Welt), (stageLive s q n = true) ∧ ((stage s q n).weltWait = true) ∧ (jobWelt s q = some w) ∧ (w.opened = true) ∧ ((stage s q n).inL ≠ 0) ∧ (firstLace (stage s q n).inL = l) ∧ (32 + weltInB w ≤ (laceOf (seam s q) l).q.length) ∧ (w.lines ≤ leAt (laceOf (seam s q) l).q 0 4) ∧ ((stage s q n).outL = 0 ∨ laceRoom (seam s q) (firstLace (stage s q n).outL) = true) ∧ answered (exec (.weltLaceContribution q n) s) (fun t => decide (t = stopJob s q 3)) = true :=
  ⟨setSeam (welting { weltWait := true, inL := 1 } (descr 1) (some { weltOf 3 4 5 0 (descr 1) with opened := true, joined := [1], expect := 3 })) 3 ((fun (x : Seam) => { x with laces := [(0, { q := List.replicate 288 1 }), (1, { beat := 32, depth := 32 })] }) (seam (welting { weltWait := true, inL := 1 } (descr 1) (some { weltOf 3 4 5 0 (descr 1) with opened := true, joined := [1], expect := 3 })) 3)), 3, 1, 0, { weltOf 3 4 5 0 (descr 1) with opened := true, joined := [1], expect := 3 }, by decide +kernel⟩

theorem test_welt_timeout : ∃ (s : State) (q : Nat) (w : Welt) (j : JobRun), (working s = true) ∧ (jobWelt s q = some w) ∧ (w.opened = true) ∧ (w.deadline ≤ s.now) ∧ ((seam s q).job = some j) ∧ (j.endStatus = none) ∧ answered (exec (.weltTimeout q) s) (fun t => decide ((seam t q).job.map (·.endStatus) = some (some 0x0E) ∧ (seam t q).state = 8 ∧ (t.sa.welts.all (fun x => decide (x.seam ≠ q) || !x.opened) = true) ∧ t = stopJob s q 0x0E)) = true :=
  ⟨{ welting {} (descr 1) (some { weltOf 3 4 5 0 (descr 1) with opened := true, deadline := 9 }) with now := 9 }, 3, { weltOf 3 4 5 0 (descr 1) with opened := true, deadline := 9 }, { seq := 4, comp := 5 }, by decide +kernel⟩

theorem test_proof_checker_wait : ∃ (s : State) (q n c : Nat) (h : ProofHold), (holdOf s q n = some h) ∧ (h.checker = none) ∧ (spareFor s (stage s q n).ty (stage s q n).phys = some c) ∧ answered (exec (.proofCheckerWait q n) s) (fun t => decide ((stage t q n).hold = some { h with checker := some c } ∧ (unitAt t (stage s q n).ty c).state = 5 ∧ (health t (stage s q n).ty c).chkTenant = (jobOf s q).tenant ∧ t = setStage (lendChecker s (stage s q n).ty c (jobOf s q).tenant) q n { (stage s q n) with hold := some { h with checker := some c } })) = true :=
  ⟨{ workSt 1 [0] (fun g => { g with hold := some {} }) with sa := { (workSt 1 [0] (fun g => { g with hold := some {} })).sa with units := [(unitKey 1 119, { state := 3 })] } }, 3, 1, 119, {}, by decide +kernel⟩

theorem test_proof_checker_wait_skips : ∃ (s : State) (q n : Nat) (h : ProofHold), (holdOf s q n = some h) ∧ (h.checker = none) ∧ (h.lace = none) ∧ (spareFor s (stage s q n).ty (stage s q n).phys = none) ∧ (h.time + 147 ≤ s.now) ∧ answered (exec (.proofCheckerWait q n) s) (fun t => decide (stage t q n = { stage s q n with hold := none } ∧ health t (stage s q n).ty (stage s q n).phys = { health s (stage s q n).ty (stage s q n).phys with owed := true, unseen := true } ∧ t = skipSample s q n h)) = true :=
  ⟨{ workSt 1 [0] (fun g => { g with hold := some { rds := [3] } }) with now := 147 }, 3, 1, { rds := [3] }, by decide +kernel⟩

theorem test_proof_checker_wait_skips_block : ∃ (s : State) (q n : Nat) (h : ProofHold), (holdOf s q n = some h) ∧ (h.checker = none) ∧ (spareFor s (stage s q n).ty (stage s q n).phys = none) ∧ (h.time + 147 ≤ s.now) ∧ answered (exec (.proofCheckerWait q n) s) (fun t => decide ((stage t q n).hold = none ∧ t = skipSample s q n h)) = true :=
  ⟨{ workSt 6 [0] (fun g => { g with hold := some { lace := some 1, bytes := [7] } }) with now := 147 }, 3, 1, { lace := some 1, bytes := [7] }, by decide +kernel⟩

theorem test_proof_verdict : ∃ (s : State) (q n c : Nat) (res : ProofRes) (h : ProofHold), (holdOf s q n = some h) ∧ (h.checker = some c) ∧ (h.differs = false) ∧ (h.lace = none) ∧ (h.row = none) ∧ (h.rds = []) ∧ (res.tiles = h.tiles) ∧ (res.bytes = h.bytes) ∧ answered (exec (.proofVerdict q n res) s) (fun t => decide (stage t q n = { stage s q n with hold := none } ∧ (unitAt t (stage s q n).ty c).state ≠ 5 ∧ (health t (stage s q n).ty (stage s q n).phys).unseen = false ∧ t = agreed (phCount s 3 1) q n h)) = true :=
  ⟨{ workSt 1 [0] (fun g => { g with hold := some { checker := some 119 } }) with sa := { (workSt 1 [0] (fun g => { g with hold := some { checker := some 119 } })).sa with units := [(unitKey 1 119, { state := 5 })] } }, 3, 1, 119, {}, { checker := some 119 }, by decide +kernel⟩

theorem test_proof_verdict_tile : ∃ (s : State) (q n c rd : Nat) (x : Tile) (res : ProofRes) (h : ProofHold), (holdOf s q n = some h) ∧ (h.checker = some c) ∧ (h.differs = false) ∧ (h.lace = none) ∧ (h.row = none) ∧ (h.rds = [rd]) ∧ (h.tiles = [x]) ∧ (res.tiles = [x]) ∧ (res.bytes = h.bytes) ∧ answered (exec (.proofVerdict q n res) s) (fun t => decide (tGet (stage t q n) rd = x ∧ (stage t q n).hold = none)) = true :=
  ⟨workSt 1 [0] (fun g => { g with hold := some { checker := some 119, rds := [3], tiles := [{ data := 5 }] } }), 3, 1, 119, 3, { data := 5 }, { tiles := [{ data := 5 }] }, { checker := some 119, rds := [3], tiles := [{ data := 5 }] }, by decide +kernel⟩

theorem test_proof_verdict_agrees : ∃ (s : State) (q n c : Nat) (res : ProofRes) (h : ProofHold), (holdOf s q n = some h) ∧ (h.checker = some c) ∧ (h.differs = false) ∧ (res.tiles = h.tiles) ∧ (res.bytes = h.bytes) ∧ answered (exec (.proofVerdict q n res) s) (fun t => decide ((stage t q n).hold = none ∧ t = agreed (phCount s 3 1) q n h)) = true :=
  ⟨workSt 6 [0] (fun g => { g with hold := some { checker := some 3, lace := some 1, bytes := [7] } }), 3, 1, 3, { bytes := [7] }, { checker := some 3, lace := some 1, bytes := [7] }, by decide +kernel⟩

theorem test_proof_verdict_differs : ∃ (s : State) (q n c : Nat) (res : ProofRes) (h : ProofHold), (holdOf s q n = some h) ∧ (h.checker = some c) ∧ (h.differs = false) ∧ (res.tiles ≠ h.tiles ∨ res.bytes ≠ h.bytes) ∧ answered (exec (.proofVerdict q n res) s) (fun t => decide (stage t q n = { stage s q n with hold := some { h with differs := true, chkTiles := res.tiles, chkBytes := res.bytes } } ∧ t = setStage (phCount s 3 1) q n (stage t q n))) = true :=
  ⟨workSt 1 [0] (fun g => { g with hold := some { checker := some 119 } }), 3, 1, 119, { bytes := [7] }, { checker := some 119 }, by decide +kernel⟩

theorem test_proof_repeat_verdict : ∃ (s : State) (q n c : Nat) (res : ProofRes) (cond : ProofCond) (h : ProofHold), (holdOf s q n = some h) ∧ (h.checker = some c) ∧ (h.differs = true) ∧ (h.lace = none) ∧ (h.row = none) ∧ (h.rds = []) ∧ (res.tiles = h.tiles) ∧ (res.bytes = h.bytes) ∧ (res.bytes ≠ h.chkBytes) ∧ (c ≠ (stage s q n).phys) ∧ ((tget [] (health s (stage s q n).ty c).bins (4 * tempBin (die s (unitDie (stage s q n).ty c)).tj + loadClass s (stage s q n).ty c h.time cond)) = []) ∧ answered (exec (.proofRepeatVerdict q n res cond) s) (fun t => decide (stage t q n = { stage s q n with hold := none } ∧ (health t (stage s q n).ty c).escal = true ∧ (health t (stage s q n).ty c).lastMis = s.now ∧ (health t (stage s q n).ty (stage s q n).phys) = health s (stage s q n).ty (stage s q n).phys ∧ t = repeatOver s q n h c true false false cond)) = true :=
  ⟨{ workSt 1 [0] (fun g => { g with hold := some { checker := some 119, differs := true, chkBytes := [7] } }) with now := 50 }, 3, 1, 119, {}, { busy := true }, { checker := some 119, differs := true, chkBytes := [7] }, by decide +kernel⟩

theorem test_proof_repeat_over : ∃ (s : State) (q n c : Nat) (res : ProofRes) (cond : ProofCond) (h : ProofHold) (asUnit asChk again : Bool), (holdOf s q n = some h) ∧ (h.checker = some c) ∧ (h.differs = true) ∧ (asUnit = decide (res.tiles = h.tiles ∧ res.bytes = h.bytes)) ∧ (asChk = decide (res.tiles = h.chkTiles ∧ res.bytes = h.chkBytes)) ∧ (again = ((asChk && mustRestart s (stage s q n).ty (stage s q n).phys cond h.time) || (!asChk && !asUnit))) ∧ (again = false ∨ seamBusy s q = false) ∧ answered (exec (.proofRepeatVerdict q n res cond) s) (fun t => decide (t = repeatOver s q n h c asUnit asChk again cond)) = true :=
  ⟨{ workSt 1 [0] (fun g => { g with hold := some { checker := some 119, differs := true, chkBytes := [7] } }) with now := 50 }, 3, 1, 119, { bytes := [7] }, { busy := true }, { checker := some 119, differs := true, chkBytes := [7] }, false, true, false, by decide +kernel⟩

theorem test_proof_repeat_waits : ∃ (s : State) (q n c : Nat) (res : ProofRes) (cond : ProofCond) (h : ProofHold), (holdOf s q n = some h) ∧ (h.checker = some c) ∧ (h.differs = true) ∧ (res.tiles ≠ h.tiles ∨ res.bytes ≠ h.bytes) ∧ (res.tiles ≠ h.chkTiles ∨ res.bytes ≠ h.chkBytes) ∧ (seamBusy s q = true) ∧ answered (exec (.proofRepeatVerdict q n res cond) s) (fun t => decide (t = setSeam s q { seam s q with state := 5, wait := 0 })) = true :=
  ⟨(fun (x : State) => { x with te := { x.te with outst := [{ what := .seqUpdate 3 }] } }) (workSt 1 [0] (fun g => { g with hold := some { checker := some 119, differs := true, chkBytes := [7] } })), 3, 1, 119, { bytes := [8] }, {}, { checker := some 119, differs := true, chkBytes := [7] }, by decide +kernel⟩

theorem test_escalation_end : ∃ (s : State) (ty p : Nat), (mainUp s = true) ∧ ((health s ty p).escal = true) ∧ ((health s ty p).lastMis + 86400000000000 ≤ s.now) ∧ answered (exec (.escalationEnd ty p) s) (fun t => decide (t = setHealth s ty p { health s ty p with escal := false })) = true :=
  ⟨{ up with now := 86400000000009, ph := { up.ph with units := [(unitKey 1 3, { escal := true, lastMis := 9 })] } }, 1, 3, by decide +kernel⟩

theorem test_proof_bin_lapse : ∃ (s : State) (ty p bin : Nat), (mainUp s = true) ∧ (bin < 32) ∧ answered (exec (.proofBinLapse ty p bin) s) (fun t => decide (tget [] (health t ty p).bins bin = (tget [] (health s ty p).bins bin).filter (fun x => decide (s.now < x + 86400000000000)) ∧ { health t ty p with bins := (health s ty p).bins } = health s ty p ∧ t = setHealth s ty p (health t ty p))) = true :=
  ⟨{ up with now := 86400000000009, ph := { up.ph with units := [(unitKey 1 3, { bins := [(31, [9, 10])] })] } }, 1, 3, 31, by decide +kernel⟩

theorem test_commit_mcgroup_group : ∃ (s : State) (cs : Nat) (d : List W64), (Presents s cs 0xE8 d) ∧ (df d 0 0 2 = 0) ∧ (enableOf d = true) ∧ (Fresh s cs 0xE8 (stampKey okMcGroup (df d 0 16 14))) ∧ (groupReason s (ctl s cs) d = 0) ∧ answered (exec (.commitMcgroupGroup cs) s) (fun t => decide (Committed s t cs 0 (statusWord (accepted (group s (df d 0 16 14)).status)) ∧ group t (df d 0 16 14) = { group s (df d 0 16 14) with status := accepted (group s (df d 0 16 14)).status, owned := true, comp := df d 0 48 12, count := df d 2 0 7, senders := df d 2 8 2, sender := df d 2 32 16 } ∧ t = ctlComplete (grantCommit { s with sw := { s.sw with groups := tput {} s.sw.groups (df d 0 16 14) (tget {} t.sw.groups (df d 0 16 14)) } } cs 0xE8 ((stampKey okMcGroup (df d 0 16 14)))) cs 0 (some (statusWord (accepted (group s (df d 0 16 14)).status))) (some (stampKey okMcGroup (df d 0 16 14))) 64)) = true :=
  ⟨prog { pool with sw := { pool.sw with groups := [(16383, { members := [(0, some 256)] })] } } 0xE8 [w64 (16383 * 2 ^ 16 + 5 * 2 ^ 48), 0, 0, 1], 0, [w64 (16383 * 2 ^ 16 + 5 * 2 ^ 48), 0, 0, 1], by decide +kernel⟩

theorem test_commit_mcgroup_group_disable : ∃ (s : State) (cs : Nat) (d : List W64), (Presents s cs 0xE8 d) ∧ (df d 0 0 2 = 0) ∧ (enableOf d = false) ∧ (Fresh s cs 0xE8 (stampKey okMcGroup (df d 0 16 14))) ∧ (reaches (ctl s cs) (df d 0 48 12) = true) ∧ (groupKept s (ctl s cs) (group s (df d 0 16 14)) = false) ∧ answered (exec (.commitMcgroupGroup cs) s) (fun t => decide (t = ctlComplete (grantCommit (setGroup s (df d 0 16 14) { group s (df d 0 16 14) with status := { (group s (df d 0 16 14)).status with enabled := false, reason := 0 } }) cs 0xE8 ((stampKey okMcGroup (df d 0 16 14)))) cs 0 (some (statusWord (group t (df d 0 16 14)).status)) (some (stampKey okMcGroup (df d 0 16 14))) 64)) = true :=
  ⟨prog (grouped pool) 0xE8 [w64 (9 * 2 ^ 16), 0, 0, 0], 0, [w64 (9 * 2 ^ 16), 0, 0, 0], by decide +kernel⟩

theorem test_commit_mcgroup_member : ∃ (s : State) (cs : Nat) (d : List W64), (Presents s cs 0xE8 d) ∧ (df d 0 0 2 = 1) ∧ (enableOf d = true) ∧ (Fresh s cs 0xE8 (stampKey okMcGroup (df d 0 16 14 + 2 ^ 14 * (df d 0 32 7 + 1)))) ∧ (memberReason s (ctl s cs) d = 0) ∧ answered (exec (.commitMcgroupMember cs) s) (fun t => decide (Completed s t cs 0 ∧ tget none (group t (df d 0 16 14)).members (df d 0 32 7) = some (df d 1 0 60) ∧ { group t (df d 0 16 14) with members := (group s (df d 0 16 14)).members } = { group s (df d 0 16 14) with status := { (group s (df d 0 16 14)).status with reason := 0 } } ∧ t = ctlComplete (grantCommit { s with sw := { s.sw with groups := tput {} s.sw.groups (df d 0 16 14) (tget {} t.sw.groups (df d 0 16 14)) } } cs 0xE8 ((stampKey okMcGroup (df d 0 16 14 + 2 ^ 14 * (df d 0 32 7 + 1))))) cs 0 (some (statusWord (group t (df d 0 16 14)).status)) (some (stampKey okMcGroup (df d 0 16 14 + 2 ^ 14 * (df d 0 32 7 + 1)))) 64)) = true :=
  ⟨prog pool 0xE8 [w64 (1 + 9 * 2 ^ 16 + 127 * 2 ^ 32), 256, 0, 1], 0, [w64 (1 + 9 * 2 ^ 16 + 127 * 2 ^ 32), 256, 0, 1], by decide +kernel⟩

theorem test_commit_mcgroup_member_clear : ∃ (s : State) (cs : Nat) (d : List W64), (Presents s cs 0xE8 d) ∧ (df d 0 0 2 = 1) ∧ (enableOf d = false) ∧ (Fresh s cs 0xE8 (stampKey okMcGroup (df d 0 16 14 + 2 ^ 14 * (df d 0 32 7 + 1)))) ∧ (memberReason s (ctl s cs) d = 0) ∧ answered (exec (.commitMcgroupMember cs) s) (fun t => decide (t = ctlComplete (grantCommit (setGroup s (df d 0 16 14) { group s (df d 0 16 14) with status := { (group s (df d 0 16 14)).status with reason := 0 }, members := tput none (group s (df d 0 16 14)).members (df d 0 32 7) none }) cs 0xE8 ((stampKey okMcGroup (df d 0 16 14 + 2 ^ 14 * (df d 0 32 7 + 1))))) cs 0 (some (statusWord (group t (df d 0 16 14)).status)) (some (stampKey okMcGroup (df d 0 16 14 + 2 ^ 14 * (df d 0 32 7 + 1)))) 64)) = true :=
  ⟨prog pool 0xE8 [w64 (1 + 9 * 2 ^ 16 + 127 * 2 ^ 32), 256, 0, 0], 0, [w64 (1 + 9 * 2 ^ 16 + 127 * 2 ^ 32), 256, 0, 0], by decide +kernel⟩

theorem test_commit_mcgroup_member_busy : ∃ (s : State) (cs : Nat) (d : List W64), (Presents s cs 0xE8 d) ∧ (df d 0 0 2 = 1) ∧ (Fresh s cs 0xE8 (stampKey okMcGroup (df d 0 16 14 + 2 ^ 14 * (df d 0 32 7 + 1)))) ∧ ((ctl s cs).priv = 1) ∧ ((group s (df d 0 16 14)).status.enabled = true) ∧ answered (exec (.commitMcgroupMember cs) s) (fun t => decide (Completed s t cs 1 ∧ group t (df d 0 16 14) = { group s (df d 0 16 14) with status := { (group s (df d 0 16 14)).status with reason := 1 } } ∧ t = ctlComplete (grantCommit { s with sw := { s.sw with groups := tput {} s.sw.groups (df d 0 16 14) (tget {} t.sw.groups (df d 0 16 14)) } } cs 0xE8 ((stampKey okMcGroup (df d 0 16 14 + 2 ^ 14 * (df d 0 32 7 + 1))))) cs 1 (some (statusWord (group t (df d 0 16 14)).status)) none 64)) = true :=
  ⟨prog (grouped pool) 0xE8 [w64 (1 + 9 * 2 ^ 16), 256, 0, 1], 0, [w64 (1 + 9 * 2 ^ 16), 256, 0, 1], by decide +kernel⟩

theorem test_commit_meter : ∃ (s : State) (cs : Nat) (d : List W64), (Presents s cs 0xE9 d) ∧ (enableOf d = true) ∧ (Fresh s cs 0xE9 (stampKey okMeter (df d 0 0 14))) ∧ (meterReason s d = 0) ∧ answered (exec (.commitMeter cs) s) (fun t => decide (Committed s t cs 0 (statusWord (accepted (meter s (df d 0 0 14)).status)) ∧ meter t (df d 0 0 14) = { meter s (df d 0 0 14) with status := accepted (meter s (df d 0 0 14)).status, aware := bit (wd d 0) 15, port := df d 0 16 8, comp := df d 0 32 12, anyComp := bit (wd d 0) 44, tcMask := df d 0 48 8, red := df d 0 56 2, cir := df d 1 0 24, pir := df d 1 32 24, cbs := df d 2 0 24, pbs := df d 2 32 24, tc := df d 2 0 24 * 8000, tp := df d 2 32 24 * 8000, last := s.now } ∧ t = ctlComplete (grantCommit { s with sw := { s.sw with meters := tput {} s.sw.meters (df d 0 0 14) (tget {} t.sw.meters (df d 0 0 14)) } } cs 0xE9 ((stampKey okMeter (df d 0 0 14)))) cs 0 (some (statusWord (accepted (meter s (df d 0 0 14)).status))) (some (stampKey okMeter (df d 0 0 14))) 64)) = true :=
  ⟨prog pool 0xE9 [w64 (16383 + 255 * 2 ^ 16 + 5 * 2 ^ 32 + 255 * 2 ^ 48), w64 (1 + 2 * 2 ^ 32), w64 (4352 + 4352 * 2 ^ 32), 1], 0, [w64 (16383 + 255 * 2 ^ 16 + 5 * 2 ^ 32 + 255 * 2 ^ 48), w64 (1 + 2 * 2 ^ 32), w64 (4352 + 4352 * 2 ^ 32), 1], by decide +kernel⟩

theorem test_commit_meter_disable : ∃ (s : State) (cs : Nat) (d : List W64), (Presents s cs 0xE9 d) ∧ (enableOf d = false) ∧ (Fresh s cs 0xE9 (stampKey okMeter (df d 0 0 14))) ∧ answered (exec (.commitMeter cs) s) (fun t => decide (t = ctlComplete (grantCommit (setMeter s (df d 0 0 14) { meter s (df d 0 0 14) with status := { (meter s (df d 0 0 14)).status with enabled := false, reason := 0 } }) cs 0xE9 ((stampKey okMeter (df d 0 0 14)))) cs 0 (some (statusWord (meter t (df d 0 0 14)).status)) (some (stampKey okMeter (df d 0 0 14))) 64)) = true :=
  ⟨prog pool 0xE9 [9, 0, 0, 0], 0, [9, 0, 0, 0], by decide +kernel⟩

theorem test_commit_sched_queue : ∃ (s : State) (cs : Nat) (d : List W64), (Presents s cs 0xEA d) ∧ (df d 0 0 2 = 0) ∧ (enableOf d = true) ∧ (Fresh s cs 0xEA (stampKey okSched (df d 0 8 8 * 64 + df d 0 16 6))) ∧ (reservedSet d schedMasks = false) ∧ (df d 0 8 8 ≤ 199) ∧ (1 ≤ df d 1 0 13) ∧ (df d 1 0 13 ≤ 4096) ∧ answered (exec (.commitSchedQueue cs) s) (fun t => decide (Committed s t cs 0 (statusWord (accepted (queue s (df d 0 8 8) (df d 0 16 6)).status)) ∧ queue t (df d 0 8 8) (df d 0 16 6) = { queue s (df d 0 8 8) (df d 0 16 6) with status := accepted (queue s (df d 0 8 8) (df d 0 16 6)).status, weight := df d 1 0 13, alpha := df d 1 16 3 } ∧ t = ctlComplete (grantCommit { s with sw := { s.sw with queues := tput {} s.sw.queues (df d 0 8 8 * 64 + df d 0 16 6) (tget {} t.sw.queues (df d 0 8 8 * 64 + df d 0 16 6)) } } cs 0xEA ((stampKey okSched (df d 0 8 8 * 64 + df d 0 16 6)))) cs 0 (some (statusWord (accepted (queue s (df d 0 8 8) (df d 0 16 6)).status))) (some (stampKey okSched (df d 0 8 8 * 64 + df d 0 16 6))) 64)) = true :=
  ⟨prog pool 0xEA [w64 (199 * 2 ^ 8 + 63 * 2 ^ 16), 4096, 0, 1], 0, [w64 (199 * 2 ^ 8 + 63 * 2 ^ 16), 4096, 0, 1], by decide +kernel⟩

theorem test_commit_sched_queue_default : ∃ (s : State) (cs : Nat) (d : List W64), (Presents s cs 0xEA d) ∧ (df d 0 0 2 = 0) ∧ (df d 0 8 8 ≤ 199) ∧ (enableOf d = false) ∧ (Fresh s cs 0xEA (stampKey okSched (df d 0 8 8 * 64 + df d 0 16 6))) ∧ answered (exec (.commitSchedQueue cs) s) (fun t => decide (t = ctlComplete (grantCommit (setQueue s (df d 0 8 8) (df d 0 16 6) { (queue s (df d 0 8 8) (df d 0 16 6)) with status := { (queue s (df d 0 8 8) (df d 0 16 6)).status with enabled := true, reason := 0 }, disabled := false, weight := 256, alpha := 5 }) cs 0xEA ((stampKey okSched (df d 0 8 8 * 64 + df d 0 16 6)))) cs 0 (some (statusWord (queue t (df d 0 8 8) (df d 0 16 6)).status)) (some (stampKey okSched (df d 0 8 8 * 64 + df d 0 16 6))) 64)) = true :=
  ⟨prog pool 0xEA [w64 (199 * 2 ^ 8), 0, 0, 0], 0, [w64 (199 * 2 ^ 8), 0, 0, 0], by decide +kernel⟩

theorem test_commit_sched_queue_weight : ∃ (s : State) (cs : Nat) (d : List W64), (Presents s cs 0xEA d) ∧ (df d 0 0 2 = 0) ∧ (enableOf d = true) ∧ (Fresh s cs 0xEA (stampKey okSched (df d 0 8 8 * 64 + df d 0 16 6))) ∧ (reservedSet d schedMasks = false) ∧ (df d 0 8 8 ≤ 199) ∧ (df d 1 0 13 = 0 ∨ 4096 < df d 1 0 13) ∧ answered (exec (.commitSchedQueue cs) s) (fun t => decide (Completed s t cs 4 ∧ queue t (df d 0 8 8) (df d 0 16 6) = { (queue s (df d 0 8 8) (df d 0 16 6)) with status := refused (queue s (df d 0 8 8) (df d 0 16 6)).status 4 } ∧ t = ctlComplete (grantCommit { s with sw := { s.sw with queues := tput {} s.sw.queues (df d 0 8 8 * 64 + df d 0 16 6) (tget {} t.sw.queues (df d 0 8 8 * 64 + df d 0 16 6)) } } cs 0xEA ((stampKey okSched (df d 0 8 8 * 64 + df d 0 16 6)))) cs 4 (some (statusWord (queue t (df d 0 8 8) (df d 0 16 6)).status)) none 64)) = true :=
  ⟨prog pool 0xEA [w64 (199 * 2 ^ 8 + 63 * 2 ^ 16), 4097, 0, 1], 0, [w64 (199 * 2 ^ 8 + 63 * 2 ^ 16), 4097, 0, 1], by decide +kernel⟩

theorem test_commit_sched_port : ∃ (s : State) (cs : Nat) (d : List W64), (Presents s cs 0xEA d) ∧ (df d 0 0 2 = 1) ∧ (enableOf d = true) ∧ (Fresh s cs 0xEA (stampKey okSched (2 ^ 20 + df d 0 8 8))) ∧ (reservedSet d schedMasks = false) ∧ (df d 0 8 8 < 192) ∧ (100 ≤ df d 2 0 32) ∧ (df d 2 0 32 ≤ 100000) ∧ (1 ≤ df d 2 32 10) ∧ (df d 2 32 10 ≤ 1000) ∧ (64 ≤ df d 2 48 16) ∧ (df d 2 48 16 ≤ 4096) ∧ (262144 ≤ sharedWith s (df d 0 8 8) (df d 2 48 16)) ∧ answered (exec (.commitSchedPort cs) s) (fun t => decide (Committed s t cs 0 (statusWord (accepted (swPort s (df d 0 8 8)).status)) ∧ swPort t (df d 0 8 8) = { swPort s (df d 0 8 8) with status := accepted (swPort s (df d 0 8 8)).status, ageLimit := df d 2 0 32, admWait := df d 2 32 10, reserve := df d 2 48 16 } ∧ t = ctlComplete (grantCommit ([0, 1, 2, 3, 5].foldl (fun s tc => regrant s (df d 0 8 8) tc) (setSwPort s (df d 0 8 8) { swPort s (df d 0 8 8) with status := accepted (swPort s (df d 0 8 8)).status, ageLimit := df d 2 0 32, admWait := df d 2 32 10, reserve := df d 2 48 16 })) cs 0xEA ((stampKey okSched (2 ^ 20 + df d 0 8 8)))) cs 0 (some (statusWord (accepted (swPort s (df d 0 8 8)).status))) (some (stampKey okSched (2 ^ 20 + df d 0 8 8))) 64)) = true :=
  ⟨prog pool 0xEA [w64 (1 + 2 * 2 ^ 8), 0, w64 (100000 + 1000 * 2 ^ 32 + 4096 * 2 ^ 48), 1], 0, [w64 (1 + 2 * 2 ^ 8), 0, w64 (100000 + 1000 * 2 ^ 32 + 4096 * 2 ^ 48), 1], by decide +kernel⟩

theorem test_commit_sched_port_default : ∃ (s : State) (cs : Nat) (d : List W64), (Presents s cs 0xEA d) ∧ (df d 0 0 2 = 1) ∧ (df d 0 8 8 ≤ 199) ∧ (enableOf d = false) ∧ (Fresh s cs 0xEA (stampKey okSched (2 ^ 20 + df d 0 8 8))) ∧ answered (exec (.commitSchedPort cs) s) (fun t => decide (t = ctlComplete (grantCommit ([0, 1, 2, 3, 5].foldl (fun s tc => regrant s (df d 0 8 8) tc) (setSwPort s (df d 0 8 8) { swPort s (df d 0 8 8) with status := { (swPort s (df d 0 8 8)).status with enabled := false, reason := 0 }, ageLimit := 2000, admWait := 8, reserve := resetReserve s (df d 0 8 8) })) cs 0xEA ((stampKey okSched (2 ^ 20 + df d 0 8 8)))) cs 0 (some (statusWord (swPort t (df d 0 8 8)).status)) (some (stampKey okSched (2 ^ 20 + df d 0 8 8))) 64)) = true :=
  ⟨prog pool 0xEA [w64 (1 + 2 * 2 ^ 8), 0, 0, 0], 0, [w64 (1 + 2 * 2 ^ 8), 0, 0, 0], by decide +kernel⟩

theorem test_commit_sched_share : ∃ (s : State) (cs : Nat) (d : List W64), (Presents s cs 0xEA d) ∧ (df d 0 0 2 = 2) ∧ (enableOf d = true) ∧ (Fresh s cs 0xEA (stampKey okSched (2 ^ 21 + df d 0 32 12))) ∧ ((comp s (df d 0 32 12)).state ≠ 0) ∧ (reservedSet d schedMasks = false) ∧ answered (exec (.commitSchedShare cs) s) (fun t => decide (Committed s t cs 0 (statusWord (accepted (tget {} s.sw.shareSt (df d 0 32 12)))) ∧ tget 0 t.sw.share (df d 0 32 12) = df d 1 32 3 ∧ tget {} t.sw.shareSt (df d 0 32 12) = accepted (tget {} s.sw.shareSt (df d 0 32 12)) ∧ t = ctlComplete (grantCommit { s with sw := { s.sw with share := tput 0 s.sw.share (df d 0 32 12) (tget 0 t.sw.share (df d 0 32 12)), shareSt := tput {} s.sw.shareSt (df d 0 32 12) (tget {} t.sw.shareSt (df d 0 32 12)) } } cs 0xEA ((stampKey okSched (2 ^ 21 + df d 0 32 12)))) cs 0 (some (statusWord (accepted (tget {} s.sw.shareSt (df d 0 32 12))))) (some (stampKey okSched (2 ^ 21 + df d 0 32 12))) 64)) = true :=
  ⟨prog pool 0xEA [w64 (2 + 5 * 2 ^ 32), w64 (7 * 2 ^ 32), 0, 1], 0, [w64 (2 + 5 * 2 ^ 32), w64 (7 * 2 ^ 32), 0, 1], by decide +kernel⟩

theorem test_commit_sched_share_default : ∃ (s : State) (cs : Nat) (d : List W64), (Presents s cs 0xEA d) ∧ (df d 0 0 2 = 2) ∧ (enableOf d = false) ∧ (Fresh s cs 0xEA (stampKey okSched (2 ^ 21 + df d 0 32 12))) ∧ answered (exec (.commitSchedShare cs) s) (fun t => decide (t = ctlComplete (grantCommit ({ s with sw := { s.sw with share := (tput 0 s.sw.share (df d 0 32 12) 0), shareSt := (tput {} s.sw.shareSt (df d 0 32 12) { tget {} s.sw.shareSt (df d 0 32 12) with enabled := false, reason := 0 }) } }) cs 0xEA ((stampKey okSched (2 ^ 21 + df d 0 32 12)))) cs 0 (some (statusWord (tget {} t.sw.shareSt (df d 0 32 12)))) (some (stampKey okSched (2 ^ 21 + df d 0 32 12))) 64)) = true :=
  ⟨prog pool 0xEA [w64 (2 + 9 * 2 ^ 32), 0, 0, 0], 0, [w64 (2 + 9 * 2 ^ 32), 0, 0, 0], by decide +kernel⟩

theorem test_commit_gate_entry : ∃ (s : State) (cs : Nat) (d : List W64), (Presents s cs 0xEB d) ∧ (df d 0 0 2 = 0) ∧ (enableOf d = true) ∧ (Fresh s cs 0xEB (gateKey d true)) ∧ (reservedSet d gateMasks = false) ∧ (df d 0 8 8 ≤ 191) ∧ (64 ≤ df d 1 0 24) ∧ (df d 1 0 24 ≤ 16000000) ∧ ((swPort s (df d 0 8 8)).active ≠ gateSel d) ∧ answered (exec (.commitGateEntry cs) s) (fun t => decide (Completed s t cs 0 ∧ tget {} (gateList (swPort t (df d 0 8 8)) (gateSel d)).ents (df d 0 24 8) = { dur := df d 1 0 24, open_ := wd d 2 } ∧ (swPort t (df d 0 8 8)).active = (swPort s (df d 0 8 8)).active ∧ t = ctlComplete (grantCommit (setSwPort s (df d 0 8 8) (setGateList (swPort s (df d 0 8 8)) (gateSel d) { (gateList (swPort s (df d 0 8 8)) (gateSel d)) with ents := tput {} (gateList (swPort s (df d 0 8 8)) (gateSel d)).ents (df d 0 24 8) { dur := df d 1 0 24, open_ := wd d 2 }, status := { (gateList (swPort s (df d 0 8 8)) (gateSel d)).status with reason := 0 } })) cs 0xEB ((gateKey d true))) cs 0 (some (statusWord (gateList (swPort t (df d 0 8 8)) (gateSel d)).status)) (some (gateKey d true)) 64)) = true :=
  ⟨prog pool 0xEB [w64 (191 * 2 ^ 8 + 2 ^ 16 + 255 * 2 ^ 24), 64, 7, 1], 0, [w64 (191 * 2 ^ 8 + 2 ^ 16 + 255 * 2 ^ 24), 64, 7, 1], by decide +kernel⟩

theorem test_commit_gate_list : ∃ (s : State) (cs : Nat) (d : List W64), (Presents s cs 0xEB d) ∧ (df d 0 0 2 = 1) ∧ (enableOf d = true) ∧ (Fresh s cs 0xEB (gateKey d false)) ∧ (listReason s d = 0) ∧ answered (exec (.commitGateList cs) s) (fun t => decide (Committed s t cs 0 (statusWord (accepted (gateList (swPort s (df d 0 8 8)) (gateSel d)).status)) ∧ (swPort t (df d 0 8 8)).next.map (fun n => (n.list, n.cycle, n.count, n.base)) = some (gateSel d, df d 1 0 24, df d 1 32 8, (wd d 2).toNat) ∧ (swPort t (df d 0 8 8)).active = (swPort s (df d 0 8 8)).active ∧ t = ctlComplete (grantCommit (setSwPort s (df d 0 8 8) (setGateList { swPort s (df d 0 8 8) with next := some { list := gateSel d, start := if cycleOff (df d 1 0 24) (wd d 2).toNat s.now = 0 then s.now else s.now + (df d 1 0 24 - cycleOff (df d 1 0 24) (wd d 2).toNat s.now), cycle := df d 1 0 24, count := df d 1 32 8, base := (wd d 2).toNat } } (gateSel d) { (gateList (swPort s (df d 0 8 8)) (gateSel d)) with status := accepted (gateList (swPort s (df d 0 8 8)) (gateSel d)).status })) cs 0xEB ((gateKey d false))) cs 0 (some (statusWord (accepted (gateList (swPort s (df d 0 8 8)) (gateSel d)).status))) (some (gateKey d false)) 64)) = true :=
  ⟨prog { pool with now := 1500, sw := { pool.sw with ports := [(3, { listA := { ents := [(0, { dur := 1000, open_ := 1 })] } })] } } 0xEB [w64 (1 + 3 * 2 ^ 8), 1000, 0, 1], 0, [w64 (1 + 3 * 2 ^ 8), 1000, 0, 1], by decide +kernel⟩

theorem test_commit_gate_list_off : ∃ (s : State) (cs : Nat) (d : List W64), (Presents s cs 0xEB d) ∧ (df d 0 0 2 = 1) ∧ (df d 0 8 8 ≤ 191) ∧ ((swPort s (df d 0 8 8)).active = gateSel d) ∧ ((swPort s (df d 0 8 8)).next = none) ∧ (enableOf d = false) ∧ (Fresh s cs 0xEB (gateKey d false)) ∧ answered (exec (.commitGateList cs) s) (fun t => decide (t = ctlComplete (grantCommit (setSwPort s (df d 0 8 8) { setGateList (swPort s (df d 0 8 8)) (gateSel d) { (gateList (swPort s (df d 0 8 8)) (gateSel d)) with status := { (gateList (swPort s (df d 0 8 8)) (gateSel d)).status with enabled := false, reason := 0 } } with stop := some (s.now + ((gateList (swPort s (df d 0 8 8)) (gateSel d)).cycle - cycleOff (gateList (swPort s (df d 0 8 8)) (gateSel d)).cycle (gateList (swPort s (df d 0 8 8)) (gateSel d)).base s.now)) }) cs 0xEB ((gateKey d false))) cs 0 (some (statusWord (gateList (swPort t (df d 0 8 8)) (gateSel d)).status)) (some (gateKey d false)) 64)) = true :=
  ⟨prog { pool with now := 1500, sw := { pool.sw with ports := [(3, { active := 1, listA := { cycle := 1000 } })] } } 0xEB [w64 (1 + 3 * 2 ^ 8), 0, 0, 0], 0, [w64 (1 + 3 * 2 ^ 8), 0, 0, 0], by decide +kernel⟩

theorem test_commit_mirror_session : ∃ (s : State) (cs : Nat) (d : List W64), (Presents s cs 0xEC d) ∧ (df d 0 0 2 = 0) ∧ (enableOf d = true) ∧ (Fresh s cs 0xEC (stampKey okMirror (df d 0 4 4))) ∧ (partsDiffer s (df d 0 16 8) (df d 0 32 12) (bit (wd d 0) 10) = false) ∧ (bit (wd d 0) 10 = true ∨ (comp s (df d 0 32 12)).state ≠ 0) ∧ (reservedSet d mirrorMasks = false) ∧ (df d 0 16 8 < 200 ∨ df d 0 16 8 = 255) ∧ answered (exec (.commitMirrorSession cs) s) (fun t => decide (Committed s t cs 0 (statusWord (accepted (mirror s (df d 0 4 4)).status)) ∧ mirror t (df d 0 4 4) = { status := accepted (mirror s (df d 0 4 4)).status, dir := df d 0 8 1, payload := bit (wd d 0) 9, anyComp := bit (wd d 0) 10, port := df d 0 16 8, comp := df d 0 32 12, tcMask := df d 0 48 8, n := df d 1 0 20 + 1 } ∧ t = ctlComplete (grantCommit { s with sw := { s.sw with mirrors := tput {} s.sw.mirrors (df d 0 4 4) (tget {} t.sw.mirrors (df d 0 4 4)) } } cs 0xEC ((stampKey okMirror (df d 0 4 4)))) cs 0 (some (statusWord (accepted (mirror s (df d 0 4 4)).status))) (some (stampKey okMirror (df d 0 4 4))) 64)) = true :=
  ⟨prog pool 0xEC [w64 (15 * 2 ^ 4 + 2 ^ 10 + 255 * 2 ^ 16 + 7 * 2 ^ 48), w64 (2 ^ 20 - 1), 0, 1], 0, [w64 (15 * 2 ^ 4 + 2 ^ 10 + 255 * 2 ^ 16 + 7 * 2 ^ 48), w64 (2 ^ 20 - 1), 0, 1], by decide +kernel⟩

theorem test_commit_mirror_session_off : ∃ (s : State) (cs : Nat) (d : List W64), (Presents s cs 0xEC d) ∧ (df d 0 0 2 = 0) ∧ (enableOf d = false) ∧ (Fresh s cs 0xEC (stampKey okMirror (df d 0 4 4))) ∧ answered (exec (.commitMirrorSession cs) s) (fun t => decide (t = ctlComplete (grantCommit (setMirror s (df d 0 4 4) { mirror s (df d 0 4 4) with status := { (mirror s (df d 0 4 4)).status with enabled := false, reason := 0 } }) cs 0xEC ((stampKey okMirror (df d 0 4 4)))) cs 0 (some (statusWord (mirror t (df d 0 4 4)).status)) (some (stampKey okMirror (df d 0 4 4))) 64)) = true :=
  ⟨prog pool 0xEC [w64 (15 * 2 ^ 4), 0, 0, 0], 0, [w64 (15 * 2 ^ 4), 0, 0, 0], by decide +kernel⟩

theorem test_commit_mirror_sampler : ∃ (s : State) (cs : Nat) (d : List W64), (Presents s cs 0xEC d) ∧ (df d 0 0 2 = 1) ∧ (enableOf d = true) ∧ (Fresh s cs 0xEC (stampKey okMirror (16 + df d 0 16 8))) ∧ (reservedSet d mirrorMasks = false) ∧ (df d 0 16 8 ≤ 199) ∧ (64 ≤ df d 1 0 32) ∧ (df d 1 0 32 ≤ 1000000) ∧ answered (exec (.commitMirrorSampler cs) s) (fun t => decide (Committed s t cs 0 (statusWord (accepted (swPort s (df d 0 16 8)).smpSt)) ∧ swPort t (df d 0 16 8) = { swPort s (df d 0 16 8) with smpSt := accepted (swPort s (df d 0 16 8)).smpSt, smpOn := true, smpPeriod := df d 1 0 32, smpRecord := bit (wd d 1) 32, smpMask := wd d 2 } ∧ t = ctlComplete (grantCommit { s with sw := { s.sw with ports := tput {} s.sw.ports (df d 0 16 8) (tget {} t.sw.ports (df d 0 16 8)) } } cs 0xEC ((stampKey okMirror (16 + df d 0 16 8)))) cs 0 (some (statusWord (accepted (swPort s (df d 0 16 8)).smpSt))) (some (stampKey okMirror (16 + df d 0 16 8))) 64)) = true :=
  ⟨prog pool 0xEC [w64 (1 + 199 * 2 ^ 16), w64 (64 + 2 ^ 32), 5, 1], 0, [w64 (1 + 199 * 2 ^ 16), w64 (64 + 2 ^ 32), 5, 1], by decide +kernel⟩

theorem test_commit_mirror_sampler_off : ∃ (s : State) (cs : Nat) (d : List W64), (Presents s cs 0xEC d) ∧ (df d 0 0 2 = 1) ∧ (df d 0 16 8 ≤ 199) ∧ (enableOf d = false) ∧ (Fresh s cs 0xEC (stampKey okMirror (16 + df d 0 16 8))) ∧ answered (exec (.commitMirrorSampler cs) s) (fun t => decide (t = ctlComplete (grantCommit (setSwPort s (df d 0 16 8) { swPort s (df d 0 16 8) with smpSt := { (swPort s (df d 0 16 8)).smpSt with enabled := false, reason := 0 }, smpOn := false }) cs 0xEC ((stampKey okMirror (16 + df d 0 16 8)))) cs 0 (some (statusWord (swPort t (df d 0 16 8)).smpSt)) (some (stampKey okMirror (16 + df d 0 16 8))) 64)) = true :=
  ⟨prog pool 0xEC [w64 (1 + 199 * 2 ^ 16), 0, 0, 0], 0, [w64 (1 + 199 * 2 ^ 16), 0, 0, 0], by decide +kernel⟩

theorem test_commit_port : ∃ (s : State) (cs : Nat) (d : List W64), (Presents s cs 0xED d) ∧ (df d 0 0 1 = 0) ∧ (enableOf d = true) ∧ (Fresh s cs 0xED (stampKey okPort (df d 0 8 8))) ∧ (portReason s d = 0) ∧ answered (exec (.commitPort cs) s) (fun t => decide (t = ctlComplete (grantCommit (applyPort s (df d 0 8 8) d) cs 0xED ((stampKey okPort (df d 0 8 8)))) cs 0 (some (statusWord (port (applyPort s (df d 0 8 8) d) (df d 0 8 8)).status)) (some (stampKey okPort (df d 0 8 8))) 64)) = true :=
  ⟨prog { pool with pc := { pool.pc with tState := 1 } } 0xED [w64 (190 * 2 ^ 8), w64 (1000 + 16 * 2 ^ 48), 0, 1], 0, [w64 (190 * 2 ^ 8), w64 (1000 + 16 * 2 ^ 48), 0, 1], by decide +kernel⟩

theorem test_commit_port_new : ∃ (s : State) (cs : Nat) (d : List W64), (Presents s cs 0xED d) ∧ (df d 0 0 1 = 0) ∧ (enableOf d = true) ∧ (Fresh s cs 0xED (stampKey okPort (df d 0 8 8))) ∧ (portReason s d = 0) ∧ ((port s (df d 0 8 8)).state = 0) ∧ (df d 0 19 3 = 0) ∧ (s.pc.tState = 1) ∧ (timeSource (setPort s (df d 0 8 8) { port s (df d 0 8 8) with timeRole := df d 0 22 2 }) = true) ∧ answered (exec (.commitPort cs) s) (fun t => decide (Committed s t cs 0 (statusWord (accepted (port s (df d 0 8 8)).status)) ∧ port t (df d 0 8 8) = { port s (df d 0 8 8) with mode := df d 0 17 1, prot := decide (df d 0 18 1 = 1), test := 0, timeRole := df d 0 22 2, doze := df d 1 0 16, asym := df d 1 16 16, epBase := df d 1 32 16, epCount := df d 1 48 5, status := accepted (port s (df d 0 8 8)).status, state := 1, stateT := s.now } ∧ t = ctlComplete (grantCommit (applyPort s (df d 0 8 8) d) cs 0xED ((stampKey okPort (df d 0 8 8)))) cs 0 (some (statusWord (port t (df d 0 8 8)).status)) (some (stampKey okPort (df d 0 8 8))) 64)) = true :=
  ⟨prog { pool with pc := { pool.pc with tState := 1 } } 0xED [w64 (190 * 2 ^ 8), w64 (1000 + 16 * 2 ^ 48), 0, 1], 0, [w64 (190 * 2 ^ 8), w64 (1000 + 16 * 2 ^ 48), 0, 1], by decide +kernel⟩

theorem test_commit_port_disable : ∃ (s : State) (cs : Nat) (d : List W64), (Presents s cs 0xED d) ∧ (df d 0 0 1 = 0) ∧ (enableOf d = false) ∧ (Fresh s cs 0xED (stampKey okPort (df d 0 8 8))) ∧ (df d 0 8 8 ≤ 191) ∧ (portUp s (df d 0 8 8) = false) ∧ answered (exec (.commitPort cs) s) (fun t => decide (Completed s t cs 0 ∧ (port t (df d 0 8 8)).state = 0 ∧ (port t (df d 0 8 8)).status.enabled = false ∧ t = ctlComplete (grantCommit (setPort (portGoesDown s (df d 0 8 8) 0) (df d 0 8 8) { port (portGoesDown s (df d 0 8 8) 0) (df d 0 8 8) with status := { (port (portGoesDown s (df d 0 8 8) 0) (df d 0 8 8)).status with enabled := false, reason := 0 } }) cs 0xED ((stampKey okPort (df d 0 8 8)))) cs 0 (some (statusWord (port t (df d 0 8 8)).status)) (some (stampKey okPort (df d 0 8 8))) 64)) = true :=
  ⟨prog { pool with pc := { pool.pc with ports := [(8, { state := 3, status := { enabled := true } })] } } 0xED [w64 (8 * 2 ^ 8), 0, 0, 0], 0, [w64 (8 * 2 ^ 8), 0, 0, 0], by decide +kernel⟩

theorem test_commit_port_disable_up : ∃ (s : State) (cs : Nat) (d : List W64), (Presents s cs 0xED d) ∧ (df d 0 0 1 = 0) ∧ (enableOf d = false) ∧ (Fresh s cs 0xED (stampKey okPort (df d 0 8 8))) ∧ (df d 0 8 8 ≤ 191) ∧ answered (exec (.commitPort cs) s) (fun t => decide (t = ctlComplete (grantCommit (setPort (portGoesDown s (df d 0 8 8) 0) (df d 0 8 8) { port (portGoesDown s (df d 0 8 8) 0) (df d 0 8 8) with status := { (port (portGoesDown s (df d 0 8 8) 0) (df d 0 8 8)).status with enabled := false, reason := 0 } }) cs 0xED ((stampKey okPort (df d 0 8 8)))) cs 0 (some (statusWord { (port (portGoesDown s (df d 0 8 8) 0) (df d 0 8 8)).status with enabled := false, reason := 0 })) (some (stampKey okPort (df d 0 8 8))) 64)) = true :=
  ⟨prog { pool with pc := { pool.pc with ports := [(8, { state := 4, profile := 1, peerId := 9, status := { enabled := true } })] } } 0xED [w64 (8 * 2 ^ 8), 0, 0, 0], 0, [w64 (8 * 2 ^ 8), 0, 0, 0], by decide +kernel⟩

theorem test_commit_port_pair : ∃ (s : State) (cs : Nat) (d : List W64), (Presents s cs 0xED d) ∧ (df d 0 0 1 = 1) ∧ (enableOf d = true) ∧ (Fresh s cs 0xED (stampKey okPort (256 + df d 0 8 8))) ∧ (df d 0 8 8 < 48) ∧ (((List.range 4).all fun i => !portNamed s (4 * df d 0 8 8 + i) || decide ((port s (4 * df d 0 8 8 + i)).state = 0)) = true) ∧ (reservedSet d portMasks = false) ∧ ((pair s (df d 0 8 8)).split = false) ∧ (df d 0 16 1 = 1) ∧ answered (exec (.commitPortPair cs) s) (fun t => decide (Committed s t cs 0 1 ∧ pair t (df d 0 8 8) = { pair s (df d 0 8 8) with split := true, status := { enabled := true } } ∧ ((List.range 4).all (fun i => decide ((swPort t (4 * df d 0 8 8 + i)).reserve = 192)) = true) ∧ t = ctlComplete (grantCommit (((List.range 4).map (4 * df d 0 8 8 + ·)).foldl (fun s p => setSwPort s p { swPort s p with reserve := 192 }) (setPair s (df d 0 8 8) (pair t (df d 0 8 8)))) cs 0xED ((stampKey okPort (256 + df d 0 8 8)))) cs 0 (some 1) (some (stampKey okPort (256 + df d 0 8 8))) 64)) = true :=
  ⟨prog pool 0xED [w64 (1 + 47 * 2 ^ 8 + 2 ^ 16), 0, 0, 1], 0, [w64 (1 + 47 * 2 ^ 8 + 2 ^ 16), 0, 0, 1], by decide +kernel⟩

theorem test_commit_window : ∃ (s : State) (cs : Nat) (d : List W64), (Presents s cs 0xEE d) ∧ (enableOf d = true) ∧ (Fresh s cs 0xEE (stampKey okWindow (df d 0 0 16))) ∧ (windowReason s d = 0) ∧ answered (exec (.commitWindow cs) s) (fun t => decide (Committed s t cs 0 (statusWord (accepted (window s (df d 0 0 8) (df d 0 8 8)).status)) ∧ window t (df d 0 0 8) (df d 0 8 8) = { status := accepted (window s (df d 0 0 8) (df d 0 8 8)).status, base := df d 0 16 40, log2 := df d 2 0 6, fa := df d 1 0 60, rights := df d 2 6 3, comp := df d 2 16 12, region := df d 2 32 16, srcId := df d 2 48 16, rkey := df d 3 32 32 } ∧ t = ctlComplete (grantCommit { s with pc := { s.pc with wins := tput {} s.pc.wins (df d 0 0 8 * 256 + df d 0 8 8) (tget {} t.pc.wins (df d 0 0 8 * 256 + df d 0 8 8)) } } cs 0xEE ((stampKey okWindow (df d 0 0 16)))) cs 0 (some (statusWord (accepted (window s (df d 0 0 8) (df d 0 8 8)).status))) (some (stampKey okWindow (df d 0 0 16))) 64)) = true :=
  ⟨prog { pool with pc := { pool.pc with ports := [(2, { mode := 1 })] } } 0xEE [w64 (2 + 255 * 2 ^ 8 + 2 ^ 32), w64 (2 ^ 17), w64 (16 + 5 * 2 ^ 16 + 9 * 2 ^ 48), w64 (1 + 77 * 2 ^ 32)], 0, [w64 (2 + 255 * 2 ^ 8 + 2 ^ 32), w64 (2 ^ 17), w64 (16 + 5 * 2 ^ 16 + 9 * 2 ^ 48), w64 (1 + 77 * 2 ^ 32)], by decide +kernel⟩

theorem test_commit_window_off : ∃ (s : State) (cs : Nat) (d : List W64), (Presents s cs 0xEE d) ∧ (df d 0 0 8 ≤ 191) ∧ (enableOf d = false) ∧ (Fresh s cs 0xEE (stampKey okWindow (df d 0 0 16))) ∧ answered (exec (.commitWindow cs) s) (fun t => decide (t = ctlComplete (grantCommit (setWindow s (df d 0 0 8) (df d 0 8 8) { window s (df d 0 0 8) (df d 0 8 8) with status := { (window s (df d 0 0 8) (df d 0 8 8)).status with enabled := false, reason := 0 } }) cs 0xEE ((stampKey okWindow (df d 0 0 16)))) cs 0 (some (statusWord (window t (df d 0 0 8) (df d 0 8 8)).status)) (some (stampKey okWindow (df d 0 0 16))) 64)) = true :=
  ⟨prog pool 0xEE [2, 0, 0, 0], 0, [2, 0, 0, 0], by decide +kernel⟩

theorem test_frame_ingress : ∃ (s : State) (p : Nat) (f : Frame), (working s = true) ∧ (portUp s p = true) ∧ (s.cc.fenceAll = false) ∧ ((port s p).mode = 0) ∧ ((port s p).profile = 0) ∧ (ingressRefusal s p f = 0) ∧ (meterFor s p f = none) ∧ (lossless f.tc = true) ∧ (s.sw.mirrors = []) ∧ (fifoFull (port s p) = false) ∧ answered (exec (.frameIngress f p) s) (fun t => decide ((swPort t p).waiting = (swPort s p).waiting ++ [{ f := f, inPort := p, cells := frameCells f, since := s.now }] ∧ tget 0 (port t p).granted f.tc = tget 0 (port s p).granted f.tc - frameCells f ∧ (port t p).rxFrames = (port s p).rxFrames.erase f ∧ t = ingressSeen (judgeFrame (leaveFifo s p f) p f).1 p (judgeFrame (leaveFifo s p f) p f).2.1 f (judgeFrame (leaveFifo s p f) p f).2.2)) = true :=
  ⟨{ pool with pc := { pool.pc with ports := [(190, { state := 4, profile := 0, granted := [(2, 10)], rxFrames := [{ op := 15, tc := 2 }] })] } }, 190, { op := 15, tc := 2 }, by decide +kernel⟩

theorem test_frame_ingress_window_miss : ∃ (s : State) (p : Nat) (f : Frame), (working s = true) ∧ (portUp s p = true) ∧ (s.cc.fenceAll = false) ∧ ((port s p).mode = 1) ∧ (f.op = 1) ∧ (f.dst / 2 ^ 40 = 0) ∧ (f.comp = 0) ∧ (f.region = 0) ∧ (f.rkey = 0) ∧ (f.stream = 0) ∧ (f.tag = 0) ∧ (f.issueT = 0) ∧ (windowAt s p f.dst = none) ∧ (s.sw.mirrors = []) ∧ (f.rsw = 0) ∧ answered (exec (.frameIngress f p) s) (fun t => decide (t.te.out = s.te.out ++ [{ f := mkCpl f 3 [], via := some p }] ∧ tget 0 (port t p).ctr 7 = satInc (tget 0 (port s p).ctr 7) 1 ∧ t = ingressSeen (judgeFrame (leaveFifo s p f) p f).1 p (judgeFrame (leaveFifo s p f) p f).2.1 f (judgeFrame (leaveFifo s p f) p f).2.2)) = true :=
  ⟨{ pool with pc := { pool.pc with ports := [(2, { state := 4, profile := 2, mode := 1 })] } }, 2, { op := 1, dst := 2 ^ 40 - 32, len := 32 }, by decide +kernel⟩

theorem test_frame_ingress_judged : ∃ (s : State) (p : Nat) (f : Frame), (working s = true) ∧ (portUp s p = true) ∧ (s.cc.fenceAll = false) ∧ answered (exec (.frameIngress f p) s) (fun t => decide (t = ingressSeen (judgeFrame (leaveFifo s p f) p f).1 p (judgeFrame (leaveFifo s p f) p f).2.1 f (judgeFrame (leaveFifo s p f) p f).2.2)) = true :=
  ⟨{ pool with pc := { pool.pc with ports := [(190, { state := 4, profile := 0, granted := [(2, 10)], rxFrames := [{ op := 15, tc := 2 }] })] } }, 190, { op := 15, tc := 2 }, by decide +kernel⟩

theorem test_frame_ingress_fenced : ∃ (s : State) (p : Nat) (f : Frame), (working s = true) ∧ (portUp s p = true) ∧ (s.cc.fenceAll = true) ∧ answered (exec (.frameIngress f p) s) (fun t => decide (t = ingressSeen (fenceFrame (leaveFifo s p f) p f) p f f true)) = true :=
  ⟨{ pool with cc := { pool.cc with fenceAll := true },  pc := { pool.pc with ports := [(190, { state := 4, profile := 0, granted := [(2, 10)], rxFrames := [{ op := 15, tc := 2 }] })] } }, 190, { op := 15, tc := 2 }, by decide +kernel⟩

theorem test_frame_admit : ∃ (s : State) (p i e q : Nat) (w : QFrame), (working s = true) ∧ (p < 192) ∧ ((swPort s p).waiting[i]? = some w) ∧ (firstInReserve (swPort s p).waiting i w.f = true) ∧ (w.f.op = 0x0F) ∧ (egressPort (egressOf s { f := w.f }) = some e) ∧ (queueOf s e w.f = q) ∧ (alphaOk s e q (frameCells w.f) false = true) ∧ answered (exec (.frameAdmit p i) s) (fun t => decide ((queue t e q).frames = (queue s e q).frames ++ [{ f := w.f, inPort := p, cells := frameCells w.f, since := w.since, ord := s.sw.nextOrd }] ∧ (swPort t p).waiting = (swPort s p).waiting.eraseIdx i ∧ t.sw.nextOrd = s.sw.nextOrd + 1 ∧ t = leaveReserve (enqueue (portOutDone s w.f) e w.f p w.since) p i)) = true :=
  ⟨{ pool with pc := { pool.pc with ports := [(2, { state := 5, profile := 0, peerId := 3 })] }, sw := { pool.sw with ports := [(2, { waiting := [{ f := { op := 15, tc := 2, src := 0xF000 }, inPort := 2, cells := 1, since := 0 }] })] } }, 2, 0, 192, 2, { f := { op := 15, tc := 2, src := 0xF000 }, inPort := 2, cells := 1, since := 0 }, by decide +kernel⟩

theorem test_frame_admitted : ∃ (s : State) (p i : Nat) (w : QFrame) (u : State), (working s = true) ∧ (p < 192) ∧ ((swPort s p).waiting[i]? = some w) ∧ (firstInReserve (swPort s p).waiting i w.f = true) ∧ (admitFrame s p { f := w.f } w.since = some u) ∧ answered (exec (.frameAdmit p i) s) (fun t => decide (t = leaveReserve u p i)) = true :=
  ⟨{ pool with pc := { pool.pc with ports := [(2, { state := 5, profile := 0, peerId := 3 })] }, sw := { pool.sw with ports := [(2, { waiting := [{ f := { op := 15, tc := 2, src := 0xF000 }, inPort := 2, cells := 1, since := 0 }] })] } }, 2, 0, { f := { op := 15, tc := 2, src := 0xF000 }, inPort := 2, cells := 1, since := 0 }, enqueue { pool with pc := { pool.pc with ports := [(2, { state := 5, profile := 0, peerId := 3 })] }, sw := { pool.sw with ports := [(2, { waiting := [{ f := { op := 15, tc := 2, src := 0xF000 }, inPort := 2, cells := 1, since := 0 }] })] } } 192 { op := 15, tc := 2, src := 0xF000 } 2 0, by decide +kernel⟩

theorem test_frame_admit_waits : ∃ (s : State) (p i : Nat) (w : QFrame), (working s = true) ∧ (p < 192) ∧ ((swPort s p).waiting[i]? = some w) ∧ (firstInReserve (swPort s p).waiting i w.f = false ∨ admitFrame s p { f := w.f } w.since = none) ∧ answered (exec (.frameAdmit p i) s) (fun t => decide (t = s)) = true :=
  ⟨(fun (x : State) => { x with sw := { x.sw with queues := [(192 * 64 + 2, { frames := [{ f := {}, cells := 786000 }] })] } }) { pool with pc := { pool.pc with ports := [(2, { state := 5, profile := 0, peerId := 3 })] }, sw := { pool.sw with ports := [(2, { waiting := [{ f := { op := 15, tc := 2, src := 0xF000 }, inPort := 2, cells := 1, since := 0 }] })] } }, 2, 0, { f := { op := 15, tc := 2, src := 0xF000 }, inPort := 2, cells := 1, since := 0 }, by decide +kernel⟩

theorem test_frame_admit_internal : ∃ (s : State) (i e q : Nat) (o : OutFrame), (working s = true) ∧ (s.te.out[i]? = some o) ∧ ((s.te.out.take i).any (fun x => decide (x.f.tc = o.f.tc)) = false) ∧ (o.f.op = 0x0F) ∧ (egressPort (egressOf { s with te := { s.te with out := s.te.out.eraseIdx i } } o) = some e) ∧ (queueOf s e o.f = q) ∧ (alphaOk s e q (frameCells o.f) false = true) ∧ (s.sw.mirrors = []) ∧ answered (exec (.frameAdmit 192 i) s) (fun t => decide ((queue t e q).frames = (queue s e q).frames ++ [{ f := o.f, inPort := 192, cells := frameCells o.f, since := s.now, ord := s.sw.nextOrd }] ∧ t.te.out = s.te.out.eraseIdx i ∧ t.sw.nextOrd = s.sw.nextOrd + 1 ∧ t = ingressSeen (enqueue (portOutDone { s with te := { s.te with out := s.te.out.eraseIdx i } } o.f) e (if o.via.isSome then o.f else stampRoute s o.f) 192 s.now) 192 o.f o.f false)) = true :=
  ⟨{ pool with te := { pool.te with out := [{ f := { op := 1, src := 7 } }, { f := { op := 15, tc := 2, src := 7 }, via := some 2 }] }, pc := { pool.pc with ports := [(2, { state := 5, profile := 1 })] } }, 1, 2, 2, { f := { op := 15, tc := 2, src := 7 }, via := some 2 }, by decide +kernel⟩

theorem test_frame_admitted_internal : ∃ (s : State) (p i : Nat) (o : OutFrame) (u : State), (working s = true) ∧ (192 ≤ p) ∧ (p < 200) ∧ (s.te.out[i]? = some o) ∧ ((s.te.out.take i).any (fun x => decide (x.f.tc = o.f.tc)) = false) ∧ (admitFrame { s with te := { s.te with out := s.te.out.eraseIdx i } } p { o with f := ownRsw s o.f } s.now = some u) ∧ answered (exec (.frameAdmit p i) s) (fun t => decide (t = ingressSeen u p (ownRsw s o.f) (ownRsw s o.f) false)) = true :=
  ⟨{ pool with te := { pool.te with out := [{ f := { op := 15, tc := 2, src := 7 }, via := some 2 }] }, pc := { pool.pc with ports := [(2, { state := 5, profile := 1 })] } }, 199, 0, { f := { op := 15, tc := 2, src := 7 }, via := some 2 }, enqueue { pool with pc := { pool.pc with ports := [(2, { state := 5, profile := 1 })] } } 2 { op := 15, tc := 2, src := 7 } 199 0, by decide +kernel⟩

theorem test_admission_timeout : ∃ (s : State) (p i : Nat) (w : QFrame), (working s = true) ∧ (p < 192) ∧ ((swPort s p).waiting[i]? = some w) ∧ (requestOp w.f.op = true) ∧ (w.since + (swPort s p).admWait * 1000 ≤ s.now) ∧ answered (exec (.admissionTimeout p i) s) (fun t => decide (t.te.out = s.te.out ++ [{ f := { mkCpl w.f 1 [] with tag := if w.f.op = 0x03 then 0xFFFF else w.f.tag }, via := backBy s p }] ∧ (swPort t p).waiting = (swPort s p).waiting.eraseIdx i ∧ tget 0 (swPort t p).ctr 2 = satInc (tget 0 (swPort s p).ctr 2) 1 ∧ t = endRequest (swCount (leaveReserve s p i) p 2 1) w.f 1 (backBy s p))) = true :=
  ⟨{ pool with now := 8000, sw := { pool.sw with ports := [(2, { waiting := [{ f := { op := 1, tc := 1, src := 7, tag := 5 }, inPort := 2, cells := 1, since := 0 }] })] } }, 2, 0, { f := { op := 1, tc := 1, src := 7, tag := 5 }, inPort := 2, cells := 1, since := 0 }, by decide +kernel⟩

theorem test_egress_select : ∃ (s : State) (p q : Nat) (w : QFrame), (working s = true) ∧ (portNamed s p = true ∨ (192 ≤ p ∧ p < 200)) ∧ (bestQueue (wakeAll s p) p (List.range 64) = some q) ∧ ((queue (wakeAll s p) p q).frames.head? = some w) ∧ (192 ≤ p ∨ ((port s p).dozeTx = false ∧ replayRoom (port s p) (groupFlits (port s p) (frameLen w.f)) = true)) ∧ answered (exec (.egressSelect p) s) (fun t => decide (t = depart (wakeAll s p) p q w)) = true :=
  ⟨{ pool with sw := { pool.sw with queues := [(199 * 64 + 63, { frames := [{ f := { op := 15, tc := 2 }, cells := 1 }, { f := { op := 15 }, cells := 2 }] })] } }, 199, 63, { f := { op := 15, tc := 2 }, cells := 1 }, by decide +kernel⟩

theorem test_egress_select_plain : ∃ (s : State) (p q : Nat) (w : QFrame), (working s = true) ∧ (portNamed s p = true ∨ (192 ≤ p ∧ p < 200)) ∧ (bestQueue (wakeAll s p) p (List.range 64) = some q) ∧ ((queue (wakeAll s p) p q).frames.head? = some w) ∧ (192 ≤ p ∨ ((port s p).dozeTx = false ∧ replayRoom (port s p) (groupFlits (port s p) (frameLen w.f)) = true)) ∧ (s.sw.mirrors = []) ∧ answered (exec (.egressSelect p) s) (fun t => decide ((queue t p q).frames.map (·.f) = (queue (wakeAll s p) p q).frames.tail.map (·.f) ∧ (queue t p q).fTag = finishTag (queue (wakeAll s p) p q) ∧ t = depart (wakeAll s p) p q w)) = true :=
  ⟨{ pool with sw := { pool.sw with queues := [(199 * 64 + 63, { frames := [{ f := { op := 15, tc := 2 }, cells := 1 }, { f := { op := 15 }, cells := 2 }] })] } }, 199, 63, { f := { op := 15, tc := 2 }, cells := 1 }, by decide +kernel⟩

theorem test_egress_select_wakes : ∃ (s : State) (p q : Nat) (w : QFrame), (working s = true) ∧ (portNamed s p = true) ∧ (p < 192) ∧ (bestQueue (wakeAll s p) p (List.range 64) = some q) ∧ ((queue (wakeAll s p) p q).frames.head? = some w) ∧ ((port s p).dozeTx = true) ∧ answered (exec (.egressSelect p) s) (fun t => decide (t = startWake (wakeAll s p) p)) = true :=
  ⟨{ pool with pc := { pool.pc with ports := [(2, { state := 4, profile := 1, dozeTx := true, credit := [(2, 9)] })] }, sw := { pool.sw with queues := [(2 * 64 + 2, { frames := [{ f := { op := 15, tc := 2 }, cells := 1 }] })] } }, 2, 2, { f := { op := 15, tc := 2 }, cells := 1 }, by decide +kernel⟩

theorem test_egress_select_idle : ∃ (s : State) (p : Nat), (working s = true) ∧ (portNamed s p = true ∨ (192 ≤ p ∧ p < 200)) ∧ (bestQueue (wakeAll s p) p (List.range 64) = none) ∧ answered (exec (.egressSelect p) s) (fun t => decide (t = wakeAll s p)) = true :=
  ⟨pool, 199, by decide +kernel⟩

theorem test_gate_entry_boundary : ∃ (s : State) (p : Nat), (working s = true) ∧ (p < 192) ∧ ((swPort s p).active ≠ 0) ∧ answered (exec (.gateEntryBoundary p) s) (fun t => decide (((listedQueues s p).all (fun q => decide ((queue t p q).awake = eligible t p q)) = true) ∧ t = wakeAll s p)) = true :=
  ⟨{ pool with pc := { pool.pc with ports := [(2, { state := 4, credit := [(2, 9)] })] }, sw := { pool.sw with ports := [(2, { active := 1, listA := { cycle := 1000, ents := [(0, { dur := 1000, open_ := 8 })] } })], queues := [(2 * 64 + 3, { awake := true, frames := [{ f := { op := 15, tc := 2 }, cells := 1 }] })] } }, 2, by decide +kernel⟩

theorem test_gate_cycle_start : ∃ (s : State) (p : Nat) (n : GateNext), (working s = true) ∧ (p < 192) ∧ ((swPort s p).next = some n) ∧ (n.start ≤ s.now) ∧ (n.list = 1 ∨ n.list = 2) ∧ answered (exec (.gateCycleStart p) s) (fun t => decide ((swPort t p).active = n.list ∧ (swPort t p).next = none ∧ (gateList (swPort t p) n.list).cycle = n.cycle ∧ (gateList (swPort t p) n.list).ents = (gateList (swPort s p) n.list).ents ∧ t = if (startGates (stopGates (swPort s p) s.now) s.now).active ≠ 0 then startWake (wakeAll (setSwPort s p (startGates (stopGates (swPort s p) s.now) s.now)) p) p else wakeAll (setSwPort s p (startGates (stopGates (swPort s p) s.now) s.now)) p)) = true :=
  ⟨{ pool with now := 5, sw := { pool.sw with ports := [(191, { next := some { list := 2, start := 5, cycle := 1000, count := 3, base := 7 } })] } }, 191, { list := 2, start := 5, cycle := 1000, count := 3, base := 7 }, by decide +kernel⟩

theorem test_gate_cycle_changes : ∃ (s : State) (p : Nat) (x : SwPort), (working s = true) ∧ (p < 192) ∧ ((startGates (stopGates (swPort s p) s.now) s.now) = x) ∧ (x ≠ swPort s p) ∧ answered (exec (.gateCycleStart p) s) (fun t => decide (t = if x.active ≠ 0 then startWake (wakeAll (setSwPort s p x) p) p else wakeAll (setSwPort s p x) p)) = true :=
  ⟨{ pool with now := 5, sw := { pool.sw with ports := [(191, { active := 1, stop := some 5 })] } }, 191, {}, by decide +kernel⟩

theorem test_queue_sample : ∃ (s : State) (p : Nat), (working s = true) ∧ ((swPort s p).smpOn = true) ∧ (s.now % (swPort s p).smpPeriod = 0) ∧ ((swPort s p).smpRecord = false) ∧ answered (exec (.queueSample p) s) (fun t => decide (∀ q : Fin 64, bit (swPort s p).smpMask q.val = true → tget 0 t.sw.hist ((p * 64 + q.val) * 16 + delayBucket (match (queue s p q.val).frames.head? with | none => 0 | some w => s.now - w.since)) = satInc (tget 0 s.sw.hist ((p * 64 + q.val) * 16 + delayBucket (match (queue s p q.val).frames.head? with | none => 0 | some w => s.now - w.since))) 1 ∧ t = (List.range 64).foldl (fun s q => if bit (swPort s p).smpMask q then sampleQueue s p q else s) s)) = true :=
  ⟨{ pool with now := 640, sw := { pool.sw with ports := [(199, { smpOn := true, smpPeriod := 64, smpMask := 2 ^ 63 + 1 })] } }, 199, by decide +kernel⟩

theorem test_queue_sample_records : ∃ (s : State) (p : Nat), (working s = true) ∧ ((swPort s p).smpOn = true) ∧ (s.now % (swPort s p).smpPeriod = 0) ∧ answered (exec (.queueSample p) s) (fun t => decide (t = (List.range 64).foldl (fun s q => if bit (swPort s p).smpMask q then sampleQueue s p q else s) s)) = true :=
  ⟨{ pool with now := 640, sw := { pool.sw with ports := [(199, { smpOn := true, smpPeriod := 64, smpMask := 5, smpRecord := true })] } }, 199, by decide +kernel⟩

theorem test_frame_age_out : ∃ (s : State) (p q i : Nat) (w : QFrame), (mainUp s = true) ∧ (agingMode s p = true) ∧ (q < 64) ∧ (((queue s p q).frames.findIdx? fun w => decide (w.since + (swPort s p).ageLimit * 1000 < s.now)) = some i) ∧ ((queue s p q).frames[i]? = some w) ∧ (w.f.op = 0x01) ∧ (w.f.tc ≤ 5) ∧ answered (exec (.frameAgeOut p q) s) (fun t => decide ((queue t p q).frames.map (·.f) = ((queue s p q).frames.eraseIdx i).map (·.f) ∧ t.te.out = s.te.out ++ [{ f := { mkCpl w.f 6 [] with tag := w.f.tag } }] ∧ tget 0 (swPort t p).ctr 4 = satInc (tget 0 (swPort s p).ctr 4) 1 ∧ t = flushOne (wakeAll (swCount (setQueue s p q { queue s p q with frames := (queue s p q).frames.eraseIdx i }) p 4 1) p) w.f)) = true :=
  ⟨{ pool with now := 2000001, pc := { pool.pc with ports := [(2, { state := 6 })] }, sw := { pool.sw with queues := [(2 * 64 + 1, { frames := [{ f := { op := 1, tc := 1 }, cells := 1 }] })] } }, 2, 1, 0, { f := { op := 1, tc := 1 }, cells := 1 }, by decide +kernel⟩

theorem test_frame_aged_out : ∃ (s : State) (p q i : Nat) (w : QFrame), (mainUp s = true) ∧ (agingMode s p = true) ∧ (q < 64) ∧ (((queue s p q).frames.findIdx? fun w => decide (w.since + (swPort s p).ageLimit * 1000 < s.now)) = some i) ∧ ((queue s p q).frames[i]? = some w) ∧ answered (exec (.frameAgeOut p q) s) (fun t => decide (t = flushOne (wakeAll (swCount (setQueue s p q { queue s p q with frames := (queue s p q).frames.eraseIdx i }) p 4 1) p) w.f)) = true :=
  ⟨{ pool with now := 2000001, pc := { pool.pc with ports := [(2, { state := 6 })] }, sw := { pool.sw with queues := [(2 * 64 + 1, { frames := [{ f := { op := 15, tc := 1 }, cells := 1 }] })] } }, 2, 1, 0, { f := { op := 15, tc := 1 }, cells := 1 }, by decide +kernel⟩

theorem test_aging_to_service : ∃ (s : State) (p : Nat), (mainUp s = true) ∧ (portNamed s p = true) ∧ (portUp s p = false) ∧ (agingMode s p = false) ∧ answered (exec (.agingToService p) s) (fun t => decide (∀ q : Fin 64, (queue t p q.val).frames = [] ∧ t = flushPort s p)) = true :=
  ⟨{ pool with sw := { pool.sw with queues := [(2 * 64 + 1, { frames := [{ f := { op := 1, tc := 1 }, cells := 1 }] })] } }, 2, by decide +kernel⟩

theorem test_route_drain_ack : ∃ (s : State) (sw : Nat), (working s = true) ∧ ((route s sw).draining = []) ∧ answered (exec (.routeDrainAck sw) s) (fun t => decide (t.te.holds = s.te.holds.filter (fun o => decide (faSwitch o.frame.dst ≠ sw)) ∧ t.te.out = (s.te.holds.filter (fun o => decide (faSwitch o.frame.dst = sw))).map (fun o => { f := o.frame }) ++ s.te.out ∧ t = { s with te := { s.te with holds := t.te.holds, out := t.te.out, outst := (s.te.outst.map fun o => if (s.te.holds.filter fun o => decide (faSwitch o.frame.dst = sw)).any (fun x => decide (x.frame.stream = o.frame.stream) && decide (x.frame.tag = o.frame.tag) && decide (x.frame.src = o.frame.src)) then { o with held := false } else o) } })) = true :=
  ⟨{ pool with te := { pool.te with holds := [{ frame := { op := 1, dst := 3 * 2 ^ 48 } }, { frame := { op := 1, dst := 2 ^ 48 } }] } }, 3, by decide +kernel⟩

theorem test_route_hold_timeout : ∃ (s : State) (i : Nat) (h : OutReq), (working s = true) ∧ (s.te.holds[i]? = some h) ∧ (h.issued + ctoNs s h.frame.comp ≤ s.now) ∧ (outEnds { s with te := { s.te with holds := s.te.holds.eraseIdx i } } h.frame = none) ∧ (h.frame.op = 0x01) ∧ answered (exec (.routeHoldTimeout i) s) (fun t => decide (t.te.holds = s.te.holds.eraseIdx i ∧ t.te.out = s.te.out ++ [{ f := { mkCpl h.frame 6 [] with tag := h.frame.tag } }] ∧ t = endRequest { s with te := { s.te with holds := s.te.holds.eraseIdx i } } h.frame 6 none)) = true :=
  ⟨{ pool with now := 10 ^ 12, te := { pool.te with holds := [{ frame := { op := 1, dst := 3 * 2 ^ 48, tag := 8, src := 9 } }] } }, 0, { frame := { op := 1, dst := 3 * 2 ^ 48, tag := 8, src := 9 } }, by decide +kernel⟩

theorem test_route_hold_timeout_own : ∃ (s : State) (i : Nat) (h o : OutReq), (working s = true) ∧ (s.te.holds[i]? = some h) ∧ (h.issued + ctoNs s h.frame.comp ≤ s.now) ∧ (outEnds { s with te := { s.te with holds := s.te.holds.eraseIdx i } } h.frame = some o) ∧ answered (exec (.routeHoldTimeout i) s) (fun t => decide (t = reqDone (outDrop { s with te := { s.te with holds := s.te.holds.eraseIdx i } } o) o 6 false false [])) = true :=
  ⟨{ pool with now := 10 ^ 12, te := { pool.te with outst := [{ frame := { op := 1, dst := 3 * 2 ^ 48, tag := 8, src := 9 }, held := true }], holds := [{ frame := { op := 1, dst := 3 * 2 ^ 48, tag := 8, src := 9 } }] } }, 0, { frame := { op := 1, dst := 3 * 2 ^ 48, tag := 8, src := 9 } }, { frame := { op := 1, dst := 3 * 2 ^ 48, tag := 8, src := 9 }, held := true }, by decide +kernel⟩

theorem test_route_hold_timeout_else : ∃ (s : State) (i : Nat) (h : OutReq), (working s = true) ∧ (s.te.holds[i]? = some h) ∧ (h.issued + ctoNs s h.frame.comp ≤ s.now) ∧ (outEnds { s with te := { s.te with holds := s.te.holds.eraseIdx i } } h.frame = none) ∧ answered (exec (.routeHoldTimeout i) s) (fun t => decide (t = endRequest { s with te := { s.te with holds := s.te.holds.eraseIdx i } } h.frame 6 none)) = true :=
  ⟨{ pool with now := 10 ^ 12, te := { pool.te with holds := [{ frame := { op := 2, dst := 3 * 2 ^ 48, tag := 8, src := 9 } }] } }, 0, { frame := { op := 2, dst := 3 * 2 ^ 48, tag := 8, src := 9 } }, by decide +kernel⟩

theorem test_port_down : ∃ (s : State) (p : Nat), (mainUp s = true) ∧ (portUp s p = true) ∧ (peersAt s p true = []) ∧ (s.sw.routes = []) ∧ ((pair s (p / 4)).swap = 0) ∧ answered (exec (.portDown p) s) (fun t => decide ((port t p).state = 1 ∧ (port t p).stateT = s.now ∧ (port t p).replay = [] ∧ (port t p).mode = (port s p).mode ∧ (sess t (16 + p)).opened = false ∧ t = portGoesDown s p 1)) = true :=
  ⟨{ pool with pc := { pool.pc with ports := [(190, { state := 4, profile := 1, peerId := 9 })] } }, 190, by decide +kernel⟩

theorem test_port_down_goes : ∃ (s : State) (p : Nat), (mainUp s = true) ∧ (portUp s p = true) ∧ answered (exec (.portDown p) s) (fun t => decide (t = portGoesDown s p 1)) = true :=
  ⟨{ pool with pc := { pool.pc with ports := [(190, { state := 4, profile := 1, peerId := 9 })] } }, 190, by decide +kernel⟩

theorem test_flit_receive_bad : ∃ (s : State) (p : Nat) (b : Bytes), (mainUp s = true) ∧ (portNamed s p = true) ∧ (3 ≤ (port s p).state) ∧ ((port s p).state ≤ 5) ∧ (b.length = 256) ∧ (leAt (fecDecode b).1 242 8 ≠ (crc64 ((fecDecode b).1.take 242)).toNat) ∧ answered (exec (.flitReceive p b) s) (fun t => decide ((port t p).nak = true ∧ (port t p).rxSeq = (port s p).rxSeq ∧ (port t p).replay = (port s p).replay ∧ tget 0 (port t p).ctr 1 = satInc (tget 0 (port s p).ctr 1) 1 ∧ t = setPort (pcCount (if (fecDecode b).2 then pcCount s p 0 1 else s) p 1 1) p (wireNop { port (pcCount (if (fecDecode b).2 then pcCount s p 0 1 else s) p 1 1) p with nak := true }))) = true :=
  ⟨linkUp {}, 2, List.replicate 256 0, by decide +kernel⟩

theorem test_flit_receive_nop : ∃ (s : State) (p : Nat) (b : Bytes), (mainUp s = true) ∧ (portNamed s p = true) ∧ (3 ≤ (port s p).state) ∧ ((port s p).state ≤ 5) ∧ (b.length = 256) ∧ (leAt (fecDecode b).1 242 8 = (crc64 ((fecDecode b).1.take 242)).toNat) ∧ (fldN (leAt (fecDecode b).1 236 6) 24 1 = 0) ∧ (fldN (leAt (fecDecode b).1 236 6) 0 4 ≠ 1) ∧ answered (exec (.flitReceive p b) s) (fun t => decide ((port t p).rxSeq = (port s p).rxSeq ∧ t = (ackNak (if (fecDecode b).2 then pcCount s p 0 1 else s) p (fldN (leAt (fecDecode b).1 236 6) 14 10) (decide (fldN (leAt (fecDecode b).1 236 6) 24 1 = 1))))) = true :=
  ⟨linkUp {}, 2, mkFlit [] 0, by decide +kernel⟩

theorem test_flit_receive_payload : ∃ (s : State) (p : Nat) (b : Bytes), (mainUp s = true) ∧ (portNamed s p = true) ∧ (3 ≤ (port s p).state) ∧ ((port s p).state ≤ 5) ∧ (b.length = 256) ∧ (leAt (fecDecode b).1 242 8 = (crc64 ((fecDecode b).1.take 242)).toNat) ∧ (fldN (leAt (fecDecode b).1 236 6) 24 1 = 0) ∧ (fldN (leAt (fecDecode b).1 236 6) 0 4 = 1) ∧ (fldN (leAt (fecDecode b).1 236 6) 25 1 = 0) ∧ (fldN (leAt (fecDecode b).1 236 6) 4 10 = (port s p).rxSeq) ∧ answered (exec (.flitReceive p b) s) (fun t => decide ((port t p).rxSeq = ((port s p).rxSeq + 1) % 1024 ∧ (port t p).nak = false ∧ t = setPort (payload (ackNak (if (fecDecode b).2 then pcCount s p 0 1 else s) p (fldN (leAt (fecDecode b).1 236 6) 14 10) (decide (fldN (leAt (fecDecode b).1 236 6) 24 1 = 1))) p (fldN (leAt (fecDecode b).1 236 6) 4 10) (leAt (fecDecode b).1 236 6) ((fecDecode b).1.take 236)) p (wireNop (port (payload (ackNak (if (fecDecode b).2 then pcCount s p 0 1 else s) p (fldN (leAt (fecDecode b).1 236 6) 14 10) (decide (fldN (leAt (fecDecode b).1 236 6) 24 1 = 1))) p (fldN (leAt (fecDecode b).1 236 6) 4 10) (leAt (fecDecode b).1 236 6) ((fecDecode b).1.take 236)) p)))) = true :=
  ⟨linkUp { rxSeq := 1023 }, 2, mkFlit [] (linkHeader 1 1023 0 false false 0 0), by decide +kernel⟩

theorem test_flit_receive_other : ∃ (s : State) (p : Nat) (b : Bytes), (mainUp s = true) ∧ (portNamed s p = true) ∧ (3 ≤ (port s p).state) ∧ ((port s p).state ≤ 5) ∧ (b.length = 256) ∧ (leAt (fecDecode b).1 242 8 = (crc64 ((fecDecode b).1.take 242)).toNat) ∧ (fldN (leAt (fecDecode b).1 236 6) 0 4 ≠ 1) ∧ answered (exec (.flitReceive p b) s) (fun t => decide (t = ackNak (if (fecDecode b).2 then pcCount s p 0 1 else s) p (fldN (leAt (fecDecode b).1 236 6) 14 10) (decide (fldN (leAt (fecDecode b).1 236 6) 24 1 = 1)))) = true :=
  ⟨linkUp { replay := [{ seq := 4 }, { seq := 5, count := 8 }], state := 4 }, 2, mkFlit [] (linkHeader 0 1 4 true false 0 0), by decide +kernel⟩

theorem test_flit_receive_any_payload : ∃ (s : State) (p : Nat) (b : Bytes), (mainUp s = true) ∧ (portNamed s p = true) ∧ (3 ≤ (port s p).state) ∧ ((port s p).state ≤ 5) ∧ (b.length = 256) ∧ (leAt (fecDecode b).1 242 8 = (crc64 ((fecDecode b).1.take 242)).toNat) ∧ (fldN (leAt (fecDecode b).1 236 6) 0 4 = 1) ∧ answered (exec (.flitReceive p b) s) (fun t => decide (t = setPort (if (fldN (leAt (fecDecode b).1 236 6) 4 10) = (port (ackNak (if (fecDecode b).2 then pcCount s p 0 1 else s) p (fldN (leAt (fecDecode b).1 236 6) 14 10) (decide (fldN (leAt (fecDecode b).1 236 6) 24 1 = 1))) p).rxSeq then (payload (ackNak (if (fecDecode b).2 then pcCount s p 0 1 else s) p (fldN (leAt (fecDecode b).1 236 6) 14 10) (decide (fldN (leAt (fecDecode b).1 236 6) 24 1 = 1))) p (fldN (leAt (fecDecode b).1 236 6) 4 10) (leAt (fecDecode b).1 236 6) ((fecDecode b).1.take 236)) else (ackNak (if (fecDecode b).2 then pcCount s p 0 1 else s) p (fldN (leAt (fecDecode b).1 236 6) 14 10) (decide (fldN (leAt (fecDecode b).1 236 6) 24 1 = 1)))) p (wireNop (port (if (fldN (leAt (fecDecode b).1 236 6) 4 10) = (port (ackNak (if (fecDecode b).2 then pcCount s p 0 1 else s) p (fldN (leAt (fecDecode b).1 236 6) 14 10) (decide (fldN (leAt (fecDecode b).1 236 6) 24 1 = 1))) p).rxSeq then (payload (ackNak (if (fecDecode b).2 then pcCount s p 0 1 else s) p (fldN (leAt (fecDecode b).1 236 6) 14 10) (decide (fldN (leAt (fecDecode b).1 236 6) 24 1 = 1))) p (fldN (leAt (fecDecode b).1 236 6) 4 10) (leAt (fecDecode b).1 236 6) ((fecDecode b).1.take 236)) else (ackNak (if (fecDecode b).2 then pcCount s p 0 1 else s) p (fldN (leAt (fecDecode b).1 236 6) 14 10) (decide (fldN (leAt (fecDecode b).1 236 6) 24 1 = 1)))) p)))) = true :=
  ⟨linkUp { rxSeq := 7 }, 2, mkFlit [] (linkHeader 1 7 0 false true 0 0), by decide +kernel⟩

theorem test_credit_frame : ∃ (s : State) (p tc : Nat) (f : LinkFrame), (mainUp s = true) ∧ (portNamed s p = true) ∧ (3 ≤ (port s p).state) ∧ ((port s p).state ≤ 5) ∧ (f.op = 0x20) ∧ (lfAt f 2 1 = tc) ∧ (lossless tc = true) ∧ answered (exec (.creditFrame p f) s) (fun t => decide (tget 0 (port t p).credit tc = tget 0 (port s p).credit tc + (lfAt f 4 4 + 2 ^ 32 - tget 0 (port s p).seenRet tc) % 2 ^ 32 ∧ tget 0 (port t p).seenRet tc = lfAt f 4 4 ∧ t = wakeAll (setPort (takeLink s p f) p { port (takeLink s p f) p with credit := tmod 0 (port (takeLink s p f) p).credit tc (· + (lfAt f 4 4 + 2 ^ 32 - tget 0 (port (takeLink s p f) p).seenRet tc) % 2 ^ 32), seenRet := tput 0 (port (takeLink s p f) p).seenRet tc (lfAt f 4 4) }) p)) = true :=
  ⟨linkUp { credit := [(5, 7)], seenRet := [(5, 2 ^ 32 - 1)] }, 2, 5, { op := 0x20, body := linkBody 1 [(2, 1, 5), (4, 4, 3)] }, by decide +kernel⟩

theorem test_credit_frame_lossy : ∃ (s : State) (p : Nat) (f : LinkFrame), (mainUp s = true) ∧ (portNamed s p = true) ∧ (3 ≤ (port s p).state) ∧ ((port s p).state ≤ 5) ∧ (f.op = 0x20) ∧ (lossless (lfAt f 2 1) = false) ∧ answered (exec (.creditFrame p f) s) (fun t => decide (t = takeLink s p f)) = true :=
  ⟨linkUp {}, 2, { op := 0x20, body := linkBody 1 [(2, 1, 6), (4, 4, 3)] }, by decide +kernel⟩

theorem test_doze_idle_timeout : ∃ (s : State) (p : Nat), (working s = true) ∧ (portNamed s p = true) ∧ ((port s p).state = 4) ∧ ((port s p).dozeTx = false) ∧ ((port s p).doze ≠ 0) ∧ ((swPort s p).active = 0) ∧ ((port s p).lastTx + (port s p).doze * 1000 ≤ s.now) ∧ (((List.range 64).all fun q => (queue s p q).frames.isEmpty) = true) ∧ answered (exec (.dozeIdleTimeout p) s) (fun t => decide ((port t p).dozeTx = true ∧ (port t p).state = 4 ∧ t = dozeLanes (setPort (sendLink s p { op := 0x23, body := linkBody 1 [] }) p { port (sendLink s p { op := 0x23, body := linkBody 1 [] }) p with dozeTx := true }) p true)) = true :=
  ⟨{ linkUp { state := 4, replay := List.replicate 511 {} } with now := 20000 }, 2, by decide +kernel⟩

theorem test_doze_frame : ∃ (s : State) (p : Nat) (f : LinkFrame), (mainUp s = true) ∧ (portNamed s p = true) ∧ (3 ≤ (port s p).state) ∧ ((port s p).state ≤ 5) ∧ (f.op = 0x23) ∧ answered (exec (.dozeFrame p f) s) (fun t => decide (t = setPort (takeLink s p f) p { port (takeLink s p f) p with dozeRx := true })) = true :=
  ⟨linkUp { rxLinks := [{ op := 0x23 }] }, 2, { op := 0x23 }, by decide +kernel⟩

theorem test_wake_frame : ∃ (s : State) (p : Nat) (f : LinkFrame), (mainUp s = true) ∧ (portNamed s p = true) ∧ (3 ≤ (port s p).state) ∧ ((port s p).state ≤ 5) ∧ (f.op = 0x24) ∧ answered (exec (.wakeFrame p f) s) (fun t => decide (t = setPort (takeLink s p f) p { port (takeLink s p f) p with dozeRx := false })) = true :=
  ⟨linkUp { dozeRx := true, rxLinks := [{ op := 0x24 }] }, 2, { op := 0x24 }, by decide +kernel⟩

theorem test_wake_delay_end : ∃ (s : State) (p u : Nat), (mainUp s = true) ∧ ((port s p).wakeAt = some u) ∧ (u ≤ s.now) ∧ answered (exec (.wakeDelayEnd p) s) (fun t => decide (((t.pc.lanes.all fun l => decide (l.2.port ≠ p) || decide (l.2.logical = 0) || decide (l.2.state ≠ 5)) = true) ∧ (port t p).dozeTx = false ∧ (port t p).wakeAt = none ∧ t = pumpPort (wakePort s p) p)) = true :=
  ⟨{ linkUp { dozeTx := true, wakeAt := some 5 } with now := 5, pc := { (linkUp { dozeTx := true, wakeAt := some 5 }).pc with lanes := [(3, { port := 2, logical := 3, state := 5 })] } }, 2, 5, by decide +kernel⟩

theorem test_key_switch_frame : ∃ (s : State) (p k : Nat) (f : LinkFrame), (mainUp s = true) ∧ (portNamed s p = true) ∧ ((port s p).state ≤ 5) ∧ (f.op = 0x25) ∧ (lfAt f 2 1 = k) ∧ (k < 2) ∧ ((sess s (16 + p)).secured = true) ∧ (((port s p).rxKey.any fun y => decide (y.1 = k)) = true) ∧ (3 ≤ (port s p).state) ∧ answered (exec (.keySwitchFrame p f) s) (fun t => decide (t = tryActive (setPort (takeLink s p f) p { port (takeLink s p f) p with rxKeySel := k, rxGroup := lfAt f 8 8, rxReady := true }) p)) = true :=
  ⟨{ linkUp { rxKey := [(1, (7, 8))] } with ta := { pool.ta with sess := [(18, { secured := true })] } }, 2, 1, { op := 0x25, body := linkBody 1 [(2, 1, 1), (8, 8, 77)] }, by decide +kernel⟩

theorem test_key_switch_frame_unknown : ∃ (s : State) (p : Nat) (f : LinkFrame), (mainUp s = true) ∧ (portNamed s p = true) ∧ (3 ≤ (port s p).state) ∧ ((port s p).state ≤ 5) ∧ (f.op = 0x25) ∧ (((sess s (16 + p)).secured && decide (lfAt f 2 1 < 2) && ((port s p).rxKey.any fun y => decide (y.1 = lfAt f 2 1))) = false) ∧ answered (exec (.keySwitchFrame p f) s) (fun t => decide (t = takeLink s p f)) = true :=
  ⟨{ linkUp { rxKey := [(0, (7, 8))] } with ta := { pool.ta with sess := [(18, { secured := true })] } }, 2, { op := 0x25, body := linkBody 1 [(2, 1, 1), (8, 8, 77)] }, by decide +kernel⟩

theorem test_mac_frame_fails : ∃ (s : State) (p : Nat) (f : LinkFrame) (h : RxFlit) (l : List RxFlit), (mainUp s = true) ∧ (portNamed s p = true) ∧ (3 ≤ (port s p).state) ∧ ((port s p).state ≤ 5) ∧ (f.op = 0x26) ∧ ((port s p).rxSealed = h :: l) ∧ ((port s p).macFails < 2) ∧ (((openGroup (tget (0, 0) (port s p).rxKey (fldN h.hdr 26 1)).1 (tget (0, 0) (port s p).rxKey (fldN h.hdr 26 1)).2 (port s p).rxGroup (h :: l)).2 && decide (lfAt f 8 8 = (port s p).rxGroup)) = false) ∧ answered (exec (.macFrame p f) s) (fun t => decide ((port t p).rxSealed = [] ∧ (port t p).rxSeq = h.seq ∧ (port t p).nak = true ∧ (port t p).macFails = (port s p).macFails + 1 ∧ t = setPort (takeLink s p f) p (wireNop { port (takeLink s p f) p with rxSealed := [], rxSeq := h.seq, nak := true, macFails := (port (takeLink s p f) p).macFails + 1 }))) = true :=
  ⟨linkUp { rxSealed := [{ seq := 9, area := [1] }], macFails := 1 }, 2, { op := 0x26 }, { seq := 9, area := [1] }, [], by decide +kernel⟩

theorem test_mac_frame_third_failure : ∃ (s : State) (p : Nat) (f : LinkFrame) (h : RxFlit) (l : List RxFlit), (mainUp s = true) ∧ (portNamed s p = true) ∧ (3 ≤ (port s p).state) ∧ ((port s p).state ≤ 5) ∧ (f.op = 0x26) ∧ ((port s p).rxSealed = h :: l) ∧ (((openGroup (tget (0, 0) (port s p).rxKey (fldN h.hdr 26 1)).1 (tget (0, 0) (port s p).rxKey (fldN h.hdr 26 1)).2 (port s p).rxGroup (h :: l)).2 && decide (lfAt f 8 8 = (port s p).rxGroup)) = false) ∧ (2 ≤ (port s p).macFails) ∧ answered (exec (.macFrame p f) s) (fun t => decide (t = raiseEvent (pcCount (portGoesDown (takeLink s p f) p 1) p 4 1) 0)) = true :=
  ⟨linkUp { rxSealed := [{ seq := 9, area := [1] }], macFails := 2 }, 2, { op := 0x26 }, { seq := 9, area := [1] }, [], by decide +kernel⟩

theorem test_mac_frame_no_group : ∃ (s : State) (p : Nat) (f : LinkFrame), (mainUp s = true) ∧ (portNamed s p = true) ∧ (3 ≤ (port s p).state) ∧ ((port s p).state ≤ 5) ∧ (f.op = 0x26) ∧ ((port s p).rxSealed = []) ∧ answered (exec (.macFrame p f) s) (fun t => decide (t = takeLink s p f)) = true :=
  ⟨linkUp {}, 2, { op := 0x26 }, by decide +kernel⟩

theorem test_mac_frame_verifies : ∃ (s : State) (p : Nat) (f : LinkFrame) (h : RxFlit) (l : List RxFlit), (mainUp s = true) ∧ (portNamed s p = true) ∧ (3 ≤ (port s p).state) ∧ ((port s p).state ≤ 5) ∧ (f.op = 0x26) ∧ ((port s p).rxSealed = h :: l) ∧ (lfAt f 8 8 = (port s p).rxGroup) ∧ ((openGroup (tget (0, 0) (port s p).rxKey (fldN h.hdr 26 1)).1 (tget (0, 0) (port s p).rxKey (fldN h.hdr 26 1)).2 (port s p).rxGroup (h :: l)).2 = true) ∧ answered (exec (.macFrame p f) s) (fun t => decide (t = (openGroup (tget (0, 0) (port s p).rxKey (fldN h.hdr 26 1)).1 (tget (0, 0) (port s p).rxKey (fldN h.hdr 26 1)).2 (port s p).rxGroup (h :: l)).1.foldl (fun s a => takeArea s p a) (setPort (takeLink s p f) p { port (takeLink s p f) p with rxSealed := [], rxGroup := (port (takeLink s p f) p).rxGroup + 1, macFails := 0 }))) = true :=
  ⟨linkUp { rxSealed := [sealedFlit], macFails := 2 }, 2, { op := 0x26, body := List.replicate 14 0 }, sealedFlit, [], by decide +kernel⟩

theorem test_link_key : ∃ (s : State) (p slot : Nat) (b : Bytes), (mainUp s = true) ∧ (portNamed s p = true) ∧ (3 ≤ (port s p).state) ∧ ((port s p).state ≤ 5) ∧ ((sess s (16 + p)).secured = true) ∧ (b.length = 21) ∧ (leAt b 0 1 = slot) ∧ (slot < 2) ∧ ((port s p).rxReady = false ∨ slot ≠ (port s p).rxKeySel) ∧ answered (exec (.linkKey p b) s) (fun t => decide (tget (0, 0) (port t p).rxKey slot = (ofBE ((b.drop 1).take 16), leAt b 17 4) ∧ (port t p).rxKeySel = (port s p).rxKeySel ∧ t = sendKeymsg (setPort s p { port s p with rxKey := tput (0, 0) (port s p).rxKey slot (ofBE ((b.drop 1).take 16), leAt b 17 4) }) p (spdmMsg 0x7E 0))) = true :=
  ⟨{ linkUp { rxKey := [(0, (7, 8))], rxReady := true } with ta := { pool.ta with sess := [(18, { secured := true })] } }, 2, 1, [1] ++ List.replicate 15 0 ++ [9, 3, 0, 0, 0], by decide +kernel⟩

theorem test_link_key_refused : ∃ (s : State) (p : Nat) (b : Bytes), (mainUp s = true) ∧ (portNamed s p = true) ∧ (3 ≤ (port s p).state) ∧ ((port s p).state ≤ 5) ∧ ((sess s (16 + p)).secured = true) ∧ (b.length ≠ 21 ∨ 1 < leAt b 0 1 ∨ ((port s p).rxReady = true ∧ leAt b 0 1 = (port s p).rxKeySel)) ∧ answered (exec (.linkKey p b) s) (fun t => decide (t = sendKeymsg s p (spdmMsg 0x7F 0x01))) = true :=
  ⟨{ linkUp { rxReady := true, rxKeySel := 1 } with ta := { pool.ta with sess := [(18, { secured := true })] } }, 2, [1] ++ List.replicate 20 0, by decide +kernel⟩

theorem test_rekey_timer : ∃ (s : State) (p : Nat), (mainUp s = true) ∧ (portUp s p = true) ∧ ((port s p).protActive = true) ∧ ((port s p).keyOut = none) ∧ ((sess s (16 + p)).secured = true) ∧ ((decide ((port s p).lastRekey + 600000000000 ≤ s.now) || decide (2 ^ 32 - 2 ^ 16 ≤ (port s p).txGroup)) = true) ∧ answered (exec (.rekeyTimer p) s) (fun t => decide ((port t p).keyOut = some (1 - (port s p).keySel) ∧ (port t p).keySel = (port s p).keySel ∧ (port t p).lastRekey = s.now ∧ t.freeCtr = s.freeCtr + 2)) = true :=
  ⟨{ linkUp { protActive := true, keySel := 1 } with now := 600000000000, ta := { pool.ta with sess := [(18, { secured := true })] } }, 2, by decide +kernel⟩

theorem test_keymsg_frame_request : ∃ (s : State) (p : Nat) (f : LinkFrame), (mainUp s = true) ∧ (portNamed s p = true) ∧ (3 ≤ (port s p).state) ∧ ((port s p).state ≤ 5) ∧ (f.op = 0x29) ∧ (s.cc.stage = 6) ∧ (leAt f.body 0 1 = 0x12) ∧ (leAt f.body 1 1 = 0xE1) ∧ ((sess s (16 + p)).phase = 1) ∧ (linkUnits f ≠ 14) ∧ ((port s p).keyPart = []) ∧ answered (exec (.keymsgFrame p f) s) (fun t => decide (sess t (16 + p) = { sess s (16 + p) with opened := true, phase := 2, missed := 0, lastBeat := s.now } ∧ t = sendKeymsg (setSess (setPort (takeLink s p f) p { port (takeLink s p f) p with keyPart := [] }) (16 + p) { sess (setPort (takeLink s p f) p { port (takeLink s p f) p with keyPart := [] }) (16 + p) with opened := true, phase := 2, missed := 0, lastBeat := s.now }) p (spdmMsg 0x61 0))) = true :=
  ⟨{ linkUp {} with ta := { pool.ta with sess := [(18, { phase := 1 })] } }, 2, { op := 0x29, body := [0x12, 0xE1, 0, 0] }, by decide +kernel⟩

theorem test_keymsg_frame_authenticated : ∃ (s : State) (p : Nat) (f : LinkFrame), (mainUp s = true) ∧ (portNamed s p = true) ∧ (3 ≤ (port s p).state) ∧ ((port s p).state ≤ 5) ∧ (f.op = 0x29) ∧ (leAt f.body 1 1 = 0x61) ∧ ((sess s (16 + p)).phase = 1) ∧ (linkUnits f ≠ 14) ∧ ((port s p).keyPart = []) ∧ answered (exec (.keymsgFrame p f) s) (fun t => decide (sess t (16 + p) = { sess s (16 + p) with opened := true, phase := 2, lastBeat := s.now } ∧ t = sendKeymsg (setSess (setPort (takeLink s p f) p { port (takeLink s p f) p with keyPart := [] }) (16 + p) { sess (setPort (takeLink s p f) p { port (takeLink s p f) p with keyPart := [] }) (16 + p) with opened := true, phase := 2, lastBeat := s.now }) p (spdmMsg 0xE3 0))) = true :=
  ⟨{ linkUp {} with ta := { pool.ta with sess := [(18, { phase := 1 })] } }, 2, { op := 0x29, body := [0x12, 0x61, 0, 0] }, by decide +kernel⟩

theorem test_keymsg_frame_piece : ∃ (s : State) (p : Nat) (f : LinkFrame), (mainUp s = true) ∧ (portNamed s p = true) ∧ (3 ≤ (port s p).state) ∧ ((port s p).state ≤ 5) ∧ (f.op = 0x29) ∧ (linkUnits f = 14) ∧ answered (exec (.keymsgFrame p f) s) (fun t => decide (t = setPort (takeLink s p f) p { port (takeLink s p f) p with keyPart := (port (takeLink s p f) p).keyPart ++ f.body })) = true :=
  ⟨linkUp { keyPart := [7] }, 2, { op := 0x29, body := List.replicate 222 5 }, by decide +kernel⟩

theorem test_keymsg_frame_message : ∃ (s : State) (p : Nat) (f : LinkFrame), (mainUp s = true) ∧ (portNamed s p = true) ∧ (3 ≤ (port s p).state) ∧ ((port s p).state ≤ 5) ∧ (f.op = 0x29) ∧ (linkUnits f ≠ 14) ∧ answered (exec (.keymsgFrame p f) s) (fun _ => decide (True)) = true :=
  ⟨linkUp { keyPart := [0x12, 0xE1] }, 2, { op := 0x29, body := [0, 0] }, by decide +kernel⟩

theorem test_time_sync_period : ∃ (s : State), (mainUp s = true) ∧ (s.pc.lastSync + 125000 ≤ s.now) ∧ (syncPorts s ≠ []) ∧ answered (exec (.timeSyncPeriod) s) (fun t => decide (t.pc.exch = s.pc.exch + 1 ∧ t.pc.lastSync = s.now ∧ t = (syncPorts { s with pc := { s.pc with exch := s.pc.exch + 1, lastSync := s.now } }).foldl (fun u p => sendLink u p { op := 0x21, body := linkBody 2 [(16, 8, s.pc.exch)] }) { s with pc := { s.pc with exch := s.pc.exch + 1, lastSync := s.now } })) = true :=
  ⟨{ linkUp { state := 4, timeRole := 2, replay := List.replicate 511 {} } with now := 125000 }, by decide +kernel⟩

theorem test_time_sync_frame : ∃ (s : State) (p : Nat) (f : LinkFrame), (mainUp s = true) ∧ (portNamed s p = true) ∧ (3 ≤ (port s p).state) ∧ ((port s p).state ≤ 5) ∧ (f.op = 0x21) ∧ ((port s p).timeRole = 1) ∧ answered (exec (.timeSyncFrame p f) s) (fun t => decide (t = sendLink (takeLink s p f) p { op := 0x22, body := linkBody 2 [(8, 8, s.now), (24, 8, lfAt f 16 8)] })) = true :=
  ⟨linkUp { timeRole := 1 }, 2, { op := 0x21, body := linkBody 2 [(8, 8, 5), (16, 8, 9)] }, by decide +kernel⟩

theorem test_time_sync_frame_unanswered : ∃ (s : State) (p : Nat) (f : LinkFrame), (mainUp s = true) ∧ (portNamed s p = true) ∧ (3 ≤ (port s p).state) ∧ ((port s p).state ≤ 5) ∧ (f.op = 0x21) ∧ ((port s p).timeRole ≠ 1) ∧ answered (exec (.timeSyncFrame p f) s) (fun t => decide (t = takeLink s p f)) = true :=
  ⟨linkUp { timeRole := 2 }, 2, { op := 0x21, body := linkBody 2 [(16, 8, 9)] }, by decide +kernel⟩

theorem test_time_reply_frame : ∃ (s : State) (p n t1 : Nat) (f : LinkFrame) (o : Int), (mainUp s = true) ∧ (portNamed s p = true) ∧ ((port s p).state ≤ 5) ∧ (f.op = 0x22) ∧ ((port s p).timeX = some (n, t1)) ∧ (lfAt f 24 8 = n) ∧ (2 ≤ (port s p).timeRole) ∧ (followed s = p) ∧ (exchOffset (port s p) t1 (lfAt f 8 8) (lfAt f 16 8) s.now = o) ∧ (s.pc.haveEst = false) ∧ (s.pc.timeSet = true) ∧ (3 ≤ (port s p).state) ∧ answered (exec (.timeReplyFrame p f) s) (fun t => decide (t.pc.upstream = p ∧ t.pc.tState = 2 ∧ t.pc.lastAcc = s.now ∧ t.pc.estimate = o ∧ t.pc.slew = o / 20 ∧ t = tryActive { (setPort (takeLink s p f) p { port (takeLink s p f) p with timeX := none }) with pc := { (setPort (takeLink s p f) p { port (takeLink s p f) p with timeX := none }).pc with upstream := p, tState := 2, lastAcc := s.now, estimate := o, haveEst := true, slew := o / 20 } } p)) = true :=
  ⟨{ linkUp { timeRole := 2, timeX := some (9, 100) } with now := 300, pc := { (linkUp { timeRole := 2, timeX := some (9, 100) }).pc with upstream := 2, timeSet := true } }, 2, 9, 100, { op := 0x22, body := linkBody 2 [(8, 8, 210), (16, 8, 220), (24, 8, 9)] }, 300, by decide +kernel⟩

theorem test_time_reply_filtered : ∃ (s : State) (p n t1 : Nat) (f : LinkFrame) (o : Int), (mainUp s = true) ∧ (portNamed s p = true) ∧ (3 ≤ (port s p).state) ∧ ((port s p).state ≤ 5) ∧ (f.op = 0x22) ∧ ((port s p).timeX = some (n, t1)) ∧ (lfAt f 24 8 = n) ∧ (2 ≤ (port s p).timeRole) ∧ (followed s = p) ∧ (exchOffset (port s p) t1 (lfAt f 8 8) (lfAt f 16 8) s.now = o) ∧ (s.pc.haveEst = true) ∧ ((o - s.pc.estimate).natAbs ≤ 2000) ∧ (s.pc.timeSet = true) ∧ answered (exec (.timeReplyFrame p f) s) (fun _ => decide (True)) = true :=
  ⟨{ linkUp { timeRole := 2, timeX := some (9, 100) } with now := 300, pc := { (linkUp { timeRole := 2, timeX := some (9, 100) }).pc with upstream := 2, timeSet := true, haveEst := true, estimate := -1700 } }, 2, 9, 100, { op := 0x22, body := linkBody 2 [(8, 8, 210), (16, 8, 220), (24, 8, 9)] }, 300, by decide +kernel⟩

theorem test_time_reply_first : ∃ (s : State) (p n t1 u : Nat) (f : LinkFrame), (mainUp s = true) ∧ (portNamed s p = true) ∧ (3 ≤ (port s p).state) ∧ ((port s p).state ≤ 5) ∧ (f.op = 0x22) ∧ ((port s p).timeX = some (n, t1)) ∧ (lfAt f 24 8 = n) ∧ (2 ≤ (port s p).timeRole) ∧ (followed s = p) ∧ (s.pc.haveEst = false) ∧ (s.pc.timeSet = false) ∧ (((s.now : Int) + exchOffset (port s p) t1 (lfAt f 8 8) (lfAt f 16 8) s.now / 20).toNat = u) ∧ answered (exec (.timeReplyFrame p f) s) (fun t => decide (t = setTime { (setPort (takeLink s p f) p { port (takeLink s p f) p with timeX := none }) with pc := { (setPort (takeLink s p f) p { port (takeLink s p f) p with timeX := none }).pc with upstream := p, tState := 2, lastAcc := u, estimate := 0, haveEst := true, lastSync := u } } u)) = true :=
  ⟨{ linkUp { timeRole := 2, timeX := some (9, 100) } with now := 300 }, 2, 9, 100, 315, { op := 0x22, body := linkBody 2 [(8, 8, 210), (16, 8, 220), (24, 8, 9)] }, by decide +kernel⟩

theorem test_time_reply_unmatched : ∃ (s : State) (p n t1 : Nat) (f : LinkFrame), (mainUp s = true) ∧ (portNamed s p = true) ∧ (3 ≤ (port s p).state) ∧ ((port s p).state ≤ 5) ∧ (f.op = 0x22) ∧ ((port s p).timeX = some (n, t1)) ∧ (lfAt f 24 8 ≠ n ∨ (port s p).timeRole < 2 ∨ followed s ≠ p) ∧ answered (exec (.timeReplyFrame p f) s) (fun t => decide (t = takeLink s p f)) = true :=
  ⟨linkUp { timeRole := 3, timeX := some (9, 100) }, 2, 9, 100, { op := 0x22, body := linkBody 2 [(24, 8, 8)] }, by decide +kernel⟩

theorem test_time_reply_unasked : ∃ (s : State) (p : Nat) (f : LinkFrame), (mainUp s = true) ∧ (portNamed s p = true) ∧ (3 ≤ (port s p).state) ∧ ((port s p).state ≤ 5) ∧ (f.op = 0x22) ∧ ((port s p).timeX = none) ∧ answered (exec (.timeReplyFrame p f) s) (fun t => decide (t = takeLink s p f)) = true :=
  ⟨linkUp { timeRole := 3 }, 2, { op := 0x22, body := linkBody 2 [(24, 8, 8)] }, by decide +kernel⟩

theorem test_time_reply_rejected : ∃ (s : State) (p n t1 : Nat) (f : LinkFrame), (mainUp s = true) ∧ (portNamed s p = true) ∧ (3 ≤ (port s p).state) ∧ ((port s p).state ≤ 5) ∧ (f.op = 0x22) ∧ ((port s p).timeX = some (n, t1)) ∧ (lfAt f 24 8 = n) ∧ (2 ≤ (port s p).timeRole) ∧ (followed s = p) ∧ (s.pc.haveEst = true) ∧ (2000 < (exchOffset (port s p) t1 (lfAt f 8 8) (lfAt f 16 8) s.now - s.pc.estimate).natAbs) ∧ answered (exec (.timeReplyFrame p f) s) (fun t => decide (tget 0 (port t p).ctr 6 = satInc (tget 0 (port s p).ctr 6) 1 ∧ t.pc.estimate = s.pc.estimate ∧ t = pcCount (setPort (takeLink s p f) p { port (takeLink s p f) p with timeX := none }) p 6 1)) = true :=
  ⟨{ linkUp { timeRole := 2, timeX := some (9, 100) } with now := 300, pc := { (linkUp { timeRole := 2, timeX := some (9, 100) }).pc with upstream := 2, haveEst := true, timeSet := true } }, 2, 9, 100, { op := 0x22, body := linkBody 2 [(8, 8, 501), (16, 8, 502), (24, 8, 9)] }, by decide +kernel⟩

theorem test_time_upstream_timeout : ∃ (s : State), (mainUp s = true) ∧ (s.pc.tState = 2) ∧ (s.pc.lastAcc + 20000000 ≤ s.now) ∧ (((syncPorts s).find? fun p => decide (p ≠ s.pc.upstream)) = none) ∧ answered (exec (.timeUpstreamTimeout) s) (fun t => decide (t = { s with pc := { s.pc with upstream := 0xFF, tState := 3, holdT := s.now, haveEst := false, slew := 0 } })) = true :=
  ⟨{ pool with now := 20000000, pc := { pool.pc with tState := 2 } }, by decide +kernel⟩

theorem test_time_upstream_changes : ∃ (s : State) (p : Nat), (mainUp s = true) ∧ (s.pc.tState = 2) ∧ (s.pc.lastAcc + 20000000 ≤ s.now) ∧ (((syncPorts s).find? fun p => decide (p ≠ s.pc.upstream)) = some p) ∧ answered (exec (.timeUpstreamTimeout) s) (fun t => decide (t = { s with pc := { s.pc with upstream := p, lastAcc := s.now, haveEst := false, slew := 0 } })) = true :=
  ⟨{ linkUp { timeRole := 3 } with now := 20000000, pc := { (linkUp { timeRole := 3 }).pc with tState := 2, upstream := 0 } }, 2, by decide +kernel⟩

theorem test_holdover_timeout : ∃ (s : State), (mainUp s = true) ∧ (s.pc.tState = 3) ∧ (s.pc.holdT + 40000000 ≤ s.now) ∧ answered (exec (.holdoverTimeout) s) (fun t => decide (t = raiseEvent { s with pc := { s.pc with tState := 4 } } 0)) = true :=
  ⟨{ pool with now := 40000000, pc := { pool.pc with tState := 3 } }, by decide +kernel⟩

theorem test_partner_detect : ∃ (s : State) (p : Nat), (mainUp s = true) ∧ (portNamed s p = true) ∧ ((port s p).state = 1) ∧ answered (exec (.partnerDetect p) s) (fun t => decide (t = setPort s p { port s p with state := 2, stateT := s.now })) = true :=
  ⟨linkUp { state := 1 }, 2, by decide +kernel⟩

theorem test_training_complete : ∃ (s : State) (p w : Nat) (l ls : List Nat), (mainUp s = true) ∧ (portNamed s p = true) ∧ ((port s p).state = 2) ∧ (chooseWidth s p l = some (w, ls, none)) ∧ answered (exec (.trainingComplete p l) s) (fun t => decide ((port t p).state = 3 ∧ (port t p).width = w ∧ (port t p).stateT = s.now ∧ ((ls.all fun i => decide ((lane t (physLane s p i)).port = p) && decide ((lane t (physLane s p i)).logical = i % w) && decide ((lane t (physLane s p i)).state = 0)) = true) ∧ t = sendLink (setPort (lanesUp s p w ls none) p { port (lanesUp s p w ls none) p with state := 3, stateT := s.now, width := w, linkVer := 0, capsSeen := false }) p (ownCaps (setPort (lanesUp s p w ls none) p { port (lanesUp s p w ls none) p with state := 3, stateT := s.now, width := w, linkVer := 0, capsSeen := false }) (port (setPort (lanesUp s p w ls none) p { port (lanesUp s p w ls none) p with state := 3, stateT := s.now, width := w, linkVer := 0, capsSeen := false }) p)))) = true :=
  ⟨linkUp { state := 2, replay := List.replicate 511 {} }, 2, 8, [0, 1, 2, 3, 4, 5, 6, 7], [0, 1, 2, 3, 4, 5, 6, 7], by decide +kernel⟩

theorem test_training_with_spare : ∃ (s : State) (p w i : Nat) (l ls : List Nat), (mainUp s = true) ∧ (portNamed s p = true) ∧ ((port s p).state = 2) ∧ (chooseWidth s p l = some (w, ls, some i)) ∧ answered (exec (.trainingComplete p l) s) (fun t => decide ((port t p).state = 3 ∧ (port t p).width = w ∧ (pair t (p / 4)).used = true ∧ (lane t (spareLane (p / 4))).state = 3 ∧ (lane t (spareLane (p / 4))).logical = i % w ∧ (lane t (physLane s p i)).state = 4 ∧ t = sendLink (setPort (setLane (setPair (lanesUp s p w ls (some i)) (p / 4) { pair (lanesUp s p w ls (some i)) (p / 4) with used := true }) (physLane (lanesUp s p w ls (some i)) p i) { lane (setPair (lanesUp s p w ls (some i)) (p / 4) { pair (lanesUp s p w ls (some i)) (p / 4) with used := true }) (physLane (setPair (lanesUp s p w ls (some i)) (p / 4) { pair (lanesUp s p w ls (some i)) (p / 4) with used := true }) p i) with state := 4 }) p { port (setLane (setPair (lanesUp s p w ls (some i)) (p / 4) { pair (lanesUp s p w ls (some i)) (p / 4) with used := true }) (physLane (lanesUp s p w ls (some i)) p i) { lane (setPair (lanesUp s p w ls (some i)) (p / 4) { pair (lanesUp s p w ls (some i)) (p / 4) with used := true }) (physLane (setPair (lanesUp s p w ls (some i)) (p / 4) { pair (lanesUp s p w ls (some i)) (p / 4) with used := true }) p i) with state := 4 }) p with state := 3, stateT := s.now, width := w, linkVer := 0, capsSeen := false }) p (ownCaps (setPort (setLane (setPair (lanesUp s p w ls (some i)) (p / 4) { pair (lanesUp s p w ls (some i)) (p / 4) with used := true }) (physLane (lanesUp s p w ls (some i)) p i) { lane (setPair (lanesUp s p w ls (some i)) (p / 4) { pair (lanesUp s p w ls (some i)) (p / 4) with used := true }) (physLane (setPair (lanesUp s p w ls (some i)) (p / 4) { pair (lanesUp s p w ls (some i)) (p / 4) with used := true }) p i) with state := 4 }) p { port (setLane (setPair (lanesUp s p w ls (some i)) (p / 4) { pair (lanesUp s p w ls (some i)) (p / 4) with used := true }) (physLane (lanesUp s p w ls (some i)) p i) { lane (setPair (lanesUp s p w ls (some i)) (p / 4) { pair (lanesUp s p w ls (some i)) (p / 4) with used := true }) (physLane (setPair (lanesUp s p w ls (some i)) (p / 4) { pair (lanesUp s p w ls (some i)) (p / 4) with used := true }) p i) with state := 4 }) p with state := 3, stateT := s.now, width := w, linkVer := 0, capsSeen := false }) (port (setPort (setLane (setPair (lanesUp s p w ls (some i)) (p / 4) { pair (lanesUp s p w ls (some i)) (p / 4) with used := true }) (physLane (lanesUp s p w ls (some i)) p i) { lane (setPair (lanesUp s p w ls (some i)) (p / 4) { pair (lanesUp s p w ls (some i)) (p / 4) with used := true }) (physLane (setPair (lanesUp s p w ls (some i)) (p / 4) { pair (lanesUp s p w ls (some i)) (p / 4) with used := true }) p i) with state := 4 }) p { port (setLane (setPair (lanesUp s p w ls (some i)) (p / 4) { pair (lanesUp s p w ls (some i)) (p / 4) with used := true }) (physLane (lanesUp s p w ls (some i)) p i) { lane (setPair (lanesUp s p w ls (some i)) (p / 4) { pair (lanesUp s p w ls (some i)) (p / 4) with used := true }) (physLane (setPair (lanesUp s p w ls (some i)) (p / 4) { pair (lanesUp s p w ls (some i)) (p / 4) with used := true }) p i) with state := 4 }) p with state := 3, stateT := s.now, width := w, linkVer := 0, capsSeen := false }) p)))) = true :=
  ⟨linkUp { state := 2, replay := List.replicate 511 {} }, 2, 8, 4, [0, 1, 2, 3, 5, 6, 7], [0, 1, 2, 3, 5, 6, 7], by decide +kernel⟩

theorem test_training_goes_on : ∃ (s : State) (p : Nat) (l : List Nat), (mainUp s = true) ∧ (portNamed s p = true) ∧ ((port s p).state = 2) ∧ (chooseWidth s p l = none) ∧ answered (exec (.trainingComplete p l) s) (fun t => decide (t = s)) = true :=
  ⟨linkUp { state := 2 }, 2, [0, 1, 2, 5, 6, 7], by decide +kernel⟩

theorem test_train_retry : ∃ (s : State) (p : Nat), (mainUp s = true) ∧ (portNamed s p = true) ∧ ((port s p).state = 2) ∧ ((port s p).stateT + 1000000 ≤ s.now) ∧ answered (exec (.trainRetry p) s) (fun t => decide (t = setPort s p { port s p with stateT := s.now })) = true :=
  ⟨{ linkUp { state := 2 } with now := 1000000 }, 2, by decide +kernel⟩

theorem test_caps_frame : ∃ (s : State) (p : Nat) (f : LinkFrame), (mainUp s = true) ∧ (portNamed s p = true) ∧ ((port s p).state = 3) ∧ ((port s p).capsSeen = false) ∧ ((port s p).prot = false) ∧ (f.op = 0x27) ∧ (lfAt f 18 1 % 2 = 0) ∧ (lfAt f 2 1 % 16 = 1) ∧ (¬((port s p).epBase ≤ lfAt f 4 2 ∧ 1 ≤ lfAt f 6 1 ∧ lfAt f 4 2 + lfAt f 6 1 ≤ (port s p).epBase + (port s p).epCount)) ∧ answered (exec (.capsFrame p f) s) (fun t => decide ((port t p).profile = 1 ∧ (port t p).peerId = lfAt f 4 2 ∧ (port t p).peerCount = lfAt f 6 1 ∧ (port t p).epMismatch = true ∧ (port t p).state = 3 ∧ t = setPort (takeLink s p f) p (takeCaps (port (takeLink s p f) p) f))) = true :=
  ⟨linkUp { state := 3 }, 2, { op := 0x27, body := linkBody 4 [(2, 1, 1), (4, 2, 9), (6, 1, 1)] }, by decide +kernel⟩

theorem test_caps_frame_serves : ∃ (s : State) (p : Nat) (f : LinkFrame), (mainUp s = true) ∧ (portNamed s p = true) ∧ ((port s p).state = 3) ∧ ((port s p).capsSeen = false) ∧ ((port s p).prot = false) ∧ (f.op = 0x27) ∧ (lfAt f 18 1 % 2 = 0) ∧ (lfAt f 2 1 % 16 = 0) ∧ (s.pc.timeSet = true) ∧ (s.sw.routes = []) ∧ (s.te.peers = []) ∧ answered (exec (.capsFrame p f) s) (fun t => decide ((port t p).state = 4 ∧ (port t p).profile = 0 ∧ (port t p).peerId = lfAt f 4 2 ∧ (port t p).credit = firstCredit (port s p) ∧ t = enterActive (setPort (takeLink s p f) p (takeCaps (port (takeLink s p f) p) f)) p)) = true :=
  ⟨{ linkUp { state := 3 } with pc := { (linkUp { state := 3 }).pc with timeSet := true } }, 2, { op := 0x27, body := linkBody 4 [(2, 1, 0), (4, 2, 9)] }, by decide +kernel⟩

theorem test_caps_frame_open : ∃ (s : State) (p : Nat) (f : LinkFrame), (mainUp s = true) ∧ (portNamed s p = true) ∧ ((port s p).state = 3) ∧ ((port s p).capsSeen = false) ∧ (f.op = 0x27) ∧ (wantsProt (takeCaps (port s p) f) = false) ∧ answered (exec (.capsFrame p f) s) (fun t => decide (t = tryActive (setPort (takeLink s p f) p (takeCaps (port (takeLink s p f) p) f)) p)) = true :=
  ⟨linkUp { state := 3, prot := true }, 2, { op := 0x27, body := linkBody 4 [(2, 1, 0), (4, 2, 9)] }, by decide +kernel⟩

theorem test_caps_frame_begins : ∃ (s : State) (p : Nat) (f : LinkFrame), (mainUp s = true) ∧ (portNamed s p = true) ∧ ((port s p).state = 3) ∧ ((port s p).capsSeen = false) ∧ (f.op = 0x27) ∧ (wantsProt (takeCaps (port s p) f) = true) ∧ (spdmRequester (setPort (takeLink s p f) p (takeCaps (port (takeLink s p f) p) f)) p = true) ∧ answered (exec (.capsFrame p f) s) (fun t => decide (t = sendKeymsg (setPort (takeLink s p f) p (takeCaps (port (takeLink s p f) p) f)) p (spdmMsg 0x84 0))) = true :=
  ⟨linkUp { state := 3 }, 2, { op := 0x27, body := linkBody 4 [(2, 1, 1), (4, 2, 9), (18, 1, 3)] }, by decide +kernel⟩

theorem test_caps_frame_awaits : ∃ (s : State) (p : Nat) (f : LinkFrame), (mainUp s = true) ∧ (portNamed s p = true) ∧ ((port s p).state = 3) ∧ ((port s p).capsSeen = false) ∧ (f.op = 0x27) ∧ (wantsProt (takeCaps (port s p) f) = true) ∧ (spdmRequester (setPort (takeLink s p f) p (takeCaps (port (takeLink s p f) p) f)) p = false) ∧ answered (exec (.capsFrame p f) s) (fun t => decide (t = setPort (takeLink s p f) p (takeCaps (port (takeLink s p f) p) f))) = true :=
  ⟨{ linkUp { state := 3 } with swNum := 12 }, 2, { op := 0x27, body := linkBody 4 [(2, 1, 0), (4, 2, 9), (18, 1, 3)] }, by decide +kernel⟩

theorem test_caps_frame_again : ∃ (s : State) (p : Nat) (f : LinkFrame), (mainUp s = true) ∧ (portNamed s p = true) ∧ (3 ≤ (port s p).state) ∧ ((port s p).state ≤ 5) ∧ (f.op = 0x27) ∧ ((port s p).state ≠ 3 ∨ (port s p).capsSeen = true) ∧ answered (exec (.capsFrame p f) s) (fun t => decide (t = takeLink s p f)) = true :=
  ⟨linkUp { state := 3, capsSeen := true }, 2, { op := 0x27, body := linkBody 4 [] }, by decide +kernel⟩

theorem test_lane_lock_loss : ∃ (s : State) (p l : Nat), (mainUp s = true) ∧ (portNamed s p = true) ∧ ((port s p).state = 4) ∧ ((lane s l).port = p) ∧ ((lane s l).state = 0 ∨ (lane s l).state = 3 ∨ (lane s l).state = 5) ∧ (swapsLane s (p / 4) l p = false ∨ (pair s (p / 4)).swap < 2) ∧ answered (exec (.laneLockLoss p (some l)) s) (fun t => decide ((port t p).state = 5 ∧ (port t p).lost = some l ∧ (port t p).replay = (port s p).replay ∧ tget 0 (port t p).ctr 3 = satInc (tget 0 (port s p).ctr 3) 1 ∧ t = enterRetrain s p (some l))) = true :=
  ⟨{ linkUp { state := 4 } with pc := { (linkUp { state := 4 }).pc with lanes := [(11, { port := 2, logical := 3, state := 0 })] } }, 2, 11, by decide +kernel⟩

theorem test_lane_lock_loss_replays : ∃ (s : State) (p : Nat), (mainUp s = true) ∧ (portNamed s p = true) ∧ ((port s p).state = 4) ∧ (((port s p).replay.any fun x => decide (8 ≤ x.count)) = true) ∧ answered (exec (.laneLockLoss p none) s) (fun t => decide ((port t p).state = 5 ∧ (port t p).lost = none ∧ (port t p).replay = (port s p).replay ∧ t = enterRetrain s p none)) = true :=
  ⟨linkUp { state := 4, replay := [{ count := 8 }] }, 2, by decide +kernel⟩

theorem test_lane_lock_loss_swapped : ∃ (s : State) (p l : Nat), (mainUp s = true) ∧ (portNamed s p = true) ∧ ((port s p).state = 4) ∧ (l < 816) ∧ ((lane s l).port = p) ∧ ((lane s l).state = 0 ∨ (lane s l).state = 3 ∨ (lane s l).state = 5) ∧ (swapsLane s (p / 4) l p = true) ∧ (2 ≤ (pair s (p / 4)).swap) ∧ answered (exec (.laneLockLoss p (some l)) s) (fun t => decide ((pair t (p / 4)).swap = 0 ∧ (pair t (p / 4)).used = true ∧ t = finishSwap s (p / 4) l)) = true :=
  ⟨{ linkUp { state := 4 } with pc := { (linkUp { state := 4 }).pc with lanes := [(11, { port := 2, logical := 3, state := 0 })], pairs := [(0, { swap := 2, lane := 816, port := 2 })] } }, 2, 11, by decide +kernel⟩

theorem test_lane_lock_loss_elsewhere : ∃ (s : State) (p l : Nat), (mainUp s = true) ∧ ((lane s l).port ≠ p ∨ ¬((lane s l).state = 0 ∨ (lane s l).state = 3 ∨ (lane s l).state = 5)) ∧ answered (exec (.laneLockLoss p (some l)) s) (fun t => decide (t = s)) = true :=
  ⟨linkUp { state := 4 }, 2, 11, by decide +kernel⟩

theorem test_retrain_complete : ∃ (s : State) (p : Nat), (mainUp s = true) ∧ (portNamed s p = true) ∧ ((port s p).state = 5) ∧ ((port s p).lost = none) ∧ answered (exec (.retrainComplete p) s) (fun t => decide ((port t p).state = 4 ∧ (port t p).stateT = s.now ∧ (port t p).width = (port s p).width ∧ t = backActive s p (port s p).width)) = true :=
  ⟨linkUp { width := 8, replay := [{ seq := 3, count := 8 }] }, 2, by decide +kernel⟩

theorem test_retrain_complete_spare : ∃ (s : State) (p l : Nat), (mainUp s = true) ∧ (portNamed s p = true) ∧ ((port s p).state = 5) ∧ ((port s p).lost = some l) ∧ (l ≠ spareLane (p / 4)) ∧ (swapsLane s (p / 4) l p = false) ∧ (spareFree s (p / 4) = true) ∧ answered (exec (.retrainComplete p) s) (fun t => decide ((port t p).state = 4 ∧ (lane t l).state = 4 ∧ (lane t (spareLane (p / 4))).state = 3 ∧ (lane t (spareLane (p / 4))).logical = (lane s l).logical ∧ (pair t (p / 4)).used = true ∧ t = backActive (spareTakes s (p / 4) l) p (port s p).width)) = true :=
  ⟨{ linkUp { lost := some 11, width := 8 } with pc := { (linkUp { lost := some 11, width := 8 }).pc with lanes := [(11, { port := 2, logical := 3, state := 0 })] } }, 2, 11, by decide +kernel⟩

theorem test_retrain_complete_swapped : ∃ (s : State) (p l : Nat), (mainUp s = true) ∧ (portNamed s p = true) ∧ ((port s p).state = 5) ∧ ((port s p).lost = some l) ∧ (l < 816) ∧ (swapsLane s (p / 4) l p = true) ∧ answered (exec (.retrainComplete p) s) (fun t => decide (t = backActive (finishSwap s (p / 4) l) p (port s p).width)) = true :=
  ⟨{ linkUp { lost := some 11, width := 8 } with pc := { (linkUp { lost := some 11, width := 8 }).pc with pairs := [(0, { swap := 1, lane := 11, port := 2 })], lanes := [(11, { port := 2, logical := 3, state := 0 })] } }, 2, 11, by decide +kernel⟩

theorem test_retrain_complete_narrow : ∃ (s : State) (p l : Nat), (mainUp s = true) ∧ (portNamed s p = true) ∧ ((port s p).state = 5) ∧ ((port s p).lost = some l) ∧ (swapsLane s (p / 4) l p = false) ∧ (spareFree s (p / 4) = false) ∧ ((port s p).width = 8) ∧ answered (exec (.retrainComplete p) s) (fun t => decide ((port t p).state = 4 ∧ (port t p).width = 4 ∧ t = backActive (narrow s p l) p 4)) = true :=
  ⟨{ linkUp { lost := some 11, width := 8 } with pc := { (linkUp { lost := some 11, width := 8 }).pc with pairs := [(0, { used := true })], lanes := [(11, { port := 2, logical := 3, state := 0 })] } }, 2, 11, by decide +kernel⟩

theorem test_retrain_goes_on : ∃ (s : State) (p l : Nat), (mainUp s = true) ∧ (portNamed s p = true) ∧ ((port s p).state = 5) ∧ ((port s p).lost = some l) ∧ (swapsLane s (p / 4) l p = false) ∧ (spareFree s (p / 4) = false) ∧ ((port s p).width ≠ 8) ∧ answered (exec (.retrainComplete p) s) (fun t => decide (t = s)) = true :=
  ⟨{ linkUp { lost := some 11, width := 4 } with pc := { (linkUp { lost := some 11, width := 4 }).pc with pairs := [(0, { used := true })], lanes := [(11, { port := 2, logical := 3, state := 0 })] } }, 2, 11, by decide +kernel⟩

theorem test_retrain_timeout : ∃ (s : State) (p : Nat), (mainUp s = true) ∧ (portNamed s p = true) ∧ ((port s p).state = 5) ∧ ((port s p).stateT + 2000000 ≤ s.now) ∧ (peersAt s p true = []) ∧ (s.sw.routes = []) ∧ ((pair s (p / 4)).swap = 0) ∧ answered (exec (.retrainTimeout p) s) (fun t => decide ((port t p).state = 1 ∧ (port t p).replay = [] ∧ t = portGoesDown s p 1)) = true :=
  ⟨{ linkUp { profile := 1, peerId := 9 } with now := 2000000 }, 2, by decide +kernel⟩

theorem test_retrain_timeout_any : ∃ (s : State) (p : Nat), (mainUp s = true) ∧ (portNamed s p = true) ∧ ((port s p).state = 5) ∧ ((port s p).stateT + 2000000 ≤ s.now) ∧ answered (exec (.retrainTimeout p) s) (fun t => decide (t = portGoesDown s p 1)) = true :=
  ⟨{ linkUp { profile := 1, peerId := 9, peerCount := 1 } with now := 2000000, te := { pool.te with peers := [(9, { lastOk := 1, port := 2 })] } }, 2, by decide +kernel⟩

theorem test_lane_swap_start : ∃ (s : State) (l : Nat), (mainUp s = true) ∧ (s.ph.laneDue.contains l = true) ∧ (laneReason s l = 0) ∧ answered (exec (.laneSwapStart l) s) (fun t => decide ((pair t (lanePair l)).swap = 1 ∧ (pair t (lanePair l)).lane = l ∧ (pair t (lanePair l)).port = (lane s l).port ∧ (lane t (spareLane (lanePair l))).state = 2 ∧ (lane t (spareLane (lanePair l))).logical = (lane s l).logical ∧ t = startSwap s l none)) = true :=
  ⟨{ linkUp {} with ph := { pool.ph with laneDue := [11] }, pc := { (linkUp {}).pc with lanes := [(11, { port := 2, logical := 3, state := 0 })] } }, 11, by decide +kernel⟩

theorem test_spare_lock : ∃ (s : State) (k : Nat), (mainUp s = true) ∧ (k < 48) ∧ ((pair s k).swap = 1) ∧ answered (exec (.spareLock k) s) (fun t => decide (t = setPair s k { pair s k with swap := 2 })) = true :=
  ⟨{ pool with pc := { pool.pc with pairs := [(47, { swap := 1 })] } }, 47, by decide +kernel⟩

theorem test_spare_deskew_done : ∃ (s : State) (k : Nat), (mainUp s = true) ∧ (k < 48) ∧ ((pair s k).swap = 2) ∧ answered (exec (.spareDeskewDone k) s) (fun t => decide ((pair t k).swap = 3 ∧ (pair t k).mySeq = ((port s (pair s k).port).txSeq + 1) % 1024 ∧ t = sendLink (setPair s k { pair s k with swap := 3, mySeq := ((port s (pair s k).port).txSeq + 1) % 1024 }) (pair s k).port { op := 0x28, body := linkBody 1 [(2, 1, k), (3, 1, 1), (4, 2, ((port s (pair s k).port).txSeq + 1) % 1024)] })) = true :=
  ⟨{ linkUp { txSeq := 1023 } with pc := { (linkUp { txSeq := 1023 }).pc with pairs := [(0, { swap := 2, port := 2 })] } }, 0, by decide +kernel⟩

theorem test_spare_frame_starts : ∃ (s : State) (p : Nat) (f : LinkFrame), (mainUp s = true) ∧ (portNamed s p = true) ∧ (3 ≤ (port s p).state) ∧ ((port s p).state ≤ 5) ∧ (f.op = 0x28) ∧ (lfAt f 3 1 = 0) ∧ ((pair s (p / 4)).swap = 0) ∧ ((pair s (p / 4)).used = false) ∧ answered (exec (.spareFrame p f) s) (fun t => decide ((pair t (p / 4)).swap = 1 ∧ (pair t (p / 4)).port = p ∧ (lane t (spareLane (p / 4))).state = 2 ∧ t = setLane (setPair (takeLink s p f) (p / 4) { pair (takeLink s p f) (p / 4) with swap := 1, lane := 816, port := p, peerSeq := none, reqCs := none }) (spareLane (p / 4)) { lane (setPair (takeLink s p f) (p / 4) { pair (takeLink s p f) (p / 4) with swap := 1, lane := 816, port := p, peerSeq := none, reqCs := none }) (spareLane (p / 4)) with port := p, state := 2 })) = true :=
  ⟨linkUp {}, 2, { op := 0x28, body := linkBody 1 [] }, by decide +kernel⟩

theorem test_spare_frame_announces : ∃ (s : State) (p : Nat) (f : LinkFrame), (mainUp s = true) ∧ (portNamed s p = true) ∧ (3 ≤ (port s p).state) ∧ ((port s p).state ≤ 5) ∧ (f.op = 0x28) ∧ (lfAt f 3 1 = 1) ∧ ((pair s (p / 4)).swap ≠ 0) ∧ ((pair s (p / 4)).port = p) ∧ answered (exec (.spareFrame p f) s) (fun t => decide (t = setPair (takeLink s p f) (p / 4) { pair (takeLink s p f) (p / 4) with peerSeq := some (lfAt f 4 2) })) = true :=
  ⟨{ linkUp {} with pc := { (linkUp {}).pc with pairs := [(0, { swap := 2, port := 2 })] } }, 2, { op := 0x28, body := linkBody 1 [(3, 1, 1), (4, 2, 1023)] }, by decide +kernel⟩

theorem test_spare_frame_refused : ∃ (s : State) (p : Nat) (f : LinkFrame), (mainUp s = true) ∧ (portNamed s p = true) ∧ (3 ≤ (port s p).state) ∧ ((port s p).state ≤ 5) ∧ (f.op = 0x28) ∧ (lfAt f 3 1 = 0) ∧ ((pair s (p / 4)).swap = 0) ∧ ((pair s (p / 4)).used = true) ∧ answered (exec (.spareFrame p f) s) (fun t => decide (t = sendLink (takeLink s p f) p { op := 0x28, body := linkBody 1 [(2, 1, p / 4), (3, 1, 2)] })) = true :=
  ⟨{ linkUp {} with pc := { (linkUp {}).pc with pairs := [(0, { used := true })] } }, 2, { op := 0x28, body := linkBody 1 [] }, by decide +kernel⟩

theorem test_spare_frame_abandons : ∃ (s : State) (p : Nat) (f : LinkFrame), (mainUp s = true) ∧ (portNamed s p = true) ∧ (3 ≤ (port s p).state) ∧ ((port s p).state ≤ 5) ∧ (f.op = 0x28) ∧ (lfAt f 3 1 = 2) ∧ ((pair s (p / 4)).swap ≠ 0) ∧ ((pair s (p / 4)).port = p) ∧ answered (exec (.spareFrame p f) s) (fun t => decide ((pair t (p / 4)).swap = 0 ∧ (lane t (spareLane (p / 4))).state = 1 ∧ t = swapEnds (setLane (takeLink s p f) (spareLane (p / 4)) { lane (takeLink s p f) (spareLane (p / 4)) with port := 0xFF, logical := 0xF, state := 1 }) (p / 4) 0x0707)) = true :=
  ⟨{ linkUp {} with pc := { (linkUp {}).pc with pairs := [(0, { swap := 2, port := 2, lane := 11 })] } }, 2, { op := 0x28, body := linkBody 1 [(3, 1, 2)] }, by decide +kernel⟩

theorem test_spare_frame_ignored : ∃ (s : State) (p : Nat) (f : LinkFrame), (mainUp s = true) ∧ (portNamed s p = true) ∧ (3 ≤ (port s p).state) ∧ ((port s p).state ≤ 5) ∧ (f.op = 0x28) ∧ ((lfAt f 3 1 = 0 ∧ (pair s (p / 4)).swap ≠ 0) ∨ (1 ≤ lfAt f 3 1 ∧ ((pair s (p / 4)).swap = 0 ∨ (pair s (p / 4)).port ≠ p)) ∨ 3 ≤ lfAt f 3 1) ∧ answered (exec (.spareFrame p f) s) (fun t => decide (t = takeLink s p f)) = true :=
  ⟨linkUp {}, 2, { op := 0x28, body := linkBody 1 [(3, 1, 1)] }, by decide +kernel⟩

theorem test_spare_switch : ∃ (s : State) (k : Nat), (mainUp s = true) ∧ (k < 48) ∧ ((pair s k).swap = 3) ∧ ((pair s k).peerSeq ≠ none) ∧ ((pair s k).reqCs = none) ∧ ((pair s k).lane < 816) ∧ ((pair s k).lane ≠ spareLane k) ∧ answered (exec (.spareSwitch k) s) (fun t => decide ((pair t k).swap = 0 ∧ (pair t k).used = true ∧ (lane t (pair s k).lane).state = 4 ∧ (lane t (spareLane k)).state = 3 ∧ (lane t (spareLane k)).logical = (lane s (pair s k).lane).logical ∧ t.ph.laneDue = s.ph.laneDue.filter (· ≠ (pair s k).lane) ∧ t = swapDone s k)) = true :=
  ⟨{ linkUp {} with ph := { pool.ph with laneDue := [11] }, pc := { (linkUp {}).pc with pairs := [(0, { swap := 3, port := 2, lane := 11, peerSeq := some 5 })], lanes := [(11, { port := 2, logical := 3, state := 0 })] } }, 0, by decide +kernel⟩

theorem test_spare_switch_any : ∃ (s : State) (k : Nat), (mainUp s = true) ∧ (k < 48) ∧ ((pair s k).swap = 3) ∧ ((pair s k).peerSeq ≠ none) ∧ answered (exec (.spareSwitch k) s) (fun _ => decide (True)) = true :=
  ⟨{ linkUp {} with ph := { pool.ph with laneDue := [11] }, pc := { (linkUp {}).pc with pairs := [(0, { swap := 3, port := 2, lane := 816, peerSeq := some 5 })], lanes := [(11, { port := 2, logical := 3, state := 0 })] } }, 0, by decide +kernel⟩

theorem test_spdm_request_not_ready : ∃ (s : State) (k : Nat) (m : Bytes), (k ≤ 4) ∧ (s.hw.perstLow = false) ∧ (unpowered s = false) ∧ (s.cc.stage ≠ 6) ∧ answered (exec (.spdmRequest k m) s) (fun t => decide (t = raiseEvent { s with resp := .bytes (spdmMsg 0x7F 0x42) } 21)) = true :=
  ⟨State.reset, 0, [0x10, 0x84], by decide +kernel⟩

theorem test_spdm_request_closed : ∃ (s : State) (k : Nat) (m : Bytes), (s.hw.perstLow = false) ∧ (unpowered s = false) ∧ (s.cc.stage = 6) ∧ (1 ≤ k) ∧ (k ≤ 4) ∧ ((sess s k).opened = false) ∧ answered (exec (.spdmRequest k m) s) (fun t => decide (t = raiseEvent { s with resp := .bytes (spdmMsg 0x7F 0x02) } 21)) = true :=
  ⟨up, 4, [0x12, 0xE8], by decide +kernel⟩

theorem test_spdm_request_perst_low : ∃ (s : State) (k : Nat) (m : Bytes), (k ≤ 4) ∧ (s.hw.perstLow = true) ∧ answered (exec (.spdmRequest k m) s) (fun t => decide (t = { s with resp := .none })) = true :=
  ⟨{ up with hw := { up.hw with perstLow := true } }, 0, [0x10, 0x84], by decide +kernel⟩

theorem test_spdm_request_negotiation : ∃ (s : State) (m : Bytes), (s.hw.perstLow = false) ∧ (unpowered s = false) ∧ (s.cc.stage = 6) ∧ (¬ (leAt m 0 1 = 0x12 ∧ leAt m 1 1 = 0xE4 ∧ (sess s 0).phase = 3)) ∧ answered (exec (.spdmRequest 0 m) s) (fun t => decide (t.resp = .bytes (spdmReply (sess s 0).phase m).1 ∧ sess t 0 = { sess s 0 with opened := true, phase := (spdmReply (sess s 0).phase m).2 } ∧ bit t.cc.intStatus 21 = true ∧ t = raiseEvent (sayBack (setSess s 0 { sess s 0 with opened := true, phase := (spdmReply (sess s 0).phase m).2 }) 0 (spdmReply (sess s 0).phase m).1) 21)) = true :=
  ⟨up, [0x10, 0x84], by decide +kernel⟩

theorem test_spdm_request_key_exchange : ∃ (s : State) (m : Bytes) (k : Nat), (s.hw.perstLow = false) ∧ (unpowered s = false) ∧ (s.cc.stage = 6) ∧ (leAt m 0 1 = 0x12) ∧ (leAt m 1 1 = 0xE4) ∧ ((sess s 0).phase = 3) ∧ (freeSession s = some k) ∧ answered (exec (.spdmRequest 0 m) s) (fun t => decide (t.resp = .bytes (spdmMsg 0x64 k) ∧ sess t k = { opened := true, phase := 4, lastBeat := s.now } ∧ bit t.cc.intStatus 21 = true ∧ t = raiseEvent (sayBack (setSess s k { opened := true, phase := 4, lastBeat := s.now }) 0 (spdmMsg 0x64 k)) 21)) = true :=
  ⟨{ up with ta := { up.ta with sess := [(0, { opened := true, phase := 3 }), (1, { opened := true }), (2, { opened := true }), (3, { opened := true })] } }, [0x12, 0xE4], 4, by decide +kernel⟩

theorem test_spdm_request_no_session : ∃ (s : State) (m : Bytes), (s.hw.perstLow = false) ∧ (unpowered s = false) ∧ (s.cc.stage = 6) ∧ (leAt m 0 1 = 0x12) ∧ (leAt m 1 1 = 0xE4) ∧ ((sess s 0).phase = 3) ∧ (freeSession s = none) ∧ answered (exec (.spdmRequest 0 m) s) (fun t => decide (t = raiseEvent { s with resp := .bytes (spdmMsg 0x7F 0x0A) } 21)) = true :=
  ⟨{ up with ta := { up.ta with sess := [(0, { opened := true, phase := 3 }), (1, { opened := true }), (2, { opened := true }), (3, { opened := true }), (4, { opened := true })] } }, [0x12, 0xE4], by decide +kernel⟩

theorem test_spdm_request_finish : ∃ (s : State) (k : Nat) (m : Bytes), (s.hw.perstLow = false) ∧ (unpowered s = false) ∧ (s.cc.stage = 6) ∧ (1 ≤ k) ∧ (k ≤ 4) ∧ ((sess s k).opened = true) ∧ ((sess s k).secured = false) ∧ (leAt m 1 1 = 0xE5) ∧ answered (exec (.spdmRequest k m) s) (fun _ => decide (True)) = true :=
  ⟨{ up with ta := { up.ta with sess := [(3, { opened := true, phase := 4 })] } }, 3, [0x12, 0xE5], by decide +kernel⟩

theorem test_spdm_request_finish_secured : ∃ (s : State) (k : Nat) (m : Bytes), (s.hw.perstLow = false) ∧ (unpowered s = false) ∧ (s.cc.stage = 6) ∧ (1 ≤ k) ∧ (k ≤ 4) ∧ ((sess s k).opened = true) ∧ ((leAt m 1 1 = 0xE5 ∧ (sess s k).secured = true) ∨ (leAt m 1 1 = 0xEC ∧ (sess s k).secured = false)) ∧ answered (exec (.spdmRequest k m) s) (fun t => decide (t = raiseEvent { s with resp := .bytes (spdmMsg 0x7F 0x04) } 21)) = true :=
  ⟨ownedUp, 2, [0x12, 0xE5], by decide +kernel⟩

theorem test_spdm_request_end_session : ∃ (s : State) (k : Nat) (m : Bytes), (s.hw.perstLow = false) ∧ (unpowered s = false) ∧ (s.cc.stage = 6) ∧ (1 ≤ k) ∧ (k ≤ 4) ∧ ((sess s k).opened = true) ∧ ((sess s k).secured = true) ∧ (leAt m 1 1 = 0xEC) ∧ answered (exec (.spdmRequest k m) s) (fun t => decide (t.resp = .bytes (spdmMsg 0x6C 0) ∧ sess t k = {} ∧ bit t.cc.intStatus 21 = true ∧ t = raiseEvent (sayBack (setSess s k {}) k (spdmMsg 0x6C 0)) 21)) = true :=
  ⟨ownedUp, 2, [0x12, 0xEC], by decide +kernel⟩

theorem test_spdm_request_heartbeat : ∃ (s : State) (k : Nat) (m : Bytes), (s.hw.perstLow = false) ∧ (unpowered s = false) ∧ (s.cc.stage = 6) ∧ (1 ≤ k) ∧ (k ≤ 4) ∧ ((sess s k).opened = true) ∧ (leAt m 1 1 ≠ 0xE5) ∧ (leAt m 1 1 ≠ 0xEC) ∧ answered (exec (.spdmRequest k m) s) (fun t => decide (t.resp = .bytes (spdmReply (sess s k).phase m).1 ∧ sess t k = { sess s k with missed := 0, lastBeat := s.now } ∧ bit t.cc.intStatus 21 = true ∧ t = raiseEvent (sayBack (setSess s k { sess s k with missed := 0, lastBeat := s.now }) k (spdmReply (sess s k).phase m).1) 21)) = true :=
  ⟨{ ownedUp with now := 77 }, 2, [0x12, 0xE8], by decide +kernel⟩

theorem test_spdm_heartbeat_miss_counted : ∃ (s : State) (k : Nat), (mainUp s = true) ∧ ((sess s k).opened = true) ∧ ((sess s k).secured = true) ∧ ((sess s k).lastBeat + 60000000000 * ((sess s k).missed + 1) ≤ s.now) ∧ ((sess s k).missed < 2) ∧ answered (exec (.spdmHeartbeatMiss k) s) (fun t => decide (sess t k = { sess s k with missed := (sess s k).missed + 1 } ∧ t = setSess s k { sess s k with missed := (sess s k).missed + 1 })) = true :=
  ⟨{ ownedUp with now := 60000000000 }, 2, by decide +kernel⟩

theorem test_spdm_heartbeat_miss_ends : ∃ (s : State) (k : Nat), (mainUp s = true) ∧ (k ≤ 4) ∧ ((sess s k).opened = true) ∧ ((sess s k).secured = true) ∧ ((sess s k).lastBeat + 60000000000 * ((sess s k).missed + 1) ≤ s.now) ∧ (2 ≤ (sess s k).missed) ∧ answered (exec (.spdmHeartbeatMiss k) s) (fun t => decide (sess t k = {} ∧ t = setSess s k {})) = true :=
  ⟨{ up with now := 180000000000, ta := { up.ta with sess := [(4, { opened := true, secured := true, missed := 2 })] } }, 4, by decide +kernel⟩

theorem test_spdm_heartbeat_miss_on_link : ∃ (s : State) (k : Nat), (mainUp s = true) ∧ (4 < k) ∧ ((sess s k).opened = true) ∧ ((sess s k).secured = true) ∧ ((sess s k).lastBeat + 60000000000 * ((sess s k).missed + 1) ≤ s.now) ∧ (2 ≤ (sess s k).missed) ∧ answered (exec (.spdmHeartbeatMiss k) s) (fun t => decide (t = portGoesDown (setSess s k {}) (k - 16) 1)) = true :=
  ⟨{ linkUp {} with now := 180000000000, ta := { pool.ta with sess := [(18, { opened := true, secured := true, missed := 2 })] } }, 18, by decide +kernel⟩

theorem test_set_certificate_taken : ∃ (s : State) (k : Nat) (c : Bytes), (s.hw.perstLow = false) ∧ (unpowered s = false) ∧ (s.cc.stage = 6) ∧ (ownerOn s k = true) ∧ answered (exec (.setCertificate k 1 c) s) (fun _ => decide (True)) = true :=
  ⟨ownedUp, 2, [7], by decide +kernel⟩

theorem test_set_certificate_refused : ∃ (s : State) (k n : Nat) (c : Bytes), (s.hw.perstLow = false) ∧ (unpowered s = false) ∧ (s.cc.stage = 6) ∧ (k ≤ 4) ∧ (n ≠ 1 ∨ ownerOn s k = false) ∧ (k = 0 ∨ (sess s k).opened = true) ∧ answered (exec (.setCertificate k n c) s) (fun t => decide (t = raiseEvent { s with resp := .bytes (spdmMsg 0x7F 0x04) } 21)) = true :=
  ⟨ownedUp, 2, 0, [7], by decide +kernel⟩

theorem test_set_certificate_on_link : ∃ (s : State) (k n : Nat) (c : Bytes), (mainUp s = true) ∧ (16 ≤ k) ∧ (portNamed s (k - 16) = true) ∧ (3 ≤ (port s (k - 16)).state) ∧ ((port s (k - 16)).state ≤ 5) ∧ answered (exec (.setCertificate k n c) s) (fun t => decide (t = sayBack s k (spdmMsg 0x7F 0x04))) = true :=
  ⟨{ linkUp {} with ta := { pool.ta with anchor := [1, 2, 3], sess := [(18, { opened := true, secured := true, phase := 4, root := [1, 2, 3] })] } }, 18, 1, [7], by decide +kernel⟩

theorem test_get_csr_answered : ∃ (s : State) (k : Nat), (s.hw.perstLow = false) ∧ (unpowered s = false) ∧ (s.cc.stage = 6) ∧ (k ≤ 4) ∧ (k = 0 ∨ (sess s k).opened = true) ∧ answered (exec (.getCsr k) s) (fun _ => decide (True)) = true :=
  ⟨ownedUp, 2, by decide +kernel⟩

theorem test_get_csr_on_link : ∃ (s : State) (k : Nat), (mainUp s = true) ∧ (16 ≤ k) ∧ (portNamed s (k - 16) = true) ∧ (3 ≤ (port s (k - 16)).state) ∧ ((port s (k - 16)).state ≤ 5) ∧ answered (exec (.getCsr k) s) (fun _ => decide (True)) = true :=
  ⟨{ linkUp {} with ta := { pool.ta with anchor := [1, 2, 3], sess := [(18, { opened := true, secured := true, phase := 4, root := [1, 2, 3] })] } }, 18, by decide +kernel⟩

theorem test_get_measurements_number : ∃ (s : State) (k : Nat) (sign : Bool) (nonce : Bytes), (s.hw.perstLow = false) ∧ (unpowered s = false) ∧ (s.cc.stage = 6) ∧ (k ≤ 4) ∧ (k = 0 ∨ (sess s k).opened = true) ∧ answered (exec (.getMeasurements k 0 sign nonce) s) (fun _ => decide (True)) = true :=
  ⟨ownedUp, 2, false, [9, 9], by decide +kernel⟩

theorem test_get_measurements_block : ∃ (s : State) (k i : Nat) (sign : Bool) (nonce : Bytes), (s.hw.perstLow = false) ∧ (unpowered s = false) ∧ (s.cc.stage = 6) ∧ (k ≤ 4) ∧ (k = 0 ∨ (sess s k).opened = true) ∧ (1 ≤ i) ∧ (i ≤ 7) ∧ answered (exec (.getMeasurements k i sign nonce) s) (fun _ => decide (True)) = true :=
  ⟨ownedUp, 2, 7, true, [], by decide +kernel⟩

theorem test_get_measurements_all : ∃ (s : State) (k : Nat) (sign : Bool) (nonce : Bytes), (s.hw.perstLow = false) ∧ (unpowered s = false) ∧ (s.cc.stage = 6) ∧ (k ≤ 4) ∧ (k = 0 ∨ (sess s k).opened = true) ∧ answered (exec (.getMeasurements k 255 sign nonce) s) (fun _ => decide (True)) = true :=
  ⟨ownedUp, 2, true, [], by decide +kernel⟩

theorem test_get_measurements_on_link : ∃ (s : State) (k i : Nat) (sign : Bool) (nonce : Bytes), (mainUp s = true) ∧ (16 ≤ k) ∧ (portNamed s (k - 16) = true) ∧ (3 ≤ (port s (k - 16)).state) ∧ ((port s (k - 16)).state ≤ 5) ∧ (1 ≤ i) ∧ (i ≤ 7) ∧ answered (exec (.getMeasurements k i sign nonce) s) (fun _ => decide (True)) = true :=
  ⟨{ linkUp {} with ta := { pool.ta with anchor := [1, 2, 3], sess := [(18, { opened := true, secured := true, phase := 4, root := [1, 2, 3] })] } }, 18, 1, true, [], by decide +kernel⟩

theorem test_get_measurements_none_on_link : ∃ (s : State) (k i : Nat) (sign : Bool) (nonce : Bytes), (mainUp s = true) ∧ (16 ≤ k) ∧ (portNamed s (k - 16) = true) ∧ (3 ≤ (port s (k - 16)).state) ∧ ((port s (k - 16)).state ≤ 5) ∧ (7 < i) ∧ (i ≠ 255) ∧ answered (exec (.getMeasurements k i sign nonce) s) (fun t => decide (t = sayBack s k (spdmMsg 0x7F 0x01))) = true :=
  ⟨{ linkUp {} with ta := { pool.ta with anchor := [1, 2, 3], sess := [(18, { opened := true, secured := true, phase := 4, root := [1, 2, 3] })] } }, 18, 8, true, [], by decide +kernel⟩

theorem test_get_measurements_none : ∃ (s : State) (k i : Nat) (sign : Bool) (nonce : Bytes), (s.hw.perstLow = false) ∧ (unpowered s = false) ∧ (s.cc.stage = 6) ∧ (k ≤ 4) ∧ (k = 0 ∨ (sess s k).opened = true) ∧ (7 < i) ∧ (i ≠ 255) ∧ answered (exec (.getMeasurements k i sign nonce) s) (fun t => decide (t = raiseEvent { s with resp := .bytes (spdmMsg 0x7F 0x01) } 21)) = true :=
  ⟨up, 0, 8, true, [], by decide +kernel⟩

theorem test_ide_km_key_prog : ∃ (s : State) (k : Nat) (m : Bytes), (s.hw.perstLow = false) ∧ (unpowered s = false) ∧ (s.cc.stage = 6) ∧ (securedDoe s k = true) ∧ (leAt m 0 1 ≤ 1) ∧ (leAt m 1 1 = 2) ∧ answered (exec (.ideKmMessage k m) s) (fun t => decide (t = raiseEvent { setIdeStream s (decide (leAt m 0 1 = 1)) { ideStream s (decide (leAt m 0 1 = 1)) with keys := (leAt m 6 1 % 4) :: (ideStream s (decide (leAt m 0 1 = 1))).keys.filter (· ≠ leAt m 6 1 % 4) } with resp := .bytes [BitVec.ofNat 8 (leAt m 0 1), 3] } 21)) = true :=
  ⟨ownedUp, 2, [1, 2, 0, 0, 0, 0, 3], by decide +kernel⟩

theorem test_ide_km_k_set_go : ∃ (s : State) (k : Nat) (m : Bytes), (s.hw.perstLow = false) ∧ (unpowered s = false) ∧ (s.cc.stage = 6) ∧ (securedDoe s k = true) ∧ (leAt m 0 1 ≤ 1) ∧ (leAt m 1 1 = 4) ∧ ((ideStream s (decide (leAt m 0 1 = 1))).keys.contains (leAt m 6 1 % 4) = true) ∧ answered (exec (.ideKmMessage k m) s) (fun t => decide (t = raiseEvent { setIdeStream s (decide (leAt m 0 1 = 1)) { ideStream s (decide (leAt m 0 1 = 1)) with go := (leAt m 6 1 % 4) :: (ideStream s (decide (leAt m 0 1 = 1))).go.filter (· ≠ leAt m 6 1 % 4) } with resp := .bytes [BitVec.ofNat 8 (leAt m 0 1), 6] } 21)) = true :=
  ⟨{ ownedUp with cc := { up.cc with ideIo := { keys := [3] } } }, 2, [0, 4, 0, 0, 0, 0, 3], by decide +kernel⟩

theorem test_ide_km_k_set_stop : ∃ (s : State) (k : Nat) (m : Bytes), (s.hw.perstLow = false) ∧ (unpowered s = false) ∧ (s.cc.stage = 6) ∧ (securedDoe s k = true) ∧ (leAt m 0 1 ≤ 1) ∧ (leAt m 1 1 = 5) ∧ answered (exec (.ideKmMessage k m) s) (fun t => decide (t = raiseEvent { setIdeStream s (decide (leAt m 0 1 = 1)) { ideStream s (decide (leAt m 0 1 = 1)) with go := (ideStream s (decide (leAt m 0 1 = 1))).go.filter (· ≠ leAt m 6 1 % 4) } with resp := .bytes [BitVec.ofNat 8 (leAt m 0 1), 6] } 21)) = true :=
  ⟨{ ownedUp with cc := { up.cc with ideIo := { keys := [3], go := [2, 3] } } }, 2, [0, 5, 0, 0, 0, 0, 3], by decide +kernel⟩

theorem test_ide_km_refused : ∃ (s : State) (k : Nat) (m : Bytes), (s.hw.perstLow = false) ∧ (unpowered s = false) ∧ (s.cc.stage = 6) ∧ (securedDoe s k = true) ∧ (1 < leAt m 0 1 ∨ ideKm (ideStream s (decide (leAt m 0 1 = 1))) (leAt m 1 1) (leAt m 6 1 % 4) = none) ∧ answered (exec (.ideKmMessage k m) s) (fun t => decide (t = raiseEvent { s with resp := .bytes (spdmMsg 0x7F 0x01) } 21)) = true :=
  ⟨ownedUp, 2, [1, 4], by decide +kernel⟩

theorem test_ide_km_unsecured : ∃ (s : State) (k : Nat) (m : Bytes), (s.hw.perstLow = false) ∧ (unpowered s = false) ∧ (s.cc.stage = 6) ∧ (k ≤ 4) ∧ (k = 0 ∨ (sess s k).opened = true) ∧ (securedDoe s k = false) ∧ answered (exec (.ideKmMessage k m) s) (fun t => decide (t = raiseEvent { s with resp := .bytes (spdmMsg 0x7F 0x04) } 21)) = true :=
  ⟨up, 0, [0, 2], by decide +kernel⟩

theorem test_set_owner_taken : ∃ (s : State) (k : Nat) (d : Bytes), (s.hw.perstLow = false) ∧ (unpowered s = false) ∧ (s.cc.stage = 6) ∧ (s.ta.anchor = []) ∧ (securedDoe s k = true) ∧ answered (exec (.setOwner k d) s) (fun t => decide (t = raiseEvent { s with resp := .bytes (bytesLE 2 0), ta := { s.ta with anchor := if (fitTo 32 d).all (· = 0) then [] else fitTo 32 d } } 21)) = true :=
  ⟨{ ownedUp with ta := { ownedUp.ta with anchor := [] } }, 2, [1, 2, 3], by decide +kernel⟩

theorem test_set_owner_present : ∃ (s : State) (k : Nat) (d : Bytes), (s.hw.perstLow = false) ∧ (unpowered s = false) ∧ (s.cc.stage = 6) ∧ (s.ta.anchor ≠ []) ∧ (k ≤ 4) ∧ (k = 0 ∨ (sess s k).opened = true) ∧ answered (exec (.setOwner k d) s) (fun t => decide (t = raiseEvent { s with resp := .bytes (bytesLE 2 0x0B05) } 21)) = true :=
  ⟨ownedUp, 2, [1], by decide +kernel⟩

theorem test_set_owner_outside : ∃ (s : State) (k : Nat) (d : Bytes), (s.hw.perstLow = false) ∧ (unpowered s = false) ∧ (s.cc.stage = 6) ∧ (k ≤ 4) ∧ (k = 0 ∨ (sess s k).opened = true) ∧ (s.ta.anchor = []) ∧ (securedDoe s k = false) ∧ answered (exec (.setOwner k d) s) (fun t => decide (t = raiseEvent { s with resp := .bytes (bytesLE 2 0x0B09) } 21)) = true :=
  ⟨up, 0, [1], by decide +kernel⟩

theorem test_set_owner_on_link : ∃ (s : State) (k : Nat) (d : Bytes), (mainUp s = true) ∧ (16 ≤ k) ∧ (portNamed s (k - 16) = true) ∧ (3 ≤ (port s (k - 16)).state) ∧ ((port s (k - 16)).state ≤ 5) ∧ answered (exec (.setOwner k d) s) (fun t => decide (t = kilhar s k (if s.ta.anchor = [] then 0x0B09 else 0x0B05) [])) = true :=
  ⟨{ linkUp {} with ta := { pool.ta with anchor := [1, 2, 3], sess := [(18, { opened := true, secured := true, phase := 4, root := [1, 2, 3] })] } }, 18, [1], by decide +kernel⟩

theorem test_raise_floor_done : ∃ (s : State) (k f : Nat), (s.hw.perstLow = false) ∧ (unpowered s = false) ∧ (s.cc.stage = 6) ∧ (ownerOn s k = true) ∧ ((lcNow s).floorLeft ≠ 0) ∧ ((lcNow s).floor < f) ∧ ([1, 2, 3, 4].all (fun l => decide (f ≤ svnOf s l)) = true) ∧ (lcTaken s 0 = false) ∧ answered (exec (.raiseFloor k f) s) (fun t => decide (lcNow t = { lcNow s with floor := f, floorLeft := (lcNow s).floorLeft - 1 } ∧ t.resp = .bytes (bytesLE 2 0 ++ lcBytes t) ∧ bit t.cc.intStatus 21 = true ∧ t = raiseEvent (kilhar ((writeLc s 0 f { lcNow s with floor := f, floorLeft := (lcNow s).floorLeft - 1 })) k 0 (lcBytes ((writeLc s 0 f { lcNow s with floor := f, floorLeft := (lcNow s).floorLeft - 1 })))) 21)) = true :=
  ⟨{ ownedUp with ta := { ownedUp.ta with svn := [(1, 3), (2, 3), (3, 2), (4, 5)] } }, 2, 2, by decide +kernel⟩

theorem test_raise_floor_refused : ∃ (s : State) (k f : Nat), (s.hw.perstLow = false) ∧ (unpowered s = false) ∧ (s.cc.stage = 6) ∧ ((lcNow s).floorLeft ≠ 0) ∧ (k ≤ 4) ∧ (k = 0 ∨ (sess s k).opened = true) ∧ ((decide (f ≤ (lcNow s).floor) || [1, 2, 3, 4].any fun l => decide (svnOf s l < f)) = true) ∧ (lcTaken s 0 = false) ∧ answered (exec (.raiseFloor k f) s) (fun t => decide (t.resp = .bytes (bytesLE 2 0x0B04) ∧ tget 0 t.ta.ctr 4 = satInc (tget 0 s.ta.ctr 4) 1 ∧ bit t.cc.intStatus 21 = true ∧ t = raiseEvent (kilhar (taCount s 4 1) k 0x0B04 []) 21)) = true :=
  ⟨ownedUp, 2, 0, by decide +kernel⟩

theorem test_raise_floor_spent : ∃ (s : State) (k f : Nat), (s.hw.perstLow = false) ∧ (unpowered s = false) ∧ (s.cc.stage = 6) ∧ (k ≤ 4) ∧ (k = 0 ∨ (sess s k).opened = true) ∧ ((lcNow s).floorLeft = 0) ∧ (lcTaken s 0 = false) ∧ answered (exec (.raiseFloor k f) s) (fun t => decide (t = raiseEvent (kilhar (taCount s 4 1) k 0x0B03 []) 21)) = true :=
  ⟨{ ownedUp with ta := { ownedUp.ta with lcB := { valid := true, seq := 9, val := { floorLeft := 0 } } } }, 0, 9, by decide +kernel⟩

theorem test_raise_floor_not_owner : ∃ (s : State) (k f : Nat), (s.hw.perstLow = false) ∧ (unpowered s = false) ∧ (s.cc.stage = 6) ∧ (k ≤ 4) ∧ (k = 0 ∨ (sess s k).opened = true) ∧ ((lcNow s).floorLeft ≠ 0) ∧ ((lcNow s).floor < f) ∧ ([1, 2, 3, 4].all (fun l => decide (f ≤ svnOf s l)) = true) ∧ (ownerOn s k = false) ∧ (lcTaken s 0 = false) ∧ answered (exec (.raiseFloor k f) s) (fun t => decide (t = raiseEvent (kilhar (taCount s 4 1) k 0x0B05 []) 21)) = true :=
  ⟨{ up with ta := { up.ta with svn := [(1, 3), (2, 3), (3, 2), (4, 5)] } }, 0, 2, by decide +kernel⟩

theorem test_raise_floor_on_link : ∃ (s : State) (k f : Nat), (mainUp s = true) ∧ (16 ≤ k) ∧ (portNamed s (k - 16) = true) ∧ (3 ≤ (port s (k - 16)).state) ∧ ((port s (k - 16)).state ≤ 5) ∧ (lcTaken s 0 = false) ∧ answered (exec (.raiseFloor k f) s) (fun t => decide (t = kilhar (taCount s 4 1) k (if (lcNow s).floorLeft = 0 then 0x0B03 else if (decide (f ≤ (lcNow s).floor) || [1, 2, 3, 4].any fun l => decide (svnOf s l < f)) then 0x0B04 else 0x0B05) [])) = true :=
  ⟨{ linkUp {} with ta := { pool.ta with anchor := [1, 2, 3], sess := [(18, { opened := true, secured := true, phase := 4, root := [1, 2, 3] })] } }, 18, 9, by decide +kernel⟩

theorem test_raise_floor_busy : ∃ (s : State) (k f : Nat), (s.hw.perstLow = false) ∧ (unpowered s = false) ∧ (s.cc.stage = 6) ∧ (k ≤ 4) ∧ (k = 0 ∨ (sess s k).opened = true) ∧ (lcTaken s 0 = true) ∧ answered (exec (.raiseFloor k f) s) (fun t => decide (t = raiseEvent (kilhar (taCount s 4 1) k 1 []) 21)) = true :=
  ⟨{ ownedUp with ta := { ownedUp.ta with lcLast := some (0, ownedUp.now) } }, 2, 2, by decide +kernel⟩

theorem test_raise_floor_busy_on_link : ∃ (s : State) (k f : Nat), (mainUp s = true) ∧ (16 ≤ k) ∧ (portNamed s (k - 16) = true) ∧ (3 ≤ (port s (k - 16)).state) ∧ ((port s (k - 16)).state ≤ 5) ∧ (lcTaken s 0 = true) ∧ answered (exec (.raiseFloor k f) s) (fun t => decide (t = kilhar (taCount s 4 1) k 1 [])) = true :=
  ⟨{ linkUp {} with ta := { pool.ta with lcLast := some (0, (linkUp {}).now), sess := [(18, { opened := true, secured := true, phase := 4 })] } }, 18, 9, by decide +kernel⟩

theorem test_raise_epoch_done : ∃ (s : State) (k : Nat), (s.hw.perstLow = false) ∧ (unpowered s = false) ∧ (s.cc.stage = 6) ∧ (ownerOn s k = true) ∧ ((lcNow s).epochLeft ≠ 0) ∧ (lcTaken s 1 = false) ∧ answered (exec (.raiseEpoch k) s) (fun t => decide (lcNow t = { lcNow s with idepoch := (lcNow s).idepoch + 1, epochLeft := (lcNow s).epochLeft - 1 } ∧ t.ta.anchor = [] ∧ t.ta.chain1 = [] ∧ t.ta.deliv = [] ∧ t.ta.sealedUnder = ((lcNow s).idepoch + 1, s.ta.debug) ∧ t.resp = .bytes (bytesLE 2 0 ++ lcBytes t) ∧ bit t.cc.intStatus 21 = true ∧ t = raiseEvent (kilhar (zeroiseAll (clearDelivered { (writeLc s 1 ((lcNow s).idepoch + 1) { lcNow s with idepoch := (lcNow s).idepoch + 1, epochLeft := (lcNow s).epochLeft - 1 }) with ta := { (writeLc s 1 ((lcNow s).idepoch + 1) { lcNow s with idepoch := (lcNow s).idepoch + 1, epochLeft := (lcNow s).epochLeft - 1 }).ta with anchor := [], chain1 := [], sealedUnder := ((lcNow s).idepoch + 1, (writeLc s 1 ((lcNow s).idepoch + 1) { lcNow s with idepoch := (lcNow s).idepoch + 1, epochLeft := (lcNow s).epochLeft - 1 }).ta.debug) } })) k 0 (lcBytes (zeroiseAll (clearDelivered { (writeLc s 1 ((lcNow s).idepoch + 1) { lcNow s with idepoch := (lcNow s).idepoch + 1, epochLeft := (lcNow s).epochLeft - 1 }) with ta := { (writeLc s 1 ((lcNow s).idepoch + 1) { lcNow s with idepoch := (lcNow s).idepoch + 1, epochLeft := (lcNow s).epochLeft - 1 }).ta with anchor := [], chain1 := [], sealedUnder := ((lcNow s).idepoch + 1, (writeLc s 1 ((lcNow s).idepoch + 1) { lcNow s with idepoch := (lcNow s).idepoch + 1, epochLeft := (lcNow s).epochLeft - 1 }).ta.debug) } })))) 21)) = true :=
  ⟨owned pool, 2, by decide +kernel⟩

theorem test_raise_epoch_refused : ∃ (s : State) (k : Nat), (s.hw.perstLow = false) ∧ (unpowered s = false) ∧ (s.cc.stage = 6) ∧ (k ≤ 4) ∧ (ownerOn s k = false) ∧ ((lcNow s).epochLeft ≠ 0) ∧ (k = 0 ∨ (sess s k).opened = true) ∧ (lcTaken s 1 = false) ∧ answered (exec (.raiseEpoch k) s) (fun t => decide (t.resp = .bytes (bytesLE 2 0x0B05) ∧ tget 0 t.ta.ctr 4 = satInc (tget 0 s.ta.ctr 4) 1 ∧ bit t.cc.intStatus 21 = true ∧ t = raiseEvent (kilhar (taCount s 4 1) k 0x0B05 []) 21)) = true :=
  ⟨{ ownedUp with ta := { ownedUp.ta with anchor := [3] } }, 2, by decide +kernel⟩

theorem test_raise_epoch_spent : ∃ (s : State) (k : Nat), (s.hw.perstLow = false) ∧ (unpowered s = false) ∧ (s.cc.stage = 6) ∧ (k ≤ 4) ∧ (k = 0 ∨ (sess s k).opened = true) ∧ ((lcNow s).epochLeft = 0) ∧ (lcTaken s 1 = false) ∧ answered (exec (.raiseEpoch k) s) (fun t => decide (t = raiseEvent (kilhar (taCount s 4 1) k 0x0B03 []) 21)) = true :=
  ⟨{ ownedUp with ta := { ownedUp.ta with lcB := { valid := true, seq := 9, val := { epochLeft := 0 } } } }, 0, by decide +kernel⟩

theorem test_raise_epoch_on_link : ∃ (s : State) (k : Nat), (mainUp s = true) ∧ (16 ≤ k) ∧ (portNamed s (k - 16) = true) ∧ (3 ≤ (port s (k - 16)).state) ∧ ((port s (k - 16)).state ≤ 5) ∧ (lcTaken s 1 = false) ∧ answered (exec (.raiseEpoch k) s) (fun t => decide (t = kilhar (taCount s 4 1) k (if (lcNow s).epochLeft = 0 then 0x0B03 else 0x0B05) [])) = true :=
  ⟨{ linkUp {} with ta := { pool.ta with anchor := [1, 2, 3], sess := [(18, { opened := true, secured := true, phase := 4, root := [1, 2, 3] })] } }, 18, by decide +kernel⟩

theorem test_raise_epoch_busy : ∃ (s : State) (k : Nat), (s.hw.perstLow = false) ∧ (unpowered s = false) ∧ (s.cc.stage = 6) ∧ (k ≤ 4) ∧ (k = 0 ∨ (sess s k).opened = true) ∧ (lcTaken s 1 = true) ∧ answered (exec (.raiseEpoch k) s) (fun t => decide (t = raiseEvent (kilhar (taCount s 4 1) k 1 []) 21)) = true :=
  ⟨{ ownedUp with ta := { ownedUp.ta with lcLast := some (1, ownedUp.now) } }, 2, by decide +kernel⟩

theorem test_raise_epoch_busy_on_link : ∃ (s : State) (k : Nat), (mainUp s = true) ∧ (16 ≤ k) ∧ (portNamed s (k - 16) = true) ∧ (3 ≤ (port s (k - 16)).state) ∧ ((port s (k - 16)).state ≤ 5) ∧ (lcTaken s 1 = true) ∧ answered (exec (.raiseEpoch k) s) (fun t => decide (t = kilhar (taCount s 4 1) k 1 [])) = true :=
  ⟨{ linkUp {} with ta := { pool.ta with lcLast := some (1, (linkUp {}).now), sess := [(18, { opened := true, secured := true, phase := 4 })] } }, 18, by decide +kernel⟩

theorem test_seal_done : ∃ (s : State) (k : Nat) (on : Bool), (s.hw.perstLow = false) ∧ (unpowered s = false) ∧ (s.cc.stage = 6) ∧ (ownerOn s k = true) ∧ ((lcNow s).sealLeft ≠ 0) ∧ (lcTaken s 2 = false) ∧ answered (exec (.seal k on) s) (fun t => decide ((lcNow t).sealed = on ∧ (lcNow t).sealLeft = (lcNow s).sealLeft - 1 ∧ bit t.cc.intStatus 21 = true ∧ (lcNow t).layout = (if on then sm3 (layoutRecord s) else (lcNow s).layout) ∧ t = raiseEvent (kilhar ((writeLc s 2 (b2n on) { lcNow s with sealed := on, sealLeft := (lcNow s).sealLeft - 1, layout := if on then sm3 (layoutRecord s) else (lcNow s).layout })) k 0 (lcBytes ((writeLc s 2 (b2n on) { lcNow s with sealed := on, sealLeft := (lcNow s).sealLeft - 1, layout := if on then sm3 (layoutRecord s) else (lcNow s).layout })))) 21)) = true :=
  ⟨ownedUp, 2, false, by decide +kernel⟩

theorem test_seal_spent : ∃ (s : State) (k : Nat) (on : Bool), (s.hw.perstLow = false) ∧ (unpowered s = false) ∧ (s.cc.stage = 6) ∧ (k ≤ 4) ∧ ((lcNow s).sealLeft = 0) ∧ (k = 0 ∨ (sess s k).opened = true) ∧ (lcTaken s 2 = false) ∧ answered (exec (.seal k on) s) (fun t => decide (t.resp = .bytes (bytesLE 2 0x0B03) ∧ tget 0 t.ta.ctr 4 = satInc (tget 0 s.ta.ctr 4) 1 ∧ bit t.cc.intStatus 21 = true ∧ t = raiseEvent (kilhar (taCount s 4 1) k 0x0B03 []) 21)) = true :=
  ⟨{ ownedUp with ta := { ownedUp.ta with lcB := { valid := true, seq := 9, val := { sealLeft := 0 } } } }, 2, true, by decide +kernel⟩

theorem test_seal_not_owner : ∃ (s : State) (k : Nat) (on : Bool), (s.hw.perstLow = false) ∧ (unpowered s = false) ∧ (s.cc.stage = 6) ∧ (k ≤ 4) ∧ (k = 0 ∨ (sess s k).opened = true) ∧ ((lcNow s).sealLeft ≠ 0) ∧ (ownerOn s k = false) ∧ (lcTaken s 2 = false) ∧ answered (exec (.seal k on) s) (fun t => decide (t = raiseEvent (kilhar (taCount s 4 1) k 0x0B05 []) 21)) = true :=
  ⟨up, 0, true, by decide +kernel⟩

theorem test_seal_on_link : ∃ (s : State) (k : Nat) (on : Bool), (mainUp s = true) ∧ (16 ≤ k) ∧ (portNamed s (k - 16) = true) ∧ (3 ≤ (port s (k - 16)).state) ∧ ((port s (k - 16)).state ≤ 5) ∧ (lcTaken s 2 = false) ∧ answered (exec (.seal k on) s) (fun t => decide (t = kilhar (taCount s 4 1) k (if (lcNow s).sealLeft = 0 then 0x0B03 else 0x0B05) [])) = true :=
  ⟨{ linkUp {} with ta := { pool.ta with anchor := [1, 2, 3], sess := [(18, { opened := true, secured := true, phase := 4, root := [1, 2, 3] })] } }, 18, true, by decide +kernel⟩

theorem test_seal_busy : ∃ (s : State) (k : Nat) (on : Bool), (s.hw.perstLow = false) ∧ (unpowered s = false) ∧ (s.cc.stage = 6) ∧ (k ≤ 4) ∧ (k = 0 ∨ (sess s k).opened = true) ∧ (lcTaken s 2 = true) ∧ answered (exec (.seal k on) s) (fun t => decide (t = raiseEvent (kilhar (taCount s 4 1) k 1 []) 21)) = true :=
  ⟨{ ownedUp with ta := { ownedUp.ta with lcLast := some (2, ownedUp.now) } }, 2, true, by decide +kernel⟩

theorem test_seal_busy_on_link : ∃ (s : State) (k : Nat) (on : Bool), (mainUp s = true) ∧ (16 ≤ k) ∧ (portNamed s (k - 16) = true) ∧ (3 ≤ (port s (k - 16)).state) ∧ ((port s (k - 16)).state ≤ 5) ∧ (lcTaken s 2 = true) ∧ answered (exec (.seal k on) s) (fun t => decide (t = kilhar (taCount s 4 1) k 1 [])) = true :=
  ⟨{ linkUp {} with ta := { pool.ta with lcLast := some (2, (linkUp {}).now), sess := [(18, { opened := true, secured := true, phase := 4 })] } }, 18, true, by decide +kernel⟩

theorem test_debug_unlock_by_owner : ∃ (s : State) (k : Nat) (tok n : Bytes), (s.hw.perstLow = false) ∧ (unpowered s = false) ∧ (s.cc.stage = 6) ∧ (ownerOn s k = true) ∧ ((lcNow s).debugLeft ≠ 0) ∧ (s.tr.comps.all (fun x => decide (x.2.state = 0)) = true) ∧ (lcTaken s 3 = false) ∧ answered (exec (.debugUnlock k tok n) s) (fun _ => decide (True)) = true :=
  ⟨ownedUp, 2, [], [], by decide +kernel⟩

theorem test_debug_unlock_composition : ∃ (s : State) (k : Nat) (tok n : Bytes), (s.hw.perstLow = false) ∧ (unpowered s = false) ∧ (s.cc.stage = 6) ∧ (ownerOn s k = true) ∧ ((lcNow s).debugLeft ≠ 0) ∧ (s.tr.comps.any (fun x => decide (x.2.state ≠ 0)) = true) ∧ (lcTaken s 3 = false) ∧ answered (exec (.debugUnlock k tok n) s) (fun t => decide (t.resp = .bytes (bytesLE 2 0x0B07) ∧ tget 0 t.ta.ctr 4 = satInc (tget 0 s.ta.ctr 4) 1 ∧ bit t.cc.intStatus 21 = true ∧ t = raiseEvent (kilhar (taCount s 4 1) k 0x0B07 []) 21)) = true :=
  ⟨owned pool, 2, [], [], by decide +kernel⟩

theorem test_debug_unlock_refused : ∃ (s : State) (k : Nat) (tok n : Bytes), (s.hw.perstLow = false) ∧ (unpowered s = false) ∧ (s.cc.stage = 6) ∧ (k ≤ 4) ∧ (k = 0 ∨ (sess s k).opened = true) ∧ ((lcNow s).debugLeft = 0 ∨ ownerOn s k = false) ∧ (lcTaken s 3 = false) ∧ answered (exec (.debugUnlock k tok n) s) (fun t => decide (t = raiseEvent (kilhar (taCount s 4 1) k (if (lcNow s).debugLeft = 0 then 0x0B03 else 0x0B05) []) 21)) = true :=
  ⟨up, 0, [], [], by decide +kernel⟩

theorem test_debug_unlock_on_link : ∃ (s : State) (k : Nat) (tok n : Bytes), (mainUp s = true) ∧ (16 ≤ k) ∧ (portNamed s (k - 16) = true) ∧ (3 ≤ (port s (k - 16)).state) ∧ ((port s (k - 16)).state ≤ 5) ∧ (lcTaken s 3 = false) ∧ answered (exec (.debugUnlock k tok n) s) (fun t => decide (t = kilhar (taCount s 4 1) k (if (lcNow s).debugLeft = 0 then 0x0B03 else 0x0B05) [])) = true :=
  ⟨{ linkUp {} with ta := { pool.ta with anchor := [1, 2, 3], sess := [(18, { opened := true, secured := true, phase := 4, root := [1, 2, 3] })] } }, 18, [], [], by decide +kernel⟩

theorem test_debug_unlock_busy : ∃ (s : State) (k : Nat) (tok n : Bytes), (s.hw.perstLow = false) ∧ (unpowered s = false) ∧ (s.cc.stage = 6) ∧ (k ≤ 4) ∧ (k = 0 ∨ (sess s k).opened = true) ∧ (lcTaken s 3 = true) ∧ answered (exec (.debugUnlock k tok n) s) (fun t => decide (t = raiseEvent (kilhar (taCount s 4 1) k 1 []) 21)) = true :=
  ⟨{ ownedUp with ta := { ownedUp.ta with lcLast := some (3, ownedUp.now) } }, 2, [], [], by decide +kernel⟩

theorem test_debug_unlock_busy_on_link : ∃ (s : State) (k : Nat) (tok n : Bytes), (mainUp s = true) ∧ (16 ≤ k) ∧ (portNamed s (k - 16) = true) ∧ (3 ≤ (port s (k - 16)).state) ∧ ((port s (k - 16)).state ≤ 5) ∧ (lcTaken s 3 = true) ∧ answered (exec (.debugUnlock k tok n) s) (fun t => decide (t = kilhar (taCount s 4 1) k 1 [])) = true :=
  ⟨{ linkUp {} with ta := { pool.ta with lcLast := some (3, (linkUp {}).now), sess := [(18, { opened := true, secured := true, phase := 4 })] } }, 18, [], [], by decide +kernel⟩

theorem test_get_lc_answered : ∃ (s : State) (k : Nat), (s.hw.perstLow = false) ∧ (unpowered s = false) ∧ (s.cc.stage = 6) ∧ (k ≤ 4) ∧ (k = 0 ∨ (sess s k).opened = true) ∧ answered (exec (.getLc k) s) (fun t => decide (t = raiseEvent { s with resp := .bytes (bytesLE 2 0 ++ lcBytes s) } 21)) = true :=
  ⟨ownedUp, 2, by decide +kernel⟩

theorem test_get_lc_on_link : ∃ (s : State) (k : Nat), (mainUp s = true) ∧ (16 ≤ k) ∧ (portNamed s (k - 16) = true) ∧ (3 ≤ (port s (k - 16)).state) ∧ ((port s (k - 16)).state ≤ 5) ∧ answered (exec (.getLc k) s) (fun t => decide (t = kilhar s k 0 (lcBytes s))) = true :=
  ⟨{ linkUp {} with ta := { pool.ta with anchor := [1, 2, 3], sess := [(18, { opened := true, secured := true, phase := 4, root := [1, 2, 3] })] } }, 18, by decide +kernel⟩

theorem test_deliver_key_taken : ∃ (s : State) (k c mode e : Nat) (m : Bytes), (s.hw.perstLow = false) ∧ (unpowered s = false) ∧ (s.cc.stage = 6) ∧ (k ≤ 4) ∧ (securedOn s k = true) ∧ (c ≤ 65535) ∧ (mode ≤ 1) ∧ (m.length = (if mode = 1 then 48 else 32)) ∧ ((List.range 256).find? (fun e => !(tget {} s.ta.deliv e).used) = some e) ∧ answered (exec (.deliverKey k c mode m) s) (fun t => decide (tget {} t.ta.deliv e = { used := true, tenant := c, sealedMode := decide (mode = 1), owner := 0xFFFF, material := m, serial := (s.ta.serial + 1) % 2 ^ 24, session := k, time := s.now } ∧ t.ta.serial = (s.ta.serial + 1) % 2 ^ 24 ∧ t.resp = .bytes (bytesLE 2 0 ++ bytesLE 4 (e + t.ta.serial * 256)) ∧ tget 0 t.ta.ctr 2 = satInc (tget 0 s.ta.ctr 2) 1 ∧ bit t.cc.intStatus 21 = true ∧ t = raiseEvent (kilhar (taCount { s with ta := { s.ta with deliv := tput {} s.ta.deliv e { used := true, tenant := c, sealedMode := decide (mode = 1), owner := 0xFFFF, material := m, serial := (s.ta.serial + 1) % 2 ^ 24, session := k, time := s.now }, serial := (s.ta.serial + 1) % 2 ^ 24 } } 2 1) k 0 (bytesLE 4 (e + (s.ta.serial + 1) % 2 ^ 24 * 256))) 21)) = true :=
  ⟨{ ownedUp with ta := { ownedUp.ta with serial := 2 ^ 24 - 1, deliv := [(0, { used := true })] } }, 2, 65535, 1, 1, List.replicate 48 7, by decide +kernel⟩

theorem test_deliver_key_outside : ∃ (s : State) (k c mode : Nat) (m : Bytes), (s.hw.perstLow = false) ∧ (unpowered s = false) ∧ (s.cc.stage = 6) ∧ (c ≤ 65535) ∧ (mode ≤ 1) ∧ (m.length = (if mode = 1 then 48 else 32)) ∧ (k ≤ 4) ∧ (k = 0 ∨ (sess s k).opened = true) ∧ (securedOn s k = false) ∧ (((List.range 256).find? (fun e => !(tget {} s.ta.deliv e).used)).isSome = true) ∧ answered (exec (.deliverKey k c mode m) s) (fun t => decide (t = raiseEvent { s with resp := .bytes (bytesLE 2 0x0B09) } 21)) = true :=
  ⟨ownedUp, 0, 65535, 0, List.replicate 32 7, by decide +kernel⟩

theorem test_deliver_key_malformed : ∃ (s : State) (k c mode : Nat) (m : Bytes), (s.hw.perstLow = false) ∧ (unpowered s = false) ∧ (s.cc.stage = 6) ∧ (k ≤ 4) ∧ (k = 0 ∨ (sess s k).opened = true) ∧ (1 < mode ∨ 65535 < c ∨ m.length ≠ (if mode = 1 then 48 else 32)) ∧ answered (exec (.deliverKey k c mode m) s) (fun t => decide (t = raiseEvent { s with resp := .bytes (bytesLE 2 4) } 21)) = true :=
  ⟨ownedUp, 2, 65536, 0, List.replicate 32 7, by decide +kernel⟩

theorem test_deliver_key_full : ∃ (s : State) (k c mode : Nat) (m : Bytes), (s.hw.perstLow = false) ∧ (unpowered s = false) ∧ (s.cc.stage = 6) ∧ (k ≤ 4) ∧ (k = 0 ∨ (sess s k).opened = true) ∧ (¬ (1 < mode ∨ 65535 < c ∨ m.length ≠ (if mode = 1 then 48 else 32))) ∧ ((List.range 256).find? (fun e => !(tget {} s.ta.deliv e).used) = none) ∧ answered (exec (.deliverKey k c mode m) s) (fun t => decide (t = raiseEvent { s with resp := .bytes (bytesLE 2 0x0B08) } 21)) = true :=
  ⟨{ ownedUp with ta := { ownedUp.ta with deliv := (List.range 256).map fun i => (i, { used := true }) } }, 2, 65535, 0, List.replicate 32 7, by decide +kernel⟩

theorem test_deliver_key_on_link : ∃ (s : State) (k c mode e : Nat) (m : Bytes), (mainUp s = true) ∧ (16 ≤ k) ∧ (portNamed s (k - 16) = true) ∧ (3 ≤ (port s (k - 16)).state) ∧ ((port s (k - 16)).state ≤ 5) ∧ (securedOn s k = true) ∧ (c ≤ 65535) ∧ (mode ≤ 1) ∧ (m.length = (if mode = 1 then 48 else 32)) ∧ ((List.range 256).find? (fun e => !(tget {} s.ta.deliv e).used) = some e) ∧ answered (exec (.deliverKey k c mode m) s) (fun t => decide ((tget {} t.ta.deliv e).owner = (port s (k - 16)).peerId ∧ t = kilhar (taCount { s with ta := { s.ta with deliv := tput {} s.ta.deliv e { used := true, tenant := c, sealedMode := decide (mode = 1), owner := (port s (k - 16)).peerId, material := m, serial := (s.ta.serial + 1) % 2 ^ 24, session := k, time := s.now }, serial := (s.ta.serial + 1) % 2 ^ 24 } } 2 1) k 0 (bytesLE 4 (e + (s.ta.serial + 1) % 2 ^ 24 * 256)))) = true :=
  ⟨{ linkUp { peerId := 9 } with ta := { pool.ta with anchor := [1, 2, 3], sess := [(18, { opened := true, secured := true, phase := 4, root := [1, 2, 3] })] } }, 18, 65535, 0, 0, List.replicate 32 7, by decide +kernel⟩

theorem test_deliver_key_refused_on_link : ∃ (s : State) (k c mode : Nat) (m : Bytes), (mainUp s = true) ∧ (16 ≤ k) ∧ (portNamed s (k - 16) = true) ∧ (3 ≤ (port s (k - 16)).state) ∧ ((port s (k - 16)).state ≤ 5) ∧ (securedOn s k = false ∨ 1 < mode ∨ 65535 < c ∨ m.length ≠ (if mode = 1 then 48 else 32) ∨ ((List.range 256).find? fun e => !(tget {} s.ta.deliv e).used) = none) ∧ answered (exec (.deliverKey k c mode m) s) (fun t => decide (t = kilhar s k (if 1 < mode ∨ 65535 < c ∨ m.length ≠ (if mode = 1 then 48 else 32) then 4 else if ((List.range 256).find? fun e => !(tget {} s.ta.deliv e).used) = none then 0x0B08 else 0x0B09) [])) = true :=
  ⟨{ linkUp {} with ta := { pool.ta with anchor := [1, 2, 3], sess := [(18, { opened := true, secured := false, phase := 4, root := [1, 2, 3] })] } }, 18, 65535, 0, List.replicate 32 7, by decide +kernel⟩

theorem test_discard_key_done : ∃ (s : State) (k ref : Nat), (s.hw.perstLow = false) ∧ (unpowered s = false) ∧ (s.cc.stage = 6) ∧ (k ≤ 4) ∧ (securedOn s k = true) ∧ ((deliveredOf s ref).used = true) ∧ ((deliveredOf s ref).serial = ref / 256) ∧ ((deliveredOf s ref).session = k) ∧ answered (exec (.discardKey k ref) s) (fun t => decide (t.resp = .bytes (bytesLE 2 0) ∧ tget {} t.ta.deliv (ref % 256) = {} ∧ bit t.cc.intStatus 21 = true ∧ t = raiseEvent (kilhar ({ s with ta := { s.ta with deliv := tput {} s.ta.deliv (ref % 256) {} } }) k 0 []) 21)) = true :=
  ⟨{ ownedUp with ta := { ownedUp.ta with deliv := [(9, { used := true, serial := 4, session := 2 })] } }, 2, 4 * 256 + 9, by decide +kernel⟩

theorem test_discard_key_gone : ∃ (s : State) (k ref : Nat), (s.hw.perstLow = false) ∧ (unpowered s = false) ∧ (s.cc.stage = 6) ∧ (k ≤ 4) ∧ (k = 0 ∨ (sess s k).opened = true) ∧ ((deliveredOf s ref).used = false ∨ (deliveredOf s ref).serial ≠ ref / 256) ∧ answered (exec (.discardKey k ref) s) (fun t => decide (t = raiseEvent { s with resp := .bytes (bytesLE 2 0x0B01) } 21)) = true :=
  ⟨ownedUp, 2, 4 * 256 + 9, by decide +kernel⟩

theorem test_discard_key_other : ∃ (s : State) (k ref : Nat), (s.hw.perstLow = false) ∧ (unpowered s = false) ∧ (s.cc.stage = 6) ∧ (k ≤ 4) ∧ (k = 0 ∨ (sess s k).opened = true) ∧ ((deliveredOf s ref).used = true) ∧ ((deliveredOf s ref).serial = ref / 256) ∧ (securedOn s k = false ∨ (deliveredOf s ref).session ≠ k) ∧ answered (exec (.discardKey k ref) s) (fun t => decide (t = raiseEvent { s with resp := .bytes (bytesLE 2 0x0B09) } 21)) = true :=
  ⟨{ ownedUp with ta := { ownedUp.ta with deliv := [(9, { used := true, serial := 4, session := 3 })] } }, 2, 4 * 256 + 9, by decide +kernel⟩

theorem test_discard_key_on_link : ∃ (s : State) (k ref : Nat), (mainUp s = true) ∧ (16 ≤ k) ∧ (portNamed s (k - 16) = true) ∧ (3 ≤ (port s (k - 16)).state) ∧ ((port s (k - 16)).state ≤ 5) ∧ (securedOn s k = true) ∧ ((deliveredOf s ref).used = true) ∧ ((deliveredOf s ref).serial = ref / 256) ∧ ((deliveredOf s ref).session = k) ∧ answered (exec (.discardKey k ref) s) (fun t => decide (tget {} t.ta.deliv (ref % 256) = {} ∧ t = kilhar { s with ta := { s.ta with deliv := tput {} s.ta.deliv (ref % 256) {} } } k 0 [])) = true :=
  ⟨{ linkUp {} with ta := { pool.ta with anchor := [1, 2, 3], sess := [(18, { opened := true, secured := true, phase := 4, root := [1, 2, 3] })], deliv := [(9, { used := true, serial := 4, session := 18 })] } }, 18, 4 * 256 + 9, by decide +kernel⟩

theorem test_discard_key_refused_on_link : ∃ (s : State) (k ref : Nat), (mainUp s = true) ∧ (16 ≤ k) ∧ (portNamed s (k - 16) = true) ∧ (3 ≤ (port s (k - 16)).state) ∧ ((port s (k - 16)).state ≤ 5) ∧ ((deliveredOf s ref).used = false ∨ (deliveredOf s ref).serial ≠ ref / 256 ∨ securedOn s k = false ∨ (deliveredOf s ref).session ≠ k) ∧ answered (exec (.discardKey k ref) s) (fun t => decide (t = kilhar s k (if (deliveredOf s ref).used = false ∨ (deliveredOf s ref).serial ≠ ref / 256 then 0x0B01 else 0x0B09) [])) = true :=
  ⟨{ linkUp {} with ta := { pool.ta with anchor := [1, 2, 3], sess := [(18, { opened := true, secured := true, phase := 4, root := [1, 2, 3] })] } }, 18, 9, by decide +kernel⟩

theorem test_delivered_key_expiry_done : ∃ (s : State) (e : Nat), ((tget {} s.ta.deliv e).used = true) ∧ ((tget {} s.ta.deliv e).time + 60000000000 ≤ s.now) ∧ answered (exec (.deliveredKeyExpiry e) s) (fun t => decide (tget {} t.ta.deliv e = {} ∧ tget 0 t.ta.ctr 3 = satInc (tget 0 s.ta.ctr 3) 1 ∧ t = taCount { s with ta := { s.ta with deliv := tput {} s.ta.deliv e {} } } 3 1)) = true :=
  ⟨{ ownedUp with now := 60000000001, ta := { ownedUp.ta with deliv := [(9, { used := true, time := 1 })] } }, 9, by decide +kernel⟩

theorem test_delivered_key_expiry_not_due : ∃ (s : State) (e : Nat), ((tget {} s.ta.deliv e).used = false ∨ s.now < (tget {} s.ta.deliv e).time + 60000000000) ∧ answered (exec (.deliveredKeyExpiry e) s) (fun t => decide (t = s)) = true :=
  ⟨ownedUp, 9, by decide +kernel⟩

theorem test_get_report_answered : ∃ (s : State) (k c start : Nat) (nonce : Bytes), (s.hw.perstLow = false) ∧ (unpowered s = false) ∧ (s.cc.stage = 6) ∧ (k ≤ 4) ∧ (k = 0 ∨ (sess s k).opened = true) ∧ (c = 0xFFFF ∨ (c < 4096 ∧ (comp s c).state ≠ 0)) ∧ (start ≤ 65535) ∧ answered (exec (.getReport k nonce c start) s) (fun _ => decide (True)) = true :=
  ⟨owned pool, 2, 5, 0, [1], by decide +kernel⟩

theorem test_get_report_absent : ∃ (s : State) (k c start : Nat) (nonce : Bytes), (s.hw.perstLow = false) ∧ (unpowered s = false) ∧ (s.cc.stage = 6) ∧ (k ≤ 4) ∧ (k = 0 ∨ (sess s k).opened = true) ∧ (c < 4096) ∧ ((comp s c).state = 0) ∧ answered (exec (.getReport k nonce c start) s) (fun t => decide (t = raiseEvent { s with resp := .bytes (bytesLE 2 8) } 21)) = true :=
  ⟨owned pool, 2, 6, 0, [1], by decide +kernel⟩

theorem test_get_report_range : ∃ (s : State) (k c start : Nat) (nonce : Bytes), (s.hw.perstLow = false) ∧ (unpowered s = false) ∧ (s.cc.stage = 6) ∧ (k ≤ 4) ∧ (k = 0 ∨ (sess s k).opened = true) ∧ (¬ (c < 4096 ∧ (comp s c).state = 0)) ∧ ((c ≠ 0xFFFF ∧ 4095 < c) ∨ 65535 < start) ∧ answered (exec (.getReport k nonce c start) s) (fun t => decide (t = raiseEvent { s with resp := .bytes (bytesLE 2 4) } 21)) = true :=
  ⟨ownedUp, 2, 4096, 0, [1], by decide +kernel⟩

theorem test_get_report_on_link : ∃ (s : State) (k c start : Nat) (nonce : Bytes), (mainUp s = true) ∧ (16 ≤ k) ∧ (portNamed s (k - 16) = true) ∧ (3 ≤ (port s (k - 16)).state) ∧ ((port s (k - 16)).state ≤ 5) ∧ (c < 4096) ∧ ((comp s c).state ≠ 0) ∧ (start ≤ 65535) ∧ (memberOf s c (port s (k - 16)).peerId = true) ∧ answered (exec (.getReport k nonce c start) s) (fun _ => decide (True)) = true :=
  ⟨(fun (x : State) => { x with tr := { x.tr with comps := [(5, { state := 2, curLive := true, cur := { members := [9] } })] } }) ({ linkUp { peerId := 9 } with ta := { pool.ta with anchor := [1, 2, 3], sess := [(18, { opened := true, secured := true, phase := 4, root := [1, 2, 3] })] } }), 18, 5, 0, [1], by decide +kernel⟩

theorem test_get_report_barred_on_link : ∃ (s : State) (k c start : Nat) (nonce : Bytes), (mainUp s = true) ∧ (16 ≤ k) ∧ (portNamed s (k - 16) = true) ∧ (3 ≤ (port s (k - 16)).state) ∧ ((port s (k - 16)).state ≤ 5) ∧ (start ≤ 65535) ∧ (c = 0xFFFF ∨ (c < 4096 ∧ (comp s c).state ≠ 0 ∧ memberOf s c (port s (k - 16)).peerId = false)) ∧ answered (exec (.getReport k nonce c start) s) (fun t => decide (t = kilhar s k 0x0B05 [])) = true :=
  ⟨{ linkUp {} with ta := { pool.ta with anchor := [1, 2, 3], sess := [(18, { opened := true, secured := true, phase := 4, root := [1, 2, 3] })] } }, 18, 0xFFFF, 0, [1], by decide +kernel⟩

theorem test_dirty_drain_done : ∃ (s : State) (n : Nat), (mainUp s = true) ∧ (s.lv.flushCause = 0) ∧ answered (exec (.dirtyDrain n) s) (fun t => decide (t.lv.dirty = s.lv.dirty - n ∧ tget 0 t.lv.ctr 4 = satInc (tget 0 s.lv.ctr 4) (min n s.lv.dirty) ∧ t = freeSegs (lvCount { s with lv := { s.lv with dirty := s.lv.dirty - min n s.lv.dirty } } 4 (min n s.lv.dirty)))) = true :=
  ⟨{ up with lv := { up.lv with dirty := 100 } }, 4096, by decide +kernel⟩

theorem test_segment_relocate_done : ∃ (s : State) (r : JRec) (l : List Nat), (mainUp s = true) ∧ (s.lv.flushCause = 0) ∧ (l.head?.bind (findRec s) = some r) ∧ (relocatable s r.seg l = true) ∧ answered (exec (.segmentRelocate l) s) (fun t => decide (t.lv.dirty = s.lv.dirty + 64 * recEntries (segRecs s r.seg) ∧ tget 0 t.lv.ctr 9 = satInc (tget 0 s.lv.ctr 9) l.length ∧ t = lvCount (moveSeg s r.seg) 9 l.length)) = true :=
  ⟨{ up with lv := { up.lv with openSeg := 7, openUsed := 1000, fullSegs := [3], recs := [{ seq := 4, entries := 254, seg := 3 }] } }, { seq := 4, entries := 254, seg := 3 }, [4], by decide +kernel⟩

theorem test_segment_relocate_refused : ∃ (s : State) (l : List Nat), (mainUp s = true) ∧ (s.lv.flushCause = 0) ∧ (l.head?.bind (findRec s) = none) ∧ answered (exec (.segmentRelocate l) s) (fun t => decide (t = s)) = true :=
  ⟨up, [4], by decide +kernel⟩

theorem test_segment_relocate_too_full : ∃ (s : State) (r : JRec) (l : List Nat), (l.head?.bind (findRec s) = some r) ∧ (relocatable s r.seg l = false) ∧ answered (exec (.segmentRelocate l) s) (fun t => decide (t = s)) = true :=
  ⟨{ up with lv := { up.lv with openSeg := 7, fullSegs := [3], recs := [{ seq := 4, entries := 255, seg := 3 }] } }, { seq := 4, entries := 255, seg := 3 }, [4], by decide +kernel⟩

theorem test_wear_level_move_done : ∃ (s : State) (k a b : Nat), (mainUp s = true) ∧ (s.lv.flushCause = 0) ∧ (k < 8) ∧ (s.lv.imgWriting = none) ∧ ((nandPkg s k).state = 0) ∧ ((nandPkg s k).eMin + s.lv.wlSpread < (nandPkg s k).eMax) ∧ answered (exec (.wearLevelMove k a b) s) (fun t => decide ((nandPkg t k).eMin = min a 65535 ∧ (nandPkg t k).eMax = min b 65535 ∧ tget 0 t.lv.ctr 7 = satInc (tget 0 s.lv.ctr 7) 1 ∧ t = lvCount (wearPackage (wearPackage s (k % 4) a b) (k % 4 + 4) a b) 7 1)) = true :=
  ⟨{ up with lv := { up.lv with nand := [(7, { eMin := 3, eMax := 260 })] } }, 7, 4, 60000, by decide +kernel⟩

theorem test_wear_level_move_not_due : ∃ (s : State) (k a b : Nat), (8 ≤ k ∨ s.lv.imgWriting ≠ none ∨ (nandPkg s k).state ≠ 0 ∨ (nandPkg s k).eMax ≤ (nandPkg s k).eMin + s.lv.wlSpread) ∧ answered (exec (.wearLevelMove k a b) s) (fun t => decide (t = s)) = true :=
  ⟨up, 7, 4, 6, by decide +kernel⟩

theorem test_wear_level_move_last_spare : ∃ (s : State) (k a b : Nat), (mainUp s = true) ∧ (s.lv.flushCause = 0) ∧ (k < 8) ∧ (s.lv.imgWriting = none) ∧ ((nandPkg s k).state = 0) ∧ ((nandPkg s k).eMin + s.lv.wlSpread < (nandPkg s k).eMax) ∧ (60000 ≤ b) ∧ ((nandPkg s k).spare = 0) ∧ answered (exec (.wearLevelMove k a b) s) (fun t => decide ((nandPkg t k).state = 1 ∧ s.lv.nandDegraded ||| 2 ^ (k % 4) ||| t.lv.nandDegraded = t.lv.nandDegraded ∧ t = lvCount (wearPackage (wearPackage s (k % 4) a b) (k % 4 + 4) a b) 7 1)) = true :=
  ⟨{ up with lv := { up.lv with nand := [(7, { eMin := 3, eMax := 260, spare := 0 })] } }, 7, 4, 60000, by decide +kernel⟩

theorem test_page_rewrite_done : ∃ (s : State) (p temp r : Nat) (weak mi ms : Bool), (mainUp s = true) ∧ (s.lv.flushCause = 0) ∧ (p < 25165824) ∧ (r ≤ (retryBins (pageAge s p)).length) ∧ (mi = false ∨ r = (retryBins (pageAge s p)).length) ∧ (weak = true ∨ 13 ≤ pageAge s p) ∧ (ms = mapMisses s p) ∧ answered (exec (.pageRewrite p temp weak r mi ms) s) (fun t => decide ((tget (0, 0) t.lv.pages p).2 = temp ∧ tget 0 t.lv.ctr 5 = satInc (tget 0 s.lv.ctr 5) (if r = 0 then 0 else 1) ∧ tget 0 t.lv.ctr 6 = satInc (tget 0 s.lv.ctr 6) (b2n mi))) = true :=
  ⟨{ up with now := 4096 * 3600000000000 }, 25165823, 60, 3, false, true, true, by decide +kernel⟩

theorem test_page_rewrite_healthy : ∃ (s : State) (p temp r : Nat) (mi ms : Bool), (mainUp s = true) ∧ (s.lv.flushCause = 0) ∧ (p < 25165824) ∧ (r ≤ (retryBins (pageAge s p)).length) ∧ (mi = false ∨ r = (retryBins (pageAge s p)).length) ∧ (pageAge s p ≤ 12) ∧ (ms = mapMisses s p) ∧ answered (exec (.pageRewrite p temp false r mi ms) s) (fun t => decide (t.lv.pages = s.lv.pages ∧ tget 0 t.lv.ctr 5 = satInc (tget 0 s.lv.ctr 5) (if r = 0 then 0 else 1) ∧ t = readPage s p r mi)) = true :=
  ⟨{ up with now := 4096 * 3600000000000 - 1 }, 0, 60, 0, false, true, by decide +kernel⟩

theorem test_page_rewrite_refused : ∃ (s : State) (p temp r : Nat) (weak mi ms : Bool), (25165824 ≤ p ∨ ms ≠ mapMisses s p ∨ (retryBins (pageAge s p)).length < r ∨ (mi = true ∧ r ≠ (retryBins (pageAge s p)).length)) ∧ answered (exec (.pageRewrite p temp weak r mi ms) s) (fun t => decide (t = s)) = true :=
  ⟨up, 7, 60, 3, true, true, true, by decide +kernel⟩

theorem test_lpddr_package_fail_done : ∃ (s : State) (n : Nat), (n < 2) ∧ answered (exec (.lpddrPackageFail n) s) (fun t => decide (t.lv.lpddrFail = s.lv.lpddrFail ||| 2 ^ n ∧ t = unpend { s with lv := { s.lv with lpddrFail := s.lv.lpddrFail ||| 2 ^ n } } (10 * 256 + n))) = true :=
  ⟨{ up with lv := { up.lv with lpddrFail := 1 }, ph := { up.ph with partWait := [2560, 2561] } }, 1, by decide +kernel⟩

theorem test_nand_package_fail_done : ∃ (s : State) (k : Nat), (k < 8) ∧ answered (exec (.nandPackageFail k) s) (fun t => decide (nandPkg t k = { nandPkg s k with state := 1 } ∧ t.lv.nandDegraded = s.lv.nandDegraded ||| 2 ^ (k % 4) ∧ t = nandOut s k)) = true :=
  ⟨up, 7, by decide +kernel⟩

theorem test_holdup_measure_done : ∃ (s : State) (u : Nat), answered (exec (.holdupMeasure u) s) (fun t => decide (t.lv.usable = u ∧ t.lv.dirtyEff = effOf u s.lv.dirtyMax ∧ t.lv.need = needOf t.lv.dirtyEff ∧ t.lv.holdupLow = (s.lv.charging || flushExceeds 64 u) ∧ t = applyHoldup { s with lv := { s.lv with usable := u } })) = true :=
  ⟨up, 130, by decide +kernel⟩

theorem test_holdup_charged_done : ∃ (s : State), (s.lv.charging = true) ∧ (flushExceeds 64 s.lv.usable = false) ∧ answered (exec (.holdupCharged) s) (fun t => decide (t.lv.charging = false ∧ t.lv.dirtyEff = effOf s.lv.usable s.lv.dirtyMax ∧ t.lv.need = needOf t.lv.dirtyEff ∧ t.lv.holdupLow = false ∧ t = applyHoldup { s with lv := { s.lv with charging := false } })) = true :=
  ⟨{ State.reset with lv := { State.reset.lv with usable := 1525 } }, by decide +kernel⟩

theorem test_holdup_charged_too_low : ∃ (s : State), (s.lv.charging = false ∨ flushExceeds 64 s.lv.usable = true) ∧ answered (exec (.holdupCharged) s) (fun t => decide (t = s)) = true :=
  ⟨State.reset, by decide +kernel⟩

theorem test_commit_lv_limits : ∃ (s : State) (cs : Nat) (d : List W64), (Presents s cs 0xF6 d) ∧ (df d 0 0 2 = 0) ∧ (enableOf d = true) ∧ (Fresh s cs 0xF6 (stampKey okLvPolicy 0)) ∧ ((ctl s cs).priv = 1) ∧ (reservedSet d lvMasks = false) ∧ (64 ≤ df d 1 0 16) ∧ (df d 1 0 16 < df d 1 16 16) ∧ (df d 1 16 16 ≤ 1024) ∧ (16 ≤ df d 1 32 16) ∧ (df d 1 32 16 ≤ 4096) ∧ (flushExceeds (df d 1 16 16) s.lv.usable = false) ∧ answered (exec (.commitLvLimits cs) s) (fun t => decide (Committed s t cs 0 (statusWord (lvStatus t 0)) ∧ lvStatus t 0 = accepted (lvStatus s 0) ∧ t.lv.dirtyHigh = df d 1 0 16 ∧ t.lv.dirtyMax = df d 1 16 16 ∧ t.lv.wlSpread = df d 1 32 16 ∧ t.lv.dirtyEff = effOf s.lv.usable t.lv.dirtyMax ∧ t.lv.need = needOf t.lv.dirtyEff ∧ t = ctlComplete (grantCommit (applyHoldup { (setLvStatus s 0 (accepted (lvStatus s 0))) with lv := { (setLvStatus s 0 (accepted (lvStatus s 0))).lv with dirtyHigh := df d 1 0 16, dirtyMax := df d 1 16 16, wlSpread := df d 1 32 16 } }) cs 0xF6 ((stampKey okLvPolicy 0))) cs 0 (some (statusWord (lvStatus t 0))) (some (stampKey okLvPolicy 0)) 64)) = true :=
  ⟨prog up 0xF6 [0, w64 (64 + 65 * 2 ^ 16 + 4096 * 2 ^ 32), 0, 1], 0, [0, w64 (64 + 65 * 2 ^ 16 + 4096 * 2 ^ 32), 0, 1], by decide +kernel⟩

theorem test_commit_lv_limits_disable : ∃ (s : State) (cs : Nat) (d : List W64), (Presents s cs 0xF6 d) ∧ (df d 0 0 2 = 0) ∧ (enableOf d = false) ∧ (Fresh s cs 0xF6 (stampKey okLvPolicy 0)) ∧ answered (exec (.commitLvLimits cs) s) (fun t => decide (Completed s t cs 0 ∧ t = ctlComplete (grantCommit s cs 0xF6 ((stampKey okLvPolicy 0))) cs 0 (some (statusWord (lvStatus s 0))) none 64)) = true :=
  ⟨prog up 0xF6 [0, 0, 0, 0], 0, [0, 0, 0, 0], by decide +kernel⟩

theorem test_commit_lv_limits_exceeding : ∃ (s : State) (cs : Nat) (d : List W64), (Presents s cs 0xF6 d) ∧ (df d 0 0 2 = 0) ∧ (enableOf d = true) ∧ (Fresh s cs 0xF6 (stampKey okLvPolicy 0)) ∧ ((ctl s cs).priv = 1) ∧ (reservedSet d lvMasks = false) ∧ (64 ≤ df d 1 0 16) ∧ (df d 1 0 16 ≤ 1024) ∧ (64 ≤ df d 1 16 16) ∧ (df d 1 16 16 ≤ 1024) ∧ (16 ≤ df d 1 32 16) ∧ (df d 1 32 16 ≤ 4096) ∧ (flushExceeds (df d 1 16 16) s.lv.usable = true) ∧ answered (exec (.commitLvLimits cs) s) (fun t => decide (Completed s t cs 0x0C01 ∧ lvStatus t 0 = refused (lvStatus s 0) 0x0C01 ∧ t = ctlComplete (grantCommit (setLvStatus s 0 (refused (lvStatus s 0) 0x0C01)) cs 0xF6 ((stampKey okLvPolicy 0))) cs 0x0C01 (some (statusWord (refused (lvStatus s 0) 0x0C01))) none 64)) = true :=
  ⟨prog { up with lv := { up.lv with usable := 1100 } } 0xF6 [0, w64 (64 + 1024 * 2 ^ 16 + 4096 * 2 ^ 32), 0, 1], 0, [0, w64 (64 + 1024 * 2 ^ 16 + 4096 * 2 ^ 32), 0, 1], by decide +kernel⟩

theorem test_commit_lv_limits_crossed : ∃ (s : State) (cs : Nat) (d : List W64), (Presents s cs 0xF6 d) ∧ (df d 0 0 2 = 0) ∧ (enableOf d = true) ∧ (Fresh s cs 0xF6 (stampKey okLvPolicy 0)) ∧ ((ctl s cs).priv = 1) ∧ (reservedSet d lvMasks = false) ∧ (64 ≤ df d 1 16 16) ∧ (df d 1 16 16 ≤ df d 1 0 16) ∧ (df d 1 0 16 ≤ 1024) ∧ (16 ≤ df d 1 32 16) ∧ (df d 1 32 16 ≤ 4096) ∧ (flushExceeds (df d 1 16 16) s.lv.usable = false) ∧ answered (exec (.commitLvLimits cs) s) (fun t => decide (Completed s t cs 0x0C02 ∧ lvStatus t 0 = refused (lvStatus s 0) 0x0C02 ∧ t = ctlComplete (grantCommit (setLvStatus s 0 (refused (lvStatus s 0) 0x0C02)) cs 0xF6 ((stampKey okLvPolicy 0))) cs 0x0C02 (some (statusWord (refused (lvStatus s 0) 0x0C02))) none 64)) = true :=
  ⟨prog up 0xF6 [0, w64 (64 + 64 * 2 ^ 16 + 16 * 2 ^ 32), 0, 1], 0, [0, w64 (64 + 64 * 2 ^ 16 + 16 * 2 ^ 32), 0, 1], by decide +kernel⟩

theorem test_commit_lv_limits_range : ∃ (s : State) (cs : Nat) (d : List W64), (Presents s cs 0xF6 d) ∧ (df d 0 0 2 = 0) ∧ (enableOf d = true) ∧ (Fresh s cs 0xF6 (stampKey okLvPolicy 0)) ∧ ((ctl s cs).priv = 1) ∧ (reservedSet d lvMasks = false) ∧ (¬ ((64 ≤ df d 1 0 16 ∧ df d 1 0 16 ≤ 1024) ∧ (64 ≤ df d 1 16 16 ∧ df d 1 16 16 ≤ 1024) ∧ 16 ≤ df d 1 32 16 ∧ df d 1 32 16 ≤ 4096)) ∧ answered (exec (.commitLvLimits cs) s) (fun t => decide (Completed s t cs 4 ∧ t = ctlComplete (grantCommit (setLvStatus s 0 (refused (lvStatus s 0) 4)) cs 0xF6 ((stampKey okLvPolicy 0))) cs 4 (some (statusWord (refused (lvStatus s 0) 4))) none 64)) = true :=
  ⟨prog up 0xF6 [0, w64 (63 + 65 * 2 ^ 16 + 4096 * 2 ^ 32), 0, 1], 0, [0, w64 (63 + 65 * 2 ^ 16 + 4096 * 2 ^ 32), 0, 1], by decide +kernel⟩

theorem test_commit_lv_limits_reserved : ∃ (s : State) (cs : Nat) (d : List W64), (Presents s cs 0xF6 d) ∧ (df d 0 0 2 = 0) ∧ (enableOf d = true) ∧ (Fresh s cs 0xF6 (stampKey okLvPolicy 0)) ∧ ((ctl s cs).priv = 1) ∧ (reservedSet d lvMasks = true) ∧ answered (exec (.commitLvLimits cs) s) (fun t => decide (Completed s t cs 9 ∧ t = ctlComplete (grantCommit (setLvStatus s 0 (refused (lvStatus s 0) 9)) cs 0xF6 ((stampKey okLvPolicy 0))) cs 9 (some (statusWord (refused (lvStatus s 0) 9))) none 64)) = true :=
  ⟨prog up 0xF6 [0x20, 0, 0, 1], 0, [0x20, 0, 0, 1], by decide +kernel⟩

theorem test_commit_lv_limits_privilege : ∃ (s : State) (cs : Nat) (d : List W64), (Presents s cs 0xF6 d) ∧ (df d 0 0 2 = 0) ∧ (enableOf d = true) ∧ (Fresh s cs 0xF6 (stampKey okLvPolicy 0)) ∧ ((ctl s cs).priv ≠ 1) ∧ answered (exec (.commitLvLimits cs) s) (fun t => decide (Completed s t cs 3 ∧ t = ctlComplete (grantCommit (setLvStatus s 0 (refused (lvStatus s 0) 3)) cs 0xF6 ((stampKey okLvPolicy 0))) cs 3 (some (statusWord (refused (lvStatus s 0) 3))) none 64)) = true :=
  ⟨progRt up 5 0xF6 [0, 0, 0, 1], 0, [0, 0, 0, 1], by decide +kernel⟩

theorem test_commit_lv_image : ∃ (s : State) (cs : Nat) (d : List W64), (Presents s cs 0xF6 d) ∧ (df d 0 0 2 = 1) ∧ (enableOf d = true) ∧ (Fresh s cs 0xF6 (stampKey okLvPolicy 1)) ∧ ((ctl s cs).priv = 1) ∧ (s.lv.imgWriting = none) ∧ (reservedSet d lvMasks = false) ∧ (1 ≤ df d 0 8 3) ∧ (df d 0 8 3 ≤ 4) ∧ (df d 1 0 60 % 4096 = 0) ∧ (df d 2 0 32 ≤ 67108864) ∧ (headerOk s (df d 0 8 3) (bulkRead s (df d 1 0 60) (df d 2 0 32)) = true) ∧ (sourceOk s (df d 1 0 60) (df d 2 0 32) = true) ∧ answered (exec (.commitLvImage cs) s) (fun t => decide (Committed s t cs 0 (statusWord (lvStatus t 1)) ∧ lvStatus t 1 = { enabled := true, checking := (lvStatus s 1).checking, draining := (lvStatus s 1).draining, owner := writeState 1 0 } ∧ t.lv.imgWriting = some (df d 0 8 3, df d 1 0 60, df d 2 0 32) ∧ t = ctlComplete (grantCommit ({ (setLvStatus (setLvStatus s 1 (accepted (lvStatus s 1))) 1 { lvStatus (setLvStatus s 1 (accepted (lvStatus s 1))) 1 with owner := writeState 1 0 }) with lv := { (setLvStatus (setLvStatus s 1 (accepted (lvStatus s 1))) 1 { lvStatus (setLvStatus s 1 (accepted (lvStatus s 1))) 1 with owner := writeState 1 0 }).lv with imgWriting := some (df d 0 8 3, df d 1 0 60, df d 2 0 32) } }) cs 0xF6 ((stampKey okLvPolicy 1))) cs 0 (some (statusWord (lvStatus t 1))) (some (stampKey okLvPolicy 1)) 64)) = true :=
  ⟨prog (fwPage up) 0xF6 [0x201, 0x2C00000, 192, 1], 0, [0x201, 0x2C00000, 192, 1], by decide +kernel⟩

theorem test_commit_lv_image_disable : ∃ (s : State) (cs : Nat) (d : List W64), (Presents s cs 0xF6 d) ∧ (df d 0 0 2 = 1) ∧ (enableOf d = false) ∧ (Fresh s cs 0xF6 (stampKey okLvPolicy 1)) ∧ answered (exec (.commitLvImage cs) s) (fun t => decide (Completed s t cs 0 ∧ t = ctlComplete (grantCommit s cs 0xF6 ((stampKey okLvPolicy 1))) cs 0 (some (statusWord (lvStatus s 1))) none 64)) = true :=
  ⟨prog up 0xF6 [1, 0, 0, 0], 0, [1, 0, 0, 0], by decide +kernel⟩

theorem test_commit_lv_image_bad_header : ∃ (s : State) (cs : Nat) (d : List W64), (Presents s cs 0xF6 d) ∧ (df d 0 0 2 = 1) ∧ (enableOf d = true) ∧ (Fresh s cs 0xF6 (stampKey okLvPolicy 1)) ∧ ((ctl s cs).priv = 1) ∧ (s.lv.imgWriting = none) ∧ (reservedSet d lvMasks = false) ∧ (1 ≤ df d 0 8 3) ∧ (df d 0 8 3 ≤ 4) ∧ (df d 1 0 60 % 4096 = 0) ∧ (df d 2 0 32 ≤ 67108864) ∧ (headerOk s (df d 0 8 3) (bulkRead s (df d 1 0 60) (df d 2 0 32)) = false) ∧ answered (exec (.commitLvImage cs) s) (fun t => decide (Completed s t cs 0x0C03 ∧ lvStatus t 1 = refused (lvStatus s 1) 0x0C03 ∧ t = ctlComplete (grantCommit (setLvStatus s 1 (refused (lvStatus s 1) 0x0C03)) cs 0xF6 ((stampKey okLvPolicy 1))) cs 0x0C03 (some (statusWord (refused (lvStatus s 1) 0x0C03))) none 64)) = true :=
  ⟨prog (fwPage up) 0xF6 [0x301, 0x2C00000, 192, 1], 0, [0x301, 0x2C00000, 192, 1], by decide +kernel⟩

theorem test_commit_lv_image_range : ∃ (s : State) (cs : Nat) (d : List W64), (Presents s cs 0xF6 d) ∧ (df d 0 0 2 = 1) ∧ (enableOf d = true) ∧ (Fresh s cs 0xF6 (stampKey okLvPolicy 1)) ∧ ((ctl s cs).priv = 1) ∧ (s.lv.imgWriting = none) ∧ (reservedSet d lvMasks = false) ∧ (¬ (1 ≤ df d 0 8 3 ∧ df d 0 8 3 ≤ 4) ∨ df d 1 0 60 % 4096 ≠ 0 ∨ 67108864 < df d 2 0 32) ∧ answered (exec (.commitLvImage cs) s) (fun t => decide (Completed s t cs 4 ∧ t = ctlComplete (grantCommit (setLvStatus s 1 (refused (lvStatus s 1) 4)) cs 0xF6 ((stampKey okLvPolicy 1))) cs 4 (some (statusWord (refused (lvStatus s 1) 4))) none 64)) = true :=
  ⟨prog (fwPage up) 0xF6 [0x501, 0x2C00000, 192, 1], 0, [0x501, 0x2C00000, 192, 1], by decide +kernel⟩

theorem test_commit_lv_image_busy : ∃ (s : State) (cs : Nat) (d : List W64), (Presents s cs 0xF6 d) ∧ (df d 0 0 2 = 1) ∧ (enableOf d = true) ∧ (Fresh s cs 0xF6 (stampKey okLvPolicy 1)) ∧ ((ctl s cs).priv = 1) ∧ (s.lv.imgWriting ≠ none) ∧ answered (exec (.commitLvImage cs) s) (fun t => decide (Completed s t cs 1 ∧ t = ctlComplete (grantCommit (setLvStatus s 1 (refused (lvStatus s 1) 1)) cs 0xF6 ((stampKey okLvPolicy 1))) cs 1 (some (statusWord (refused (lvStatus s 1) 1))) none 64)) = true :=
  ⟨prog { fwPage up with lv := { up.lv with imgWriting := some (1, 0, 0) } } 0xF6 [0x201, 0x2C00000, 192, 1], 0, [0x201, 0x2C00000, 192, 1], by decide +kernel⟩

theorem test_commit_lv_image_host_page : ∃ (s : State) (cs : Nat) (d : List W64), (Presents s cs 0xF6 d) ∧ (df d 0 0 2 = 1) ∧ (enableOf d = true) ∧ (Fresh s cs 0xF6 (stampKey okLvPolicy 1)) ∧ ((ctl s cs).priv = 1) ∧ (s.lv.imgWriting = none) ∧ (reservedSet d lvMasks = false) ∧ (1 ≤ df d 0 8 3) ∧ (df d 0 8 3 ≤ 4) ∧ (df d 1 0 60 % 4096 = 0) ∧ (df d 2 0 32 ≤ 67108864) ∧ (headerOk s (df d 0 8 3) (bulkRead s (df d 1 0 60) (df d 2 0 32)) = true) ∧ (sourceOk s (df d 1 0 60) (df d 2 0 32) = false) ∧ answered (exec (.commitLvImage cs) s) (fun t => decide (Completed s t cs 0x0C04 ∧ t = ctlComplete (grantCommit (setLvStatus s 1 (refused (lvStatus s 1) 0x0C04)) cs 0xF6 ((stampKey okLvPolicy 1))) cs 0x0C04 (some (statusWord (refused (lvStatus s 1) 0x0C04))) none 64)) = true :=
  ⟨prog (fwPage2 up) 0xF6 [0x201, 0x2C00000, 192, 1], 0, [0x201, 0x2C00000, 192, 1], by decide +kernel⟩

theorem test_lv_image_write_end_done : ∃ (s : State) (layer off len : Nat), (mainUp s = true) ∧ (s.lv.flushCause = 0) ∧ (s.lv.imgWriting = some (layer, off, len)) ∧ answered (exec (.lvImageWriteEnd) s) (fun _ => decide (True)) = true :=
  ⟨{ fwPage up with lv := { up.lv with imgWriting := some (2, 0x2C00000, 192) } }, 2, 0x2C00000, 192, by decide +kernel⟩

theorem test_lv_image_write_end_none : ∃ (s : State), (s.lv.imgWriting = none) ∧ answered (exec (.lvImageWriteEnd) s) (fun t => decide (t = s)) = true :=
  ⟨up, by decide +kernel⟩

theorem test_commit_lv_rtable : ∃ (s : State) (cs : Nat) (d : List W64), (Presents s cs 0xF6 d) ∧ (df d 0 0 2 = 2) ∧ (enableOf d = true) ∧ (Fresh s cs 0xF6 (stampKey okLvPolicy 2)) ∧ ((ctl s cs).priv = 1) ∧ (reservedSet d lvMasks = false) ∧ (df d 1 0 60 % 4096 = 0) ∧ (sourceOk s (df d 1 0 60) 128 = true) ∧ answered (exec (.commitLvRtable cs) s) (fun t => decide (Committed s t cs 0 (statusWord (lvStatus t 2)) ∧ ∀ a : Fin 16, tget 0 t.lv.rtable a.val = wd (bytesWords 16 (bulkRead s (df d 1 0 60) 128)) a.val ∧ t = ctlComplete (grantCommit ({ (setLvStatus s 2 (accepted (lvStatus s 2))) with lv := { (setLvStatus s 2 (accepted (lvStatus s 2))).lv with rtable := (List.range 16).foldl (fun r a => tput 0 r a (wd (bytesWords 16 (bulkRead s (df d 1 0 60) 128)) a)) s.lv.rtable } }) cs 0xF6 ((stampKey okLvPolicy 2))) cs 0 (some (statusWord (lvStatus t 2))) (some (stampKey okLvPolicy 2)) 64)) = true :=
  ⟨prog { up with cc := { up.cc with flags := [(0x2C00, 3)], bulk := memWrite [] 0x2C00000 (List.replicate 128 9) } } 0xF6 [2, 0x2C00000, 0, 1], 0, [2, 0x2C00000, 0, 1], by decide +kernel⟩

theorem test_commit_lv_rtable_disable : ∃ (s : State) (cs : Nat) (d : List W64), (Presents s cs 0xF6 d) ∧ (df d 0 0 2 = 2) ∧ (enableOf d = false) ∧ (Fresh s cs 0xF6 (stampKey okLvPolicy 2)) ∧ answered (exec (.commitLvRtable cs) s) (fun t => decide (Completed s t cs 0 ∧ t = ctlComplete (grantCommit s cs 0xF6 ((stampKey okLvPolicy 2))) cs 0 (some (statusWord (lvStatus s 2))) none 64)) = true :=
  ⟨prog up 0xF6 [2, 0, 0, 0], 0, [2, 0, 0, 0], by decide +kernel⟩

theorem test_commit_lv_rtable_host_page : ∃ (s : State) (cs : Nat) (d : List W64), (Presents s cs 0xF6 d) ∧ (df d 0 0 2 = 2) ∧ (enableOf d = true) ∧ (Fresh s cs 0xF6 (stampKey okLvPolicy 2)) ∧ ((ctl s cs).priv = 1) ∧ (reservedSet d lvMasks = false) ∧ (df d 1 0 60 % 4096 = 0) ∧ (sourceOk s (df d 1 0 60) 128 = false) ∧ answered (exec (.commitLvRtable cs) s) (fun t => decide (Completed s t cs 0x0C04 ∧ lvStatus t 2 = refused (lvStatus s 2) 0x0C04 ∧ t = ctlComplete (grantCommit (setLvStatus s 2 (refused (lvStatus s 2) 0x0C04)) cs 0xF6 ((stampKey okLvPolicy 2))) cs 0x0C04 (some (statusWord (refused (lvStatus s 2) 0x0C04))) none 64)) = true :=
  ⟨prog up 0xF6 [2, 0x2C00000, 0, 1], 0, [2, 0x2C00000, 0, 1], by decide +kernel⟩

theorem test_commit_lv_rtable_range : ∃ (s : State) (cs : Nat) (d : List W64), (Presents s cs 0xF6 d) ∧ (df d 0 0 2 = 2) ∧ (enableOf d = true) ∧ (Fresh s cs 0xF6 (stampKey okLvPolicy 2)) ∧ ((ctl s cs).priv = 1) ∧ (reservedSet d lvMasks = false) ∧ (df d 1 0 60 % 4096 ≠ 0) ∧ answered (exec (.commitLvRtable cs) s) (fun t => decide (Completed s t cs 4 ∧ t = ctlComplete (grantCommit (setLvStatus s 2 (refused (lvStatus s 2) 4)) cs 0xF6 ((stampKey okLvPolicy 2))) cs 4 (some (statusWord (refused (lvStatus s 2) 4))) none 64)) = true :=
  ⟨prog up 0xF6 [2, 0x2C00800, 0, 1], 0, [2, 0x2C00800, 0, 1], by decide +kernel⟩

theorem test_commit_lv_export : ∃ (s : State) (cs : Nat) (d : List W64), (Presents s cs 0xF6 d) ∧ (df d 0 0 2 = 3) ∧ (enableOf d = true) ∧ (Fresh s cs 0xF6 (stampKey okLvPolicy 3)) ∧ ((ctl s cs).priv = 1) ∧ (s.lv.exporting = none) ∧ (reservedSet d lvMasks = false) ∧ (df d 0 16 2 ≤ 2) ∧ (df d 1 0 60 % 4096 = 0) ∧ (df d 2 0 32 + df d 2 32 32 ≤ areaRecords (df d 0 16 2)) ∧ (pagesInGen s (df d 1 0 60) (exportLen s (df d 0 16 2) (df d 2 32 32)) = true) ∧ answered (exec (.commitLvExport cs) s) (fun t => decide (Committed s t cs 0 (statusWord (lvStatus t 3)) ∧ (lvStatus t 3).owner = writeState 1 0 ∧ t.lv.exporting = some (df d 0 16 2, df d 1 0 60, df d 2 0 32, df d 2 32 32) ∧ t = ctlComplete (grantCommit ({ (setLvStatus (setLvStatus s 3 (accepted (lvStatus s 3))) 3 { lvStatus (setLvStatus s 3 (accepted (lvStatus s 3))) 3 with owner := writeState 1 0 }) with lv := { (setLvStatus (setLvStatus s 3 (accepted (lvStatus s 3))) 3 { lvStatus (setLvStatus s 3 (accepted (lvStatus s 3))) 3 with owner := writeState 1 0 }).lv with exporting := some (df d 0 16 2, df d 1 0 60, df d 2 0 32, df d 2 32 32) } }) cs 0xF6 ((stampKey okLvPolicy 3))) cs 0 (some (statusWord (lvStatus t 3))) (some (stampKey okLvPolicy 3)) 64)) = true :=
  ⟨prog up 0xF6 [0x10003, 0x2C00000, w64 (1022 + 2 * 2 ^ 32), 1], 0, [0x10003, 0x2C00000, w64 (1022 + 2 * 2 ^ 32), 1], by decide +kernel⟩

theorem test_commit_lv_export_disable : ∃ (s : State) (cs : Nat) (d : List W64), (Presents s cs 0xF6 d) ∧ (df d 0 0 2 = 3) ∧ (enableOf d = false) ∧ (Fresh s cs 0xF6 (stampKey okLvPolicy 3)) ∧ answered (exec (.commitLvExport cs) s) (fun t => decide (Completed s t cs 0 ∧ t = ctlComplete (grantCommit s cs 0xF6 ((stampKey okLvPolicy 3))) cs 0 (some (statusWord (lvStatus s 3))) none 64)) = true :=
  ⟨prog up 0xF6 [3, 0, 0, 0], 0, [3, 0, 0, 0], by decide +kernel⟩

theorem test_commit_lv_export_range : ∃ (s : State) (cs : Nat) (d : List W64), (Presents s cs 0xF6 d) ∧ (df d 0 0 2 = 3) ∧ (enableOf d = true) ∧ (Fresh s cs 0xF6 (stampKey okLvPolicy 3)) ∧ ((ctl s cs).priv = 1) ∧ (s.lv.exporting = none) ∧ (reservedSet d lvMasks = false) ∧ (df d 0 16 2 ≤ 2) ∧ (df d 1 0 60 % 4096 = 0) ∧ ((decide (areaRecords (df d 0 16 2) < df d 2 0 32 + df d 2 32 32) || !pagesInGen s (df d 1 0 60) (exportLen s (df d 0 16 2) (df d 2 32 32))) = true) ∧ answered (exec (.commitLvExport cs) s) (fun t => decide (Completed s t cs 0x0C05 ∧ lvStatus t 3 = refused (lvStatus s 3) 0x0C05 ∧ t = ctlComplete (grantCommit (setLvStatus s 3 (refused (lvStatus s 3) 0x0C05)) cs 0xF6 ((stampKey okLvPolicy 3))) cs 0x0C05 (some (statusWord (refused (lvStatus s 3) 0x0C05))) none 64)) = true :=
  ⟨prog up 0xF6 [0x10003, 0x2C00000, w64 (1023 + 2 * 2 ^ 32), 1], 0, [0x10003, 0x2C00000, w64 (1023 + 2 * 2 ^ 32), 1], by decide +kernel⟩

theorem test_commit_lv_export_area : ∃ (s : State) (cs : Nat) (d : List W64), (Presents s cs 0xF6 d) ∧ (df d 0 0 2 = 3) ∧ (enableOf d = true) ∧ (Fresh s cs 0xF6 (stampKey okLvPolicy 3)) ∧ ((ctl s cs).priv = 1) ∧ (s.lv.exporting = none) ∧ (reservedSet d lvMasks = false) ∧ (df d 0 16 2 = 3 ∨ df d 1 0 60 % 4096 ≠ 0) ∧ answered (exec (.commitLvExport cs) s) (fun t => decide (Completed s t cs 4 ∧ t = ctlComplete (grantCommit (setLvStatus s 3 (refused (lvStatus s 3) 4)) cs 0xF6 ((stampKey okLvPolicy 3))) cs 4 (some (statusWord (refused (lvStatus s 3) 4))) none 64)) = true :=
  ⟨prog up 0xF6 [0x30003, 0x2C00000, 0, 1], 0, [0x30003, 0x2C00000, 0, 1], by decide +kernel⟩

theorem test_commit_lv_export_busy : ∃ (s : State) (cs : Nat) (d : List W64), (Presents s cs 0xF6 d) ∧ (df d 0 0 2 = 3) ∧ (enableOf d = true) ∧ (Fresh s cs 0xF6 (stampKey okLvPolicy 3)) ∧ ((ctl s cs).priv = 1) ∧ (s.lv.exporting ≠ none) ∧ answered (exec (.commitLvExport cs) s) (fun t => decide (Completed s t cs 1 ∧ t = ctlComplete (grantCommit (setLvStatus s 3 (refused (lvStatus s 3) 1)) cs 0xF6 ((stampKey okLvPolicy 3))) cs 1 (some (statusWord (refused (lvStatus s 3) 1))) none 64)) = true :=
  ⟨prog { up with lv := { up.lv with exporting := some (0, 0, 0, 0) } } 0xF6 [3, 0x2C00000, 0, 1], 0, [3, 0x2C00000, 0, 1], by decide +kernel⟩

theorem test_lv_export_write_end_done : ∃ (s : State) (area dest first n : Nat), (mainUp s = true) ∧ (s.lv.flushCause = 0) ∧ (s.lv.exporting = some (area, dest, first, n)) ∧ answered (exec (.lvExportWriteEnd none) s) (fun t => decide (t.lv.exporting = none ∧ (lvStatus t 3).owner = writeState 2 0 ∧ t.cc.bulk = memWrite s.cc.bulk dest ((List.range n).flatMap fun i => areaRecord s area (first + i)) ∧ t = setLvStatus { s with lv := { s.lv with exporting := none }, cc := { s.cc with bulk := memWrite s.cc.bulk dest ((List.range n).flatMap fun i => areaRecord s area (first + i)) } } 3 { lvStatus { s with lv := { s.lv with exporting := none }, cc := { s.cc with bulk := memWrite s.cc.bulk dest ((List.range n).flatMap fun i => areaRecord s area (first + i)) } } 3 with owner := writeState 2 0 })) = true :=
  ⟨{ up with lv := { up.lv with handover := [1, 2, 3], exporting := some (2, 0x2C00000, 0, 1) } }, 2, 0x2C00000, 0, 1, by decide +kernel⟩

theorem test_lv_export_write_end_failed : ∃ (s : State) (c : Nat) (x : Nat × Nat × Nat × Nat), (mainUp s = true) ∧ (s.lv.flushCause = 0) ∧ (s.lv.exporting = some x) ∧ answered (exec (.lvExportWriteEnd (some c)) s) (fun t => decide (t.lv.exporting = none ∧ (lvStatus t 3).owner = writeState 3 c ∧ t = setLvStatus { s with lv := { s.lv with exporting := none } } 3 { lvStatus { s with lv := { s.lv with exporting := none } } 3 with owner := writeState 3 c })) = true :=
  ⟨{ up with lv := { up.lv with exporting := some (0, 0, 0, 0) } }, 7, (0, 0, 0, 0), by decide +kernel⟩

theorem test_lv_export_write_end_none : ∃ (s : State) (c : Option Nat), (s.lv.exporting = none) ∧ answered (exec (.lvExportWriteEnd c) s) (fun t => decide (t = s)) = true :=
  ⟨up, none, by decide +kernel⟩

theorem test_snapshot_taken : ∃ (s : State) (p : Path) (v : W64), (access s p 0x2000 8 = .served) ∧ (fld v 48 16 = 0xA5C3) ∧ (fld v 0 8 = 1) ∧ (s.cc.aonRun = 0) ∧ answered (exec (.snapshot p v) s) (fun t => decide (∀ i : Fin 32, tget 0 t.cc.snap i.val = snapWord s i.val ∧ t.cc.aonOp = 1 ∧ t.cc.aonState = 2 ∧ bit t.cc.intStatus 22 = true ∧ t = aonDone (takeSnapshot { s with resp := .ok, cc := { s.cc with aonOp := 1, aonState := 1, aonRun := 1 } }) 1)) = true :=
  ⟨up, .sideband, aonCode 1 0, by decide +kernel⟩

theorem test_snapshot_busy : ∃ (s : State) (p : Path) (v : W64), (access s p 0x2000 8 = .served) ∧ (fld v 48 16 = 0xA5C3) ∧ (fld v 0 8 = 1) ∧ (s.cc.aonRun ≠ 0) ∧ answered (exec (.snapshot p v) s) (fun t => decide (t = { s with resp := .ok, cc := { s.cc with aonOp := 1, aonState := 3 } })) = true :=
  ⟨{ up with cc := { up.cc with aonRun := 8 } }, .sideband, aonCode 1 0, by decide +kernel⟩

theorem test_fence_all_stands : ∃ (s : State) (p : Path) (v : W64), (access s p 0x2000 8 = .served) ∧ (fld v 48 16 = 0xA5C3) ∧ (fld v 0 8 = 2) ∧ (s.cc.aonRun = 0) ∧ answered (exec (.fenceAll p v) s) (fun t => decide (t = raiseEvent { s with resp := .ok, cc := { s.cc with aonOp := 2, aonState := 2, fenceAll := true } } 22)) = true :=
  ⟨up, .cxl, aonCode 2 1, by decide +kernel⟩

theorem test_fence_all_busy : ∃ (s : State) (p : Path) (v : W64), (access s p 0x2000 8 = .served) ∧ (fld v 48 16 = 0xA5C3) ∧ (fld v 0 8 = 2) ∧ (s.cc.aonRun ≠ 0) ∧ answered (exec (.fenceAll p v) s) (fun t => decide (t = { s with resp := .ok, cc := { s.cc with aonOp := 2, aonState := 3 } })) = true :=
  ⟨{ up with cc := { up.cc with aonRun := 8 } }, .cxl, aonCode 2 1, by decide +kernel⟩

theorem test_fence_all_no_key : ∃ (s : State) (p : Path) (v : W64), (access s p 0x2000 8 = .served) ∧ (fld v 48 16 ≠ 0xA5C3) ∧ (fld v 0 8 = 2) ∧ answered (exec (.fenceAll p v) s) (fun t => decide (t = { s with resp := .ok })) = true :=
  ⟨up, .cxl, 2, by decide +kernel⟩

theorem test_key_zeroise_done : ∃ (s : State) (p : Path) (v : W64), (access s p 0x2000 8 = .served) ∧ (fld v 48 16 = 0xA5C3) ∧ (fld v 0 8 = 3) ∧ (s.cc.aonRun = 0) ∧ answered (exec (.keyZeroise p v) s) (fun t => decide (t.cc.aonState = 2 ∧ t.cc.aonOp = 3 ∧ bit t.cc.intStatus 22 = true ∧ t.resp = .ok ∧ t = aonDone (zeroiseAll { s with resp := .ok, cc := { s.cc with aonOp := 3, aonState := 1, aonRun := 3 } }) 3)) = true :=
  ⟨pool, .sideband, aonCode 3 0, by decide +kernel⟩

theorem test_key_zeroise_busy : ∃ (s : State) (p : Path) (v : W64), (access s p 0x2000 8 = .served) ∧ (fld v 48 16 = 0xA5C3) ∧ (fld v 0 8 = 3) ∧ (s.cc.aonRun ≠ 0) ∧ answered (exec (.keyZeroise p v) s) (fun t => decide (t = { s with resp := .ok, cc := { s.cc with aonOp := 3, aonState := 3 } })) = true :=
  ⟨{ up with cc := { up.cc with aonRun := 8 } }, .sideband, aonCode 3 0, by decide +kernel⟩

theorem test_journal_flush_started : ∃ (s : State) (p : Path) (v : W64), (access s p 0x2000 8 = .served) ∧ (fld v 48 16 = 0xA5C3) ∧ (fld v 0 8 = 4) ∧ (s.cc.aonRun = 0) ∧ (s.hw.off = false) ∧ (s.lv.flushCause = 0) ∧ (imageDue s = true) ∧ answered (exec (.journalFlush p v) s) (fun t => decide (t.cc.aonState = 1 ∧ t.cc.aonRun = 4 ∧ t.cc.staged = [] ∧ t.lv = { s.lv with flushCause := 4, flushThen := 0, flushRecovery := false, flushReset := 0, flushStart := s.now, inputBack := false, state := t.lv.state } ∧ t.lv.state = (if s.lv.state = 6 then 6 else 2) ∧ t.hw.safe = 1 ∧ t.vimg.prev = s.vimg.cur ∧ t.vimg.cur = volImage s 4 ∧ t = startFlush { s with resp := .ok, cc := { s.cc with aonOp := 4, aonState := 1, aonRun := 4 } } 4 0 0 false)) = true :=
  ⟨{ up with vimg := { cur := { present := true, time := 9 } } }, .sideband, aonCode 4 0, by decide +kernel⟩

theorem test_journal_flush_any : ∃ (s : State) (p : Path) (v : W64), (access s p 0x2000 8 = .served) ∧ (fld v 48 16 = 0xA5C3) ∧ (fld v 0 8 = 4) ∧ (s.cc.aonRun = 0) ∧ (s.hw.off = false) ∧ answered (exec (.journalFlush p v) s) (fun t => decide (t = startFlush { s with resp := .ok, cc := { s.cc with aonOp := 4, aonState := 1, aonRun := 4 } } 4 0 0 false)) = true :=
  ⟨{ up with lv := { up.lv with flushCause := 1, flushThen := 5 } }, .sideband, aonCode 4 0, by decide +kernel⟩

theorem test_journal_flush_off : ∃ (s : State) (p : Path) (v : W64), (access s p 0x2000 8 = .served) ∧ (fld v 48 16 = 0xA5C3) ∧ (fld v 0 8 = 4) ∧ (s.cc.aonRun ≠ 0 ∨ s.hw.off = true) ∧ answered (exec (.journalFlush p v) s) (fun t => decide (t = { s with resp := .ok, cc := { s.cc with aonOp := 4, aonState := 3 } })) = true :=
  ⟨offNow, .sideband, aonCode 4 0, by decide +kernel⟩

theorem test_warm_reset_started : ∃ (s : State) (p : Path) (v : W64), (access s p 0x2000 8 = .served) ∧ (fld v 48 16 = 0xA5C3) ∧ (fld v 0 8 = 5) ∧ (s.cc.aonRun = 0) ∧ (s.hw.off = false) ∧ (s.lv.flushCause = 0) ∧ answered (exec (.warmReset p v) s) (fun t => decide (t.cc.aonState = 1 ∧ t.cc.aonRun = 5 ∧ t.lv = { s.lv with flushCause := 2, flushThen := 1, flushRecovery := bit v 8, flushReset := 2, flushStart := s.now, inputBack := false, state := t.lv.state } ∧ t.hw.safe = 1 ∧ t = startFlush { s with resp := .ok, cc := { s.cc with aonOp := 5, aonState := 1, aonRun := 5 } } 2 1 2 (bit v 8))) = true :=
  ⟨up, .cxl, aonCode 5 1, by decide +kernel⟩

theorem test_warm_reset_any : ∃ (s : State) (p : Path) (v : W64), (access s p 0x2000 8 = .served) ∧ (fld v 48 16 = 0xA5C3) ∧ (fld v 0 8 = 5) ∧ (s.cc.aonRun = 0) ∧ (s.hw.off = false) ∧ answered (exec (.warmReset p v) s) (fun t => decide (t = startFlush { s with resp := .ok, cc := { s.cc with aonOp := 5, aonState := 1, aonRun := 5 } } 2 1 2 (bit v 8))) = true :=
  ⟨{ up with lv := { up.lv with flushCause := 4 } }, .sideband, aonCode 5 1, by decide +kernel⟩

theorem test_warm_reset_barred : ∃ (s : State) (p : Path) (v : W64), (access s p 0x2000 8 = .served) ∧ (fld v 48 16 = 0xA5C3) ∧ (fld v 0 8 = 5) ∧ (s.cc.aonRun ≠ 0 ∨ s.hw.off = true) ∧ answered (exec (.warmReset p v) s) (fun t => decide (t = { s with resp := .ok, cc := { s.cc with aonOp := 5, aonState := 3 } })) = true :=
  ⟨offNow, .sideband, aonCode 5 0, by decide +kernel⟩

theorem test_cold_reset_started : ∃ (s : State) (p : Path) (v : W64), (access s p 0x2000 8 = .served) ∧ (fld v 48 16 = 0xA5C3) ∧ (fld v 0 8 = 6) ∧ (s.hw.off = false) ∧ (s.lv.flushCause = 0) ∧ answered (exec (.coldReset p v) s) (fun t => decide (t.cc.aonRun = 6 ∧ t.lv = { s.lv with flushCause := 3, flushThen := 2, flushRecovery := bit v 8, flushReset := 3, flushStart := s.now, inputBack := false, state := t.lv.state } ∧ t.hw.safe = 1 ∧ t = startFlush { takeOver { s with resp := .ok } 6 with cc := { s.cc with aonOp := 6, aonState := 1, aonRun := 6 } } 3 2 3 (bit v 8))) = true :=
  ⟨{ up with cc := { up.cc with aonRun := 8 } }, .cxl, aonCode 6 0, by decide +kernel⟩

theorem test_cold_reset_any : ∃ (s : State) (p : Path) (v : W64), (access s p 0x2000 8 = .served) ∧ (fld v 48 16 = 0xA5C3) ∧ (fld v 0 8 = 6) ∧ (s.hw.off = false) ∧ answered (exec (.coldReset p v) s) (fun t => decide (t = startFlush { takeOver { s with resp := .ok } 6 with cc := { s.cc with aonOp := 6, aonState := 1, aonRun := 6 } } 3 2 3 (bit v 8))) = true :=
  ⟨{ up with cc := { up.cc with aonRun := 7 }, lv := { up.lv with flushCause := 5, flushThen := 3 } }, .sideband, aonCode 6 1, by decide +kernel⟩

theorem test_cold_reset_of_off : ∃ (s : State) (p : Path) (v : W64), (access s p 0x2000 8 = .served) ∧ (fld v 48 16 = 0xA5C3) ∧ (fld v 0 8 = 6) ∧ (s.hw.off = true) ∧ answered (exec (.coldReset p v) s) (fun t => decide (t.hw.off = false ∧ t.cc.resetCause = 3 ∧ t.cc.recReq = bit v 8 ∧ t.cc.stage = 0 ∧ t.cc.aonOp = 6 ∧ t.cc.aonState = 1 ∧ t.cc.aonRun = 6 ∧ t.lv.flushCause = 0 ∧ t.now = 0 ∧ t = resetNow { takeOver { s with resp := .ok } 6 with cc := { s.cc with aonOp := 6, aonState := 1, aonRun := 6 } } true 3 (bit v 8))) = true :=
  ⟨offNow, .sideband, aonCode 6 1, by decide +kernel⟩

theorem test_power_off_started : ∃ (s : State) (p : Path) (v : W64), (access s p 0x2000 8 = .served) ∧ (fld v 48 16 = 0xA5C3) ∧ (fld v 0 8 = 7) ∧ (s.hw.off = false) ∧ (s.lv.flushCause = 0) ∧ answered (exec (.powerOff p v) s) (fun t => decide (t.cc.aonRun = 7 ∧ t.lv = { s.lv with flushCause := 5, flushThen := 3, flushRecovery := false, flushReset := 0, flushStart := s.now, inputBack := false, state := t.lv.state } ∧ t = startFlush { s with resp := .ok, cc := { s.cc with aonOp := 7, aonState := 1, aonRun := 7 } } 5 3 0 false)) = true :=
  ⟨up, .cxl, aonCode 7 0, by decide +kernel⟩

theorem test_power_off_any : ∃ (s : State) (p : Path) (v : W64), (access s p 0x2000 8 = .served) ∧ (fld v 48 16 = 0xA5C3) ∧ (fld v 0 8 = 7) ∧ (s.hw.off = false) ∧ answered (exec (.powerOff p v) s) (fun t => decide (t = startFlush { s with resp := .ok, cc := { s.cc with aonOp := 7, aonState := 1, aonRun := 7 } } 5 3 0 false)) = true :=
  ⟨{ up with cc := { up.cc with aonRun := 6 }, lv := { up.lv with flushCause := 3, flushThen := 2 } }, .sideband, aonCode 7 0, by decide +kernel⟩

theorem test_power_off_of_off : ∃ (s : State) (p : Path) (v : W64), (access s p 0x2000 8 = .served) ∧ (fld v 48 16 = 0xA5C3) ∧ (fld v 0 8 = 7) ∧ (s.hw.off = true) ∧ answered (exec (.powerOff p v) s) (fun t => decide (t = raiseEvent { s with resp := .ok, cc := { s.cc with aonOp := 7, aonState := 2, aonRun := 0 } } 22)) = true :=
  ⟨offNow, .sideband, aonCode 7 0, by decide +kernel⟩

theorem test_remove_hands_over : ∃ (s : State) (p : Path) (v : W64), (access s p 0x2000 8 = .served) ∧ (fld v 48 16 = 0xA5C3) ∧ (fld v 0 8 = 8) ∧ (s.cc.aonRun = 0) ∧ (working s = true) ∧ (s.lv.state < 5) ∧ (s.hw.off = false) ∧ (s.cc.staged = []) ∧ (s.cc.jq.all (fun x => x.2.bells.isEmpty) = true) ∧ (allStopped s = true) ∧ answered (exec (.remove p v) s) (fun t => decide (t.lv.state = 5 ∧ t.lv.handover = handoverBytes s (s.lv.nextSeq - 1) ∧ t.cc.bulk = memWrite s.cc.bulk s.cc.hoBase t.lv.handover ∧ t.lv.recs = s.lv.recs.map (fun r => if ((handoverRecs s).map (·.seq)).contains r.seq then { r with exported := true } else r) ∧ t.lv.removeStart = none ∧ t.lv.flushCause = 6 ∧ t.lv.flushThen = 4 ∧ t.cc.aonRun = 8 ∧ t.hw.safe = 1 ∧ t = startRemove { s with resp := .ok, cc := { s.cc with aonOp := 8, aonState := 1, aonRun := 8 } })) = true :=
  ⟨{ up with lv := { up.lv with recs := [{ seq := 4, queue := 1 }], nextSeq := 5 } }, .sideband, aonCode 8 0, by decide +kernel⟩

theorem test_remove_waits : ∃ (s : State) (p : Path) (v : W64), (access s p 0x2000 8 = .served) ∧ (fld v 48 16 = 0xA5C3) ∧ (fld v 0 8 = 8) ∧ (s.cc.aonRun = 0) ∧ (working s = true) ∧ (s.lv.state < 5) ∧ (s.hw.off = false) ∧ (s.cc.staged = []) ∧ (s.cc.jq.all (fun x => x.2.bells.isEmpty) = true) ∧ (s.sa.seqs.all (fun x => x.2.job.isNone) = true) ∧ (s.cc.seqs.any (fun x => decide (x.2.state = 1)) = true) ∧ answered (exec (.remove p v) s) (fun t => decide (t.lv = { s.lv with state := 5, removeStart := some (s.now, s.lv.nextSeq - 1), removeStopped := false } ∧ t.cc = { s.cc with aonOp := 8, aonState := 1, aonRun := 8 } ∧ t = startRemove { s with resp := .ok, cc := { s.cc with aonOp := 8, aonState := 1, aonRun := 8 } })) = true :=
  ⟨oldProg up, .sideband, aonCode 8 0, by decide +kernel⟩

theorem test_remove_starts : ∃ (s : State) (p : Path) (v : W64), (access s p 0x2000 8 = .served) ∧ (fld v 48 16 = 0xA5C3) ∧ (fld v 0 8 = 8) ∧ (s.cc.aonRun = 0) ∧ (s.hw.off = false) ∧ (removeOk s = true) ∧ answered (exec (.remove p v) s) (fun t => decide (t = startRemove { s with resp := .ok, cc := { s.cc with aonOp := 8, aonState := 1, aonRun := 8 } })) = true :=
  ⟨{ oldProg up with cc := { (oldProg up).cc with jq := [(3, { bells := [{ f := { op := 7, src := 9 } }] })] } }, .sideband, aonCode 8 0, by decide +kernel⟩

theorem test_remove_refused : ∃ (s : State) (p : Path) (v : W64), (access s p 0x2000 8 = .served) ∧ (fld v 48 16 = 0xA5C3) ∧ (fld v 0 8 = 8) ∧ (s.cc.aonRun ≠ 0 ∨ s.hw.off = true ∨ removeOk s = false) ∧ answered (exec (.remove p v) s) (fun t => decide (t = { s with resp := .ok, cc := { s.cc with aonOp := 8, aonState := 3 } })) = true :=
  ⟨{ up with lv := { up.lv with state := 6 } }, .sideband, aonCode 8 0, by decide +kernel⟩

theorem test_remove_stop_deadline_done : ∃ (s : State) (x last : Nat), (s.lv.removeStart = some (x, last)) ∧ (working s = true) ∧ (s.lv.removeStopped = false) ∧ (x + 10000000 ≤ s.now) ∧ (s.sa.seqs.all (fun x => x.2.job.isNone) = true) ∧ (s.cc.seqs.all (fun x => decide (x.1 < 9)) = true) ∧ (tabWf {} s.cc.seqs = true) ∧ answered (exec (.removeStopDeadline) s) (fun t => decide (t.lv.removeStopped = true ∧ t.lv.removeStart = none ∧ t.lv.flushCause = 6 ∧ t.lv.flushThen = 4 ∧ ∀ cs : Fin 9, (ctl t cs.val).state ≠ 1 ∧ t = tryHandover (stopRunning s))) = true :=
  ⟨{ oldProg up with now := 10000005, lv := { (oldProg up).lv with state := 5, removeStart := some (5, 9) } }, 5, 9, by decide +kernel⟩

theorem test_remove_stop_deadline_any : ∃ (s : State) (x last : Nat), (s.lv.removeStart = some (x, last)) ∧ (working s = true) ∧ (s.lv.removeStopped = false) ∧ (x + 10000000 ≤ s.now) ∧ answered (exec (.removeStopDeadline) s) (fun t => decide (t = tryHandover (stopRunning s))) = true :=
  ⟨{ work 2 [ins 0x21 0 0] with now := 10000005, lv := { up.lv with state := 5, removeStart := some (5, 9) } }, 5, 9, by decide +kernel⟩

theorem test_remove_stop_deadline_not_due : ∃ (s : State) (x last : Nat), (s.lv.removeStart = some (x, last)) ∧ (working s = false ∨ s.lv.removeStopped = true ∨ s.now < x + 10000000) ∧ answered (exec (.removeStopDeadline) s) (fun t => decide (t = s)) = true :=
  ⟨{ oldProg up with now := 10000004, lv := { (oldProg up).lv with state := 5, removeStart := some (5, 9) } }, 5, 9, by decide +kernel⟩

theorem test_remove_stop_deadline_none : ∃ (s : State), (s.lv.removeStart = none) ∧ answered (exec (.removeStopDeadline) s) (fun t => decide (t = s)) = true :=
  ⟨up, by decide +kernel⟩

theorem test_flush_complete_service : ∃ (s : State), (s.lv.flushCause ≠ 0) ∧ (s.lv.flushThen = 0) ∧ (imageDue s = true) ∧ (s.cc.aonRun ≠ 4) ∧ answered (exec (.flushComplete) s) (fun t => decide (t.lv.dirty = 0 ∧ t.lv.lastCause = s.lv.flushCause ∧ t.lv.flushCause = 0 ∧ t.lv.state = (if s.lv.state = 2 then 0 else s.lv.state) ∧ t.vimg = { s.vimg with cur := { s.vimg.cur with marked := true } } ∧ t.hw = { s.hw with safe := if s.lv.state = 6 then 2 else 0 } ∧ tget 0 t.lv.ctr 2 = satInc (tget 0 s.lv.ctr 2) 1 ∧ t = { (flushEnded s) with hw := { (flushEnded s).hw with safe := if (flushEnded s).lv.state = 6 then 2 else 0 } })) = true :=
  ⟨{ up with lv := { up.lv with flushCause := 4, state := 2, dirty := 64, fullSegs := [3, 4], recs := [{ seg := 4 }] }, hw := { up.hw with safe := 1 } }, by decide +kernel⟩

theorem test_flush_complete_journal_flush_done : ∃ (s : State), (s.lv.flushCause = 4) ∧ (s.lv.flushThen = 0) ∧ (s.cc.aonRun = 4) ∧ answered (exec (.flushComplete) s) (fun t => decide (t.lv.flushCause = 0 ∧ t.lv.dirty = 0 ∧ t.cc.aonRun = 0 ∧ t.cc.aonState = 2 ∧ t.cc.aonOp = 4 ∧ bit t.cc.intStatus 22 = true ∧ t = { (flushEnded s) with hw := { (flushEnded s).hw with safe := if (flushEnded s).lv.state = 6 then 2 else 0 } })) = true :=
  ⟨{ up with cc := { up.cc with aonRun := 4, aonState := 1 }, lv := { up.lv with flushCause := 4, state := 2 } }, by decide +kernel⟩

theorem test_flush_complete_exported : ∃ (s : State), (s.lv.flushCause = 6) ∧ (s.lv.flushThen = 4) ∧ (s.cc.aonRun ≠ 4) ∧ answered (exec (.flushComplete) s) (fun t => decide (t.lv.state = 6 ∧ t.lv.lastCause = 6 ∧ t.hw.safe = 2 ∧ t.cc.aonRun = (if s.cc.aonRun = 8 then 0 else s.cc.aonRun) ∧ s.cc.aonRun = 8 → t.cc.aonState = 2 ∧ bit t.cc.intStatus 22 = true ∧ t = aonDone { (flushEnded s) with lv := { (flushEnded s).lv with state := 6 }, hw := { (flushEnded s).hw with safe := 2 } } 8)) = true :=
  ⟨{ up with cc := { up.cc with aonRun := 8, aonState := 1 }, lv := { up.lv with flushCause := 6, flushThen := 4, state := 5 } }, by decide +kernel⟩

theorem test_flush_complete_off : ∃ (s : State), (s.lv.flushCause = 5) ∧ (s.lv.flushThen = 3) ∧ (s.lv.flushReset ≠ 6) ∧ (s.cc.aonRun = 7) ∧ answered (exec (.flushComplete) s) (fun t => decide (t.hw = { s.hw with off := true, mainOn := false, pwrgd := false, safe := 2 } ∧ t.lv.lastCause = 5 ∧ t.cc.aonRun = 0 ∧ t.cc.aonState = 2 ∧ t.cc.aonOp = 7 ∧ bit t.cc.intStatus 22 = true ∧ t = aonDone { (flushEnded s) with hw := { (flushEnded s).hw with off := true, mainOn := false, pwrgd := false, safe := 2 } } 7)) = true :=
  ⟨{ up with cc := { up.cc with aonRun := 7, aonState := 1 }, lv := { up.lv with flushCause := 5, flushThen := 3, state := 2 } }, by decide +kernel⟩

theorem test_flush_complete_thermal : ∃ (s : State), (s.lv.flushCause = 5) ∧ (s.lv.flushThen = 3) ∧ (s.lv.flushReset = 6) ∧ (s.cc.aonRun = 7) ∧ answered (exec (.flushComplete) s) (fun t => decide (t.hw.off = true ∧ t.cc.resetCause = 6 ∧ t = aonDone { { (flushEnded s) with hw := { (flushEnded s).hw with off := true, mainOn := false, pwrgd := false, safe := 2 } } with cc := { (flushEnded s).cc with resetCause := 6 } } 7)) = true :=
  ⟨{ up with cc := { up.cc with aonRun := 7, aonState := 1 }, lv := { up.lv with flushCause := 5, flushThen := 3, flushReset := 6, state := 2 } }, by decide +kernel⟩

theorem test_flush_complete_dark : ∃ (s : State), (s.lv.flushCause = 1) ∧ (s.lv.flushThen = 5) ∧ (s.lv.inputBack = false) ∧ (s.cc.aonRun ≠ 4) ∧ answered (exec (.flushComplete) s) (fun t => decide (t.hw = { s.hw with mainOn := false, pwrgd := false, safe := 0 } ∧ t.lv.charging = true ∧ t.lv.holdupLow = true ∧ t.lv.lastCause = 1 ∧ t = goDark (applyHoldup { (flushEnded s) with lv := { (flushEnded s).lv with charging := true } }))) = true :=
  ⟨{ up with hw := { up.hw with inputLost := true }, lv := { up.lv with flushCause := 1, flushThen := 5, flushReset := 1, state := 2 } }, by decide +kernel⟩

theorem test_flush_complete_input_back : ∃ (s : State), (s.lv.flushCause = 1) ∧ (s.lv.flushThen = 5) ∧ (s.lv.inputBack = true) ∧ answered (exec (.flushComplete) s) (fun t => decide (t.hw.inputLost = false ∧ t.cc.stage = 0 ∧ t.cc.resetCause = 1 ∧ t.cc.coldBoot = true ∧ t.now = 0 ∧ t.lv.charging = true ∧ t = resetNow { (applyHoldup { (flushEnded s) with lv := { (flushEnded s).lv with charging := true } }) with hw := { (applyHoldup { (flushEnded s) with lv := { (flushEnded s).lv with charging := true } }).hw with inputLost := false } } true 1 false)) = true :=
  ⟨{ up with hw := { up.hw with inputLost := true }, lv := { up.lv with flushCause := 1, flushThen := 5, flushReset := 1, state := 2, inputBack := true } }, by decide +kernel⟩

theorem test_flush_complete_warm_reset : ∃ (s : State), (s.lv.flushCause ≠ 0) ∧ (s.lv.flushThen = 1) ∧ (imageDue s = true) ∧ answered (exec (.flushComplete) s) (fun t => decide (t.cc.stage = 0 ∧ t.cc.bootDone = false ∧ t.cc.resetCause = s.lv.flushReset ∧ t.cc.recReq = s.lv.flushRecovery ∧ t.cc.warmCount = min 65535 (s.cc.warmCount + 1) ∧ t.cc.coldBoot = false ∧ t.cc.intMask = s.cc.intMask ∧ t.now = s.now ∧ t.pc.timeSet = s.pc.timeSet ∧ t.lv.recs = s.lv.recs ∧ t.lv.nextSeq = s.lv.nextSeq ∧ t.lv.flushCause = 0 ∧ t.tr.exts = s.tr.exts ∧ t.tr.regions = s.tr.regions ∧ t.tr.hbm = [] ∧ t.te.rc = [] ∧ t.ta.sess = [] ∧ t.ta.lcA = s.ta.lcA ∧ t.ta.anchor = s.ta.anchor ∧ t.sa.pats = s.sa.pats ∧ t.vimg = { s.vimg with cur := { s.vimg.cur with marked := true } } ∧ t.lv.lastCause = 0 ∧ t = resetNow (flushEnded s) false s.lv.flushReset s.lv.flushRecovery)) = true :=
  ⟨{ pool with now := 500, lv := { up.lv with flushCause := 2, flushThen := 1, flushReset := 2, flushRecovery := true }, cc := { up.cc with warmCount := 65535, intMask := 7 } }, by decide +kernel⟩

theorem test_flush_complete_cold_reset : ∃ (s : State), (s.lv.flushCause ≠ 0) ∧ (s.lv.flushThen = 2) ∧ answered (exec (.flushComplete) s) (fun t => decide (t.cc.stage = 0 ∧ t.cc.resetCause = s.lv.flushReset ∧ t.cc.recReq = s.lv.flushRecovery ∧ t.cc.warmCount = 0 ∧ t.cc.coldBoot = true ∧ t.cc.intMask = State.reset.cc.intMask ∧ t.now = 0 ∧ t.pc.timeSet = false ∧ t.ta.devId = [] ∧ t.ta.lcA = s.ta.lcA ∧ t.ta.lcB = s.ta.lcB ∧ t.lv.recs = s.lv.recs ∧ t.tr.exts = s.tr.exts ∧ t.te.rc = [] ∧ t = resetNow (flushEnded s) true s.lv.flushReset s.lv.flushRecovery)) = true :=
  ⟨{ pool with now := 500, lv := { up.lv with flushCause := 3, flushThen := 2, flushReset := 3 } }, by decide +kernel⟩

theorem test_flush_complete_service_any : ∃ (s : State), (s.lv.flushCause ≠ 0) ∧ (s.lv.flushThen = 0) ∧ answered (exec (.flushComplete) s) (fun t => decide (t = { (flushEnded s) with hw := { (flushEnded s).hw with safe := if (flushEnded s).lv.state = 6 then 2 else 0 } })) = true :=
  ⟨{ up with lv := { up.lv with flushCause := 1, flushThen := 0, state := 2 } }, by decide +kernel⟩

theorem test_flush_complete_export_any : ∃ (s : State), (s.lv.flushCause ≠ 0) ∧ (s.lv.flushThen = 4) ∧ answered (exec (.flushComplete) s) (fun t => decide (t = aonDone { (flushEnded s) with lv := { (flushEnded s).lv with state := 6 }, hw := { (flushEnded s).hw with safe := 2 } } 8)) = true :=
  ⟨{ up with lv := { up.lv with flushCause := 1, flushThen := 4, state := 2 } }, by decide +kernel⟩

theorem test_flush_complete_warm_any : ∃ (s : State), (s.lv.flushCause ≠ 0) ∧ (s.lv.flushThen = 1) ∧ answered (exec (.flushComplete) s) (fun t => decide (t = resetNow (flushEnded s) false s.lv.flushReset s.lv.flushRecovery)) = true :=
  ⟨{ up with lv := { up.lv with flushCause := 1, flushThen := 1, state := 2 } }, by decide +kernel⟩

theorem test_flush_complete_off_any : ∃ (s : State), (s.lv.flushCause ≠ 0) ∧ (s.lv.flushThen = 3) ∧ (s.lv.flushReset ≠ 6) ∧ answered (exec (.flushComplete) s) (fun t => decide (t = aonDone { (flushEnded s) with hw := { (flushEnded s).hw with off := true, mainOn := false, pwrgd := false, safe := 2 } } 7)) = true :=
  ⟨{ up with lv := { up.lv with flushCause := 1, flushThen := 3, state := 2 } }, by decide +kernel⟩

theorem test_flush_complete_thermal_any : ∃ (s : State), (s.lv.flushCause ≠ 0) ∧ (s.lv.flushThen = 3) ∧ (s.lv.flushReset = 6) ∧ answered (exec (.flushComplete) s) (fun t => decide (t = aonDone { { (flushEnded s) with hw := { (flushEnded s).hw with off := true, mainOn := false, pwrgd := false, safe := 2 } } with cc := { (flushEnded s).cc with resetCause := 6 } } 7)) = true :=
  ⟨{ up with lv := { up.lv with flushCause := 1, flushThen := 3, flushReset := 6, state := 2 } }, by decide +kernel⟩

theorem test_flush_complete_dark_any : ∃ (s : State), (s.lv.flushCause ≠ 0) ∧ (s.lv.flushThen = 5) ∧ (s.lv.inputBack = false) ∧ answered (exec (.flushComplete) s) (fun t => decide (t = goDark (applyHoldup { (flushEnded s) with lv := { (flushEnded s).lv with charging := true } }))) = true :=
  ⟨{ up with lv := { up.lv with flushCause := 1, flushThen := 5, state := 2 } }, by decide +kernel⟩

theorem test_flush_complete_none : ∃ (s : State), (s.lv.flushCause = 0) ∧ answered (exec (.flushComplete) s) (fun t => decide (t = s)) = true :=
  ⟨up, by decide +kernel⟩

theorem test_firmware_silent_done : ∃ (s : State), (s.hw.off = false) ∧ (unpowered s = false) ∧ (s.lv.flushCause = 0) ∧ (s.cc.stage = 4 ∨ s.cc.stage = 5 ∨ s.cc.stage = 6) ∧ answered (exec (.firmwareSilent) s) (fun t => decide (t.lv.crash = s.lv.crash ++ [(s.now, 4)] ∧ t.cc.crashIdx = s.lv.crash.length % 1024 ∧ t.lv.flushCause = 2 ∧ t.lv.flushThen = 1 ∧ t.lv.flushReset = 4 ∧ t = startFlush (crashRecord s 4) 2 1 4 false)) = true :=
  ⟨up, by decide +kernel⟩

theorem test_firmware_silent_in_flush : ∃ (s : State), (s.hw.off = false) ∧ (unpowered s = false) ∧ (s.cc.stage = 4 ∨ s.cc.stage = 5 ∨ s.cc.stage = 6) ∧ answered (exec (.firmwareSilent) s) (fun t => decide (t = startFlush (crashRecord s 4) 2 1 4 false)) = true :=
  ⟨{ up with lv := { up.lv with flushCause := 4 } }, by decide +kernel⟩

theorem test_firmware_silent_unheard : ∃ (s : State), (s.hw.off = true ∨ unpowered s = true ∨ s.cc.stage < 4 ∨ 6 < s.cc.stage) ∧ answered (exec (.firmwareSilent) s) (fun t => decide (t = s)) = true :=
  ⟨offNow, by decide +kernel⟩

theorem test_power_loss_flush : ∃ (s : State), (unpowered s = false) ∧ (s.hw.off = false) ∧ (s.lv.flushCause = 0) ∧ answered (exec (.powerLoss) s) (fun t => decide (t.lv = { s.lv with flushCause := 1, flushThen := 5, flushRecovery := false, flushReset := 1, flushStart := s.now, inputBack := false, state := t.lv.state } ∧ t.hw = { s.hw with inputLost := true, safe := 1 } ∧ t = startFlush { s with hw := { s.hw with inputLost := true } } 1 5 1 false)) = true :=
  ⟨up, by decide +kernel⟩

theorem test_power_loss_in_flush : ∃ (s : State), (unpowered s = false) ∧ (s.hw.off = false) ∧ answered (exec (.powerLoss) s) (fun t => decide (t = startFlush { s with hw := { s.hw with inputLost := true } } 1 5 1 false)) = true :=
  ⟨{ up with lv := { up.lv with flushCause := 4 } }, by decide +kernel⟩

theorem test_power_loss_unpowered : ∃ (s : State), (unpowered s = true) ∧ answered (exec (.powerLoss) s) (fun t => decide (t = s)) = true :=
  ⟨{ up with hw := { up.hw with inputOn := false } }, by decide +kernel⟩

theorem test_power_loss_off : ∃ (s : State), (unpowered s = false) ∧ (s.hw.off = true) ∧ answered (exec (.powerLoss) s) (fun t => decide (t = { s with hw := { s.hw with inputLost := true, off := false, safe := 0 } })) = true :=
  ⟨offNow, by decide +kernel⟩

theorem test_overvoltage_flush : ∃ (s : State), (unpowered s = false) ∧ (s.hw.off = false) ∧ (s.lv.flushCause = 0) ∧ answered (exec (.overvoltage) s) (fun t => decide (t.lv.flushCause = 1 ∧ t.lv.flushThen = 5 ∧ t.hw = { s.hw with inputLost := true, inputOn := false, safe := 1 } ∧ t = { loseInput s with hw := { (loseInput s).hw with inputOn := false } })) = true :=
  ⟨up, by decide +kernel⟩

theorem test_en_break_flush : ∃ (s : State), (unpowered s = false) ∧ (s.hw.off = false) ∧ (s.lv.flushCause = 0) ∧ answered (exec (.enBreak) s) (fun t => decide (t.lv.flushCause = 1 ∧ t.hw = { s.hw with inputLost := true, inputOn := false, en := false, safe := 1 } ∧ t = { loseInput s with hw := { (loseInput s).hw with en := false, inputOn := false } })) = true :=
  ⟨up, by decide +kernel⟩

theorem test_overvoltage_any : ∃ (s : State), (unpowered s = false) ∧ answered (exec (.overvoltage) s) (fun t => decide (t = { loseInput s with hw := { (loseInput s).hw with inputOn := false } })) = true :=
  ⟨offNow, by decide +kernel⟩

theorem test_overvoltage_unpowered : ∃ (s : State), (unpowered s = true) ∧ answered (exec (.overvoltage) s) (fun t => decide (t = s)) = true :=
  ⟨{ up with hw := { up.hw with inputOn := false } }, by decide +kernel⟩

theorem test_en_break_any : ∃ (s : State), answered (exec (.enBreak) s) (fun t => decide (t = { loseInput s with hw := { (loseInput s).hw with en := false, inputOn := false } })) = true :=
  ⟨{ up with hw := { up.hw with inputOn := false } }, by decide +kernel⟩

theorem test_undervolt_overvolt_set : ∃ (s : State) (v : Nat), (unpowered s = false) ∧ (4700 ≤ v) ∧ (v ≤ 6300) ∧ answered (exec (.undervoltOvervolt v) s) (fun t => decide (t = { s with ph := { s.ph with volts := v, undervolt := decide (v < 5000), overvolt := decide (6000 < v) } })) = true :=
  ⟨up, 4999, by decide +kernel⟩

theorem test_undervolt_overvolt_unread : ∃ (s : State) (v : Nat), (unpowered s = true ∨ v < 4700 ∨ 6300 < v) ∧ answered (exec (.undervoltOvervolt v) s) (fun t => decide (t = s)) = true :=
  ⟨up, 6301, by decide +kernel⟩

theorem test_input_switch_close_power_on : ∃ (s : State), (s.hw.inputOn = false) ∧ (s.lv.flushCause = 0) ∧ answered (exec (.inputSwitchClose) s) (fun t => decide (t.cc.stage = 0 ∧ t.cc.resetCause = (if s.hw.inputLost then 1 else 8) ∧ t.hw = { s.hw with en := true, inputOn := true, inputLost := false, mainOn := false, pwrgd := false, safe := 0, off := false } ∧ t.lv.charging = true ∧ t.ta.lcA = s.ta.lcA ∧ t = powerOn s)) = true :=
  ⟨{ up with hw := { up.hw with inputOn := false, en := false, inputLost := true } }, by decide +kernel⟩

theorem test_input_switch_close_in_flush : ∃ (s : State), (s.hw.inputOn = false) ∧ (s.lv.flushCause ≠ 0) ∧ answered (exec (.inputSwitchClose) s) (fun t => decide (t = { s with hw := { s.hw with inputOn := true, en := true }, lv := { s.lv with inputBack := true } })) = true :=
  ⟨{ up with hw := { up.hw with inputOn := false, en := false, inputLost := true }, lv := { up.lv with flushCause := 1 } }, by decide +kernel⟩

theorem test_input_switch_closed_already : ∃ (s : State), (s.hw.inputOn = true) ∧ answered (exec (.inputSwitchClose) s) (fun t => decide (t = s)) = true :=
  ⟨up, by decide +kernel⟩

theorem test_input_power_restored_in_flush : ∃ (s : State), (s.hw.inputLost = true) ∧ (s.hw.inputOn = true) ∧ (s.lv.flushCause ≠ 0) ∧ answered (exec (.inputPowerRestored) s) (fun t => decide (t = { s with lv := { s.lv with inputBack := true } })) = true :=
  ⟨{ up with hw := { up.hw with inputLost := true }, lv := { up.lv with flushCause := 1 } }, by decide +kernel⟩

theorem test_input_power_restored_power_on : ∃ (s : State), (s.hw.inputLost = true) ∧ (s.hw.inputOn = true) ∧ (s.lv.flushCause = 0) ∧ answered (exec (.inputPowerRestored) s) (fun t => decide (t.cc.stage = 0 ∧ t.cc.resetCause = 1 ∧ t.hw.inputLost = false ∧ t.hw.pwrgd = false ∧ t.lv.charging = true ∧ t = powerOn s)) = true :=
  ⟨{ up with hw := { up.hw with inputLost := true } }, by decide +kernel⟩

theorem test_input_power_not_lost : ∃ (s : State), (s.hw.inputLost = false ∨ s.hw.inputOn = false) ∧ answered (exec (.inputPowerRestored) s) (fun t => decide (t = s)) = true :=
  ⟨up, by decide +kernel⟩

theorem test_converter_regulation_loss_done : ∃ (s : State), answered (exec (.converterRegulationLoss) s) (fun t => decide (t = { s with hw := { s.hw with pwrgd := false } })) = true :=
  ⟨up, by decide +kernel⟩

theorem test_power_good_at_reset : ∃ (s : State), (s.hw.pwrgd = false) ∧ (unpowered s = false) ∧ (s.hw.off = false) ∧ (s.lv.flushCause = 0) ∧ (s.cc.stage = 0) ∧ answered (exec (.powerGood) s) (fun t => decide (t = { s with hw := { s.hw with pwrgd := true, mainOn := true } })) = true :=
  ⟨{ State.reset with hw := { State.reset.hw with pwrgd := false, mainOn := false } }, by decide +kernel⟩

theorem test_power_good_in_service : ∃ (s : State), (s.hw.pwrgd = false) ∧ (unpowered s = false) ∧ (s.hw.off = false) ∧ (s.lv.flushCause = 0) ∧ (s.cc.stage ≠ 0) ∧ answered (exec (.powerGood) s) (fun t => decide (t.cc.stage = 0 ∧ t.cc.resetCause = 8 ∧ t.hw.pwrgd = true ∧ t.hw.mainOn = true ∧ t = resetNow { s with hw := { s.hw with pwrgd := true, mainOn := true } } true 8 false)) = true :=
  ⟨{ up with hw := { up.hw with pwrgd := false } }, by decide +kernel⟩

theorem test_power_good_unused : ∃ (s : State), (s.hw.pwrgd = true ∨ unpowered s = true ∨ s.hw.off = true ∨ s.lv.flushCause ≠ 0) ∧ answered (exec (.powerGood) s) (fun t => decide (t = s)) = true :=
  ⟨up, by decide +kernel⟩

theorem test_reset_n_assert_flush : ∃ (s : State), (unpowered s = false) ∧ (s.hw.resetLow = false) ∧ (s.hw.off = false) ∧ (s.lv.flushCause = 0) ∧ answered (exec (.resetNAssert) s) (fun t => decide (t.lv = { s.lv with flushCause := 3, flushThen := 2, flushRecovery := false, flushReset := 7, flushStart := s.now, inputBack := false, state := t.lv.state } ∧ t.cc.aonOp = 6 ∧ t.cc.aonState = 1 ∧ t.cc.aonRun = 6 ∧ t.hw = { s.hw with resetLow := true, safe := 1 } ∧ t = { startCold { takeOver s 6 with cc := { (takeOver s 6).cc with aonOp := 6, aonState := 1, aonRun := 6 } } 7 false with hw := { (startCold { takeOver s 6 with cc := { (takeOver s 6).cc with aonOp := 6, aonState := 1, aonRun := 6 } } 7 false).hw with resetLow := true } })) = true :=
  ⟨up, by decide +kernel⟩

theorem test_reset_n_assert_any : ∃ (s : State), (unpowered s = false) ∧ (s.hw.resetLow = false) ∧ answered (exec (.resetNAssert) s) (fun t => decide (t = { startCold { takeOver s 6 with cc := { (takeOver s 6).cc with aonOp := 6, aonState := 1, aonRun := 6 } } 7 false with hw := { (startCold { takeOver s 6 with cc := { (takeOver s 6).cc with aonOp := 6, aonState := 1, aonRun := 6 } } 7 false).hw with resetLow := true } })) = true :=
  ⟨offNow, by decide +kernel⟩

theorem test_reset_n_assert_unpowered : ∃ (s : State), (unpowered s = true) ∧ answered (exec (.resetNAssert) s) (fun t => decide (t = { s with hw := { s.hw with resetLow := true } })) = true :=
  ⟨{ up with hw := { up.hw with inputOn := false } }, by decide +kernel⟩

theorem test_reset_n_assert_again : ∃ (s : State), (s.hw.resetLow = true) ∧ (unpowered s = false) ∧ answered (exec (.resetNAssert) s) (fun t => decide (t = s)) = true :=
  ⟨{ up with hw := { up.hw with resetLow := true } }, by decide +kernel⟩

theorem test_reset_n_release_done : ∃ (s : State), answered (exec (.resetNRelease) s) (fun t => decide (t = { s with hw := { s.hw with resetLow := false } })) = true :=
  ⟨{ up with hw := { up.hw with resetLow := true } }, by decide +kernel⟩

theorem test_attn_n_assert_removes : ∃ (s : State), (unpowered s = false) ∧ (s.hw.resetLow = false) ∧ (s.cc.aonRun = 0) ∧ (working s = true) ∧ (s.lv.state < 5) ∧ (s.cc.staged = []) ∧ (s.cc.jq.all (fun x => x.2.bells.isEmpty) = true) ∧ (s.sa.seqs.all (fun x => x.2.job.isNone) = true) ∧ (s.cc.seqs.any (fun x => decide (x.2.state = 1)) = true) ∧ answered (exec (.attnNAssert) s) (fun t => decide (t = { s with lv := { s.lv with state := 5, removeStart := some (s.now, s.lv.nextSeq - 1), removeStopped := false }, cc := { s.cc with aonOp := 8, aonState := 1, aonRun := 8 } })) = true :=
  ⟨oldProg up, by decide +kernel⟩

theorem test_attn_n_assert_any : ∃ (s : State), (unpowered s = false) ∧ (s.hw.resetLow = false) ∧ (s.cc.aonRun = 0) ∧ (removeOk s = true) ∧ answered (exec (.attnNAssert) s) (fun t => decide (t = startRemove { s with cc := { s.cc with aonOp := 8, aonState := 1, aonRun := 8 } })) = true :=
  ⟨up, by decide +kernel⟩

theorem test_attn_n_assert_ignored : ∃ (s : State), (unpowered s = true ∨ s.hw.resetLow = true ∨ s.cc.aonRun ≠ 0 ∨ removeOk s = false) ∧ answered (exec (.attnNAssert) s) (fun t => decide (t = s)) = true :=
  ⟨{ up with cc := { up.cc with aonRun := 8 } }, by decide +kernel⟩

theorem test_perst_n_change_low : ∃ (s : State), answered (exec (.perstNChange true) s) (fun t => decide (t = { s with hw := { s.hw with perstLow := true }, cc := { s.cc with ideIo := {}, ideMem := {} } })) = true :=
  ⟨{ up with cc := { up.cc with ideIo := { keys := [3], go := [3] }, ideMem := { keys := [1] } } }, by decide +kernel⟩

theorem test_perst_n_change_high : ∃ (s : State), answered (exec (.perstNChange false) s) (fun t => decide (t = { s with hw := { s.hw with perstLow := false } })) = true :=
  ⟨{ up with hw := { up.hw with perstLow := true } }, by decide +kernel⟩

theorem test_smbus_fallback_done : ∃ (s : State), answered (exec (.smbusFallback) s) (fun t => decide (t = { s with cc := { s.cc with sbSmbus := true } })) = true :=
  ⟨up, by decide +kernel⟩

theorem test_dynamic_address_assignment_done : ∃ (s : State) (a : Nat), (s.cc.sbSmbus = false) ∧ (unpowered s = false) ∧ (a < 128) ∧ answered (exec (.dynamicAddressAssignment a) s) (fun t => decide (t = { s with cc := { s.cc with sbAddr := a } })) = true :=
  ⟨up, 127, by decide +kernel⟩

theorem test_boot_identity_cold : ∃ (s : State), (bootRuns s = true) ∧ (s.cc.stage = 0) ∧ (s.ta.lcA.valid = true ∨ s.ta.lcB.valid = true) ∧ (s.cc.coldBoot = true) ∧ (s.ta.pufBad = false) ∧ ((lcNow s).debugNext = false) ∧ answered (exec (.bootIdentity) s) (fun t => decide (t.cc = { s.cc with stage := 2 } ∧ t.ta.debug = false)) = true :=
  ⟨State.reset, by decide +kernel⟩

theorem test_boot_identity_debug : ∃ (s : State), (bootRuns s = true) ∧ (s.cc.stage = 0) ∧ (s.ta.lcA.valid = true ∨ s.ta.lcB.valid = true) ∧ (s.cc.coldBoot = true) ∧ (s.ta.pufBad = false) ∧ ((lcNow s).debugNext = true) ∧ answered (exec (.bootIdentity) s) (fun t => decide (t.cc.stage = 2 ∧ t.ta.debug = true ∧ t.ta.deliv = [] ∧ lcNow t = { lcNow s with debugNext := false })) = true :=
  ⟨{ State.reset with ta := { State.reset.ta with lcB := { valid := true, seq := 2, val := { debugNext := true } } } }, by decide +kernel⟩

theorem test_boot_identity_warm : ∃ (s : State), (bootRuns s = true) ∧ (s.cc.stage = 0) ∧ (s.ta.lcA.valid = true ∨ s.ta.lcB.valid = true) ∧ (s.cc.coldBoot = false) ∧ answered (exec (.bootIdentity) s) (fun _ => decide (True)) = true :=
  ⟨{ State.reset with cc := { State.reset.cc with coldBoot := false } }, by decide +kernel⟩

theorem test_boot_identity_not_due : ∃ (s : State), (bootRuns s = false ∨ s.cc.stage ≠ 0) ∧ answered (exec (.bootIdentity) s) (fun t => decide (t = s)) = true :=
  ⟨up, by decide +kernel⟩

theorem test_boot_identity_no_record : ∃ (s : State), (bootRuns s = true) ∧ (s.cc.stage = 0) ∧ (s.ta.lcA.valid = false) ∧ (s.ta.lcB.valid = false) ∧ answered (exec (.bootIdentity) s) (fun t => decide (t = { s with cc := { s.cc with stage := 0xE3 } })) = true :=
  ⟨{ State.reset with ta := { State.reset.ta with lcA := {} } }, by decide +kernel⟩

theorem test_boot_identity_no_secret : ∃ (s : State), (bootRuns s = true) ∧ (s.cc.stage = 0) ∧ (s.cc.coldBoot = true) ∧ (s.ta.pufBad = true) ∧ (s.ta.lcA.valid = true ∨ s.ta.lcB.valid = true) ∧ answered (exec (.bootIdentity) s) (fun t => decide (t = { s with cc := { s.cc with stage := 0xE2 } })) = true :=
  ⟨{ State.reset with ta := { State.reset.ta with pufBad := true } }, by decide +kernel⟩

theorem test_firmware_load_runs : ∃ (s : State) (a b c d : Nat), (bootRuns s = true) ∧ (s.cc.stage = 2) ∧ (bootSlotOf s 1 = some a) ∧ (bootSlotOf s 2 = some b) ∧ (bootSlotOf s 3 = some c) ∧ (bootSlotOf s 4 = some d) ∧ answered (exec (.firmwareLoad) s) (fun t => decide (t.cc = { s.cc with stage := 4 } ∧ t.lv.state = (if s.lv.state = 6 then 6 else 3))) = true :=
  ⟨{ State.reset with cc := { State.reset.cc with stage := 2 } }, 0, 0, 0, 0, by decide +kernel⟩

theorem test_firmware_load_stops : ∃ (s : State) (a b : Nat), (bootRuns s = true) ∧ (s.cc.stage = 2) ∧ (bootSlotOf s 1 = some a) ∧ (bootSlotOf s 2 = some b) ∧ (bootSlotOf s 3 = none) ∧ answered (exec (.firmwareLoad) s) (fun t => decide (t = { s with cc := { s.cc with stage := 0xE1, recovery := true, recCause := 1, recLayer := 3 } })) = true :=
  ⟨{ State.reset with cc := { State.reset.cc with stage := 2 }, lv := { State.reset.lv with fw := [(2, { valid := true }), (4, { valid := true })] } }, 0, 0, by decide +kernel⟩

theorem test_firmware_load_stops_any : ∃ (s : State) (l : Nat), (bootRuns s = true) ∧ (s.cc.stage = 2) ∧ (([1, 2, 3, 4].find? fun l => (bootSlotOf s l).isNone) = some l) ∧ answered (exec (.firmwareLoad) s) (fun t => decide (t = { s with cc := { s.cc with stage := 0xE1, recovery := true, recCause := 1, recLayer := l } })) = true :=
  ⟨{ State.reset with cc := { State.reset.cc with stage := 2 }, lv := { State.reset.lv with fw := [(2, { valid := true }), (4, { valid := true }), (6, { valid := true })], bootSlot := [(4, 1)] } }, 4, by decide +kernel⟩

theorem test_firmware_load_not_due : ∃ (s : State), (bootRuns s = false ∨ s.cc.stage ≠ 2) ∧ answered (exec (.firmwareLoad) s) (fun t => decide (t = s)) = true :=
  ⟨up, by decide +kernel⟩

theorem test_restore_done : ∃ (s : State), (bootRuns s = true) ∧ (s.cc.stage = 4) ∧ (s.cc.recReq = false) ∧ (imageLost s = false) ∧ (s.sa.ready = true) ∧ (s.vimg.cur.present = true) ∧ (s.vimg.cur.marked = true) ∧ (s.lv.recs.all (fun r => decide (r.kind ≠ .completion)) = true) ∧ (s.ta.sealedUnder = ((lcNow s).idepoch, s.ta.debug)) ∧ (s.tr.tmap.all (fun x => decide (x.2.dirty = 0)) = true) ∧ answered (exec (.restore) s) (fun t => decide (t.cc.stage = 5 ∧ t.lv.state = (if s.lv.state = 6 then 6 else 4) ∧ t.lv.recs = s.lv.recs.filter (fun r => !r.exported) ∧ t.lv.nextSeq = (if s.lv.everStaged then s.lv.nextSeq else 1) ∧ t.te.marks = s.vimg.cur.marks ∧ t.te.rc = moveHolds s.vimg.cur.rc s.vimg.cur.time s.now ∧ t.tr.frames = [] ∧ t.tr.lframes = [] ∧ tget 0 t.lv.ctr 3 = satInc (tget 0 s.lv.ctr 3) (s.lv.recs.filter (fun r => !r.exported)).length ∧ t = restoreAll s)) = true :=
  ⟨{ pool with cc := { up.cc with stage := 4, resetCause := 2 }, sa := { up.sa with ready := true }, lv := { up.lv with recs := [{ seq := 3 }, { seq := 4, exported := true }], everStaged := true, nextSeq := 5 }, vimg := { cur := { present := true, marked := true, marks := [(3, 7)] } } }, by decide +kernel⟩

theorem test_restore_any : ∃ (s : State), (bootRuns s = true) ∧ (s.cc.stage = 4) ∧ (s.cc.recReq = false) ∧ (imageLost s = false) ∧ (s.sa.ready = true) ∧ answered (exec (.restore) s) (fun t => decide (t = restoreAll s)) = true :=
  ⟨{ pool with cc := { up.cc with stage := 4 }, sa := { up.sa with ready := true }, vimg := { cur := { present := true }, prev := { present := true, marked := true, marks := [(3, 7)] } } }, by decide +kernel⟩

theorem test_restore_waits : ∃ (s : State), (bootRuns s = false ∨ s.cc.stage ≠ 4 ∨ (s.cc.recReq = false ∧ imageLost s = false ∧ s.sa.ready = false)) ∧ answered (exec (.restore) s) (fun t => decide (t = s)) = true :=
  ⟨{ up with cc := { up.cc with stage := 4 } }, by decide +kernel⟩

theorem test_restore_recovery_asked : ∃ (s : State), (bootRuns s = true) ∧ (s.cc.stage = 4) ∧ (s.cc.recReq = true) ∧ answered (exec (.restore) s) (fun t => decide (t = { s with cc := { s.cc with recovery := true, recCause := 3, recLayer := 0, stage := 5 }, lv := { s.lv with state := if s.lv.state = 6 then 6 else 3 } })) = true :=
  ⟨{ booting 4 with cc := { up.cc with stage := 4, recReq := true } }, by decide +kernel⟩

theorem test_restore_image_lost : ∃ (s : State), (bootRuns s = true) ∧ (s.cc.stage = 4) ∧ (s.cc.recReq = false) ∧ (imageLost s = true) ∧ answered (exec (.restore) s) (fun t => decide (t = { s with cc := { s.cc with recovery := true, recCause := 2, recLayer := 0, stage := 5 }, lv := { s.lv with state := if s.lv.state = 6 then 6 else 3 } })) = true :=
  ⟨{ booting 4 with lv := { up.lv with nand := [(3, { state := 1 }), (7, { state := 1 })] } }, by decide +kernel⟩

theorem test_boot_ready_service : ∃ (s : State), (bootRuns s = true) ∧ (s.cc.stage = 5) ∧ (s.cc.recovery = false) ∧ (timeSource s = false) ∧ ((ctl s 8).state = 0) ∧ answered (exec (.bootReady) s) (fun t => decide (t.cc.stage = 6 ∧ t.lv = { s.lv with state := if s.lv.state = 6 then 6 else 0 } ∧ (ctl t 8).state = 2 ∧ t.cc.aonRun = (if s.cc.aonRun = 5 ∨ s.cc.aonRun = 6 then 0 else s.cc.aonRun) ∧ t = aonDone (aonDone (startService (setCtl (bootLv (bootStage s 6) 0) 8 { ctl (bootLv (bootStage s 6) 0) 8 with state := 2 })) 5) 6)) = true :=
  ⟨{ booting 5 with cc := { up.cc with stage := 5, aonRun := 5, aonState := 1 }, pc := { up.pc with ports := [(2, { timeRole := 2, status := { enabled := true } })] } }, by decide +kernel⟩

theorem test_boot_ready_recovery : ∃ (s : State), (bootRuns s = true) ∧ (s.cc.stage = 5) ∧ (s.cc.recovery = true) ∧ ((ctl s 8).state ≠ 0) ∧ answered (exec (.bootReady) s) (fun t => decide (t.cc.stage = 6 ∧ t.cc.aonRun = (if s.cc.aonRun = 5 ∨ s.cc.aonRun = 6 then 0 else s.cc.aonRun) ∧ t = aonDone (aonDone (bootLv (bootStage s 6) 0) 5) 6)) = true :=
  ⟨{ booting 5 with cc := { up.cc with stage := 5, recovery := true, seqs := [(8, { state := 2 })] } }, by decide +kernel⟩

theorem test_boot_ready_any : ∃ (s : State), (bootRuns s = true) ∧ (s.cc.stage = 5) ∧ answered (exec (.bootReady) s) (fun t => decide (t = aonDone (aonDone (if s.cc.recovery then (if (ctl s 8).state = 0 then (setCtl (bootLv (bootStage s 6) 0) 8 { ctl (bootLv (bootStage s 6) 0) 8 with state := 2 }) else (bootLv (bootStage s 6) 0)) else startService (if (ctl s 8).state = 0 then (setCtl (bootLv (bootStage s 6) 0) 8 { ctl (bootLv (bootStage s 6) 0) 8 with state := 2 }) else (bootLv (bootStage s 6) 0))) 5) 6)) = true :=
  ⟨{ booting 5 with cc := { up.cc with stage := 5, coldBoot := true }, vimg := { cur := { present := true, marked := true, time := 77 } } }, by decide +kernel⟩

theorem test_boot_ready_not_due : ∃ (s : State), (bootRuns s = false ∨ s.cc.stage ≠ 5) ∧ answered (exec (.bootReady) s) (fun t => decide (t = s)) = true :=
  ⟨up, by decide +kernel⟩

theorem test_recovery_image_bad_header : ∃ (s : State), (s.cc.recovery = true) ∧ (msgReady s 0 5 = true) ∧ ((mbx s 0).outFull = false) ∧ (headerOk s (fld (inMsg s 0 2) 0 8) (bulkRead s (fld (inMsg s 0 1) 0 60) (fld (inMsg s 0 2) 32 32)) = false) ∧ answered (exec (.recoveryImage) s) (fun t => decide ((mbx t 0).inFull = false ∧ (mbx t 0).outFull = true ∧ (mbx t 0).outQ = [replyHead 0x82 (msgTag s 0), 0, statusReason 0 0x0C03, w64 s.now] ∧ t = cpDone (takeMsg s 0) 0 (msgTag s 0) 0 0 0x0C03)) = true :=
  ⟨message { up with cc := { up.cc with recovery := true } } 0 0 [5, 0x2C00000, w64 (2 + 192 * 2 ^ 32)], by decide +kernel⟩

theorem test_recovery_image_written : ∃ (s : State) (layer off len : Nat), (s.cc.recovery = true) ∧ (msgReady s 0 5 = true) ∧ ((mbx s 0).outFull = false) ∧ (fld (inMsg s 0 2) 0 8 = layer) ∧ (fld (inMsg s 0 1) 0 60 = off) ∧ (fld (inMsg s 0 2) 32 32 = len) ∧ (1 ≤ layer) ∧ (layer ≤ 4) ∧ (headerOk s layer (bulkRead s off len) = true) ∧ (off % 4096 = 0) ∧ (sourceOk s off len = true) ∧ answered (exec (.recoveryImage) s) (fun _ => decide (True)) = true :=
  ⟨message (fwPage { up with cc := { up.cc with recovery := true } }) 0 0 [5, 0x2C00000, w64 (2 + 192 * 2 ^ 32)], 2, 0x2C00000, 192, by decide +kernel⟩

theorem test_recovery_image_any : ∃ (s : State), (s.cc.recovery = true) ∧ (msgReady s 0 5 = true) ∧ answered (exec (.recoveryImage) s) (fun _ => decide (True)) = true :=
  ⟨message (fwPage { up with cc := { up.cc with recovery := true } }) 0 0 [5, 0x2C00000, w64 (5 + 192 * 2 ^ 32)], by decide +kernel⟩

theorem test_recovery_image_unasked : ∃ (s : State), (s.cc.recovery = false ∨ msgReady s 0 5 = false) ∧ answered (exec (.recoveryImage) s) (fun t => decide (t = s)) = true :=
  ⟨message up 0 0 [5, 0x2C00000, w64 (2 + 192 * 2 ^ 32)], by decide +kernel⟩

theorem test_hbm_stack_fail_keeps_area : ∃ (s : State) (n : Nat), (mainUp s = true) ∧ (n < hbmStacks s) ∧ (0 < n) ∧ (s.ph.hbmFail.testBit n = false) ∧ ((List.range 32).all (fun i => decide ((pch s (32 * n + i)).state ≠ 0)) = true) ∧ answered (exec (.hbmStackFail n) s) (fun t => decide (t.ph.hbmFail = s.ph.hbmFail ||| 2 ^ n ∧ ∀ i : Fin 32, (pch t (32 * n + i.val)).state = 5 ∧ (pch t (32 * n + i.val)).tenant = 0 ∧ t.lv.flushCause = s.lv.flushCause ∧ t = stackGone s n)) = true :=
  ⟨pool, 3, by decide +kernel⟩

theorem test_hbm_stack_fail_area : ∃ (s : State), (mainUp s = true) ∧ (s.lv.flushCause = 0) ∧ (s.ph.hbmFail.testBit 0 = false) ∧ answered (exec (.hbmStackFail 0) s) (fun t => decide (t.ph.hbmFail = s.ph.hbmFail ||| 1 ∧ ∀ i : Fin 32, (pch t i.val).state = 5 ∧ t.te.rc = [] ∧ t.te.tLost = some s.now ∧ t.lv.crash = s.lv.crash ++ [(s.now, 5)] ∧ t.lv.flushCause = 2 ∧ t.lv.flushThen = 1 ∧ t.lv.flushReset = 5 ∧ t = startFlush (crashRecord (loseReplies (stackGone s 0)) 5) 2 1 5 false)) = true :=
  ⟨up, by decide +kernel⟩

theorem test_hbm_stack_fail_holds_area : ∃ (s : State) (n : Nat), (mainUp s = true) ∧ (n < hbmStacks s) ∧ (s.ph.hbmFail.testBit n = false) ∧ (holdsArea s n = true) ∧ answered (exec (.hbmStackFail n) s) (fun t => decide (t = startFlush (crashRecord (loseReplies (stackGone s n)) 5) 2 1 5 false)) = true :=
  ⟨pool, 0, by decide +kernel⟩

theorem test_hbm_stack_fail_other : ∃ (s : State) (n : Nat), (mainUp s = true) ∧ (n < hbmStacks s) ∧ (s.ph.hbmFail.testBit n = false) ∧ (holdsArea s n = false) ∧ answered (exec (.hbmStackFail n) s) (fun t => decide (t = stackGone s n)) = true :=
  ⟨{ pool with tr := { pool.tr with tmap := [(0, { loc := 2, frame := (96 * 2 ^ 12) })] } }, 3, by decide +kernel⟩

theorem test_hbm_stack_fail_absent : ∃ (s : State) (n : Nat), (hbmStacks s ≤ n ∨ s.ph.hbmFail.testBit n = true) ∧ answered (exec (.hbmStackFail n) s) (fun t => decide (t = s)) = true :=
  ⟨pool, 4, by decide +kernel⟩

theorem test_device_area_ue_reply_cache : ∃ (s : State), (mainUp s = true) ∧ answered (exec (.deviceAreaUe .replyCache) s) (fun t => decide (t = { s with te := { s.te with rc := [], tLost := some s.now } })) = true :=
  ⟨up, by decide +kernel⟩

theorem test_device_area_ue_tier_map : ∃ (s : State) (a n : Nat), (mainUp s = true) ∧ (s.tr.moves = []) ∧ (s.tr.tmap.all (fun x => decide (x.2.dirty = 0)) = true) ∧ answered (exec (.deviceAreaUe (.tierMap a n)) s) (fun t => decide (∀ i : Fin 8, i.val < n → (tier t (a + i.val)).loc ≠ 2 ∧ t = (tkeys (s.tr.tmap.filter fun t => decide (a ≤ t.1 ∧ t.1 < a + n) && decide (t.2.loc = 2 ∨ t.2.loc = 3))).foldl (fun s g => loseCopy (dropMove s g) g 5) s)) = true :=
  ⟨pool, 0, 1, by decide +kernel⟩

theorem test_device_area_ue_tier_map_any : ∃ (s : State) (a n : Nat), (mainUp s = true) ∧ answered (exec (.deviceAreaUe (.tierMap a n)) s) (fun t => decide (t = (tkeys (s.tr.tmap.filter fun t => decide (a ≤ t.1 ∧ t.1 < a + n) && decide (t.2.loc = 2 ∨ t.2.loc = 3))).foldl (fun s g => loseCopy (dropMove s g) g 5) s)) = true :=
  ⟨{ pool with tr := { pool.tr with tmap := [(0, { loc := 2, frame := 1, dirty := 1 })] } }, 0, 1, by decide +kernel⟩

theorem test_device_area_ue_objects : ∃ (s : State) (k : AreaObj) (a n : Nat), (mainUp s = true) ∧ answered (exec (.deviceAreaUe (.objects k a n)) s) (fun t => decide (t.freeCtr = s.freeCtr + 1)) = true :=
  ⟨up, .region, 5, 16, by decide +kernel⟩

theorem test_power_req_waits : ∃ (s : State) (cs : Nat) (d : List W64), (Presents s cs 0x91 d) ∧ (bit (wd d 0) 16 = false) ∧ (stampPast s (stampKey okPower cs) (ctl s cs) = false) ∧ (reservedSet d [fmask 0 17, 0, 0, 0] = false) ∧ (1 ≤ df d 0 0 16) ∧ (df d 0 0 16 ≤ 60000) ∧ ((ctl s cs).leave = false) ∧ answered (exec (.powerReq cs) s) (fun t => decide ((ctl t cs).wait = .leave ∧ (ctl t cs).pc = (ctl s cs).pc ∧ (flow t (ctl s cs).part).queue = (flow s (ctl s cs).part).queue ++ [{ who := .prog cs, charge := df d 0 0 16, since := s.now }] ∧ t = setCtl (askLeave s (ctl s cs).part (.prog cs) (df d 0 0 16)) cs { ctl s cs with wait := .leave })) = true :=
  ⟨prog up 0x91 [60000, 0, 0, 0], 0, [60000, 0, 0, 0], by decide +kernel⟩

theorem test_power_req_again : ∃ (s : State) (cs : Nat) (d : List W64), (Presents s cs 0x91 d) ∧ (bit (wd d 0) 16 = false) ∧ (stampPast s (stampKey okPower cs) (ctl s cs) = false) ∧ (reservedSet d [fmask 0 17, 0, 0, 0] = false) ∧ (1 ≤ df d 0 0 16) ∧ (df d 0 0 16 ≤ 60000) ∧ answered (exec (.powerReq cs) s) (fun t => decide ((ctl t cs).wait = .leave ∧ t = setCtl (askLeave (dropProgLeave s cs) (ctl (dropProgLeave s cs) cs).part (.prog cs) (df d 0 0 16)) cs { ctl (askLeave (dropProgLeave s cs) (ctl (dropProgLeave s cs) cs).part (.prog cs) (df d 0 0 16)) cs with wait := .leave })) = true :=
  ⟨(let u := prog up 0x91 [600, 0, 0, 0]; setCtl { u with ph := { u.ph with flows := [(0, { held := 500 })] } } 0 { ctl u 0 with leave := true, leaveW := 200 }), 0, [600, 0, 0, 0], by decide +kernel⟩

theorem test_power_req_reserved : ∃ (s : State) (cs : Nat) (d : List W64), (Presents s cs 0x91 d) ∧ (stampPast s (stampKey okPower cs) (ctl s cs) = false) ∧ (bit (wd d 0) 16 = false) ∧ (reservedSet d [fmask 0 17, 0, 0, 0] = true) ∧ answered (exec (.powerReq cs) s) (fun t => decide (Completed s t cs 9 ∧ t = ctlComplete s cs 9 none none 64)) = true :=
  ⟨prog up 0x91 [0x20001, 0, 0, 0], 0, [0x20001, 0, 0, 0], by decide +kernel⟩

theorem test_power_req_limit : ∃ (s : State) (cs : Nat) (d : List W64), (Presents s cs 0x91 d) ∧ (bit (wd d 0) 16 = false) ∧ (stampPast s (stampKey okPower cs) (ctl s cs) = false) ∧ (reservedSet d [fmask 0 17, 0, 0, 0] = false) ∧ (60000 < df d 0 0 16 ∨ df d 0 0 16 = 0) ∧ answered (exec (.powerReq cs) s) (fun t => decide (Completed s t cs 4 ∧ t = ctlComplete s cs 4 none none 64)) = true :=
  ⟨prog up 0x91 [60001, 0, 0, 0], 0, [60001, 0, 0, 0], by decide +kernel⟩

theorem test_power_req_release_done : ∃ (s : State) (cs : Nat) (d : List W64), (Presents s cs 0x91 d) ∧ (bit (wd d 0) 16 = true) ∧ (stampPast s (stampKey okPower cs) (ctl s cs) = false) ∧ (reservedSet d [fmask 0 17, 0, 0, 0] = false) ∧ ((ctl s cs).leave = true) ∧ answered (exec (.powerReqRelease cs) s) (fun t => decide (Completed s t cs 0 ∧ (ctl t cs).leave = false ∧ (flow t (ctl s cs).part).held = (flow s (ctl s cs).part).held - (ctl s cs).leaveW ∧ t = ctlComplete (dropProgLeave s cs) cs 0 none none 64)) = true :=
  ⟨(let u := prog up 0x91 [0x10000, 0, 0, 0]; setCtl { u with ph := { u.ph with flows := [(0, { held := 500 })] } } 0 { ctl u 0 with leave := true, leaveW := 200 }), 0, [0x10000, 0, 0, 0], by decide +kernel⟩

theorem test_power_req_release_none : ∃ (s : State) (cs : Nat) (d : List W64), (Presents s cs 0x91 d) ∧ (bit (wd d 0) 16 = true) ∧ (stampPast s (stampKey okPower cs) (ctl s cs) = false) ∧ (reservedSet d [fmask 0 17, 0, 0, 0] = false) ∧ ((ctl s cs).leave = false) ∧ answered (exec (.powerReqRelease cs) s) (fun t => decide (Completed s t cs 0x0D04 ∧ t = ctlComplete s cs 0x0D04 none none 64)) = true :=
  ⟨prog up 0x91 [0x10000, 0, 0, 0], 0, [0x10000, 0, 0, 0], by decide +kernel⟩

theorem test_spare_swap_unit : ∃ (s : State) (cs : Nat) (d : List W64) (q : Nat), (Presents s cs 0x92 d) ∧ (stampPast s (stampKey okSwap (swapObj d)) (ctl s cs) = false) ∧ (swapReason s (ctl s cs) d = 0) ∧ (df d 0 0 3 = 0) ∧ (holdsJob s (df d 0 4 3) (df d 0 16 16) = false) ∧ (spareFor s (df d 0 4 3) (df d 0 16 16) = some q) ∧ answered (exec (.spareSwap cs) s) (fun t => decide (Completed s t cs 0 ∧ (unitAt t (df d 0 4 3) (df d 0 16 16)).state = 4 ∧ (unitAt t (df d 0 4 3) q) = { unitAt s (df d 0 4 3) q with state := 0, logical := (unitAt s (df d 0 4 3) (df d 0 16 16)).logical, part := (unitAt s (df d 0 4 3) (df d 0 16 16)).part } ∧ (health t (df d 0 4 3) (df d 0 16 16)).retired = true ∧ tget 0 t.ph.ctr 7 = satInc (tget 0 s.ph.ctr 7) 1 ∧ t = ctlComplete (swapNow (unpend s (swapKey d)) (df d 0 4 3) (df d 0 16 16)) cs 0 none (some (stampKey okSwap (swapObj d))) 64)) = true :=
  ⟨prog (tested up) 0x92 [0x10, 0, 0, 0], 0, [0x10, 0, 0, 0], 1, by decide +kernel⟩

theorem test_spare_swap_unit_busy : ∃ (s : State) (cs : Nat) (d : List W64), (Presents s cs 0x92 d) ∧ (stampPast s (stampKey okSwap (swapObj d)) (ctl s cs) = false) ∧ (swapReason s (ctl s cs) d = 0) ∧ (df d 0 0 3 = 0) ∧ (holdsJob s (df d 0 4 3) (df d 0 16 16) = true) ∧ answered (exec (.spareSwap cs) s) (fun t => decide ((health t (df d 0 4 3) (df d 0 16 16)).swapDue = true ∧ (ctl t cs).wait = .spareUnit (df d 0 4 3) (df d 0 16 16) ∧ t = setCtl (swapUnit (unpend s (swapKey d)) (df d 0 4 3) (df d 0 16 16)) cs { ctl (swapUnit (unpend s (swapKey d)) (df d 0 4 3) (df d 0 16 16)) cs with wait := .spareUnit (df d 0 4 3) (df d 0 16 16) })) = true :=
  ⟨(let u := prog (tested up) 0x92 [0x10, 0, 0, 0]; { u with sa := { u.sa with units := [(unitKey 1 0, { state := 1, logical := 0 }), (unitKey 1 1, { state := 3 })] } }), 0, [0x10, 0, 0, 0], by decide +kernel⟩

theorem test_spare_swap_sequencer_busy : ∃ (s : State) (cs : Nat) (d : List W64), (Presents s cs 0x92 d) ∧ (stampPast s (stampKey okSwap (swapObj d)) (ctl s cs) = false) ∧ (swapReason s (ctl s cs) d = 0) ∧ (df d 0 0 3 = 1) ∧ (holdsJob s 0 (df d 0 16 16) = true) ∧ answered (exec (.spareSwap cs) s) (fun t => decide ((ctl t cs).wait = .spareUnit 0 (df d 0 16 16) ∧ t = setCtl (swapUnit (unpend s (swapKey d)) 0 (df d 0 16 16)) cs { ctl (swapUnit (unpend s (swapKey d)) 0 (df d 0 16 16)) cs with wait := .spareUnit 0 (df d 0 16 16) })) = true :=
  ⟨(let u := prog up 0x92 [0x30001, 0, 0, 0]; { u with sa := { u.sa with ready := true, seqs := [(3, { state := 3, job := some { seq := 4 } }), (65, { state := 6 })] } }), 0, [0x30001, 0, 0, 0], by decide +kernel⟩

theorem test_spare_swap_sequencer : ∃ (s : State) (cs : Nat) (d : List W64), (Presents s cs 0x92 d) ∧ (stampPast s (stampKey okSwap (swapObj d)) (ctl s cs) = false) ∧ (swapReason s (ctl s cs) d = 0) ∧ (df d 0 0 3 = 1) ∧ (holdsJob s 0 (df d 0 16 16) = false) ∧ answered (exec (.spareSwap cs) s) (fun t => decide (Completed s t cs 0 ∧ t = ctlComplete (swapNow (unpend s (swapKey d)) 0 (df d 0 16 16)) cs 0 none (some (stampKey okSwap (swapObj d))) 64)) = true :=
  ⟨(let u := prog up 0x92 [0x30001, 0, 0, 0]; { u with sa := { u.sa with ready := true, seqs := [(3, { state := 0 }), (65, { state := 6 })] } }), 0, [0x30001, 0, 0, 0], by decide +kernel⟩

theorem test_spare_swap_control : ∃ (s : State) (cs : Nat) (d : List W64), (Presents s cs 0x92 d) ∧ (stampPast s (stampKey okSwap (swapObj d)) (ctl s cs) = false) ∧ (swapReason s (ctl s cs) d = 0) ∧ (df d 0 0 3 = 4) ∧ ((ctl s (df d 0 16 16)).state ≠ 1) ∧ answered (exec (.spareSwap cs) s) (fun t => decide (t = ctlComplete (swapPart (unpend s (swapKey d)) (swapKey d)) cs 0 none (some (stampKey okSwap (swapObj d))) 64)) = true :=
  ⟨(let u := prog up 0x92 [0x30004, 0, 0, 0]; setCtl u 8 { state := 2 }), 0, [0x30004, 0, 0, 0], by decide +kernel⟩

theorem test_spare_swap_control_busy : ∃ (s : State) (cs : Nat) (d : List W64), (Presents s cs 0x92 d) ∧ (stampPast s (stampKey okSwap (swapObj d)) (ctl s cs) = false) ∧ (swapReason s (ctl s cs) d = 0) ∧ (df d 0 0 3 = 4) ∧ ((ctl s (df d 0 16 16)).state = 1) ∧ answered (exec (.spareSwap cs) s) (fun t => decide ((ctl t cs).wait = .spareUnit 9 (df d 0 16 16) ∧ t = setCtl (swapPart (unpend s (swapKey d)) (swapKey d)) cs { ctl (swapPart (unpend s (swapKey d)) (swapKey d)) cs with wait := .spareUnit 9 (df d 0 16 16) })) = true :=
  ⟨(let u := prog up 0x92 [0x20004, 0, 0, 0]; setCtl (setCtl u 8 { state := 2 }) 2 { state := 1, seqNo := 9 }), 0, [0x20004, 0, 0, 0], by decide +kernel⟩

theorem test_spare_swap_core : ∃ (s : State) (cs : Nat) (d : List W64), (Presents s cs 0x92 d) ∧ (stampPast s (stampKey okSwap (swapObj d)) (ctl s cs) = false) ∧ (swapReason s (ctl s cs) d = 0) ∧ (df d 0 0 3 = 3) ∧ answered (exec (.spareSwap cs) s) (fun t => decide (Completed s t cs 0 ∧ t.cc.mgmtFailed = 2 ^ df d 0 16 16 ∧ tget 0 t.ph.ctr 7 = satInc (tget 0 s.ph.ctr 7) 1 ∧ t = ctlComplete (swapPart (unpend s (swapKey d)) (swapKey d)) cs 0 none (some (stampKey okSwap (swapObj d))) 64)) = true :=
  ⟨prog up 0x92 [0x30003, 0, 0, 0], 0, [0x30003, 0, 0, 0], by decide +kernel⟩

theorem test_spare_swap_package : ∃ (s : State) (cs : Nat) (d : List W64), (Presents s cs 0x92 d) ∧ (stampPast s (stampKey okSwap (swapObj d)) (ctl s cs) = false) ∧ (swapReason s (ctl s cs) d = 0) ∧ (df d 0 0 3 = 5) ∧ (df d 0 16 16 < 8) ∧ answered (exec (.spareSwap cs) s) (fun t => decide (Completed s t cs 0 ∧ (nandPkg t (df d 0 16 16)).state = 1 ∧ t.lv.nandDegraded = s.lv.nandDegraded ||| 2 ^ (df d 0 16 16 % 4) ∧ t = ctlComplete (swapPart (unpend s (swapKey d)) (swapKey d)) cs 0 none (some (stampKey okSwap (swapObj d))) 64)) = true :=
  ⟨prog up 0x92 [0x70005, 0, 0, 0], 0, [0x70005, 0, 0, 0], by decide +kernel⟩

theorem test_spare_swap_lane : ∃ (s : State) (cs : Nat) (d : List W64), (Presents s cs 0x92 d) ∧ (stampPast s (stampKey okSwap (swapObj d)) (ctl s cs) = false) ∧ (swapReason s (ctl s cs) d = 0) ∧ (df d 0 0 3 = 2) ∧ answered (exec (.spareSwap cs) s) (fun t => decide ((ctl t cs).wait = .spare (lane s (df d 0 16 16)).port ∧ (pair t (lanePair (df d 0 16 16))).swap = 1 ∧ (pair t (lanePair (df d 0 16 16))).lane = df d 0 16 16 ∧ (pair t (lanePair (df d 0 16 16))).reqCs = some cs ∧ (lane t (spareLane (lanePair (df d 0 16 16)))).state = 2 ∧ t = setCtl (startSwap { s with ph := { s.ph with laneWait := s.ph.laneWait.filter (· ≠ df d 0 16 16) } } (df d 0 16 16) (some cs)) cs { ctl (startSwap { s with ph := { s.ph with laneWait := s.ph.laneWait.filter (· ≠ df d 0 16 16) } } (df d 0 16 16) (some cs)) cs with wait := .spare (lane s (df d 0 16 16)).port })) = true :=
  ⟨prog { up with pc := { up.pc with ports := [(2, { state := 4 })], lanes := [(5, { port := 2, logical := 1, state := 3 })] } } 0x92 [0x50002, 0, 0, 0], 0, [0x50002, 0, 0, 0], by decide +kernel⟩

theorem test_spare_swap_refused : ∃ (s : State) (cs : Nat) (d : List W64), (Presents s cs 0x92 d) ∧ (stampPast s (stampKey okSwap (swapObj d)) (ctl s cs) = false) ∧ (swapReason s (ctl s cs) d ≠ 0) ∧ answered (exec (.spareSwap cs) s) (fun t => decide (Completed s t cs (swapReason s (ctl s cs) d) ∧ t = ctlComplete s cs (swapReason s (ctl s cs) d) none none 64)) = true :=
  ⟨prog up 0x92 [0x10, 0, 0, 0], 0, [0x10, 0, 0, 0], by decide +kernel⟩

theorem test_commit_ph_budget : ∃ (s : State) (cs : Nat) (d : List W64), (Presents s cs 0xF5 d) ∧ (df d 0 0 2 = 0) ∧ (enableOf d = true) ∧ (Fresh s cs 0xF5 (stampKey okPhPolicy 0)) ∧ ((ctl s cs).priv = 1) ∧ (reservedSet d phMasks = false) ∧ (300 ≤ df d 1 0 16) ∧ (df d 1 0 16 ≤ 1500) ∧ (1 ≤ df d 1 16 16) ∧ (df d 1 16 16 ≤ 1000) ∧ (10 ≤ df d 1 32 16) ∧ answered (exec (.commitPhBudget cs) s) (fun t => decide (Committed s t cs 0 (statusWord (phStatus t 0)) ∧ phStatus t 0 = accepted (phStatus s 0) ∧ t.ph.budget = df d 1 0 16 ∧ t.ph.unitIdle = df d 1 16 16 ∧ t.ph.pllIdle = df d 1 32 16 ∧ t = ctlComplete (grantCommit ({ (setPhStatus s 0 (accepted (phStatus s 0))) with ph := { (setPhStatus s 0 (accepted (phStatus s 0))).ph with budget := df d 1 0 16, unitIdle := df d 1 16 16, pllIdle := df d 1 32 16 } }) cs 0xF5 ((stampKey okPhPolicy 0))) cs 0 (some (statusWord (phStatus t 0))) (some (stampKey okPhPolicy 0)) 64)) = true :=
  ⟨prog up 0xF5 [0, w64 (300 + 1000 * 2 ^ 16 + 10 * 2 ^ 32), 0, 1], 0, [0, w64 (300 + 1000 * 2 ^ 16 + 10 * 2 ^ 32), 0, 1], by decide +kernel⟩

theorem test_commit_ph_budget_disable : ∃ (s : State) (cs : Nat) (d : List W64), (Presents s cs 0xF5 d) ∧ (df d 0 0 2 = 0) ∧ (enableOf d = false) ∧ (Fresh s cs 0xF5 (stampKey okPhPolicy 0)) ∧ answered (exec (.commitPhBudget cs) s) (fun t => decide (Completed s t cs 0 ∧ t = ctlComplete (grantCommit s cs 0xF5 ((stampKey okPhPolicy 0))) cs 0 (some (statusWord (phStatus s 0))) none 64)) = true :=
  ⟨prog up 0xF5 [0, 0, 0, 0], 0, [0, 0, 0, 0], by decide +kernel⟩

theorem test_commit_ph_budget_limit : ∃ (s : State) (cs : Nat) (d : List W64), (Presents s cs 0xF5 d) ∧ (df d 0 0 2 = 0) ∧ (enableOf d = true) ∧ (Fresh s cs 0xF5 (stampKey okPhPolicy 0)) ∧ ((ctl s cs).priv = 1) ∧ (reservedSet d phMasks = false) ∧ (¬ ((300 ≤ df d 1 0 16 ∧ df d 1 0 16 ≤ 1500) ∧ (1 ≤ df d 1 16 16 ∧ df d 1 16 16 ≤ 1000) ∧ 10 ≤ df d 1 32 16)) ∧ answered (exec (.commitPhBudget cs) s) (fun t => decide (Completed s t cs 4 ∧ phStatus t 0 = refused (phStatus s 0) 4 ∧ t = ctlComplete (grantCommit (setPhStatus s 0 (refused (phStatus s 0) 4)) cs 0xF5 ((stampKey okPhPolicy 0))) cs 4 (some (statusWord (refused (phStatus s 0) 4))) none 64)) = true :=
  ⟨prog up 0xF5 [0, w64 (299 + 1000 * 2 ^ 16 + 10 * 2 ^ 32), 0, 1], 0, [0, w64 (299 + 1000 * 2 ^ 16 + 10 * 2 ^ 32), 0, 1], by decide +kernel⟩

theorem test_commit_ph_budget_reserved : ∃ (s : State) (cs : Nat) (d : List W64), (Presents s cs 0xF5 d) ∧ (df d 0 0 2 = 0) ∧ (enableOf d = true) ∧ (Fresh s cs 0xF5 (stampKey okPhPolicy 0)) ∧ ((ctl s cs).priv = 1) ∧ (reservedSet d phMasks = true) ∧ answered (exec (.commitPhBudget cs) s) (fun t => decide (Completed s t cs 9 ∧ t = ctlComplete (grantCommit (setPhStatus s 0 (refused (phStatus s 0) 9)) cs 0xF5 ((stampKey okPhPolicy 0))) cs 9 (some (statusWord (refused (phStatus s 0) 9))) none 64)) = true :=
  ⟨prog up 0xF5 [0x10, 0, 0, 1], 0, [0x10, 0, 0, 1], by decide +kernel⟩

theorem test_commit_ph_budget_privilege : ∃ (s : State) (cs : Nat) (d : List W64), (Presents s cs 0xF5 d) ∧ (df d 0 0 2 = 0) ∧ (enableOf d = true) ∧ (Fresh s cs 0xF5 (stampKey okPhPolicy 0)) ∧ ((ctl s cs).priv ≠ 1) ∧ answered (exec (.commitPhBudget cs) s) (fun t => decide (Completed s t cs 3 ∧ t = ctlComplete (grantCommit (setPhStatus s 0 (refused (phStatus s 0) 3)) cs 0xF5 ((stampKey okPhPolicy 0))) cs 3 (some (statusWord (refused (phStatus s 0) 3))) none 64)) = true :=
  ⟨progRt up 5 0xF5 [0, 0, 0, 1], 0, [0, 0, 0, 1], by decide +kernel⟩

theorem test_commit_ph_swap : ∃ (s : State) (cs : Nat) (d : List W64), (Presents s cs 0xF5 d) ∧ (df d 0 0 2 = 1) ∧ (enableOf d = true) ∧ (Fresh s cs 0xF5 (stampKey okPhPolicy 1)) ∧ ((ctl s cs).priv = 1) ∧ (reservedSet d phMasks = false) ∧ (df d 1 0 2 ≤ 2) ∧ (10 ≤ df d 1 16 16) ∧ (df d 1 16 16 ≤ 2000) ∧ (1 ≤ df d 1 32 16) ∧ (1 ≤ df d 1 48 8) ∧ (df d 1 48 8 ≤ 100) ∧ (60 ≤ df d 3 1 31) ∧ (df d 3 1 31 ≤ 86400) ∧ (3600 ≤ df d 3 32 31) ∧ (df d 3 32 31 ≤ 2592000) ∧ (df d 3 1 31 < df d 3 32 31) ∧ answered (exec (.commitPhSwap cs) s) (fun t => decide (Committed s t cs 0 (statusWord (phStatus t 1)) ∧ t.ph.policy = df d 1 0 2 ∧ t.ph.ageLimit = df d 1 16 16 ∧ t.ph.ceLimit = df d 1 32 16 ∧ t.ph.eyeMin = df d 1 48 8 ∧ t.ph.wstart = (wd d 2).toNat ∧ t.ph.wlen = df d 3 1 31 ∧ t.ph.wperiod = df d 3 32 31 ∧ t = ctlComplete (grantCommit ({ (setPhStatus s 1 (accepted (phStatus s 1))) with ph := { (setPhStatus s 1 (accepted (phStatus s 1))).ph with policy := df d 1 0 2, ageLimit := df d 1 16 16, ceLimit := df d 1 32 16, eyeMin := df d 1 48 8, wstart := (wd d 2).toNat, wlen := df d 3 1 31, wperiod := df d 3 32 31 } }) cs 0xF5 ((stampKey okPhPolicy 1))) cs 0 (some (statusWord (phStatus t 1))) (some (stampKey okPhPolicy 1)) 64)) = true :=
  ⟨prog up 0xF5 [1, w64 (2 + 10 * 2 ^ 16 + 2 ^ 32 + 100 * 2 ^ 48), 77, w64 (1 + 60 * 2 + 3600 * 2 ^ 32)], 0, [1, w64 (2 + 10 * 2 ^ 16 + 2 ^ 32 + 100 * 2 ^ 48), 77, w64 (1 + 60 * 2 + 3600 * 2 ^ 32)], by decide +kernel⟩

theorem test_commit_ph_swap_disable : ∃ (s : State) (cs : Nat) (d : List W64), (Presents s cs 0xF5 d) ∧ (df d 0 0 2 = 1) ∧ (enableOf d = false) ∧ (Fresh s cs 0xF5 (stampKey okPhPolicy 1)) ∧ answered (exec (.commitPhSwap cs) s) (fun t => decide (Completed s t cs 0 ∧ t = ctlComplete (grantCommit s cs 0xF5 ((stampKey okPhPolicy 1))) cs 0 (some (statusWord (phStatus s 1))) none 64)) = true :=
  ⟨prog up 0xF5 [1, 0, 0, 0], 0, [1, 0, 0, 0], by decide +kernel⟩

theorem test_commit_ph_swap_window : ∃ (s : State) (cs : Nat) (d : List W64), (Presents s cs 0xF5 d) ∧ (df d 0 0 2 = 1) ∧ (enableOf d = true) ∧ (Fresh s cs 0xF5 (stampKey okPhPolicy 1)) ∧ ((ctl s cs).priv = 1) ∧ (reservedSet d phMasks = false) ∧ (df d 1 0 2 ≤ 2) ∧ (10 ≤ df d 1 16 16) ∧ (df d 1 16 16 ≤ 2000) ∧ (1 ≤ df d 1 32 16) ∧ (1 ≤ df d 1 48 8) ∧ (df d 1 48 8 ≤ 100) ∧ (df d 3 1 31 ≤ 86400) ∧ (3600 ≤ df d 3 32 31) ∧ (df d 3 32 31 ≤ df d 3 1 31) ∧ (60 ≤ df d 3 1 31) ∧ (df d 3 32 31 ≤ 2592000) ∧ answered (exec (.commitPhSwap cs) s) (fun t => decide (Completed s t cs 0x0D03 ∧ phStatus t 1 = refused (phStatus s 1) 0x0D03 ∧ t = ctlComplete (grantCommit (setPhStatus s 1 (refused (phStatus s 1) 0x0D03)) cs 0xF5 ((stampKey okPhPolicy 1))) cs 0x0D03 (some (statusWord (refused (phStatus s 1) 0x0D03))) none 64)) = true :=
  ⟨prog up 0xF5 [1, w64 (2 + 10 * 2 ^ 16 + 2 ^ 32 + 100 * 2 ^ 48), 77, w64 (1 + 3600 * 2 + 3600 * 2 ^ 32)], 0, [1, w64 (2 + 10 * 2 ^ 16 + 2 ^ 32 + 100 * 2 ^ 48), 77, w64 (1 + 3600 * 2 + 3600 * 2 ^ 32)], by decide +kernel⟩

theorem test_commit_ph_swap_range : ∃ (s : State) (cs : Nat) (d : List W64), (Presents s cs 0xF5 d) ∧ (df d 0 0 2 = 1) ∧ (enableOf d = true) ∧ (Fresh s cs 0xF5 (stampKey okPhPolicy 1)) ∧ ((ctl s cs).priv = 1) ∧ (reservedSet d phMasks = false) ∧ (¬ (df d 1 0 2 ≤ 2 ∧ (10 ≤ df d 1 16 16 ∧ df d 1 16 16 ≤ 2000) ∧ 1 ≤ df d 1 32 16 ∧ (1 ≤ df d 1 48 8 ∧ df d 1 48 8 ≤ 100) ∧ (60 ≤ df d 3 1 31 ∧ df d 3 1 31 ≤ 86400) ∧ 3600 ≤ df d 3 32 31 ∧ df d 3 32 31 ≤ 2592000)) ∧ answered (exec (.commitPhSwap cs) s) (fun t => decide (Completed s t cs 4 ∧ t = ctlComplete (grantCommit (setPhStatus s 1 (refused (phStatus s 1) 4)) cs 0xF5 ((stampKey okPhPolicy 1))) cs 4 (some (statusWord (refused (phStatus s 1) 4))) none 64)) = true :=
  ⟨prog up 0xF5 [1, w64 (3 + 10 * 2 ^ 16 + 2 ^ 32 + 100 * 2 ^ 48), 77, w64 (1 + 60 * 2 + 3600 * 2 ^ 32)], 0, [1, w64 (3 + 10 * 2 ^ 16 + 2 ^ 32 + 100 * 2 ^ 48), 77, w64 (1 + 60 * 2 + 3600 * 2 ^ 32)], by decide +kernel⟩

theorem test_commit_ph_proof : ∃ (s : State) (cs : Nat) (d : List W64), (Presents s cs 0xF5 d) ∧ (df d 0 0 2 = 2) ∧ (enableOf d = true) ∧ (Fresh s cs 0xF5 (stampKey okPhPolicy 2)) ∧ ((ctl s cs).priv = 1) ∧ (reservedSet d phMasks = false) ∧ (proofType (df d 0 8 8) = true) ∧ (typePresent s.variant (df d 0 8 8) = true) ∧ (activeCount s (df d 0 8 8) ≠ 0) ∧ (df d 1 0 4 ≤ 12) ∧ (df d 1 4 4 ≤ df d 1 0 4) ∧ answered (exec (.commitPhProof cs) s) (fun t => decide (Committed s t cs 0 (statusWord (phStatus t 2)) ∧ tget 0 t.ph.log2n (df d 0 8 8) = df d 1 0 4 ∧ tget 0 t.ph.log2esc (df d 0 8 8) = df d 1 4 4 ∧ t = ctlComplete (grantCommit ({ (setPhStatus s 2 (accepted (phStatus s 2))) with ph := { (setPhStatus s 2 (accepted (phStatus s 2))).ph with log2n := tput 0 s.ph.log2n (df d 0 8 8) (df d 1 0 4), log2esc := tput 0 s.ph.log2esc (df d 0 8 8) (df d 1 4 4) } }) cs 0xF5 ((stampKey okPhPolicy 2))) cs 0 (some (statusWord (phStatus t 2))) (some (stampKey okPhPolicy 2)) 64)) = true :=
  ⟨prog up 0xF5 [0x602, 0xCC, 0, 1], 0, [0x602, 0xCC, 0, 1], by decide +kernel⟩

theorem test_commit_ph_proof_disable : ∃ (s : State) (cs : Nat) (d : List W64), (Presents s cs 0xF5 d) ∧ (df d 0 0 2 = 2) ∧ (enableOf d = false) ∧ (Fresh s cs 0xF5 (stampKey okPhPolicy 2)) ∧ answered (exec (.commitPhProof cs) s) (fun t => decide (Completed s t cs 0 ∧ t = ctlComplete (grantCommit s cs 0xF5 ((stampKey okPhPolicy 2))) cs 0 (some (statusWord (phStatus s 2))) none 64)) = true :=
  ⟨prog up 0xF5 [2, 0, 0, 0], 0, [2, 0, 0, 0], by decide +kernel⟩

theorem test_commit_ph_proof_order : ∃ (s : State) (cs : Nat) (d : List W64), (Presents s cs 0xF5 d) ∧ (df d 0 0 2 = 2) ∧ (enableOf d = true) ∧ (Fresh s cs 0xF5 (stampKey okPhPolicy 2)) ∧ ((ctl s cs).priv = 1) ∧ (reservedSet d phMasks = false) ∧ (proofType (df d 0 8 8) = true) ∧ (typePresent s.variant (df d 0 8 8) = true) ∧ (activeCount s (df d 0 8 8) ≠ 0) ∧ (df d 1 4 4 ≤ 12) ∧ (df d 1 0 4 < df d 1 4 4) ∧ answered (exec (.commitPhProof cs) s) (fun t => decide (Completed s t cs 0x0D05 ∧ phStatus t 2 = refused (phStatus s 2) 0x0D05 ∧ t = ctlComplete (grantCommit (setPhStatus s 2 (refused (phStatus s 2) 0x0D05)) cs 0xF5 ((stampKey okPhPolicy 2))) cs 0x0D05 (some (statusWord (refused (phStatus s 2) 0x0D05))) none 64)) = true :=
  ⟨prog up 0xF5 [0x602, 0xCB, 0, 1], 0, [0x602, 0xCB, 0, 1], by decide +kernel⟩

theorem test_commit_ph_proof_absent : ∃ (s : State) (cs : Nat) (d : List W64), (Presents s cs 0xF5 d) ∧ (df d 0 0 2 = 2) ∧ (enableOf d = true) ∧ (Fresh s cs 0xF5 (stampKey okPhPolicy 2)) ∧ ((ctl s cs).priv = 1) ∧ ((proofType (df d 0 8 8) && (!typePresent s.variant (df d 0 8 8) || decide (activeCount s (df d 0 8 8) = 0))) = true) ∧ answered (exec (.commitPhProof cs) s) (fun t => decide (Completed s t cs 2 ∧ t = ctlComplete (grantCommit (setPhStatus s 2 (refused (phStatus s 2) 2)) cs 0xF5 ((stampKey okPhPolicy 2))) cs 2 (some (statusWord (refused (phStatus s 2) 2))) none 64)) = true :=
  ⟨prog { up with variant := .g1 } 0xF5 [0x102, 0xCC, 0, 1], 0, [0x102, 0xCC, 0, 1], by decide +kernel⟩

theorem test_commit_ph_proof_range : ∃ (s : State) (cs : Nat) (d : List W64), (Presents s cs 0xF5 d) ∧ (df d 0 0 2 = 2) ∧ (enableOf d = true) ∧ (Fresh s cs 0xF5 (stampKey okPhPolicy 2)) ∧ ((ctl s cs).priv = 1) ∧ ((proofType (df d 0 8 8) && (!typePresent s.variant (df d 0 8 8) || decide (activeCount s (df d 0 8 8) = 0))) = false) ∧ (reservedSet d phMasks = false) ∧ (proofType (df d 0 8 8) = false ∨ 12 < df d 1 0 4 ∨ 12 < df d 1 4 4) ∧ answered (exec (.commitPhProof cs) s) (fun t => decide (Completed s t cs 4 ∧ t = ctlComplete (grantCommit (setPhStatus s 2 (refused (phStatus s 2) 4)) cs 0xF5 ((stampKey okPhPolicy 2))) cs 4 (some (statusWord (refused (phStatus s 2) 4))) none 64)) = true :=
  ⟨prog up 0xF5 [0x602, 0xDC, 0, 1], 0, [0x602, 0xDC, 0, 1], by decide +kernel⟩

theorem test_commit_ph_weight : ∃ (s : State) (cs : Nat) (d : List W64), (Presents s cs 0xF5 d) ∧ (df d 0 0 2 = 3) ∧ (enableOf d = true) ∧ (Fresh s cs 0xF5 (stampKey okPhPolicy 3)) ∧ ((ctl s cs).priv = 1) ∧ (reservedSet d phMasks = false) ∧ (df d 0 8 8 ≤ 16) ∧ (1 ≤ df d 1 0 13) ∧ (df d 1 0 13 ≤ 4096) ∧ answered (exec (.commitPhWeight cs) s) (fun t => decide (Committed s t cs 0 (statusWord (phStatus t 3)) ∧ flow t (df d 0 8 8) = { flow s (df d 0 8 8) with weight := df d 1 0 13 } ∧ t = ctlComplete (grantCommit (setFlow (setPhStatus s 3 (accepted (phStatus s 3))) (df d 0 8 8) { flow (setPhStatus s 3 (accepted (phStatus s 3))) (df d 0 8 8) with weight := df d 1 0 13 }) cs 0xF5 ((stampKey okPhPolicy 3))) cs 0 (some (statusWord (phStatus t 3))) (some (stampKey okPhPolicy 3)) 64)) = true :=
  ⟨prog up 0xF5 [0x1003, 4096, 0, 1], 0, [0x1003, 4096, 0, 1], by decide +kernel⟩

theorem test_commit_ph_weight_disable : ∃ (s : State) (cs : Nat) (d : List W64), (Presents s cs 0xF5 d) ∧ (df d 0 0 2 = 3) ∧ (enableOf d = false) ∧ (Fresh s cs 0xF5 (stampKey okPhPolicy 3)) ∧ answered (exec (.commitPhWeight cs) s) (fun t => decide (Completed s t cs 0 ∧ t = ctlComplete (grantCommit s cs 0xF5 ((stampKey okPhPolicy 3))) cs 0 (some (statusWord (phStatus s 3))) none 64)) = true :=
  ⟨prog up 0xF5 [3, 0, 0, 0], 0, [3, 0, 0, 0], by decide +kernel⟩

theorem test_commit_ph_weight_range : ∃ (s : State) (cs : Nat) (d : List W64), (Presents s cs 0xF5 d) ∧ (df d 0 0 2 = 3) ∧ (enableOf d = true) ∧ (Fresh s cs 0xF5 (stampKey okPhPolicy 3)) ∧ ((ctl s cs).priv = 1) ∧ (reservedSet d phMasks = false) ∧ (16 < df d 0 8 8 ∨ df d 1 0 13 = 0 ∨ 4096 < df d 1 0 13) ∧ answered (exec (.commitPhWeight cs) s) (fun t => decide (Completed s t cs 4 ∧ t = ctlComplete (grantCommit (setPhStatus s 3 (refused (phStatus s 3) 4)) cs 0xF5 ((stampKey okPhPolicy 3))) cs 4 (some (statusWord (refused (phStatus s 3) 4))) none 64)) = true :=
  ⟨prog up 0xF5 [0x1103, 4096, 0, 1], 0, [0x1103, 4096, 0, 1], by decide +kernel⟩

theorem test_die_temperature_set : ∃ (s : State) (d tj : Nat), (unpowered s = false) ∧ (d < 11) ∧ (tj < 115) ∧ answered (exec (.dieTemperature d tj) s) (fun t => decide (die t d = { die s d with tj := tj, throttle := throttleOf d (die s d).throttle tj } ∧ t.ph.thrSince = (if throttled s = false ∧ throttled t = true then s.now else s.ph.thrSince) ∧ t = withThrottle s fun s => setDie s d { die s d with tj := min tj 255, throttle := throttleOf d (die s d).throttle tj })) = true :=
  ⟨{ up with now := 70, ph := { up.ph with dies := [(3, { throttle := 2 })] } }, 7, 100, by decide +kernel⟩

theorem test_die_temperature_trip : ∃ (s : State) (d tj : Nat), (unpowered s = false) ∧ (d < 11) ∧ (115 ≤ tj) ∧ (s.hw.off = false) ∧ (s.lv.flushCause = 0) ∧ answered (exec (.dieTemperature d tj) s) (fun t => decide ((die t d).tj = min tj 255 ∧ t.cc.aonOp = 7 ∧ t.cc.aonRun = 7 ∧ t.cc.aonState = 1 ∧ t.lv.flushCause = 5 ∧ t.lv.flushThen = 3 ∧ t.lv.flushReset = 6 ∧ t = startPowerOff { (withThrottle s fun s => setDie s d { die s d with tj := min tj 255, throttle := throttleOf d (die s d).throttle tj }) with cc := { (withThrottle s fun s => setDie s d { die s d with tj := min tj 255, throttle := throttleOf d (die s d).throttle tj }).cc with aonOp := 7, aonState := 1, aonRun := 7 } } 6)) = true :=
  ⟨up, 10, 300, by decide +kernel⟩

theorem test_die_temperature_trip_in_flush : ∃ (s : State) (d tj : Nat), (unpowered s = false) ∧ (d < 11) ∧ (115 ≤ tj) ∧ (s.hw.off = false) ∧ answered (exec (.dieTemperature d tj) s) (fun t => decide (t = startPowerOff { (withThrottle s fun s => setDie s d { die s d with tj := min tj 255, throttle := throttleOf d (die s d).throttle tj }) with cc := { (withThrottle s fun s => setDie s d { die s d with tj := min tj 255, throttle := throttleOf d (die s d).throttle tj }).cc with aonOp := 7, aonState := 1, aonRun := 7 } } 6)) = true :=
  ⟨{ up with lv := { up.lv with flushCause := 4 } }, 10, 300, by decide +kernel⟩

theorem test_die_temperature_off : ∃ (s : State) (d tj : Nat), (unpowered s = false) ∧ (d < 11) ∧ (s.hw.off = true) ∧ answered (exec (.dieTemperature d tj) s) (fun t => decide (t = withThrottle s fun s => setDie s d { die s d with tj := min tj 255, throttle := throttleOf d (die s d).throttle tj })) = true :=
  ⟨offNow, 10, 300, by decide +kernel⟩

theorem test_die_temperature_absent : ∃ (s : State) (d tj : Nat), (unpowered s = true ∨ 11 ≤ d) ∧ answered (exec (.dieTemperature d tj) s) (fun t => decide (t = s)) = true :=
  ⟨up, 11, 300, by decide +kernel⟩

theorem test_budget_throttle_set_done : ∃ (s : State) (w : Nat), (mainUp s = true) ∧ (102 * effBudget s < 100 * w) ∧ answered (exec (.budgetThrottleSet w) s) (fun t => decide (t.ph.watts = w ∧ t.ph.budgetThr = true ∧ t.ph.thrSince = (if throttled s = true then s.ph.thrSince else s.now) ∧ t = withThrottle { s with ph := { s.ph with watts := w } } fun s => { s with ph := { s.ph with budgetThr := true } })) = true :=
  ⟨{ up with now := 9 }, 1531, by decide +kernel⟩

theorem test_budget_throttle_set_within : ∃ (s : State) (w : Nat), (mainUp s = true) ∧ (100 * w ≤ 102 * effBudget s) ∧ answered (exec (.budgetThrottleSet w) s) (fun t => decide (t = { s with ph := { s.ph with watts := w } })) = true :=
  ⟨up, 1530, by decide +kernel⟩

theorem test_budget_throttle_lift_done : ∃ (s : State) (w : Nat), (mainUp s = true) ∧ (100 * w < 95 * effBudget s) ∧ answered (exec (.budgetThrottleLift w) s) (fun t => decide (t = { s with ph := { s.ph with watts := w, budgetThr := false } })) = true :=
  ⟨{ up with ph := { up.ph with budgetThr := true } }, 1424, by decide +kernel⟩

theorem test_budget_throttle_lift_above : ∃ (s : State) (w : Nat), (mainUp s = true) ∧ (95 * effBudget s ≤ 100 * w) ∧ answered (exec (.budgetThrottleLift w) s) (fun t => decide (t = { s with ph := { s.ph with watts := w } })) = true :=
  ⟨{ up with ph := { up.ph with budgetThr := true } }, 1425, by decide +kernel⟩

theorem test_age_monitor_sample_within : ∃ (s : State) (ty p age : Nat), (mainUp s = true) ∧ (age ≤ s.ph.ageLimit) ∧ answered (exec (.ageMonitorSample (.unit ty p) age) s) (fun t => decide ((health t ty p) = { health s ty p with age := min age 65535 } ∧ t = setHealth s ty p { health s ty p with age := min age 65535 })) = true :=
  ⟨tested up, 1, 0, 300, by decide +kernel⟩

theorem test_age_monitor_sample_sequencer : ∃ (s : State) (q age : Nat), (mainUp s = true) ∧ (age ≤ s.ph.ageLimit) ∧ answered (exec (.ageMonitorSample (.seq q) age) s) (fun t => decide (t = setHealth s 0 q { health s 0 q with age := min age 65535 })) = true :=
  ⟨up, 67, 300, by decide +kernel⟩

theorem test_age_monitor_sample_other : ∃ (s : State) (h : HealthPart) (age : Nat), (mainUp s = true) ∧ (healthUnit h = none) ∧ (age ≤ s.ph.ageLimit ∨ partKey h = none) ∧ answered (exec (.ageMonitorSample h age) s) (fun t => decide (t = s)) = true :=
  ⟨up, .bank 1 2, 999, by decide +kernel⟩

theorem test_age_monitor_sample_swaps : ∃ (s : State) (ty p age q : Nat), (mainUp s = true) ∧ (s.ph.ageLimit < age) ∧ (s.ph.policy = 0) ∧ (1 ≤ ty) ∧ (ty < 8) ∧ (p < 256) ∧ (inService s ty p = true) ∧ (holdsJob s ty p = false) ∧ (spareFor s ty p = some q) ∧ answered (exec (.ageMonitorSample (.unit ty p) age) s) (fun t => decide ((unitAt t ty p).state = 4 ∧ (unitAt t ty q).state = 0 ∧ (unitAt t ty q).logical = (unitAt s ty p).logical ∧ (health t ty p).retired = true ∧ (health t ty p).age = min age 65535 ∧ tget 0 t.ph.ctr 7 = satInc (tget 0 s.ph.ctr 7) 1 ∧ t = crossed (setHealth s ty p { health s ty p with age := min age 65535 }) (ty * 256 + p))) = true :=
  ⟨tested up, 1, 0, 301, 1, by decide +kernel⟩

theorem test_age_monitor_sample_crosses : ∃ (s : State) (ty p age : Nat), (mainUp s = true) ∧ (s.ph.ageLimit < age) ∧ (ty < 8) ∧ answered (exec (.ageMonitorSample (.unit ty p) age) s) (fun t => decide (t = crossed (setHealth s ty p { health s ty p with age := min age 65535 }) (ty * 256 + p))) = true :=
  ⟨{ tested up with ph := { up.ph with policy := 1 } }, 1, 0, 301, by decide +kernel⟩

theorem test_age_monitor_sample_seq_crosses : ∃ (s : State) (q age : Nat), (mainUp s = true) ∧ (s.ph.ageLimit < age) ∧ answered (exec (.ageMonitorSample (.seq q) age) s) (fun t => decide (t = crossed (setHealth s 0 q { health s 0 q with age := min age 65535 }) q)) = true :=
  ⟨up, 4, 301, by decide +kernel⟩

theorem test_age_monitor_sample_part_crosses : ∃ (s : State) (h : HealthPart) (k age : Nat), (mainUp s = true) ∧ (healthUnit h = none) ∧ (partKey h = some k) ∧ (s.ph.ageLimit < age) ∧ answered (exec (.ageMonitorSample h age) s) (fun t => decide (t = crossed s k)) = true :=
  ⟨up, .ctl 3, 9 * 256 + 3, 301, by decide +kernel⟩

theorem test_age_monitor_sample_waits : ∃ (s : State) (c age : Nat), (mainUp s = true) ∧ (s.ph.ageLimit < age) ∧ (s.ph.policy = 1) ∧ (windowOpen s = false) ∧ (c < 4) ∧ (s.cc.mgmtFailed.testBit c = false) ∧ answered (exec (.ageMonitorSample (.core c) age) s) (fun t => decide (t.ph.partWait = s.ph.partWait.filter (· ≠ 8 * 256 + c) ++ [8 * 256 + c] ∧ t = crossed s (8 * 256 + c))) = true :=
  ⟨{ up with ph := { up.ph with policy := 1 } }, 3, 301, by decide +kernel⟩

theorem test_age_monitor_sample_by_order_only : ∃ (s : State) (c age : Nat), (mainUp s = true) ∧ (s.ph.policy = 2) ∧ (c < 4) ∧ (s.cc.mgmtFailed.testBit c = false) ∧ (s.ph.ageLimit < age) ∧ answered (exec (.ageMonitorSample (.core c) age) s) (fun t => decide (t = { s with ph := { s.ph with partWait := s.ph.partWait.filter (· ≠ 8 * 256 + c) ++ [8 * 256 + c] } })) = true :=
  ⟨{ up with ph := { up.ph with policy := 2 } }, 3, 301, by decide +kernel⟩

theorem test_ce_sample_within : ∃ (s : State) (ty p n m : Nat), (mainUp s = true) ∧ (n ≤ s.ph.ceLimit) ∧ (ty ≠ 0) ∧ answered (exec (.ceSample (.unit ty p) n m) s) (fun t => decide (health t ty p = { health s ty p with ceHour := min n 65535 } ∧ unitAt t ty p = { unitAt s ty p with ce := min ((unitAt s ty p).ce + m) 4095 } ∧ t = setUnit (setHealth s ty p { health s ty p with ceHour := min n 65535 }) ty p { unitAt (setHealth s ty p { health s ty p with ceHour := min n 65535 }) ty p with ce := min ((unitAt (setHealth s ty p { health s ty p with ceHour := min n 65535 }) ty p).ce + m) 4095 })) = true :=
  ⟨tested up, 1, 0, 64, 5000, by decide +kernel⟩

theorem test_ce_sample_crosses : ∃ (s : State) (ty p n m : Nat), (mainUp s = true) ∧ (s.ph.ceLimit < n) ∧ (ty ≠ 0) ∧ (ty < 8) ∧ answered (exec (.ceSample (.unit ty p) n m) s) (fun t => decide (t = crossed (setUnit (setHealth s ty p { health s ty p with ceHour := min n 65535 }) ty p { unitAt (setHealth s ty p { health s ty p with ceHour := min n 65535 }) ty p with ce := min ((unitAt (setHealth s ty p { health s ty p with ceHour := min n 65535 }) ty p).ce + m) 4095 }) (ty * 256 + p))) = true :=
  ⟨tested up, 1, 0, 65, 1, by decide +kernel⟩

theorem test_ce_sample_sequencer : ∃ (s : State) (q n m : Nat), (mainUp s = true) ∧ answered (exec (.ceSample (.seq q) n m) s) (fun t => decide (t = if s.ph.ceLimit < n then crossed (setHealth s 0 q { health s 0 q with ceHour := min n 65535 }) q else (setHealth s 0 q { health s 0 q with ceHour := min n 65535 }))) = true :=
  ⟨up, 4, 65, 1, by decide +kernel⟩

theorem test_ce_sample_bank : ∃ (s : State) (a b n m : Nat), (mainUp s = true) ∧ answered (exec (.ceSample (.bank a b) n m) s) (fun t => decide (tget 0 t.sa.ctr 2 = satInc (tget 0 s.sa.ctr 2) m ∧ t = saCount s 2 m)) = true :=
  ⟨up, 4, 1, 65, 9, by decide +kernel⟩

theorem test_ce_sample_part : ∃ (s : State) (h : HealthPart) (k n m : Nat), (mainUp s = true) ∧ (healthUnit h = none) ∧ (partKey h = some k) ∧ answered (exec (.ceSample h n m) s) (fun t => decide (t = if s.ph.ceLimit < n then crossed s k else s)) = true :=
  ⟨up, .core 3, 8 * 256 + 3, 65, 2, by decide +kernel⟩

theorem test_ce_sample_hbm : ∃ (s : State) (a n m : Nat), (mainUp s = true) ∧ answered (exec (.ceSample (.hbm a) n m) s) (fun t => decide (t = s)) = true :=
  ⟨up, 4, 65, 9, by decide +kernel⟩

theorem test_ce_sample_drops_package : ∃ (s : State) (k n m : Nat), (mainUp s = true) ∧ (s.ph.ceLimit < n) ∧ (s.ph.policy = 0) ∧ (k < 8) ∧ ((nandPkg s k).state = 0) ∧ ((nandPkg s ((k + 4) % 8)).state = 0) ∧ answered (exec (.ceSample (.nand k) n m) s) (fun t => decide (nandPkg t k = { nandPkg s k with state := 1 } ∧ t.lv.nandDegraded = s.lv.nandDegraded ||| 2 ^ (k % 4) ∧ tget 0 t.ph.ctr 7 = satInc (tget 0 s.ph.ctr 7) 1 ∧ t = crossed s (11 * 256 + k))) = true :=
  ⟨up, 7, 65, 3, by decide +kernel⟩

theorem test_eye_sample_within : ∃ (s : State) (l e n : Nat), (mainUp s = true) ∧ (l < 816) ∧ (s.ph.eyeMin ≤ e) ∧ answered (exec (.eyeSample l e n) s) (fun t => decide (lane t l = { lane s l with eye := min e 255, corr := min n 65535 } ∧ t = setLane s l { lane s l with eye := min e 255, corr := min n 65535 })) = true :=
  ⟨up, 815, 12, 4, by decide +kernel⟩

theorem test_eye_sample_due : ∃ (s : State) (l e n : Nat), (mainUp s = true) ∧ (l < 816) ∧ (e < s.ph.eyeMin) ∧ (e < 256) ∧ (laneReason s l = 0) ∧ (s.ph.policy = 0) ∧ answered (exec (.eyeSample l e n) s) (fun t => decide ((lane t l).eye = e ∧ t.ph.laneDue = s.ph.laneDue.filter (· ≠ l) ++ [l] ∧ t = { (setLane s l { lane s l with eye := min e 255, corr := min n 65535 }) with ph := { s.ph with laneDue := s.ph.laneDue.filter (· ≠ l) ++ [l] } })) = true :=
  ⟨{ up with pc := { up.pc with ports := [(2, { state := 4 })], lanes := [(5, { port := 2, logical := 1, state := 3 })] } }, 5, 11, 4, by decide +kernel⟩

theorem test_eye_sample_due_in_window : ∃ (s : State) (l e n : Nat), (mainUp s = true) ∧ (l < 816) ∧ (e < s.ph.eyeMin) ∧ (laneReason s l = 0) ∧ (s.ph.policy = 1) ∧ (windowOpen s = true) ∧ answered (exec (.eyeSample l e n) s) (fun t => decide (t = { (setLane s l { lane s l with eye := min e 255, corr := min n 65535 }) with ph := { s.ph with laneDue := s.ph.laneDue.filter (· ≠ l) ++ [l] } })) = true :=
  ⟨{ up with now := 3600 * 10 ^ 9 * 5 + 7, ph := { up.ph with policy := 1, wstart := 5, wlen := 60, wperiod := 3600 }, pc := { up.pc with ports := [(2, { state := 4 })], lanes := [(5, { port := 2, logical := 1, state := 3 })] } }, 5, 11, 4, by decide +kernel⟩

theorem test_eye_sample_waits : ∃ (s : State) (l e n : Nat), (mainUp s = true) ∧ (l < 816) ∧ (e < s.ph.eyeMin) ∧ (laneReason s l = 0) ∧ (s.ph.policy ≠ 0) ∧ (s.ph.policy ≠ 1 ∨ windowOpen s = false) ∧ answered (exec (.eyeSample l e n) s) (fun t => decide (t = { (setLane s l { lane s l with eye := min e 255, corr := min n 65535 }) with ph := { s.ph with laneWait := s.ph.laneWait.filter (· ≠ l) ++ [l] } })) = true :=
  ⟨{ up with ph := { up.ph with policy := 2 }, pc := { up.pc with ports := [(2, { state := 4 })], lanes := [(5, { port := 2, logical := 1, state := 3 })] } }, 5, 11, 4, by decide +kernel⟩

theorem test_eye_sample_no_swap : ∃ (s : State) (l e n : Nat), (mainUp s = true) ∧ (l < 816) ∧ (laneReason s l ≠ 0) ∧ answered (exec (.eyeSample l e n) s) (fun t => decide (t = setLane s l { lane s l with eye := min e 255, corr := min n 65535 })) = true :=
  ⟨up, 5, 11, 70000, by decide +kernel⟩

theorem test_eye_sample_no_lane : ∃ (s : State) (l e n : Nat), (816 ≤ l) ∧ answered (exec (.eyeSample l e n) s) (fun t => decide (t = s)) = true :=
  ⟨up, 816, 11, 4, by decide +kernel⟩

theorem test_swap_window_open_swaps : ∃ (s : State) (k : Nat), (mainUp s = true) ∧ (s.ph.policy = 1) ∧ (windowOpen s = true) ∧ (s.ph.partWait = [8 * 256 + k]) ∧ (k < 4) ∧ (s.cc.mgmtFailed = 0) ∧ answered (exec (.swapWindowOpen) s) (fun t => decide (t.cc.mgmtFailed = 2 ^ k ∧ t.ph.partWait = [] ∧ t.ph.laneWait = [] ∧ t.ph.laneDue = s.ph.laneDue.filter (fun l => !s.ph.laneWait.contains l) ++ s.ph.laneWait ∧ tget 0 t.ph.ctr 7 = satInc (tget 0 s.ph.ctr 7) 1 ∧ t = s.ph.partWait.foldl swapPart { s with ph := { s.ph with laneDue := s.ph.laneDue.filter (fun l => !s.ph.laneWait.contains l) ++ s.ph.laneWait, laneWait := [], partWait := [] } })) = true :=
  ⟨{ up with now := 3600 * 10 ^ 9 * 5 + 7, ph := { up.ph with policy := 1, wstart := 5, wlen := 60, wperiod := 3600, partWait := [8 * 256 + 2], laneWait := [5] } }, 2, by decide +kernel⟩

theorem test_swap_window_open_any : ∃ (s : State), (mainUp s = true) ∧ (s.ph.policy = 1) ∧ (windowOpen s = true) ∧ answered (exec (.swapWindowOpen) s) (fun t => decide (t = s.ph.partWait.foldl swapPart { s with ph := { s.ph with laneDue := s.ph.laneDue.filter (fun l => !s.ph.laneWait.contains l) ++ s.ph.laneWait, laneWait := [], partWait := [] } })) = true :=
  ⟨{ tested up with now := 3600 * 10 ^ 9 * 5 + 7, ph := { up.ph with policy := 1, wstart := 5, wlen := 60, wperiod := 3600, partWait := [256, 11 * 256 + 1, 3], laneWait := [5] } }, by decide +kernel⟩

theorem test_swap_window_open_not_due : ∃ (s : State), (s.ph.policy ≠ 1 ∨ windowOpen s = false) ∧ answered (exec (.swapWindowOpen) s) (fun t => decide (t = s)) = true :=
  ⟨up, by decide +kernel⟩

theorem test_queue_word_overrun : ∃ (s : State) (m i : Nat) (v : W64), (m < 80) ∧ (i < 16) ∧ (access s .cxl (0x10000 + m * 0x200 + 8 * i) 8 = .served) ∧ ((mbx s m).inFull = true) ∧ answered (exec (.registerWrite .cxl (0x10000 + m * 0x200 + 8 * i) 8 v) s) (fun t => decide (t = setMbx { s with resp := .ok } m { mbx s m with overrun := true })) = true :=
  ⟨{ up with cc := { up.cc with mbx := [(79, { inFull := true, inLen := 2 })] } }, 79, 15, 3, by decide +kernel⟩

theorem test_queue_word_overrun_sideband : ∃ (s : State) (i : Nat) (v : W64), (i < 16) ∧ (access s .sideband (0x19E00 + 8 * i) 8 = .served) ∧ ((mbx s 79).inFull = true) ∧ answered (exec (.registerWrite .sideband (0x19E00 + 8 * i) 8 v) s) (fun t => decide (t = setMbx { s with resp := .ok } 79 { mbx s 79 with overrun := true })) = true :=
  ⟨{ up with cc := { up.cc with mbx := [(79, { inFull := true, inLen := 2 })] } }, 0, 3, by decide +kernel⟩

theorem test_in_head_full : ∃ (s : State) (m : Nat) (v : W64), (m < 80) ∧ (access s .cxl (0x10000 + m * 0x200 + 0x80) 8 = .served) ∧ ((mbx s m).inFull = true) ∧ answered (exec (.inHeadWrite .cxl m v) s) (fun t => decide (t = setMbx { s with resp := .ok } m { mbx s m with overrun := true })) = true :=
  ⟨{ up with cc := { up.cc with mbx := [(0, { inFull := true, inLen := 2 })] } }, 0, 0, by decide +kernel⟩

theorem test_in_head_bad_length : ∃ (s : State) (m : Nat) (v : W64), (m < 80) ∧ (access s .cxl (0x10000 + m * 0x200 + 0x80) 8 = .served) ∧ ((mbx s m).inFull = false) ∧ (fld v 0 5 = 0 ∨ 16 < fld v 0 5) ∧ answered (exec (.inHeadWrite .cxl m v) s) (fun t => decide (t = setMbx { s with resp := .ok } m { mbx s m with malformed := true })) = true :=
  ⟨up, 63, 31, by decide +kernel⟩

theorem test_floor_raise_taken : ∃ (s : State) (k f : Nat), (s.hw.perstLow = false) ∧ (unpowered s = false) ∧ (s.cc.stage = 6) ∧ (ownerOn s k = true) ∧ ((lcNow s).floorLeft ≠ 0) ∧ ((lcNow s).floor < f) ∧ (f ≤ svnOf s 1) ∧ (f ≤ svnOf s 2) ∧ (f ≤ svnOf s 3) ∧ (f ≤ svnOf s 4) ∧ (lcTaken s 0 = false) ∧ answered (exec (.raiseFloor k f) s) (fun t => decide ((lcNow t).floor = f ∧ (lcNow t).idepoch = (lcNow s).idepoch)) = true :=
  ⟨{ ownedUp with ta := { ownedUp.ta with svn := [(1, 3), (2, 3), (3, 2), (4, 5)] } }, 2, 2, by decide +kernel⟩

theorem test_floor_raise_other_value : ∃ (s : State) (k f : Nat), (s.hw.perstLow = false) ∧ (unpowered s = false) ∧ (s.cc.stage = 6) ∧ (k ≤ 4) ∧ (k = 0 ∨ (sess s k).opened = true) ∧ ((lcNow s).floorLeft ≠ 0) ∧ (f ≤ (lcNow s).floor ∨ svnOf s 1 < f ∨ svnOf s 2 < f ∨ svnOf s 3 < f ∨ svnOf s 4 < f) ∧ (lcTaken s 0 = false) ∧ answered (exec (.raiseFloor k f) s) (fun t => decide (t.resp = .bytes (bytesLE 2 0x0B04) ∧ lcNow t = lcNow s)) = true :=
  ⟨{ ownedUp with ta := { ownedUp.ta with svn := [(1, 3), (2, 3), (3, 2), (4, 5)] } }, 2, 3, by decide +kernel⟩

/-! ### The whole machine -/

/-- A command at the front of the queue runs, and the rest of the queue waits. -/
theorem test_step_front : ∃ s : State, s.pending = [.smbusFallback, .dirtyDrain 4] ∧ answered (step s) (fun t => decide (t.pending = [.dirtyDrain 4] ∧ t.cc.sbSmbus = true)) = true :=
  ⟨{ up with pending := [.smbusFallback, .dirtyDrain 4] }, by decide +kernel⟩

/-- An idle nanosecond. -/
theorem test_step_idle : ∃ s : State, s.pending = [] ∧ unpowered s = false ∧ s.pc.slew = 0 ∧ s.tr.comps = [] ∧ throttled s = false ∧ s.lv.removeStart = none
    ∧ answered (step s) (fun t => decide (t = { s with now := 1 })) = true :=
  ⟨up, by decide +kernel⟩

/-- A module without power stands still. -/
theorem test_step_unpowered : ∃ s : State, s.pending = [] ∧ unpowered s = true ∧ answered (step s) (fun t => decide (t = s)) = true :=
  ⟨{ up with hw := { up.hw with inputLost := true } }, by decide +kernel⟩

/-- A state with bytes in all three memories that meets the invariant, and a step from it. -/
theorem test_memories : ∃ s : State, Memory.wf s.cc.bulk = true ∧ Memory.wf s.cc.flags = true ∧ Memory.wf s.tr.hbm = true ∧ s.cc.bulk ≠ [] ∧ s.cc.flags ≠ []
    ∧ s.tr.hbm ≠ [] ∧ answered (step { s with pending := [.resetNRelease] }) (fun t => Memory.wf t.cc.bulk && Memory.wf t.cc.flags && Memory.wf t.tr.hbm) = true :=
  ⟨{ fwPage pool with hw := { up.hw with resetLow := true } }, by decide +kernel⟩

/-- A command that raises the epoch raises IDEPOCH. -/
theorem test_epoch_rises : ∃ s : State, (lcNow s).idepoch = 0 ∧ answered (exec (.raiseEpoch 2) s) (fun t => decide ((lcNow t).idepoch = 1)) = true :=
  ⟨ownedUp, by decide +kernel⟩

/-! ### Commands that `WellFormed` refuses, one for each check -/

theorem test_ill_formed_0 : ([.lockAcquire .cxl 256 0, .lockAcquire .cxl 0 256, .lockRelease .cxl 256 0 0, .lockRelease .cxl 0 256 0, .inHeadWrite .cxl 80 0, .outHeadRead .cxl 80, .ringConsWrite 19 0, .cpInline 80, .cpBulk 80, .querySeq 80, .healthQuery 80, .malformedMessage 80, .programAccept 80, .mgmtCoreFailover 5, .doorbell { op := 256 }, .descriptorReadDone 4096 0 [], .descriptorReadDone 0 256 [], .descriptorAccept 4096, .jobTake 68, .placement 68, .placementRetry 16, .pllLock 11, .jobStart 68, .jobStart 0 (some 65536)] : List Instr).all (fun c => !WellFormed c) = true := by decide +kernel

theorem test_ill_formed_1 : ([.jobStart 0 none [(24, 0)], .jobStart 0 none [(0, 2 ^ 56)], .jobRetire 68, .completionWriteDone 4096 0, .completionWriteDone 0 256, .jobRunLimit 68, .jobRestart 68 (.lace 0), .jobRestart 0 (.unit 8 0), .jobRestart 0 (.unit 0 256), .jobRestart 0 (.lace 32), .jobRestart 0 (.chan 4 0), .jobRestart 0 (.chan 0 4), .jobRestart 0 (.row 4 0), .jobRestart 0 (.row 0 96), .sequencerScrubEnd 68, .sequencerScrubEnd 0 [96], .unitIdleGate 8 0, .unitIdleGate 0 256, .pllIdleStop 11, .programTake 9, .watchdogExpiry 9, .halt (.ctl 9), .halt (.seq 68), .halt (.stage 0 24)] : List Instr).all (fun c => !WellFormed c) = true := by decide +kernel

theorem test_ill_formed_2 : ([.loop (.ctl 9), .loop (.seq 68), .loop (.stage 0 24), .endl (.ctl 9), .endl (.seq 68), .endl (.stage 0 24), .br (.ctl 9), .br (.seq 68), .br (.stage 0 24), .stream 68 0, .stream 0 24, .gather 68 0, .gather 0 24, .scatter 68 0, .scatter 0 24, .walkReadDone 1024 0 0, .walkReadDone 0 256 0, .faultRecordRetry 16, .emitPut 68 0, .emitPut 0 24, .emitTake 68 0, .emitTake 0 24, .emitSeta 68 0, .emitSeta 0 24] : List Instr).all (fun c => !WellFormed c) = true := by decide +kernel

theorem test_ill_formed_3 : ([.emitLda 68 0, .emitLda 0 24, .emitLdt 68 0, .emitLdt 0 24, .emitStt 68 0, .emitStt 0 24, .emitSetp 68 0, .emitSetp 0 24, .decode 68 0, .decode 0 24, .decodeBlock 68 0, .decodeBlock 0 24, .encode 68 0, .encode 0 24, .encodeBlock 68 0, .encodeBlock 0 24, .buildtab 68 0, .buildtab 0 24, .mma 68 0, .mma 0 24, .dot 68 0, .dot 0 24, .scale 68 0, .scale 0 24] : List Instr).all (fun c => !WellFormed c) = true := by decide +kernel

theorem test_ill_formed_4 : ([.quant 68 0, .quant 0 24, .dequant 68 0, .dequant 0 24, .smaxReset 68 0, .smaxReset 0 24, .smaxBlock 68 0, .smaxBlock 0 24, .smaxEnd 68 0, .smaxEnd 0 24, .exp 68 0, .exp 0 24, .lsemerge 68 0, .lsemerge 0 24, .cmpSet 68 0, .cmpSet 0 24, .cmpAnd 68 0, .cmpAnd 0 24, .cmpOr 68 0, .cmpOr 0 24, .cmpBound 68 0, .cmpBound 0 24, .topk 68 0, .topk 0 24] : List Instr).all (fun c => !WellFormed c) = true := by decide +kernel

theorem test_ill_formed_5 : ([.select 68 0, .select 0 24, .compact 68 0, .compact 0 24, .redTile 68 0, .redTile 0 24, .redWelt 68 0, .redWelt 0 24, .weltLaceContribution 68 0, .weltLaceContribution 0 24, .weltTimeout 68, .redw 68 0, .redw 0 24, .mcast 68 0, .mcast 0 24, .arrive (.ctl 9), .arrive (.seq 68), .arrive (.stage 0 24), .signal (.ctl 9), .signal (.seq 68), .signal (.stage 0 24), .waitcnt (.ctl 9), .waitcnt (.seq 68), .waitcnt (.stage 0 24)] : List Instr).all (fun c => !WellFormed c) = true := by decide +kernel

theorem test_ill_formed_6 : ([.waitcntSatisfied (.ctl 9), .waitcntSatisfied (.seq 68), .waitcntSatisfied (.stage 0 24), .waitcntTimeout (.ctl 9), .waitcntTimeout (.seq 68), .waitcntTimeout (.stage 0 24), .mapSetRoute 9, .mapSetMember 9, .mapSetSpan 9, .mapEpoch 9, .mapEpochDrained 9, .compCreate 9, .compDestroy 9, .compDestroyEnd 4096, .extGrant 9, .extRevoke 9, .extentDrainEnd 262144, .extScrub 9, .extScrubEnd 262144, .keyLoad 9, .keyRetire 9, .keyDrainZeroise 4096, .keyRetireTimeout 4096, .ctxBind 9] : List Instr).all (fun c => !WellFormed c) = true := by decide +kernel

theorem test_ill_formed_7 : ([.ctxUnbind 9, .asidInvalNone 9, .asidInvalRetryAll 9, .asidInvalAbort 9, .asidInvalDrained 9, .fenceComp 9, .fencePeer 9, .fenceReleasePeer 9, .fenceReleaseComp 9, .fenceCollected 9, .fenceTimeout 9, .handoffSend 9, .handoffAccept 9, .reclaim 9, .leaseOffer 9, .leaseAccept 9, .leaseRecall 9, .leaseReturn 9, .leaseRecallReceipt 256 0 0, .leaseEmptied 256, .leaseDeadline 256, .leaseLost 256 0, .leaseLost 0 256, .weightsRegister 9] : List Instr).all (fun c => !WellFormed c) = true := by decide +kernel

theorem test_ill_formed_8 : ([.weightsHashDone 4096 0 [], .weightsHashDone 0 256 [], .weightsWithdraw 9, .weightsDrainEnd 4096, .tableStore 9 0 [], .tableStore 0 256 [], .tableInstall 9, .installWaitEnd 65536, .installResident 65536, .tableRelease 9, .tableDelete 9, .tableDrainEnd 65536, .powerReq 9, .powerReqRelease 9, .spareSwap 9, .meterRead 9, .commitPattern 9 0 [], .commitPattern 0 256 [], .commitPatternDisable 9, .patternDrainEnd 4096, .commitSaSlice 9, .commitSaUnitmap 9, .commitSaPartcfg 9, .commitJobqEnable 9] : List Instr).all (fun c => !WellFormed c) = true := by decide +kernel

theorem test_ill_formed_9 : ([.commitJobqDisable 9, .jobqDrainEnd 4096, .commitMbxbind 9, .commitSyncobj 9, .commitCopyeng 9, .commitMcgroupGroup 9, .commitMcgroupMember 9, .commitMeter 9, .commitSchedQueue 9, .commitSchedPort 9, .commitSchedShare 9, .commitGateEntry 9, .commitGateList 9, .commitMirrorSession 9, .commitMirrorSampler 9, .commitPort 9, .commitPortPair 9, .commitWindow 9, .commitAsid 9, .commitRegion 9, .commitPlacement 9, .commitFdtag 9, .commitPartitionPort 9, .commitPartitionPch 9] : List Instr).all (fun c => !WellFormed c) = true := by decide +kernel

theorem test_ill_formed_10 : ([.commitPartitionReset 9, .partitionResetEnd 16, .sequencerStopTimeout (.ctl 9), .sequencerStopTimeout (.seq 68), .sequencerStopTimeout (.stage 0 24), .commitTenant 9, .commitTenantPchAssign 9, .commitTenantPchRelease 9, .pchVacated 128, .pchScrubEnd 128, .commitTenantTrayport 9, .commitPhBudget 9, .commitPhSwap 9, .commitPhProof 9, .commitPhWeight 9, .commitLvLimits 9, .commitLvImage 9, .commitLvRtable 9, .commitLvExport 9, .readRequest { op := 256 } {}, .readRequest { tc := 8 } {}, .readRequest { src := 65536 } {}, .readRequest { dst := 2 ^ 60 } {}, .readRequest { comp := 4096 } {}] : List Instr).all (fun c => !WellFormed c) = true := by decide +kernel

theorem test_ill_formed_11 : ([.readRequest { mapE := 256 } {}, .readRequest { routeE := 256 } {}, .readRequest { region := 65536 } {}, .readRequest { rkey := 2 ^ 32 } {}, .readRequest { stream := 2 ^ 40 } {}, .readRequest { tag := 65536 } {}, .readRequest { issueT := 2 ^ 64 } {}, .readRequest { len := 4097 } {}, .readRequest { subop := 16 } {}, .readRequest { opw := 4 } {}, .readRequest { etype := 16 } {}, .readRequest { group := 16384 } {}, .readRequest { status := 256 } {}, .readRequest { rsw := 4096 } {}, .readRequest { colour := 4 } {}, .readRequest { data := List.replicate 4097 0 } {}, .writeRequest { op := 256 }, .pwriteRequest { op := 256 }, .atomicRequest { op := 256 }, .redwRequest { op := 256 }, .mcwRequest { op := 256 }, .msgRequest { op := 256 }, .copyRing { op := 256 }, .copyChunkDone 32 0 0] : List Instr).all (fun c => !WellFormed c) = true := by decide +kernel

theorem test_ill_formed_12 : ([.fenceRequest { op := 256 }, .arriveRequest { op := 256 }, .signalRequest { op := 256 }, .drainMarker { op := 256 }, .probe { op := 256 }, .cplReceive { op := 256 }, .replyCacheExpiry 65536, .frameIngress { op := 256 } 0, .frameIngress {} 200, .frameAdmit 200 0, .admissionTimeout 200 0, .egressSelect 200, .gateEntryBoundary 200, .gateCycleStart 200, .frameAgeOut 200 0, .frameAgeOut 0 64, .queueSample 200, .routeDrainAck 4096, .portDown 192, .agingToService 192, .flitReceive 192 [], .creditFrame 192 {}, .creditFrame 0 { op := 256 }, .timeSyncFrame 192 {}] : List Instr).all (fun c => !WellFormed c) = true := by decide +kernel

theorem test_ill_formed_13 : ([.timeSyncFrame 0 { op := 256 }, .timeReplyFrame 192 {}, .timeReplyFrame 0 { op := 256 }, .dozeIdleTimeout 192, .dozeFrame 192 {}, .dozeFrame 0 { op := 256 }, .wakeFrame 192 {}, .wakeFrame 0 { op := 256 }, .wakeDelayEnd 192, .keySwitchFrame 192 {}, .keySwitchFrame 0 { op := 256 }, .macFrame 192 {}, .macFrame 0 { op := 256 }, .capsFrame 192 {}, .capsFrame 0 { op := 256 }, .spareFrame 192 {}, .spareFrame 0 { op := 256 }, .keymsgFrame 192 {}, .keymsgFrame 0 { op := 256 }, .linkKey 192 [], .rekeyTimer 192, .partnerDetect 192, .trainingComplete 192 [], .trainRetry 192] : List Instr).all (fun c => !WellFormed c) = true := by decide +kernel

theorem test_ill_formed_14 : ([.laneLockLoss 192 none, .retrainTimeout 192, .laneSwapStart 816, .spareLock 48, .spareSwitch 48, .setCertificate 0 8 [], .getReport 0 [] 4096 0, .deliveredKeyExpiry 256, .wearLevelMove 8 0 0, .lpddrPackageFail 2, .nandPackageFail 8, .meterPeriodEnd 4096, .migrationStart 0 4 0, .mirrorResync 262144, .hbmStackFail 4, .dieTemperature 11 0, .ageMonitorSample (.unit 8 0) 0, .ageMonitorSample (.unit 0 256) 0, .ageMonitorSample (.seq 68) 0, .ageMonitorSample (.core 5) 0, .ageMonitorSample (.ctl 9) 0, .ageMonitorSample (.bank 4 0) 0, .ageMonitorSample (.bank 0 96) 0, .ageMonitorSample (.hbm 4) 0] : List Instr).all (fun c => !WellFormed c) = true := by decide +kernel

theorem test_ill_formed_15 : ([.ageMonitorSample (.lpddr 2) 0, .ageMonitorSample (.nand 8) 0, .ceSample (.unit 8 0) 0 0, .ceSample (.unit 0 256) 0 0, .ceSample (.seq 68) 0 0, .ceSample (.core 5) 0 0, .ceSample (.ctl 9) 0 0, .ceSample (.bank 4 0) 0 0, .ceSample (.bank 0 96) 0 0, .ceSample (.hbm 4) 0 0, .ceSample (.lpddr 2) 0 0, .ceSample (.nand 8) 0 0, .eyeSample 816 0 0, .proofCheckerWait 68 0, .proofCheckerWait 0 24, .proofVerdict 68 0 {}, .proofVerdict 0 24 {}, .proofRepeatVerdict 68 0 {} {}, .proofRepeatVerdict 0 24 {} {}, .escalationEnd 8 0, .escalationEnd 0 256, .proofBinLapse 8 0 0, .proofBinLapse 0 256 0, .proofBinLapse 0 0 32] : List Instr).all (fun c => !WellFormed c) = true := by decide +kernel

theorem test_ill_formed_16 : ([.retrainComplete 192, .controlSequencerFail 9, .dynamicAddressAssignment 128, .spareDeskewDone 48] : List Instr).all (fun c => !WellFormed c) = true := by decide +kernel

/-- A command of each kind of operand that `WellFormed` takes. -/
theorem test_well_formed : ([.cpInline 79, .remove .sideband (aonCode 8 0), .halt (.stage 67 23), .jobRestart 67 (.lace 31), .macFrame 191 { op := 0x26 }, .ceSample (.nand 7) 65] : List Instr).all WellFormed = true := by decide +kernel

end Sys2Proof.Tests
end

/-! SUPPORT. What no command touches (R2, R41; log entry 1): the commands waiting in the queue, and the variant that the
capability registers show. `State.kept` is that part of a state, and there is one frame lemma per operation of the model, in
the order of the model's files: `f_kept` says that the state `f` gives has the kept part of the state it was given.
A command's own lemma, `execF_kept`, says the same of its outcome, and so that it answers a next state. -/

namespace Sys2Proof.Machine

/-- What no command may touch: the commands waiting, and the variant of the module. -/
def State.kept (s : State) : List Instr × Variant := (s.pending, s.variant)

/-- The kept part of the state an outcome answers; none for a fault or a refusal. -/
def outKept : Host.Outcome State Fault Refusal → Option (List Instr × Variant)
  | .next t => some t.kept
  | _ => none

/-! ### The rules of the kept part

The two fields decide it, an update of other fields leaves it, and it goes into the branches of a choice and along a fold. -/

theorem kept_eq {s t : State} (hp : t.pending = s.pending) (hv : t.variant = s.variant) : t.kept = s.kept := Prod.ext hp hv

@[simp] theorem kept_update (t : State) (swNum now : Nat) (cc : CcState) (lv : LvState) (sa : SaState) (gv : GvState) (te : TeState)
    (sw : SwState) (pc : PcState) (tu : TuState) (tr : TrState) (ie : IeState) (ta : TaState) (ph : PhState) (hw : HwState)
    (vimg : Images) (stamps : Tab Stamp) (resp : Resp) (msix : List Nat) (freeCtr : Nat) :
    (State.mk t.variant swNum now cc lv sa gv te sw pc tu tr ie ta ph hw vimg stamps resp msix freeCtr t.pending).kept = t.kept :=
  kept_eq rfl rfl

@[simp] theorem outKept_next (t : State) : outKept (.next t) = some t.kept := rfl

@[simp] theorem kept_ite (c : Prop) [Decidable c] (a b : State) : (if c then a else b).kept = if c then a.kept else b.kept :=
  apply_ite ..

@[simp] theorem ctlRes_s_ite (c : Prop) [Decidable c] (a b : CtlRes) : (if c then a else b).s = if c then a.s else b.s :=
  apply_ite ..

@[simp] theorem snd_kept_ite (c : Prop) [Decidable c] (a b : Nat × State) :
    (if c then a else b).2.kept = if c then a.2.kept else b.2.kept := apply_ite (fun x : Nat × State => x.2.kept) ..

@[simp] theorem fst_kept_ite {α : Type} (c : Prop) [Decidable c] (a b : State × α) :
    (if c then a else b).1.kept = if c then a.1.kept else b.1.kept := apply_ite (fun x : State × α => x.1.kept) ..

@[simp] theorem foldl_kept {α : Type} {g : State → α → State} (h : ∀ s a, (g s a).kept = s.kept) (l : List α) (s : State) :
    (l.foldl g s).kept = s.kept := by
  induction l generalizing s with
  | nil => rfl
  | cons a l ih => exact (ih _).trans (h s a)

theorem getD_kept {s : State} {o : Option State} (h : ∀ t, o = some t → t.kept = s.kept) : (o.getD s).kept = s.kept := by
  cases o with
  | none => rfl
  | some t => exact h t rfl

/-! ### Shared operations (Machine/Ops.lean) -/

@[simp] theorem draw_kept (s : State) : (draw s).kept = s.kept := kept_eq (draw_pending ..) (draw_variant ..)
@[simp] theorem sendVector_kept (s : State) (v : Nat) : (sendVector s v).kept = s.kept := by simp [sendVector]
@[simp] theorem raiseEvent_kept (s : State) (b : Nat) : (raiseEvent s b).kept = s.kept := by simp [raiseEvent]
@[simp] theorem raiseMbx_kept (s : State) (m : Nat) : (raiseMbx s m).kept = s.kept := by simp [raiseMbx]
@[simp] theorem setMbx_kept (s : State) (m : Nat) (x : Mailbox) : (setMbx s m x).kept = s.kept := kept_eq (setMbx_pending ..) (setMbx_variant ..)
@[simp] theorem putOut_kept (s : State) (m : Nat) (ws : List W64) : (putOut s m ws).kept = s.kept := by simp [putOut]
@[simp] theorem postOut_kept (s : State) (m : Nat) (ws : List W64) : (postOut s m ws).kept = s.kept := by simp [postOut]
@[simp] theorem cpRefused_kept (s : State) (m tag status reason : Nat) : (cpRefused s m tag status reason).kept = s.kept := by simp [cpRefused]
@[simp] theorem cpDone_kept (s : State) (m tag seq status reason : Nat) : (cpDone s m tag seq status reason).kept = s.kept := by simp [cpDone]
@[simp] theorem queryReply_kept (s : State) (m tag : Nat) (v : W64) : (queryReply s m tag v).kept = s.kept := by simp [queryReply]
@[simp] theorem setRing_kept (s : State) (n : Nat) (r : Ring) : (setRing s n r).kept = s.kept := kept_eq (setRing_pending ..) (setRing_variant ..)
@[simp] theorem ringPut_kept (s : State) (n : Nat) (ws : List W64) : (ringPut s n ws).kept = s.kept := by simp [ringPut]
@[simp] theorem writeHeld_kept (s : State) (n : Nat) : (writeHeld s n).kept = s.kept := by
  dsimp only [writeHeld]
  split <;> simp
@[simp] theorem writeAllHeld_kept (s : State) (n : Nat) : (writeAllHeld s n).kept = s.kept := by simp [writeAllHeld]
@[simp] theorem ringWrite_kept (s : State) (n : Nat) (ws : List W64) : (ringWrite s n ws).kept = s.kept := by simp [ringWrite]
@[simp] theorem faultRecord_kept (s : State) (part kind : Nat) (ws : List W64) : (faultRecord s part kind ws).kept = s.kept := by simp [faultRecord]
@[simp] theorem addDirty_kept (s : State) (n : Nat) : (addDirty s n).kept = s.kept := kept_eq (addDirty_pending ..) (addDirty_variant ..)
@[simp] theorem stateRecord_kept (s : State) (n : Nat) : (stateRecord s n).kept = s.kept := kept_update ..
@[simp] theorem lvCount_kept (s : State) (i n : Nat) : (lvCount s i n).kept = s.kept := kept_eq (lvCount_pending ..) (lvCount_variant ..)
@[simp] theorem placeEntries_kept (s : State) (n : Nat) : (placeEntries s n).kept = s.kept := by simp [placeEntries]
@[simp] theorem freeSegs_kept (s : State) : (freeSegs s).kept = s.kept := by simp [freeSegs]
@[simp] theorem stageRecord_kept (s : State) (r : JRec) : (stageRecord s r).kept = s.kept := by simp [stageRecord]
@[simp] theorem mapRecs_kept (s : State) (f : JRec → JRec) : (mapRecs s f).kept = s.kept := kept_eq (mapRecs_pending ..) (mapRecs_variant ..)
@[simp] theorem markStarted_kept (s : State) (seq : Nat) : (markStarted s seq).kept = s.kept := kept_update ..
@[simp] theorem stageCompletion_kept (s : State) (r : JRec) (word1 : W64) (userTag : Nat) : (stageCompletion s r word1 userTag).kept = s.kept :=
  kept_update ..
@[simp] theorem retireRec_kept (s : State) (seq : Nat) : (retireRec s seq).kept = s.kept := kept_update ..
@[simp] theorem attest_kept (s : State) (kind object value : Nat) (digest : Bytes) : (attest s kind object value digest).kept = s.kept :=
  kept_eq (attest_pending ..) (attest_variant ..)
@[simp] theorem digestNote_kept (s : State) (object : Nat) (added : Bool) (digest : Bytes) : (digestNote s object added digest).kept = s.kept :=
  kept_update ..
@[simp] theorem crashRecord_kept (s : State) (cause : Nat) : (crashRecord s cause).kept = s.kept :=
  kept_eq (crashRecord_pending ..) (crashRecord_variant ..)
@[simp] theorem flipToHost_kept (s : State) (page : Nat) : (flipToHost s page).kept = s.kept := by simp [flipToHost]
@[simp] theorem flipPages_kept (s : State) (off len : Nat) : (flipPages s off len).kept = s.kept := by simp [flipPages]

/-! ### Units and sequencers (Machine/Units.lean) -/

@[simp] theorem setUnit_kept (s : State) (ty p : Nat) (u : SUnit) : (setUnit s ty p u).kept = s.kept :=
  kept_eq (setUnit_pending ..) (setUnit_variant ..)
@[simp] theorem setSeam_kept (s : State) (q : Nat) (x : Seam) : (setSeam s q x).kept = s.kept := kept_eq (setSeam_pending ..) (setSeam_variant ..)
@[simp] theorem saCount_kept (s : State) (i n : Nat) : (saCount s i n).kept = s.kept := kept_eq (saCount_pending ..) (saCount_variant ..)
@[simp] theorem tallyWait_kept (s : State) (q : Nat) : (tallyWait s q).kept = s.kept := by
  dsimp only [tallyWait]
  split <;> simp
@[simp] theorem setHealth_kept (s : State) (ty p : Nat) (h : UHealth) : (setHealth s ty p h).kept = s.kept :=
  kept_eq (setHealth_pending ..) (setHealth_variant ..)
@[simp] theorem phCount_kept (s : State) (i n : Nat) : (phCount s i n).kept = s.kept := kept_eq (phCount_pending ..) (phCount_variant ..)
@[simp] theorem unpend_kept (s : State) (k : Nat) : (unpend s k).kept = s.kept := kept_eq (unpend_pending ..) (unpend_variant ..)
@[simp] theorem retireUnit_kept (s : State) (ty p : Nat) : (retireUnit s ty p).kept = s.kept := by
  dsimp only [retireUnit]
  split
  · split <;> simp
  · split <;> simp
@[simp] theorem swapNow_kept (s : State) (ty p : Nat) : (swapNow s ty p).kept = s.kept := by simp [swapNow]
@[simp] theorem setFlow_kept (s : State) (p : Nat) (f : Flow) : (setFlow s p f).kept = s.kept := kept_eq (setFlow_pending ..) (setFlow_variant ..)
@[simp] theorem askLeave_kept (s : State) (p : Nat) (who : LeaveWho) (c : Nat) : (askLeave s p who c).kept = s.kept := kept_update ..
@[simp] theorem dropLeave_kept (s : State) (p c : Nat) : (dropLeave s p c).kept = s.kept := kept_update ..
@[simp] theorem cancelLeave_kept (s : State) (p : Nat) (who : LeaveWho) : (cancelLeave s p who).kept = s.kept := kept_update ..

/-! ### Messages and control programs (Machine/Control.lean) -/

@[simp] theorem takeMsg_kept (s : State) (m : Nat) : (takeMsg s m).kept = s.kept := by simp [takeMsg]
@[simp] theorem stageProg_kept (s : State) (m tag : Nat) (img : Bytes) (off : Option Nat) : (stageProg s m tag img off).kept = s.kept :=
  kept_update ..
@[simp] theorem judgeProg_kept (s : State) (m tag : Nat) (img : Bytes) (off : Option Nat) : (judgeProg s m tag img off).kept = s.kept := by
  unfold judgeProg
  split <;> simp
@[simp] theorem execCpInline_kept (m : Nat) (s : State) : outKept (execCpInline m s) = some s.kept := by simp [execCpInline]
@[simp] theorem execCpBulk_kept (m : Nat) (s : State) : outKept (execCpBulk m s) = some s.kept := by simp [execCpBulk]
@[simp] theorem execQuerySeq_kept (m : Nat) (s : State) : outKept (execQuerySeq m s) = some s.kept := by simp [execQuerySeq]
@[simp] theorem execHealthQuery_kept (m : Nat) (s : State) : outKept (execHealthQuery m s) = some s.kept := by simp [execHealthQuery]
@[simp] theorem execMalformedMessage_kept (m : Nat) (s : State) : outKept (execMalformedMessage m s) = some s.kept := by simp [execMalformedMessage]
@[simp] theorem execProgramAccept_kept (m : Nat) (s : State) : outKept (execProgramAccept m s) = some s.kept := by
  dsimp only [execProgramAccept]
  split
  · split
    · simp
    · split <;> simp
  · simp
@[simp] theorem execMgmtCoreFailover_kept (core : Nat) (s : State) : outKept (execMgmtCoreFailover core s) = some s.kept := by
  simp [execMgmtCoreFailover]
@[simp] theorem setCtl_kept (s : State) (cs : Nat) (x : CtlSeq) : (setCtl s cs x).kept = s.kept := kept_eq (setCtl_pending ..) (setCtl_variant ..)
@[simp] theorem dropProgLeave_kept (s : State) (cs : Nat) : (dropProgLeave s cs).kept = s.kept := by simp [dropProgLeave]
@[simp] theorem ctlFinish_kept (s : State) (cs reason : Nat) (status : Option W64) : (ctlFinish s cs reason status).kept = s.kept := kept_update ..
@[simp] theorem ctlComplete_kept (s : State) (cs reason : Nat) (status : Option W64) (obj : Option Nat) (size : Nat) :
    (ctlComplete s cs reason status obj size).kept = s.kept := by
  unfold ctlComplete
  split <;> simp
@[simp] theorem swapCtl_kept (s : State) (cs : Nat) : (swapCtl s cs).kept = s.kept := by
  dsimp only [swapCtl]
  split <;> simp
@[simp] theorem progEnd_kept (s : State) (cs status reason : Nat) : (progEnd s cs status reason).kept = s.kept := by
  dsimp only [progEnd]
  split <;> simp
@[simp] theorem execProgramTake_kept (cs : Nat) (s : State) : outKept (execProgramTake cs s) = some s.kept := by
  dsimp only [execProgramTake]
  split
  · split
    · simp
    · split <;> simp
  · simp
@[simp] theorem refuse_kept (s : State) (reason : Nat) (status : Option W64) : (refuse s reason status).s.kept = s.kept := kept_update ..
@[simp] theorem ctlSkip_kept (s : State) (cs : Nat) : (ctlSkip s cs).kept = s.kept := kept_update ..
@[simp] theorem grantCommit_kept (s : State) (cs opc key : Nat) : (grantCommit s cs opc key).kept = s.kept := by simp [grantCommit]
@[simp] theorem runCtl_kept (s : State) (cs opc : Nat) (sel : List W64 → Bool) (key : List W64 → Nat) (stat : State → List W64 → Option W64)
    {body : State → CtlSeq → List W64 → CtlRes} (h : ∀ s q d, (body s q d).s.kept = s.kept) : (runCtl s cs opc sel key stat body).kept = s.kept := by
  unfold runCtl
  split
  · split
    · simp
    · split
      · rfl
      · split <;> simp [h]
  · rfl
@[simp] theorem applyOnly_kept (s : State) (d : List W64) (status : W64) {go : Unit → CtlRes} (h : (go ()).s.kept = s.kept) :
    (applyOnly s d status go).s.kept = s.kept := by
  unfold applyOnly
  split <;> simp [h]

/-! ### Routes and frames sent (Machine/Route.lean) -/

@[simp] theorem setPort_kept (s : State) (p : Nat) (x : Port) : (setPort s p x).kept = s.kept := kept_eq (setPort_pending ..) (setPort_variant ..)
@[simp] theorem setPair_kept (s : State) (k : Nat) (x : Pair) : (setPair s k x).kept = s.kept := kept_eq (setPair_pending ..) (setPair_variant ..)
@[simp] theorem sendOut_kept (s : State) (f : Frame) (via : Option Nat) : (sendOut s f via).kept = s.kept :=
  kept_eq (sendOut_pending ..) (sendOut_variant ..)
@[simp] theorem teCount_kept (s : State) (i n : Nat) : (teCount s i n).kept = s.kept := kept_eq (teCount_pending ..) (teCount_variant ..)
@[simp] theorem postedFail_kept (s : State) (f : Frame) (status : Nat) : (postedFail s f status).kept = s.kept := kept_update ..
@[simp] theorem answer_kept (s : State) (f : Frame) (status : Nat) (data : Bytes) : (answer s f status data).kept = s.kept := by simp [answer]
@[simp] theorem keepOut_kept (s : State) (f : Frame) (what : ReqFor) (via : Option Nat) : (keepOut s f what via).kept = s.kept :=
  kept_eq (keepOut_pending ..) (keepOut_variant ..)
@[simp] theorem issue_kept (s : State) (f : Frame) (what : ReqFor) (via : Option Nat) : (issue s f what via).kept = s.kept := kept_update ..
@[simp] theorem issueNew_kept (s : State) (f : Frame) (what : ReqFor) (via : Option Nat) : (issueNew s f what via).kept = s.kept := kept_update ..
@[simp] theorem sendOwed_kept (s : State) : (sendOwed s).kept = s.kept := by simp [sendOwed]
@[simp] theorem owe_kept (s : State) (f : Frame) : (owe s f).kept = s.kept := by simp [owe]

/-! ### Pool memory (Machine/Pool.lean) -/

@[simp] theorem setTier_kept (s : State) (g : Nat) (e : TierEnt) : (setTier s g e).kept = s.kept := kept_eq (setTier_pending ..) (setTier_variant ..)
@[simp] theorem setExt_kept (s : State) (x : Nat) (e : Extent) : (setExt s x e).kept = s.kept := kept_eq (setExt_pending ..) (setExt_variant ..)
@[simp] theorem setLease_kept (s : State) (l : Nat) (x : Lease) : (setLease s l x).kept = s.kept :=
  kept_eq (setLease_pending ..) (setLease_variant ..)
@[simp] theorem setSlot_kept (s : State) (k : Nat) (x : KeySlot) : (setSlot s k x).kept = s.kept := kept_eq (setSlot_pending ..) (setSlot_variant ..)
@[simp] theorem trCount_kept (s : State) (i n : Nat) : (trCount s i n).kept = s.kept := kept_eq (trCount_pending ..) (trCount_variant ..)
@[simp] theorem ieCount_kept (s : State) (i n : Nat) : (ieCount s i n).kept = s.kept := kept_eq (ieCount_pending ..) (ieCount_variant ..)
@[simp] theorem useTake_kept (s : State) (k : Nat) : (useTake s k).kept = s.kept := kept_update ..
@[simp] theorem useEnd_kept (s : State) (k gen : Nat) : (useEnd s k gen).kept = s.kept := by simp [useEnd]
@[simp] theorem keyLate_kept (s : State) (k : Nat) : (keyLate s k).kept = s.kept := kept_update ..
@[simp] theorem takeFrame_kept (s : State) (f g : Nat) : (takeFrame s f g).kept = s.kept := kept_eq (takeFrame_pending ..) (takeFrame_variant ..)
@[simp] theorem freeFrame_kept (s : State) (f : Nat) : (freeFrame s f).kept = s.kept := kept_eq (freeFrame_pending ..) (freeFrame_variant ..)
@[simp] theorem dropMove_kept (s : State) (g : Nat) : (dropMove s g).kept = s.kept := by
  unfold dropMove
  split <;> simp
@[simp] theorem dropCopy_kept (s : State) (g : Nat) : (dropCopy s g).kept = s.kept := by
  dsimp only [dropCopy]
  split
  · split <;> simp
  · simp
@[simp] theorem stopJob_kept (s : State) (q status : Nat) : (stopJob s q status).kept = s.kept := by
  dsimp only [stopJob]
  split <;> simp
@[simp] theorem notify_kept (s : State) (c ep : Nat) (data : Bytes) : (notify s c ep data).kept = s.kept := by
  unfold notify
  split <;> simp
@[simp] theorem failComp_kept (s : State) (c cause fa ep : Nat) : (failComp s c cause fa ep).kept = s.kept := by simp [failComp]
@[simp] theorem failGrain_kept (s : State) (g cause : Nat) : (failGrain s g cause).kept = s.kept := by simp [failGrain]
@[simp] theorem issueAll_kept (s : State) (n : Nat) (fs : List (Frame × Option Nat)) : (issueAll s n fs).kept = s.kept := by simp [issueAll]
@[simp] theorem setPend_kept (s : State) (n : Nat) (p : PendReq) : (setPend s n p).kept = s.kept := kept_eq (setPend_pending ..) (setPend_variant ..)
@[simp] theorem rcRecord_kept (s : State) (f : Frame) (v : W64) : (rcRecord s f v).kept = s.kept := by simp [rcRecord]
@[simp] theorem ownerDone_kept (s : State) (cs status reason : Nat) : (ownerDone s cs status reason).kept = s.kept := by simp [ownerDone]
@[simp] theorem sweepFrames_kept (s : State) (g : Nat) : (sweepFrames s g).kept = s.kept := by simp [sweepFrames]
@[simp] theorem reqEnd_kept (s : State) (f : Frame) (k gen status : Nat) (reply : Bytes) : (reqEnd s f k gen status reply).kept = s.kept := by
  simp [reqEnd]
@[simp] theorem heatUp_kept (s : State) (g : Nat) : (heatUp s g).kept = s.kept := kept_eq (heatUp_pending ..) (heatUp_variant ..)
@[simp] theorem landWrite_kept (s : State) (e : Extent) (off : Nat) (plain : Bytes) (first : Bool) (fr : Option Nat) :
    (landWrite s e off plain first fr).kept = s.kept := by
  dsimp only [landWrite]
  cases fr
  all_goals
    split
    · split <;> simp
    · split <;> simp
@[simp] theorem needResync_kept (s : State) (x off n : Nat) (mirrorSide : Bool) : (needResync s x off n mirrorSide).kept = s.kept := kept_update ..
@[simp] theorem writesDone_kept (s : State) (n : Nat) : (writesDone s n).kept = s.kept := by simp [writesDone]
@[simp] theorem startWrites_kept (s : State) (n : Nat) (p : PendReq) : (startWrites s n p).kept = s.kept := by simp [startWrites]
@[simp] theorem startReads_kept (s : State) (n : Nat) (p : PendReq) (loc : Nat) : (startReads s n p loc).kept = s.kept := by simp [startReads]
@[simp] theorem withPlain_kept (s : State) (n : Nat) (p : PendReq) (old : Bytes) : (withPlain s n p old).kept = s.kept := by simp [withPlain]
@[simp] theorem recover_kept (s : State) (n : Nat) (p : PendReq) (loc : Nat) : (recover s n p loc).kept = s.kept := by
  dsimp only [recover]
  split
  · split
    · simp
    · split <;> simp
  · simp
@[simp] theorem readsDone_kept (s : State) (n : Nat) : (readsDone s n).kept = s.kept := by simp [readsDone]
@[simp] theorem memCpl_kept (s : State) (n tag status : Nat) (media : Bool) (data : Bytes) : (memCpl s n tag status media data).kept = s.kept := by
  simp [memCpl]
@[simp] theorem tmcLook_kept (s : State) (g tn : Nat) : (tmcLook s g tn).kept = s.kept := by
  dsimp only [tmcLook]
  split
  · simp
  · split <;> simp
@[simp] theorem serve_kept (s : State) (f : Frame) (x : Nat) (ue : Bool) : (serve s f x ue).kept = s.kept := by
  dsimp only [serve]
  split
  · simp
  · split
    · simp
    · split
      · simp
      · split
        · simp
        · split <;> simp
@[simp] theorem ownWrite_kept (s : State) (fa : Nat) (bs : Bytes) (status : Nat) : (ownWrite s fa bs status).2.kept = s.kept := by
  unfold ownWrite
  split
  · simp
  · split <;> simp

/-! ### Ends of control programs (Machine/CpEnd.lean) -/

@[simp] theorem abandonWait_kept (s : State) (cs : Nat) : (abandonWait s cs).kept = s.kept := by
  unfold abandonWait
  split <;> simp
@[simp] theorem endProg_kept (s : State) (cs status reason : Nat) : (endProg s cs status reason).kept = s.kept := by simp [endProg]
@[simp] theorem fencePrograms_kept (s : State) (c : Nat) : (fencePrograms s c).kept = s.kept := by simp [fencePrograms]
@[simp] theorem execWatchdogExpiry_kept (cs : Nat) (s : State) : outKept (execWatchdogExpiry cs s) = some s.kept := by simp [execWatchdogExpiry]

/-! ### Welts (Machine/Welt.lean) -/

@[simp] theorem setWelt_kept (s : State) (w w' : Welt) : (setWelt s w w').kept = s.kept := kept_eq (setWelt_pending ..) (setWelt_variant ..)
@[simp] theorem weltApply_kept (s : State) (w : Welt) (n : Nat) (data : Bytes) : (weltApply s w n data).kept = s.kept := by simp [weltApply]

/-! ### Requests at their target (Machine/Target.lean) -/

@[simp] theorem epochFence_kept (s : State) (f : Frame) : (epochFence s f).2.kept = s.kept := by
  dsimp only [epochFence]
  split
  · simp
  · split <;> simp
@[simp] theorem regionCheck_kept (s : State) (f : Frame) : (regionCheck s f).2.kept = s.kept := by simp [regionCheck]
@[simp] theorem extentCheck_kept (s : State) (f : Frame) : (extentCheck s f).2.kept = s.kept := by simp [extentCheck]
@[simp] theorem lastChecks_kept (s : State) (f : Frame) : (lastChecks s f).2.kept = s.kept := by simp [lastChecks]
@[simp] theorem tagged_kept {s : State} (f : Frame) {last : State → Nat × State} {go : State → State} (hl : (last s).2.kept = s.kept)
    (hg : (go s).kept = s.kept) : (tagged s f last go).kept = s.kept := by
  unfold tagged
  split <;> simp [hl, hg]
@[simp] theorem readObject_kept (s : State) (f : Frame) : (readObject s f).kept = s.kept := by
  dsimp only [readObject]
  split <;> simp
@[simp] theorem leaseTraffic_kept (s : State) (f : Frame) : (leaseTraffic s f).kept = s.kept := by simp [leaseTraffic]
@[simp] theorem holdBack_kept (s : State) (f : Frame) : (holdBack s f).kept = s.kept := by simp [holdBack]
@[simp] theorem takeUp_kept (s : State) (f : Frame) : (takeUp s f).kept = s.kept := by simp [takeUp]
theorem serveInTurn_kept {s0 s : State} (h : s.kept = s0.kept) (f : Frame) (x : Nat) (ue : Bool) : (serveInTurn s0 s f x ue).kept = s0.kept := by
  simp [serveInTurn, h]
@[simp] theorem memRequest_kept (s0 : State) (f : Frame) (ue : Bool) : (memRequest s0 f ue).kept = s0.kept := by
  unfold memRequest
  (repeat' split) <;> simp [serveInTurn_kept]
@[simp] theorem tagRequest_kept (s0 : State) (f : Frame) : (tagRequest s0 f).kept = s0.kept := by
  have hb : (regionCheck (epochFence (takeUp s0 f) f).2 f).2.kept = s0.kept := by simp
  dsimp only [tagRequest]
  split; · simp
  split; · simp
  split; · simp
  split; · simp
  refine (tagged_kept f (lastChecks_kept ..) ?_).trans hb
  split
  · split <;> simp
  · exact (serveInTurn_kept hb ..).trans hb.symm
@[simp] theorem execReadRequest_kept (f : Frame) (ue : UeSet) (s : State) : outKept (execReadRequest f ue s) = some s.kept := by
  simp [execReadRequest]
@[simp] theorem execWriteRequest_kept (f : Frame) (s : State) : outKept (execWriteRequest f s) = some s.kept := by simp [execWriteRequest]
@[simp] theorem execPwriteRequest_kept (f : Frame) (s : State) : outKept (execPwriteRequest f s) = some s.kept := by simp [execPwriteRequest]
@[simp] theorem execAtomicRequest_kept (f : Frame) (s : State) : outKept (execAtomicRequest f s) = some s.kept := by simp [execAtomicRequest]
@[simp] theorem execRedwRequest_kept (f : Frame) (s : State) : outKept (execRedwRequest f s) = some s.kept := by simp [execRedwRequest]
@[simp] theorem testWaits_kept (s : State) (n v : Nat) : (testWaits s n v).kept = s.kept := kept_eq (testWaits_pending ..) (testWaits_variant ..)
@[simp] theorem setObject_kept (s : State) (n v : Nat) : (setObject s n v).kept = s.kept := by simp [setObject]
@[simp] theorem syncRequest_kept (s0 : State) (f : Frame) : (syncRequest s0 f).kept = s0.kept := by
  have ha : (if fmUpdate f then (0, takeUp s0 f) else epochFence (takeUp s0 f) f).2.kept = s0.kept := by simp
  dsimp only [syncRequest]
  generalize (if fmUpdate f then (0, takeUp s0 f) else epochFence (takeUp s0 f) f) = a at ha ⊢
  split; · simp
  split; · simp [ha]
  split; · simp [ha]
  split; · simp
  refine (tagged_kept f rfl ?_).trans ha
  split <;> simp
@[simp] theorem execArriveRequest_kept (f : Frame) (s : State) : outKept (execArriveRequest f s) = some s.kept := by simp [execArriveRequest]
@[simp] theorem execSignalRequest_kept (f : Frame) (s : State) : outKept (execSignalRequest f s) = some s.kept := by simp [execSignalRequest]
@[simp] theorem mcwKeep_kept (s : State) (f : Frame) : (mcwKeep s f).kept = s.kept := by simp [mcwKeep]
@[simp] theorem mcwDone_kept (s : State) (k i status : Nat) : (mcwDone s k i status).kept = s.kept := by simp [mcwDone]
@[simp] theorem execFenceRequest_kept (f : Frame) (s : State) : outKept (execFenceRequest f s) = some s.kept := by simp [execFenceRequest]
@[simp] theorem execDrainMarker_kept (f : Frame) (s : State) : outKept (execDrainMarker f s) = some s.kept := by simp [execDrainMarker]
@[simp] theorem setFence_kept (s : State) (c : Nat) (x : FenceSt) : (setFence s c x).kept = s.kept :=
  kept_eq (setFence_pending ..) (setFence_variant ..)
@[simp] theorem applyFence_kept (s : State) (c kind peer : Nat) : (applyFence s c kind peer).kept = s.kept := by
  unfold applyFence
  split <;> simp
@[simp] theorem keepProbe_kept (s : State) (p : PendProbe) : (keepProbe s p).kept = s.kept := kept_eq (keepProbe_pending ..) (keepProbe_variant ..)
@[simp] theorem dropProbe_kept (s : State) (f : Frame) : (dropProbe s f).kept = s.kept := kept_eq (dropProbe_pending ..) (dropProbe_variant ..)
@[simp] theorem execProbe_kept (f : Frame) (s : State) : outKept (execProbe f s) = some s.kept := by simp [execProbe]
@[simp] theorem execReplyCacheExpiry_kept (i : Nat) (s : State) : outKept (execReplyCacheExpiry i s) = some s.kept := by
  unfold execReplyCacheExpiry
  split <;> simp

/-! ### Fences and route changes (Machine/Fence.lean) -/

@[simp] theorem setColl_kept (s : State) (k : Nat) (x : FenceColl) : (setColl s k x).kept = s.kept :=
  kept_eq (setColl_pending ..) (setColl_variant ..)
@[simp] theorem sendProbe_kept (s : State) (k : Nat) (x : FenceColl) (sw : Nat) : (sendProbe s k x sw).kept = s.kept := kept_update ..
@[simp] theorem startColl_kept (s : State) (c kind peer : Nat) (waiter : Option (Nat × Nat)) : (startColl s c kind peer waiter).kept = s.kept := by
  dsimp only [startColl]
  simp
@[simp] theorem probeAck_kept (s : State) (k sw epoch : Nat) : (probeAck s k sw epoch).kept = s.kept := by simp [probeAck]
@[simp] theorem fenceFinish_kept (s : State) (cs reason k : Nat) : (fenceFinish s cs reason k).kept = s.kept := by simp [fenceFinish]
@[simp] theorem fenceStart_kept (s : State) (cs c kind peer t : Nat) : (fenceStart s cs c kind peer t).kept = s.kept := by simp [fenceStart]
@[simp] theorem dropWaiter_kept (s : State) (k cs : Nat) : (dropWaiter s k cs).kept = s.kept := kept_update ..
@[simp] theorem fenceBody_kept (cs : Nat) (s : State) (q : CtlSeq) (d : List W64) : (fenceBody cs s q d).s.kept = s.kept := by simp [fenceBody]
@[simp] theorem fenceRow_kept (s : State) (cs kind : Nat) : (fenceRow s cs kind).kept = s.kept := by simp [fenceRow]
@[simp] theorem execFenceComp_kept (cs : Nat) (s : State) : outKept (execFenceComp cs s) = some s.kept := by simp [execFenceComp]
@[simp] theorem execFencePeer_kept (cs : Nat) (s : State) : outKept (execFencePeer cs s) = some s.kept := by simp [execFencePeer]
@[simp] theorem execFenceReleasePeer_kept (cs : Nat) (s : State) : outKept (execFenceReleasePeer cs s) = some s.kept := by simp [execFenceReleasePeer]
@[simp] theorem execFenceReleaseComp_kept (cs : Nat) (s : State) : outKept (execFenceReleaseComp cs s) = some s.kept := by simp [execFenceReleaseComp]
@[simp] theorem execFenceCollected_kept (cs : Nat) (s : State) : outKept (execFenceCollected cs s) = some s.kept := by
  unfold execFenceCollected
  split
  · split <;> simp
  · simp
@[simp] theorem execFenceTimeout_kept (cs : Nat) (s : State) : outKept (execFenceTimeout cs s) = some s.kept := by
  dsimp only [execFenceTimeout]
  split
  · split <;> simp
  · simp
@[simp] theorem sendMarker_kept (s : State) (sw c routeE : Nat) (what : ReqFor) (p : Nat) : (sendMarker s sw c routeE what p).kept = s.kept :=
  kept_update ..
@[simp] theorem changeRoute_kept (s : State) (sw : Nat) (present : Bool) (ports : List Nat) : (changeRoute s sw present ports).kept = s.kept := by
  simp [changeRoute]
@[simp] theorem markerAck_kept (s : State) (sw epoch : Nat) : (markerAck s sw epoch).kept = s.kept := by simp [markerAck]

/-! ### Compositions and extents (Machine/Tiers.lean) -/

@[simp] theorem setComp_kept (s : State) (c : Nat) (x : Comp) : (setComp s c x).kept = s.kept := kept_eq (setComp_pending ..) (setComp_variant ..)
@[simp] theorem setRegion_kept (s : State) (r : Nat) (x : Region) : (setRegion s r x).kept = s.kept :=
  kept_eq (setRegion_pending ..) (setRegion_variant ..)
@[simp] theorem createComp_kept (s : State) (d : List W64) : (createComp s d).kept = s.kept := kept_update ..
@[simp] theorem execCompCreate_kept (cs : Nat) (s : State) : outKept (execCompCreate cs s) = some s.kept := by simp [execCompCreate]
@[simp] theorem mapSet_kept (s : State) (d : List W64) : (mapSet s d).kept = s.kept := by
  unfold mapSet
  split <;> simp
@[simp] theorem mapSetRow_kept (s : State) (cs : Nat) (sel : Nat → Bool) : (mapSetRow s cs sel).kept = s.kept := by simp [mapSetRow]
@[simp] theorem execMapSetRoute_kept (cs : Nat) (s : State) : outKept (execMapSetRoute cs s) = some s.kept := by simp [execMapSetRoute]
@[simp] theorem execMapSetMember_kept (cs : Nat) (s : State) : outKept (execMapSetMember cs s) = some s.kept := by simp [execMapSetMember]
@[simp] theorem execMapSetSpan_kept (cs : Nat) (s : State) : outKept (execMapSetSpan cs s) = some s.kept := by simp [execMapSetSpan]
@[simp] theorem rotateEpoch_kept (s : State) (c : Nat) : (rotateEpoch s c).kept = s.kept := by simp [rotateEpoch]
@[simp] theorem execMapEpoch_kept (cs : Nat) (s : State) : outKept (execMapEpoch cs s) = some s.kept := by simp [execMapEpoch]
@[simp] theorem execMapEpochDrained_kept (cs : Nat) (s : State) : outKept (execMapEpochDrained cs s) = some s.kept := by
  unfold execMapEpochDrained
  split <;> simp
@[simp] theorem grantExt_kept (s : State) (d : List W64) : (grantExt s d).kept = s.kept := by simp [grantExt]
@[simp] theorem execExtGrant_kept (cs : Nat) (s : State) : outKept (execExtGrant cs s) = some s.kept := by simp [execExtGrant]
@[simp] theorem revokeExt_kept (s : State) (x : Nat) : (revokeExt s x).kept = s.kept := kept_update ..
@[simp] theorem execExtRevoke_kept (cs : Nat) (s : State) : outKept (execExtRevoke cs s) = some s.kept := by simp [execExtRevoke]
@[simp] theorem execExtentDrainEnd_kept (x : Nat) (s : State) : outKept (execExtentDrainEnd x s) = some s.kept := by simp [execExtentDrainEnd]
@[simp] theorem execCommitRegion_kept (cs : Nat) (s : State) : outKept (execCommitRegion cs s) = some s.kept := by simp [execCommitRegion]
@[simp] theorem unreserve_kept (s : State) (x : Nat) : (unreserve s x).kept = s.kept := kept_eq (unreserve_pending ..) (unreserve_variant ..)
@[simp] theorem reserveFrames_kept (s : State) (t x n : Nat) : (reserveFrames s t x n).kept = s.kept := by
  induction n generalizing s with
  | zero => rfl
  | succ n ih => unfold reserveFrames; split <;> simp [ih]
@[simp] theorem execCommitPlacement_kept (cs : Nat) (s : State) : outKept (execCommitPlacement cs s) = some s.kept := by simp [execCommitPlacement]
@[simp] theorem execCommitFdtag_kept (cs : Nat) (s : State) : outKept (execCommitFdtag cs s) = some s.kept := by simp [execCommitFdtag]
@[simp] theorem closePeriod_kept (s : State) (c : Nat) : (closePeriod s c).kept = s.kept := by simp [closePeriod]
@[simp] theorem execMeterPeriodEnd_kept (c : Nat) (s : State) : outKept (execMeterPeriodEnd c s) = some s.kept := by simp [execMeterPeriodEnd]
@[simp] theorem execMeterRead_kept (cs : Nat) (s : State) : outKept (execMeterRead cs s) = some s.kept := by simp [execMeterRead]
@[simp] theorem execMeterBacklogWrite_kept (s : State) : outKept (execMeterBacklogWrite s) = some s.kept := by simp [execMeterBacklogWrite]

/-! ### Leases, weight sets and moves (Machine/Leases.lean) -/

@[simp] theorem leaseMsg_kept (s : State) (n op : Nat) (l : Lease) : (leaseMsg s n op l).kept = s.kept := kept_update ..
@[simp] theorem leaseRow_kept (s : State) (cs : Nat) (sel : Nat → Bool) (tests : State → List W64 → List (Bool × Nat))
    {go : State → Nat → List W64 → CtlRes} (h : ∀ s n d, (go s n d).s.kept = s.kept) : (leaseRow s cs sel tests go).kept = s.kept := by
  simp [leaseRow, h]
@[simp] theorem execLeaseOffer_kept (cs : Nat) (s : State) : outKept (execLeaseOffer cs s) = some s.kept := by simp [execLeaseOffer]
@[simp] theorem execLeaseAccept_kept (cs : Nat) (s : State) : outKept (execLeaseAccept cs s) = some s.kept := by simp [execLeaseAccept]
@[simp] theorem leaseAnswer_kept (s : State) (n status : Nat) (data : Bytes) : (leaseAnswer s n status data).kept = s.kept := by
  dsimp only [leaseAnswer]
  split
  · split <;> simp
  · simp
@[simp] theorem endLender_kept (s : State) (n : Nat) : (endLender s n).kept = s.kept := kept_update ..
@[simp] theorem execLeaseRecall_kept (cs : Nat) (s : State) : outKept (execLeaseRecall cs s) = some s.kept := by simp [execLeaseRecall]
@[simp] theorem stopMovesTo_kept (s : State) (n : Nat) : (stopMovesTo s n).kept = s.kept := by simp [stopMovesTo]
@[simp] theorem dropClean_kept (s : State) (n : Nat) : (dropClean s n).kept = s.kept := by simp [dropClean]
@[simp] theorem execLeaseReturn_kept (cs : Nat) (s : State) : outKept (execLeaseReturn cs s) = some s.kept := by simp [execLeaseReturn]
@[simp] theorem execLeaseRecallReceipt_kept (n reason notice : Nat) (s : State) :
    outKept (execLeaseRecallReceipt n reason notice s) = some s.kept := by
  simp [execLeaseRecallReceipt]
@[simp] theorem execLeaseEmptied_kept (n : Nat) (s : State) : outKept (execLeaseEmptied n s) = some s.kept := by simp [execLeaseEmptied]
@[simp] theorem execLeaseDeadline_kept (n : Nat) (s : State) : outKept (execLeaseDeadline n s) = some s.kept := by simp [execLeaseDeadline]
@[simp] theorem execLeaseLost_kept (n status : Nat) (s : State) : outKept (execLeaseLost n status s) = some s.kept := by simp [execLeaseLost]
@[simp] theorem leaseReceive_kept (s : State) (f : Frame) : (leaseReceive s f).kept = s.kept := by simp [leaseReceive]
@[simp] theorem wordBody_kept (cs op : Nat) (s : State) (q : CtlSeq) (d : List W64) : (wordBody cs op s q d).s.kept = s.kept := by
  dsimp only [wordBody]
  split
  · simp
  · simp
  · split
    · simp
    · split <;> simp
@[simp] theorem wordRow_kept (s : State) (cs opc op : Nat) (sel : List W64 → Bool) : (wordRow s cs opc op sel).kept = s.kept := by simp [wordRow]
@[simp] theorem execHandoffSend_kept (cs : Nat) (s : State) : outKept (execHandoffSend cs s) = some s.kept := by simp [execHandoffSend]
@[simp] theorem execHandoffAccept_kept (cs : Nat) (s : State) : outKept (execHandoffAccept cs s) = some s.kept := by simp [execHandoffAccept]
@[simp] theorem execReclaim_kept (cs : Nat) (s : State) : outKept (execReclaim cs s) = some s.kept := by simp [execReclaim]
@[simp] theorem setWset_kept (s : State) (w : Nat) (x : WSet) : (setWset s w x).kept = s.kept := kept_eq (setWset_pending ..) (setWset_variant ..)
@[simp] theorem weightsRow_kept (s : State) (cs op : Nat) {go : State → Nat → List W64 → CtlRes} (h : ∀ s n d, (go s n d).s.kept = s.kept) :
    (weightsRow s cs op go).kept = s.kept := by
  simp [weightsRow, h]
@[simp] theorem execWeightsRegister_kept (cs : Nat) (s : State) : outKept (execWeightsRegister cs s) = some s.kept := by simp [execWeightsRegister]
@[simp] theorem execWeightsHashDone_kept (w status : Nat) (digest : Bytes) (s : State) :
    outKept (execWeightsHashDone w status digest s) = some s.kept := by
  dsimp only [execWeightsHashDone]
  split
  · split <;> simp
  · simp
@[simp] theorem execWeightsWithdraw_kept (cs : Nat) (s : State) : outKept (execWeightsWithdraw cs s) = some s.kept := by simp [execWeightsWithdraw]
@[simp] theorem execWeightsDrainEnd_kept (w : Nat) (s : State) : outKept (execWeightsDrainEnd w s) = some s.kept := by simp [execWeightsDrainEnd]
@[simp] theorem setMove_kept (s : State) (n : Nat) (m : Move) : (setMove s n m).kept = s.kept := kept_eq (setMove_pending ..) (setMove_variant ..)
@[simp] theorem execMigrationStart_kept (g toLoc toFrame : Nat) (s : State) : outKept (execMigrationStart g toLoc toFrame s) = some s.kept := by
  unfold execMigrationStart
  split <;> simp
@[simp] theorem endMove_kept (s : State) (n : Nat) (m : Move) : (endMove s n m).kept = s.kept := by simp [endMove]
@[simp] theorem execSubgrainCopyDone_kept (n : Nat) (data : Bytes) (s : State) : outKept (execSubgrainCopyDone n data s) = some s.kept := by
  simp [execSubgrainCopyDone]
@[simp] theorem execHbmPressureDrop_kept (g : Nat) (s : State) : outKept (execHbmPressureDrop g s) = some s.kept := by
  unfold execHbmPressureDrop
  split <;> simp
@[simp] theorem execMirrorResync_kept (x : Nat) (s : State) : outKept (execMirrorResync x s) = some s.kept := by
  dsimp only [execMirrorResync]
  split <;> simp

/-! ### Tenants, contexts, key slots and scrubs (Machine/Isolation.lean) -/

@[simp] theorem setTenant_kept (s : State) (e : Nat) (t : Tenant) : (setTenant s e t).kept = s.kept :=
  kept_eq (setTenant_pending ..) (setTenant_variant ..)
@[simp] theorem setPch_kept (s : State) (p : Nat) (x : Pch) : (setPch s p x).kept = s.kept := kept_eq (setPch_pending ..) (setPch_variant ..)
@[simp] theorem dropWays_kept (s : State) (m : Nat) : (dropWays s m).kept = s.kept := kept_eq (dropWays_pending ..) (dropWays_variant ..)
@[simp] theorem dropTmc_kept (s : State) (m : Nat) : (dropTmc s m).kept = s.kept := kept_eq (dropTmc_pending ..) (dropTmc_variant ..)
@[simp] theorem tenantRefuse_kept (s : State) (e r : Nat) : (tenantRefuse s e r).s.kept = s.kept := by simp [tenantRefuse]
@[simp] theorem tenantRow_kept (s : State) (cs : Nat) (sel : List W64 → Bool) (key : List W64 → Nat) {body : State → List W64 → CtlRes}
    (h : ∀ s d, (body s d).s.kept = s.kept) : (tenantRow s cs sel key body).kept = s.kept := by
  simp [tenantRow, h]
@[simp] theorem execCommitTenant_kept (cs : Nat) (s : State) : outKept (execCommitTenant cs s) = some s.kept := by simp [execCommitTenant]
@[simp] theorem execCommitTenantPchAssign_kept (cs : Nat) (s : State) : outKept (execCommitTenantPchAssign cs s) = some s.kept := by
  simp [execCommitTenantPchAssign]
@[simp] theorem vacate_kept (s : State) (p : Nat) : (vacate s p).kept = s.kept := by simp [vacate]
@[simp] theorem execCommitTenantPchRelease_kept (cs : Nat) (s : State) : outKept (execCommitTenantPchRelease cs s) = some s.kept := by
  simp [execCommitTenantPchRelease]
@[simp] theorem execCommitTenantTrayport_kept (cs : Nat) (s : State) : outKept (execCommitTenantTrayport cs s) = some s.kept := by
  simp [execCommitTenantTrayport]
@[simp] theorem setCtx_kept (s : State) (c : Nat) (x : Ctx) : (setCtx s c x).kept = s.kept := kept_eq (setCtx_pending ..) (setCtx_variant ..)
@[simp] theorem execCtxBind_kept (cs : Nat) (s : State) : outKept (execCtxBind cs s) = some s.kept := by simp [execCtxBind]
@[simp] theorem execCtxUnbind_kept (cs : Nat) (s : State) : outKept (execCtxUnbind cs s) = some s.kept := by simp [execCtxUnbind]
@[simp] theorem execKeyLoad_kept (cs : Nat) (s : State) : outKept (execKeyLoad cs s) = some s.kept := by simp [execKeyLoad]
@[simp] theorem execKeyRetire_kept (cs : Nat) (s : State) : outKept (execKeyRetire cs s) = some s.kept := by simp [execKeyRetire]
@[simp] theorem zeroise_kept (s : State) (n : Nat) : (zeroise s n).kept = s.kept := by simp [zeroise]
@[simp] theorem execKeyDrainZeroise_kept (n : Nat) (s : State) : outKept (execKeyDrainZeroise n s) = some s.kept := by simp [execKeyDrainZeroise]
@[simp] theorem execKeyRetireTimeout_kept (n : Nat) (s : State) : outKept (execKeyRetireTimeout n s) = some s.kept := by simp [execKeyRetireTimeout]
@[simp] theorem setScrub_kept (s : State) (d : Nat) (e : ScrubEng) : (setScrub s d e).kept = s.kept :=
  kept_eq (setScrub_pending ..) (setScrub_variant ..)
@[simp] theorem queueScrub_kept (s : State) (d : Nat) (j : Nat × Nat) : (queueScrub s d j).kept = s.kept := by simp [queueScrub]
@[simp] theorem startScrub_kept (s : State) (d : Nat) : (startScrub s d).kept = s.kept := by
  dsimp only [startScrub]
  split <;> simp
@[simp] theorem endScrub_kept (s : State) (d : Nat) : (endScrub s d).kept = s.kept := by simp [endScrub]
@[simp] theorem endScrubs_kept (s : State) : (endScrubs s).kept = s.kept := by simp [endScrubs]
@[simp] theorem scrubExtent_kept (s : State) (x : Nat) : (scrubExtent s x).kept = s.kept := by simp [scrubExtent]
@[simp] theorem dropLeased_kept (s : State) (x : Nat) : (dropLeased s x).kept = s.kept := by simp [dropLeased]
@[simp] theorem execExtScrub_kept (cs : Nat) (s : State) : outKept (execExtScrub cs s) = some s.kept := by simp [execExtScrub]
@[simp] theorem execExtScrubEnd_kept (x : Nat) (s : State) : outKept (execExtScrubEnd x s) = some s.kept := by
  dsimp only [execExtScrubEnd]
  split
  · split
    · simp
    · split <;> simp
  · simp
@[simp] theorem execPchVacated_kept (p : Nat) (s : State) : outKept (execPchVacated p s) = some s.kept := by simp [execPchVacated]
@[simp] theorem execPchScrubEnd_kept (p : Nat) (s : State) : outKept (execPchScrubEnd p s) = some s.kept := by simp [execPchScrubEnd]

/-! ### Address translation (Machine/Translate.lean) -/

@[simp] theorem tuCount_kept (s : State) (i n : Nat) : (tuCount s i n).kept = s.kept := kept_eq (tuCount_pending ..) (tuCount_variant ..)
@[simp] theorem sliceInstall_kept (s : State) (i mask : Nat) (e : TlbEnt) : (sliceInstall s i mask e).kept = s.kept := by simp [sliceInstall]
@[simp] theorem microInstall_kept (s : State) (n : Nat) (e : TlbEnt) : (microInstall s n e).kept = s.kept := kept_update ..
@[simp] theorem microClear_kept (s : State) (n : Nat) : (microClear s n).kept = s.kept := kept_eq (microClear_pending ..) (microClear_variant ..)
@[simp] theorem setFault_kept (s : State) (i : Nat) (e : FaultEnt) : (setFault s i e).kept = s.kept :=
  kept_eq (setFault_pending ..) (setFault_variant ..)
@[simp] theorem editHeld_kept (s : State) (part i : Nat) (e : FaultEnt) (f : List W64 → Option (List W64)) : (editHeld s part i e f).kept = s.kept :=
  kept_update ..
@[simp] theorem queueFault_kept (s : State) (i : Nat) (e : FaultEnt) : (queueFault s i e).kept = s.kept := by simp [queueFault]
@[simp] theorem setEng_kept (s : State) (n : Nat) (x : EngFault) : (setEng s n x).kept = s.kept := kept_eq (setEng_pending ..) (setEng_variant ..)
@[simp] theorem takeFault_kept (s : State) (x : EngFault) : (takeFault s x).kept = s.kept := by
  dsimp only [takeFault]
  split
  · simp
  · split <;> simp
@[simp] theorem raiseFault_kept (s : State) (a : VAcc) (cause have_ level entryFa : Nat) :
    (raiseFault s a cause have_ level entryFa).kept = s.kept := by
  simp [raiseFault]
@[simp] theorem freeEntry_kept (s : State) (i : Nat) : (freeEntry s i).kept = s.kept := by simp [freeEntry]
@[simp] theorem leaveFaults_kept (s : State) (eng : TrEng) : (leaveFaults s eng).kept = s.kept := by simp [leaveFaults]
@[simp] theorem startWalk_kept (s : State) (a : VAcc) : (startWalk s a).kept = s.kept := by
  dsimp only [startWalk]
  split <;> simp
@[simp] theorem useLeaf_kept (s : State) (a : VAcc) (e : TlbEnt) : (useLeaf s a e).1.kept = s.kept := by
  dsimp only [useLeaf]
  split
  · split <;> simp
  · simp
@[simp] theorem translate_kept (s : State) (a : VAcc) : (translate s a).1.kept = s.kept := by
  simp only [translate]
  split
  · rfl
  · split
    · simp
    · split <;> simp
theorem kept_of_translate {s t : State} {a : VAcc} {r : Tr} (h : translate s a = (t, r)) : t.kept = s.kept := by simpa [h] using translate_kept s a
@[simp] theorem dropWalk_kept (s : State) (n : Nat) : (dropWalk s n).kept = s.kept := kept_eq (dropWalk_pending ..) (dropWalk_variant ..)
@[simp] theorem walkRead_kept (s : State) (n status : Nat) (v : W64) : (walkRead s n status v).1.kept = s.kept := by
  simp only [walkRead]
  (repeat' split) <;> simp
theorem kept_of_walkRead {s t : State} {n status : Nat} {v : W64} {r : WalkEnd} (h : walkRead s n status v = (t, r)) : t.kept = s.kept := by
  simpa [h] using walkRead_kept s n status v
@[simp] theorem dropAsid_kept (s : State) (a : Nat) : (dropAsid s a).kept = s.kept := kept_eq (dropAsid_pending ..) (dropAsid_variant ..)

/-! ### Copy engines and synchronisation objects (Machine/Copy.lean) -/

@[simp] theorem localUpdate_kept (s : State) (f : Frame) : (localUpdate s f).2.kept = s.kept := by
  simp only [localUpdate]
  (repeat' split) <;> simp
theorem kept_of_localUpdate {s t : State} {f : Frame} {r : Nat} (h : localUpdate s f = (r, t)) : t.kept = s.kept := by
  simpa [h] using localUpdate_kept s f
@[simp] theorem markIssued_kept (s : State) (seq issuer n : Nat) : (markIssued s seq issuer n).kept = s.kept :=
  kept_eq (markIssued_pending ..) (markIssued_variant ..)
@[simp] theorem setCopy_kept (s : State) (e : Nat) (x : CopyEng) : (setCopy s e x).kept = s.kept := kept_eq (setCopy_pending ..) (setCopy_variant ..)
@[simp] theorem editXfer_kept (s : State) (e i : Nat) (f : Transfer → Transfer) : (editXfer s e i f).kept = s.kept := kept_update ..
@[simp] theorem editChunk_kept (s : State) (e i off : Nat) (f : Chunk → Chunk) : (editChunk s e i off f).kept = s.kept := kept_update ..
@[simp] theorem popXfers_kept (s : State) (e : Nat) : (popXfers s e).kept = s.kept := kept_update ..
@[simp] theorem copyArrive_kept (s : State) (e : Nat) (t : Transfer) (count : Nat) : (copyArrive s e t count).kept = s.kept := by
  dsimp only [copyArrive]
  generalize (if t.remote then t.switch else s.swNum) = sw
  split
  · split <;> simp [kept_of_localUpdate ‹_›]
  · simp
@[simp] theorem stopXfer_kept (s : State) (e i status off : Nat) : (stopXfer s e i status off).kept = s.kept := kept_update ..
@[simp] theorem copyFail_kept (s : State) (e st : Nat) : (copyFail s e st).kept = s.kept := by
  dsimp only [copyFail]
  split <;> simp
@[simp] theorem copyStep_kept (s : State) (e : Nat) : (copyStep s e).1.kept = s.kept := by
  dsimp only [copyStep]
  split
  case h_1 | h_4 => simp
  all_goals split <;> simp [kept_of_translate ‹_›]
theorem kept_of_copyStep {s t : State} {e : Nat} {b : Bool} (h : copyStep s e = (t, b)) : t.kept = s.kept := by simpa [h] using copyStep_kept s e
@[simp] theorem copyPump_kept (e n : Nat) (s : State) : (copyPump e n s).kept = s.kept := by
  induction n generalizing s with
  | zero => rfl
  | succ n ih =>
    unfold copyPump
    split
    · rfl
    · split <;> simp [ih, kept_of_copyStep ‹_›]
@[simp] theorem copyGo_kept (s : State) (e : Nat) : (copyGo s e).kept = s.kept := by simp [copyGo]
@[simp] theorem copyDescDone_kept (s : State) (e i status : Nat) (data : Bytes) : (copyDescDone s e i status data).kept = s.kept := by
  simp [copyDescDone]
@[simp] theorem copyReadDone_kept (s : State) (e i ch status : Nat) (dropped : Bool) (data : Bytes) :
    (copyReadDone s e i ch status dropped data).kept = s.kept := by
  simp [copyReadDone]
@[simp] theorem copyWriteDone_kept (s : State) (e i off status : Nat) (dropped : Bool) : (copyWriteDone s e i off status dropped).kept = s.kept := by
  simp [copyWriteDone]
@[simp] theorem copyStatusDone_kept (s : State) (e i : Nat) : (copyStatusDone s e i).kept = s.kept := by
  unfold copyStatusDone
  split <;> simp
@[simp] theorem execCopyChunkDone_kept (e i off : Nat) (s : State) : outKept (execCopyChunkDone e i off s) = some s.kept := by
  dsimp only [execCopyChunkDone]
  split
  · split
    · simp
    · split <;> simp
  · simp
@[simp] theorem execCopyRing_kept (f : Frame) (s : State) : outKept (execCopyRing f s) = some s.kept := by simp [execCopyRing]
@[simp] theorem execCommitSyncobj_kept (cs : Nat) (s : State) : outKept (execCommitSyncobj cs s) = some s.kept := by simp [execCommitSyncobj]
@[simp] theorem copyOff_kept (s : State) (e : Nat) : (copyOff s e).kept = s.kept := by simp [copyOff]
@[simp] theorem execCommitCopyeng_kept (cs : Nat) (s : State) : outKept (execCommitCopyeng cs s) = some s.kept := by simp [execCommitCopyeng]

/-! ### Patterns (Machine/Pattern.lean) -/

@[simp] theorem setPat_kept (s : State) (n : Nat) (x : PatSlot) : (setPat s n x).kept = s.kept := kept_eq (setPat_pending ..) (setPat_variant ..)
@[simp] theorem execCommitPattern_kept (cs status : Nat) (data : Bytes) (s : State) : outKept (execCommitPattern cs status data s) = some s.kept := by
  simp [execCommitPattern]
@[simp] theorem dropPatDigest_kept (s : State) (n : Nat) (x : PatSlot) : (dropPatDigest s n x).kept = s.kept := kept_update ..
@[simp] theorem execCommitPatternDisable_kept (cs : Nat) (s : State) : outKept (execCommitPatternDisable cs s) = some s.kept := by
  simp [execCommitPatternDisable]
@[simp] theorem execPatternDrainEnd_kept (n : Nat) (s : State) : outKept (execPatternDrainEnd n s) = some s.kept := by simp [execPatternDrainEnd]

/-! ### Job queues and jobs (Machine/Jobs.lean) -/

@[simp] theorem setJobq_kept (s : State) (n : Nat) (x : JobQueue) : (setJobq s n x).kept = s.kept := kept_eq (setJobq_pending ..) (setJobq_variant ..)
@[simp] theorem bellAnswer_kept (s : State) (f : Frame) (status : Nat) : (bellAnswer s f status).kept = s.kept := by simp [bellAnswer]
@[simp] theorem bellCheck_kept (s : State) (f : Frame) : (bellCheck s f).2.kept = s.kept := by simp [bellCheck]
@[simp] theorem bellsGo_kept (n k : Nat) (s : State) : (bellsGo n k s).kept = s.kept := by
  induction k generalizing s with
  | zero => rfl
  | succ k ih =>
    unfold bellsGo
    simp only
    split
    · rfl
    · simp [ih]
@[simp] theorem bellEnd_kept (s : State) (n status : Nat) : (bellEnd s n status).kept = s.kept := by
  dsimp only [bellEnd]
  split <;> simp
@[simp] theorem execDoorbell_kept (f : Frame) (s : State) : outKept (execDoorbell f s) = some s.kept := by simp [execDoorbell]
@[simp] theorem execDescriptorReadDone_kept (n status : Nat) (data : Bytes) (s : State) :
    outKept (execDescriptorReadDone n status data s) = some s.kept := by
  dsimp only [execDescriptorReadDone]
  split
  · split <;> simp
  · simp
@[simp] theorem execDescriptorAccept_kept (n : Nat) (s : State) : outKept (execDescriptorAccept n s) = some s.kept := by
  dsimp only [execDescriptorAccept]
  split
  · split
    · simp
    · split <;> simp
  · simp
@[simp] theorem execCommitJobqEnable_kept (cs : Nat) (s : State) : outKept (execCommitJobqEnable cs s) = some s.kept := by simp [execCommitJobqEnable]
@[simp] theorem disableJobq_kept (s : State) (n : Nat) : (disableJobq s n).kept = s.kept := kept_update ..
@[simp] theorem execCommitJobqDisable_kept (cs : Nat) (s : State) : outKept (execCommitJobqDisable cs s) = some s.kept := by
  simp [execCommitJobqDisable]
@[simp] theorem execJobqDrainEnd_kept (n : Nat) (s : State) : outKept (execJobqDrainEnd n s) = some s.kept := by simp [execJobqDrainEnd]
@[simp] theorem takeJob_kept (s : State) (q : Nat) (r : JRec) : (takeJob s q r).kept = s.kept := by
  dsimp only [takeJob]
  split <;> simp
@[simp] theorem execJobTake_kept (q : Nat) (s : State) : outKept (execJobTake q s) = some s.kept := by
  dsimp only [execJobTake]
  split
  · split <;> simp
  · simp
@[simp] theorem remapRow_kept (s : State) (d : Nat) : (remapRow s d).kept = s.kept := kept_update ..
@[simp] theorem failBank_kept (s : State) (q d b : Nat) : (failBank s q d b).kept = s.kept := by simp [failBank]
@[simp] theorem execSequencerScrubEnd_kept (q : Nat) (s : State) (bad : List Nat) : outKept (execSequencerScrubEnd q s bad) = some s.kept := by
  simp [execSequencerScrubEnd]
@[simp] theorem setDie_kept (s : State) (d : Nat) (x : Die) : (setDie s d x).kept = s.kept := kept_eq (setDie_pending ..) (setDie_variant ..)
@[simp] theorem wakeDie_kept (s : State) (d : Nat) : (wakeDie s d).kept = s.kept := by simp [wakeDie]
@[simp] theorem claimUnit_kept (s : State) (ty p lg tenant : Nat) : (claimUnit s ty p lg tenant).kept = s.kept := by simp [claimUnit]
@[simp] theorem placeJob_kept (s : State) (q : Nat) (j : JobRun) : (placeJob s q j).kept = s.kept := by
  unfold placeJob
  split <;> simp
@[simp] theorem execPlacement_kept (q : Nat) (s : State) : outKept (execPlacement q s) = some s.kept := by
  unfold execPlacement
  split <;> simp
@[simp] theorem retryPlace_kept (part : Nat) (s : State) (q : Nat) : (retryPlace part s q).kept = s.kept := by
  unfold retryPlace
  split <;> simp
@[simp] theorem execPlacementRetry_kept (part : Nat) (s : State) : outKept (execPlacementRetry part s) = some s.kept := by simp [execPlacementRetry]
@[simp] theorem execPllLock_kept (d : Nat) (s : State) : outKept (execPllLock d s) = some s.kept := by simp [execPllLock]
@[simp] theorem editRefs_kept (s : State) (id gen : Nat) (f : Nat → Nat) : (editRefs s id gen f).kept = s.kept := by
  unfold editRefs
  split <;> simp
@[simp] theorem dropRef_kept (s : State) (b : BlockBuf) : (dropRef s b).kept = s.kept := by simp [dropRef]
@[simp] theorem dropEncRefs_kept (s : State) (g : Stage) : (dropEncRefs s g).kept = s.kept := by simp [dropEncRefs]
@[simp] theorem takeEncRefs_kept (s : State) (q c : Nat) : (takeEncRefs s q c).kept = s.kept := by simp [takeEncRefs]
@[simp] theorem loadUnits_kept (s : State) (x : Seam) (h : Nat) : (loadUnits s x h).kept = s.kept := by simp [loadUnits]
@[simp] theorem startJob_kept (s : State) (q : Nat) (j : JobRun) (set : Option Nat) (wire : List (Nat × Nat)) :
    (startJob s q j set wire).kept = s.kept := by
  simp [startJob]
@[simp] theorem execJobStart_kept (q : Nat) (s : State) (set : Option Nat) (wire : List (Nat × Nat)) :
    outKept (execJobStart q s set wire) = some s.kept := by
  dsimp only [execJobStart]
  split <;> simp
@[simp] theorem freeChecker_kept (s : State) (ty : Nat) (x : Option Nat) : (freeChecker s ty x).kept = s.kept := by
  unfold freeChecker
  split <;> simp
@[simp] theorem quitStages_kept (s : State) (q : Nat) : (quitStages s q).kept = s.kept := by simp [quitStages]
@[simp] theorem swapOnFree_kept (s : State) (ty p : Nat) (free : Bool) : (swapOnFree s ty p free).kept = s.kept := by
  dsimp only [swapOnFree]
  split <;> simp
@[simp] theorem freeUnit_kept (s : State) (ty p : Nat) : (freeUnit s ty p).kept = s.kept := by simp [freeUnit]
@[simp] theorem releaseSeam_kept (s : State) (q : Nat) : (releaseSeam s q).kept = s.kept := by
  dsimp only [releaseSeam]
  split <;> simp
@[simp] theorem jobFlags_kept (s : State) (q : Nat) : (jobFlags s q).kept = s.kept := by simp [jobFlags]
@[simp] theorem ctxLeft_kept (s : State) (c : Nat) : (ctxLeft s c).kept = s.kept := by
  unfold ctxLeft
  split <;> simp
@[simp] theorem freeSeq_kept (s : State) (q : Nat) : (freeSeq s q).kept = s.kept := by simp [freeSeq]
@[simp] theorem retireJob_kept (s : State) (q : Nat) (j : JobRun) : (retireJob s q j).kept = s.kept := by
  dsimp only [retireJob]
  split <;> simp
@[simp] theorem execJobRetire_kept (q : Nat) (s : State) : outKept (execJobRetire q s) = some s.kept := by
  dsimp only [execJobRetire]
  split <;> simp
@[simp] theorem bump_kept (s : State) (n c : Nat) : (bump s n c).kept = s.kept := by
  unfold bump
  split <;> simp
@[simp] theorem deliverCompl_kept (s : State) (r c : JRec) (status : Nat) : (deliverCompl s r c status).kept = s.kept := by simp [deliverCompl]
@[simp] theorem execCompletionWriteDone_kept (n status : Nat) (s : State) : outKept (execCompletionWriteDone n status s) = some s.kept := by
  dsimp only [execCompletionWriteDone]
  split
  · simp
  · split <;> simp
@[simp] theorem execJobRunLimit_kept (q : Nat) (s : State) : outKept (execJobRunLimit q s) = some s.kept := by simp [execJobRunLimit]
@[simp] theorem dropPart_kept (s : State) (q : Nat) (err : ErrPart) : (dropPart s q err).kept = s.kept := by
  unfold dropPart
  split <;> simp
@[simp] theorem rerunJob_kept (s : State) (q : Nat) (j : JobRun) : (rerunJob s q j).kept = s.kept := by simp [rerunJob]
@[simp] theorem restartElsewhere_kept (s : State) (q d b : Nat) (j : JobRun) : (restartElsewhere s q d b j).kept = s.kept := by
  simp [restartElsewhere]
@[simp] theorem execJobRestart_kept (q : Nat) (err : ErrPart) (s : State) : outKept (execJobRestart q err s) = some s.kept := by
  dsimp only [execJobRestart]
  split
  · simp
  · split
    · split
      · simp
      · split <;> simp
    · simp
@[simp] theorem dieGated_kept (s : State) (d : Nat) : (dieGated s d).kept = s.kept := by simp [dieGated]
@[simp] theorem execUnitIdleGate_kept (ty p : Nat) (s : State) : outKept (execUnitIdleGate ty p s) = some s.kept := by simp [execUnitIdleGate]
@[simp] theorem execPllIdleStop_kept (d : Nat) (s : State) : outKept (execPllIdleStop d s) = some s.kept := by simp [execPllIdleStop]
@[simp] theorem initArray_kept (s : State) : (initArray s).kept = s.kept := by simp [initArray]
@[simp] theorem execPowerOnTestEnd_kept (s : State) : outKept (execPowerOnTestEnd s) = some s.kept := by simp [execPowerOnTestEnd]
@[simp] theorem applySlices_kept (s : State) (d : List W64) : (applySlices s d).kept = s.kept := by simp [applySlices]
@[simp] theorem saCommit_kept (s : State) (cs opc : Nat) (key : List W64 → Nat) (get : State → Nat → ObjStatus)
    {set : State → Nat → ObjStatus → State} (kind : Nat) (reason : State → List W64 → Nat) {go : State → List W64 → State}
    (hset : ∀ s n o, (set s n o).kept = s.kept) (hgo : ∀ s d, (go s d).kept = s.kept) :
    (saCommit s cs opc key get set kind reason go).kept = s.kept := by
  simp [saCommit, hset, hgo]
@[simp] theorem execCommitSaSlice_kept (cs : Nat) (s : State) : outKept (execCommitSaSlice cs s) = some s.kept := by simp [execCommitSaSlice]
@[simp] theorem applyUnitmap_kept (s : State) (d : List W64) : (applyUnitmap s d).kept = s.kept := by
  refine foldl_kept (fun s u => ?_) _ s
  split <;> simp
@[simp] theorem execCommitSaUnitmap_kept (cs : Nat) (s : State) : outKept (execCommitSaUnitmap cs s) = some s.kept := by simp [execCommitSaUnitmap]
@[simp] theorem execCommitSaPartcfg_kept (cs : Nat) (s : State) : outKept (execCommitSaPartcfg cs s) = some s.kept := by simp [execCommitSaPartcfg]

/-! ### Stages and flow instructions (Machine/Flow.lean) -/

@[simp] theorem setStage_kept (s : State) (q n : Nat) (g : Stage) : (setStage s q n g).kept = s.kept := kept_update ..
@[simp] theorem runStage_kept (s : State) (q n opc : Nat) (sel : Ins → Bool) {body : State → Stage → Ins → State}
    (h : ∀ s g i, (body s g i).kept = s.kept) : (runStage s q n opc sel body).kept = s.kept := by
  simp [runStage, h]
@[simp] theorem runAny_kept (s : State) (iss : Issuer) (opc : Nat) {c x : State → Nat → Ins → State} {g : State → Nat → Nat → Ins → State}
    (hc : ∀ s n i, (c s n i).kept = s.kept) (hx : ∀ s n i, (x s n i).kept = s.kept) (hg : ∀ s q n i, (g s q n i).kept = s.kept) :
    (runAny s iss opc c x g).kept = s.kept := by
  cases iss <;> simp [runAny, hc, hx, hg]
@[simp] theorem haltStage_kept (s : State) (q n : Nat) : (haltStage s q n).kept = s.kept := by simp [haltStage]
@[simp] theorem execHalt_kept (iss : Issuer) (s : State) : outKept (execHalt iss s) = some s.kept := by simp [execHalt]
@[simp] theorem execLoop_kept (iss : Issuer) (s : State) : outKept (execLoop iss s) = some s.kept := by simp [execLoop]
@[simp] theorem execEndl_kept (iss : Issuer) (s : State) : outKept (execEndl iss s) = some s.kept := by simp [execEndl]
@[simp] theorem execBr_kept (iss : Issuer) (s : State) : outKept (execBr iss s) = some s.kept := by simp [execBr]
@[simp] theorem ctlUpdate_kept (s : State) (cs op : Nat) (i : Ins) : (ctlUpdate s cs op i).kept = s.kept := by
  simp only [ctlUpdate]
  split
  · split <;> simp [kept_of_localUpdate ‹_›]
  · simp
@[simp] theorem jobSent_kept (s : State) (q : Nat) : (jobSent s q).kept = s.kept := kept_update ..
@[simp] theorem seqUpdate_kept (s : State) (q op : Nat) (i : Ins) : (seqUpdate s q op i).kept = s.kept := by
  simp only [seqUpdate]
  split
  · rfl
  · split
    · simp
    · split
      · split <;> simp [kept_of_localUpdate ‹_›]
      · simp
@[simp] theorem execArrive_kept (iss : Issuer) (s : State) : outKept (execArrive iss s) = some s.kept := by simp [execArrive]
@[simp] theorem execSignal_kept (iss : Issuer) (s : State) : outKept (execSignal iss s) = some s.kept := by simp [execSignal]
@[simp] theorem ctlCounted_kept (s : State) (cs rd : Nat) (v : Bool) : (ctlCounted s cs rd v).kept = s.kept := kept_update ..
@[simp] theorem seqCounted_kept (s : State) (q rd : Nat) (v : Bool) : (seqCounted s q rd v).kept = s.kept := kept_update ..
@[simp] theorem execWaitcnt_kept (iss : Issuer) (s : State) : outKept (execWaitcnt iss s) = some s.kept := by
  refine congrArg some (runAny_kept s iss _ (fun s n i => ?_) (fun s n i => ?_) fun _ _ _ _ => rfl)
  all_goals simp only; split <;> simp
@[simp] theorem counted_kept (s : State) (iss : Issuer) (rd : Nat) (v : Bool) : (counted s iss rd v).kept = s.kept := by
  unfold counted
  split <;> simp
@[simp] theorem execWaitcntSatisfied_kept (iss : Issuer) (s : State) : outKept (execWaitcntSatisfied iss s) = some s.kept := by
  unfold execWaitcntSatisfied
  split <;> simp
@[simp] theorem execWaitcntTimeout_kept (iss : Issuer) (s : State) : outKept (execWaitcntTimeout iss s) = some s.kept := by
  unfold execWaitcntTimeout
  split <;> simp

/-! ### What a stage moves (Machine/StageIo.lean) -/

@[simp] theorem cutRecords_kept (q n k : Nat) (s : State) : (cutRecords q n k s).kept = s.kept := by
  induction k generalizing s with
  | zero => rfl
  | succ k ih =>
    simp only [cutRecords]
    split
    · rfl
    · split <;> simp [ih]
@[simp] theorem deliver_kept (s : State) (q n : Nat) : (deliver s q n).kept = s.kept := kept_update ..
@[simp] theorem readSpills_kept (q n k : Nat) (s : State) : (readSpills q n k s).kept = s.kept := by
  induction k generalizing s with
  | zero => rfl
  | succ k ih =>
    simp only [readSpills]
    split
    · rfl
    · split
      · rfl
      · split <;> simp [ih, kept_of_translate ‹_›]
@[simp] theorem stageGo_kept (s : State) (q n : Nat) : (stageGo s q n).kept = s.kept := by simp [stageGo]
@[simp] theorem pieceDone_kept (s : State) (q n id status : Nat) (data : Bytes) : (pieceDone s q n id status data).kept = s.kept := by
  simp [pieceDone]
@[simp] theorem ioEnd_kept (s : State) (q n : Nat) (takes eos : Bool) : (ioEnd s q n takes eos).kept = s.kept := kept_update ..
@[simp] theorem recDone_kept (s : State) (q n : Nat) : (recDone s q n).kept = s.kept := kept_update ..
@[simp] theorem addPieces_kept (s : State) (q n : Nat) (l : List Piece) : (addPieces s q n l).kept = s.kept := kept_update ..
@[simp] theorem countSpills_kept (s : State) (n : Nat) : (countSpills s n).kept = s.kept := kept_eq (countSpills_pending ..) (countSpills_variant ..)
@[simp] theorem sliceToLace_kept (s : State) (q n : Nat) (i : Ins) (addr : Nat) : (sliceToLace s q n i addr).kept = s.kept := by
  dsimp only [sliceToLace]
  split
  · simp
  · split
    · simp
    · split <;> simp
@[simp] theorem memToLace_kept (s : State) (q n : Nat) (i : Ins) (addr : Nat) : (memToLace s q n i addr).kept = s.kept := by
  simp only [memToLace]
  split
  · rfl
  · split <;> simp [kept_of_translate ‹_›]
theorem kept_of_laceTake {s t : State} {q l len : Nat} {b : Bytes} (h : laceTake s q l len = some (b, t)) : t.kept = s.kept := by
  simp only [laceTake] at h
  split at h
  · cases h
  · cases h; simp
@[simp] theorem wireSent_kept (s : State) (q n id gen : Nat) : (wireSent s q n id gen).kept = s.kept := kept_update ..
@[simp] theorem codedSent_kept (s : State) (q n : Nat) (b : Bytes) : (codedSent s q n b).kept = s.kept := by
  unfold codedSent
  split <;> simp
@[simp] theorem wireFirst_kept (s : State) (q n : Nat) (b : Bytes) (store : State → Nat → Nat → Nat → Bytes → Frame) {go : State → State}
    (h : ∀ s, (go s).kept = s.kept) : (wireFirst s q n b store go).kept = s.kept := by
  unfold wireFirst
  split
  · exact h s
  · simp
  · split <;> simp [kept_of_translate ‹_›]
@[simp] theorem laceToMem_kept (s : State) (q n : Nat) (i : Ins) (addr : Nat) : (laceToMem s q n i addr).kept = s.kept := by
  simp only [laceToMem]
  split
  · rfl
  · simp [kept_of_laceTake ‹_›]
  · split
    · simp [kept_of_laceTake ‹_›]
    · split
      · rfl
      · refine wireFirst_kept s q n _ _ fun s => ?_
        split <;> simp [kept_of_translate ‹_›]
theorem kept_of_nextRec {s t : State} {q n addr : Nat} {i : Ins} (h : nextRec s q n i = .at_ t addr) : t.kept = s.kept := by
  simp only [nextRec] at h
  (repeat' split at h) <;> cases h <;> simp
@[simp] theorem streamStep_kept (s : State) (q n : Nat) (i : Ins) : (streamStep s q n i).kept = s.kept := by
  simp only [streamStep]
  split
  · simp
  · split
    · simp
    · split
      · simp
      · split
        case h_4 h => simp [kept_of_nextRec h]
        all_goals simp
@[simp] theorem execStream_kept (q n : Nat) (s : State) : outKept (execStream q n s) = some s.kept := by simp [execStream]
@[simp] theorem execGather_kept (q n : Nat) (s : State) : outKept (execGather q n s) = some s.kept := by simp [execGather]
@[simp] theorem execScatter_kept (q n : Nat) (s : State) : outKept (execScatter q n s) = some s.kept := by simp [execScatter]
@[simp] theorem emitRow_kept (s : State) (q n mode : Nat) {body : State → Stage → Ins → State} (h : ∀ s g i, (body s g i).kept = s.kept) :
    (emitRow s q n mode body).kept = s.kept := by
  simp [emitRow, h]
@[simp] theorem execEmitPut_kept (q n : Nat) (s : State) : outKept (execEmitPut q n s) = some s.kept := by simp [execEmitPut]
@[simp] theorem execEmitTake_kept (q n : Nat) (s : State) : outKept (execEmitTake q n s) = some s.kept := by
  refine congrArg some (emitRow_kept s q n _ fun s g i => ?_)
  dsimp only
  split
  · rfl
  · simp [kept_of_laceTake ‹_›]
@[simp] theorem execEmitSeta_kept (q n : Nat) (s : State) : outKept (execEmitSeta q n s) = some s.kept := by simp [execEmitSeta]
@[simp] theorem ldaPut_kept (s : State) (q n : Nat) (i : Ins) (b : Bytes) : (ldaPut s q n i b).kept = s.kept := kept_update ..
@[simp] theorem execEmitLda_kept (q n : Nat) (s : State) : outKept (execEmitLda q n s) = some s.kept := by
  refine congrArg some (emitRow_kept s q n _ fun s g i => ?_)
  simp only
  split
  · simp
  · split
    · split <;> simp
    · split
      · split <;> simp
      · split
        · rfl
        · split <;> simp [kept_of_translate ‹_›]
@[simp] theorem execEmitLdt_kept (q n : Nat) (s : State) : outKept (execEmitLdt q n s) = some s.kept := by
  refine congrArg some (emitRow_kept s q n _ fun s g i => ?_)
  simp only
  split
  · simp
  · split <;> simp
@[simp] theorem execEmitStt_kept (q n : Nat) (s : State) : outKept (execEmitStt q n s) = some s.kept := by simp [execEmitStt]
@[simp] theorem execEmitSetp_kept (q n : Nat) (s : State) : outKept (execEmitSetp q n s) = some s.kept := by simp [execEmitSetp]
theorem lineStep_kept {s : State} (q n : Nat) (i : Ins) (len : Nat) {go : Bytes → State → State} (h : ∀ b t, t.kept = s.kept → (go b t).kept = s.kept) :
    (lineStep s q n i len go).kept = s.kept := by
  simp only [lineStep]
  split
  · rfl
  · simp [kept_of_laceTake ‹_›]
  · split
    · simp
    · exact h _ _ (kept_of_laceTake ‹_›)
@[simp] theorem lineSent_kept (s : State) (q n : Nat) : (lineSent s q n).kept = s.kept := kept_update ..
@[simp] theorem redwSend_kept (s : State) (q n : Nat) (i : Ins) (b : Bytes) : (redwSend s q n i b).kept = s.kept := by
  simp only [redwSend]
  split
  · simp
  · split
    · rfl
    · split <;> simp [kept_of_translate ‹_›]
@[simp] theorem execRedw_kept (q n : Nat) (s : State) : outKept (execRedw q n s) = some s.kept := by
  refine congrArg some (runStage_kept s q n _ _ fun s g i => ?_)
  split
  · simp
  · exact lineStep_kept q n i _ fun b _ _ => redwSend_kept s q n i b
@[simp] theorem mcastSend_kept (s : State) (q n : Nat) (i : Ins) (b : Bytes) : (mcastSend s q n i b).kept = s.kept := by
  simp only [mcastSend]
  split
  · rfl
  · refine wireFirst_kept s q n _ _ fun s => ?_
    split <;> simp [kept_of_translate ‹_›]
@[simp] theorem execMcast_kept (q n : Nat) (s : State) : outKept (execMcast q n s) = some s.kept := by
  refine congrArg some (runStage_kept s q n _ _ fun s g i => ?_)
  simp only
  split
  · simp
  · exact lineStep_kept q n i _ fun b _ _ => mcastSend_kept s q n i b

/-! ### Proof (Machine/Proof.lean) -/

@[simp] theorem lendChecker_kept (s : State) (ty c tenant : Nat) : (lendChecker s ty c tenant).kept = s.kept := kept_update ..
@[simp] theorem findChecker_kept (s : State) (ty p tenant : Nat) (h : ProofHold) : (findChecker s ty p tenant h).1.kept = s.kept := by
  unfold findChecker
  split <;> simp
@[simp] theorem tileDone_kept (s : State) (q n : Nat) (h : ProofHold) : (tileDone s q n h).kept = s.kept := by simp [tileDone]
@[simp] theorem skipSample_kept (s : State) (q n : Nat) (h : ProofHold) : (skipSample s q n h).kept = s.kept := by
  unfold skipSample
  split <;> simp
@[simp] theorem execProofCheckerWait_kept (q n : Nat) (s : State) : outKept (execProofCheckerWait q n s) = some s.kept := by
  unfold execProofCheckerWait
  split <;> simp
@[simp] theorem releaseHold_kept (s : State) (q n : Nat) (h : ProofHold) (tiles : List Tile) (bytes : Bytes) :
    (releaseHold s q n h tiles bytes).kept = s.kept := by
  dsimp only [releaseHold]
  split <;> simp
@[simp] theorem agreed_kept (s : State) (q n : Nat) (h : ProofHold) : (agreed s q n h).kept = s.kept := by simp [agreed]
@[simp] theorem execProofVerdict_kept (q n : Nat) (res : ProofRes) (s : State) : outKept (execProofVerdict q n res s) = some s.kept := by
  unfold execProofVerdict
  split <;> simp
@[simp] theorem chargeUnit_kept (s : State) (q ty p time : Nat) (checker : Bool) (cond : ProofCond) :
    (chargeUnit s q ty p time checker cond).kept = s.kept := by
  simp [chargeUnit]
@[simp] theorem restartWithout_kept (s : State) (q ty p : Nat) (barred : Bool) : (restartWithout s q ty p barred).kept = s.kept := by
  simp [restartWithout]
@[simp] theorem repeatOver_kept (s : State) (q n : Nat) (h : ProofHold) (c : Nat) (asUnit asChk again : Bool) (cond : ProofCond) :
    (repeatOver s q n h c asUnit asChk again cond).kept = s.kept := by
  unfold repeatOver
  simp
@[simp] theorem execProofRepeatVerdict_kept (q n : Nat) (res : ProofRes) (cond : ProofCond) (s : State) :
    outKept (execProofRepeatVerdict q n res cond s) = some s.kept := by
  unfold execProofRepeatVerdict
  split
  · simp
  · split <;> simp
@[simp] theorem execEscalationEnd_kept (ty p : Nat) (s : State) : outKept (execEscalationEnd ty p s) = some s.kept := by simp [execEscalationEnd]
@[simp] theorem execProofBinLapse_kept (ty p bin : Nat) (s : State) : outKept (execProofBinLapse ty p bin s) = some s.kept := by
  simp [execProofBinLapse]

/-! ### Tile arithmetic (Machine/StageMath.lean) -/

@[simp] theorem tileStep_kept (s : State) (q n opc : Nat) (sel : Ins → Bool) (f : Stage → Ins → TileOut) :
    (tileStep s q n opc sel f).kept = s.kept := by
  simp [tileStep]
@[simp] theorem execMma_kept (q n : Nat) (s : State) : outKept (execMma q n s) = some s.kept := by simp [execMma]
@[simp] theorem execDot_kept (q n : Nat) (s : State) : outKept (execDot q n s) = some s.kept := by simp [execDot]
@[simp] theorem execScale_kept (q n : Nat) (s : State) : outKept (execScale q n s) = some s.kept := by simp [execScale]
@[simp] theorem execQuant_kept (q n : Nat) (s : State) : outKept (execQuant q n s) = some s.kept := by simp [execQuant]
@[simp] theorem execDequant_kept (q n : Nat) (s : State) : outKept (execDequant q n s) = some s.kept := by simp [execDequant]
@[simp] theorem execSmaxReset_kept (q n : Nat) (s : State) : outKept (execSmaxReset q n s) = some s.kept := by simp [execSmaxReset]
@[simp] theorem execSmaxBlock_kept (q n : Nat) (s : State) : outKept (execSmaxBlock q n s) = some s.kept := by simp [execSmaxBlock]
@[simp] theorem execSmaxEnd_kept (q n : Nat) (s : State) : outKept (execSmaxEnd q n s) = some s.kept := by simp [execSmaxEnd]
@[simp] theorem execExp_kept (q n : Nat) (s : State) : outKept (execExp q n s) = some s.kept := by simp [execExp]
@[simp] theorem execLsemerge_kept (q n : Nat) (s : State) : outKept (execLsemerge q n s) = some s.kept := by simp [execLsemerge]
@[simp] theorem execRedTile_kept (q n : Nat) (s : State) : outKept (execRedTile q n s) = some s.kept := by simp [execRedTile]

/-! ### Coding tables (Machine/Tables.lean) -/

@[simp] theorem setStore_kept (s : State) (id : Nat) (x : GvStore) : (setStore s id x).kept = s.kept :=
  kept_eq (setStore_pending ..) (setStore_variant ..)
@[simp] theorem setRes_kept (s : State) (r : Nat) (x : GvRes) : (setRes s r x).kept = s.kept := kept_eq (setRes_pending ..) (setRes_variant ..)
@[simp] theorem gvCount_kept (s : State) (i n : Nat) : (gvCount s i n).kept = s.kept := kept_eq (gvCount_pending ..) (gvCount_variant ..)
@[simp] theorem tabRefuse_kept (s : State) (id r : Nat) : (tabRefuse s id r).s.kept = s.kept := kept_update ..
@[simp] theorem tabRow_kept (s : State) (cs : Nat) (sel : Nat → Bool) {body : State → CtlSeq → List W64 → CtlRes}
    (h : ∀ s q d, (body s q d).s.kept = s.kept) : (tabRow s cs sel body).kept = s.kept := by
  simp [tabRow, h]
@[simp] theorem execTableStore_kept (cs status : Nat) (data : Bytes) (s : State) : outKept (execTableStore cs status data s) = some s.kept := by
  simp [execTableStore]
@[simp] theorem beginLoad_kept (s : State) (r : Nat) : (beginLoad s r).kept = s.kept := kept_update ..
@[simp] theorem execTableInstall_kept (cs : Nat) (s : State) : outKept (execTableInstall cs s) = some s.kept := by
  refine congrArg some (tabRow_kept s cs _ fun s q d => ?_)
  dsimp only
  generalize (if tabChecks s q d false false ≠ 0 then _ else _ : Nat) = r
  split
  · simp
  · split <;> simp
@[simp] theorem execInstallWaitEnd_kept (id : Nat) (s : State) : outKept (execInstallWaitEnd id s) = some s.kept := by
  dsimp only [execInstallWaitEnd]
  split
  · simp
  · split <;> simp
@[simp] theorem execInstallResident_kept (id : Nat) (s : State) : outKept (execInstallResident id s) = some s.kept := by
  unfold execInstallResident
  split
  · simp
  · split
    · split
      · split <;> simp
      · split <;> simp
    · simp
@[simp] theorem releaseTable_kept (s : State) (id : Nat) (delete : Bool) : (releaseTable s id delete).kept = s.kept := by
  unfold releaseTable
  split <;> simp
@[simp] theorem tabRelease_kept (s : State) (cs : Nat) (sel : Nat → Bool) (delete : Bool) : (tabRelease s cs sel delete).kept = s.kept := by
  simp [tabRelease]
@[simp] theorem execTableRelease_kept (cs : Nat) (s : State) : outKept (execTableRelease cs s) = some s.kept := by simp [execTableRelease]
@[simp] theorem execTableDelete_kept (cs : Nat) (s : State) : outKept (execTableDelete cs s) = some s.kept := by simp [execTableDelete]
@[simp] theorem execTableDrainEnd_kept (id : Nat) (s : State) : outKept (execTableDrainEnd id s) = some s.kept := by
  unfold execTableDrainEnd
  split <;> simp

/-! ### What comes back to the engines (Machine/Requests.lean) -/

@[simp] theorem engGo_kept (s : State) (x : TrEng) : (engGo s x).kept = s.kept := by
  unfold engGo
  split <;> simp
@[simp] theorem engFail_kept (st : Nat) (s : State) (x : TrEng) : (engFail st s x).kept = s.kept := by
  unfold engFail
  split <;> simp
@[simp] theorem execWalkReadDone_kept (n status : Nat) (data : W64) (s : State) : outKept (execWalkReadDone n status data s) = some s.kept := by
  refine congrArg some ?_
  split
  · simp only
    split <;> simp [kept_of_walkRead ‹_›]
  · rfl
@[simp] theorem execFaultTableRetry_kept (s : State) : outKept (execFaultTableRetry s) = some s.kept := by
  unfold execFaultTableRetry
  split
  · split <;> simp
  · simp
@[simp] theorem execFaultRecordRetry_kept (part : Nat) (s : State) : outKept (execFaultRecordRetry part s) = some s.kept := by
  simp [execFaultRecordRetry]
@[simp] theorem endFault_kept {f : State → TrEng → State} (h : ∀ s g, (f s g).kept = s.kept) (s : State) (i : Nat) :
    (endFault f s i).kept = s.kept := by
  simp [endFault, h]
@[simp] theorem setAsid_kept (s : State) (a : Nat) (x : Asid) : (setAsid s a x).kept = s.kept := kept_eq (setAsid_pending ..) (setAsid_variant ..)
@[simp] theorem invalRow_kept (s : State) (cs : Nat) (sel : Nat → Bool) : (invalRow s cs sel).kept = s.kept := by simp [invalRow]
@[simp] theorem execAsidInvalNone_kept (cs : Nat) (s : State) : outKept (execAsidInvalNone cs s) = some s.kept := by simp [execAsidInvalNone]
@[simp] theorem execAsidInvalRetryAll_kept (cs : Nat) (s : State) : outKept (execAsidInvalRetryAll cs s) = some s.kept := by
  simp [execAsidInvalRetryAll]
@[simp] theorem execAsidInvalAbort_kept (cs : Nat) (s : State) : outKept (execAsidInvalAbort cs s) = some s.kept := by simp [execAsidInvalAbort]
@[simp] theorem invalApply_kept (s : State) (a act fid st : Nat) : (invalApply s a act fid st).kept = s.kept := by simp [invalApply]
@[simp] theorem execAsidInvalDrained_kept (cs : Nat) (s : State) : outKept (execAsidInvalDrained cs s) = some s.kept := by
  unfold execAsidInvalDrained
  split <;> simp
@[simp] theorem disableAsid_kept (s : State) (a : Nat) : (disableAsid s a).kept = s.kept := by simp [disableAsid]
@[simp] theorem execCommitAsid_kept (cs : Nat) (s : State) : outKept (execCommitAsid cs s) = some s.kept := by simp [execCommitAsid]
@[simp] theorem setPeer_kept (s : State) (k : Nat) (x : Peer) : (setPeer s k x).kept = s.kept := kept_eq (setPeer_pending ..) (setPeer_variant ..)
@[simp] theorem suspectRecord_kept (s : State) (k reason : Nat) : (suspectRecord s k reason).kept = s.kept := by simp [suspectRecord]
@[simp] theorem suspect_kept (s : State) (k reason : Nat) : (suspect s k reason).kept = s.kept := by simp [suspect]
@[simp] theorem clearSuspect_kept (s : State) (k : Nat) : (clearSuspect s k).kept = s.kept := by simp [clearSuspect]
@[simp] theorem peerSaw_kept (s : State) (o : OutReq) (status : Nat) : (peerSaw s o status).kept = s.kept := by
  unfold peerSaw
  split <;> simp
@[simp] theorem outDrop_kept (s : State) (o : OutReq) : (outDrop s o).kept = s.kept := kept_eq (outDrop_pending ..) (outDrop_variant ..)
@[simp] theorem resend_kept (s : State) (o : OutReq) : (resend s o).kept = s.kept := by simp [resend]
@[simp] theorem seqUpdated_kept (s : State) (q status : Nat) : (seqUpdated s q status).kept = s.kept := by simp [seqUpdated]
@[simp] theorem ctlUpdated_kept (s : State) (cs status : Nat) : (ctlUpdated s cs status).kept = s.kept := by simp [ctlUpdated]
@[simp] theorem reqDone_kept (s : State) (o : OutReq) (status : Nat) (media dropped : Bool) (data : Bytes) :
    (reqDone s o status media dropped data).kept = s.kept := by
  unfold reqDone
  split <;> simp
@[simp] theorem execCplReceive_kept (f : Frame) (s : State) : outKept (execCplReceive f s) = some s.kept := by
  dsimp only [execCplReceive]
  split
  · split <;> simp
  · simp
@[simp] theorem execTaggedResend_kept (stream tag : Nat) (s : State) : outKept (execTaggedResend stream tag s) = some s.kept := by
  unfold execTaggedResend
  split
  · split <;> simp
  · simp
@[simp] theorem execCompletionTimeout_kept (stream tag : Nat) (s : State) : outKept (execCompletionTimeout stream tag s) = some s.kept := by
  dsimp only [execCompletionTimeout]
  split
  · split <;> simp
  · simp
@[simp] theorem execMsgRequest_kept (f : Frame) (s : State) : outKept (execMsgRequest f s) = some s.kept := by
  unfold execMsgRequest
  split
  · split
    · simp
    · split
      · simp
      · split <;> simp
  · simp

/-! ### The link layer on the wire (Machine/Wire.lean) -/

@[simp] theorem sendLink_kept (s : State) (p : Nat) (l : LinkFrame) : (sendLink s p l).kept = s.kept := kept_update ..
@[simp] theorem sendFrame_kept (s : State) (p : Nat) (f : Frame) : (sendFrame s p f).kept = s.kept := kept_update ..
@[simp] theorem pumpPort_kept (s : State) (p : Nat) : (pumpPort s p).kept = s.kept := kept_update ..
@[simp] theorem startWake_kept (s : State) (p : Nat) : (startWake s p).kept = s.kept := by simp [startWake]

/-! ### The traffic manager (Machine/Queue.lean) -/

@[simp] theorem setSwPort_kept (s : State) (p : Nat) (x : SwPort) : (setSwPort s p x).kept = s.kept :=
  kept_eq (setSwPort_pending ..) (setSwPort_variant ..)
@[simp] theorem setQueue_kept (s : State) (p q : Nat) (x : EQueue) : (setQueue s p q x).kept = s.kept :=
  kept_eq (setQueue_pending ..) (setQueue_variant ..)
@[simp] theorem swCount_kept (s : State) (p i n : Nat) : (swCount s p i n).kept = s.kept := kept_update ..
@[simp] theorem pcCount_kept (s : State) (p i n : Nat) : (pcCount s p i n).kept = s.kept := kept_update ..
@[simp] theorem enqueue_kept (s : State) (p : Nat) (f : Frame) (inPort since : Nat) : (enqueue s p f inPort since).kept = s.kept := kept_update ..
@[simp] theorem regrant_kept (s : State) (p tc : Nat) : (regrant s p tc).kept = s.kept := by simp [regrant]
@[simp] theorem regrantAll_kept (s : State) (p : Nat) : (regrantAll s p).kept = s.kept := by simp [regrantAll]
@[simp] theorem creditBack_kept (s : State) (p : Nat) (f : Frame) : (creditBack s p f).kept = s.kept := by simp [creditBack]
@[simp] theorem leaveReserve_kept (s : State) (p i : Nat) : (leaveReserve s p i).kept = s.kept := by
  dsimp only [leaveReserve]
  split <;> simp
@[simp] theorem endRequest_kept (s : State) (f : Frame) (status : Nat) (via : Option Nat) : (endRequest s f status via).kept = s.kept :=
  kept_update ..
@[simp] theorem portOutDone_kept (s : State) (f : Frame) : (portOutDone s f).kept = s.kept := by simp [portOutDone]
@[simp] theorem flushOne_kept (s : State) (f : Frame) : (flushOne s f).kept = s.kept := by
  dsimp only [flushOne]
  split
  · simp
  · split
    · simp
    · split
      · simp
      · split
        · split <;> simp
        · simp
@[simp] theorem flushPort_kept (s : State) (p : Nat) : (flushPort s p).kept = s.kept := by simp [flushPort]
@[simp] theorem gateWaits_kept (s : State) (p q : Nat) : (gateWaits s p q).kept = s.kept := by
  dsimp only [gateWaits]
  split <;> simp
@[simp] theorem wakeQueue_kept (s : State) (p q : Nat) : (wakeQueue s p q).kept = s.kept := by simp [wakeQueue]
@[simp] theorem wakeAll_kept (s : State) (p : Nat) : (wakeAll s p).kept = s.kept := by simp [wakeAll]
@[simp] theorem tagsAfter_kept (s : State) (p q : Nat) (start fin : W64) : (tagsAfter s p q start fin).kept = s.kept := kept_update ..
@[simp] theorem meterFrame_kept (s : State) (p : Nat) (f : Frame) : (meterFrame s p f).1.kept = s.kept := by
  unfold meterFrame
  split <;> simp
@[simp] theorem mirrorAll_kept (s : State) (dir p : Nat) (f raw : Frame) (dropped : Bool) (inP : Nat) (outP : Option Nat) (q depth : Nat) :
    (mirrorAll s dir p f raw dropped inP outP q depth).kept = s.kept := by
  simp [mirrorAll]

/-! ### Frames through the switch core (Machine/Switch.lean) -/

@[simp] theorem holdFrame_kept (s : State) (f : Frame) : (holdFrame s f).kept = s.kept := by
  dsimp only [holdFrame]
  split <;> simp
@[simp] theorem dropFrame_kept (s : State) (p : Nat) (f : Frame) : (dropFrame s p f).kept = s.kept := by simp [dropFrame]
@[simp] theorem loseFrame_kept (s : State) (p : Nat) (f : Frame) : (loseFrame s p f).kept = s.kept := by simp [loseFrame]
@[simp] theorem landFrame_kept (s : State) (p : Nat) (f : Frame) : (landFrame s p f).1.kept = s.kept := by
  dsimp only [landFrame]
  split
  · simp
  · split
    · split
      · simp
      · split
        · simp
        · split <;> simp
    · split
      · simp
      · split
        · simp
        · split <;> simp
@[simp] theorem redRefuse_kept (s : State) (p : Nat) (f : Frame) : (redRefuse s p f).kept = s.kept := by simp [redRefuse]
@[simp] theorem judgeFrame_kept (s : State) (p : Nat) (f : Frame) : (judgeFrame s p f).1.kept = s.kept := by
  dsimp only [judgeFrame]
  split <;> simp
@[simp] theorem fenceFrame_kept (s : State) (p : Nat) (f : Frame) : (fenceFrame s p f).kept = s.kept := by simp [fenceFrame]
@[simp] theorem ingressSeen_kept (s : State) (p : Nat) (f raw : Frame) (dropped : Bool) : (ingressSeen s p f raw dropped).kept = s.kept := by
  simp [ingressSeen]
@[simp] theorem fifoDrop_kept (s : State) (p : Nat) (f : Frame) : (fifoDrop s p f).kept = s.kept := by simp [fifoDrop]
@[simp] theorem leaveFifo_kept (s : State) (p : Nat) (f : Frame) : (leaveFifo s p f).kept = s.kept := by simp [leaveFifo]
@[simp] theorem execFrameIngress_kept (f : Frame) (port_ : Nat) (s : State) : outKept (execFrameIngress f port_ s) = some s.kept := by
  simp [execFrameIngress]
theorem kept_of_admitAt {s t : State} {p since : Nat} {o : OutFrame} (h : admitAt s p o since = some t) : t.kept = s.kept := by
  unfold admitAt at h
  (repeat' split at h) <;> cases h <;> simp
theorem kept_of_admitAll (p since : Nat) (l : List OutFrame) {s : State} {r : State × Nat} (h : admitAll p since s l = some r) :
    r.1.kept = s.kept := by
  induction l generalizing s r with
  | nil => cases h; rfl
  | cons o l ih =>
    unfold admitAll at h
    split at h
    · cases h
    · rename_i t ht
      obtain ⟨x, hx, rfl⟩ := Option.map_eq_some_iff.mp h
      refine (ih hx).trans ?_
      split at ht
      · cases ht; simp
      · exact kept_of_admitAt ht
theorem kept_of_admitMcw {s t : State} {p since : Nat} {f : Frame} (h : admitMcw s p f since = some t) : t.kept = s.kept := by
  unfold admitMcw at h
  split at h
  · obtain ⟨x, hx, rfl⟩ := Option.map_eq_some_iff.mp h
    simp [kept_of_admitAll _ _ _ hx]
  · cases h; simp
theorem kept_of_admitFrame {s t : State} {p since : Nat} {o : OutFrame} (h : admitFrame s p o since = some t) : t.kept = s.kept := by
  unfold admitFrame at h
  split at h
  · exact kept_of_admitMcw h
  · split at h
    · cases h; simp
    · exact kept_of_admitAt h
@[simp] theorem execMcwRequest_kept (f : Frame) (s : State) : outKept (execMcwRequest f s) = some s.kept := by
  simp [execMcwRequest, getD_kept fun _ => kept_of_admitMcw]
@[simp] theorem execFrameAdmit_kept (port_ i : Nat) (s : State) : outKept (execFrameAdmit port_ i s) = some s.kept := by
  refine congrArg some ?_
  split
  · rfl
  · split
    · split
      · rfl
      · split
        · split
          · rfl
          · simp [kept_of_admitFrame ‹_›]
        · rfl
    · split
      · split
        · rfl
        · split
          · rfl
          · simp only
            split
            · rfl
            · simp [kept_of_admitFrame ‹_›]
      · rfl
@[simp] theorem execAdmissionTimeout_kept (port_ i : Nat) (s : State) : outKept (execAdmissionTimeout port_ i s) = some s.kept := by
  dsimp only [execAdmissionTimeout]
  split
  · split <;> simp
  · simp
@[simp] theorem depart_kept (s : State) (p q : Nat) (w : QFrame) : (depart s p q w).kept = s.kept := by simp [depart]
@[simp] theorem execEgressSelect_kept (port_ : Nat) (s : State) : outKept (execEgressSelect port_ s) = some s.kept := by
  dsimp only [execEgressSelect]
  split
  · split
    · simp
    · split <;> simp
  · simp
@[simp] theorem execGateEntryBoundary_kept (port_ : Nat) (s : State) : outKept (execGateEntryBoundary port_ s) = some s.kept := by
  simp [execGateEntryBoundary]
@[simp] theorem execGateCycleStart_kept (port_ : Nat) (s : State) : outKept (execGateCycleStart port_ s) = some s.kept := by simp [execGateCycleStart]
@[simp] theorem sampleQueue_kept (s : State) (p q : Nat) : (sampleQueue s p q).kept = s.kept := by simp [sampleQueue]
@[simp] theorem execQueueSample_kept (port_ : Nat) (s : State) : outKept (execQueueSample port_ s) = some s.kept := by simp [execQueueSample]
@[simp] theorem execRouteDrainAck_kept (switch : Nat) (s : State) : outKept (execRouteDrainAck switch s) = some s.kept := by simp [execRouteDrainAck]
@[simp] theorem execRouteHoldTimeout_kept (i : Nat) (s : State) : outKept (execRouteHoldTimeout i s) = some s.kept := by
  dsimp only [execRouteHoldTimeout]
  split
  · split
    · simp
    · split
      · split <;> simp
      · simp
  · simp
@[simp] theorem setLane_kept (s : State) (l : Nat) (x : Lane) : (setLane s l x).kept = s.kept := kept_eq (setLane_pending ..) (setLane_variant ..)
@[simp] theorem swapEnds_kept (s : State) (k reason : Nat) : (swapEnds s k reason).kept = s.kept := by
  dsimp only [swapEnds]
  split <;> simp
@[simp] theorem dropSwap_kept (s : State) (p : Nat) : (dropSwap s p).kept = s.kept := by simp [dropSwap]
@[simp] theorem freeSpare_kept (s : State) (p : Nat) : (freeSpare s p).kept = s.kept := by simp [freeSpare]
@[simp] theorem darkLanes_kept (s : State) (p : Nat) : (darkLanes s p).kept = s.kept := by simp [darkLanes]
@[simp] theorem reopenRoutes_kept (s : State) (p : Nat) : (reopenRoutes s p).kept = s.kept := by simp [reopenRoutes]
@[simp] theorem portGoesDown_kept (s : State) (p st : Nat) : (portGoesDown s p st).kept = s.kept := by simp [portGoesDown]
@[simp] theorem execPortDown_kept (port_ : Nat) (s : State) : outKept (execPortDown port_ s) = some s.kept := by simp [execPortDown]
@[simp] theorem execFrameAgeOut_kept (port_ q : Nat) (s : State) : outKept (execFrameAgeOut port_ q s) = some s.kept := by
  dsimp only [execFrameAgeOut]
  split
  · split
    · simp
    · split <;> simp
  · simp
@[simp] theorem execAgingToService_kept (port_ : Nat) (s : State) : outKept (execAgingToService port_ s) = some s.kept := by simp [execAgingToService]

/-! ### The objects of the switch core (Machine/Manager.lean) -/

@[simp] theorem setGroup_kept (s : State) (g : Nat) (x : McGroup) : (setGroup s g x).kept = s.kept :=
  kept_eq (setGroup_pending ..) (setGroup_variant ..)
@[simp] theorem groupRefuse_kept (s : State) (g r : Nat) : (groupRefuse s g r).s.kept = s.kept := kept_update ..
@[simp] theorem execCommitMcgroupGroup_kept (cs : Nat) (s : State) : outKept (execCommitMcgroupGroup cs s) = some s.kept := by
  simp [execCommitMcgroupGroup]
@[simp] theorem execCommitMcgroupMember_kept (cs : Nat) (s : State) : outKept (execCommitMcgroupMember cs s) = some s.kept := by
  simp [execCommitMcgroupMember]
@[simp] theorem setMeter_kept (s : State) (m : Nat) (x : Meter) : (setMeter s m x).kept = s.kept :=
  kept_eq (setMeter_pending ..) (setMeter_variant ..)
@[simp] theorem execCommitMeter_kept (cs : Nat) (s : State) : outKept (execCommitMeter cs s) = some s.kept := by simp [execCommitMeter]
@[simp] theorem execCommitSchedQueue_kept (cs : Nat) (s : State) : outKept (execCommitSchedQueue cs s) = some s.kept := by simp [execCommitSchedQueue]
@[simp] theorem execCommitSchedPort_kept (cs : Nat) (s : State) : outKept (execCommitSchedPort cs s) = some s.kept := by simp [execCommitSchedPort]
@[simp] theorem execCommitSchedShare_kept (cs : Nat) (s : State) : outKept (execCommitSchedShare cs s) = some s.kept := by simp [execCommitSchedShare]
@[simp] theorem gateRefuse_kept (s : State) (d : List W64) (r : Nat) : (gateRefuse s d r).s.kept = s.kept := by simp [gateRefuse]
@[simp] theorem execCommitGateEntry_kept (cs : Nat) (s : State) : outKept (execCommitGateEntry cs s) = some s.kept := by simp [execCommitGateEntry]
@[simp] theorem execCommitGateList_kept (cs : Nat) (s : State) : outKept (execCommitGateList cs s) = some s.kept := by simp [execCommitGateList]
@[simp] theorem setMirror_kept (s : State) (n : Nat) (x : Mirror) : (setMirror s n x).kept = s.kept :=
  kept_eq (setMirror_pending ..) (setMirror_variant ..)
@[simp] theorem execCommitMirrorSession_kept (cs : Nat) (s : State) : outKept (execCommitMirrorSession cs s) = some s.kept := by
  simp [execCommitMirrorSession]
@[simp] theorem execCommitMirrorSampler_kept (cs : Nat) (s : State) : outKept (execCommitMirrorSampler cs s) = some s.kept := by
  simp [execCommitMirrorSampler]

/-! ### Links in service (Machine/Links.lean) -/

@[simp] theorem setSess_kept (s : State) (k : Nat) (x : Session) : (setSess s k x).kept = s.kept := kept_eq (setSess_pending ..) (setSess_variant ..)
@[simp] theorem sendNotices_kept (s : State) (p : Nat) : (sendNotices s p).kept = s.kept := by simp [sendNotices]
@[simp] theorem enterActive_kept (s : State) (p : Nat) : (enterActive s p).kept = s.kept := by simp [enterActive]
@[simp] theorem tryActive_kept (s : State) (p : Nat) : (tryActive s p).kept = s.kept := by simp [tryActive]
@[simp] theorem frameArrived_kept (s : State) (p : Nat) (bs : Bytes) : (frameArrived s p bs).kept = s.kept := by simp [frameArrived]
@[simp] theorem linksArrived_kept (s : State) (p : Nat) (bs : Bytes) : (linksArrived s p bs).kept = s.kept := kept_update ..
@[simp] theorem takeArea_kept (s : State) (p : Nat) (area : Bytes) : (takeArea s p area).kept = s.kept := by simp [takeArea]
@[simp] theorem enterRetrain_kept (s : State) (p : Nat) (lost : Option Nat) : (enterRetrain s p lost).kept = s.kept := by simp [enterRetrain]
@[simp] theorem ackNak_kept (s : State) (p ack : Nat) (nak : Bool) : (ackNak s p ack nak).kept = s.kept := by simp [ackNak]
@[simp] theorem payload_kept (s : State) (p seq hdr : Nat) (area : Bytes) : (payload s p seq hdr area).kept = s.kept := by
  dsimp only [payload]
  split
  · split <;> simp
  · simp
@[simp] theorem execFlitReceive_kept (port_ : Nat) (flit : Bytes) (s : State) : outKept (execFlitReceive port_ flit s) = some s.kept := by
  simp [execFlitReceive]
@[simp] theorem takeLink_kept (s : State) (p : Nat) (f : LinkFrame) : (takeLink s p f).kept = s.kept := kept_update ..
@[simp] theorem onLink_kept (s : State) (p op : Nat) (f : LinkFrame) {go : State → State} (h : ∀ s, (go s).kept = s.kept) :
    (onLink s p op f go).kept = s.kept := by
  simp [onLink, h]
@[simp] theorem execMacFrame_kept (port_ : Nat) (f : LinkFrame) (s : State) : outKept (execMacFrame port_ f s) = some s.kept := by
  refine congrArg some (onLink_kept s port_ _ f fun s => ?_)
  simp only
  split <;> simp
@[simp] theorem execCreditFrame_kept (port_ : Nat) (f : LinkFrame) (s : State) : outKept (execCreditFrame port_ f s) = some s.kept := by
  simp [execCreditFrame]
@[simp] theorem dozeLanes_kept (s : State) (p : Nat) (on : Bool) : (dozeLanes s p on).kept = s.kept :=
  kept_eq (dozeLanes_pending ..) (dozeLanes_variant ..)
@[simp] theorem execDozeIdleTimeout_kept (port_ : Nat) (s : State) : outKept (execDozeIdleTimeout port_ s) = some s.kept := by
  simp [execDozeIdleTimeout]
@[simp] theorem execDozeFrame_kept (port_ : Nat) (f : LinkFrame) (s : State) : outKept (execDozeFrame port_ f s) = some s.kept := by
  simp [execDozeFrame]
@[simp] theorem execWakeFrame_kept (port_ : Nat) (f : LinkFrame) (s : State) : outKept (execWakeFrame port_ f s) = some s.kept := by
  simp [execWakeFrame]
@[simp] theorem wakePort_kept (s : State) (p : Nat) : (wakePort s p).kept = s.kept := kept_update ..
@[simp] theorem execWakeDelayEnd_kept (port_ : Nat) (s : State) : outKept (execWakeDelayEnd port_ s) = some s.kept := by simp [execWakeDelayEnd]
@[simp] theorem sendKeymsg_kept (s : State) (p : Nat) (m : Bytes) : (sendKeymsg s p m).kept = s.kept := kept_update ..
@[simp] theorem authFails_kept (s : State) (p : Nat) : (authFails s p).kept = s.kept := kept_update ..
@[simp] theorem offerKey_kept (s : State) (p : Nat) : (offerKey s p).kept = s.kept := by simp [offerKey]
@[simp] theorem linkSecured_kept (s : State) (p : Nat) (root : Bytes) : (linkSecured s p root).kept = s.kept := by simp [linkSecured]
@[simp] theorem spdmResponse_kept (s : State) (p : Nat) (m : Bytes) : (spdmResponse s p m).kept = s.kept := by
  unfold spdmResponse
  split
  · simp
  · simp
  · simp
  · simp
  · simp
  · split <;> simp
  · simp
  · split <;> simp
  · simp
  · simp
  · simp
@[simp] theorem linkRequest_kept (s : State) (p : Nat) (m : Bytes) : (linkRequest s p m).kept = s.kept := by
  unfold linkRequest
  split
  · split <;> simp
  · simp
  · simp
  · simp
@[simp] theorem linkMessage_kept (s : State) (p : Nat) (m : Bytes) : (linkMessage s p m).kept = s.kept := by simp [linkMessage]
@[simp] theorem execKeymsgFrame_kept (port_ : Nat) (f : LinkFrame) (s : State) : outKept (execKeymsgFrame port_ f s) = some s.kept := by
  simp [execKeymsgFrame]
@[simp] theorem execLinkKey_kept (port_ : Nat) (payload : Bytes) (s : State) : outKept (execLinkKey port_ payload s) = some s.kept := by
  simp [execLinkKey]
@[simp] theorem execKeySwitchFrame_kept (port_ : Nat) (f : LinkFrame) (s : State) : outKept (execKeySwitchFrame port_ f s) = some s.kept := by
  simp [execKeySwitchFrame]
@[simp] theorem execRekeyTimer_kept (port_ : Nat) (s : State) : outKept (execRekeyTimer port_ s) = some s.kept := by simp [execRekeyTimer]

/-! ### Ports, lanes and fabric time (Machine/Ports.lean) -/

@[simp] theorem lanesUp_kept (s : State) (p w : Nat) (ls : List Nat) (spare : Option Nat) : (lanesUp s p w ls spare).kept = s.kept := by
  dsimp only [lanesUp]
  split <;> simp
@[simp] theorem execPartnerDetect_kept (port_ : Nat) (s : State) : outKept (execPartnerDetect port_ s) = some s.kept := by simp [execPartnerDetect]
@[simp] theorem execTrainingComplete_kept (port_ : Nat) (lanes : List Nat) (s : State) :
    outKept (execTrainingComplete port_ lanes s) = some s.kept := by
  dsimp only [execTrainingComplete]
  split
  · split
    · simp
    · split <;> simp
  · simp
@[simp] theorem execTrainRetry_kept (port_ : Nat) (s : State) : outKept (execTrainRetry port_ s) = some s.kept := by simp [execTrainRetry]
@[simp] theorem execCapsFrame_kept (port_ : Nat) (f : LinkFrame) (s : State) : outKept (execCapsFrame port_ f s) = some s.kept := by
  simp [execCapsFrame]
@[simp] theorem spareTakes_kept (s : State) (k l : Nat) : (spareTakes s k l).kept = s.kept := kept_update ..
@[simp] theorem swapLane_kept (s : State) (k : Nat) : (swapLane s k).2.kept = s.kept := by simp [swapLane]
@[simp] theorem swapDone_kept (s : State) (k : Nat) : (swapDone s k).kept = s.kept := by simp [swapDone]
@[simp] theorem startSwap_kept (s : State) (l : Nat) (cs : Option Nat) : (startSwap s l cs).kept = s.kept := kept_update ..
@[simp] theorem execLaneSwapStart_kept (lane_ : Nat) (s : State) : outKept (execLaneSwapStart lane_ s) = some s.kept := by simp [execLaneSwapStart]
@[simp] theorem execSpareLock_kept (pair_ : Nat) (s : State) : outKept (execSpareLock pair_ s) = some s.kept := by simp [execSpareLock]
@[simp] theorem execSpareDeskewDone_kept (pair_ : Nat) (s : State) : outKept (execSpareDeskewDone pair_ s) = some s.kept := by
  simp [execSpareDeskewDone]
@[simp] theorem execSpareFrame_kept (port_ : Nat) (f : LinkFrame) (s : State) : outKept (execSpareFrame port_ f s) = some s.kept := by
  unfold execSpareFrame
  split <;> simp
@[simp] theorem execSpareSwitch_kept (pair_ : Nat) (s : State) : outKept (execSpareSwitch pair_ s) = some s.kept := by simp [execSpareSwitch]
@[simp] theorem finishSwap_kept (s : State) (k l : Nat) : (finishSwap s k l).kept = s.kept := by simp [finishSwap]
@[simp] theorem execLaneLockLoss_kept (port_ : Nat) (lane_ : Option Nat) (s : State) : outKept (execLaneLockLoss port_ lane_ s) = some s.kept := by
  dsimp only [execLaneLockLoss]
  split
  · split <;> simp
  · simp
@[simp] theorem backActive_kept (s : State) (p w : Nat) : (backActive s p w).kept = s.kept := by simp [backActive]
@[simp] theorem narrow_kept (s : State) (p l : Nat) : (narrow s p l).kept = s.kept := by simp [narrow]
@[simp] theorem execRetrainComplete_kept (port_ : Nat) (s : State) : outKept (execRetrainComplete port_ s) = some s.kept := by
  dsimp only [execRetrainComplete]
  split
  · split <;> simp
  · simp
@[simp] theorem execRetrainTimeout_kept (port_ : Nat) (s : State) : outKept (execRetrainTimeout port_ s) = some s.kept := by simp [execRetrainTimeout]
@[simp] theorem execTimeSyncPeriod_kept (s : State) : outKept (execTimeSyncPeriod s) = some s.kept := by simp [execTimeSyncPeriod]
@[simp] theorem execTimeSyncFrame_kept (port_ : Nat) (f : LinkFrame) (s : State) : outKept (execTimeSyncFrame port_ f s) = some s.kept := by
  simp [execTimeSyncFrame]
@[simp] theorem setTime_kept (s : State) (t : Nat) : (setTime s t).kept = s.kept := by simp [setTime]
@[simp] theorem execTimeReplyFrame_kept (port_ : Nat) (f : LinkFrame) (s : State) : outKept (execTimeReplyFrame port_ f s) = some s.kept := by
  refine congrArg some (onLink_kept s port_ _ f fun s => ?_)
  dsimp only
  split
  · rfl
  · split
    · rfl
    · split
      · simp
      · split <;> simp
@[simp] theorem execTimeUpstreamTimeout_kept (s : State) : outKept (execTimeUpstreamTimeout s) = some s.kept := by
  dsimp only [execTimeUpstreamTimeout]
  split
  · split <;> simp
  · simp
@[simp] theorem execHoldoverTimeout_kept (s : State) : outKept (execHoldoverTimeout s) = some s.kept := by simp [execHoldoverTimeout]
@[simp] theorem rolesChanged_kept (s : State) : (rolesChanged s).kept = s.kept := by simp [rolesChanged]
@[simp] theorem applyPort_kept (s : State) (n : Nat) (d : List W64) : (applyPort s n d).kept = s.kept := by simp [applyPort]
@[simp] theorem execCommitPort_kept (cs : Nat) (s : State) : outKept (execCommitPort cs s) = some s.kept := by simp [execCommitPort]
@[simp] theorem execCommitPortPair_kept (cs : Nat) (s : State) : outKept (execCommitPortPair cs s) = some s.kept := by simp [execCommitPortPair]
@[simp] theorem setWindow_kept (s : State) (p w : Nat) (x : Window) : (setWindow s p w x).kept = s.kept :=
  kept_eq (setWindow_pending ..) (setWindow_variant ..)
@[simp] theorem execCommitWindow_kept (cs : Nat) (s : State) : outKept (execCommitWindow cs s) = some s.kept := by simp [execCommitWindow]

/-! ### What a reset clears (Machine/Clear.lean) -/

@[simp] theorem resetNow_kept (s : State) (cold : Bool) (cause : Nat) (rec : Bool) : (resetNow s cold cause rec).kept = s.kept := kept_update ..

/-! ### Accesses of the host (Machine/Host.lean) -/

@[simp] theorem guarded_kept (s : State) (path : Path) (off size : Nat) {f : State → State} (h : ∀ s, (f s).kept = s.kept) :
    (guarded s path off size f).kept = s.kept := by
  unfold guarded
  split <;> simp [h]
@[simp] theorem intStatusClear_kept (s : State) (v : W64) : (intStatusClear s v).kept = s.kept := kept_update ..
@[simp] theorem mbxPendClear_kept (s : State) (v : W64) : (mbxPendClear s v).kept = s.kept := kept_update ..
@[simp] theorem intMaskWrite_kept (s : State) (v mask : W64) : (intMaskWrite s v mask).kept = s.kept := by simp [intMaskWrite]
@[simp] theorem mbxMaskWrite_kept (s : State) (v mask : W64) : (mbxMaskWrite s v mask).kept = s.kept := by simp [mbxMaskWrite]
@[simp] theorem setLock_kept (s : State) (k n : Nat) : (setLock s k n).kept = s.kept := kept_eq (setLock_pending ..) (setLock_variant ..)
@[simp] theorem lockRead_kept (s : State) (n k : Nat) : (lockRead s n k).kept = s.kept := by simp [lockRead]
@[simp] theorem lockWrite_kept (s : State) (n k : Nat) (v : W64) : (lockWrite s n k v).kept = s.kept := by simp [lockWrite]
@[simp] theorem lockForce_kept (s : State) (v : W64) : (lockForce s v).kept = s.kept := by simp [lockForce]
@[simp] theorem inWord_kept (s : State) (m i : Nat) (v mask : W64) : (inWord s m i v mask).kept = s.kept := by simp [inWord]
@[simp] theorem inHead_kept (s : State) (m : Nat) (v : W64) : (inHead s m v).kept = s.kept := by simp [inHead]
@[simp] theorem inHeadUpper_kept (s : State) (m : Nat) : (inHeadUpper s m).kept = s.kept := by simp [inHeadUpper]
@[simp] theorem outHead_kept (s : State) (m : Nat) : (outHead s m).kept = s.kept := by
  dsimp only [outHead]
  split
  · split <;> simp
  · simp
@[simp] theorem mbxCtl_kept (s : State) (m : Nat) (v mask : W64) : (mbxCtl s m v mask).kept = s.kept := by simp [mbxCtl]
@[simp] theorem mbxStatusClear_kept (s : State) (m : Nat) (v : W64) : (mbxStatusClear s m v).kept = s.kept := kept_update ..
@[simp] theorem mbxWrite_kept (s : State) (m o : Nat) (v mask : W64) : (mbxWrite s m o v mask).kept = s.kept := by simp [mbxWrite]
@[simp] theorem ringCons_kept (s : State) (n : Nat) (v : W64) : (ringCons s n v).kept = s.kept := by simp [ringCons]
@[simp] theorem flushHeld_kept (s : State) (n : Nat) : (flushHeld s n).kept = s.kept := by simp [flushHeld]
@[simp] theorem bootCtl_kept (s : State) (v mask : W64) : (bootCtl s v mask).kept = s.kept := by simp [bootCtl]
@[simp] theorem bulkViolation_kept (s : State) (n : Nat) : (bulkViolation s n).kept = s.kept :=
  kept_eq (bulkViolation_pending ..) (bulkViolation_variant ..)
@[simp] theorem flagWrite1_kept (s : State) (page : Nat) (b : Byte) : (flagWrite1 s page b).kept = s.kept := by simp [flagWrite1]
@[simp] theorem flagWrite_kept (s : State) (page : Nat) (l : List (Option Byte)) : (flagWrite s page l).kept = s.kept := by
  induction l generalizing s page with
  | nil => rfl
  | cons b l ih => cases b <;> simp [flagWrite, ih]
@[simp] theorem bulkWrite_kept (s : State) (off : Nat) (data : List (Option Byte)) : (bulkWrite s off data).kept = s.kept := by simp [bulkWrite]
@[simp] theorem ctrSet_kept (s : State) (c : CtrSel) (v : W64) : (ctrSet s c v).kept = s.kept := by
  unfold ctrSet
  split <;> simp
@[simp] theorem counterRead_kept (s : State) (off size : Nat) : (counterRead s off size).kept = s.kept := by
  unfold counterRead
  split <;> simp
@[simp] theorem sbCapWrite_kept (s : State) (v : W64) : (sbCapWrite s v).kept = s.kept := kept_eq (sbCapWrite_pending ..) (sbCapWrite_variant ..)
@[simp] theorem bootWrite_kept (s : State) (off : Nat) (v mask : W64) : (bootWrite s off v mask).kept = s.kept := by simp [bootWrite]
@[simp] theorem cxlWrite_kept {aon : State → W64 → State} (h : ∀ s v, (aon s v).kept = s.kept) (s : State) (off : Nat) (v mask : W64) :
    (cxlWrite aon s off v mask).kept = s.kept := by
  simp [cxlWrite, h]
@[simp] theorem sidebandWrite_kept {aon : State → W64 → State} (h : ∀ s v, (aon s v).kept = s.kept) (s : State) (off : Nat) (v : W64) :
    (sidebandWrite aon s off v).kept = s.kept := by
  simp [sidebandWrite, h]
@[simp] theorem registerWrite_kept {aon : State → W64 → State} (h : ∀ s v, (aon s v).kept = s.kept) (s : State) (path : Path) (off size : Nat)
    (v : W64) : (registerWrite aon s path off size v).kept = s.kept := by
  cases path <;> simp [registerWrite, h]
@[simp] theorem execBootstrapDone_kept (path : Path) (v : W64) (s : State) : outKept (execBootstrapDone path v s) = some s.kept := by
  unfold execBootstrapDone
  split <;> simp
@[simp] theorem execIntPendClear_kept (path : Path) (off size : Nat) (v : W64) (s : State) :
    outKept (execIntPendClear path off size v s) = some s.kept := by
  unfold execIntPendClear
  split <;> simp
@[simp] theorem execIntMaskWrite_kept (path : Path) (off size : Nat) (v : W64) (s : State) :
    outKept (execIntMaskWrite path off size v s) = some s.kept := by
  unfold execIntMaskWrite
  split <;> simp
@[simp] theorem execLockAcquire_kept (path : Path) (n k : Nat) (s : State) : outKept (execLockAcquire path n k s) = some s.kept := by
  unfold execLockAcquire
  split
  · simp
  · split <;> simp
@[simp] theorem execLockRelease_kept (path : Path) (n k : Nat) (v : W64) (s : State) : outKept (execLockRelease path n k v s) = some s.kept := by
  dsimp only [execLockRelease]
  split
  · simp
  · split <;> simp
@[simp] theorem execLockForce_kept (path : Path) (v : W64) (s : State) : outKept (execLockForce path v s) = some s.kept := by simp [execLockForce]
@[simp] theorem execInHeadWrite_kept (path : Path) (m : Nat) (v : W64) (s : State) : outKept (execInHeadWrite path m v s) = some s.kept := by
  unfold execInHeadWrite
  split <;> simp
@[simp] theorem execOutHeadRead_kept (path : Path) (m : Nat) (s : State) : outKept (execOutHeadRead path m s) = some s.kept := by
  unfold execOutHeadRead
  split <;> simp
@[simp] theorem execRingConsWrite_kept (n : Nat) (v : W64) (s : State) : outKept (execRingConsWrite n v s) = some s.kept := by
  simp [execRingConsWrite]
@[simp] theorem execFlagByteWrite_kept (off : Nat) (data : List (Option Byte)) (s : State) :
    outKept (execFlagByteWrite off data s) = some s.kept := by
  simp [execFlagByteWrite]
@[simp] theorem execBulkDataWrite_kept (off : Nat) (data : List (Option Byte)) (s : State) :
    outKept (execBulkDataWrite off data s) = some s.kept := by
  simp [execBulkDataWrite]
@[simp] theorem execBulkRead_kept (off len : Nat) (ue : Option Nat) (s : State) : outKept (execBulkRead off len ue s) = some s.kept := by
  dsimp only [execBulkRead]
  split
  · simp
  · split
    · simp
    · split <;> simp
@[simp] theorem execSbCapWrite_kept (path : Path) (v : W64) (s : State) : outKept (execSbCapWrite path v s) = some s.kept := by
  unfold execSbCapWrite
  split <;> simp

/-! ### The root of trust (Machine/Trust.lean) -/

@[simp] theorem taCount_kept (s : State) (i n : Nat) : (taCount s i n).kept = s.kept := kept_eq (taCount_pending ..) (taCount_variant ..)
@[simp] theorem writeLc_kept (s : State) (setting value : Nat) (r : LcRec) : (writeLc s setting value r).kept = s.kept := by simp [writeLc]
@[simp] theorem clearDelivered_kept (s : State) : (clearDelivered s).kept = s.kept := kept_eq (clearDelivered_pending ..) (clearDelivered_variant ..)
@[simp] theorem zeroiseAll_kept (s : State) : (zeroiseAll s).kept = s.kept := by simp [zeroiseAll]
@[simp] theorem onConn_kept (s : State) (k : Nat) {go : State → State} (h : ∀ s, (go s).kept = s.kept) : (onConn s k go).kept = s.kept := by
  simp [onConn, h]
@[simp] theorem sayBack_kept (s : State) (k : Nat) (m : Bytes) : (sayBack s k m).kept = s.kept := by simp [sayBack]
@[simp] theorem doeOpen_kept (s : State) (m : Bytes) : (doeOpen s m).kept = s.kept := by
  unfold doeOpen
  split <;> simp
@[simp] theorem doeSession_kept (s : State) (k : Nat) (m : Bytes) : (doeSession s k m).kept = s.kept := by
  unfold doeSession
  split
  · split <;> simp
  · simp
  · simp
@[simp] theorem execSpdmRequest_kept (sess_ : Nat) (req : Bytes) (s : State) : outKept (execSpdmRequest sess_ req s) = some s.kept := by
  simp [execSpdmRequest]
@[simp] theorem execSpdmHeartbeatMiss_kept (sess_ : Nat) (s : State) : outKept (execSpdmHeartbeatMiss sess_ s) = some s.kept := by
  simp [execSpdmHeartbeatMiss]
@[simp] theorem execSetCertificate_kept (sess_ slot_ : Nat) (chain : Bytes) (s : State) :
    outKept (execSetCertificate sess_ slot_ chain s) = some s.kept := by
  simp [execSetCertificate]
@[simp] theorem execGetCsr_kept (sess_ : Nat) (s : State) : outKept (execGetCsr sess_ s) = some s.kept := by simp [execGetCsr]
@[simp] theorem execGetMeasurements_kept (sess_ index : Nat) (sign : Bool) (nonce : Bytes) (s : State) :
    outKept (execGetMeasurements sess_ index sign nonce s) = some s.kept := by
  simp [execGetMeasurements]
@[simp] theorem kilhar_kept (s : State) (k reason : Nat) (res : Bytes) : (kilhar s k reason res).kept = s.kept := by simp [kilhar]
@[simp] theorem changeLc_kept (s : State) (k reason setting value : Nat) (r : LcRec) {after : State → State} (h : ∀ s, (after s).kept = s.kept) :
    (changeLc s k reason setting value r after).kept = s.kept := by
  simp [changeLc, h]
@[simp] theorem execSetOwner_kept (sess_ : Nat) (digest : Bytes) (s : State) : outKept (execSetOwner sess_ digest s) = some s.kept := by
  simp [execSetOwner]
@[simp] theorem execRaiseFloor_kept (sess_ floor : Nat) (s : State) : outKept (execRaiseFloor sess_ floor s) = some s.kept := by simp [execRaiseFloor]
@[simp] theorem execRaiseEpoch_kept (sess_ : Nat) (s : State) : outKept (execRaiseEpoch sess_ s) = some s.kept := by simp [execRaiseEpoch]
@[simp] theorem execSeal_kept (sess_ : Nat) (on : Bool) (s : State) : outKept (execSeal sess_ on s) = some s.kept := by simp [execSeal]
@[simp] theorem execDebugUnlock_kept (sess_ : Nat) (token nonce : Bytes) (s : State) :
    outKept (execDebugUnlock sess_ token nonce s) = some s.kept := by
  simp [execDebugUnlock]
@[simp] theorem execGetLc_kept (sess_ : Nat) (s : State) : outKept (execGetLc sess_ s) = some s.kept := by simp [execGetLc]
@[simp] theorem execDeliverKey_kept (sess_ tenant_ mode : Nat) (material : Bytes) (s : State) :
    outKept (execDeliverKey sess_ tenant_ mode material s) = some s.kept := by
  simp [execDeliverKey]
@[simp] theorem execDiscardKey_kept (sess_ keyref : Nat) (s : State) : outKept (execDiscardKey sess_ keyref s) = some s.kept := by
  simp [execDiscardKey]
@[simp] theorem execDeliveredKeyExpiry_kept (e : Nat) (s : State) : outKept (execDeliveredKeyExpiry e s) = some s.kept := by
  simp [execDeliveredKeyExpiry]
@[simp] theorem execGetReport_kept (sess_ : Nat) (nonce : Bytes) (comp_ start : Nat) (s : State) :
    outKept (execGetReport sess_ nonce comp_ start s) = some s.kept := by
  simp [execGetReport]

/-! ### The Last vault in service (Machine/Vault.lean) -/

@[simp] theorem execDirtyDrain_kept (bytes : Nat) (s : State) : outKept (execDirtyDrain bytes s) = some s.kept := by simp [execDirtyDrain]
@[simp] theorem moveSeg_kept (s : State) (k : Nat) : (moveSeg s k).kept = s.kept := by simp [moveSeg]
@[simp] theorem execSegmentRelocate_kept (records : List Nat) (s : State) : outKept (execSegmentRelocate records s) = some s.kept := by
  unfold execSegmentRelocate
  split <;> simp
@[simp] theorem execLpddrPackageFail_kept (n : Nat) (s : State) : outKept (execLpddrPackageFail n s) = some s.kept := by simp [execLpddrPackageFail]
@[simp] theorem setNand_kept (s : State) (k : Nat) (x : NandPkg) : (setNand s k x).kept = s.kept := kept_eq (setNand_pending ..) (setNand_variant ..)
@[simp] theorem nandOut_kept (s : State) (k : Nat) : (nandOut s k).kept = s.kept := kept_update ..
@[simp] theorem execNandPackageFail_kept (k : Nat) (s : State) : outKept (execNandPackageFail k s) = some s.kept := by simp [execNandPackageFail]
@[simp] theorem wearPackage_kept (s : State) (k newMin newMax : Nat) : (wearPackage s k newMin newMax).kept = s.kept := by simp [wearPackage]
@[simp] theorem execWearLevelMove_kept (pkg newMin newMax : Nat) (s : State) : outKept (execWearLevelMove pkg newMin newMax s) = some s.kept := by
  simp [execWearLevelMove]
@[simp] theorem mapLookup_kept (s : State) (page : Nat) : (mapLookup s page).kept = s.kept := by simp [mapLookup]
@[simp] theorem mapWrite_kept (s : State) (page : Nat) : (mapWrite s page).kept = s.kept := kept_update ..
@[simp] theorem readPage_kept (s : State) (page retries : Nat) (mirror : Bool) : (readPage s page retries mirror).kept = s.kept := by simp [readPage]
@[simp] theorem rewritePage_kept (s : State) (page temp : Nat) : (rewritePage s page temp).kept = s.kept := by simp [rewritePage]
@[simp] theorem execPageRewrite_kept (page temp : Nat) (weak : Bool) (retries : Nat) (mirror miss : Bool) (s : State) :
    outKept (execPageRewrite page temp weak retries mirror miss s) = some s.kept := by
  simp [execPageRewrite]
@[simp] theorem applyHoldup_kept (s : State) : (applyHoldup s).kept = s.kept := kept_update ..
@[simp] theorem execHoldupMeasure_kept (usable : Nat) (s : State) : outKept (execHoldupMeasure usable s) = some s.kept := by simp [execHoldupMeasure]
@[simp] theorem execHoldupCharged_kept (s : State) : outKept (execHoldupCharged s) = some s.kept := by simp [execHoldupCharged]
@[simp] theorem writeImage_kept (s : State) (layer : Nat) (img : Bytes) : (writeImage s layer img).kept = s.kept := by simp [writeImage]
@[simp] theorem setLvStatus_kept (s : State) (f : Nat) (o : ObjStatus) : (setLvStatus s f o).kept = s.kept :=
  kept_eq (setLvStatus_pending ..) (setLvStatus_variant ..)
@[simp] theorem lvRow_kept (s : State) (cs form : Nat) (busy : State → Bool) (reason : State → List W64 → Nat) {go : State → List W64 → State}
    (h : ∀ s d, (go s d).kept = s.kept) : (lvRow s cs form busy reason go).kept = s.kept := by
  simp [lvRow, h]
@[simp] theorem execCommitLvLimits_kept (cs : Nat) (s : State) : outKept (execCommitLvLimits cs s) = some s.kept := by simp [execCommitLvLimits]
@[simp] theorem execCommitLvImage_kept (cs : Nat) (s : State) : outKept (execCommitLvImage cs s) = some s.kept := by simp [execCommitLvImage]
@[simp] theorem execLvImageWriteEnd_kept (s : State) : outKept (execLvImageWriteEnd s) = some s.kept := by
  dsimp only [execLvImageWriteEnd]
  split
  · split <;> simp
  · simp
@[simp] theorem execCommitLvRtable_kept (cs : Nat) (s : State) : outKept (execCommitLvRtable cs s) = some s.kept := by simp [execCommitLvRtable]
@[simp] theorem execCommitLvExport_kept (cs : Nat) (s : State) : outKept (execCommitLvExport cs s) = some s.kept := by simp [execCommitLvExport]
@[simp] theorem execLvExportWriteEnd_kept (fail : Option Nat) (s : State) : outKept (execLvExportWriteEnd fail s) = some s.kept := by
  dsimp only [execLvExportWriteEnd]
  split
  · split
    · simp
    · split <;> simp
  · simp

/-! ### Flushes, resets and removal (Machine/Reset.lean) -/

@[simp] theorem dropProg_kept (s : State) (g : StagedProg) : (dropProg s g).kept = s.kept := by
  unfold dropProg
  split <;> simp
@[simp] theorem dropStaged_kept (s : State) : (dropStaged s).kept = s.kept := by simp [dropStaged]
@[simp] theorem dropBells_kept (s : State) : (dropBells s).kept = s.kept := kept_eq (dropBells_pending ..) (dropBells_variant ..)
@[simp] theorem takeImage_kept (s : State) (cause : Nat) : (takeImage s cause).kept = s.kept := by simp [takeImage]
@[simp] theorem startFlush_kept (s : State) (cause thn reset : Nat) (rec : Bool) : (startFlush s cause thn reset rec).kept = s.kept := by
  simp [startFlush]
@[simp] theorem loseInput_kept (s : State) : (loseInput s).kept = s.kept := by simp [loseInput]
@[simp] theorem execPowerLoss_kept (s : State) : outKept (execPowerLoss s) = some s.kept := by simp [execPowerLoss]
@[simp] theorem execOvervoltage_kept (s : State) : outKept (execOvervoltage s) = some s.kept := by simp [execOvervoltage]
@[simp] theorem execEnBreak_kept (s : State) : outKept (execEnBreak s) = some s.kept := by simp [execEnBreak]
@[simp] theorem execUndervoltOvervolt_kept (volts : Nat) (s : State) : outKept (execUndervoltOvervolt volts s) = some s.kept := by
  simp [execUndervoltOvervolt]
@[simp] theorem aonDone_kept (s : State) (op : Nat) : (aonDone s op).kept = s.kept := by simp [aonDone]
@[simp] theorem aonRefused_kept (s : State) (op : Nat) : (aonRefused s op).kept = s.kept := kept_eq (aonRefused_pending ..) (aonRefused_variant ..)
@[simp] theorem takeSnapshot_kept (s : State) : (takeSnapshot s).kept = s.kept := kept_eq (takeSnapshot_pending ..) (takeSnapshot_variant ..)
@[simp] theorem untakeJob_kept (s : State) (q : Nat) : (untakeJob s q).kept = s.kept := by
  unfold untakeJob
  split <;> simp
@[simp] theorem tryHandover_kept (s : State) : (tryHandover s).kept = s.kept := by
  unfold tryHandover
  split <;> simp
@[simp] theorem startRemove_kept (s : State) : (startRemove s).kept = s.kept := by simp [startRemove]
@[simp] theorem startPowerOff_kept (s : State) (reset : Nat) : (startPowerOff s reset).kept = s.kept := by simp [startPowerOff]
@[simp] theorem startCold_kept (s : State) (reset : Nat) (rec : Bool) : (startCold s reset rec).kept = s.kept := by simp [startCold]
@[simp] theorem takeOver_kept (s : State) (op : Nat) : (takeOver s op).kept = s.kept := by simp [takeOver]
@[simp] theorem aonGo_kept (s : State) (op : Nat) (rec : Bool) : (aonGo s op rec).kept = s.kept := by
  unfold aonGo
  split <;> simp
@[simp] theorem aonWrite_kept (s : State) (w : W64) : (aonWrite s w).kept = s.kept := by simp [aonWrite]
@[simp] theorem aonRow_kept (s : State) (path : Path) (op : Nat) (v : W64) : (aonRow s path op v).kept = s.kept := by simp [aonRow]
@[simp] theorem execRegisterWrite_kept (path : Path) (off size : Nat) (v : W64) (s : State) :
    outKept (execRegisterWrite path off size v s) = some s.kept := by
  simp [execRegisterWrite]
@[simp] theorem execSnapshot_kept (path : Path) (v : W64) (s : State) : outKept (execSnapshot path v s) = some s.kept := by simp [execSnapshot]
@[simp] theorem execFenceAll_kept (path : Path) (v : W64) (s : State) : outKept (execFenceAll path v s) = some s.kept := by simp [execFenceAll]
@[simp] theorem execKeyZeroise_kept (path : Path) (v : W64) (s : State) : outKept (execKeyZeroise path v s) = some s.kept := by simp [execKeyZeroise]
@[simp] theorem execJournalFlush_kept (path : Path) (v : W64) (s : State) : outKept (execJournalFlush path v s) = some s.kept := by
  simp [execJournalFlush]
@[simp] theorem execWarmReset_kept (path : Path) (v : W64) (s : State) : outKept (execWarmReset path v s) = some s.kept := by simp [execWarmReset]
@[simp] theorem execColdReset_kept (path : Path) (v : W64) (s : State) : outKept (execColdReset path v s) = some s.kept := by simp [execColdReset]
@[simp] theorem execPowerOff_kept (path : Path) (v : W64) (s : State) : outKept (execPowerOff path v s) = some s.kept := by simp [execPowerOff]
@[simp] theorem execRemove_kept (path : Path) (v : W64) (s : State) : outKept (execRemove path v s) = some s.kept := by simp [execRemove]
@[simp] theorem haltProg_kept (s : State) (cs : Nat) : (haltProg s cs).kept = s.kept := by simp [haltProg]
@[simp] theorem stopRunning_kept (s : State) : (stopRunning s).kept = s.kept := by simp [stopRunning]
@[simp] theorem execRemoveStopDeadline_kept (s : State) : outKept (execRemoveStopDeadline s) = some s.kept := by
  unfold execRemoveStopDeadline
  split <;> simp
@[simp] theorem goDark_kept (s : State) : (goDark s).kept = s.kept := kept_eq (goDark_pending ..) (goDark_variant ..)
@[simp] theorem flushEnded_kept (s : State) : (flushEnded s).kept = s.kept := by simp [flushEnded]
@[simp] theorem execFlushComplete_kept (s : State) : outKept (execFlushComplete s) = some s.kept := by
  dsimp only [execFlushComplete]
  split
  · simp
  · split <;> simp
@[simp] theorem powerOn_kept (s : State) : (powerOn s).kept = s.kept := kept_update ..
@[simp] theorem execInputSwitchClose_kept (s : State) : outKept (execInputSwitchClose s) = some s.kept := by simp [execInputSwitchClose]
@[simp] theorem execInputPowerRestored_kept (s : State) : outKept (execInputPowerRestored s) = some s.kept := by simp [execInputPowerRestored]
@[simp] theorem execPowerGood_kept (s : State) : outKept (execPowerGood s) = some s.kept := by simp [execPowerGood]
@[simp] theorem execConverterRegulationLoss_kept (s : State) : outKept (execConverterRegulationLoss s) = some s.kept := by
  simp [execConverterRegulationLoss]
@[simp] theorem execResetNAssert_kept (s : State) : outKept (execResetNAssert s) = some s.kept := by simp [execResetNAssert]
@[simp] theorem execResetNRelease_kept (s : State) : outKept (execResetNRelease s) = some s.kept := by simp [execResetNRelease]
@[simp] theorem execAttnNAssert_kept (s : State) : outKept (execAttnNAssert s) = some s.kept := by simp [execAttnNAssert]
@[simp] theorem execPerstNChange_kept (low : Bool) (s : State) : outKept (execPerstNChange low s) = some s.kept := by simp [execPerstNChange]
@[simp] theorem execIdeKmMessage_kept (sess_ : Nat) (msg : Bytes) (s : State) : outKept (execIdeKmMessage sess_ msg s) = some s.kept := by
  refine congrArg some ?_
  split
  · refine onConn_kept s sess_ fun s => ?_
    simp only
    (repeat' split) <;> simp
  · rfl
@[simp] theorem execSmbusFallback_kept (s : State) : outKept (execSmbusFallback s) = some s.kept := by simp [execSmbusFallback]
@[simp] theorem execDynamicAddressAssignment_kept (addr : Nat) (s : State) : outKept (execDynamicAddressAssignment addr s) = some s.kept := by
  simp [execDynamicAddressAssignment]
@[simp] theorem execFirmwareSilent_kept (s : State) : outKept (execFirmwareSilent s) = some s.kept := by simp [execFirmwareSilent]

/-! ### Boot, restore and recovery (Machine/Boot.lean) -/

@[simp] theorem bootStage_kept (s : State) (n : Nat) : (bootStage s n).kept = s.kept := kept_eq (bootStage_pending ..) (bootStage_variant ..)
@[simp] theorem bootLv_kept (s : State) (n : Nat) : (bootLv s n).kept = s.kept := kept_eq (bootLv_pending ..) (bootLv_variant ..)
@[simp] theorem bootDebug_kept (s : State) : (bootDebug s).kept = s.kept := by simp [bootDebug]
@[simp] theorem execBootIdentity_kept (s : State) : outKept (execBootIdentity s) = some s.kept := by simp [execBootIdentity]
@[simp] theorem runLayer_kept (s : State) (layer : Nat) : (runLayer s layer).kept = s.kept := by
  unfold runLayer
  split <;> simp
@[simp] theorem noteFallback_kept (s : State) : (noteFallback s).kept = s.kept := by simp [noteFallback]
@[simp] theorem execFirmwareLoad_kept (s : State) : outKept (execFirmwareLoad s) = some s.kept := by
  dsimp only [execFirmwareLoad]
  split
  · split <;> simp
  · simp
@[simp] theorem rebuildGrain_kept (s : State) (g cause : Nat) : (rebuildGrain s g cause).kept = s.kept := by
  unfold rebuildGrain
  split <;> simp
@[simp] theorem putImage_kept (s : State) (v : VolImage) : (putImage s v).kept = s.kept := kept_update ..
@[simp] theorem putPolicy_kept (s : State) : (putPolicy s).kept = s.kept := by
  unfold putPolicy
  split <;> simp
@[simp] theorem finishCompls_kept (s : State) : (finishCompls s).kept = s.kept := by
  refine foldl_kept (fun s r => ?_) _ s
  split <;> simp
@[simp] theorem reenter_kept (s : State) : (reenter s).kept = s.kept := by simp [reenter]
@[simp] theorem requeueScrubs_kept (s : State) : (requeueScrubs s).kept = s.kept := by simp [requeueScrubs]
@[simp] theorem moveDeviceArea_kept (s : State) : (moveDeviceArea s).kept = s.kept := by
  unfold moveDeviceArea
  split
  · simp
  · split <;> simp
@[simp] theorem unsealSlots_kept (s : State) : (unsealSlots s).kept = s.kept := by simp [unsealSlots]
@[simp] theorem restoreAll_kept (s : State) : (restoreAll s).kept = s.kept := by simp [restoreAll]
@[simp] theorem enterRecovery_kept (s : State) (cause : Nat) : (enterRecovery s cause).kept = s.kept := kept_update ..
@[simp] theorem execRestore_kept (s : State) : outKept (execRestore s) = some s.kept := by simp [execRestore]
@[simp] theorem startService_kept (s : State) : (startService s).kept = s.kept := by simp [startService]
@[simp] theorem execBootReady_kept (s : State) : outKept (execBootReady s) = some s.kept := by simp [execBootReady]
@[simp] theorem execRecoveryImage_kept (s : State) : outKept (execRecoveryImage s) = some s.kept := by simp [execRecoveryImage]
@[simp] theorem loseReplies_kept (s : State) : (loseReplies s).kept = s.kept := kept_eq (loseReplies_pending ..) (loseReplies_variant ..)
@[simp] theorem loseCopy_kept (s : State) (g cause : Nat) : (loseCopy s g cause).kept = s.kept := by
  unfold loseCopy
  split <;> simp
@[simp] theorem stackGone_kept (s : State) (stack : Nat) : (stackGone s stack).kept = s.kept := by simp [stackGone]
@[simp] theorem execHbmStackFail_kept (stack : Nat) (s : State) : outKept (execHbmStackFail stack s) = some s.kept := by simp [execHbmStackFail]
@[simp] theorem execDeviceAreaUe_kept (what : AreaTable) (s : State) : outKept (execDeviceAreaUe what s) = some s.kept := by
  dsimp only [execDeviceAreaUe]
  split
  · split <;> simp
  · simp

/-! ### Partitions (Machine/Partition.lean) -/

@[simp] theorem bindMbx_kept (s : State) (m pr part c : Nat) : (bindMbx s m pr part c).kept = s.kept := kept_update ..
@[simp] theorem execCommitMbxbind_kept (cs : Nat) (s : State) : outKept (execCommitMbxbind cs s) = some s.kept := by simp [execCommitMbxbind]
@[simp] theorem stopProg_kept (s : State) (cs : Nat) : (stopProg s cs).kept = s.kept := by simp [stopProg]
@[simp] theorem resetPart_kept (s : State) (p : Nat) : (resetPart s p).kept = s.kept := by simp [resetPart]
@[simp] theorem zeroSeam_kept (s : State) (q : Nat) : (zeroSeam s q).kept = s.kept := by
  dsimp only [zeroSeam]
  split <;> simp
@[simp] theorem finishPartReset_kept (s : State) (p : Nat) : (finishPartReset s p).kept = s.kept := by simp [finishPartReset]
@[simp] theorem execPartitionResetEnd_kept (p : Nat) (s : State) : outKept (execPartitionResetEnd p s) = some s.kept := by
  simp [execPartitionResetEnd]
@[simp] theorem execSequencerStopTimeout_kept (iss : Issuer) (s : State) : outKept (execSequencerStopTimeout iss s) = some s.kept := by
  dsimp only [execSequencerStopTimeout]
  split
  · split <;> simp
  · simp
@[simp] theorem partRow_kept (s : State) (cs : Nat) (sel : Nat → Bool) (key : List W64 → Nat) (reason : State → List W64 → Nat)
    {go : State → List W64 → State} (h : ∀ s d, (go s d).kept = s.kept) : (partRow s cs sel key reason go).kept = s.kept := by
  simp [partRow, h]
@[simp] theorem execCommitPartitionPort_kept (cs : Nat) (s : State) : outKept (execCommitPartitionPort cs s) = some s.kept := by
  simp [execCommitPartitionPort]
@[simp] theorem execCommitPartitionPch_kept (cs : Nat) (s : State) : outKept (execCommitPartitionPch cs s) = some s.kept := by
  simp [execCommitPartitionPch]
@[simp] theorem execCommitPartitionReset_kept (cs : Nat) (s : State) : outKept (execCommitPartitionReset cs s) = some s.kept := by
  simp [execCommitPartitionReset]
@[simp] theorem execControlSequencerFail_kept (cs : Nat) (s : State) : outKept (execControlSequencerFail cs s) = some s.kept := by
  simp [execControlSequencerFail]
@[simp] theorem dropUsers_kept (s : State) (c : Nat) : (dropUsers s c).kept = s.kept := by simp [dropUsers]
@[simp] theorem destroyComp_kept (s : State) (c : Nat) : (destroyComp s c).kept = s.kept := by simp [destroyComp]
@[simp] theorem execCompDestroy_kept (cs : Nat) (s : State) : outKept (execCompDestroy cs s) = some s.kept := by simp [execCompDestroy]
@[simp] theorem execCompDestroyEnd_kept (c : Nat) (s : State) : outKept (execCompDestroyEnd c s) = some s.kept := by simp [execCompDestroyEnd]

/-! ### Power, clocks and health (Machine/Power.lean) -/

@[simp] theorem setPhStatus_kept (s : State) (f : Nat) (o : ObjStatus) : (setPhStatus s f o).kept = s.kept :=
  kept_eq (setPhStatus_pending ..) (setPhStatus_variant ..)
@[simp] theorem phRow_kept (s : State) (cs form : Nat) (absent : State → List W64 → Bool) (reason : State → List W64 → Nat)
    {go : State → List W64 → State} (h : ∀ s d, (go s d).kept = s.kept) : (phRow s cs form absent reason go).kept = s.kept := by
  simp [phRow, h]
@[simp] theorem execCommitPhBudget_kept (cs : Nat) (s : State) : outKept (execCommitPhBudget cs s) = some s.kept := by simp [execCommitPhBudget]
@[simp] theorem execCommitPhSwap_kept (cs : Nat) (s : State) : outKept (execCommitPhSwap cs s) = some s.kept := by simp [execCommitPhSwap]
@[simp] theorem execCommitPhProof_kept (cs : Nat) (s : State) : outKept (execCommitPhProof cs s) = some s.kept := by simp [execCommitPhProof]
@[simp] theorem execCommitPhWeight_kept (cs : Nat) (s : State) : outKept (execCommitPhWeight cs s) = some s.kept := by simp [execCommitPhWeight]
@[simp] theorem execPowerReq_kept (cs : Nat) (s : State) : outKept (execPowerReq cs s) = some s.kept := by simp [execPowerReq]
@[simp] theorem execPowerReqRelease_kept (cs : Nat) (s : State) : outKept (execPowerReqRelease cs s) = some s.kept := by simp [execPowerReqRelease]
@[simp] theorem leaveGranted_kept (s : State) (r : LeaveReq) : (leaveGranted s r).kept = s.kept := by
  unfold leaveGranted
  split <;> simp
@[simp] theorem takeFront_kept (s : State) (p : Nat) (r : LeaveReq) (l : List LeaveReq) : (takeFront s p r l).kept = s.kept := kept_update ..
@[simp] theorem execLeaveGrant_kept (base : Nat) (s : State) : outKept (execLeaveGrant base s) = some s.kept := by
  dsimp only [execLeaveGrant]
  split
  · split
    · simp
    · split <;> simp
  · simp
@[simp] theorem withThrottle_kept (s : State) {f : State → State} (h : ∀ s, (f s).kept = s.kept) : (withThrottle s f).kept = s.kept := by
  simp [withThrottle, h]
@[simp] theorem execBudgetThrottleSet_kept (watts : Nat) (s : State) : outKept (execBudgetThrottleSet watts s) = some s.kept := by
  simp [execBudgetThrottleSet]
@[simp] theorem execBudgetThrottleLift_kept (watts : Nat) (s : State) : outKept (execBudgetThrottleLift watts s) = some s.kept := by
  simp [execBudgetThrottleLift]
@[simp] theorem execDieTemperature_kept (d tj : Nat) (s : State) : outKept (execDieTemperature d tj s) = some s.kept := by simp [execDieTemperature]
@[simp] theorem swapUnit_kept (s : State) (ty p : Nat) : (swapUnit s ty p).kept = s.kept := by simp [swapUnit]
@[simp] theorem swapCore_kept (s : State) (n : Nat) : (swapCore s n).kept = s.kept := kept_update ..
@[simp] theorem dropPackage_kept (s : State) (n : Nat) : (dropPackage s n).kept = s.kept := by simp [dropPackage]
@[simp] theorem swapPart_kept (s : State) (k : Nat) : (swapPart s k).kept = s.kept := by
  dsimp only [swapPart]
  split
  · simp
  · split
    · split <;> simp
    · simp
    · simp
    · simp
    · simp
@[simp] theorem crossed_kept (s : State) (k : Nat) : (crossed s k).kept = s.kept := by simp [crossed]
@[simp] theorem execAgeMonitorSample_kept (part : HealthPart) (age : Nat) (s : State) : outKept (execAgeMonitorSample part age s) = some s.kept := by
  unfold execAgeMonitorSample
  split
  · split
    · split <;> simp
    · split <;> simp
  · simp
@[simp] theorem execCeSample_kept (part : HealthPart) (count : Nat) (s : State) (fresh : Nat) :
    outKept (execCeSample part count s fresh) = some s.kept := by
  dsimp only [execCeSample]
  split
  · split
    · split
      · simp
      · split
        · split <;> simp
        · simp
    · split
      · simp
      · split <;> simp
  · simp
@[simp] theorem execEyeSample_kept (l eye corr : Nat) (s : State) : outKept (execEyeSample l eye corr s) = some s.kept := by simp [execEyeSample]
@[simp] theorem execSwapWindowOpen_kept (s : State) : outKept (execSwapWindowOpen s) = some s.kept := by simp [execSwapWindowOpen]
@[simp] theorem swapGo_kept (s : State) (cs : Nat) (d : List W64) : (swapGo s cs d).s.kept = s.kept := by
  dsimp only [swapGo]
  split <;> simp
@[simp] theorem execSpareSwap_kept (cs : Nat) (s : State) : outKept (execSpareSwap cs s) = some s.kept := by simp [execSpareSwap]

/-! ### Register reads (Machine/Regs.lean) -/

@[simp] theorem tallyAll_kept (s : State) (x : CtrSel) : (tallyAll s x).kept = s.kept := by
  unfold tallyAll
  split <;> simp
@[simp] theorem cxlRead_kept (s : State) (off size : Nat) : (cxlRead s off size).kept = s.kept := by
  dsimp only [cxlRead]
  split
  · simp
  · split
    · simp
    · split <;> simp
@[simp] theorem sidebandRead_kept (s : State) (off : Nat) : (sidebandRead s off).kept = s.kept := by simp [sidebandRead]
@[simp] theorem execCounterReadClear_kept (path : Path) (off size : Nat) (s : State) :
    outKept (execCounterReadClear path off size s) = some s.kept := by
  unfold execCounterReadClear
  split <;> simp

/-! ### Codec stages (Machine/StageCodec.lean) -/

@[simp] theorem bufferBlock_kept (s : State) (q n l need : Nat) : (bufferBlock s q n l need).kept = s.kept := by simp [bufferBlock]
@[simp] theorem execDecode_kept (q n : Nat) (s : State) : outKept (execDecode q n s) = some s.kept := by simp [execDecode]
@[simp] theorem blockOut_kept (s : State) (q n l : Nat) (r : Res Bytes) : (blockOut s q n l r).kept = s.kept := by simp [blockOut]
@[simp] theorem execDecodeBlock_kept (q n : Nat) (s : State) : outKept (execDecodeBlock q n s) = some s.kept := by
  refine congrArg some (runStage_kept s q n _ _ fun s g i => ?_)
  split
  · rfl
  · split <;> simp
@[simp] theorem execEncode_kept (q n : Nat) (s : State) : outKept (execEncode q n s) = some s.kept := by simp [execEncode]
@[simp] theorem rawTaken_kept (s : State) (q n lace : Nat) : (rawTaken s q n lace).kept = s.kept := kept_update ..
@[simp] theorem encodeRaw_kept (s : State) (q n : Nat) (i : Ins) (gen : Nat) (rec_ : Bytes) : (encodeRaw s q n i gen rec_).kept = s.kept := by
  dsimp only [encodeRaw]
  split <;> simp
@[simp] theorem execEncodeBlock_kept (q n : Nat) (s : State) : outKept (execEncodeBlock q n s) = some s.kept := by
  refine congrArg some (runStage_kept s q n _ _ fun s g i => ?_)
  split <;> simp
@[simp] theorem sweepTaken_kept (s : State) (q n ty lace : Nat) (sizing : Bool) (b : Bytes) : (sweepTaken s q n ty lace sizing b).kept = s.kept := by
  simp [sweepTaken]
@[simp] theorem execBuildtab_kept (q n : Nat) (s : State) : outKept (execBuildtab q n s) = some s.kept := by
  refine congrArg some (runStage_kept s q n _ _ fun s g i => ?_)
  simp only
  split <;> simp

/-! ### Filter stages (Machine/StageFilter.lean) -/

@[simp] theorem execCmpSet_kept (q n : Nat) (s : State) : outKept (execCmpSet q n s) = some s.kept := by simp [execCmpSet]
@[simp] theorem execCmpAnd_kept (q n : Nat) (s : State) : outKept (execCmpAnd q n s) = some s.kept := by simp [execCmpAnd]
@[simp] theorem execCmpOr_kept (q n : Nat) (s : State) : outKept (execCmpOr q n s) = some s.kept := by simp [execCmpOr]
@[simp] theorem execCmpBound_kept (q n : Nat) (s : State) : outKept (execCmpBound q n s) = some s.kept := by simp [execCmpBound]
@[simp] theorem topkEmit_kept (s : State) (q n : Nat) (i : Ins) (k : Nat) : (topkEmit s q n i k).kept = s.kept := kept_update ..
@[simp] theorem execTopk_kept (q n : Nat) (s : State) : outKept (execTopk q n s) = some s.kept := by simp [execTopk]
@[simp] theorem execSelect_kept (q n : Nat) (s : State) : outKept (execSelect q n s) = some s.kept := by simp [execSelect]
@[simp] theorem compactRec_kept (s : State) (q n : Nat) (i : Ins) (rec_ : Bytes) (mask : Nat) : (compactRec s q n i rec_ mask).kept = s.kept :=
  kept_update ..
@[simp] theorem execCompact_kept (q n : Nat) (s : State) : outKept (execCompact q n s) = some s.kept := by simp [execCompact]

/-! ### Welts of a stage (Machine/StageWelt.lean) -/

@[simp] theorem weltJoin_kept (s : State) (q n : Nat) (w : Welt) : (weltJoin s q n w).kept = s.kept := kept_update ..
@[simp] theorem weltOpen_kept (s : State) (q n : Nat) (w : Welt) : (weltOpen s q n w).kept = s.kept := by
  unfold weltOpen
  split <;> simp [kept_of_translate ‹_›]
@[simp] theorem weltEnter_kept (s : State) (q n off : Nat) : (weltEnter s q n off).kept = s.kept := by
  -- Unfolded as a function, and the read made a variable, so that the kernel does not evaluate the 32 bytes read.
  conv in weltEnter => delta weltEnter
  generalize sliceRead (seam s q) off 32 = o
  cases o with
  | none => simp
  | some b => dsimp only; split <;> simp
@[simp] theorem execRedWelt_kept (q n : Nat) (s : State) : outKept (execRedWelt q n s) = some s.kept := by simp [execRedWelt]
@[simp] theorem weltTake_kept (s : State) (q n l : Nat) (w : Welt) : (weltTake s q n l w).kept = s.kept := by simp [weltTake]
@[simp] theorem execWeltLaceContribution_kept (q n : Nat) (s : State) : outKept (execWeltLaceContribution q n s) = some s.kept := by
  dsimp only [execWeltLaceContribution]
  split
  · split <;> simp
  · simp
@[simp] theorem execWeltTimeout_kept (q : Nat) (s : State) : outKept (execWeltTimeout q s) = some s.kept := by
  unfold execWeltTimeout
  split <;> simp

/-! ### All commands -/

/-- Every command keeps the queue and the variant: the lemma of its own meaning, constructor by constructor. -/
theorem exec_kept (c : Instr) (s : State) : outKept (exec c s) = some s.kept := by
  cases c <;> simp [exec]

/-- Every command answers a next state (log entry 4), with the queue and the variant of the state it was given. -/
theorem exec_answers (c : Instr) (s : State) : ∃ t, exec c s = .next t ∧ t.kept = s.kept := by
  have h := exec_kept c s
  cases e : exec c s with
  | next t => exact ⟨t, rfl, by simpa [e] using h⟩
  | fault | refused => simp [e, outKept] at h

theorem step_of_pending {s : State} {c : Instr} {l : List Instr} (h : s.pending = c :: l) : step s = exec c { s with pending := l } := by
  simp [step, h]

/-- Settles O55: the next state of a command is the one `exec_answers` gives, which has the queue and the variant. -/
theorem queueIsLeftToStep : Obligations.QueueIsLeftToStep := by
  intro c s t h
  obtain ⟨u, hu, hk⟩ := exec_answers c s
  obtain rfl : t = u := Host.Outcome.next.inj (h.symm.trans hu)
  exact ⟨congrArg Prod.fst hk, congrArg Prod.snd hk⟩

/-- Settles O57: a step's own definition for the front command, and `exec_answers` for the next state. -/
theorem stepRunsTheFrontCommand : Obligations.StepRunsTheFrontCommand :=
  ⟨fun _ _ _ => step_of_pending, fun c s => (exec_answers c s).imp fun _ => And.left⟩

end Sys2Proof.Machine

/-! SUPPORT. The life of a program (R22, R71, R73; log entry 12): what a message of the LF7 and a journal record change of a
state, and so what acceptance, the take by a control sequencer and the watchdog leave. -/

namespace Sys2Proof.Machine

/-! ### Messages in the outbound half of a mailbox (Machine/Ops.lean) -/

theorem sendVector_changes (s : State) (v : Nat) :
    ∃ sent msix, sendVector s v = { s with cc := { s.cc with sent := sent }, msix := msix } := by
  unfold sendVector
  split
  · exact ⟨s.cc.sent, s.msix, rfl⟩
  · exact ⟨_, _, rfl⟩

theorem raiseMbx_changes (s : State) (m : Nat) :
    ∃ pend sent msix, raiseMbx s m = { s with cc := { s.cc with mbxPend := pend, sent := sent }, msix := msix } := by
  dsimp only [raiseMbx]
  split
  · exact ⟨s.cc.mbxPend, s.cc.sent, s.msix, rfl⟩
  · split
    · exact ⟨_, s.cc.sent, s.msix, rfl⟩
    · exact ⟨_, sendVector_changes ..⟩

/-- A mailbox whose outbound half has been filled (R49). -/
def Mailbox.filled (x : Mailbox) (ws : List W64) : Mailbox := { x with outQ := ws, outLen := ws.length, outFull := true }

/-- A message changes its mailbox, and by its event (R42) the pending bits, the sent bits and the messages to the host. -/
theorem putOut_changes (s : State) (m : Nat) (ws : List W64) : ∃ pend sent msix, putOut s m ws =
    { setMbx s m ((mbx s m).filled ws) with
        cc := { (setMbx s m ((mbx s m).filled ws)).cc with mbxPend := pend, sent := sent }, msix := msix } := by
  dsimp only [putOut]
  split
  · exact raiseMbx_changes ..
  · exact ⟨s.cc.mbxPend, s.cc.sent, s.msix, rfl⟩

@[simp] theorem putOut_lv (s : State) (m : Nat) (ws : List W64) : (putOut s m ws).lv = s.lv := by
  obtain ⟨pend, sent, msix, h⟩ := putOut_changes s m ws
  rw [h]; rfl

@[simp] theorem putOut_ph (s : State) (m : Nat) (ws : List W64) : (putOut s m ws).ph = s.ph := by
  obtain ⟨pend, sent, msix, h⟩ := putOut_changes s m ws
  rw [h]; rfl

@[simp] theorem putOut_staged (s : State) (m : Nat) (ws : List W64) : (putOut s m ws).cc.staged = s.cc.staged := by
  obtain ⟨pend, sent, msix, h⟩ := putOut_changes s m ws
  rw [h]; rfl

@[simp] theorem mbx_putOut_same (s : State) (m : Nat) (ws : List W64) : mbx (putOut s m ws) m = (mbx s m).filled ws := by
  obtain ⟨pend, sent, msix, h⟩ := putOut_changes s m ws
  rw [h]; exact mbx_setMbx_same ..

theorem postOut_of_empty {s : State} {m : Nat} (h : (mbx s m).outFull = false) (ws : List W64) : postOut s m ws = putOut s m ws := by
  simp [postOut, h]

/-! ### Records of the journal (Machine/Ops.lean) -/

@[simp] theorem placeEntries_cc (s : State) (n : Nat) : (placeEntries s n).cc = s.cc := by
  unfold placeEntries
  split <;> rfl

@[simp] theorem placeEntries_now (s : State) (n : Nat) : (placeEntries s n).now = s.now := by
  unfold placeEntries
  split <;> rfl

@[simp] theorem placeEntries_recs (s : State) (n : Nat) : (placeEntries s n).lv.recs = s.lv.recs := by
  unfold placeEntries
  split <;> rfl

@[simp] theorem placeEntries_nextSeq (s : State) (n : Nat) : (placeEntries s n).lv.nextSeq = s.lv.nextSeq := by
  unfold placeEntries
  split <;> rfl

@[simp] theorem stageRecord_cc (s : State) (r : JRec) : (stageRecord s r).cc = s.cc := placeEntries_cc ..

@[simp] theorem stageRecord_nextSeq (s : State) (r : JRec) : (stageRecord s r).lv.nextSeq = s.lv.nextSeq + 1 :=
  congrArg (· + 1) (placeEntries_nextSeq ..)

@[simp] theorem stageRecord_lastSeq (s : State) (r : JRec) : (stageRecord s r).lv.lastSeq = s.lv.nextSeq := placeEntries_nextSeq ..

/-- The record takes the next sequence number, the device time and the segment that stands open once its entries have a place. -/
theorem stageRecord_recs (s : State) (r : JRec) : (stageRecord s r).lv.recs =
    s.lv.recs ++ [{ r with seq := s.lv.nextSeq, accepted := s.now, seg := (stageRecord s r).lv.openSeg }] := by
  simp [stageRecord, lvCount, addDirty]

@[simp] theorem mbx_stageRecord (s : State) (r : JRec) (m : Nat) : mbx (stageRecord s r) m = mbx s m := by simp [mbx]

@[simp] theorem mbx_retireRec (s : State) (seq m : Nat) : mbx (retireRec s seq) m = mbx s m := rfl

@[simp] theorem mbx_setCtl (s : State) (cs : Nat) (x : CtlSeq) (m : Nat) : mbx (setCtl s cs x) m = mbx s m := rfl

/-! ### Programs on control sequencers (Machine/Cp.lean) -/

/-- A staged program's record, before it is staged (R22, R476). -/
def StagedProg.record (g : StagedProg) (m : Nat) : JRec :=
  { kind := .program, entries := progEntries g.image.length, part := g.part, comp := g.comp, mailbox := m, priv := g.priv, tag := g.tag,
    length := g.image.length, body := g.image }

/-- A staged program accepted: it is staged no more, and its record is in the journal. -/
def acceptStaged (s : State) (m : Nat) (g : StagedProg) : State :=
  stageRecord { s with cc := { s.cc with staged := s.cc.staged.erase g } } (g.record m)

theorem programAccept_inline {s : State} {m : Nat} {g : StagedProg} (hw : working s = true)
    (hg : (s.cc.staged.find? fun g => decide (g.mailbox = m)) = some g) (ho : g.bulkOff = none) (hf : (mbx s m).outFull = false) :
    exec (.programAccept m) s = .next (putOut (acceptStaged s m g) m [replyHead 0x81 g.tag, w64 s.lv.nextSeq, 0]) := by
  have hf' : (mbx (acceptStaged s m g) m).outFull = false := (congrArg Mailbox.outFull (mbx_stageRecord ..)).trans hf
  simp only [exec, execProgramAccept, hw, hg, ho, if_true]
  exact congrArg _ (postOut_of_empty hf' _)

theorem programAccept_bulk {s : State} {m o : Nat} {g : StagedProg} (hw : working s = true)
    (hg : (s.cc.staged.find? fun g => decide (g.mailbox = m)) = some g) (ho : g.bulkOff = some o) :
    exec (.programAccept m) s =
      .next (postOut (flipPages (acceptStaged s m g) o g.image.length) m [replyHead 0x81 g.tag, w64 s.lv.nextSeq, 0]) := by
  simp only [exec, execProgramAccept, hw, hg, ho, if_true]
  rfl

/-- A control sequencer with a program's record taken (R71, R220): s6 holds its sequence number. -/
def takenBy (r : JRec) (now : Nat) : CtlSeq :=
  { state := 1, seqNo := r.seq, part := r.part, priv := r.priv, comp := r.comp, mailbox := r.mailbox, tag := r.tag, image := r.body,
    s := sPut [] 6 (w64 r.seq), started := now }

theorem programTake_runs {s : State} {cs p : Nat} {r : JRec} (hw : working s = true) (hcs : cs < 9) (hi : (ctl s cs).state = 0)
    (hs : stagingWaits s = false) (hb : startsBarred s = false) (hp : nextPart s = some p) (hr : oldest (waitingProgs s p) = some r)
    (hc : r.priv = 1 ∨ (fenced s r.comp = false ∧ (comp s r.comp).state ≠ 0 ∧ (comp s r.comp).state ≠ 4)) :
    exec (.programTake cs) s =
      .next (setCtl { markStarted s r.seq with cc := { s.cc with rrPart := (p + 1) % 16 } } cs (takenBy r s.now)) := by
  have hn : ¬(r.priv = 2 ∧ (fenced s r.comp = true ∨ (comp s r.comp).state = 0 ∨ (comp s r.comp).state = 4)) := by
    rcases hc with h | ⟨h1, h2, h3⟩
    · omega
    · simp [h1, h2, h3]
  simp only [exec, execProgramTake, hw, hcs, hi, hs, hb, hp, hr]
  -- What the fence test reads of the new state is as it was in `s`.
  exact congrArg _ (if_neg hn)

/-! ### The end of a program (Machine/Cp.lean, Machine/CpEnd.lean) -/

@[simp] theorem postOut_ph (s : State) (m : Nat) (ws : List W64) : (postOut s m ws).ph = s.ph := by
  dsimp only [postOut]
  split <;> simp

/-- The completion of a sequencer's program staged, if the program's record stands (R95, R478). -/
def completionStaged (s : State) (cs status reason : Nat) : State :=
  match findRec s (ctl s cs).seqNo with
  | some r => stageCompletion s r (statusReason status reason) 0
  | none => s

@[simp] theorem completionStaged_cc (s : State) (cs status reason : Nat) : (completionStaged s cs status reason).cc = s.cc := by
  unfold completionStaged
  split <;> rfl

@[simp] theorem completionStaged_now (s : State) (cs status reason : Nat) : (completionStaged s cs status reason).now = s.now := by
  unfold completionStaged
  split <;> rfl

@[simp] theorem completionStaged_ph (s : State) (cs status reason : Nat) : (completionStaged s cs status reason).ph = s.ph := by
  unfold completionStaged
  split <;> rfl

/-- CP_DONE sent for a sequencer's program, its completion staged (R30). -/
def progAnswered (s : State) (cs status reason : Nat) : State :=
  cpDone (completionStaged s cs status reason) (ctl s cs).mailbox (ctl s cs).tag (ctl s cs).seqNo status reason

@[simp] theorem progAnswered_ph (s : State) (cs status reason : Nat) : (progAnswered s cs status reason).ph = s.ph := by
  simp [progAnswered, cpDone]

theorem outQ_progAnswered {s : State} {cs : Nat} (hf : (mbx s (ctl s cs).mailbox).outFull = false) (status reason : Nat) :
    (mbx (progAnswered s cs status reason) (ctl s cs).mailbox).outQ =
      [replyHead 0x82 (ctl s cs).tag, w64 (ctl s cs).seqNo, statusReason status reason, w64 s.now] := by
  have hf' : (mbx (completionStaged s cs status reason) (ctl s cs).mailbox).outFull = false := by simpa [mbx] using hf
  simp [progAnswered, cpDone, postOut_of_empty hf', Mailbox.filled]

/-- A mailbox with one program less that has not ended (R52). -/
def Mailbox.oneEnded (x : Mailbox) : Mailbox := { x with running := x.running - 1 }

/-- The end of a program that holds no leave, on a sequencer for which no spare waits: after CP_DONE its mailbox counts one less, its
record retires and the sequencer is idle. -/
theorem progEnd_without_leave {s : State} {cs : Nat} (hl : (ctl s cs).leave = false) (hd : s.ph.partDue = []) (status reason : Nat) :
    progEnd s cs status reason =
      setCtl (retireRec (setMbx (progAnswered s cs status reason) (ctl s cs).mailbox
        (mbx (progAnswered s cs status reason) (ctl s cs).mailbox).oneEnded) (ctl s cs).seqNo) cs { state := 0 } := by
  have hs : dropProgLeave s cs = s := by simp [dropProgLeave, hl]
  have hn : (progAnswered s cs status reason).ph.partDue.contains (9 * 256 + cs) = false := by simp [hd]
  unfold progEnd
  rw [hs]
  exact if_neg (ne_true_of_eq_false hn)

theorem ctl_progEnd {s : State} {cs : Nat} (hl : (ctl s cs).leave = false) (hd : s.ph.partDue = []) (status reason : Nat) :
    ctl (progEnd s cs status reason) cs = { state := 0 } := by
  rw [progEnd_without_leave hl hd, ctl_setCtl_same]

theorem outQ_progEnd {s : State} {cs : Nat} (hl : (ctl s cs).leave = false) (hd : s.ph.partDue = [])
    (hf : (mbx s (ctl s cs).mailbox).outFull = false) (status reason : Nat) :
    (mbx (progEnd s cs status reason) (ctl s cs).mailbox).outQ =
      [replyHead 0x82 (ctl s cs).tag, w64 (ctl s cs).seqNo, statusReason status reason, w64 s.now] := by
  rw [progEnd_without_leave hl hd, mbx_setCtl, mbx_retireRec, mbx_setMbx_same, ← outQ_progAnswered hf status reason]
  rfl

theorem watchdogExpiry_ends {s : State} {cs : Nat} (hw : working s = true) (hcs : cs < 9) (hr : (ctl s cs).state = 1)
    (ht : (ctl s cs).started + s.cc.wdog * 1000 ≤ s.now) (hn : (ctl s cs).wait = .none) :
    exec (.watchdogExpiry cs) s = .next (progEnd s cs 0x0E (fld (sGet (ctl s cs).s 31) 0 16)) := by
  have ha : abandonWait s cs = s := by simp [abandonWait, hn]
  simp [exec, execWatchdogExpiry, endProg, hw, hcs, hr, ht, ha]

/-- Settles O6: acceptance, the take, the watchdog and the failover each answer the state their lemma names, and the parts of it that
the statement reads are those of the message, of the journal record and of the sequencer written last. -/
theorem programLifeCommands : Obligations.ProgramLifeCommands := by
  refine ⟨fun s m g hw hg ho hf => ?_, fun s m o g hw hg ho => programAccept_bulk hw hg ho,
    fun s cs p r hw hcs hi hs hb hp hr hc => ?_, fun s cs hw hcs hr ht hn hl hd hf => ?_, fun s core hc => ?_⟩
  · refine ⟨_, programAccept_inline hw hg ho hf, ?_, ?_, ?_, ?_, ?_, rfl⟩
    · simp [acceptStaged]
    · simp [acceptStaged]
    · simp [acceptStaged]
    · rw [putOut_lv]
      exact stageRecord_recs ..
    · simp [Mailbox.filled]
  · exact ⟨_, programTake_runs hw hcs hi hs hb hp hr hc, ctl_setCtl_same .., rfl, rfl⟩
  · exact ⟨_, watchdogExpiry_ends hw hcs hr ht hn, congrArg CtlSeq.state (ctl_progEnd hl hd ..), outQ_progEnd hl hd hf .., rfl⟩
  · simp [exec, execMgmtCoreFailover, hc]

end Sys2Proof.Machine

/-! SUPPORT. TOPK, COMPACT and the welt RED (R117, R152–R158, R244, R246, R247): how the stages and laces of a seam read after a
write, what a translation and the stop of a job leave of the seam array, and then what each of these instructions does to a ready
stage. -/

namespace Sys2Proof.Machine

/-! ### Stages and laces of a seam (Machine/Welt.lean, Machine/Flow.lean, Machine/StageIo.lean) -/

@[simp] theorem stageOf_putStage_same (x : Seam) (n : Nat) (g : Stage) : stageOf (putStage x n g) n = g := tget_tput_same ..

theorem stageOf_putStage (x : Seam) (m n : Nat) (g : Stage) : stageOf (putStage x m g) n = if n = m then g else stageOf x n := tget_tput ..

@[simp] theorem laceOf_putStage (x : Seam) (n : Nat) (g : Stage) (l : Nat) : laceOf (putStage x n g) l = laceOf x l := rfl

@[simp] theorem mem_putStage (x : Seam) (n : Nat) (g : Stage) : (putStage x n g).mem = x.mem := rfl

@[simp] theorem stageOf_lacePut (x : Seam) (l : Nat) (bs : Bytes) (n : Nat) : stageOf (lacePut x l bs) n = stageOf x n := rfl

@[simp] theorem stageOf_laceDrop (x : Seam) (l k n : Nat) : stageOf (laceDrop x l k) n = stageOf x n := rfl

@[simp] theorem mem_laceDrop (x : Seam) (l k : Nat) : (laceDrop x l k).mem = x.mem := rfl

@[simp] theorem laceOf_lacePut_same (x : Seam) (l : Nat) (bs : Bytes) :
    laceOf (lacePut x l bs) l = { laceOf x l with q := (laceOf x l).q ++ bs } := by
  simp [laceOf, lacePut]

theorem laceOf_lacePut_ne (x : Seam) {l k : Nat} (bs : Bytes) (h : k ≠ l) : laceOf (lacePut x l bs) k = laceOf x k := by
  simp [laceOf, lacePut, tget_tmod_ne, h]

@[simp] theorem laceOf_laceDrop_same (x : Seam) (l k : Nat) :
    laceOf (laceDrop x l k) l = { laceOf x l with q := (laceOf x l).q.drop k } := by
  simp [laceOf, laceDrop]

theorem laceOf_laceDrop_ne (x : Seam) {l m : Nat} (k : Nat) (h : m ≠ l) : laceOf (laceDrop x l k) m = laceOf x m := by
  simp [laceOf, laceDrop, tget_tmod_ne, h]

/-- A lace closed by its producer. -/
def laceClose (x : Seam) (l : Nat) : Seam := { x with laces := tmod {} x.laces l fun c => { c with closed := true } }

@[simp] theorem laceOf_laceClose_same (x : Seam) (l : Nat) : laceOf (laceClose x l) l = { laceOf x l with closed := true } := by
  simp [laceOf, laceClose]

theorem laceOf_laceClose_ne (x : Seam) {l k : Nat} (h : k ≠ l) : laceOf (laceClose x l) k = laceOf x k := by
  simp [laceOf, laceClose, tget_tmod_ne, h]

@[simp] theorem seam_setStage_same (s : State) (q n : Nat) (g : Stage) : seam (setStage s q n g) q = putStage (seam s q) n g :=
  seam_setSeam_same ..

@[simp] theorem stage_setStage_same (s : State) (q n : Nat) (g : Stage) : stage (setStage s q n g) q n = g := by simp [stage]

@[simp] theorem stage_setSeam_same (s : State) (q n : Nat) (x : Seam) : stage (setSeam s q x) q n = stageOf x n := by simp [stage]

@[simp] theorem prog_stageFlags (g : Stage) (f : Nat) : (stageFlags g f).prog = g.prog := rfl

theorem jobOf_of_job {s : State} {q : Nat} {j : JobRun} (h : (seam s q).job = some j) : jobOf s q = j := by simp [jobOf, h]

theorem seamOnly_setSeam (s : State) (q : Nat) (x : Seam) : SeamOnly s (setSeam s q x) q := fun _ h => seam_setSeam_ne _ _ h

theorem SeamOnly.trans {s t u : State} {q : Nat} (h : SeamOnly s t q) (h' : SeamOnly t u q) : SeamOnly s u q :=
  fun k hk => (h' k hk).trans (h k hk)

/-- A ready stage whose instruction has the form executes the body. -/
theorem runStage_of_ready {s : State} {q n opc : Nat} (h : StageReady s q n opc) {sel : Ins → Bool} (hs : sel (stageIns s q n) = true)
    (body : State → Stage → Ins → State) : runStage s q n opc sel body = body s (stage s q n) (stageIns s q n) := by
  obtain ⟨hl, ho, hg, hw⟩ := h
  simp [runStage, hl, ho, hs, hg, hw]

/-- The end of an instruction that takes from laces and met end-of-stream (R217): p6 tells whether it had taken anything. -/
theorem stage_ioEnd_eos (s : State) (q n : Nat) : stage (ioEnd s q n true true) q n =
    { stageNext (stage s q n) with prog := {}, p := pPut (stage s q n).p 6 (stage s q n).prog.took } := by
  simp [ioEnd, setP6, stageNext]

@[simp] theorem laceOf_ioEnd (s : State) (q n : Nat) (takes eos : Bool) (l : Nat) :
    laceOf (seam (ioEnd s q n takes eos) q) l = laceOf (seam s q) l := by simp [ioEnd]

/-! ### A translation that succeeds (Machine/Translate.lean, R369) -/

theorem useLeaf_ok_state {s u : State} {a : VAcc} {e : TlbEnt} {fa r k : Nat} (h : useLeaf s a e = (u, .ok fa r k)) : u = s := by
  unfold useLeaf at h
  split at h
  · split at h
    · simp at h
    · exact (congrArg Prod.fst h).symm
  · simp at h

/-- An access that gets its address has changed the translation unit alone: its caches and its counters. -/
theorem translate_ok_changes {s u : State} {a : VAcc} {fa r k : Nat} (h : translate s a = (u, .ok fa r k)) : ∃ tu, u = { s with tu := tu } := by
  simp only [translate] at h
  split at h
  · simp at h
  · split at h
    · exact ⟨_, useLeaf_ok_state h⟩
    · split at h
      · exact ⟨_, useLeaf_ok_state h⟩
      · simp at h

/-! ### The stop of a job (Machine/Ops.lean, R528) -/

@[simp] theorem tallyWait_welts (s : State) (q : Nat) : (tallyWait s q).sa.welts = s.sa.welts := by
  dsimp only [tallyWait]
  split
  · split <;> rfl
  · rfl

/-- Counting a job's wait changes of the job only how far its wait is counted. -/
theorem tallyWait_job {s : State} {q : Nat} {j : JobRun} (hj : (seam s q).job = some j) :
    ∃ waitT, (seam (tallyWait s q) q).job = some { j with waitT := waitT } := by
  simp only [tallyWait, hj]
  split
  · exact ⟨s.now, by simp⟩
  · exact ⟨j.waitT, hj⟩

/-- A welt as the stop of its job leaves it: one that stands open is closed (R158). -/
def Welt.stopped (w : Welt) (q now : Nat) : Welt :=
  if w.seam = q ∧ w.opened = true then { w with opened := false, closedAt := some now } else w

theorem Welt.stopped_shut (w : Welt) (q now : Nat) : (decide ((w.stopped q now).seam ≠ q) || !(w.stopped q now).opened) = true := by
  unfold Welt.stopped
  split
  · simp
  · next h => cases ho : w.opened <;> simp_all

/-- A job that has not ended yet: its end status is kept, its seam drains writes, and its welt is closed. -/
theorem stopJob_ends {s : State} {q : Nat} {j : JobRun} (hj : (seam s q).job = some j) (he : j.endStatus = none) (status : Nat) :
    (seam (stopJob s q status) q).job.map (·.endStatus) = some (some status) ∧ (seam (stopJob s q status) q).state = 8 ∧
      (stopJob s q status).sa.welts = s.sa.welts.map fun w => w.stopped q (tallyWait s q).now := by
  obtain ⟨waitT, hw⟩ := tallyWait_job hj
  simp only [stopJob, hw, he]
  refine ⟨by simp, by simp, ?_⟩
  exact congrArg _ (tallyWait_welts s q)

/-! ### TOPK (Machine/StageFilter.lean, R117, R244) -/

section
variable {s : State} {q n k : Nat} {i : Ins}

theorem topk_emits (h : StageReady s q n 0x51) (hi : stageIns s q n = i)
    (hk : (if i.f 19 1 = 1 then (sGet (seam s q).s (i.f 20 5)).toNat else i.f 0 12 + 1) = k) (h1 : 1 ≤ k) (h2 : k ≤ 4096)
    (ho : laceShut s q (i.f 12 5) = false) (hc : (laceOf (seam s q) (i.f 32 5)).closed = true)
    (hm : (laceOf (seam s q) (i.f 32 5)).q.length % (if i.f 17 1 = 1 then 8 else elemBytes (i.f 37 4)) = 0)
    (hr : laceRoom (seam s q) (i.f 12 5) = true) : exec (.topk q n) s = .next (topkEmit s q n i k) := by
  have hn : ¬(k = 0 ∨ 4096 < k) := by omega
  simp only [exec, execTopk, runStage_of_ready h, hi, hk]
  simp [hn, ho, hc, hm, hr]

theorem topk_stops (h : StageReady s q n 0x51) (hi : stageIns s q n = i)
    (hk : (if i.f 19 1 = 1 then (sGet (seam s q).s (i.f 20 5)).toNat else i.f 0 12 + 1) = k)
    (hb : k = 0 ∨ 4096 < k ∨ laceShut s q (i.f 12 5) = true) : exec (.topk q n) s = .next (stopJob s q 3) := by
  simp only [exec, execTopk, runStage_of_ready h, hi, hk, if_pos hb]

theorem stage_topkEmit (s : State) (q n : Nat) (i : Ins) (k : Nat) : stage (topkEmit s q n i k) q n =
    { stageNext (stage s q n) with p := pPut (stage s q n).p 6 !(laceOf (seam s q) (i.f 32 5)).q.isEmpty } := by
  simp [topkEmit, setP6, stageNext]

/-- What a TOPK emits for its ranked keys: each with its pattern, or its index alone (R244). -/
def topBytes (i : Ins) (l : List TopKey) : Bytes := l.flatMap fun x => if i.f 18 1 = 1 then bytesLE 4 x.pat ++ bytesLE 4 x.ix else bytesLE 4 x.ix

/-- What TOPK does to the laces: all input leaves its lace, the ranked keys enter the output lace, which closes. -/
theorem laceOf_topkEmit (s : State) (q n : Nat) (i : Ins) (k l : Nat) : laceOf (seam (topkEmit s q n i k) q) l =
    laceOf (laceClose (lacePut (laceDrop (seam s q) (i.f 32 5) (laceOf (seam s q) (i.f 32 5)).q.length) (i.f 12 5)
      (topBytes i (topKeys k (topInput i (fld (sGet (seam s q).s (i.f 25 5)) 0 32) (laceOf (seam s q) (i.f 32 5)).q)))) (i.f 12 5)) l := by
  simp only [topkEmit, seam_setStage_same, seam_setSeam_same, laceOf_putStage]
  rfl

theorem laceOf_topkEmit_out (hne : i.f 12 5 ≠ i.f 32 5) (n k : Nat) : laceOf (seam (topkEmit s q n i k) q) (i.f 12 5) =
    { laceOf (seam s q) (i.f 12 5) with
      q := (laceOf (seam s q) (i.f 12 5)).q ++
        topBytes i (topKeys k (topInput i (fld (sGet (seam s q).s (i.f 25 5)) 0 32) (laceOf (seam s q) (i.f 32 5)).q))
      closed := true } := by
  simp [laceOf_topkEmit, laceOf_laceDrop_ne, hne]

theorem laceOf_topkEmit_in (hne : i.f 12 5 ≠ i.f 32 5) (n k : Nat) : (laceOf (seam (topkEmit s q n i k) q) (i.f 32 5)).q = [] := by
  simp [laceOf_topkEmit, laceOf_laceClose_ne, laceOf_lacePut_ne, hne.symm]

/-- The output lace still takes bytes and the input has ended, so they are two laces. -/
theorem lace_ne_of_shut {l m : Nat} (hl : laceShut s q l = false) (hm : (laceOf (seam s q) m).closed = true) : l ≠ m := by
  rintro rfl
  simp [laceShut, hm] at hl

/-! ### COMPACT (Machine/StageFilter.lean, R246) -/

theorem compact_takes (h : StageReady s q n 0x53) (hi : stageIns s q n = i) (h10 : laceShut s q (i.f 10 5) = false)
    (h15 : laceShut s q (i.f 15 5) = false) (hr10 : laceRoom (seam s q) (i.f 10 5) = true) (hr15 : laceRoom (seam s q) (i.f 15 5) = true)
    (hl : i.x 0 12 * 32 ≤ (laceOf (seam s q) (i.f 0 5)).q.length) (hm : 4 ≤ (laceOf (seam s q) (i.f 5 5)).q.length) :
    exec (.compact q n) s = .next
      (compactRec s q n i ((laceOf (seam s q) (i.f 0 5)).q.take (i.x 0 12 * 32)) (leAt (laceOf (seam s q) (i.f 5 5)).q 0 4)) := by
  simp only [exec, execCompact, runStage_of_ready h, hi]
  simp [h10, h15, hr10, hr15, hl, hm]

theorem compact_counts (h : StageReady s q n 0x53) (hi : stageIns s q n = i) (h10 : laceShut s q (i.f 10 5) = false)
    (h15 : laceShut s q (i.f 15 5) = false) (hq0 : (laceOf (seam s q) (i.f 0 5)).q = []) (hc0 : (laceOf (seam s q) (i.f 0 5)).closed = true)
    (hq5 : (laceOf (seam s q) (i.f 5 5)).q = []) (hc5 : (laceOf (seam s q) (i.f 5 5)).closed = true)
    (hr10 : laceRoom (seam s q) (i.f 10 5) = true) (hr15 : laceRoom (seam s q) (i.f 15 5) = true) :
    exec (.compact q n) s = .next (ioEnd (setSeam s q
      (lacePut (seam s q) (i.f 15 5) (bytesLE 8 (stage s q n).prog.count ++ List.replicate 24 0))) q n true true) := by
  simp only [exec, execCompact, runStage_of_ready h, hi]
  simp [h10, h15, hr10, hr15, hq0, hc0, hq5, hc5]

/-- What COMPACT does to the seam itself: the record and its mask leave, and the record is emitted where the mask and OUTMAX let it. -/
theorem seam_compactRec (s : State) (q n : Nat) (i : Ins) (rec_ : Bytes) (mask : Nat) : ∃ g, seam (compactRec s q n i rec_ mask) q =
    putStage (if mask ≠ 0 ∧ (i.x 32 32 = 0 ∨ (stage s q n).prog.count < i.x 32 32)
      then lacePut (laceDrop (laceDrop (seam s q) (i.f 0 5) rec_.length) (i.f 5 5) 4) (i.f 10 5) rec_
      else laceDrop (laceDrop (seam s q) (i.f 0 5) rec_.length) (i.f 5 5) 4) n g := by
  simp only [compactRec, seam_setStage_same, seam_setSeam_same, Bool.and_eq_true, Bool.or_eq_true, decide_eq_true_eq]
  exact ⟨_, rfl⟩

theorem stage_compactRec (s : State) (q n : Nat) (i : Ins) (rec_ : Bytes) (mask : Nat) : stage (compactRec s q n i rec_ mask) q n =
    { stage s q n with
        prog := { (stage s q n).prog with took := true, count := (stage s q n).prog.count + if mask ≠ 0 then 1 else 0 } } := by
  refine (stage_setStage_same ..).trans ?_
  by_cases hm : mask = 0 <;> simp [hm, b2n]

theorem laceOf_compactRec_out {s : State} {q : Nat} {i : Ins} (h0 : i.f 10 5 ≠ i.f 0 5) (h5 : i.f 10 5 ≠ i.f 5 5) (n : Nat) (rec_ : Bytes)
    (mask : Nat) : (laceOf (seam (compactRec s q n i rec_ mask) q) (i.f 10 5)).q = (laceOf (seam s q) (i.f 10 5)).q ++
      if mask ≠ 0 ∧ (i.x 32 32 = 0 ∨ (stage s q n).prog.count < i.x 32 32) then rec_ else [] := by
  obtain ⟨g, hg⟩ := seam_compactRec s q n i rec_ mask
  rw [hg]
  split <;> simp [laceOf_laceDrop_ne, h0, h5]

theorem laceOf_compactRec_ne {s : State} {q l : Nat} {i : Ins} (hl : i.f 10 5 ≠ l) (n : Nat) (rec_ : Bytes) (mask : Nat) :
    laceOf (seam (compactRec s q n i rec_ mask) q) l = laceOf (laceDrop (laceDrop (seam s q) (i.f 0 5) rec_.length) (i.f 5 5) 4) l := by
  obtain ⟨g, hg⟩ := seam_compactRec s q n i rec_ mask
  rw [hg]
  split
  · exact laceOf_lacePut_ne _ _ hl.symm
  · rfl

end

/-! ### The welt RED (Machine/StageWelt.lean, R152–R154, R247) -/

section
variable {s : State} {q n : Nat}

theorem redWelt_runs (h : StageReady s q n 0x60) (hf : (stageIns s q n).f 0 1 = 1) : exec (.redWelt q n) s = .next
    (if (stage s q n).weltWait = true then
      if (jobWelt s q).any (fun w => w.closedAt.isSome) = true then setStage s q n (weltDone s q (stage s q n)) else s
    else if aSpace (aGet (stage s q n) ((stageIns s q n).f 34 7)) ≠ 0 then stopJob s q 3
    else weltEnter s q n (aAddr (aGet (stage s q n) ((stageIns s q n).f 34 7)))) :=
  congrArg _ (runStage_of_ready h (sel := fun i => decide (i.f 0 1 = 1)) (decide_eq_true hf) _)

theorem redWelt_enters (h : StageReady s q n 0x60) (hf : (stageIns s q n).f 0 1 = 1) (hw : (stage s q n).weltWait = false)
    (ha : aSpace (aGet (stage s q n) ((stageIns s q n).f 34 7)) = 0) :
    exec (.redWelt q n) s = .next (weltEnter s q n (aAddr (aGet (stage s q n) ((stageIns s q n).f 34 7)))) := by
  simp [redWelt_runs h hf, hw, ha]

theorem redWelt_waits (h : StageReady s q n 0x60) (hf : (stageIns s q n).f 0 1 = 1) (hw : (stage s q n).weltWait = true)
    (ho : (jobWelt s q).any (fun w => w.closedAt.isSome) = false) : exec (.redWelt q n) s = .next s := by
  simp [redWelt_runs h hf, hw, ho]

theorem redWelt_completes (h : StageReady s q n 0x60) (hf : (stageIns s q n).f 0 1 = 1) (hw : (stage s q n).weltWait = true)
    (hc : (jobWelt s q).any (fun w => w.closedAt.isSome) = true) :
    exec (.redWelt q n) s = .next (setStage s q n (weltDone s q (stage s q n))) := by
  simp [redWelt_runs h hf, hw, hc]

/-- The job's first stage at a sound descriptor joins alone: it waits for more servers, or is the last and opens the welt. -/
theorem weltEnter_first {a : Nat} {b : Bytes} {j : JobRun} (hb : sliceRead (seam s q) a 32 = some b) (hj : (seam s q).job = some j)
    (hn : jobWelt s q = none) (hr : weltRanges (weltOf q j.seq j.comp a b) b = true) : weltEnter s q n a =
      if 1 < (weltOf q j.seq j.comp a b).servers then weltJoin s q n { weltOf q j.seq j.comp a b with joined := [n] }
      else weltOpen s q n { weltOf q j.seq j.comp a b with joined := [n] } := by
  simp [weltEnter, hb, hn, jobOf_of_job hj, hr]

@[simp] theorem stage_weltJoin (s : State) (q n : Nat) (w : Welt) : stage (weltJoin s q n w) q n = { stage s q n with weltWait := true } :=
  stage_setStage_same ..

@[simp] theorem weltJoin_last (s : State) (q n : Nat) (w : Welt) : (weltJoin s q n w).sa.welts.getLast? = some w := List.getLast?_concat

@[simp] theorem mem_weltJoin (s : State) (q n : Nat) (w : Welt) : (seam (weltJoin s q n w) q).mem = (seam s q).mem := by
  rw [weltJoin, seam_setStage_same]
  rfl

/-- The welt opens once its range has an address that fits (R153): its lines' state is zeroed and its deadline set. -/
theorem weltOpen_fits {w w' : Welt} {u : State} {fa r k : Nat} (ht : translate s (stageAcc s q n w.base 2) = (u, .ok fa r k))
    (hw : { w with base := fa } = w') (hf : weltFits u q w' r = true) : weltOpen s q n w =
      weltJoin (setSeam u q { seam u q with mem := weltZeroAll { w' with opened := true, deadline := u.now + w'.timeout * 1000 } (seam u q).mem })
        q n { w' with opened := true, deadline := u.now + w'.timeout * 1000 } := by
  subst hw
  simp [weltOpen, ht, hf]

/-! ### Line records from a lace, and the timeout (Machine/StageWelt.lean, R155, R157, R158) -/

/-- A serving stage of an open welt has a whole line record on its input lace, and room for a finished line. -/
theorem contribution_of_record {l : Nat} {w : Welt} (hl : stageLive s q n = true) (hw : (stage s q n).weltWait = true)
    (hj : jobWelt s q = some w) (ho : w.opened = true) (hi : (stage s q n).inL ≠ 0) (hf : firstLace (stage s q n).inL = l)
    (hq : 32 + weltInB w ≤ (laceOf (seam s q) l).q.length)
    (hr : (stage s q n).outL = 0 ∨ laceRoom (seam s q) (firstLace (stage s q n).outL) = true) :
    exec (.weltLaceContribution q n) s =
      .next (if w.lines ≤ leAt (laceOf (seam s q) l).q 0 4 then stopJob s q 3 else weltTake s q n l w) := by
  have hroom : (stage s q n).outL ≠ 0 → laceRoom (seam s q) (firstLace (stage s q n).outL) = true := hr.resolve_left
  have hgo : ¬(w.opened = false ∨ (stage s q n).inL = 0 ∨ (laceOf (seam s q) l).q.length < 32 + weltInB w ∨
      ((stage s q n).outL ≠ 0 ∧ laceRoom (seam s q) (firstLace (stage s q n).outL) = false)) := by
    simpa [ho, hi, hq] using hroom
  simp only [exec, execWeltLaceContribution, hl, hw, hj, hf]
  exact congrArg _ (if_neg hgo)

/-- The slice of a seam once a line of a welt has a contribution combined with it (R155). -/
def lineMem (m : Mem) (w : Welt) (k : Nat) (data : Bytes) : Mem :=
  memWrite m (weltAt w k) ((weltCombine w (memRead m (weltAt w k) (weltLineB w - 4)) data).v ++ bytesLE 4 (weltCount m w k + 1))

/-- The seam with that slice. -/
def lineCombined (x : Seam) (w : Welt) (k : Nat) (data : Bytes) : Seam := { x with mem := lineMem x.mem w k data }

@[simp] theorem mem_lineCombined (x : Seam) (w : Welt) (k : Nat) (data : Bytes) : (lineCombined x w k data).mem = lineMem x.mem w k data := rfl

@[simp] theorem laceOf_lineCombined (x : Seam) (w : Welt) (k : Nat) (data : Bytes) (l : Nat) :
    laceOf (lineCombined x w k data) l = laceOf x l := rfl

@[simp] theorem stageOf_lineCombined (x : Seam) (w : Welt) (k : Nat) (data : Bytes) (n : Nat) :
    stageOf (lineCombined x w k data) n = stageOf x n := rfl

/-- A contribution that does not finish its line changes the line's state and the sticky flags of its server. -/
theorem weltApply_unfinished {w : Welt} {k : Nat} (hs : w.seam = q) (hc : weltCount (seam s q).mem w k + 1 ≠ w.expect) (data : Bytes) :
    ∃ g f, weltApply s w k data =
      setSeam s q (putStage (lineCombined (seam s q) w k data) g (stageFlags (stageOf (seam s q) g) f)) := by
  subst hs
  exact ⟨_, _, if_neg hc⟩

/-- The serving stage with the record taken off its lace. -/
def recordTaken (s : State) (q n l : Nat) (w : Welt) : State :=
  setStage (setSeam s q (laceDrop (seam s q) l (32 + weltInB w))) q n
    { stage s q n with prog := { (stage s q n).prog with took := true } }

theorem seam_recordTaken (s : State) (q n l : Nat) (w : Welt) : seam (recordTaken s q n l w) q =
    putStage (laceDrop (seam s q) l (32 + weltInB w)) n { stage s q n with prog := { (stage s q n).prog with took := true } } := by
  simp [recordTaken]

theorem seamOnly_recordTaken (s : State) (q n l : Nat) (w : Welt) : SeamOnly s (recordTaken s q n l w) q :=
  SeamOnly.trans (seamOnly_setSeam _ _ _) (seamOnly_setSeam _ _ _)

theorem weltTake_of_unfull {l : Nat} {w : Welt} (hc : weltCount (seam s q).mem w (leAt (laceOf (seam s q) l).q 0 4) ≠ w.expect) :
    weltTake s q n l w =
      weltApply (recordTaken s q n l w) w (leAt (laceOf (seam s q) l).q 0 4) (((laceOf (seam s q) l).q.drop 32).take (weltInB w)) := by
  have hc' : weltCount (seam (recordTaken s q n l w) q).mem w (leAt (laceOf (seam s q) l).q 0 4) ≠ w.expect := by
    simpa [seam_recordTaken] using hc
  have hg : stage (setSeam s q (laceDrop (seam s q) l (32 + weltInB w))) q n = stage s q n := stage_setSeam_same ..
  dsimp only [weltTake]
  rw [hg]
  exact if_neg hc'

/-- A record that does not finish its line: the seam has changed in the lace, the line's state and two stages at most, and the
serving stage has taken from its lace. -/
theorem weltTake_unfinished {l k c : Nat} {w : Welt} (hs : w.seam = q) (hk : leAt (laceOf (seam s q) l).q 0 4 = k)
    (hc : weltCount (seam s q).mem w k = c) (hn : c + 1 < w.expect) :
    ∃ g f, seam (weltTake s q n l w) q = putStage (lineCombined (seam (recordTaken s q n l w) q) w k
        (((laceOf (seam s q) l).q.drop 32).take (weltInB w))) g (stageFlags (stageOf (seam (recordTaken s q n l w) q) g) f) ∧
      SeamOnly s (weltTake s q n l w) q := by
  have hc' : weltCount (seam (recordTaken s q n l w) q).mem w k = c := by simpa [seam_recordTaken] using hc
  have hu : weltCount (seam s q).mem w (leAt (laceOf (seam s q) l).q 0 4) ≠ w.expect := by rw [hk]; omega
  obtain ⟨g, f, h⟩ := weltApply_unfinished (s := recordTaken s q n l w) hs (by omega : weltCount _ w k + 1 ≠ w.expect)
    (((laceOf (seam s q) l).q.drop 32).take (weltInB w))
  rw [weltTake_of_unfull hu, hk, h]
  exact ⟨g, f, seam_setSeam_same .., SeamOnly.trans (seamOnly_recordTaken _ _ _ _ _) (seamOnly_setSeam _ _ _)⟩

/-- The lace, the serving stage and the line after a record that does not finish its line (R155, R157). -/
theorem weltTake_effect {s : State} {q n l k c : Nat} {w : Welt} (hs : w.seam = q) (hk : leAt (laceOf (seam s q) l).q 0 4 = k)
    (hc : weltCount (seam s q).mem w k = c) (hn : c + 1 < w.expect) :
    (laceOf (seam (weltTake s q n l w) q) l).q = (laceOf (seam s q) l).q.drop (32 + weltInB w) ∧
      (stage (weltTake s q n l w) q n).prog.took = true ∧
      (seam (weltTake s q n l w) q).mem = lineMem (seam s q).mem w k (((laceOf (seam s q) l).q.drop 32).take (weltInB w)) ∧
      seam (weltTake s q n l w) q = { seam s q with
        stages := (seam (weltTake s q n l w) q).stages, laces := (seam (weltTake s q n l w) q).laces,
        mem := (seam (weltTake s q n l w) q).mem } ∧
      SeamOnly s (weltTake s q n l w) q := by
  obtain ⟨g, f, hw, ho⟩ := weltTake_unfinished (n := n) hs hk hc hn
  rw [seam_recordTaken] at hw
  refine ⟨?_, ?_, ?_, ?_, ho⟩
  · simp [hw]
  · rw [stage, hw, stageOf_putStage]
    split
    · next h => simp [← h]
    · simp
  · simp [hw]
  · rw [hw]
    simp only [putStage, lineCombined, laceDrop]

theorem weltTimeout_stops {w : Welt} (hw : working s = true) (hj : jobWelt s q = some w) (ho : w.opened = true) (hd : w.deadline ≤ s.now) :
    exec (.weltTimeout q) s = .next (stopJob s q 0x0E) := by
  simp [exec, execWeltTimeout, hw, hj, ho, hd]

end

/-- Settles O35: each clause names the state the instruction's lemma gives, and reads its laces, its stage and its welt by theirs. -/
theorem filterAndWeltInstructions : Obligations.FilterAndWeltInstructions := by
  refine ⟨?_, fun s q n k i h hi hk hb => ⟨_, topk_stops h hi hk hb, rfl⟩, ?_, ?_,
    fun s q n i h hi h10 h15 hr10 hr15 hl hm => ⟨_, compact_takes h hi h10 h15 hr10 hr15 hl hm, rfl⟩, ?_, ?_, ?_,
    fun s q n h hf hw ha => ⟨_, redWelt_enters h hf hw ha, rfl⟩, fun s q n h hf hw ho => redWelt_waits h hf hw ho, ?_, ?_, ?_, ?_⟩
  · intro s q n k i h hi hk h1 h2 ho hc hm hr
    have hne := lace_ne_of_shut ho hc
    have hout := laceOf_topkEmit_out (s := s) (q := q) hne n k
    exact ⟨_, topk_emits h hi hk h1 h2 ho hc hm hr, congrArg Lace.q hout, congrArg Lace.closed hout, laceOf_topkEmit_in hne n k,
      stage_topkEmit .., rfl⟩
  · intro s q n i h hi h10 h15 h05 h100 h105 hl hm hr10 hr15
    refine ⟨_, compact_takes h hi h10 h15 hr10 hr15 hl hm, laceOf_compactRec_out h100 h105 .., ?_, ?_, ?_, ?_, rfl⟩
    · simp [laceOf_compactRec_ne h100, laceOf_laceDrop_ne, h05, hl]
    · simp [laceOf_compactRec_ne h105, laceOf_laceDrop_ne, h05.symm]
    · rw [stage_compactRec]
    · rw [stage_compactRec]
  · intro s q n i h hi h10 h15 hq0 hc0 hq5 hc5 hr10 hr15
    refine ⟨_, compact_counts h hi h10 h15 hq0 hc0 hq5 hc5 hr10 hr15, ?_, ?_, rfl⟩
    · simp
    · rw [stage_ioEnd_eos, stage_setSeam_same]
      rfl
  · intro s q n a b j h hf hw hs ha hb hj hn hr hv
    have henter := redWelt_enters h hf hw hs
    rw [ha, weltEnter_first hb hj hn hr, if_pos hv] at henter
    exact ⟨_, henter, stage_weltJoin .., weltJoin_last .., rfl⟩
  · intro s q n a fa r k b j u w h hf hw hs ha hb hj hn hr hv ht he hfit
    have henter := redWelt_enters h hf hw hs
    rw [ha, weltEnter_first hb hj hn hr, if_neg (by omega)] at henter
    obtain ⟨tu, rfl⟩ := translate_ok_changes ht
    have hopen := weltOpen_fits (w := { weltOf q j.seq j.comp a b with joined := [n] }) ht he hfit
    refine ⟨_, henter, ?_, ?_, ?_, rfl⟩
    · rw [hopen, stage_weltJoin]
    · rw [hopen, weltJoin_last]
    · rw [hopen, mem_weltJoin, seam_setSeam_same]
      rfl
  · intro s q n w h hf hw hj hc
    refine ⟨_, redWelt_completes h hf hw (by simpa [hj] using Option.isSome_iff_ne_none.mpr hc), ?_, ?_, ?_, rfl⟩
    all_goals
      rw [stage_setStage_same, weltDone]
      split <;> rfl
  · intro s q n l k c w hl hw hj hs ho hi hf hq hk hkl hc hn _ hr
    have hx := contribution_of_record hl hw hj ho hi hf hq hr
    rw [hk, if_neg (by omega)] at hx
    obtain ⟨hlace, htook, hmem, hseam, honly⟩ := weltTake_effect (n := n) hs hk hc hn
    exact ⟨_, hx, hlace, htook, by rw [hmem, lineMem, hc], hseam, honly, rfl⟩
  · intro s q n l w hl hw hj ho hi hf hq hk hr
    exact ⟨_, contribution_of_record hl hw hj ho hi hf hq hr, if_neg (by omega)⟩
  · intro s q n l w hl hw hj ho hi hf hq hk hr
    exact ⟨_, contribution_of_record hl hw hj ho hi hf hq hr, if_pos hk⟩
  · intro s q w j hw hj ho hd hjob he
    obtain ⟨hend, hstate, hwelts⟩ := stopJob_ends hjob he 0x0E
    refine ⟨_, weltTimeout_stops hw hj ho hd, hend, hstate, ?_, rfl⟩
    rw [hwelts, List.all_map, List.all_eq_true]
    exact fun x _ => x.stopped_shut ..

end Sys2Proof.Machine

/-! SUPPORT. Coding tables (R190, R202–R207; R87): what two writes of one entry leave, how a control-plane instruction that is taken
ends, and then the state that each action of TABLE.LOAD, and each event of a table that is installed or drains, answers. -/

namespace Sys2Proof.Machine

/-! ### Two writes of one entry (Laws/Tables)

The later write stands alone where the earlier one is not the default: a default is written by a removal, which in a table that is not
canonical also takes the entries behind the first. -/

theorem tins_tins {α : Type} (t : Tab α) (i : Nat) (v w : α) : tins (tins t i v) i w = tins t i w := by
  induction t with
  | nil => simp [tins]
  | cons e t ih =>
    obtain ⟨k, u⟩ := e
    rcases Nat.lt_trichotomy i k with h | h | h
    · simp [tins, h]
    · simp [tins, h]
    · simp [tins, Nat.ne_of_gt h, Nat.lt_asymm h, ih]

theorem filter_tins {α : Type} (t : Tab α) (i : Nat) (v : α) :
    (tins t i v).filter (fun e => e.1 ≠ i) = t.filter (fun e => e.1 ≠ i) := by
  induction t with
  | nil => simp [tins]
  | cons e t ih =>
    obtain ⟨k, u⟩ := e
    rcases Nat.lt_trichotomy i k with h | h | h
    · simp [tins, h]
    · simp [tins, h]
    · simpa [tins, Nat.ne_of_gt h, Nat.ne_of_lt h, Nat.lt_asymm h] using ih

theorem tput_tput {α : Type} [DecidableEq α] {d : α} (t : Tab α) (i : Nat) {v : α} (hv : v ≠ d) (w : α) :
    tput d (tput d t i v) i w = tput d t i w := by
  simp only [tput, if_neg hv, tins_tins, filter_tins]

theorem setStore_setStore (s : State) (id : Nat) {x : GvStore} (hx : x ≠ {}) (y : GvStore) :
    setStore (setStore s id x) id y = setStore s id y := by
  simp only [setStore, tput_tput _ _ hx]

theorem setRes_setRes (s : State) (k : Nat) {x : GvRes} (hx : x ≠ {}) (y : GvRes) : setRes (setRes s k x) k y = setRes s k y := by
  simp only [setRes, tput_tput _ _ hx]

/-! ### Results, and the grant of an object (Machine/Cp.lean, R77, R87) -/

theorem sGet_sPut_same (t : Tab W64) {i : Nat} (hi : i ≠ 0) (v : W64) : sGet (sPut t i v) i = v := by simp [sGet, sPut, hi]

/-- A grant changes the record of the cycle's grants alone. -/
theorem grantCommit_changes (s : State) (cs opc key : Nat) :
    ∃ commits, grantCommit s cs opc key = { s with cc := { s.cc with commits := commits } } := by
  unfold grantCommit
  split
  · exact ⟨_, rfl⟩
  · exact ⟨s.cc.commits, rfl⟩

@[simp] theorem grantCommit_gv (s : State) (cs opc key : Nat) : (grantCommit s cs opc key).gv = s.gv := by
  obtain ⟨commits, h⟩ := grantCommit_changes s cs opc key
  rw [h]

@[simp] theorem ctl_grantCommit (s : State) (cs opc key j : Nat) : ctl (grantCommit s cs opc key) j = ctl s j := by
  obtain ⟨commits, h⟩ := grantCommit_changes s cs opc key
  rw [h]; rfl

@[simp] theorem fetchBytes_grantCommit (s : State) (cs opc key : Nat) (place_ : W64) (n status : Nat) (data : Bytes) :
    fetchBytes (grantCommit s cs opc key) place_ n status data = fetchBytes s place_ n status data := by
  obtain ⟨commits, h⟩ := grantCommit_changes s cs opc key
  rw [h]; rfl

@[simp] theorem pagesInGen_grantCommit (s : State) (cs opc key a n : Nat) :
    pagesInGen (grantCommit s cs opc key) a n = pagesInGen s a n := by
  obtain ⟨commits, h⟩ := grantCommit_changes s cs opc key
  rw [h]; rfl

@[simp] theorem tabChecks_grantCommit (s : State) (cs opc key : Nat) (q : CtlSeq) (d : List W64) (absent limit : Bool) :
    tabChecks (grantCommit s cs opc key) q d absent limit = tabChecks s q d absent limit := by
  obtain ⟨commits, h⟩ := grantCommit_changes s cs opc key
  rw [h]; rfl

/-- How an instruction ends with the result of its body: by the body itself, completed, or waiting. -/
def CtlRes.settle (r : CtlRes) (cs : Nat) : State :=
  if r.done then r.s
  else if r.wait = .none then ctlComplete r.s cs r.reason r.status r.obj r.size
  else setCtl r.s cs { ctl r.s cs with wait := r.wait }

/-- An instruction that is taken, whose object is neither stamped later nor granted to another, runs its body. -/
theorem runCtl_of_presents {s : State} {cs opc : Nat} {d : List W64} (hp : Presents s cs opc d) {sel : List W64 → Bool}
    (hs : sel d = true) {key : List W64 → Nat} (hf : Fresh s cs opc (key d)) (stat : State → List W64 → Option W64)
    (body : State → CtlSeq → List W64 → CtlRes) :
    runCtl s cs opc sel key stat body = (body (grantCommit s cs opc (key d)) (ctl s cs) d).settle cs := by
  obtain ⟨hactive, hopc, hguard, hstaging, hdesc⟩ := hp
  obtain ⟨hstamp, hlost⟩ := hf
  simp [runCtl, hactive, hopc, hguard, hstaging, hdesc, hs, hstamp, hlost, CtlRes.settle]

@[simp] theorem ctlComplete_gv (s : State) (cs reason : Nat) (status : Option W64) (obj : Option Nat) (size : Nat) :
    (ctlComplete s cs reason status obj size).gv = s.gv := by
  dsimp only [ctlComplete]
  split
  · split <;> rfl
  · rfl

/-- The results of R87, for a sequencer that its own instruction has not stopped. -/
theorem completed_ctlFinish {s t : State} {cs : Nat} (hc : ctl t cs = ctl s cs) (hw : (ctl s cs).wait ≠ .stopped) (reason : Nat) :
    Completed s (ctlFinish t cs reason none) cs reason := by
  simp only [Completed, ctlFinish, ctl_setCtl_same, hc, if_neg hw, and_self, and_true]
  exact sGet_sPut_same _ (by decide) _

theorem completed_ctlComplete {s t : State} {cs : Nat} (hc : ctl t cs = ctl s cs) (hw : (ctl s cs).wait ≠ .stopped) (reason : Nat)
    (obj : Option Nat) (size : Nat) : Completed s (ctlComplete t cs reason none obj size) cs reason := by
  dsimp only [ctlComplete]
  split
  · split <;> exact completed_ctlFinish hc hw reason
  · exact completed_ctlFinish hc hw reason

theorem Presents.wait_ne_stopped {s : State} {cs opc : Nat} {d : List W64} (hp : Presents s cs opc d) : (ctl s cs).wait ≠ .stopped := by
  obtain ⟨hactive, -⟩ := hp
  simp only [ctlActive, Bool.and_eq_true, decide_eq_true_eq] at hactive
  simp [hactive.2]

/-! ### Tables in the store and resident (Machine/Tables.lean) -/

@[simp] theorem gvStore_grantCommit (s : State) (cs opc key id : Nat) : gvStore (grantCommit s cs opc key) id = gvStore s id := by
  simp [gvStore]

@[simp] theorem tabOther_grantCommit (s : State) (cs opc key : Nat) (d : List W64) :
    tabOther (grantCommit s cs opc key) d = tabOther s d := by simp [tabOther]

@[simp] theorem resOf_grantCommit (s : State) (cs opc key id : Nat) : resOf (grantCommit s cs opc key) id = resOf s id := by
  simp [resOf]

@[simp] theorem freeRes_grantCommit (s : State) (cs opc key : Nat) : freeRes (grantCommit s cs opc key) = freeRes s := by
  simp [freeRes]

@[simp] theorem digestNote_gv (s : State) (object : Nat) (added : Bool) (digest : Bytes) :
    (digestNote s object added digest).gv = s.gv := rfl

@[simp] theorem stateRecord_gv (s : State) (n : Nat) : (stateRecord s n).gv = s.gv := rfl

@[simp] theorem ctl_setStore (s : State) (id j : Nat) (x : GvStore) : ctl (setStore s id x) j = ctl s j := rfl

@[simp] theorem ctl_setRes (s : State) (k j : Nat) (x : GvRes) : ctl (setRes s k x) j = ctl s j := rfl

@[simp] theorem ctl_digestNote (s : State) (object j : Nat) (added : Bool) (digest : Bytes) :
    ctl (digestNote s object added digest) j = ctl s j := rfl

@[simp] theorem resOf_setStore (s : State) (id j : Nat) (x : GvStore) : resOf (setStore s id x) j = resOf s j := rfl

@[simp] theorem freeRes_setStore (s : State) (id : Nat) (x : GvStore) : freeRes (setStore s id x) = freeRes s := rfl

@[simp] theorem store_setStore (s : State) (id : Nat) (x : GvStore) : (setStore s id x).gv.store = tput {} s.gv.store id x := rfl

@[simp] theorem res_setStore (s : State) (id : Nat) (x : GvStore) : (setStore s id x).gv.res = s.gv.res := rfl

@[simp] theorem res_gvCount (s : State) (i n : Nat) : (gvCount s i n).gv.res = s.gv.res := rfl

@[simp] theorem store_setRes (s : State) (k : Nat) (x : GvRes) : (setRes s k x).gv.store = s.gv.store := rfl

@[simp] theorem res_setRes (s : State) (k : Nat) (x : GvRes) : (setRes s k x).gv.res = tput {} s.gv.res k x := rfl

/-! ### TABLE.LOAD STORE (R190, R202) -/

/-- The object of a TABLE.LOAD, for its stamp and its grant. -/
abbrev tabKey (d : List W64) : Nat := stampKey okTable (tabId d)

/-- A TABLE.LOAD granted its table in this cycle (R77, R207). -/
abbrev tabGranted (s : State) (cs : Nat) (d : List W64) : State := grantCommit s cs 0x90 (tabKey d)

theorem tabRow_of_presents {s : State} {cs : Nat} {d : List W64} (hp : Presents s cs 0x90 d) (hf : Fresh s cs 0x90 (tabKey d))
    {sel : Nat → Bool} (hs : sel (tabAct d) = true) (body : State → CtlSeq → List W64 → CtlRes) :
    tabRow s cs sel body = (body (tabGranted s cs d) (ctl s cs) d).settle cs :=
  runCtl_of_presents hp hs hf _ body

/-- A TABLE.LOAD that has written its store entry and completed has changed that entry, the grant and the results alone. -/
theorem eq_of_stored {s t : State} {cs reason : Nat} {d : List W64} {x : GvStore} {obj : Option Nat}
    (ht : t = ctlComplete (setStore (tabGranted s cs d) (tabId d) x) cs reason none obj 192) :
    t = ctlComplete (grantCommit { s with gv := { s.gv with store := tput {} s.gv.store (tabId d) (tget {} t.gv.store (tabId d)) } }
      cs 0x90 (tabKey d)) cs reason none obj 192 := by
  have hx : tget {} t.gv.store (tabId d) = x := by simp [ht]
  rw [hx]
  exact ht

/-- The operand of TABLE.LOAD STORE fails its limits (R202). -/
abbrev storeLimit (s : State) (d : List W64) : Bool :=
  decide (df d 1 0 60 % 64 ≠ 0) || (!bit (wd d 1) 63 && !pagesInGen s (df d 1 0 60 / 4096 * 4096) (df d 1 0 60 % 4096 + 160))

/-- The first check that a record's own content and its ID's owner break (R190, R202). -/
def storeReason (s : State) (d : List W64) (b : Bytes) : Nat :=
  if recReason b ≠ 0 then recReason b else if tabOther s d = true then 0x0405 else 0

/-- A store entry with a record taken for a composition. -/
def GvStore.taken (x : GvStore) (b : Bytes) (c : Nat) : GvStore :=
  { x with present := true, record := b, comp := c, owned := true, enabled := true, reason := 0 }

section Store
variable {s : State} {cs status : Nat} {data b : Bytes} {d : List W64} (hp : Presents s cs 0x90 d)
  (hf : Fresh s cs 0x90 (tabKey d)) (ha : tabAct d = 0) (hb : fetchBytes s (wd d 1) 160 status data = some b)
  (hc : tabChecks s (ctl s cs) d false (storeLimit s d) = 0)
include hp hf ha hb hc

/-- The common checks passed, the record and the ID's owner decide. -/
theorem tableStore_decides : exec (.tableStore cs status data) s = .next
    ((if storeReason s d b ≠ 0 then tabRefuse (tabGranted s cs d) (tabId d) (storeReason s d b)
      else { s := setStore (tabGranted s cs d) (tabId d) ((gvStore s (tabId d)).taken b (df d 0 32 12)),
             obj := some (tabKey d), size := 192 }).settle cs) := by
  have hrow := tabRow_of_presents hp hf (sel := fun a => decide (a = 0)) (decide_eq_true ha)
  simp only [exec, execTableStore, hrow, fetchBytes_grantCommit, hb, pagesInGen_grantCommit, tabChecks_grantCommit,
    tabOther_grantCommit, gvStore_grantCommit, Option.isNone_some, Option.getD_some, hc]
  rfl

theorem tableStore_keeps (hr : recReason b = 0) (ho : tabOther s d = false) : exec (.tableStore cs status data) s = .next (ctlComplete
    (setStore (tabGranted s cs d) (tabId d) ((gvStore s (tabId d)).taken b (df d 0 32 12))) cs 0 none (some (tabKey d)) 192) := by
  simp [tableStore_decides hp hf ha hb hc, storeReason, hr, ho, CtlRes.settle]

theorem tableStore_refuses (hr : recReason b ≠ 0) : exec (.tableStore cs status data) s = .next (ctlComplete
    (setStore (tabGranted s cs d) (tabId d) { gvStore s (tabId d) with reason := recReason b }) cs (recReason b) none none 192) := by
  simp [tableStore_decides hp hf ha hb hc, storeReason, hr, CtlRes.settle, tabRefuse, refuse, ctlComplete]

end Store

/-! ### TABLE.LOAD INSTALL (R203, R204) -/

/-- A resident entry whose next generation loads: OLD retires, and NEW is OLD now. -/
def GvRes.reloaded (x : GvRes) : GvRes :=
  { x with oldLive := decide (x.newGen ≠ 0), oldGen := x.newGen, oldRec := x.newRec, oldRefs := x.newRefs,
           newGen := 0, newRec := [], newRefs := 0, closing := false, pend := none, loading := true,
           retired := if x.oldLive then some (x.oldGen, x.oldRec) else none }

theorem beginLoad_eq (s : State) (k : Nat) : beginLoad s k = setRes s k (tget {} s.gv.res k).reloaded := rfl

/-- The store entry of a descriptor's table with its reason cleared. -/
abbrev reasonCleared (s : State) (d : List W64) : GvStore := { gvStore s (tabId d) with reason := 0 }

/-- A TABLE.LOAD granted, and the reason in its table's status word cleared. -/
abbrev tabAdmitted (s : State) (cs : Nat) (d : List W64) : State := setStore (tabGranted s cs d) (tabId d) (reasonCleared s d)

theorem ne_default_of_present {x : GvStore} (h : x.present = true) : x ≠ {} := by
  rintro rfl
  simp at h

theorem ne_default_of_valid {x : GvRes} (h : x.valid = true) : x ≠ {} := by
  rintro rfl
  simp at h

section Install
variable {s : State} {cs k : Nat} {d : List W64} {x : GvRes} (hp : Presents s cs 0x90 d)
  (hf : Fresh s cs 0x90 (tabKey d)) (ha : tabAct d = 1) (hc : tabChecks s (ctl s cs) d false false = 0)
  (ho : tabOther s d = false) (hs : (gvStore s (tabId d)).present = true)
include hp hf ha hc ho hs

/-- A table with no resident entry takes a free one, which loads its first generation. -/
theorem tableInstall_takes (hr : resOf s (tabId d) = none) (hk : freeRes s = some k) : exec (.tableInstall cs) s = .next (setCtl
    (setRes (setStore (tabGranted s cs d) (tabId d) { reasonCleared s d with res := some k }) k
      { valid := true, table := tabId d, comp := (gvStore s (tabId d)).comp, loading := true })
    cs { ctl s cs with wait := .resident k }) := by
  have hrow := tabRow_of_presents hp hf (sel := fun a => decide (a = 1)) (decide_eq_true ha)
  have hstored : ((gvStore s (tabId d)).present = false) = False := by simp [hs]
  have hfree : ((none : Option (Nat × GvRes)).isNone = true ∧ (some k).isNone = true) = False := by simp
  simp only [exec, execTableInstall, hrow, tabChecks_grantCommit, hc, resOf_grantCommit, resOf_setStore, freeRes_grantCommit,
    freeRes_setStore, hr, hk, hfree, tabOther_grantCommit, ho, gvStore_grantCommit, hstored, CtlRes.settle]
  simp only [gvStore_setStore_same, setStore_setStore _ _ (ne_default_of_present (x := reasonCleared s d) hs), beginLoad_eq,
    res_setRes, tget_tput_same,
    setRes_setRes _ _ (ne_default_of_valid (x := { valid := true, table := tabId d, comp := (gvStore s (tabId d)).comp }) rfl)]
  rfl

theorem tableInstall_loads (hr : resOf s (tabId d) = some (k, x)) (hx : x.oldLive = false ∨ x.oldRefs = 0) :
    exec (.tableInstall cs) s = .next (setCtl (beginLoad (tabAdmitted s cs d) k) cs { ctl s cs with wait := .resident k }) := by
  have hrow := tabRow_of_presents hp hf (sel := fun a => decide (a = 1)) (decide_eq_true ha)
  have hstored : ((gvStore s (tabId d)).present = false) = False := by simp [hs]
  have hload : (x.oldLive = true ∧ x.oldRefs ≠ 0) = False := by
    rcases hx with h | h <;> simp [h]
  simp only [exec, execTableInstall, hrow, tabChecks_grantCommit, hc, resOf_grantCommit, resOf_setStore, hr, hload,
    tabOther_grantCommit, ho, gvStore_grantCommit, hstored]
  rfl

theorem tableInstall_waits (hr : resOf s (tabId d) = some (k, x)) (hl : x.oldLive = true) (hn : x.oldRefs ≠ 0) :
    exec (.tableInstall cs) s = .next (setCtl
      (setRes (tabAdmitted s cs d) k { x with closing := true, pend := some cs, waitT := s.now })
      cs { ctl s cs with wait := .install k }) := by
  have hrow := tabRow_of_presents hp hf (sel := fun a => decide (a = 1)) (decide_eq_true ha)
  have hstored : ((gvStore s (tabId d)).present = false) = False := by simp [hs]
  have hwait : (x.oldLive = true ∧ x.oldRefs ≠ 0) = True := by simp [hl, hn]
  simp only [exec, execTableInstall, hrow, tabChecks_grantCommit, hc, resOf_grantCommit, resOf_setStore, hr, hwait,
    tabOther_grantCommit, ho, gvStore_grantCommit, hstored]
  rfl

end Install

theorem installWaitEnd_loads {s : State} {id k cs : Nat} {x : GvRes} (hw : working s = true) (hr : resOf s id = some (k, x))
    (hp : x.pend = some cs) (hn : x.oldRefs = 0) : exec (.installWaitEnd id) s = .next
      (setCtl (beginLoad (gvCount s 6 ((s.now - x.waitT) * 7 / 4)) k) cs { ctl s cs with wait := .resident k }) := by
  simp only [exec, execInstallWaitEnd, hr, hp, hw, hn]
  rfl

/-- A resident entry whose new generation has loaded. -/
def GvRes.loadedAs (x : GvRes) (g : Nat) (b : Bytes) : GvRes :=
  { x with loading := false, retired := none, newGen := g, newRec := b, newRefs := 0 }

/-- A table whose next generation has loaded: it is NEW, and the last of its ID. -/
def genLoaded (s : State) (id k : Nat) (x : GvRes) : State :=
  setStore (setRes s k (x.loadedAs (nextGen (gvStore s id).lastGen) (gvStore s id).record)) id
    { gvStore s id with lastGen := nextGen (gvStore s id).lastGen }

@[simp] theorem store_genLoaded (s : State) (id k : Nat) (x : GvRes) : (genLoaded s id k x).gv.store =
    tput {} s.gv.store id { gvStore s id with lastGen := nextGen (gvStore s id).lastGen } := rfl

@[simp] theorem res_genLoaded (s : State) (id k : Nat) (x : GvRes) : (genLoaded s id k x).gv.res =
    tput {} s.gv.res k (x.loadedAs (nextGen (gvStore s id).lastGen) (gvStore s id).record) := rfl

@[simp] theorem ctl_genLoaded (s : State) (id k j : Nat) (x : GvRes) : ctl (genLoaded s id k x) j = ctl s j := rfl

/-- That, with the new generation's digest given to the root of trust. -/
abbrev genNoted (s : State) (id k : Nat) (x : GvRes) : State :=
  digestNote (genLoaded s id k x) (3 * 65536 + id) true (recDigest (gvStore s id).record)

section Resident
variable {s : State} {id k cs : Nat} {x : GvRes} (hw : working s = true) (ht : stagingWaits s = false)
  (hr : resOf s id = some (k, x)) (hl : x.loading = true) (hc : loadWaiter s k = some cs)
include hw ht hr hl hc

theorem installResident_completes (hn : x.retired = none) : exec (.installResident id) s =
    .next (ctlComplete (genNoted s id k x) cs 0 none (some (stampKey okTable id)) 192) := by
  simp only [exec, execInstallResident, hr, hw, ht, hl, hc, hn]
  rfl

theorem installResident_retires {r : Nat × Bytes} (hn : x.retired = some r) : exec (.installResident id) s =
    .next (ctlComplete (digestNote (genNoted s id k x) (3 * 65536 + id) false (recDigest r.2)) cs 0 none
      (some (stampKey okTable id)) 192) := by
  simp only [exec, execInstallResident, hr, hw, ht, hl, hc, hn]
  rfl

end Resident

/-! ### TABLE.LOAD RELEASE and DELETE (R202, R205) -/

/-- A resident entry that drains. -/
def GvRes.drained (x : GvRes) (delete : Bool) : GvRes :=
  { x with draining := true, deleting := delete || x.deleting, pend := none, closing := false, loading := false }

theorem releaseTable_resident {s : State} {id k : Nat} {x : GvRes} (hr : resOf s id = some (k, x)) (delete : Bool) :
    releaseTable s id delete = setRes s k (x.drained delete) := by
  simp [releaseTable, hr, GvRes.drained]

theorem releaseTable_deletes {s : State} {id : Nat} (hr : resOf s id = none) :
    releaseTable s id true = setStore s id { lastGen := (gvStore s id).lastGen } := by
  simp [releaseTable, hr]

section Release
variable {s : State} {cs k : Nat} {d : List W64} {x : GvRes} {sel : Nat → Bool} (hp : Presents s cs 0x90 d)
  (hf : Fresh s cs 0x90 (tabKey d)) (ha : sel (tabAct d) = true) (hc : tabChecks s (ctl s cs) d false false = 0)
  (ho : tabOther s d = false) (hs : (gvStore s (tabId d)).present = true)
include hp hf ha hc ho hs

theorem tabRelease_completes (delete : Bool) : tabRelease s cs sel delete =
    ctlComplete (releaseTable (tabAdmitted s cs d) (tabId d) delete) cs 0 none (some (tabKey d)) 192 := by
  have hstored : ((gvStore s (tabId d)).present = false) = False := by simp [hs]
  simp only [tabRelease, tabRow_of_presents hp hf ha, tabChecks_grantCommit, hc, tabOther_grantCommit, ho, gvStore_grantCommit, hstored]
  rfl

/-- Of a resident table the entry drains. -/
theorem tabRelease_drains (hr : resOf s (tabId d) = some (k, x)) (delete : Bool) : tabRelease s cs sel delete =
    ctlComplete (setRes (tabAdmitted s cs d) k (x.drained delete)) cs 0 none (some (tabKey d)) 192 := by
  rw [tabRelease_completes hp hf ha hc ho hs, releaseTable_resident (by simpa using hr)]

/-- What a table that drains reads, and that nothing else but the grant and the stamp has changed. -/
theorem tabRelease_drains_reads (hr : resOf s (tabId d) = some (k, x)) (delete : Bool) :
    ∃ t, tabRelease s cs sel delete = t ∧ Completed s t cs 0 ∧ tget {} t.gv.res k = x.drained delete ∧
      (gvStore t (tabId d)).reason = 0 ∧ t = ctlComplete (grantCommit { s with gv := { s.gv with
        store := tput {} s.gv.store (tabId d) { tget {} s.gv.store (tabId d) with reason := (tget {} t.gv.store (tabId d)).reason }
        res := tput {} s.gv.res k (tget {} t.gv.res k) } } cs 0x90 (tabKey d)) cs 0 none (some (tabKey d)) 192 := by
  refine ⟨_, tabRelease_drains hp hf ha hc ho hs hr delete, completed_ctlComplete (by simp) hp.wait_ne_stopped .., ?_, ?_, ?_⟩
  · simp
  · simp [gvStore]
  · simp only [ctlComplete_gv, res_setRes, store_setRes, store_setStore, tget_tput_same]
    rfl

/-- Of a table that is not resident the stored record goes at once. -/
theorem tabRelease_deletes (hr : resOf s (tabId d) = none) : tabRelease s cs sel true = ctlComplete
    (setStore (tabGranted s cs d) (tabId d) { lastGen := (gvStore s (tabId d)).lastGen }) cs 0 none (some (tabKey d)) 192 := by
  rw [tabRelease_completes hp hf ha hc ho hs, releaseTable_deletes (by simpa using hr), gvStore_setStore_same,
    setStore_setStore _ _ (ne_default_of_present (x := reasonCleared s d) hs)]

end Release

/-- The digests of a resident entry withdrawn. -/
abbrev withdrawn (s : State) (id : Nat) (x : GvRes) : State :=
  (resDigests x).foldl (fun s d => digestNote s (3 * 65536 + id) false d) s

theorem foldl_digestNote_gv (object : Nat) (l : List Bytes) (s : State) :
    (l.foldl (fun s d => digestNote s object false d) s).gv = s.gv := by
  induction l generalizing s with
  | nil => rfl
  | cons b l ih => exact ih _

theorem tableDrainEnd_frees {s : State} {id k : Nat} {x : GvRes} (hw : working s = true) (hr : resOf s id = some (k, x))
    (hd : x.draining = true) (hn : x.newRefs + x.oldRefs = 0) : exec (.tableDrainEnd id) s = .next (stateRecord
      (setStore (withdrawn (setRes s k {}) id x) id
        (if x.deleting then { lastGen := (gvStore s id).lastGen } else { gvStore s id with res := none })) 192) := by
  have hstore : gvStore (withdrawn (setRes s k {}) id x) id = gvStore s id := by
    rw [gvStore, foldl_digestNote_gv]
    rfl
  simp only [exec, execTableDrainEnd, hr, hw, hd, hn, hstore]
  rfl

/-- Settles O22: each clause names the state its command's lemma gives, and reads of it the results of R87 and the entries that were
written. -/
theorem codingTableCommands : Obligations.CodingTableCommands := by
  refine ⟨?store, ?storeRefused, ?install, ?installFresh, ?installWaits, ?waitEnd, ?resident, ?residentRetires, ?release,
    ?deleteResident, ?delete, ?drainEnd⟩
  case store =>
    intro s cs status data b d hp ha hf hb hc hr ho
    refine ⟨_, tableStore_keeps hp hf ha hb hc hr ho, completed_ctlComplete (by simp) hp.wait_ne_stopped .., ?_, eq_of_stored rfl⟩
    simp [gvStore, GvStore.taken]
  case storeRefused =>
    intro s cs status data b d hp ha hf hb hc hr
    refine ⟨_, tableStore_refuses hp hf ha hb hc hr, completed_ctlComplete (by simp) hp.wait_ne_stopped .., ?_, eq_of_stored rfl⟩
    simp [gvStore]
  case install =>
    intro s cs k d x hp ha hf hc ho hs hr hk hx
    refine ⟨_, tableInstall_loads hp hf ha hc ho hs hr hx, by simp, ?_, rfl⟩
    simp [beginLoad_eq, hk, GvRes.reloaded]
  case installFresh =>
    intro s cs k d hp ha hf hc ho hs hr hk
    refine ⟨_, tableInstall_takes hp hf ha hc ho hs hr hk, by simp, by simp, by simp [gvStore], ?_⟩
    simp only [setCtl_gv, res_setRes, store_setRes, store_setStore, tget_tput_same]
    rfl
  case installWaits =>
    intro s cs k d x hp ha hf hc ho hs hr hl hn
    exact ⟨_, tableInstall_waits hp hf ha hc ho hs hr hl hn, by simp, by simp, by simp⟩
  case waitEnd =>
    intro s id k cs x hw hr hk hp hn
    refine ⟨_, installWaitEnd_loads hw hr hp hn, by simp, ?_, ?_, ?_, rfl⟩
    all_goals simp [beginLoad_eq, hk, GvRes.reloaded]
  case resident =>
    intro s id k cs x hw ht hr hl hc hwait hn
    refine ⟨_, installResident_completes hw ht hr hl hc hn, completed_ctlComplete (by simp) (by simp [hwait]) .., ?_, ?_, ?_⟩
    · simp [gvStore]
    · simp [GvRes.loadedAs]
    · simp only [ctlComplete_gv, digestNote_gv, res_genLoaded, store_genLoaded, tget_tput_same]
      rfl
  case residentRetires =>
    intro s id k cs g b x hw ht hr hl hc hwait hn
    refine ⟨_, installResident_retires hw ht hr hl hc hn, completed_ctlComplete (by simp) (by simp [hwait]) .., ?_, ?_, ?_⟩
    · simp [GvRes.loadedAs]
    · simp [gvStore]
    · simp only [ctlComplete_gv, digestNote_gv, res_genLoaded, store_genLoaded, tget_tput_same]
      rfl
  case release =>
    intro s cs k d x hp ha hf hc ho hs hr
    obtain ⟨t, hrow, hreads⟩ := tabRelease_drains_reads (sel := fun a => decide (a = 2)) hp hf (decide_eq_true ha) hc ho hs hr false
    exact ⟨t, congrArg Host.Outcome.next hrow, hreads⟩
  case deleteResident =>
    intro s cs k d x hp ha hf hc ho hs hr
    have hact : decide (3 ≤ tabAct d) = true := decide_eq_true (Nat.le_of_eq ha.symm)
    obtain ⟨t, hrow, hreads⟩ := tabRelease_drains_reads (sel := fun a => decide (3 ≤ a)) hp hf hact hc ho hs hr true
    exact ⟨t, congrArg Host.Outcome.next hrow, hreads⟩
  case delete =>
    intro s cs d hp ha hf hc ho hs hr
    have hact : decide (3 ≤ tabAct d) = true := decide_eq_true (Nat.le_of_eq ha.symm)
    have hrow := tabRelease_deletes (sel := fun a => decide (3 ≤ a)) hp hf hact hc ho hs hr
    refine ⟨_, congrArg Host.Outcome.next hrow, completed_ctlComplete (by simp) hp.wait_ne_stopped .., ?_, eq_of_stored rfl⟩
    simp [gvStore]
  case drainEnd =>
    intro s id k x hw hr hd hn
    have hgv := foldl_digestNote_gv (3 * 65536 + id) (resDigests x) (setRes s k {})
    refine ⟨_, tableDrainEnd_frees hw hr hd hn, ?_, ?_, ?_⟩
    · simp [hgv]
    · simp [gvStore]
    · simp [gvStore]

end Sys2Proof.Machine
